-- ==== Sys2Proof/Word.lean ====
section
/-! DEFINITION. The word and byte types of the model. -/

namespace Sys2Proof

/-- A 32-bit register word (R11). -/
abbrev Word := BitVec 32

/-- A byte. -/
abbrev Byte := BitVec 8

end Sys2Proof
end

