-- ==== Sys2Proof/Syntax.lean ====
section
/-! DEFINITION. The commands of the GZ-8K4 block, one constructor of `Instr` per row of the opcode
table, and the types of their operands. The table gives the rows no operand fields; the operands are
what the outside world brings with the event (a level, a sample, a frame, a request), never a result
the rules compute (log entry 5). -/

namespace Sys2Proof

/-- The device states of Table 0.2 (R20). -/
inductive DevState where
  | off | boot | commit | run | hold | sleep | repair | safe
  deriving DecidableEq, Repr, Inhabited

/-- The two egress lanes (R398). -/
inductive LaneId where
  | a | b
  deriving DecidableEq, Repr, Inhabited

/-- The two Starling ports, SW and SE (R443). -/
inductive Side where
  | west | east
  deriving DecidableEq, Repr, Inhabited

/-- A direction of the perch grid, coded N 0, E 1, S 2, W 3 (R293). -/
inductive Dir where
  | n | e | s | w
  deriving DecidableEq, Repr, Inhabited

/-- Which encoder input an accepted change concerns; `both` is the same sample of R133. -/
inductive EncInput where
  | a | b | both
  deriving DecidableEq, Repr, Inhabited

/-- What wakes the device from SLEEP (R658). -/
inductive WakeSrc where
  | encA | encB
  | pin (p : Fin 48)
  deriving DecidableEq, Repr, Inhabited

/-- The agents that write pin settings (Table 14.2). -/
inductive Agent where
  | sec | sup | fab | mnt
  deriving DecidableEq, Repr, Inhabited

/-- Functions of the recovery ladder, in FUNC code order (R628). -/
inductive Func where
  | egress | hkc | starling | pixel | fabric
  deriving DecidableEq, Repr, Inhabited

/-- What the SECDED check of one word read gives; upsets come from outside (R280). -/
inductive Ecc where
  | clean | corrected | uncorrectable
  deriving DecidableEq, Repr, Inhabited

/-- Operand and accumulator formats (Table 9.1). -/
inductive Fmt where
  | int4 | int8 | int16 | e4m3 | e5m2 | bf16 | int32 | fp32
  deriving DecidableEq, Repr, Inhabited

/-- The predicate selector every operation carries (R213). -/
inductive PredSel where
  | always
  | p (k : Fin 8)
  deriving DecidableEq, Repr, Inhabited

/-- Where a stage operation takes a vector from (log entry 6): the stage before it (the input register
for V0), its own pipeline register, one of its accumulator vectors, or a scalar in every lane. -/
inductive VSrc where
  | prev | own
  | acc (j : Fin 16)
  | scalar (x : BitVec 32)
  deriving DecidableEq, Repr, Inhabited

/-- Where a lane-wise operation writes its vector (log entry 6). -/
inductive VDst where
  | out
  | acc (j : Fin 16)
  deriving DecidableEq, Repr, Inhabited

/-- Where a store, PUT, SEND or EGR takes its words from (log entry 6): the pipeline register of V3
packed in a format, or the input register. -/
inductive StSrc where
  | v3 (f : Fmt)
  | inp
  deriving DecidableEq, Repr, Inhabited

/-- Comparisons of CMP (Table 6.1). -/
inductive CmpOp where
  | eq | ne | lt | le | gt | ge
  deriving DecidableEq, Repr, Inhabited

/-- Mask logic of PLOG (Table 6.1). -/
inductive PlogOp where
  | and (a b dst : Fin 8)
  | or (a b dst : Fin 8)
  | not (a dst : Fin 8)
  | any (a dst : Fin 8)
  | all (a dst : Fin 8)
  deriving DecidableEq, Repr, Inhabited

/-- Orientation of a Wren access (R253 to R255). -/
inductive Orient where
  | narrow | row | column
  deriving DecidableEq, Repr, Inhabited

/-- A runner or egress token without its parity (Table 6.2). -/
structure Token where
  /-- [63:0] DATA -/
  data : BitVec 64
  /-- [65:64] CH -/
  ch : BitVec 2
  /-- [66] VOID -/
  void : Bool
  /-- [67] POISON -/
  poison : Bool
  /-- [71:68] TAG -/
  tag : BitVec 4
  deriving DecidableEq, Repr, Inhabited

/-- What the SFDP tables of the fitted flash say (R566). -/
structure Sfdp where
  /-- valid SFDP header and Basic Flash Parameter Table -/
  headerOk : Bool
  /-- density in Mbit -/
  densityMbit : Nat
  /-- quad I/O fast read with 4-byte-address instructions -/
  quadRead : Bool
  /-- 4-byte-address quad-input page program -/
  quadProgram : Bool
  /-- 4-byte-address 4 KiB erase -/
  erase4k : Bool
  /-- the quad-enable requirement is defined -/
  quadEnable : Bool
  deriving DecidableEq, Repr, Inhabited

/-- A maintenance request without OP and payload, which its command gives (Table 17.1). -/
structure MntReq where
  /-- lane it arrived on -/
  lane : LaneId
  /-- Ethernet source address -/
  srcMac : BitVec 48
  /-- source IPv4 address -/
  srcIp : BitVec 32
  /-- source UDP port -/
  srcPort : BitVec 16
  /-- MAGIC, bytes 0 to 1, byte 0 in the low bits -/
  magic : BitVec 16
  /-- VERSION -/
  version : BitVec 8
  /-- SEQ -/
  seq : BitVec 64
  /-- STATUS, 0 in a request -/
  status : BitVec 8
  /-- TARGET -/
  target : BitVec 16
  /-- SESSION -/
  session : BitVec 16
  /-- reserved bytes 15 and 20 to 23 -/
  reserved : BitVec 40
  /-- MAC, byte 0 in the top bits -/
  mac : BitVec 128
  deriving DecidableEq, Repr, Inhabited

/-- A maintenance answer (Tables 17.1, 17.2). -/
structure Answer where
  /-- OP with bit 7 set -/
  op : BitVec 8
  /-- STATUS -/
  status : BitVec 8
  /-- payload bytes -/
  payload : List (BitVec 8)
  deriving DecidableEq, Repr, Inhabited

/-- Where and in which domain a PTP message was sent (R424). -/
structure PtpHead where
  /-- destination IPv4 address -/
  dst : BitVec 32
  /-- destination UDP port -/
  port : BitVec 16
  /-- domainNumber -/
  domain : BitVec 8
  deriving DecidableEq, Repr, Inhabited

/-- An event message of domain 0 to 224.0.1.129 (R424). -/
def PtpHead.event : PtpHead := ⟨0xE0000181#32, 319#16, 0⟩

/-- A general message of domain 0 to 224.0.1.129 (R424). -/
def PtpHead.general : PtpHead := ⟨0xE0000181#32, 320#16, 0⟩

/-- A PTP timestamp: seconds and nanoseconds (R428). -/
structure PtpStamp where
  /-- secondsField -/
  sec : BitVec 48
  /-- nanosecondsField -/
  ns : BitVec 32
  deriving DecidableEq, Repr, Inhabited

/-- What an Announce carries, its dataset in the order IEEE 1588-2019 compares it (R426). -/
structure AnnData where
  /-- source port identity of the sender -/
  source : BitVec 80
  /-- logMessageInterval -/
  logInterval : BitVec 8
  /-- grandmaster priority 1 -/
  prio1 : Nat
  /-- grandmaster clock class -/
  clockClass : Nat
  /-- grandmaster clock accuracy -/
  accuracy : Nat
  /-- grandmaster offsetScaledLogVariance -/
  variance : Nat
  /-- grandmaster priority 2 -/
  prio2 : Nat
  /-- grandmaster identity -/
  gm : BitVec 64
  /-- steps removed -/
  steps : Nat
  deriving DecidableEq, Repr, Inhabited

/-- A Sync message (R425). -/
structure SyncData where
  /-- source port identity -/
  source : BitVec 80
  /-- sequenceId -/
  seqId : BitVec 16
  /-- two-step flag -/
  twoStep : Bool
  /-- originTimestamp -/
  origin : PtpStamp
  /-- correctionField, signed, 2^-16 ns -/
  corr : BitVec 64
  deriving DecidableEq, Repr, Inhabited

/-- A tick frame as received (Table 12.3). -/
structure TickFrame where
  /-- protocol version -/
  pv : BitVec 4
  /-- opened by SOTD: a detour tick -/
  detour : Bool
  /-- CRC good -/
  crcOk : Bool
  /-- closed by EOF, not EOFB -/
  eof : Bool
  /-- BAR -/
  bar : BitVec 12
  /-- DEFERRED -/
  deferred : Bool
  /-- ENCZ mark -/
  encz : Bool
  /-- HANDOVER -/
  handover : Bool
  /-- HOP -/
  hop : BitVec 12
  /-- LINE -/
  line : BitVec 48
  /-- MERGE -/
  merge : BitVec 8
  /-- EXCESS, 0.5 ns units -/
  excess : Int
  deriving DecidableEq, Repr, Inhabited

/-- What every data frame carries besides its payload (Table 12.2). -/
structure FrameHead where
  /-- CRC good -/
  crcOk : Bool
  /-- closed by EOF, not EOFB -/
  eof : Bool
  /-- protocol version -/
  pv : BitVec 4
  /-- SRC: a device ID field -/
  src : BitVec 16
  /-- HOP on arrival -/
  hop : BitVec 12
  deriving DecidableEq, Repr, Inhabited

/-- HELLO payload (Table 12.4). -/
structure Hello where
  /-- NONCE -/
  nonce : BitVec 32
  /-- STATE -/
  state : BitVec 4
  /-- BAR -/
  bar : BitVec 12
  /-- BAR_POS -/
  pos : BitVec 8
  /-- OFFSET -/
  offset : BitVec 8
  /-- HASH -/
  hash : BitVec 64
  /-- FLAGS -/
  flags : BitVec 8
  deriving DecidableEq, Repr, Inhabited

/-- MEMBER payload (Table 12.4). -/
structure MemberPay where
  /-- NONCE -/
  nonce : BitVec 32
  /-- STATE -/
  state : BitVec 4
  /-- BAR -/
  bar : BitVec 12
  /-- BAR_POS -/
  pos : BitVec 8
  /-- ROLES -/
  roles : BitVec 8
  /-- HASH -/
  hash : BitVec 64
  /-- LAST_LINE -/
  lastLine : BitVec 48
  /-- W_DELAY -/
  wDelay : BitVec 16
  /-- E_DELAY -/
  eDelay : BitVec 16
  deriving DecidableEq, Repr, Inhabited

/-- AGREE payload (Table 12.4). -/
structure AgreePay where
  /-- NONCE -/
  nonce : BitVec 32
  /-- EPOCH -/
  epoch : BitVec 32
  /-- GROUP_HASH -/
  hash : BitVec 256
  /-- RING_N -/
  ringN : BitVec 16
  /-- DETOUR_BAR -/
  dBar : BitVec 16
  /-- DETOUR_DIR -/
  dDir : BitVec 8
  /-- DETOUR_P -/
  dP : BitVec 16
  deriving DecidableEq, Repr, Inhabited

/-- Kinds of the EVENT frame (Table 12.4). -/
inductive StarEvent where
  | brk | heal | lost
  deriving DecidableEq, Repr, Inhabited

/-- SEAM_FRAG payload (Table 12.4). -/
structure FragPay where
  /-- LINE -/
  line : BitVec 48
  /-- H -/
  h : BitVec 16
  /-- X0 -/
  x0 : BitVec 16
  /-- X1 -/
  x1 : BitVec 16
  /-- CLASS -/
  cls : BitVec 8
  /-- SCORE -/
  score : BitVec 16
  /-- FLAGS -/
  flags : BitVec 16
  /-- BOX_ID -/
  boxId : BitVec 16
  /-- OFFSET -/
  offset : BitVec 8
  deriving DecidableEq, Repr, Inhabited

/-- Residuals and trims a calibration cycle ends with (R486, Table 13.2). -/
structure CalRes where
  /-- offset residual, LSB/16 -/
  offRes : Int
  /-- gain residual, 0.001 % -/
  gainRes : Int
  /-- sampling instant residual, ps -/
  skewRes : Int
  /-- offset trim, 0.5 LSB -/
  offTrim : Int
  /-- gain trim, 0.025 % -/
  gainTrim : Int
  /-- sampling instant trim, 5 ps -/
  skewTrim : Int
  /-- the cycle ended within its time -/
  finished : Bool
  deriving DecidableEq, Repr, Inhabited

/-- Where an injected conversion's request comes from (R517). -/
inductive InjSrc where
  | line | pin
  deriving DecidableEq, Repr, Inhabited

/-- What an I2C sensor answers (R552, R553). -/
inductive I2cAnswer where
  | data (v : BitVec 16)
  | nack
  | stuck
  deriving DecidableEq, Repr, Inhabited

/-- One constructor per row of the opcode table, in the table's order. An operand with a default is the outcome of a check,
a crossing or a header: the default is the one without a fault. -/
inductive Instr where
  | pgoodLow (ns : Nat)
  | aonUndervoltage
  | porEnd
  | resetNAssert (ns : Nat)
  | resetNRelease
  | supervisorWatchdogExpire
  | selfTestDone
  | spllLock
  | spllLockRetry
  | flashIdle
  | flashBusyTimeout
  | sfdpChecked (t : Sfdp)
  | logMapsRestored
  | pointerRead
  | headerChecked
  | signatureVerified
  | sectionStreamed
  | fitChecksDone (upset : Bool := false)
  | commitEdge
  | commitDone
  | lockstepFault
  | supervisorResume
  | secHalvesDisagree
  | ladleHalvesDisagree
  | sprueHalvesDisagree
  | lineTimingHalvesDisagree
  | refclkLoss
  | floorWindow (p : Fin 72) (cycles : Nat)
  | encEdge (inp : EncInput) (samples : Nat)
  | lineTrigger
  | deferredTrigger
  | enczEdge (samples : Nat)
  | stbAssert (k : Fin 4)
  | fieldGateOpen (k : Fin 4)
  | stbDeassert (k : Fin 4)
  | fieldGateClose (k : Fin 4) (badRows : List (Fin 32))
  | stopDetect
  | drainComplete
  | holdEntry
  | sleepEntry
  | wakeEvent (w : WakeSrc)
  | wakeComplete (found : List (Fin 72 × Nat × Ecc))
  | conversionComplete (k : Fin 4) (px : List (BitVec 12)) (shadow : List (BitVec 12))
  | ladleLineComplete (reg : List (Fin 4 × Ecc))
  | darkColumnExclude (left : Bool) (i : Fin 32)
  | affWindowEnd
  | affThaw
  | ingressLine (parity : List (Fin 72 × Nat × Bool) := [])
  | ingressWordWrite (p : Fin 72)
  | historyScrub (corrected : Nat) (bad : List (Fin 256))
  | beatStart (p : Fin 72) (late : Nat) (slip : Bool)
  | lagTimeout (p : Fin 72)
  | mouldStart (p : Fin 72) (overrun : Bool)
  | titheSnapshot (p : Fin 72)
  | titheSlot (p : Fin 72) (own re arb : BitVec 32) (store : Ecc := .clean) (ecc eccArb : List Ecc := [])
  | mvm (p : Fin 72) (v : Fin 4) (g : PredSel) (f : Fmt) (acc : Fin 16) (x : VSrc)
  | opa (p : Fin 72) (v : Fin 4) (g : PredSel) (f : Fmt) (a b : VSrc)
  | lmac (p : Fin 72) (v : Fin 4) (g : PredSel) (f : Fmt) (acc : Fin 16) (a b : VSrc)
  | add (p : Fin 72) (v : Fin 4) (g : PredSel) (f : Fmt) (a b : VSrc) (d : VDst)
  | sub (p : Fin 72) (v : Fin 4) (g : PredSel) (f : Fmt) (a b : VSrc) (d : VDst)
  | mul (p : Fin 72) (v : Fin 4) (g : PredSel) (f : Fmt) (a b : VSrc) (d : VDst)
  | max (p : Fin 72) (v : Fin 4) (g : PredSel) (f : Fmt) (a b : VSrc) (d : VDst)
  | min (p : Fin 72) (v : Fin 4) (g : PredSel) (f : Fmt) (a b : VSrc) (d : VDst)
  | rq (p : Fin 72) (v : Fin 4) (g : PredSel) (f : Fmt) (acc : Fin 16) (desc : Fin 8)
  | lut (p : Fin 72) (v : Fin 4) (g : PredSel) (wide : Bool) (x : VSrc)
  | cmp (p : Fin 72) (v : Fin 4) (g : PredSel) (f : Fmt) (op : CmpOp) (a b : VSrc) (m : Fin 8)
  | plog (p : Fin 72) (v : Fin 4) (g : PredSel) (op : PlogOp)
  | sel (p : Fin 72) (v : Fin 4) (g : PredSel) (m : Fin 8) (a b : VSrc) (d : VDst) (f : Fmt := .int32)
  | shf (p : Fin 72) (v : Fin 4) (g : PredSel) (q : Fin 16) (x : VSrc) (d : VDst) (f : Fmt := .int32)
  | red (p : Fin 72) (v : Fin 4) (g : PredSel) (f : Fmt) (max : Bool) (x : VSrc) (d : VDst)
  | aclr (p : Fin 72) (v : Fin 4) (g : PredSel) (accs : BitVec 16)
  | amov (p : Fin 72) (v : Fin 4) (g : PredSel) (src dst : Fin 16)
  | ldw (p : Fin 72) (g : PredSel) (ag : Fin 8) (ecc : List Ecc)
  | stw (p : Fin 72) (g : PredSel) (ag : Fin 8) (src : StSrc)
  | ldn (p : Fin 72) (g : PredSel) (ag : Fin 8) (ecc : Ecc)
  | stn (p : Fin 72) (g : PredSel) (ag : Fin 8) (src : StSrc)
  | ldt (p : Fin 72) (v : Fin 4) (g : PredSel) (ag : Fin 8) (half : Bool) (ecc : List Ecc)
  | put (p : Fin 72) (g : PredSel) (dir : Dir) (o : Orient) (unit : Nat) (ac : Fin 16) (src : StSrc)
  | send (p : Fin 72) (g : PredSel) (dir : Dir) (ch : Fin 4) (tag : BitVec 4) (src : StSrc)
  | recv (p : Fin 72) (g : PredSel) (link : Dir) (ch : Fin 4) (pd : Option (Fin 8))
  | egr (p : Fin 72) (g : PredSel) (tag : BitVec 4) (src : StSrc)
  | wait (p : Fin 72) (k : Fin 16) (n : Nat)
  | linkTransfer (p : Fin 72) (dir : Dir)
  | tokenReceive (p : Fin 72) (dir : Dir) (parityOk : Bool)
  | tokenResend (p : Fin 72) (dir : Dir) (parityOk : Bool)
  | creditReturn (p : Fin 72) (dir : Dir) (ch : Fin 4) (parityOk : Bool)
  | creditResync (p : Fin 72) (link : Dir) (ch : Fin 4)
  | sendCreditTimeout (p : Fin 72)
  | waitTimeout (p : Fin 72)
  | elasticWatchFire (grp : Fin 16)
  | spillWrite (p : Fin 72)
  | riserRead (p : Fin 72) (dir : Dir) (ch : Fin 4) (ecc : List Ecc)
  | nbwRequest (p : Fin 72) (dir : Dir) (parity : Option Bool := none)
  | nbwAccept (p : Fin 72) (port : Dir) (ecc : Ecc)
  | nbwLand (p : Fin 72)
  | forcedSlot (p : Fin 72)
  | loaderWrite (p : Fin 72) (rgn : Fin 16) (row : Nat)
  | correctionWriteback (p : Fin 72)
  | wrenScrubRow (p : Fin 72) (ecc : List Ecc)
  | residentRewriteDone (p : Fin 72)
  | retentionCheckDone (p : Fin 72) (found : List (Nat × Ecc))
  | spareSelfTest (failed : List (Fin 8))
  | repairStart
  | repairReloadDone (flashOk : Bool)
  | repairMapApply
  | repairGapEnd
  | sprueFormRecords (hist : List (Fin 256 × Ecc) := [])
  | sprueToken (row col : Fin 8) (parity : Option Bool)
  | cropCopy (store : Ecc)
  | eventRelease (inTime : Bool)
  | evpDelayedAct (k : Fin 16)
  | pulseEnd (k : Fin 16)
  | seamFragReceive (side : Side) (hd : FrameHead) (f : FragPay)
  | seamResolvePoint (boxId : BitVec 16)
  | seamResolveReceive (side : Side) (hd : FrameHead) (boxId partner : BitVec 16)
  | seamRelease (boxId : BitVec 16)
  | flushTimeout
  | keepalive
  | datagramTx (l : LaneId)
  | ringAgeOut
  | retryRequest (l : LaneId) (srcIp : BitVec 32) (payload : List (BitVec 8) := [])
  | retransmit (l : LaneId) (ecc : Ecc)
  | blockLockGain (l : LaneId)
  | blockLockLoss (l : LaneId) (rs : Bool := false)
  | arpRequestReceive (l : LaneId) (mac : BitVec 48) (ip target : BitVec 32)
  | arpPacketReceive (l : LaneId) (mac : BitVec 48) (ip : BitVec 32)
  | arpResolveTimer (l : LaneId)
  | announceReceive (l : LaneId) (a : AnnData) (h : PtpHead := .general)
  | announceTimeout (l : LaneId)
  | syncReceive (l : LaneId) (m : SyncData) (h : PtpHead := .event) (quanta : Int := 0)
  | followUpReceive (l : LaneId) (source : BitVec 80) (seqId : BitVec 16) (origin : PtpStamp) (corr : BitVec 64)
      (h : PtpHead := .general)
  | followUpTimeout (l : LaneId)
  | delayReqTimer (l : LaneId) (quanta : Int)
  | delayRespReceive (l : LaneId) (source : BitVec 80) (seqId : BitVec 16) (rx : PtpStamp) (corr : BitVec 64)
      (h : PtpHead := .general) (logInterval : BitVec 8 := 0) (requesting : List (BitVec 8) := [])
  | timePathMarker (l : LaneId) (txErr rxErr : Int)
  | ptpFailback
  | tlcResync
  | ppsSecond
  | ppsWidthEnd
  | linkSync (side : Side)
  | linkDown (side : Side)
  | tickReceive (side : Side) (t : TickFrame)
  | helloTimer
  | helloReceive (side : Side) (hd : FrameHead) (h : Hello)
  | echoTimer (side : Side)
  | echoReceive (side : Side) (hd : FrameHead) (seq : BitVec 8) (ret : Bool) (delay : Nat)
  | memberTimer
  | memberReceive (side : Side) (hd : FrameHead) (m : MemberPay)
  | claimTimer
  | claimReceive (side : Side) (hd : FrameHead) (nonce epoch : BitVec 32)
  | agreeTimer
  | agreeReceive (side : Side) (hd : FrameHead) (a : AgreePay)
  | agreeTimeout
  | claimWon
  | roleTimer
  | roleReceive (side : Side) (hd : FrameHead) (epoch : BitVec 32) (bar holder : BitVec 16)
  | handoverTimeout
  | memberLineWait
  | dupIdClear
  | neighbourLost (side : Side)
  | starlingEventReceive (side : Side) (hd : FrameHead) (k : StarEvent) (port : Side) (subject : BitVec 16)
  | portModeChange (side : Side)
  | scanConversion (raw : Int)
  | hkcResultConsume
  | rotationTick
  | sliceRoleRotate
  | calibrationDone (c : CalRes)
  | groundCheckFail
  | refSettled
  | refCheckFail
  | railOutOfWindow (i : Fin 8)
  | sensorExclude (j : Fin 6)
  | integWindowOpen
  | integWindowClose (samples : List (Nat × Int)) (close : Nat)
  | integOutOfWindow (k : Fin 4)
  | integSaturated (k : Fin 4)
  | injectRequest (src : InjSrc)
  | injectedResult (raw : Int)
  | sleepScan (codes : List Int)
  | thermalTrip
  | pinInterrupt (p : Fin 48) (level : Bool) (samples : Nat)
  | supActUpdate (p : Fin 48)
  | i2cPoll (m : Fin 4) (a : I2cAnswer)
  | i2cStretchTimeout (m : Fin 4)
  | read (q : MntReq) (addr : BitVec 32) (count : BitVec 16)
  | latchedPairRead (addr : BitVec 32)
  | write (q : MntReq) (addr : BitVec 32) (words : List (BitVec 32))
  | clearEncErrSticky (v : Bool)
  | clearLimitSticky (v : Bool)
  | clearWoViolation (v : Bool)
  | rearmFaultSummary (v : Bool)
  | clearIntStatus (bank : Fin 2) (bits : BitVec 24)
  | gpioCfgWrite (who : Agent) (p : Fin 48) (v : BitVec 32)
  | gpioDataWrite (who : Agent) (bank : Fin 2) (v : BitVec 24)
  | gpioSet (who : Agent) (bank : Fin 2) (v : BitVec 24)
  | gpioClr (who : Agent) (bank : Fin 2) (v : BitVec 24)
  | gpioTgl (who : Agent) (bank : Fin 2) (v : BitVec 24)
  | logRead (q : MntReq) (first : BitVec 32) (count : BitVec 16)
  | nvmLock (q : MntReq)
  | nvmRenew (q : MntReq)
  | nvmUnlock (q : MntReq)
  | nvmErase (q : MntReq) (slot : BitVec 8) (sector : BitVec 32) (count : BitVec 16)
  | nvmProgram (q : MntReq) (slot : BitVec 8) (offset : BitVec 32) (data : List (BitVec 8))
  | nvmVerify (q : MntReq) (slot : BitVec 8)
  | nvmSwitch (q : MntReq) (slot : BitVec 8) (ok : Bool)
  | flashOpDone (ok : Bool)
  | nvmLeaseExpire
  | otpKey (q : MntReq) (slot : BitVec 8) (digest : BitVec 256) (took : BitVec 256)
  | otpRevoke (q : MntReq) (slot : BitVec 8) (took : Bool)
  | otpRollback (q : MntReq) (value : BitVec 32) (took : BitVec 64)
  | otpRecovery (q : MntReq) (lane pfx : BitVec 8) (ip : BitVec 32) (took : BitVec 38)
  | reinitEgress (q : Option MntReq)
  | reinitHkc (q : Option MntReq)
  | reinitStarling (q : Option MntReq)
  | reinitPixel (q : Option MntReq)
  | reinitFabric (q : Option MntReq)
  | reinitDone (f : Func) (cal : List CalRes)
  | funcWatchdogExpire (f : Func)
  | resetWarm (q : Option MntReq)
  | powerCycle (q : MntReq)
  | pwrcycTimeout
  | logCommit (ok : Bool)
  | mapSnapshotCommit (ok : Bool)
  | logSectorErase
  | boundaryScanInstruction (drives : Bool) (cells : List Bool)
  | secContextResume
  | nvmVerifyDone
  | receivedFrameDrop (l : LaneId) (frame : List (BitVec 8))
  | lineOutPulseEnd (p : Fin 48)
  | bankSupplyRangeDetect (b : Fin 2) (mv : Nat)
  deriving DecidableEq, Repr, Inhabited

end Sys2Proof
end

