-- ==== Sys2Proof/Decode.lean ====
section
/-! DEFINITION. The decoder of the opcode table. The table gives no row any bits: the commands of this block arrive on
pins, lanes and links in their own forms, and no word spells one. -/

namespace Sys2Proof

/-- The command a word spells by the table's bits: none, for every row of the table is without bits. -/
def decodeTableWord (_nbits _w : Nat) : Option Instr :=
  none

end Sys2Proof
end

