-- ==== Sys2Proof/Machine/Bytes.lean ====
section
/-! DEFINITION. Byte-order and bit-field helpers, the CRC-32C of R601, and list helpers of fixed shape. -/

namespace Sys2Proof.Machine

/-- The `n` low bytes of `x`, least significant first (R9). -/
def le (n x : Nat) : List Byte :=
  match n with
  | 0 => []
  | k + 1 => BitVec.ofNat 8 x :: le k (x / 256)

/-- The number that little-endian bytes spell (R9). -/
def ofLe : List Byte → Nat
  | [] => 0
  | b :: bs => b.toNat + 256 * ofLe bs

/-- The `n` low bytes of `x`, most significant first. -/
def be (n x : Nat) : List Byte :=
  (le n x).reverse

/-- The number that big-endian bytes spell. -/
def ofBe (bs : List Byte) : Nat :=
  ofLe bs.reverse

/-- `n` bytes of `bs` from position `off`. -/
def slice (bs : List Byte) (off n : Nat) : List Byte :=
  (bs.drop off).take n

/-- The little-endian field of `n` bytes at position `off`. -/
def field (bs : List Byte) (off n : Nat) : Nat :=
  ofLe (slice bs off n)

/-- Bits `[lo + n - 1 : lo]` of a number. -/
def bits (x lo n : Nat) : Nat :=
  x / 2 ^ lo % 2 ^ n

/-- A number read in two's complement of `w` bits. -/
def signed (w x : Nat) : Int :=
  (BitVec.ofNat w x).toInt

/-- An integer as the raw number of `w` bits in two's complement. -/
def unsign (w : Nat) (x : Int) : Nat :=
  (BitVec.ofInt w x).toNat

/-- A truth value as a bit. -/
def bit (b : Bool) : Nat :=
  if b then 1 else 0

/-- An integer kept within `lo` and `hi`. -/
def clampInt (lo hi x : Int) : Int :=
  if x < lo then lo else if hi < x then hi else x

/-- Saturation to `w` bits in two's complement. -/
def satInt (w : Nat) (x : Int) : Int :=
  clampInt (-(2 ^ (w - 1) : Nat)) ((2 ^ (w - 1) : Nat) - 1) x

/-- One count more, saturating at the largest value of `w` bits (R634). -/
def satInc (w x : Nat) : Nat :=
  if x + 1 < 2 ^ w then x + 1 else 2 ^ w - 1

/-- `n` counts more, saturating at the largest value of `w` bits. -/
def satAdd (w n x : Nat) : Nat :=
  if x + n < 2 ^ w then x + n else 2 ^ w - 1

/-- Division of integers rounding to nearest, a tie to even; `d` positive. -/
def divNearestEven (x : Int) (d : Nat) : Int :=
  let q := x.fdiv d
  let r := x - q * d
  if 2 * r < d then q
  else if (d : Int) < 2 * r then q + 1
  else if q % 2 = 0 then q else q + 1

/-- Division of integers rounding to nearest, a tie upward; `d` positive. -/
def divNearestUp (x : Int) (d : Nat) : Int :=
  (2 * x + d).fdiv (2 * d)

/-- `List.set` under a name of its own: position `i` of `l` becomes `f` of it. -/
def modifyAt {α : Type} (i : Nat) (f : α → α) (l : List α) : List α :=
  l.modify i f

/-- Position `i` of a vector becomes `f` of it. -/
def vmod {α : Type} {n : Nat} (v : Vector α n) (i : Fin n) (f : α → α) : Vector α n :=
  v.set i (f v[i])

/-- One shift of the reflected Castagnoli CRC (R601). -/
def crcShift (c : BitVec 32) : BitVec 32 :=
  if c.getLsbD 0 then (c >>> 1) ^^^ 0x82F63B78#32 else c >>> 1

/-- One byte into the reflected Castagnoli CRC (R601). -/
def crcByte (c : BitVec 32) (b : Byte) : BitVec 32 :=
  let x := c ^^^ b.zeroExtend 32
  crcShift (crcShift (crcShift (crcShift (crcShift (crcShift (crcShift (crcShift x)))))))

/-- CRC-32C over bytes (R601). -/
def crc32c (bs : List Byte) : BitVec 32 :=
  bs.foldl crcByte 0xFFFFFFFF#32 ^^^ 0xFFFFFFFF#32

/-- The numbers from `lo` to `hi - 1`. -/
def span (lo hi : Nat) : List Nat :=
  (List.range (hi - lo)).map (lo + ·)

/-- The largest of a list, 0 when empty. -/
def maxOf (l : List Nat) : Nat :=
  l.foldl Nat.max 0

/-- Insertion into an ascending list. -/
def insertAsc (x : Int) : List Int → List Int
  | [] => [x]
  | y :: ys => if x ≤ y then x :: y :: ys else y :: insertAsc x ys

/-- An ascending copy of a list. -/
def sortAsc : List Int → List Int
  | [] => []
  | x :: xs => insertAsc x (sortAsc xs)

/-- Number of set bits. -/
def popcount (w : Nat) (x : BitVec w) : Nat :=
  ((List.range w).filter fun i => x.getLsbD i).length

end Sys2Proof.Machine
end

