-- ==== Sys2Proof/Config.lean ====
section
/-! DEFINITION. Values the spec leaves open, as uninterpreted constants: nothing can be proved of which value
one takes. Those with an index are applied to `State.freeCtr`, which each use advances (log entry 8). -/

namespace Sys2Proof.Config

/-- Draws of the SEC block's random source: STREAM, NONCE and SESSION (R410, R458, R635). -/
opaque random : Nat → Nat

/-- The servo's new frequency term in 2^-16 ppm, whose law the spec does not give (R427). -/
opaque servoFreq : Nat → Int

/-- The outcome of an input the spec says may or may not take effect: PGOOD_IN low for 100 ns to 1 µs (R650),
RESET_N low for 20 ns to 100 ns (R665). -/
opaque mayTake : Nat → Bool

/-- A value an instruction gives where the spec states none. -/
opaque value : Nat → Nat

/-- The sign of a floating-point result that is exactly zero, which the spec does not state, as a function of the
operands (R340, R342). -/
opaque zeroSign : Nat → Nat → Bool

/-- Which operand MAX or MIN gives where neither compares greater: a NaN, or zeros of both signs (R342). -/
opaque pickFirst : Nat → Nat → Bool

/-- The operations a 16-byte bundle holds, whose encoding the spec does not give (Table 6.5). The perch they name
is without meaning. -/
opaque bundle : Nat → List Instr

/-- The unit a PUT of a mould addresses in the beat of a line, from the unit its bundle names and the line: the spec
gives the address form of a PUT in a bundle nowhere, nor how it alternates between the halves of a double buffer (R229). -/
opaque putUnit : Nat → Nat → Nat

/-- The 8 check bits of 64 data bits: the spec gives the code's matrix nowhere (R251). -/
opaque checkBits : BitVec 64 → BitVec 8

/-- A housekeeping result in 1/16 LSB from its raw code, the offset trim and the gain trim of its slice, where a trim
is not zero: the spec does not give the law of the correction (R497). -/
opaque trimmed : Int → Int → Int → Int

end Sys2Proof.Config
end

