-- ==== Sys2Proof/Machine/State.lean ====
section
/-! DEFINITION. The state of the GZ-8K4 block as plain data, one structure per block of the spec, with the
rule that names each field, and `State.reset`: the state at AON start, right after a POR has ended. A field
marked (3) has a reset value the spec does not state, see log entry 3; one marked (4) is the model's own,
see log entry 4. -/

namespace Sys2Proof.Machine

/-- Why a step stops. No meaning of this model stops: every command has the effect the spec gives it,
or none where the event it names cannot arise in the state (log entry 1). -/
inductive Fault where
  deriving DecidableEq, Repr

/-- Why a command has no meaning. -/
inductive Refusal where
  /-- The command of this mnemonic has no meaning yet; safe: nothing is claimed of it. -/
  | notModelled (mnemonic : String)
  deriving DecidableEq, Repr

/-- Which SAFE the device is in (R588, R589). -/
inductive SafeKind where
  /-- not in SAFE -/
  | none
  /-- SAFE after a refusal -/
  | refusal
  /-- SAFE after an accepted image -/
  | accepted
  deriving DecidableEq, Repr

/-- What a Finch stalls on (R219, R240, R260, R270, R322). -/
inductive StallKind where
  | none | send | recv | wait
  deriving DecidableEq, Repr

/-- How a new encoder master starts its triggers (R463, R464). -/
inductive HandState where
  /-- nothing awaited -/
  | none
  /-- waits for a tick marked HANDOVER -/
  | tick
  /-- waits for MEMBER frames of its bar -/
  | member
  deriving DecidableEq, Repr

/-- Supply range a pin bank has detected (R692). -/
inductive BankRange where
  | absent | v18 | v33
  deriving DecidableEq, Repr

/-- A session command that runs in the background (R627, R639, R640). -/
inductive SessOp where
  /-- NVM_ERASE: slot, first sector left, sectors left -/
  | erase (slot sector count : Nat)
  /-- NVM_PROGRAM: slot, offset left, bytes left -/
  | program (slot offset : Nat) (data : List (BitVec 8))
  /-- NVM_VERIFY: slot -/
  | verify (slot : Nat)
  deriving DecidableEq, Repr

/-- A background session command with the request it answers. -/
structure SessCmd where
  /-- OP of the request -/
  op : Nat
  /-- the request -/
  req : MntReq
  /-- its payload -/
  payload : List (BitVec 8)
  /-- what is left of it -/
  todo : SessOp
  deriving DecidableEq, Repr

/-- The payload of a Starling data frame (Table 12.4). -/
inductive StarFrame where
  | hello (h : Hello)
  | echo (seq : Nat) (ret : Bool)
  | member (m : MemberPay)
  | claim (nonce epoch : BitVec 32)
  | agree (a : AgreePay)
  | role (epoch : BitVec 32) (bar holder : BitVec 16)
  | event (k : StarEvent) (port : Side) (subject : BitVec 16)
  | seamFrag (f : FragPay)
  | seamResolve (boxId partner : BitVec 16)
  deriving DecidableEq, Repr

/-- The symbol a Starling frame opens with (Table 12.1). -/
inductive Start where
  | sot | sotd | sod
  deriving DecidableEq, Repr

/-- Something that has left the package (R81). -/
inductive Out where
  /-- an Ethernet frame on a lane, from its destination address to its FCS (R398, R411) -/
  | frame (lane : LaneId) (bytes : List (BitVec 8))
  /-- a Starling frame on a port: its start symbol, its bytes, and whether EOF closes it (R450, R454) -/
  | star (side : Side) (start : Start) (bytes : List (BitVec 8)) (eof : Bool)
  /-- a general pin drives a new level, or none any more (R528, R529) -/
  | pin (pin : Nat) (level : Option Bool)
  deriving DecidableEq, Repr

/-- One NVM log record waiting in the AON queue or committed (Table 18.9). -/
structure LogRec where
  /-- R680: KIND of Table 18.10 (3) -/
  kind : Nat
  /-- R680: SYS.STATE.CODE at the event (3) -/
  state : Nat
  /-- R680: fault code where the kind names one (3) -/
  code : BitVec 16
  /-- R680: L_det of R94, or the line counter (3) -/
  lDet : Nat
  /-- R680: L_sus of R94 (3) -/
  lSus : Nat
  /-- R680: AON time since the last POR, in µs (3) -/
  uptimeUs : Nat
  /-- R680: SYS.BOOT_COUNT at the event (3) -/
  bootCount : Nat
  /-- R680: PTP seconds at the event, or 0 (3) -/
  ptpSec : Nat
  /-- R680: PTP_STATE at the event (3) -/
  ptpState : Nat
  /-- R680: DATA of Table 18.10 (3) -/
  data : List (BitVec 8)
  /-- R680: INDEX, given at the commit (3) -/
  index : Nat
  deriving DecidableEq, Repr

/-- `LogRec` at AON start. -/
def LogRec.reset : LogRec where
  kind := 0
  state := 0
  code := 0
  lDet := 0
  lSus := 0
  uptimeUs := 0
  bootCount := 0
  ptpSec := 0
  ptpState := 0
  data := []
  index := 0

/-- The FLT block and the fault bookkeeping of the AON domain (Table 17.7). -/
structure Flt where
  /-- R634: STATUS.WO_VIOLATION -/
  woViolation : Bool
  /-- R634: STATUS.SUMMARY_VALID -/
  summaryValid : Bool
  /-- R23: when SUMMARY_VALID was last set (4) -/
  summaryAt : Option Nat
  /-- R23: when WO_VIOLATION was last set (4) -/
  woAt : Option Nat
  /-- R634: SUMMARY.CODE -/
  summaryCode : BitVec 16
  /-- R634: LDET -/
  ldet : Nat
  /-- R634: latched LDET_HI -/
  ldetHi : Nat
  /-- R634: LSUS -/
  lsus : Nat
  /-- R634: latched LSUS_HI -/
  lsusHi : Nat
  /-- R634: WO_COUNT -/
  woCount : Nat
  /-- R634: EVT_DROP -/
  evtDrop : Nat
  /-- R364: SUMMARY_LOST -/
  summaryLost : Nat
  /-- R634: CLASSn counters, sparse by class, unlisted 0 -/
  classCount : List (Nat × Nat)
  /-- R364: codes waiting for a line summary, at most 16 (3) -/
  sumQueue : List (BitVec 16)
  /-- R88: fault codes whose flag still stands (R88, Table 3.1) (3) -/
  standing : List (BitVec 16)
  /-- R115: perch and line of the last credit timeout, for the recurrence rule (3) -/
  creditSeen : List (Nat × Nat)
  /-- R115: (perch, region) rewritten under R285, for the recurrence rule (3) -/
  reloadedRgn : List (Nat × Nat)
  /-- R112: (perch judged faulty once, slice, checker) (3) -/
  titheFound : List (Nat × Nat × Nat)
  deriving DecidableEq, Repr

/-- `Flt` at AON start. -/
def Flt.reset : Flt where
  woViolation := false
  summaryValid := false
  summaryAt := none
  woAt := none
  summaryCode := 0
  ldet := 0
  ldetHi := 0
  lsus := 0
  lsusHi := 0
  woCount := 0
  evtDrop := 0
  summaryLost := 0
  classCount := []
  sumQueue := []
  standing := []
  creditSeen := []
  reloadedRgn := []
  titheFound := []

/-- The NVM log machinery held in the AON domain (R678 to R684). -/
structure Log where
  /-- R683: records waiting for commit (3) -/
  queue : List LogRec
  /-- R683: FAULT records dropped since the last committed one (3) -/
  dropped : Nat
  /-- R634: FLT.LOG_NEXT -/
  logNext : Nat
  /-- R634: FLT.LOG_FIRST -/
  logFirst : Nat
  /-- R684: next free slot of the record ring, 0 to 65,279 (3) -/
  nextSlot : Nat
  /-- R679: a map snapshot waits for commit (3) -/
  snapPending : Bool
  /-- R679: next free snapshot slot, 0 to 15 (3) -/
  snapSlot : Nat
  /-- R679: SEQ of the last committed snapshot (3) -/
  snapSeq : Nat
  /-- R626: S_c, the committed sequence checkpoint -/
  sc : Nat
  /-- R626: S_c the next snapshot carries (3) -/
  scWant : Nat
  deriving DecidableEq, Repr

/-- `Log` at AON start. -/
def Log.reset : Log where
  queue := []
  dropped := 0
  logNext := 0
  logFirst := 0
  nextSlot := 0
  snapPending := false
  snapSlot := 0
  snapSeq := 0
  sc := 0
  scWant := 0

/-- Recovery-ladder state of one function's watchdog (R645). -/
structure FuncWd where
  /-- R645: expiries without progress (3) -/
  expiries : Nat
  /-- R645: the function has progressed since the last expiry (3) -/
  progress : Bool
  /-- R645: when the supervisor's re-init ended (3) -/
  reinitEnd : Option Nat
  /-- R645: expiries within 60 s after that re-init (3) -/
  afterReinit : Nat
  /-- R645: when RUN followed a WARM reset made for this function (3) -/
  warmRun : Option Nat
  /-- R645: the last WARM reset was made for this function (3) -/
  bySupWarm : Bool
  deriving DecidableEq, Repr

/-- `FuncWd` at AON start. -/
def FuncWd.reset : FuncWd where
  expiries := 0
  progress := false
  reinitEnd := none
  afterReinit := 0
  warmRun := none
  bySupWarm := false

/-- The AON core and the SYS block (Tables 17.6, 2.3). -/
structure Sys where
  /-- R20: STATE.CODE -/
  code : DevState
  /-- R21: STATE.PREV -/
  prev : DevState
  /-- R588: which SAFE the device is in (3) -/
  safeKind : SafeKind
  /-- R664: RESET.CAUSE -/
  cause : Nat
  /-- R664: RESET.LAST_STATE -/
  lastState : DevState
  /-- R645: RESET.BY_SUP -/
  bySup : Bool
  /-- R674: RESET.FAULT -/
  resetFault : BitVec 16
  /-- R668: BOOT_COUNT -/
  bootCount : Nat
  /-- R646: FUNC.BUSY, one bit per function -/
  funcBusy : BitVec 5
  /-- R646: FUNC.COUNT -/
  funcCount : Nat
  /-- R625: MNT_ACCEPTED -/
  mntAccepted : Nat
  /-- R624: MNT_BAD -/
  mntBad : Nat
  /-- R625: MNT_STALE -/
  mntStale : Nat
  /-- R627: MNT_DROPPED -/
  mntDropped : Nat
  /-- R625: HSEQ -/
  hseq : Nat
  /-- R629: latched HSEQ_HI -/
  hseqHi : Nat
  /-- R647: PWRCYC.REQUESTS -/
  pwrcycRequests : Nat
  /-- R647: PWRCYC.NOT_TAKEN -/
  pwrcycNotTaken : Nat
  /-- R643: OTP_FAIL -/
  otpFail : Nat
  /-- R647: PWRCYC_REQ_N is driven low -/
  pwrcycLow : Bool
  /-- R650: a POR lasts (3) -/
  porActive : Bool
  /-- R664: RESET_N is held low after a PIN reset began (3) -/
  resetNLow : Bool
  /-- R65: REFCLK_P/N is present (3) -/
  refclk : Bool
  /-- R66: SPLL is locked -/
  spllLocked : Bool
  /-- R66: the supervisor clock runs from SPLL -/
  supOnSpll : Bool
  /-- R66: the boot oscillator runs -/
  bootOsc : Bool
  /-- R562: lock retries at stage 0x3 (3) -/
  lockRetries : Nat
  /-- R73: the supervisor context is being reset (3) -/
  supResetting : Bool
  /-- R657: the supervisor is halted in SLEEP (3) -/
  supHalted : Bool
  /-- R660: a wake from SLEEP is in progress (3) -/
  waking : Bool
  /-- R75: time of the last supervisor lockstep fault (3) -/
  lastLockstep : Option Nat
  /-- R74: supervisor hardware mutexes held (3) -/
  mutexes : List Nat
  /-- R645: function watchdogs, index = FUNC code (3) -/
  wd : Vector FuncWd 5
  /-- R672: stack temperature crossed above 55 °C and not cleared (3) -/
  ratedOver : Bool
  /-- R672: warning crossed at 80 °C and not cleared (3) -/
  warned : Bool
  /-- R672: consecutive passes at or above 95 °C (3) -/
  tripRun : Nat
  /-- R696: TESTMODE is high (the integrator ties it low) (3) -/
  testMode : Bool
  deriving DecidableEq, Repr

/-- `Sys` at AON start. -/
def Sys.reset : Sys where
  code := .boot
  prev := .off
  safeKind := .none
  cause := 1
  lastState := .off
  bySup := false
  resetFault := 0
  bootCount := 1
  funcBusy := 0
  funcCount := 0
  mntAccepted := 0
  mntBad := 0
  mntStale := 0
  mntDropped := 0
  hseq := 0
  hseqHi := 0
  pwrcycRequests := 0
  pwrcycNotTaken := 0
  otpFail := 0
  pwrcycLow := false
  porActive := false
  resetNLow := false
  refclk := true
  spllLocked := false
  supOnSpll := false
  bootOsc := true
  lockRetries := 0
  supResetting := false
  supHalted := false
  waking := false
  lastLockstep := none
  mutexes := []
  wd := Vector.replicate 5 FuncWd.reset
  ratedOver := false
  warned := false
  tripRun := 0
  testMode := false

/-- The security block (R106). -/
structure SecBlk where
  /-- R106: the SEC context resets (3) -/
  resetting : Bool
  /-- R106: time of the last SEC disagreement (3) -/
  lastFault : Option Nat
  deriving DecidableEq, Repr

/-- `SecBlk` at AON start. -/
def SecBlk.reset : SecBlk where
  resetting := false
  lastFault := none

/-- One lane's recovery address in OTP (Table 17.9). -/
structure Recov where
  /-- R643: recovery address, first octet in [31:24] (3) -/
  ip : BitVec 32
  /-- R643: prefix length (3) -/
  pfx : BitVec 5
  /-- R643: address and prefix written (3) -/
  written : Bool
  deriving DecidableEq, Repr

/-- `Recov` at AON start. -/
def Recov.reset : Recov where
  ip := 0
  pfx := 0
  written := false

/-- The OTP array (Tables 16.8, 17.9). Its contents come from the factory. -/
structure Otp where
  /-- R607: key slot digests, byte 0 in [7:0]; zero marks an empty slot (3) -/
  keys : Vector (BitVec 256) 4
  /-- R643: the DIGEST that a failed OTP_KEY left incomplete in a slot (3) -/
  keyTodo : Vector (Option (BitVec 256)) 4
  /-- R607: KEY_REVOKE (3) -/
  revoke : BitVec 4
  /-- R608: anti-rollback thermometer (3) -/
  rb : BitVec 64
  /-- R399: lane MAC addresses, octet 0 in [7:0] (3) -/
  mac : Vector (BitVec 48) 2
  /-- R643: recovery addresses (3) -/
  recov : Vector Recov 2
  /-- R623: device key, exposed by no register (3) -/
  devKey : List (BitVec 8)
  /-- R623: DEVKEY.WRITTEN (3) -/
  devKeyWritten : Bool
  /-- R623: DEVKEY_ID (3) -/
  devKeyId : BitVec 32
  /-- R83: DEBUG.LOCKED -/
  debugLocked : Bool
  deriving DecidableEq, Repr

/-- `Otp` at AON start. -/
def Otp.reset : Otp where
  keys := Vector.replicate 4 0
  keyTodo := Vector.replicate 4 none
  revoke := 0
  rb := 0
  mac := Vector.replicate 2 0
  recov := Vector.replicate 2 Recov.reset
  devKey := List.replicate 32 0
  devKeyWritten := true
  devKeyId := 0
  debugLocked := true

/-- One value list of one field of an image section (Table 16.9). -/
structure Item where
  /-- R610: field identifier (3) -/
  id : Nat
  /-- R609: bytes per value (3) -/
  width : Nat
  /-- R611: packed subscripts of the first value (3) -/
  index : Nat
  /-- R612: raw little-endian values (3) -/
  vals : List Nat
  deriving DecidableEq, Repr

/-- `Item` at AON start. -/
def Item.reset : Item where
  id := 0
  width := 0
  index := 0
  vals := []

/-- One section table entry (Table 16.4). -/
structure SectEntry where
  /-- R598: TYPE (3) -/
  typ : Nat
  /-- R598: PART (3) -/
  part : Nat
  /-- R598: OFFSET (3) -/
  off : Nat
  /-- R598: LENGTH (3) -/
  len : Nat
  /-- R598: CRC (3) -/
  crc : BitVec 32
  /-- R598: SHA, byte 0 in the top bits (3) -/
  sha : BitVec 256
  deriving DecidableEq, Repr

/-- `SectEntry` at AON start. -/
def SectEntry.reset : SectEntry where
  typ := 0
  part := 0
  off := 0
  len := 0
  crc := 0
  sha := 0

/-- An image: what its header, section table and items declare. -/
structure Image where
  /-- R580: an image is held (3) -/
  valid : Bool
  /-- R604: KEY_SLOT (3) -/
  keySlot : Nat
  /-- R597: ROLLBACK (3) -/
  rollback : Nat
  /-- R597: IMAGE_LEN (3) -/
  len : Nat
  /-- R572: image digest (3) -/
  digest : BitVec 256
  /-- R603: group image hash (3) -/
  groupHash : BitVec 256
  /-- R598: section table (3) -/
  table : List SectEntry
  /-- R609: items in section order (3) -/
  items : List Item
  /-- R616: TYPEs of sections whose structure breaks R616 (3) -/
  bad : List Nat
  /-- R617: row sums, index = logical row (3) -/
  rowSums : List (BitVec 32)
  deriving DecidableEq, Repr

/-- `Image` at AON start. -/
def Image.reset : Image where
  valid := false
  keySlot := 0
  rollback := 0
  len := 0
  digest := 0
  groupHash := 0
  table := []
  items := []
  bad := []
  rowSums := []

/-- Boot progress, staging and the SYS boot registers (Table 15.9). -/
structure Boot where
  /-- R562: BOOT.STAGE -/
  stage : Nat
  /-- R562: the boot follows POR -/
  cold : Bool
  /-- R587: the boot follows a WARM reset (3) -/
  warm : Bool
  /-- R587: the retention tag equals the digest: resident contents are skipped (3) -/
  keeping : Bool
  /-- R290: perches whose retention check of this boot has passed (3) -/
  checked : List Nat
  /-- R290: a retention check failed: part 1 of WREN is still to be read (3) -/
  part1Due : Bool
  /-- R587: the retention check of this boot runs (3) -/
  tagged : Bool
  /-- R592: BOOT.SLOT -/
  slot : Nat
  /-- R569: slot the pointer names (3) -/
  pointed : Nat
  /-- R571: BOOT.FALLBACK -/
  fallback : Bool
  /-- R569: BOOT.PTR_NONE -/
  ptrNone : Bool
  /-- R588: BOOT.SAFE_LATCH -/
  safeLatch : Bool
  /-- R571: BOOT.REASON_A -/
  reasonA : BitVec 8
  /-- R571: BOOT.REASON_B -/
  reasonB : BitVec 8
  /-- R592: BOOT_TIME.MS10 -/
  timeMs10 : Nat
  /-- R592: BOOT_TIME.RETAINED -/
  retained : Bool
  /-- R585: time origin of this boot (3) -/
  origin : Nat
  /-- R565: stage 0x4: the flash polled idle (3) -/
  flashReady : Bool
  /-- R570: the pointed slot was refused and the other is being tried (3) -/
  tried : Bool
  /-- R575: header and table checked (3) -/
  headerOk : Bool
  /-- R575: signature verified (3) -/
  sigOk : Bool
  /-- R575: next section table entry to stream (3) -/
  nextSect : Nat
  /-- R578: staged image (3) -/
  staged : Image
  /-- R589: NET items of a refused image that may give the SAFE addresses (3) -/
  safeNet : Option (List Item)
  /-- R577: the fit checks passed and the COMMIT edge is due (3) -/
  edgeReady : Bool
  /-- R570: the boot ends in SAFE after a refusal (3) -/
  safeRefused : Bool
  deriving DecidableEq, Repr

/-- `Boot` at AON start. -/
def Boot.reset : Boot where
  stage := 1
  cold := true
  warm := false
  keeping := false
  checked := []
  part1Due := false
  tagged := false
  slot := 0
  pointed := 0
  fallback := false
  ptrNone := false
  safeLatch := false
  reasonA := 0
  reasonB := 0
  timeMs10 := 0
  retained := false
  origin := 0
  flashReady := false
  tried := false
  headerOk := false
  sigOk := false
  nextSect := 0
  staged := Image.reset
  safeNet := none
  edgeReady := false
  safeRefused := false

/-- The NVM block (Table 17.8). -/
structure Nvm where
  /-- R635: SESSION.LOCKED -/
  locked : Bool
  /-- R635: SESSION.LANE -/
  lane : Nat
  /-- R635: OWNER_IP -/
  ownerIp : BitVec 32
  /-- R635: OWNER.PORT -/
  ownerPort : BitVec 16
  /-- R635: OWNER.SESSION -/
  session : BitVec 16
  /-- R635: when the lease ends (3) -/
  leaseEnd : Nat
  /-- R636: lease left while a session command runs (3) -/
  frozen : Nat
  /-- R639: the session command in the background (3) -/
  busy : Option SessCmd
  /-- R640: VERIFIED_A -/
  verifiedA : Bool
  /-- R640: VERIFIED_B -/
  verifiedB : Bool
  /-- R640: VERIFY.REASON_A -/
  reasonA : BitVec 8
  /-- R640: VERIFY.REASON_B -/
  reasonB : BitVec 8
  /-- R633: PTR.SLOT -/
  ptrSlot : Nat
  /-- R633: PTR.SECTOR -/
  ptrSector : Nat
  /-- R633: PTR.VALID -/
  ptrValid : Bool
  /-- R633: PTR_SEQ -/
  ptrSeq : BitVec 32
  /-- R566: DENSITY, MiB -/
  density : Nat
  /-- R639: ERASED -/
  erased : Nat
  /-- R639: PROGRAMMED -/
  programmed : Nat
  /-- R567: quad reads at 104 MHz in use (3) -/
  quad : Bool
  /-- R676: a QSPI command transfer is in progress (3) -/
  transfer : Bool
  deriving DecidableEq, Repr

/-- `Nvm` at AON start. -/
def Nvm.reset : Nvm where
  locked := false
  lane := 0
  ownerIp := 0
  ownerPort := 0
  session := 0
  leaseEnd := 0
  frozen := 0
  busy := none
  verifiedA := false
  verifiedB := false
  reasonA := 255
  reasonB := 255
  ptrSlot := 0
  ptrSector := 0
  ptrValid := false
  ptrSeq := 0
  density := 0
  erased := 0
  programmed := 0
  quad := false
  transfer := false

/-- One accepted maintenance request with its answer (R625). -/
structure CacheEntry where
  /-- R622: OP of the request (3) -/
  op : Nat
  /-- R625: the request's envelope (3) -/
  req : MntReq
  /-- R625: the request's payload (3) -/
  payload : List (BitVec 8)
  /-- R625: the answer, none while it runs (3) -/
  answer : Option Answer
  deriving DecidableEq, Repr

/-- `CacheEntry` at AON start. -/
def CacheEntry.reset : CacheEntry where
  op := 0
  req := ⟨.a, 0, 0, 0, 0, 0, 0, 0, 0, 0, 0, 0⟩
  payload := []
  answer := none

/-- The maintenance channel (R621 to R627). -/
structure Mnt where
  /-- R625: accepted requests, newest first (3) -/
  cache : List CacheEntry
  /-- R626: requests that wait for an S_c commit before they are accepted (3) -/
  waiting : List Instr
  /-- R627: accepted session commands waiting for the running one (3) -/
  sessWait : List Instr
  /-- R646: REINIT requests answered when the running re-init ends (3) -/
  reinitWait : List CacheEntry
  /-- R106: answers that wait for the SEC block (3) -/
  unsent : List CacheEntry
  deriving DecidableEq, Repr

/-- `Mnt` at AON start. -/
def Mnt.reset : Mnt where
  cache := []
  waiting := []
  sessWait := []
  reinitWait := []
  unsent := []

/-- What a taken tick frame gives the line it triggers (Table 12.3). -/
structure TickInfo where
  /-- R452: LINE (3) -/
  line : Nat
  /-- R473: DEFERRED (3) -/
  deferred : Bool
  /-- R473: ENCZ mark (3) -/
  encz : Bool
  /-- R473: MERGE (3) -/
  merge : Nat
  /-- R468: hop index it gives (3) -/
  hop : Nat
  /-- R468: the tick's arrival for R136, 5 ns units (3) -/
  arrived : Nat
  deriving DecidableEq, Repr

/-- `TickInfo` at AON start. -/
def TickInfo.reset : TickInfo where
  line := 0
  deferred := false
  encz := false
  merge := 0
  hop := 0
  arrived := 0

/-- The line-timing unit (Table 4.5). -/
structure Lt where
  /-- R131: accepted level of ENCA (3) -/
  encA : Bool
  /-- R131: accepted level of ENCB (3) -/
  encB : Bool
  /-- R131: accepted level of ENCZ (3) -/
  encZ : Bool
  /-- R134: fractional accumulator, 12.20 -/
  acc : Nat
  /-- R134: reverse deficit, ENC_DEFICIT -/
  deficit : Nat
  /-- R140: a waiting line request and the requests merged into it (3) -/
  request : Option Nat
  /-- R139: the waiting request is deferred by the clamp (3) -/
  clampDefer : Bool
  /-- R144: the waiting request or tick is deferred by the drain (3) -/
  drainDefer : Bool
  /-- R143: the drain of R143 runs (3) -/
  drain : Bool
  /-- R165: every TDI row is held drained -/
  drained : Bool
  /-- R143: LT_STATUS.STOPPED -/
  stopped : Bool
  /-- R166: the next trigger is a restart -/
  restart : Bool
  /-- R137: bar line counter: the last triggered line (3) -/
  line : Nat
  /-- R464: a line has been triggered or a tick recorded since COMMIT (3) -/
  anyLine : Bool
  /-- R142: time of the last trigger (3) -/
  lastTrig : Option Nat
  /-- R94: (model time, line) of the triggers of the last 5 ms, newest first (3) -/
  trigs : List (Nat × Nat)
  /-- R160: whether each of the last 64 triggers was deferred, newest first -/
  clampHist : List Bool
  /-- R160: LT_PERIOD.PERIOD -/
  period : Nat
  /-- R160: LT_DEFERRED -/
  deferred : Nat
  /-- R160: LT_MERGED -/
  merged : Nat
  /-- R133: ENC_ERR -/
  encErr : Nat
  /-- R133: LT_STATUS.ENC_ERR_STICKY -/
  encErrSticky : Bool
  /-- R23: model time at which ENC_ERR_STICKY was last set, none when it has not been (4) -/
  encErrAt : Option Nat
  /-- R138: ENCZ_LINE -/
  enczLine : Nat
  /-- R160: latched ENCZ_LINE_HI -/
  enczHi : Nat
  /-- R160: ENCZ_EXTRA -/
  enczExtra : Nat
  /-- R138: the next triggered line is marked (3) -/
  enczMark : Bool
  /-- R158: levels of STB0 to STB3 -/
  stb : BitVec 4
  /-- R158: STB0 to STB3 are outputs; before COMMIT they are inputs with a weak pull-down -/
  stbOut : Bool
  /-- R153: slots whose strobe has pulsed in the line (3) -/
  pulsed : BitVec 4
  /-- R154: fields whose transfer gates integrate (3) -/
  gates : BitVec 4
  /-- R55: slots of the line that have closed (3) -/
  closes : BitVec 4
  /-- R55: E(n) of the last line, model time (3) -/
  eTime : Option Nat
  /-- R136: taken ticks whose triggers are due, oldest first (3) -/
  ticks : List TickInfo
  /-- R517: a LINE injection request rises with the trigger (3) -/
  injWait : Bool
  deriving DecidableEq, Repr

/-- `Lt` at AON start. -/
def Lt.reset : Lt where
  encA := false
  encB := false
  encZ := false
  acc := 0
  deficit := 0
  request := none
  clampDefer := false
  drainDefer := false
  drain := false
  drained := true
  stopped := false
  restart := true
  line := 0
  anyLine := false
  lastTrig := none
  trigs := []
  clampHist := []
  period := 0
  deferred := 0
  merged := 0
  encErr := 0
  encErrSticky := false
  encErrAt := none
  enczLine := 0
  enczHi := 0
  enczExtra := 0
  enczMark := false
  stb := 0
  stbOut := false
  pulsed := 0
  gates := 0
  closes := 0
  eTime := none
  ticks := []
  injWait := false

/-- One group's entry of the converter substitution map (Table 5.4). -/
structure Subst where
  /-- R170: COLUMN -/
  column : Nat
  /-- R170: VALID -/
  valid : Bool
  /-- R170: SHADOW_FAULT -/
  shadowFault : Bool
  /-- R170: SHARED -/
  shared : Bool
  deriving DecidableEq, Repr

/-- `Subst` at AON start. -/
def Subst.reset : Subst where
  column := 0
  valid := false
  shadowFault := false
  shared := false

/-- The rotation of one group's shadow converter (R98 to R100). -/
structure Shadow where
  /-- R98: next column of its rotation (3) -/
  pos : Nat
  /-- R100: which of the groups it visits comes next, own first (3) -/
  turn : Nat
  /-- R99: active column (0 to 8,191) that mismatched (3) -/
  suspect : Option Nat
  /-- R99: checks done since the mismatch (0: none, 1: repeated and mismatched again) (3) -/
  agreed : Nat
  deriving DecidableEq, Repr

/-- `Shadow` at AON start. -/
def Shadow.reset : Shadow where
  pos := 0
  turn := 0
  suspect := none
  agreed := 0

/-- One line-field of the registration buffer (R177). -/
structure RegLine where
  /-- R176: line counter of the trigger that sampled it (3) -/
  trig : Nat
  /-- R177: raw conversions, dark columns included (3) -/
  px : List Nat
  /-- R101: stages in use when it was sampled (3) -/
  stages : Nat
  /-- R145: exposures the sampled charge held (3) -/
  exposures : Nat
  deriving DecidableEq, Repr

/-- `RegLine` at AON start. -/
def RegLine.reset : RegLine where
  trig := 0
  px := []
  stages := 0
  exposures := 0

/-- One of the 256 line slots of the history (R200, R201). -/
structure HistSlot where
  /-- R201: line counter of the tag (3) -/
  line : Nat
  /-- R201: VALID -/
  valid : Bool
  /-- R200: history values, per field (3) -/
  px : List (List Nat)
  /-- R202: a word of the slot is uncorrectable (3) -/
  bad : Bool
  /-- R102: computed from poisoned samples (3) -/
  poison : Bool
  deriving DecidableEq, Repr

/-- `HistSlot` at AON start. -/
def HistSlot.reset : HistSlot where
  line := 0
  valid := false
  px := []
  bad := false
  poison := false

/-- A line the Ladle has completed and not yet put on the row buses. -/
structure LadleLine where
  /-- R198: line counter (3) -/
  line : Nat
  /-- R193: fabric planes, per field (3) -/
  planes : List (List Int)
  /-- R178: fields that delivered the line (3) -/
  delivered : BitVec 4
  /-- R102: fields whose plane is written poisoned (3) -/
  poison : BitVec 4
  deriving DecidableEq, Repr

/-- `LadleLine` at AON start. -/
def LadleLine.reset : LadleLine where
  line := 0
  planes := []
  delivered := 0
  poison := 0

/-- The adaptive flat field (R187 to R191). -/
structure Aff where
  /-- R187: factors in 1/65,536, per field and segment; empty before COMMIT (3) -/
  factor : List (List Nat)
  /-- R188: window sums in 1/16 LSB, per field and segment (3) -/
  sum : List (List Int)
  /-- R188: window counts (3) -/
  count : List (List Nat)
  /-- R188: lines of each field's window in progress (3) -/
  lines : Vector Nat 4
  /-- R190: fields whose adaptation is frozen (AFF_STATUS.FROZEN) -/
  frozen : BitVec 4
  /-- R191: fields whose thaw count runs (AFF_STATUS.THAWING) -/
  thawing : BitVec 4
  /-- R191: line at a field's thaw: its new window takes lines after it, per field (3) -/
  winAfter : Vector (Option Nat) 4
  /-- R189: AFF_STATUS.LIMIT_STICKY -/
  limitSticky : Bool
  /-- R23: model time at which LIMIT_STICKY was last set (4) -/
  limitAt : Option Nat
  /-- R191: lines still to count, per field (AFF_THAW_LEFT) -/
  thawLeft : Vector Nat 4
  /-- R189: AFF_SKIP -/
  skip : Nat
  deriving DecidableEq, Repr

/-- `Aff` at AON start. -/
def Aff.reset : Aff where
  factor := []
  sum := []
  count := []
  lines := Vector.replicate 4 0
  frozen := 15
  thawing := 0
  winAfter := Vector.replicate 4 none
  limitSticky := false
  limitAt := none
  thawLeft := Vector.replicate 4 0
  skip := 0

/-- The Cope die, the Ladle, the registration buffer and the history (Tables 5.3, 5.4). -/
structure Pix where
  /-- R101: STATUS.FIELD_LOST -/
  fieldLost : BitVec 4
  /-- R163: STAGES, after any cut (image) -/
  stages : Vector Nat 4
  /-- R101: rows (32 × field + row) whose failure has been reported (3) -/
  badRows : List Nat
  /-- R167: line of the slot close whose conversion is due, per field (3) -/
  closed : Vector (Option Nat) 4
  /-- R101: stages in use when the slot whose conversion is due closed, per field (3) -/
  closedStages : Vector Nat 4
  /-- R101: line whose readback found row 0 failed, the last the field delivers, per field (3) -/
  lostAt : Vector (Option Nat) 4
  /-- R161: exposures that the charge packet of each physical row holds (R161, R163, R165) (3) -/
  charge : Vector Nat 128
  /-- R167: groups whose shadow mismatched in the line so far (3) -/
  mismatch : List Nat
  /-- R120: (group, column) of converters judged faulty and not substituted (3) -/
  lostConv : List (Nat × Nat)
  /-- R97: lines still to be flagged after a converter fault (3) -/
  degLeft : Nat
  /-- R177: registration buffer and the samples on their way to the Ladle, newest first -/
  regBuf : Vector (List RegLine) 4
  /-- R171: DARK_Fk.LEFT, 12.4 -/
  darkL : Vector Nat 4
  /-- R171: DARK_Fk.RIGHT, 12.4 -/
  darkR : Vector Nat 4
  /-- R172: dark columns excluded at the column-0 end -/
  exclL : BitVec 32
  /-- R172: dark columns excluded at the column-8,191 end -/
  exclR : BitVec 32
  /-- R172: consecutive lines of departure, column-0 end (3) -/
  runL : Vector Nat 32
  /-- R172: consecutive lines of departure, column-8,191 end (3) -/
  runR : Vector Nat 32
  /-- R173: DARK_EXCL.FALLBACK -/
  fallback : Bool
  /-- R205: SUBST_COUNT -/
  substCount : Nat
  /-- R170: SUBSTg -/
  subst : Vector Subst 128
  /-- R98: shadow rotations (3) -/
  shadow : Vector Shadow 128
  /-- R187: adaptive flat field -/
  aff : Aff
  /-- R200: the history -/
  hist : Vector HistSlot 256
  /-- R205: HIST_SCRUB -/
  histScrub : Nat
  /-- R178: REG_MISSING -/
  regMissing : Nat
  /-- R103: the Ladle halves disagreed for the line in progress (3) -/
  ladleFault : Bool
  /-- R198: completed lines waiting for their ingress, oldest first (3) -/
  ingress : List LadleLine
  /-- R582: converters powered and settled (3) -/
  settled : Bool
  deriving DecidableEq, Repr

/-- `Pix` at AON start. -/
def Pix.reset : Pix where
  fieldLost := 0
  stages := Vector.replicate 4 0
  badRows := []
  closed := Vector.replicate 4 none
  closedStages := Vector.replicate 4 0
  lostAt := Vector.replicate 4 none
  charge := Vector.replicate 128 0
  mismatch := []
  lostConv := []
  degLeft := 0
  regBuf := Vector.replicate 4 []
  darkL := Vector.replicate 4 0
  darkR := Vector.replicate 4 0
  exclL := 0
  exclR := 0
  runL := Vector.replicate 32 0
  runR := Vector.replicate 32 0
  fallback := false
  substCount := 0
  subst := Vector.replicate 128 Subst.reset
  shadow := Vector.replicate 128 Shadow.reset
  aff := Aff.reset
  hist := Vector.replicate 256 HistSlot.reset
  histScrub := 0
  regMissing := 0
  ladleFault := false
  ingress := []
  settled := false

/-- One Wren word; poison stands for the poison pattern of R282. -/
structure WWord where
  /-- R251: data bits (3) -/
  data : BitVec 64
  /-- R282: holds the poison pattern or poisoned data (3) -/
  poison : Bool
  deriving DecidableEq, Repr

/-- `WWord` at AON start. -/
def WWord.reset : WWord where
  data := 0
  poison := false

/-- A neighbour write request (R260, R267, R297). -/
structure NbReq where
  /-- R260: sending perch (3) -/
  from_ : Nat
  /-- R260: port it arrived on, N E S W = 0 1 2 3 (3) -/
  port : Nat
  /-- R297: low 5 bits of the sender's beat line (3) -/
  beat : Nat
  /-- R253: word addresses (3) -/
  addr : List Nat
  /-- R267: data, empty for a void write (3) -/
  data : List WWord
  /-- R320: void write (3) -/
  void : Bool
  /-- R297: counted as held (3) -/
  held : Bool
  /-- R269: arrival counter (3) -/
  ac : Nat
  deriving DecidableEq, Repr

/-- `NbReq` at AON start. -/
def NbReq.reset : NbReq where
  from_ := 0
  port := 0
  beat := 0
  addr := []
  data := []
  void := false
  held := false
  ac := 0

/-- One captured ingress bus word (R196). -/
structure IngWord where
  /-- R196: first word address (3) -/
  addr : Nat
  /-- R193: the bus word as Wren words (3) -/
  data : List WWord
  deriving DecidableEq, Repr

/-- `IngWord` at AON start. -/
def IngWord.reset : IngWord where
  addr := 0
  data := []

/-- One vector stage of a Finch. -/
structure Stage where
  /-- R214: accumulator file (3) -/
  acc : Vector (Vector (BitVec 32) 16) 16
  /-- R102: poison mark of each accumulator vector (3) -/
  accPoison : BitVec 16
  /-- R214: weight tile register, two halves (3) -/
  tile : Vector (BitVec 8) 512
  /-- R102: poison marks of the halves of the tile (3) -/
  tilePoison : BitVec 2
  /-- R223: stage pipeline register (3) -/
  outv : List (BitVec 32)
  /-- R102: poison mark of the pipeline register (3) -/
  outPoison : Bool
  deriving DecidableEq, Repr

/-- `Stage` at AON start. -/
def Stage.reset : Stage where
  acc := Vector.replicate 16 (Vector.replicate 16 0)
  accPoison := 0
  tile := Vector.replicate 512 0
  tilePoison := 0
  outv := []
  outPoison := false

/-- Why a Finch is stalled (R219). -/
structure Stall where
  /-- R214: SEND, RECV, WAIT or PUT (3) -/
  kind : StallKind
  /-- R240: channel index 4 × link + ch, or arrival counter, or port (3) -/
  chan : Nat
  /-- R270: count of a WAIT (3) -/
  n : Nat
  /-- R240: token of a SEND (3) -/
  tok : Token
  /-- R322: predicate a RECV names (3) -/
  predDst : Option (Fin 8)
  /-- R320: the RECV writes its destination (3) -/
  write : Bool
  /-- R324: its predicate is poisoned (3) -/
  mark : Bool
  /-- R241: beat-start tokens seen while stalled (3) -/
  beats : Nat
  deriving DecidableEq, Repr

/-- `Stall` at AON start. -/
def Stall.reset : Stall where
  kind := .none
  chan := 0
  n := 0
  tok := ⟨0, 0, false, false, 0⟩
  predDst := none
  write := false
  mark := false
  beats := 0

/-- The registers of a Finch that its operations read and write (R212, R223). -/
structure Regs where
  /-- R223: accumulators, tiles, pipeline registers (3) -/
  stages : Vector Stage 4
  /-- R223: input register of V0, a pipeline register (3) -/
  inReg : List (BitVec 64)
  /-- R102: poison mark of inReg (3) -/
  inPoison : Bool
  /-- R223: lane masks (3) -/
  masks : Vector (BitVec 16) 8
  /-- R324: poison marks of the masks (3) -/
  maskPoison : BitVec 8
  /-- R223: predicates (3) -/
  preds : BitVec 8
  /-- R324: poison marks of the predicates (3) -/
  predPoison : BitVec 8
  deriving DecidableEq, Repr

/-- `Regs` at AON start. -/
def Regs.reset : Regs where
  stages := Vector.replicate 4 Stage.reset
  inReg := []
  inPoison := false
  masks := Vector.replicate 8 0
  maskPoison := 0
  preds := 0
  predPoison := 0

/-- One entry of the snapshot store (R223), with the place in the static schedule it was taken at. -/
structure Snapshot where
  /-- R223: line of the beat (3) -/
  beat : Nat
  /-- R223: the slice it starts (3) -/
  slice : Nat
  /-- R223: the Finch's own state (3) -/
  regs : Regs
  /-- R219: running mould (4) -/
  mould : Nat
  /-- R277: uses of each generator since the mould started (4) -/
  agUse : Vector Nat 8
  /-- R299: bundle of the mould (4) -/
  bun : Nat
  /-- R212: slots that bundle had used (4) -/
  slots : List Nat
  /-- R213: the registers at the start of that bundle's cycle (4) -/
  old : Regs
  /-- R222: operations the beat had issued (4) -/
  issued : Nat
  /-- R224: tokens the log of the beat held (4) -/
  logged : Nat
  deriving DecidableEq, Repr

/-- `Snapshot` at AON start. -/
def Snapshot.reset : Snapshot where
  beat := 0
  slice := 0
  regs := Regs.reset
  mould := 0
  agUse := Vector.replicate 8 0
  bun := 0
  slots := []
  old := Regs.reset
  issued := 0
  logged := 0

/-- What a Finch and its checker keep of one beat's work (R110, R222, R224). -/
structure Work where
  /-- R221: line of the beat (4) -/
  beat : Nat
  /-- R222: operations issued, newest first: slice, mould, operation (4) -/
  ops : List (Nat × Nat × Instr)
  /-- R110: slices with their signature so far, the CRC register before its final inversion (3) -/
  sigs : List (Nat × BitVec 32)
  /-- R224: token log, oldest first; none where a RECV took nothing (3) -/
  toks : List (Option Token)
  deriving DecidableEq, Repr

/-- `Work` at AON start. -/
def Work.reset : Work where
  beat := 0
  ops := []
  sigs := []
  toks := []

/-- Where a Finch stands in its schedule of bundles (R212, R299). -/
structure Issue where
  /-- R299: bundle of the running mould in issue, repeats counted on (4) -/
  bun : Nat
  /-- R212: slots that bundle has used: V0 to V3, MEM 4, XFER 5, CTL 6 (4) -/
  slots : List Nat
  /-- R213: the registers at the start of that bundle's cycle (4) -/
  old : Regs
  /-- R224: the beats kept for the check, newest first (4) -/
  work : List Work
  deriving DecidableEq, Repr

/-- `Issue` at AON start. -/
def Issue.reset : Issue where
  bun := 0
  slots := []
  old := Regs.reset
  work := []

/-- The compute unit of a perch. -/
structure Finch where
  /-- R212: V0 to V3 (3) -/
  stages : Vector Stage 4
  /-- R212: data of the last MEM read or RECV, input of V0 (3) -/
  inReg : List (BitVec 64)
  /-- R102: poison mark of inReg (3) -/
  inPoison : Bool
  /-- R214: M0 to M7 (3) -/
  masks : Vector (BitVec 16) 8
  /-- R324: poison marks of the masks (3) -/
  maskPoison : BitVec 8
  /-- R213: P0 to P7 (3) -/
  preds : BitVec 8
  /-- R324: poison marks of the predicates (3) -/
  predPoison : BitVec 8
  /-- R221: a beat runs (3) -/
  running : Bool
  /-- R221: line of the running beat (3) -/
  beat : Nat
  /-- R219: running mould (3) -/
  mould : Nat
  /-- R277: uses of each generator since the mould started (3) -/
  agUse : Vector Nat 8
  /-- R233: a held beat-start token (its line) (3) -/
  held : Option Nat
  /-- R234: a further token arrived while one was held (3) -/
  twoHeld : Bool
  /-- R233: lag in cycles (3) -/
  lag : Nat
  /-- R234: beats since the overrun (3) -/
  lagBeats : Nat
  /-- R219: the stall in force (3) -/
  stall : Stall
  /-- R219: the Finch is stalled (3) -/
  stalled : Bool
  /-- R260: directions in which a PUT found the port queue full and stalls the Finch (3) -/
  putWait : BitVec 4
  /-- R109: slice this Finch checks next, none before its first beat (3) -/
  slice : Option Nat
  /-- R221: the tithe slot of the running beat is over (3) -/
  titheDone : Bool
  /-- R223: snapshots taken in the running beat (3) -/
  snapCount : Nat
  /-- R223: snapshot store, newest first (3) -/
  snaps : List Snapshot
  /-- R111: slice of the West neighbour whose arbitration is due (3) -/
  arb : Option Nat
  /-- R111: this Finch serves as arbiter in the running beat (3) -/
  serves : Bool
  deriving DecidableEq, Repr

/-- `Finch` at AON start. -/
def Finch.reset : Finch where
  stages := Vector.replicate 4 Stage.reset
  inReg := []
  inPoison := false
  masks := Vector.replicate 8 0
  maskPoison := 0
  preds := 0
  predPoison := 0
  running := false
  beat := 0
  mould := 0
  agUse := Vector.replicate 8 0
  held := none
  twoHeld := false
  lag := 0
  lagBeats := 0
  stall := Stall.reset
  stalled := false
  putWait := 0
  slice := none
  titheDone := true
  snapCount := 0
  snaps := []
  arb := none
  serves := false

/-- The memory unit of a perch (R251 to R292). -/
structure Wren where
  /-- R251: words, sparse, unlisted zero (3) -/
  words : List (Nat × WWord)
  /-- R268: arrival counters -/
  ac : Vector Nat 16
  /-- R260: neighbour port queues N E S W (3) -/
  portQ : Vector (List NbReq) 4
  /-- R262: port last accepted, order N E S W; W at reset, so that N comes first (3) -/
  rot : Nat
  /-- R261: accepted requests that will land, oldest first (3) -/
  landing : List NbReq
  /-- R281: correction write-backs (3) -/
  wbQ : List (Nat × WWord)
  /-- R263: captured ingress bus words (3) -/
  ingQ : List IngWord
  /-- R284: next row of the scrub (3) -/
  scrubRow : Nat
  /-- R292: full scrub passes (3) -/
  passes : Nat
  /-- R292: when the present scrub pass began (3) -/
  passStart : Nat
  /-- R292: time of the last scrub pass, µs (3) -/
  lastUs : Nat
  /-- R292: WRENp.CORR -/
  corr : Nat
  /-- R292: WRENp.UNCORR -/
  uncorr : Nat
  /-- R292: WRENp.RETAIN_FAIL -/
  retainFail : Bool
  /-- R287: every resident region loaded and verified (3) -/
  loaded : Bool
  /-- R285: regions being rewritten from flash, oldest first, each with its next row (3) -/
  rewriting : List (Nat × Nat)
  /-- R580: resident protection armed -/
  armed : Bool
  deriving DecidableEq, Repr

/-- `Wren` at AON start. -/
def Wren.reset : Wren where
  words := []
  ac := Vector.replicate 16 0
  portQ := Vector.replicate 4 []
  rot := 3
  landing := []
  wbQ := []
  ingQ := []
  scrubRow := 0
  passes := 0
  passStart := 0
  lastUs := 0
  corr := 0
  uncorr := 0
  retainFail := false
  loaded := false
  rewriting := []
  armed := false

/-- The runner links and queues of a perch (R235 to R241, R310 to R317). -/
structure Runners where
  /-- R235: receive queues, index 4 × link + ch, each token with its order of arrival, oldest first -/
  rxQ : Vector (List (Nat × Token)) 16
  /-- R240: credits of the channels this perch sends on, index 4 × direction + ch -/
  credit : Vector Nat 16
  /-- R239: tokens that took a credit and wait for the link, per direction (3) -/
  waitTx : Vector (List Token) 4
  /-- R309: tokens sent in the current beat (3) -/
  sentLater : Vector Nat 16
  /-- R309: tokens sent in the beat before (3) -/
  sentPrev : Vector Nat 16
  /-- R312: elastic output buffers, per direction (3) -/
  outBuf : Vector (List Token) 4
  /-- R312: riser backlogs, index 4 × direction + ch, oldest first: each token with its entry of the riser, none until
  the background writer has written it (3) -/
  backlog : Vector (List (Token × Option Nat)) 16
  /-- R237: token on each outgoing link and whether it is the repeat (3) -/
  onLink : Vector (Option (Token × Bool)) 4
  /-- R240: credits travelling back to this perch as sender (3) -/
  creditOnLink : Vector Nat 16
  /-- R240: a credit transfer that failed parity once (3) -/
  creditBad : BitVec 16
  /-- R260: PUT requests issued and not yet at the owner, per direction, oldest first (3) -/
  putOut : Vector (List NbReq) 4
  /-- R243: egress FIFO: each token with the line of its beat, oldest first -/
  egr : List (Nat × Token)
  deriving DecidableEq, Repr

/-- `Runners` at AON start. -/
def Runners.reset : Runners where
  rxQ := Vector.replicate 16 []
  credit := Vector.replicate 16 0
  waitTx := Vector.replicate 4 []
  sentLater := Vector.replicate 16 0
  sentPrev := Vector.replicate 16 0
  outBuf := Vector.replicate 4 []
  backlog := Vector.replicate 16 []
  onLink := Vector.replicate 4 none
  creditOnLink := Vector.replicate 16 0
  creditBad := 0
  putOut := Vector.replicate 4 []
  egr := []

/-- One perch: an island with its Finch and its Wren (Tables 6.6, 7.5). -/
structure Perch where
  /-- R230: ISLANDp.FREQ, MHz -/
  freq : Nat
  /-- R231: ISLANDp.BELOW_FLOOR -/
  belowFloor : Bool
  /-- R231: consecutive windows below the floor (3) -/
  belowRun : Nat
  /-- R250: ISLANDp.POWERED -/
  powered : Bool
  /-- R250: ISLANDp.FAILED -/
  failed : Bool
  /-- R212: the Finch (3) -/
  finch : Finch
  /-- R212: its schedule of bundles and what the check keeps (4) -/
  iss : Issue
  /-- R251: the Wren (3) -/
  wren : Wren
  /-- R235: runners and egress FIFO (3) -/
  run : Runners
  deriving DecidableEq, Repr

/-- `Perch` at AON start. -/
def Perch.reset : Perch where
  freq := 0
  belowFloor := false
  belowRun := 0
  powered := false
  failed := false
  finch := Finch.reset
  iss := Issue.reset
  wren := Wren.reset
  run := Runners.reset

/-- A column repair in progress (Table 6.4). -/
structure Repair where
  /-- R245: physical column being bypassed (3) -/
  column : Nat
  /-- R245: failed perch (3) -/
  perch : Nat
  /-- R246: time of the gap start (3) -/
  started : Nat
  /-- R245: the spare self-test of step 2 passed (3) -/
  tested : Bool
  /-- R245: the spare self-test of step 2 failed (3) -/
  aborted : Bool
  /-- R245: steps 3 and 4 done (3) -/
  loaded : Bool
  /-- R245: step 6 done (3) -/
  applied : Bool
  deriving DecidableEq, Repr

/-- `Repair` at AON start. -/
def Repair.reset : Repair where
  column := 0
  perch := 0
  started := 0
  tested := false
  aborted := false
  loaded := false
  applied := false

/-- The watch of one elastic group (R315). -/
structure Watch where
  /-- R315: beat-start tokens since the last movement (3) -/
  idle : Nat
  /-- R315: the watch fires at the beat-start token just counted (3) -/
  due : Bool
  deriving DecidableEq, Repr

/-- `Watch` at AON start. -/
def Watch.reset : Watch where
  idle := 0
  due := false

/-- The FAB counters (Tables 6.6, 8.6, 9.6). -/
structure FabCnt where
  /-- R250: OVERRUN -/
  overrun : Nat
  /-- R250: TITHE_SKIP -/
  titheSkip : Nat
  /-- R250: TITHE_MISMATCH -/
  titheMismatch : Nat
  /-- R250: STALL_OVER -/
  stallOver : Nat
  /-- R250: PARITY_RESEND -/
  parityResend : Nat
  /-- R331: SPILL_TOKENS -/
  spillTokens : Nat
  /-- R331: WATCH_SPILLS -/
  watchSpills : Nat
  /-- R331: RISER_DROPS -/
  riserDrops : Nat
  /-- R331: RISER_PEAK -/
  riserPeak : Nat
  /-- R331: CREDIT_RESYNC -/
  creditResync : Nat
  /-- R331: NBW_HELD -/
  nbwHeld : Nat
  /-- R331: VOID_POISON -/
  voidPoison : Nat
  /-- R358: eligible MVM issues of the last millisecond: model time, in NARROW, taken the cheap path (3) -/
  qIssues : List (Nat × Bool × Bool)
  /-- R358: ACC_SAT -/
  accSat : Nat
  /-- R358: RQ_SAT -/
  rqSat : Nat
  /-- R358: FP_SPECIAL -/
  fpSpecial : Nat
  /-- R358: QPOISON_EXACT -/
  qpoisonExact : Nat
  deriving DecidableEq, Repr

/-- `FabCnt` at AON start. -/
def FabCnt.reset : FabCnt where
  overrun := 0
  titheSkip := 0
  titheMismatch := 0
  stallOver := 0
  parityResend := 0
  spillTokens := 0
  watchSpills := 0
  riserDrops := 0
  riserPeak := 0
  creditResync := 0
  nbwHeld := 0
  voidPoison := 0
  qIssues := []
  accSat := 0
  rqSat := 0
  fpSpecial := 0
  qpoisonExact := 0

/-- The WREN registers of the whole fabric (Table 7.5). -/
structure WrenCnt where
  /-- R287: STATUS.RTAG_VALID -/
  rtagValid : Bool
  /-- R287: retention tag digest -/
  rtag : BitVec 256
  /-- R292: STATUS.RETAINED -/
  retained : Bool
  /-- R292: STATUS.RELOADING -/
  reloading : Bool
  /-- R292: CORR_COUNT -/
  corr : Nat
  /-- R292: UNCORR_COUNT -/
  uncorr : Nat
  /-- R292: POISON_READS -/
  poisonReads : Nat
  /-- R292: BLOCKED -/
  blocked : Nat
  /-- R292: RES_RELOADS -/
  resReloads : Nat
  /-- R292: RETAIN_FAILS -/
  retainFails : Nat
  /-- R292: WB_DROPPED -/
  wbDropped : Nat
  /-- R292: AC_SAT -/
  acSat : Nat
  deriving DecidableEq, Repr

/-- `WrenCnt` at AON start. -/
def WrenCnt.reset : WrenCnt where
  rtagValid := false
  rtag := 0
  retained := false
  reloading := false
  corr := 0
  uncorr := 0
  poisonReads := 0
  blocked := 0
  resReloads := 0
  retainFails := 0
  wbDropped := 0
  acSat := 0

/-- FAB.REFUSE_AT (Table 8.6). -/
structure RefuseAt where
  /-- R331: REASON -/
  reason : Nat
  /-- R331: ROW -/
  row : Nat
  /-- R331: MOULD -/
  mould : Nat
  /-- R331: LINK -/
  link : Nat
  /-- R331: CH -/
  ch : Nat
  /-- R331: ITEM -/
  item : Nat
  deriving DecidableEq, Repr

/-- `RefuseAt` at AON start. -/
def RefuseAt.reset : RefuseAt where
  reason := 0
  row := 0
  mould := 0
  link := 0
  ch := 0
  item := 0

/-- The perch fabric and the FAB and WREN blocks. -/
structure Fab where
  /-- R206: physical perches, index 9 × row + column (3) -/
  perch : Vector Perch 72
  /-- R250: COLMAP.BYPASS, none is 0xF -/
  bypass : Option Nat
  /-- R250: COLMAP.SPARE_OK -/
  spareOk : Bool
  /-- R250: COLMAP.REPAIR_AVAIL -/
  repairAvail : Bool
  /-- R250: FAB counters -/
  cnt : FabCnt
  /-- R292: WREN registers -/
  wcnt : WrenCnt
  /-- R250: REPAIR_LINE -/
  repairLine : Nat
  /-- R250: latched REPAIR_LINE_HI -/
  repairLineHi : Nat
  /-- R250: REPAIR_LONG -/
  repairLong : Nat
  /-- R331: REFUSE_AT -/
  refuseAt : RefuseAt
  /-- R245: column repair in progress (3) -/
  repair : Option Repair
  /-- R115: perches with a finding of R115 waiting for the repair (3) -/
  findings : List Nat
  /-- R120: a perch fault stands that no repair can mask (3) -/
  unmasked : Bool
  /-- R315: elastic watches (3) -/
  watch : Vector Watch 16
  /-- R247: the next beat is a fabric restart (3) -/
  restart : Bool
  /-- R145: beats left in the CONTEXT_PARTIAL window (3) -/
  ctxLeft : Nat
  /-- R582: fabric and Sprue released from reset (3) -/
  released : Bool
  /-- R315: order of the next token to enter a receive queue (3) -/
  tokSeq : Nat
  deriving DecidableEq, Repr

/-- `Fab` at AON start. -/
def Fab.reset : Fab where
  perch := Vector.replicate 72 Perch.reset
  bypass := none
  spareOk := false
  repairAvail := false
  cnt := FabCnt.reset
  wcnt := WrenCnt.reset
  repairLine := 0
  repairLineHi := 0
  repairLong := 0
  refuseAt := RefuseAt.reset
  repair := none
  findings := []
  unmasked := false
  watch := Vector.replicate 16 Watch.reset
  restart := false
  ctxLeft := 0
  released := false
  tokSeq := 0

/-- What the device knows of one triggered line until its summary is formed (R123, R362). -/
structure LineRec where
  /-- R123: bar line counter (3) -/
  line : Nat
  /-- R138: ENCZ mark (3) -/
  encz : Bool
  /-- R145: first line after STOPPED or a fabric restart (3) -/
  restart : Bool
  /-- R141: SPEED_LIMIT (3) -/
  speedLimit : Bool
  /-- R141: requests merged, saturating at 255 (3) -/
  merged : Nat
  /-- R145: its beat lies in the CONTEXT_PARTIAL window (3) -/
  ctx : Bool
  /-- R117: its beat falls in a repair gap (3) -/
  repairing : Bool
  /-- R245: its beat falls in a repair gap or a FABRIC re-init and does not run (3) -/
  noBeat : Bool
  /-- R548: event inputs of the line, bit per pin (3) -/
  evIn : BitVec 48
  /-- R644: it falls in a PIXEL or FABRIC re-init or a gap (3) -/
  uninsp : Bool
  /-- R88: DEGRADED (3) -/
  degraded : Bool
  /-- R506: REF_UNSETTLED (3) -/
  refUnsettled : Bool
  /-- R362: adaptation frozen for the line (3) -/
  affFrozen : Bool
  /-- R124: fields that delivered the line (3) -/
  delivered : BitVec 4
  /-- R124: segments whose columns all have a conversion (3) -/
  segOk : BitVec 128
  /-- R55: its last enabled slot has closed (3) -/
  exposed : Bool
  /-- R59: the Ladle has completed the line (3) -/
  ladleDone : Bool
  /-- R198: its row ingress has started (3) -/
  ingressed : Bool
  /-- R124: its beat has begun (3) -/
  beatRan : Bool
  /-- R124: perches that ran its beat (3) -/
  ranOn : List Nat
  /-- R104: the Sprue halves disagreed for its beat (3) -/
  withheld : Bool
  /-- R326: rows whose records of its beat carry DEGRADED (R317, R326) (3) -/
  degRows : List Nat
  /-- R362: records dropped and crops withheld in its beat (3) -/
  drops : Nat
  /-- R362: REC_DROP (3) -/
  recDrop : Bool
  /-- R362: CROP_DROP (3) -/
  cropDrop : Bool
  /-- R437: PTP time of its trigger, ns (3) -/
  time : Int
  /-- R437: PTP_STATE at its trigger (3) -/
  ptpState : Nat
  /-- R391: LT_PERIOD at its trigger, the period of the line before (3) -/
  period : Nat
  /-- R391: hop index at its trigger (3) -/
  hop : Nat
  /-- R391: it sends a time anchor (3) -/
  anchor : Bool
  deriving DecidableEq, Repr

/-- `LineRec` at AON start. -/
def LineRec.reset : LineRec where
  line := 0
  encz := false
  restart := false
  speedLimit := false
  merged := 0
  ctx := false
  repairing := false
  noBeat := false
  evIn := 0
  uninsp := false
  degraded := false
  refUnsettled := false
  affFrozen := false
  delivered := 0
  segOk := 0
  exposed := false
  ladleDone := false
  ingressed := false
  beatRan := false
  ranOn := []
  withheld := false
  degRows := []
  drops := 0
  recDrop := false
  cropDrop := false
  time := 0
  ptpState := 0
  period := 0
  hop := 0
  anchor := false

/-- Flags and outcome of a formed line summary, kept for records that span it (R373). -/
structure LineFlags where
  /-- R373: bar line counter (3) -/
  line : Nat
  /-- R373: line flags (3) -/
  flags : BitVec 16
  deriving DecidableEq, Repr

/-- `LineFlags` at AON start. -/
def LineFlags.reset : LineFlags where
  line := 0
  flags := 0

/-- A label or box of the beat in progress (R366 to R369). -/
structure TokRec where
  /-- R370: logical row (3) -/
  row : Nat
  /-- R370: logical column (3) -/
  col : Nat
  /-- R368: line of its beat (3) -/
  beat : Nat
  /-- R366: a BOX token (3) -/
  box : Bool
  /-- R326: a void token: no record is formed from it (3) -/
  void : Bool
  /-- R366: CLASS (3) -/
  cls : Nat
  /-- R366: SCORE (3) -/
  score : Nat
  /-- R366: ATTR16 of a label (3) -/
  attr16 : Nat
  /-- R367: device column X0 (3) -/
  x0 : Int
  /-- R367: device column X1 (3) -/
  x1 : Int
  /-- R366: H (3) -/
  h : Nat
  /-- R374: a crop is requested (3) -/
  crop : Bool
  /-- R102: the token carried POISON (3) -/
  poison : Bool
  /-- R369: ATTR0 and ATTR1 attached (3) -/
  attr : Option (BitVec 32 × BitVec 32)
  deriving DecidableEq, Repr

/-- `TokRec` at AON start. -/
def TokRec.reset : TokRec where
  row := 0
  col := 0
  beat := 0
  box := false
  void := false
  cls := 0
  score := 0
  attr16 := 0
  x0 := 0
  x1 := 0
  h := 0
  crop := false
  poison := false
  attr := none

/-- A seam fragment, own or the neighbour's (R384). -/
structure Frag where
  /-- R381: 1 West seam, 2 East seam (of the device itself) (3) -/
  side : Nat
  /-- R384: LINE (3) -/
  line : Nat
  /-- R384: H (3) -/
  h : Nat
  /-- R384: X0 in the sender's columns (3) -/
  x0 : Int
  /-- R384: X1 in the sender's columns (3) -/
  x1 : Int
  /-- R384: CLASS (3) -/
  cls : Nat
  /-- R384: SCORE (3) -/
  score : Nat
  /-- R384: FLAGS (3) -/
  flags : BitVec 16
  /-- R384: BOX_ID (3) -/
  boxId : Nat
  /-- R384: sender's bar line offset (3) -/
  offset : Nat
  /-- R384: sender's device ID field (3) -/
  dev : BitVec 16
  /-- R386: BOX_ID of the partner it is paired with (3) -/
  pair : Option Nat
  /-- R386: its resolve point has passed (3) -/
  resolved : Bool
  /-- R386: partner's resolve frame: the BOX_ID it names, or none (3) -/
  partner : Option (Option Nat)
  /-- R388: reason of Table 10.9 found at its resolve point (3) -/
  why : Nat
  deriving DecidableEq, Repr

/-- `Frag` at AON start. -/
def Frag.reset : Frag where
  side := 0
  line := 0
  h := 0
  x0 := 0
  x1 := 0
  cls := 0
  score := 0
  flags := 0
  boxId := 0
  offset := 0
  dev := 0
  pair := none
  resolved := false
  partner := none
  why := 0

/-- A crop taken for a box record (R374 to R380). -/
structure Crop where
  /-- R378: CROP_ID, given when it is sent (3) -/
  id : Nat
  /-- R378: BOX_ID of the requesting box (3) -/
  boxId : Nat
  /-- R374: last line of the crop (3) -/
  line : Nat
  /-- R374: class (3) -/
  cls : Nat
  /-- R374: first column (3) -/
  c0 : Nat
  /-- R374: WIDTH (3) -/
  width : Nat
  /-- R374: HEIGHT (3) -/
  height : Nat
  /-- R374: FIELDS (3) -/
  fields : BitVec 4
  /-- R378: FLAGS (3) -/
  flags : BitVec 16
  /-- R375: credit taken (3) -/
  cost : Nat
  /-- R376: its payload in the crop store (3) -/
  bytes : List Byte
  deriving DecidableEq, Repr

/-- `Crop` at AON start. -/
def Crop.reset : Crop where
  id := 0
  boxId := 0
  line := 0
  cls := 0
  c0 := 0
  width := 0
  height := 0
  fields := 0
  flags := 0
  cost := 0
  bytes := []

/-- A pin event in the release queue (R77). -/
structure Evt where
  /-- R77: line j its decision last depends on (3) -/
  line : Nat
  /-- R366: fabric event port (3) -/
  port : Nat
  deriving DecidableEq, Repr

/-- `Evt` at AON start. -/
def Evt.reset : Evt where
  line := 0
  port := 0

/-- The result engine and the LEDGER block (Table 10.12). -/
structure Sprue where
  /-- R123: triggered lines whose summaries are not formed, oldest first (3) -/
  lines : List LineRec
  /-- R373: flags of formed lines, newest first (3) -/
  flagHist : List LineFlags
  /-- R366: labels and boxes of the beat in progress, in issue order (3) -/
  toks : List TokRec
  /-- R371: record credit, unsigned 8.8 (3) -/
  recCredit : Nat
  /-- R375: ROI_CREDIT -/
  roiCredit : Nat
  /-- R376: bytes of the crop store in use (3) -/
  cropUsed : Nat
  /-- R376: payload bytes copied in the beat (3) -/
  cropBeat : Nat
  /-- R376: crops in the crop store whose copy has not ended, oldest first (3) -/
  crops : List Crop
  /-- R242: logical column whose egress FIFO a row's bus looks at first (3) -/
  egrNext : Vector (Fin 8) 8
  /-- R369: next BOX_ID (3) -/
  boxId : Nat
  /-- R378: next CROP_ID (3) -/
  cropId : Nat
  /-- R77: release queue (3) -/
  events : List Evt
  /-- R384: own fragments not yet resolved (3) -/
  own : List Frag
  /-- R385: fragments of the seam neighbours (3) -/
  theirs : List Frag
  /-- R397: LAST_LINE -/
  lastLine : Nat
  /-- R397: latched LAST_LINE_HI -/
  lastLineHi : Nat
  /-- R464: a summary has been formed since COMMIT (3) -/
  anySummary : Bool
  /-- R397: UNINSP_LINES -/
  uninspLines : Nat
  /-- R397: REC_DROPS -/
  recDrops : Nat
  /-- R397: CROPS_SENT -/
  cropsSent : Nat
  /-- R397: CROPS_WITHHELD -/
  cropsWithheld : Nat
  /-- R397: SEAM_MERGED -/
  seamMerged : Nat
  /-- R397: SEAM_UNMERGED -/
  seamUnmerged : Nat
  /-- R397: ATTR_DISCARD -/
  attrDiscard : Nat
  /-- R391: the next line sends a time anchor (3) -/
  anchorDue : Bool
  /-- R72: the last summary carried DEGRADED or UNINSPECTED (3) -/
  supBit : Bool
  deriving DecidableEq, Repr

/-- `Sprue` at AON start. -/
def Sprue.reset : Sprue where
  lines := []
  flagHist := []
  toks := []
  recCredit := 0
  roiCredit := 0
  cropUsed := 0
  cropBeat := 0
  crops := []
  egrNext := Vector.replicate 8 0
  boxId := 0
  cropId := 0
  events := []
  own := []
  theirs := []
  lastLine := 0
  lastLineHi := 0
  anySummary := false
  uninspLines := 0
  recDrops := 0
  cropsSent := 0
  cropsWithheld := 0
  seamMerged := 0
  seamUnmerged := 0
  attrDiscard := 0
  anchorDue := true
  supBit := false

/-- A closed live datagram (Table 11.2). -/
structure Datagram where
  /-- R410: SEQ (3) -/
  seq : Nat
  /-- R407: its records (3) -/
  recs : List (List (BitVec 8))
  /-- R407: STATE (3) -/
  state : Nat
  /-- R410: STREAM (3) -/
  stream : BitVec 32
  /-- R407: SOURCE (3) -/
  source : BitVec 16
  /-- R415: when it closed (3) -/
  closed : Nat
  deriving DecidableEq, Repr

/-- `Datagram` at AON start. -/
def Datagram.reset : Datagram where
  seq := 0
  recs := []
  state := 0
  stream := 0
  source := 0
  closed := 0

/-- One thing a retry request still has to send (R419, R420). -/
structure Serve where
  /-- R419: first sequence number (3) -/
  seq : Nat
  /-- R419: 0 a retransmission, else the NAK reason (3) -/
  nak : Nat
  /-- R419: run length of a NAK (3) -/
  count : Nat
  /-- R420: the last thing of its request (3) -/
  last : Bool
  deriving DecidableEq, Repr

/-- `Serve` at AON start. -/
def Serve.reset : Serve where
  seq := 0
  nak := 0
  count := 0
  last := false

/-- The addresses a lane uses (R440, R589). -/
structure LaneCfg where
  /-- R440: IPv4 address, first octet in [31:24] (3) -/
  ip : BitVec 32
  /-- R440: prefix length (3) -/
  pfx : Nat
  /-- R440: gateway, 0 none (3) -/
  gateway : BitVec 32
  /-- R440: HOST_IP (3) -/
  host : BitVec 32
  /-- R440: HOST_PORT (3) -/
  hostPort : Nat
  /-- R404: NEXT_HOP_MAC, octet 0 in [7:0], none to resolve by ARP (3) -/
  hopMac : Option (BitVec 48)
  /-- R440: VLAN_ID when the lane tags (3) -/
  vlan : Option Nat
  /-- R440: PCP of the tag (3) -/
  pcp : Nat
  /-- R402: TTL (3) -/
  ttl : Nat
  /-- R402: DSCP_RES (3) -/
  dscpRes : Nat
  /-- R402: DSCP_MNT (3) -/
  dscpMnt : Nat
  /-- R402: DSCP_PTP (3) -/
  dscpPtp : Nat
  /-- R589: the addresses come from a NET section (3) -/
  fromImage : Bool
  deriving DecidableEq, Repr

/-- `LaneCfg` at AON start. -/
def LaneCfg.reset : LaneCfg where
  ip := 0
  pfx := 0
  gateway := 0
  host := 0
  hostPort := 47100
  hopMac := none
  vlan := none
  pcp := 0
  ttl := 64
  dscpRes := 0
  dscpMnt := 0
  dscpPtp := 46
  fromImage := false

/-- One egress lane (Table 11.7). -/
structure Lane where
  /-- R405: PCS block lock -/
  lock : Bool
  /-- R405: the reconciliation sublayer reports a fault (3) -/
  rsFault : Bool
  /-- R404: MAC of the next hop, none while unknown (3) -/
  nextMac : Option (BitVec 48)
  /-- R403: the ARP announcement of this usable period has left (3) -/
  announced : Bool
  /-- R589: addresses in use (3) -/
  cfg : LaneCfg
  /-- R584: the lane answers (from the COMMIT edge, or in SAFE) (3) -/
  up : Bool
  /-- R442: TX_LIVE -/
  txLive : Nat
  /-- R442: TX_RETRANS -/
  txRetrans : Nat
  /-- R442: TX_NAK -/
  txNak : Nat
  /-- R442: RETRY_OK -/
  retryOk : Nat
  /-- R442: RETRY_BAD -/
  retryBad : Nat
  /-- R442: RETRY_DROPPED -/
  retryDropped : Nat
  /-- R442: RX_DROP -/
  rxDrop : Nat
  /-- R442: ARP_CONFLICT -/
  arpConflict : Nat
  /-- R442: LOCK_LOSS -/
  lockLoss : Nat
  /-- R442: SKIPPED -/
  skipped : Nat
  /-- R420: requests being served, oldest first (3) -/
  serve : List Serve
  /-- R412: SEQs of closed live datagrams waiting to leave (3) -/
  txq : List Nat
  deriving DecidableEq, Repr

/-- `Lane` at AON start. -/
def Lane.reset : Lane where
  lock := false
  rsFault := false
  nextMac := none
  announced := false
  cfg := LaneCfg.reset
  up := false
  txLive := 0
  txRetrans := 0
  txNak := 0
  retryOk := 0
  retryBad := 0
  retryDropped := 0
  rxDrop := 0
  arpConflict := 0
  lockLoss := 0
  skipped := 0
  serve := []
  txq := []

/-- Datagram assembly, the lanes and the replay ring (Table 11.7). -/
structure Net where
  /-- R399: EGA and EGB -/
  lane : Vector Lane 2
  /-- R410: next live SEQ -/
  seq : Nat
  /-- R442: latched SEQ_HI -/
  seqHi : Nat
  /-- R410: STREAM -/
  stream : BitVec 32
  /-- R410: the STREAM before, which the next draw differs from (3) -/
  lastStream : BitVec 32
  /-- R365: records of the open datagram, oldest first (3) -/
  queue : List (List (BitVec 8))
  /-- R415: replay ring, oldest first -/
  ring : List Datagram
  /-- R442: latched RING_OLDEST_HI -/
  ringHi : Nat
  deriving DecidableEq, Repr

/-- `Net` at AON start. -/
def Net.reset : Net where
  lane := Vector.replicate 2 Lane.reset
  seq := 0
  seqHi := 0
  stream := 0
  lastStream := 0
  queue := []
  ring := []
  ringHi := 0

/-- A master announced on a lane (R426). -/
structure Candidate where
  /-- R426: what it announced (3) -/
  ann : AnnData
  /-- R426: when its last Announce came (3) -/
  since : Nat
  deriving DecidableEq, Repr

/-- `Candidate` at AON start. -/
def Candidate.reset : Candidate where
  ann := ⟨0, 0, 0, 0, 0, 0, 0, 0, 0⟩
  since := 0

/-- A two-step Sync that waits for its Follow_Up (R425). -/
structure HeldSync where
  /-- R425: the message (3) -/
  msg : SyncData
  /-- R427: its receive timestamp (3) -/
  rx : Int
  /-- R425: when it came (3) -/
  since : Nat
  deriving DecidableEq, Repr

/-- `HeldSync` at AON start. -/
def HeldSync.reset : HeldSync where
  msg := ⟨0, 0, false, ⟨0, 0⟩, 0⟩
  rx := 0
  since := 0

/-- The PTP message exchange of one lane (R423 to R432). Times are in ticks of 1/655,360 ns. -/
structure PtpLane where
  /-- R426: selected master (3) -/
  master : Option AnnData
  /-- R426: masters announced on the lane (3) -/
  candidates : List Candidate
  /-- R425: times of the Syncs accepted within the last second, newest first (3) -/
  syncs : List Nat
  /-- R425: a two-step Sync waiting for its Follow_Up (3) -/
  twoStep : Option HeldSync
  /-- R427: mean path delay of the lane (3) -/
  mpd : Int
  /-- R423: origin timestamp of the last Sync used, with its corrections (3) -/
  t1 : Int
  /-- R423: receive timestamp of the last Sync used (3) -/
  t2 : Int
  /-- R425: send timestamp of the Delay_Req outstanding (3) -/
  t3 : Option Int
  /-- R425: sequence id of the last Delay_Req (3) -/
  reqId : Nat
  /-- R425: times of the Delay_Reqs sent within the last second, newest first (3) -/
  reqs : List Nat
  /-- R425: when the next Delay_Req may leave (3) -/
  reqDue : Nat
  /-- R425: logMessageInterval of the last Delay_Resp (3) -/
  reqLog : Int
  /-- R431: a time path fault stands (3) -/
  pathFault : Bool
  /-- R431: consecutive bad markers (3) -/
  markerBad : Nat
  deriving DecidableEq, Repr

/-- `PtpLane` at AON start. -/
def PtpLane.reset : PtpLane where
  master := none
  candidates := []
  syncs := []
  twoStep := none
  mpd := 0
  t1 := 0
  t2 := 0
  t3 := none
  reqId := 0
  reqs := []
  reqDue := 0
  reqLog := 0
  pathFault := false
  markerBad := 0

/-- The PTP slave, the time counter and t_LC (R423 to R438). Times are in ticks of 1/655,360 ns, in which 0.8 ns and
2^-16 ns are whole numbers (log entry 31). -/
structure Ptp where
  /-- R433: PTP_STATE -/
  state : Nat
  /-- R430: PTP_LANE -/
  lane : Nat
  /-- R435: TIME_SUSPECT -/
  suspect : Bool
  /-- R428: time counter at model time tAt, within 48-bit seconds -/
  tBase : Int
  /-- R428: model time at which tBase held (3) -/
  tAt : Nat
  /-- R428: the time counter runs (3) -/
  running : Bool
  /-- R442: frequency term, 2^-16 ppm -/
  freq : Int
  /-- R428: rate of the phase term, 2^-16 ppm (3) -/
  slew : Int
  /-- R434: t_LC at model time tAt, none until set (3) -/
  tlc : Option Int
  /-- R442: the last offset -/
  offset : Int
  /-- R442: mean path delay in use -/
  mpd : Int
  /-- R442: PTP_STEPS -/
  steps : Nat
  /-- R442: PTP_FAILOVER -/
  failover : Nat
  /-- R433: consecutive Syncs with a small offset (3) -/
  goodRun : Nat
  /-- R436: since when PTP_STATE has been 1 without a step (3) -/
  lockedAt : Option Nat
  /-- R430: since when lane A's time path has been usable without a break (3) -/
  aSince : Option Nat
  /-- R423: the exchange of each lane (3) -/
  pl : Vector PtpLane 2
  /-- R438: the PPS signal is high (3) -/
  pps : Bool
  deriving DecidableEq, Repr

/-- `Ptp` at AON start. -/
def Ptp.reset : Ptp where
  state := 0
  lane := 0
  suspect := false
  tBase := 0
  tAt := 0
  running := false
  freq := 0
  slew := 0
  tlc := none
  offset := 0
  mpd := 0
  steps := 0
  failover := 0
  goodRun := 0
  lockedAt := none
  aSince := none
  pl := Vector.replicate 2 PtpLane.reset
  pps := false

/-- What the last HELLO of a neighbour said (Table 12.4). -/
structure Neigh where
  /-- R483: device ID field -/
  id : BitVec 16
  /-- R458: NONCE (3) -/
  nonce : BitVec 32
  /-- R483: STATE -/
  state : Nat
  /-- R483: BAR -/
  bar : Nat
  /-- R482: BAR_POS (3) -/
  pos : Nat
  /-- R386: OFFSET (3) -/
  offset : Nat
  /-- R385: first bytes of the group image hash (3) -/
  hash : BitVec 64
  /-- R458: FLAGS (3) -/
  flags : Nat
  deriving DecidableEq, Repr

/-- `Neigh` at AON start. -/
def Neigh.reset : Neigh where
  id := 0x8FFF
  nonce := 0
  state := 0
  bar := 0
  pos := 0
  offset := 0
  hash := 0
  flags := 0

/-- One Starling port (Table 12.8). -/
structure Port where
  /-- R447: link up -/
  up : Bool
  /-- R479: passive mode -/
  passive : Bool
  /-- R481: a mode change waits for an IDLE: the passive bit wanted (3) -/
  want : Option Bool
  /-- R448: cable delay, 0.5 ns units -/
  delay : Nat
  /-- R480: cable delay the passive relay uses, 5.0 ns after POR -/
  relayDelay : Nat
  /-- R448: SEQ of the last ECHO (3) -/
  echoSeq : Nat
  /-- R483: last HELLO, none when none came -/
  neigh : Option Neigh
  /-- R483: CRC_ERR -/
  crcErr : Nat
  /-- R449: times of bad frames within the last second (3) -/
  crcTimes : List Nat
  /-- R483: LINKDOWN -/
  linkDown : Nat
  /-- R465: LOST was sent for the neighbour (3) -/
  lost : Bool
  /-- R474: BREAK was sent for the link (3) -/
  broke : Bool
  /-- R448: the cable to a neighbour of the same bar measured outside R445 (3) -/
  oot : Bool
  deriving DecidableEq, Repr

/-- `Port` at AON start. -/
def Port.reset : Port where
  up := false
  passive := true
  want := none
  delay := 0
  relayDelay := 10
  echoSeq := 0
  neigh := none
  crcErr := 0
  crcTimes := []
  linkDown := 0
  lost := false
  broke := false
  oot := false

/-- The content of an AGREE frame (Table 12.4). -/
structure Agree where
  /-- R461: SRC (3) -/
  src : Nat
  /-- R450: PV (3) -/
  pv : Nat
  /-- R460: EPOCH (3) -/
  epoch : Nat
  /-- R460: GROUP_HASH (3) -/
  hash : BitVec 256
  /-- R460: RING_N (3) -/
  ringN : Nat
  /-- R475: DETOUR_BAR (3) -/
  dBar : Nat
  /-- R475: DETOUR_DIR (3) -/
  dDir : Nat
  /-- R475: DETOUR_P (3) -/
  dP : Nat
  /-- R461: when it was received (3) -/
  time : Nat
  deriving DecidableEq, Repr

/-- `Agree` at AON start. -/
def Agree.reset : Agree where
  src := 0
  pv := 0
  epoch := 0
  hash := 0
  ringN := 0
  dBar := 0
  dDir := 0
  dP := 0
  time := 0

/-- What HELLO, MEMBER and LOST frames said of one device (R462, R465). -/
structure Member where
  /-- R462: device ID (3) -/
  id : Nat
  /-- R462: STATE (3) -/
  state : Nat
  /-- R462: BAR (3) -/
  bar : Nat
  /-- R462: ROLES (3) -/
  roles : Nat
  /-- R462: DUP_ID seen (3) -/
  dup : Bool
  /-- R465: named by a LOST since (3) -/
  lost : Bool
  deriving DecidableEq, Repr

/-- `Member` at AON start. -/
def Member.reset : Member where
  id := 0
  state := 0
  bar := 0
  roles := 0
  dup := false
  lost := false

/-- One device of the ring as last closed (R474). -/
structure RingDev where
  /-- R474: device ID (3) -/
  id : Nat
  /-- R474: hops East of this device (3) -/
  place : Nat
  /-- R474: BAR (3) -/
  bar : Nat
  /-- R474: W_DELAY (3) -/
  wDelay : Nat
  /-- R474: E_DELAY (3) -/
  eDelay : Nat
  deriving DecidableEq, Repr

/-- `RingDev` at AON start. -/
def RingDev.reset : RingDev where
  id := 0
  place := 0
  bar := 0
  wDelay := 0
  eDelay := 0

/-- The Starling ring block (Table 12.8). -/
structure Star where
  /-- R443: SW and SE -/
  port : Vector Port 2
  /-- R458: own NONCE (3) -/
  nonce : BitVec 32
  /-- R457: ID.NONE -/
  noId : Bool
  /-- R483: STATUS.GROUP_MASTER -/
  groupMaster : Bool
  /-- R483: STATUS.ENC_MASTER -/
  encMaster : Bool
  /-- R482: STATUS.FOREIGN_IMAGE -/
  foreign : Bool
  /-- R458: STATUS.DUP_ID -/
  dupId : Bool
  /-- R483: STATUS.PV_MISMATCH -/
  pvMismatch : Bool
  /-- R482: passive after a PV mismatch, until the next reset (3) -/
  pvOut : Bool
  /-- R468: ID.HOP -/
  hop : Nat
  /-- R461: the AGREE of each SRC received within 5 ms, lowest SRC first: the head is followed (3) -/
  heard : List Agree
  /-- R460: the AGREE last sent as group master has come back (3) -/
  returned : Bool
  /-- R483: the AGREE last followed -/
  last : Agree
  /-- R460: own EPOCH as group master (3) -/
  epoch : Nat
  /-- R460: highest epoch received (3) -/
  maxEpoch : Option Nat
  /-- R460: RING_N measured as group master (3) -/
  ringN : Nat
  /-- R459: the device claims (3) -/
  claiming : Bool
  /-- R483: own bar's encoder master, ENC -/
  holder : Option Nat
  /-- R463: granted the role, not yet started (3) -/
  granted : Bool
  /-- R463: how the new holder starts (3) -/
  await : HandState
  /-- R463: the next tick is marked HANDOVER (3) -/
  handover : Bool
  /-- R464: LINE of the last tick of the own bar since COMMIT (3) -/
  lastTick : Option Nat
  /-- R464: highest LAST_LINE of the bar's MEMBER frames (3) -/
  bestLast : Option Nat
  /-- R464: LINE of the first trigger of a new holder (3) -/
  startLine : Option Nat
  /-- R474: members known, for the group master (3) -/
  members : List Member
  /-- R462: bars with the holder granted, if any (3) -/
  holders : List (Nat × Option Nat)
  /-- R474: the ring as last closed (3) -/
  map : List RingDev
  /-- R474: its RING_N (3) -/
  mapN : Nat
  /-- R474: breaks known to the group master: device and port (3) -/
  breaks : List (Nat × Nat)
  /-- R475: detour published as group master: bar, direction, P (3) -/
  detour : Option (Nat × Nat × Nat)
  /-- R471: GAP_LINES -/
  gapLines : Nat
  /-- R472: LINE_BREAKS -/
  lineBreaks : Nat
  deriving DecidableEq, Repr

/-- `Star` at AON start. -/
def Star.reset : Star where
  port := Vector.replicate 2 Port.reset
  nonce := 0
  noId := false
  groupMaster := false
  encMaster := false
  foreign := false
  dupId := false
  pvMismatch := false
  pvOut := false
  hop := 0
  heard := []
  returned := true
  last := Agree.reset
  epoch := 0
  maxEpoch := none
  ringN := 0
  claiming := false
  holder := none
  granted := false
  await := .none
  handover := false
  lastTick := none
  bestLast := none
  startLine := none
  members := []
  holders := []
  map := []
  mapN := 0
  breaks := []
  detour := none
  gapLines := 0
  lineBreaks := 0

/-- One converter slice (Table 13.7). -/
structure Slice where
  /-- R526: offset trim, 0.5 LSB -/
  offset : Int
  /-- R526: gain trim, 0.025 % -/
  gain : Int
  /-- R526: sampling instant trim, 5 ps -/
  skew : Int
  /-- R491: IN_SERVICE -/
  inService : Bool
  /-- R485: its cycle of this tick has ended and passed (3) -/
  calibrated : Bool
  deriving DecidableEq, Repr

/-- `Slice` at AON start. -/
def Slice.reset : Slice where
  offset := 0
  gain := 0
  skew := 0
  inService := false
  calibrated := false

/-- HKC.DATA (Table 13.8). -/
structure HkcData where
  /-- R498: RESULT before alignment -/
  result : Int
  /-- R499: CHAN -/
  chan : Nat
  /-- R520: INJ -/
  inj : Bool
  /-- R504: REF_UNSETTLED -/
  unsettled : Bool
  /-- R499: OVR -/
  ovr : Bool
  /-- R499: SLICE -/
  slice : Nat
  /-- R499: VALID -/
  valid : Bool
  deriving DecidableEq, Repr

/-- `HkcData` at AON start. -/
def HkcData.reset : HkcData where
  result := 0
  chan := 0
  inj := false
  unsettled := false
  ovr := false
  slice := 0
  valid := false

/-- One rail monitor (R500). -/
structure RailMon where
  /-- R526: MV -/
  mv : Nat
  /-- R526: OUT -/
  out : Bool
  /-- R500: consecutive results outside the window (3) -/
  outRun : Nat
  /-- Edges of Table 3.2: consecutive results inside the window (3) -/
  inRun : Nat
  deriving DecidableEq, Repr

/-- `RailMon` at AON start. -/
def RailMon.reset : RailMon where
  mv := 0
  out := false
  outRun := 0
  inRun := 0

/-- One temperature sensor (R501). -/
structure TempMon where
  /-- R526: VALUE, 1/16 °C -/
  value : Int
  /-- R501: EXCLUDED -/
  excluded : Bool
  /-- R501: a result has been taken since COMMIT (3) -/
  seen : Bool
  /-- R501: consecutive passes off the median by more than 8 °C (3) -/
  devRun : Nat
  deriving DecidableEq, Repr

/-- `TempMon` at AON start. -/
def TempMon.reset : TempMon where
  value := 0
  excluded := false
  seen := false
  devRun := 0

/-- The strobe integrator's runs for one slot (R511 to R514). -/
structure SlotMon where
  /-- R511: INTEG_Ek -/
  energy : Int
  /-- R512: consecutive energies out of window (3) -/
  outRun : Nat
  /-- R512: the last of them was high (3) -/
  high : Bool
  /-- R513: consecutive energies in window (3) -/
  inRun : Nat
  /-- R514: consecutive saturated measurements (3) -/
  satRun : Nat
  /-- R514: consecutive unsaturated measurements (3) -/
  unsatRun : Nat
  /-- R526: INTEG_STAT.OUT -/
  out : Bool
  /-- R526: INTEG_STAT.SAT -/
  sat : Bool
  deriving DecidableEq, Repr

/-- `SlotMon` at AON start. -/
def SlotMon.reset : SlotMon where
  energy := 0
  outRun := 0
  high := false
  inRun := 0
  satRun := 0
  unsatRun := 0
  out := false
  sat := false

/-- The housekeeping converter (Tables 13.7, 13.8). -/
structure Hkc where
  /-- R502: STATUS.REF_EN, enabled by the ROM at AON start -/
  refEn : Bool
  /-- R503: REF_SETTLE_US have passed since the enable -/
  settled : Bool
  /-- R505: the reference check fails (3) -/
  refFail : Bool
  /-- R505: consecutive results of channel 12 out of tolerance (3) -/
  refOutRun : Nat
  /-- R505: consecutive results within tolerance (3) -/
  refInRun : Nat
  /-- R484: STATUS.P, 3 none -/
  roleP : Nat
  /-- R484: STATUS.Q, 3 none -/
  roleQ : Nat
  /-- R484: STATUS.C, 3 none -/
  roleC : Nat
  /-- R484: S0 to S2 -/
  slice : Vector Slice 3
  /-- R485: a rotation waits for its instant (3) -/
  rotDue : Bool
  /-- R521: the scan runs (3) -/
  scanOn : Bool
  /-- R521: STATUS.SLEEP_SCAN -/
  sleepScan : Bool
  /-- R499: DATA -/
  data : HkcData
  /-- R493: SCAN_MASK in use -/
  scanMask : BitVec 32
  /-- R495: CONFIG.DIFF -/
  diff : BitVec 6
  /-- R498: CONFIG.ALIGN -/
  align : Bool
  /-- R502: CONFIG.REF_SEL -/
  refSel : Bool
  /-- R507: CONFIG.INTEG_EN -/
  integEn : Bool
  /-- R508: CONFIG.INTEG_SLOTS -/
  integSlots : BitVec 4
  /-- R521: STATUS.INTEG_ON -/
  integOn : Bool
  /-- R521: injected conversions enabled (3) -/
  injOn : Bool
  /-- R526: OVR_COUNT -/
  ovr : Nat
  /-- R526: PASS_COUNT -/
  passCount : Nat
  /-- R526: PASS_MAX, ns -/
  passMax : Nat
  /-- R526: when the present pass began (3) -/
  passStart : Nat
  /-- R494: channel the scan converts next (3) -/
  nextChan : Nat
  /-- R526: INJ_LAST.RESULT before alignment -/
  injResult : Int
  /-- R526: INJ_LAST.LINE -/
  injLine : Nat
  /-- R526: INJ_LAST.CHAN -/
  injChan : Nat
  /-- R526: INJ_DROP -/
  injDrop : Nat
  /-- R519: a waiting request and the line counter [7:0] at it (3) -/
  injPending : Option Nat
  /-- R519: when the last PIN request was accepted (3) -/
  injPinAt : Option Nat
  /-- R526: CAL_PASS -/
  calPass : Nat
  /-- R526: CAL_FAIL -/
  calFail : Nat
  /-- R511: integrator, per slot -/
  slot : Vector SlotMon 4
  /-- R509: open window: slot and model time of its opening (3) -/
  window : Option (Nat × Nat)
  /-- R526: INTEG_OUT_COUNT -/
  outCount : Nat
  /-- R500: rail monitors -/
  rail : Vector RailMon 8
  /-- R501: temperature sensors -/
  temp : Vector TempMon 6
  /-- R501: TEMP_STACK, 1/16 °C -/
  stack : Int
  /-- R526: REFCH -/
  refch : Nat
  /-- R488: consecutive passes of ground out of tolerance (3) -/
  gndRun : Nat
  /-- R487: the mode has fallen to one slice since the last re-init or reset (3) -/
  oneSlice : Bool
  /-- R491: slices whose calibration at the reset has ended (3) -/
  calDone : Nat
  /-- R517: an accepted edge on INJ_PIN requests an injected conversion (3) -/
  pinReq : Bool
  deriving DecidableEq, Repr

/-- `Hkc` at AON start. -/
def Hkc.reset : Hkc where
  refEn := true
  settled := false
  refFail := false
  refOutRun := 0
  refInRun := 0
  roleP := 3
  roleQ := 3
  roleC := 3
  slice := Vector.replicate 3 Slice.reset
  rotDue := false
  scanOn := false
  sleepScan := false
  data := HkcData.reset
  scanMask := 0x0FFFF000
  diff := 0
  align := false
  refSel := false
  integEn := false
  integSlots := 0
  integOn := false
  injOn := false
  ovr := 0
  passCount := 0
  passMax := 0
  passStart := 0
  nextChan := 12
  injResult := 0
  injLine := 0
  injChan := 0
  injDrop := 0
  injPending := none
  injPinAt := none
  calPass := 0
  calFail := 0
  slot := Vector.replicate 4 SlotMon.reset
  window := none
  outCount := 0
  rail := Vector.replicate 8 RailMon.reset
  temp := Vector.replicate 6 TempMon.reset
  stack := 0
  refch := 0
  gndRun := 0
  oneSlice := false
  calDone := 0
  pinReq := false

/-- One general pin (Table 14.7). -/
structure Pin where
  /-- R527: CFGp.MUX (image) (3) -/
  mux : Nat
  /-- R532: CFGp.OWNER (image) (3) -/
  owner : Nat
  /-- R554: CFGp.OE (image) -/
  oe : Bool
  /-- R531: CFGp.OD (image) (3) -/
  od : Bool
  /-- R554: CFGp.PULL (image; weak pull-down before COMMIT) -/
  pull : Nat
  /-- R531: CFGp.DRIVE (image) (3) -/
  drive : Nat
  /-- R531: CFGp.SLEW (image) (3) -/
  slew : Bool
  /-- R528: CFGp.INV (image) (3) -/
  inv : Bool
  /-- R555: CFGp.HT (image) (3) -/
  ht : Bool
  /-- R550: CFGp.WAKE (image) (3) -/
  wake : Bool
  /-- R545: CFGp.INT_KIND (image) (3) -/
  intKind : Nat
  /-- R545: CFGp.INT_FILT (image) (3) -/
  intFilt : Nat
  /-- R537: SUP_ACT (image) (3) -/
  supAct : Nat
  /-- R535: DATA bit (image) (3) -/
  data : Bool
  /-- R530: level driven on the pad from outside (3) -/
  pad : Bool
  /-- R545: level accepted by the interrupt filter (3) -/
  accepted : Bool
  /-- R546: INT_STATUS bit -/
  intStatus : Bool
  /-- R23: when a condition last set INT_STATUS (log entry 44) -/
  intAt : Option Nat
  /-- Edges of "Banks and functions": something outside holds the driven pin at the other level (3) -/
  forced : Bool
  /-- R550: level at the entry into SLEEP (3) -/
  slept : Bool
  /-- R555: HT_VALID bit -/
  htValid : Bool
  /-- R555: HT_LEVEL bit: latched DATA -/
  htLevel : Bool
  /-- R554: latched OE (3) -/
  htOe : Bool
  /-- R554: latched OD (3) -/
  htOd : Bool
  /-- R554: latched PULL (3) -/
  htPull : Nat
  /-- R554: latched DRIVE (3) -/
  htDrive : Nat
  /-- R554: latched SLEW (3) -/
  htSlew : Bool
  /-- R554: latched INV (3) -/
  htInv : Bool
  /-- R548: an edge of the kind fell since the last trigger (3) -/
  evIn : Bool
  /-- R527: a LINE_OUT or ENCZ_OUT pulse is high (3) -/
  lineOut : Bool
  /-- R559: level frozen in SLEEP (3) -/
  frozen : Option Bool
  /-- R544: DATA before the present instant of port actions (3) -/
  tieBase : Bool
  /-- R544: a SET port acted on it at that instant (3) -/
  tieSet : Bool
  /-- R544: a CLR port acted on it at that instant (3) -/
  tieClr : Bool
  /-- R544: an odd number of TGL ports acted on it at that instant (3) -/
  tieOdd : Bool
  deriving DecidableEq, Repr

/-- `Pin` at AON start. -/
def Pin.reset : Pin where
  mux := 0
  owner := 0
  oe := false
  od := false
  pull := 1
  drive := 1
  slew := false
  inv := false
  ht := false
  wake := false
  intKind := 0
  intFilt := 2
  supAct := 0
  data := false
  pad := false
  accepted := false
  intStatus := false
  intAt := none
  forced := false
  slept := false
  htValid := false
  htLevel := false
  htOe := false
  htOd := false
  htPull := 1
  htDrive := 1
  htSlew := false
  htInv := false
  evIn := false
  lineOut := false
  frozen := none
  tieBase := false
  tieSet := false
  tieClr := false
  tieOdd := false

/-- One fabric event port (R538 to R543). -/
structure Evp where
  /-- R542: target lines of held events, oldest first (3) -/
  held : List Nat
  /-- R543: a PULSE contribution is raised (3) -/
  active : Bool
  /-- R543: its start line (3) -/
  startLine : Nat
  /-- R561: EVPk_COUNT -/
  count : Nat
  deriving DecidableEq, Repr

/-- `Evp` at AON start. -/
def Evp.reset : Evp where
  held := []
  active := false
  startLine := 0
  count := 0

/-- The general pins and the I2C controller (Table 14.7). -/
structure Gpio where
  /-- R527: GP00 to GP47 (3) -/
  pin : Vector Pin 48
  /-- R554: image settings in force (after the COMMIT edge) -/
  active : Bool
  /-- R558: event ports active -/
  evpOn : Bool
  /-- R544: instant of the last SET, CLR or TGL action: a release and its line, or a trigger and its line (3) -/
  tie : Option (Bool × Nat)
  /-- R538: EVP0 to EVP15 -/
  evp : Vector Evp 16
  /-- R534: FOREIGN_COUNT -/
  foreignCount : Nat
  /-- R534: FOREIGN_LAST.PIN -/
  foreignPin : Nat
  /-- R534: FOREIGN_LAST.AGENT -/
  foreignAgent : Nat
  /-- R559: PULSE_CUT -/
  pulseCut : Nat
  /-- R543: EVP_RETRIG -/
  retrig : Nat
  /-- R547: INT_COUNT -/
  intCount : Nat
  /-- R561: I2C_STATUS.BUS_OK -/
  i2cOk : Bool
  /-- R553: I2C_STATUS.STUCK -/
  i2cStuck : Bool
  /-- R552: BOARD_TEMPm VALUE and VALID -/
  boardTemp : Vector (Int × Bool) 4
  /-- R553: I2C_NACK -/
  i2cNack : Nat
  /-- R553: I2C_TIMEOUT -/
  i2cTimeout : Nat
  /-- R692: supply range each bank has detected (3) -/
  bank : Vector BankRange 2
  deriving DecidableEq, Repr

/-- `Gpio` at AON start. -/
def Gpio.reset : Gpio where
  pin := Vector.replicate 48 Pin.reset
  active := false
  evpOn := false
  tie := none
  evp := Vector.replicate 16 Evp.reset
  foreignCount := 0
  foreignPin := 0
  foreignAgent := 0
  pulseCut := 0
  retrig := 0
  intCount := 0
  i2cOk := false
  i2cStuck := false
  boardTemp := Vector.replicate 4 (0, false)
  i2cNack := 0
  i2cTimeout := 0
  bank := Vector.replicate 2 .absent

/-- Boundary scan (R706). -/
structure Bscan where
  /-- R706: an instruction that drives the pins is in force (3) -/
  driving : Bool
  /-- R706: boundary register cells driven (3) -/
  cells : List Bool
  deriving DecidableEq, Repr

/-- `Bscan` at AON start. -/
def Bscan.reset : Bscan where
  driving := false
  cells := []

/-- The whole block and the queue of waiting commands. -/
structure State where
  /-- R65: model time since AON start, in 5 ns line-timing periods (4) -/
  now : Nat
  /-- R410: index of the next free value (4) -/
  freeCtr : Nat
  /-- R633: AON core, SYS block, supervisor -/
  sys : Sys
  /-- R562: boot, staging, SYS.BOOT -/
  boot : Boot
  /-- R580: image in force; none before COMMIT -/
  img : Image
  /-- R634: FLT block -/
  flt : Flt
  /-- R678: NVM log -/
  log : Log
  /-- R106: SEC block -/
  sec : SecBlk
  /-- R607: OTP array (3) -/
  otp : Otp
  /-- R633: NVM block and session lock -/
  nvm : Nvm
  /-- R625: maintenance channel -/
  mnt : Mnt
  /-- R593: flash contents, sparse, unlisted 0xFF (3) -/
  flash : List Host.Cell
  /-- R160: line-timing unit -/
  lt : Lt
  /-- R205: Cope die and Ladle -/
  pix : Pix
  /-- R250: perch fabric -/
  fab : Fab
  /-- R397: Sprue and LEDGER block -/
  spr : Sprue
  /-- R442: egress lanes -/
  net : Net
  /-- R428: precision time -/
  ptp : Ptp
  /-- R483: Starling ring -/
  star : Star
  /-- R526: housekeeping converter -/
  hkc : Hkc
  /-- R561: general pins -/
  gpio : Gpio
  /-- R706: boundary scan -/
  bscan : Bscan
  /-- R81: everything that has left the package, newest first (4) -/
  out : List Out
  /-- commands waiting, first in first out (4) -/
  pending : List Instr
  deriving DecidableEq, Repr

/-- `State` at AON start. -/
def State.reset : State where
  now := 0
  freeCtr := 0
  sys := Sys.reset
  boot := Boot.reset
  img := Image.reset
  flt := Flt.reset
  log := Log.reset
  sec := SecBlk.reset
  otp := Otp.reset
  nvm := Nvm.reset
  mnt := Mnt.reset
  flash := []
  lt := Lt.reset
  pix := Pix.reset
  fab := Fab.reset
  spr := Sprue.reset
  net := Net.reset
  ptp := Ptp.reset
  star := Star.reset
  hkc := Hkc.reset
  gpio := Gpio.reset
  bscan := Bscan.reset
  out := []
  pending := []

end Sys2Proof.Machine
end

