-- ==== Sys2Proof/Machine/Ops.lean ====
section
/-! DEFINITION. The operations every block shares: sparse memory, model time, what leaves the package,
reports of faults (R89, R634), log records (R680, R683) and free values. -/

namespace Sys2Proof.Machine

/-! ### Sparse memory -/

/-- Canonical form from address `lo` on: addresses strictly rising, no entry equal to the unlisted value. -/
def Sparse.wfAbove {α : Type} [DecidableEq α] (d : α) (lo : Nat) : List (Nat × α) → Bool
  | [] => true
  | (a, v) :: r => decide (lo ≤ a) && decide (v ≠ d) && Sparse.wfAbove d (a + 1) r

/-- The canonical form of a sparse memory whose unlisted addresses read `d`. -/
def Sparse.wf {α : Type} [DecidableEq α] (d : α) (m : List (Nat × α)) : Bool :=
  Sparse.wfAbove d 0 m

/-- What an address reads as. -/
def Sparse.read {α : Type} (d : α) : List (Nat × α) → Nat → α
  | [], _ => d
  | (b, v) :: r, a => if b = a then v else Sparse.read d r a

/-- A write; writing the unlisted value removes the entry. -/
def Sparse.write {α : Type} [DecidableEq α] (d : α) (a : Nat) (v : α) : List (Nat × α) → List (Nat × α)
  | [] => if v = d then [] else [(a, v)]
  | (b, w) :: r =>
    if a < b then if v = d then (b, w) :: r else (a, v) :: (b, w) :: r
    else if a = b then if v = d then r else (a, v) :: r
    else (b, w) :: Sparse.write d a v r

/-- The addresses from `lo` to `hi - 1` take the unlisted value. -/
def Sparse.clear {α : Type} (lo hi : Nat) (m : List (Nat × α)) : List (Nat × α) :=
  m.filter fun c => decide (c.1 < lo) || decide (hi ≤ c.1)

/-- What a flash byte that nothing has written reads as: the erased value (log entry 7). -/
def Memory.blank : Byte := 0xFF

/-- The canonical form of the flash contents. -/
def Memory.wf (m : List Host.Cell) : Bool :=
  Sparse.wf Memory.blank m

/-- One flash byte. -/
def Memory.read (m : List Host.Cell) (a : Nat) : Byte :=
  Sparse.read Memory.blank m a

/-- One flash byte takes a value. -/
def Memory.write (a : Nat) (v : Byte) (m : List Host.Cell) : List Host.Cell :=
  Sparse.write Memory.blank a v m

/-- `n` bytes from address `a`, read off cells in rising order. -/
def Memory.run : Nat → Nat → List Host.Cell → List Byte
  | 0, _, _ => []
  | n + 1, a, [] => Memory.blank :: Memory.run n (a + 1) []
  | n + 1, a, (b, v) :: r =>
    if b = a then v :: Memory.run n (a + 1) r else Memory.blank :: Memory.run n (a + 1) ((b, v) :: r)

/-- `n` flash bytes from address `a`. -/
def Memory.bytes (m : List Host.Cell) (a n : Nat) : List Byte :=
  Memory.run n a (m.dropWhile fun c => decide (c.1 < a))

/-- A program: bits can only clear. -/
def Memory.program (a : Nat) : List Byte → List Host.Cell → List Host.Cell
  | [], m => m
  | b :: bs, m => Memory.program (a + 1) bs (Memory.write a (Memory.read m a &&& b) m)

/-- An erase of the 4 KiB sector at address `a`. -/
def Memory.erase (a : Nat) (m : List Host.Cell) : List Host.Cell :=
  Sparse.clear a (a + 4096) m

/-! ### Time, outputs and free values -/

/-- Microseconds in model time. -/
def us (n : Nat) : Nat := 200 * n

/-- Milliseconds in model time. -/
def ms (n : Nat) : Nat := 200000 * n

/-- Seconds in model time. -/
def sec (n : Nat) : Nat := 200000000 * n

/-- SPLL is locked: the line-timing clock, the Ladle clock and the SERDES clocks run (R66). -/
def clocked (s : State) : Bool :=
  s.sys.spllLocked

/-- A moment, if there was one, lies at most `d` back. -/
def within (d : Nat) (t : Option Nat) (s : State) : Bool :=
  match t with
  | none => false
  | some t => decide (s.now ≤ t + d)

/-- Something leaves the package (R81). -/
def emit (o : Out) (s : State) : State :=
  { s with out := o :: s.out }

/-- One line-timing period of 5 ns passes (log entry 2). -/
def idle (s : State) : State :=
  { s with now := s.now + 1 }

/-- The index of the next free value is used up. -/
def bump (s : State) : State :=
  { s with freeCtr := s.freeCtr + 1 }

/-- A draw of `0` to `n - 1` from the random source. -/
def draw (s : State) (n : Nat) : Nat :=
  Config.random s.freeCtr % n

/-- PTP ticks in a nanosecond (log entry 31). -/
def perNs : Int := 655360

/-- The span of the time counter: 48-bit seconds (R428). -/
def timeSpan : Int := 2 ^ 48 * 1000000000 * perNs

/-- What `n` periods of 5 ns add to a clock whose rate is off by `rate` times 2^-16 ppm. -/
def elapsed (n : Nat) (rate : Int) : Int :=
  n * (5 * perNs) + n * rate / 20000

/-- The supervisor runs: its context is not being reset (R71, R73). -/
def supRuns (s : State) : Bool :=
  !s.sys.supResetting

/-- A bit set at this moment stays set against a clear of the same cycle (R23; log entry 44). -/
def setNow (t : Option Nat) (s : State) : Bool :=
  t == some s.now

/-- The PTP time counter in ticks: it runs on the SERDES clocks, and the frequency term and the phase term act on it (R66,
R428). -/
def ptpTicks (s : State) : Int :=
  if s.ptp.running && clocked s then (s.ptp.tBase + elapsed (s.now - s.ptp.tAt) (s.ptp.freq + s.ptp.slew)) % timeSpan
  else s.ptp.tBase

/-- The PTP time counter in ns (R428). -/
def ptpTime (s : State) : Int :=
  ptpTicks s / perNs

/-- Line-counter time t_LC in ticks, none until set: it runs on the line-timing clock, and only the frequency term scales
it (R66, R434). -/
def tlcTicks (s : State) : Option Int :=
  if clocked s = false then s.ptp.tlc else s.ptp.tlc.map fun t => (t + elapsed (s.now - s.ptp.tAt) s.ptp.freq) % timeSpan

/-- The difference of two times of the counter, the shorter way round its span. -/
def timeDiff (a b : Int) : Int :=
  (a - b + timeSpan / 2) % timeSpan - timeSpan / 2

/-! ### States -/

/-- The state changes; PREV keeps the one before (R21). -/
def enter (c : DevState) (s : State) : State :=
  { s with sys := { s.sys with code := c, prev := s.sys.code } }

/-- Bar line counter `a` is `b` or past it, in trigger order across the wrap (R137). -/
def linePast (a b : Nat) : Bool :=
  decide ((a + 2 ^ 48 - b) % 2 ^ 48 < 2 ^ 47)

/-- The bar line counter `n` lines on, with its wrap (R137). -/
def lineAdd (a : Nat) (n : Int) : Nat :=
  (((a : Int) + n).emod (2 ^ 48 : Nat)).toNat

/-- Pin events are dropped and counted (EVT_DROP). -/
def dropEvents (n : Nat) (s : State) : State :=
  { s with flt := { s.flt with evtDrop := satAdd 32 n s.flt.evtDrop } }

/-- The 4-bit code of a state (Table 0.2). -/
def stateCode : DevState → Nat
  | .off => 0
  | .boot => 1
  | .commit => 2
  | .run => 3
  | .hold => 4
  | .sleep => 5
  | .repair => 6
  | .safe => 7

/-- The state is one of those listed. -/
def inState (l : List DevState) (s : State) : Bool :=
  l.contains s.sys.code

/-- RUN, HOLD or REPAIR. -/
def live (s : State) : Bool :=
  inState [.run, .hold, .repair] s

/-- The Ladle, the Sprue and the fabric's buses work: RUN, HOLD or REPAIR with SPLL locked (R66). -/
def working (s : State) : Bool :=
  live s && clocked s

/-! ### Log records -/

/-- A log record of the present moment (Table 18.9). -/
def logRecord (kind : Nat) (code : BitVec 16) (ldet lsus : Nat) (data : List Byte) (s : State) : LogRec where
  kind := kind
  state := stateCode s.sys.code
  code := code
  lDet := ldet
  lSus := lsus
  uptimeUs := s.now / 200
  bootCount := s.sys.bootCount
  ptpSec := if s.ptp.state = 0 then 0 else (ptpTime s / 1000000000).toNat
  ptpState := s.ptp.state
  data := (data ++ List.replicate 16 0).take 16
  index := 0

/-- One more report merged into a queued FAULT record (DATA[6:7]). -/
def mergeRecord (r : LogRec) : LogRec :=
  { r with data := r.data.take 6 ++ le 2 (satInc 16 (field r.data 6 2)) ++ r.data.drop 8 }

/-- A FAULT record enters the AON queue, of whose 64 entries FAULT records use at most 48 (R683). -/
def queueFault (r : LogRec) (l : Log) : Log :=
  if (l.queue.filter (·.kind = 1)).length < 48 ∧ l.queue.length < 64 then { l with queue := l.queue ++ [r] }
  else
    match l.queue.findIdx? (fun q => q.kind = 1 && q.code == r.code) with
    | some i => { l with queue := l.queue.modify i mergeRecord }
    | none => { l with dropped := satInc 16 l.dropped }

/-- A record of another kind enters the AON queue while an entry is free (R683; log entry 9). -/
def queueOther (r : LogRec) (l : Log) : Log :=
  if l.queue.length < 64 then { l with queue := l.queue ++ [r] } else l

/-- A record of a kind other than FAULT is queued (Table 18.10). -/
def logOther (kind : Nat) (code : BitVec 16) (data : List Byte) (s : State) : State :=
  { s with log := queueOther (logRecord kind code s.lt.line s.lt.line data s) s.log }

/-- A map snapshot waits for commit (R679). -/
def wantSnapshot (s : State) : State :=
  { s with log := { s.log with snapPending := true } }

/-! ### Fault reports -/

/-- A fault code from class and instance (R26). -/
def faultCode (cls inst : Nat) : BitVec 16 :=
  BitVec.ofNat 16 (256 * cls + inst % 256)

/-- The class of a fault code. -/
def faultClass (code : BitVec 16) : Nat :=
  code.toNat / 256

/-- The line bound B_L of a line-coupled mechanism, none for a time-coupled one (Table 3.1; log entry 10). -/
def lineBound (code : BitVec 16) : Option Nat :=
  match faultClass code with
  | 0x01 => some 64
  | 0x02 => some 1
  | 0x03 => some 16
  | 0x10 => some (if code.getLsbD 7 then 34 else 17)
  | 0x20 => some (if code.getLsbD 7 then 2 else 1)
  | 0x21 => some 4
  | 0x22 => some 1
  | _ => none

/-- The first suspect line L_sus (R94). For a line-coupled class detected before line B_L - 1 the result stops at line 0, a
DESIGN CHOICE (log entry 10): the rule gives neither a clip nor a wrap there. -/
def firstSuspect (code : BitVec 16) (s : State) : Nat :=
  match lineBound code with
  | some b => s.lt.line + 1 - b
  | none =>
    match (s.lt.trigs.filter fun t => decide (s.now ≤ t.1 + ms 5)).getLast? with
    | some t => t.2
    | none => s.lt.line

/-- The counter of class `n` (Table 17.7). -/
def classCount (s : State) (n : Nat) : Nat :=
  Sparse.read 0 s.flt.classCount n

/-- The counter of a class goes up by one. -/
def countClass (n : Nat) (s : State) : State :=
  { s with flt := { s.flt with classCount := Sparse.write 0 n (satInc 32 (classCount s n)) s.flt.classCount } }

/-- SUMMARY takes the code while it is armed (R634). -/
def summarise (code : BitVec 16) (s : State) : State :=
  if s.flt.summaryValid then s
  else { s with flt := { s.flt with
    summaryValid := true, summaryAt := some s.now, summaryCode := code, ldet := s.lt.line, lsus := firstSuspect code s } }

/-- The code waits for a line summary; one that finds 16 waiting is counted (R364). -/
def queueSummary (code : BitVec 16) (s : State) : State :=
  if s.flt.sumQueue.length < 16 then { s with flt := { s.flt with sumQueue := s.flt.sumQueue ++ [code] } }
  else { s with flt := { s.flt with summaryLost := satInc 32 s.flt.summaryLost } }

/-- The FAULT record of a report (R90). -/
def logFault (code : BitVec 16) (s : State) : State :=
  let r := logRecord 1 code s.lt.line (firstSuspect code s) (le 4 (classCount s (faultClass code))) s
  { s with log := queueFault r s.log }

/-- A fault is reported: class counter, SUMMARY, the queue of the line summaries and the log (R89, R90). -/
def report (code : BitVec 16) (s : State) : State :=
  logFault code (queueSummary code (summarise code (countClass (faultClass code) s)))

/-- Every line whose summary is not formed yet takes a change. -/
def markLines (f : LineRec → LineRec) (s : State) : State :=
  { s with spr := { s.spr with lines := s.spr.lines.map f } }

/-- One line whose summary is not formed yet takes a change. -/
def markLine (n : Nat) (f : LineRec → LineRec) (s : State) : State :=
  markLines (fun l => if l.line = n then f l else l) s

/-- A fault of this code sets DEGRADED on every line while its flag stands (Tables 3.1, 3.2). The rails of
class 0x31 are in the order of Table 2.4: PIXA 1, PIXD 2, FAB 3, WREN 4. -/
def degrades (code : BitVec 16) : Bool :=
  match faultClass code with
  | 0x01 => true
  | 0x02 => true
  | 0x03 => true
  | 0x10 => true
  | 0x31 => decide (1 ≤ code.toNat % 256) && decide (code.toNat % 256 ≤ 4)
  | _ => false

/-- The fault's flag stands until its effect ends; from that moment every record it can affect carries it
(R88). -/
def stand (code : BitVec 16) (s : State) : State :=
  let s := if s.flt.standing.contains code then s
    else { s with flt := { s.flt with standing := code :: s.flt.standing } }
  if degrades code then markLines (fun l => { l with degraded := true }) s else s

/-- The fault's effect has ended. -/
def unstand (code : BitVec 16) (s : State) : State :=
  { s with flt := { s.flt with standing := s.flt.standing.filter (· != code) } }

/-- Several codes are reported, in order. -/
def reportAll (codes : List (BitVec 16)) (s : State) : State :=
  codes.foldl (fun t c => report c t) s

/-- Index of a function, its FUNC code (R628). -/
def funcIx : Func → Fin 5
  | .egress => 0
  | .hkc => 1
  | .starling => 2
  | .pixel => 3
  | .fabric => 4

/-- A function makes the progress its watchdog looks for (Table 17.11). -/
def progressed (f : Func) (s : State) : State :=
  { s with sys := { s.sys with wd := vmod s.sys.wd (funcIx f) fun w => { w with progress := true } } }

/-- A re-init of the function runs (SYS.FUNC.BUSY). -/
def reinitBusy (f : Func) (s : State) : Bool :=
  s.sys.funcBusy.getLsbD (funcIx f).val

end Sys2Proof.Machine
end

