-- ==== Sys2Proof/Machine/Fields.lean ====
section
/-! DEFINITION. The fields of the image sections with their identifiers (R610), subscripts (R611), ranges and
defaults: Tables 4.1, 5.2, 6.5, 7.3, 8.1, 9.4, 10.11, 11.5, 12.5, 13.5, 14.5 and 16.11. Ranges that depend on
another field are checked where the fit checks need them. -/

namespace Sys2Proof.Machine

/-- How the values of a field are written (R612, R613). -/
inductive FieldKind where
  /-- an integer in any of the widths 1, 2, 4, 8 -/
  | num
  /-- a string field of fixed element width -/
  | str (width : Nat)
  /-- an IPv4 address in network order -/
  | ip
  /-- a MAC address -/
  | mac
  deriving DecidableEq, Repr

/-- One image field. -/
structure FieldSpec where
  /-- identifier, TYPE × 256 + n -/
  id : Nat
  /-- number of values of each subscript, in the order written -/
  subs : List Nat
  /-- least value -/
  lo : Int
  /-- greatest value -/
  hi : Int
  /-- default, none where the field has none -/
  dflt : Option Int
  /-- how its values are written -/
  kind : FieldKind
  deriving DecidableEq, Repr

/-! ### META -/

/-- D. -/
def Fld.d : FieldSpec := ⟨0x0101, [], 1, 65535, none, .num⟩

/-- SEAM_W. -/
def Fld.seamW : FieldSpec := ⟨0x0102, [], 128, 1024, (some 128), .num⟩

/-- NAME. -/
def Fld.name : FieldSpec := ⟨0x0103, [], 32, 126, none, .str 1⟩

/-- The fields of META in the order of their numbers. -/
def fieldsOf1 : List FieldSpec :=
  [Fld.d, Fld.seamW, Fld.name]

/-! ### COPE -/

/-- ENC_RATIO. -/
def Fld.encRatio : FieldSpec := ⟨0x0201, [], 1048576, 4294967295, none, .num⟩

/-- ENC_DIR. -/
def Fld.encDir : FieldSpec := ⟨0x0202, [], 0, 1, (some 0), .num⟩

/-- ENC_FILT. -/
def Fld.encFilt : FieldSpec := ⟨0x0203, [], 1, 63, (some 4), .num⟩

/-- ENCZ_EN. -/
def Fld.enczEn : FieldSpec := ⟨0x0204, [], 0, 1, (some 0), .num⟩

/-- TL_MIN. -/
def Fld.tlMin : FieldSpec := ⟨0x0205, [], 250, 40000, none, .num⟩

/-- HOLD_DELAY. -/
def Fld.holdDelay : FieldSpec := ⟨0x0206, [], 1, 600000, (some 100), .num⟩

/-- SLEEP_DELAY. -/
def Fld.sleepDelay : FieldSpec := ⟨0x0207, [], 0, 86400000, (some 0), .num⟩

/-- SLOTk_EN. -/
def Fld.slotEn : FieldSpec := ⟨0x0208, [4], 0, 1, (some 0), .num⟩

/-- SLOTk_OPEN. -/
def Fld.slotOpen : FieldSpec := ⟨0x0209, [4], 0, 39996, (some 0), .num⟩

/-- SLOTk_WIDTH. -/
def Fld.slotWidth : FieldSpec := ⟨0x020A, [4], 4, 40000, (some 4), .num⟩

/-- SLOTk_LEAD. -/
def Fld.slotLead : FieldSpec := ⟨0x020B, [4], 0, 20, (some 0), .num⟩

/-- STAGESk. -/
def Fld.stages : FieldSpec := ⟨0x020C, [4], 1, 32, (some 16), .num⟩

/-- REG_DELAYk, whose default 32 × k `Image.regDelay` gives. -/
def Fld.regDelay : FieldSpec := ⟨0x020D, [4], 0, 96, none, .num⟩

/-- DARK_OUTLIER. -/
def Fld.darkOutlier : FieldSpec := ⟨0x020E, [], 8, 255, (some 32), .num⟩

/-- DARK_DEFAULT. -/
def Fld.darkDefault : FieldSpec := ⟨0x020F, [], 0, 4095, (some 64), .num⟩

/-- DEFECTk. -/
def Fld.defect : FieldSpec := ⟨0x0210, [4], 0, 8191, none, .str 2⟩

/-- The fields of COPE in the order of their numbers. -/
def fieldsOf2 : List FieldSpec :=
  [Fld.encRatio, Fld.encDir, Fld.encFilt, Fld.enczEn, Fld.tlMin, Fld.holdDelay, Fld.sleepDelay, 
   Fld.slotEn, Fld.slotOpen, Fld.slotWidth, Fld.slotLead, Fld.stages, Fld.regDelay, Fld.darkOutlier, 
   Fld.darkDefault, Fld.defect]

/-! ### LADLE -/

/-- FF_GAIN(k, c). -/
def Fld.ffGain : FieldSpec := ⟨0x0301, [4, 8192], 0, 65535, (some 16384), .num⟩

/-- FF_OFFSET(k, c). -/
def Fld.ffOffset : FieldSpec := ⟨0x0302, [4, 8192], (-32768), 32767, (some 0), .num⟩

/-- HIST_SHIFTk. -/
def Fld.histShift : FieldSpec := ⟨0x0303, [4], 0, 5, (some 4), .num⟩

/-- FMTk. -/
def Fld.fmt : FieldSpec := ⟨0x0304, [4], 0, 1, (some 0), .num⟩

/-- ZEROk. -/
def Fld.zero : FieldSpec := ⟨0x0305, [4], 0, 4095, (some 0), .num⟩

/-- SHIFTk. -/
def Fld.shift : FieldSpec := ⟨0x0306, [4], 0, 7, (some 0), .num⟩

/-- FILLk. -/
def Fld.fill : FieldSpec := ⟨0x0307, [4], (-32768), 32767, (some 0), .num⟩

/-- BIN. -/
def Fld.bin : FieldSpec := ⟨0x0308, [], 0, 1, (some 0), .num⟩

/-- AFF_EN. -/
def Fld.affEn : FieldSpec := ⟨0x0309, [], 0, 1, (some 0), .num⟩

/-- AFF_INIT(k, g). -/
def Fld.affInit : FieldSpec := ⟨0x030A, [4, 128], 49152, 81920, (some 65536), .num⟩

/-- AFF_TARGET(k, g). -/
def Fld.affTarget : FieldSpec := ⟨0x030B, [4, 128], 1, 65535, none, .num⟩

/-- AFF_LO. -/
def Fld.affLo : FieldSpec := ⟨0x030C, [], 0, 65535, (some 0), .num⟩

/-- AFF_HI. -/
def Fld.affHi : FieldSpec := ⟨0x030D, [], 0, 65535, (some 65535), .num⟩

/-- AFF_WINDOW. -/
def Fld.affWindow : FieldSpec := ⟨0x030E, [], 1024, 1048576, (some 65536), .num⟩

/-- AFF_SHIFT. -/
def Fld.affShift : FieldSpec := ⟨0x030F, [], 0, 8, (some 4), .num⟩

/-- AFF_TMAX. -/
def Fld.affTmax : FieldSpec := ⟨0x0310, [], 250, 40000, (some 40000), .num⟩

/-- LINE_PITCH_NM. -/
def Fld.linePitch : FieldSpec := ⟨0x0311, [], 1000, 1000000, none, .num⟩

/-- ING_ROWMASKk. -/
def Fld.ingRowmask : FieldSpec := ⟨0x0312, [4], 0, 255, (some 255), .num⟩

/-- ING_BASEk. -/
def Fld.ingBase : FieldSpec := ⟨0x0313, [4], 0, 49151, none, .num⟩

/-- ING_DEPTH. -/
def Fld.ingDepth : FieldSpec := ⟨0x0314, [], 1, 256, (some 8), .num⟩

/-- ING_HALO. -/
def Fld.ingHalo : FieldSpec := ⟨0x0315, [], 0, 2, (some 1), .num⟩

/-- The fields of LADLE in the order of their numbers. -/
def fieldsOf3 : List FieldSpec :=
  [Fld.ffGain, Fld.ffOffset, Fld.histShift, Fld.fmt, Fld.zero, Fld.shift, Fld.fill, Fld.bin, Fld.affEn, 
   Fld.affInit, Fld.affTarget, Fld.affLo, Fld.affHi, Fld.affWindow, Fld.affShift, Fld.affTmax, 
   Fld.linePitch, Fld.ingRowmask, Fld.ingBase, Fld.ingDepth, Fld.ingHalo]

/-! ### FABRIC -/

/-- FAB_ROWMASK. -/
def Fld.rowmask : FieldSpec := ⟨0x0401, [], 1, 255, (some 255), .num⟩

/-- FOLD(r). -/
def Fld.fold : FieldSpec := ⟨0x0402, [8], 1, 8, none, .num⟩

/-- MLEN(r, i). -/
def Fld.mlen : FieldSpec := ⟨0x0403, [8, 8], 4, 65535, none, .num⟩

/-- MSTALL(r, i). -/
def Fld.mstall : FieldSpec := ⟨0x0404, [8, 8], 0, 65531, (some 0), .num⟩

/-- MBODY(r, i). -/
def Fld.mbody : FieldSpec := ⟨0x0405, [8, 8], 0, 340282366920938463463374607431768211455, none, .str 16⟩

/-- MREPEAT(r, i). -/
def Fld.mrepeat : FieldSpec := ⟨0x0406, [8, 8], 1, 256, (some 1), .num⟩

/-- TITHE_WAIVE. -/
def Fld.titheWaive : FieldSpec := ⟨0x0407, [], 0, 1, (some 0), .num⟩

/-- EGR_MAX. -/
def Fld.egrMax : FieldSpec := ⟨0x0408, [], 0, 48, (some 16), .num⟩

/-- CREDIT(r, link, ch). -/
def Fld.credit : FieldSpec := ⟨0x0409, [8, 4, 4], 1, 16, (some 16), .num⟩

/-- CH_KIND(r, link, ch). -/
def Fld.chKind : FieldSpec := ⟨0x040A, [8, 4, 4], 0, 2, (some 0), .num⟩

/-- ELC(r, link, ch). -/
def Fld.elc : FieldSpec := ⟨0x040B, [8, 4, 4], 0, 15, none, .num⟩

/-- QMODE(r, i, v). -/
def Fld.qmode : FieldSpec := ⟨0x040C, [8, 8, 4], 0, 2, (some 0), .num⟩

/-- QTHETA(r, i, v). -/
def Fld.qtheta : FieldSpec := ⟨0x040D, [8, 8, 4], 1, 128, (some 1), .num⟩

/-- RQ_M(r, i, v, d). -/
def Fld.rqM : FieldSpec := ⟨0x040E, [8, 8, 4, 8], (-32768), 32767, (some 1), .num⟩

/-- RQ_S(r, i, v, d). -/
def Fld.rqS : FieldSpec := ⟨0x040F, [8, 8, 4, 8], 0, 47, (some 0), .num⟩

/-- RQ_Z(r, i, v, d). -/
def Fld.rqZ : FieldSpec := ⟨0x0410, [8, 8, 4, 8], (-32768), 32767, (some 0), .num⟩

/-- RQ_K(r, i, v, d). -/
def Fld.rqK : FieldSpec := ⟨0x0411, [8, 8, 4, 8], (-64), 63, (some 0), .num⟩

/-- LUT(r, i, v). -/
def Fld.lut : FieldSpec := ⟨0x0412, [8, 8, 4], (-32768), 32767, none, .str 2⟩

/-- PERM(r, i, v). -/
def Fld.perm : FieldSpec := ⟨0x0413, [8, 8, 4], 0, 15, none, .str 1⟩

/-- The fields of FABRIC in the order of their numbers. -/
def fieldsOf4 : List FieldSpec :=
  [Fld.rowmask, Fld.fold, Fld.mlen, Fld.mstall, Fld.mbody, Fld.mrepeat, Fld.titheWaive, Fld.egrMax, 
   Fld.credit, Fld.chKind, Fld.elc, Fld.qmode, Fld.qtheta, Fld.rqM, Fld.rqS, Fld.rqZ, Fld.rqK, Fld.lut, 
   Fld.perm]

/-! ### WREN part 0 -/

/-- RGN_N(r). -/
def Fld.rgnN : FieldSpec := ⟨0x0501, [8], 1, 16, none, .num⟩

/-- RGN_BASE(r, j). -/
def Fld.rgnBase : FieldSpec := ⟨0x0502, [8, 16], 0, 191, none, .num⟩

/-- RGN_LEN(r, j). -/
def Fld.rgnLen : FieldSpec := ⟨0x0503, [8, 16], 1, 192, none, .num⟩

/-- RGN_KIND(r, j). -/
def Fld.rgnKind : FieldSpec := ⟨0x0504, [8, 16], 0, 2, (some 0), .num⟩

/-- RGN_NBW(r, j). -/
def Fld.rgnNbw : FieldSpec := ⟨0x0505, [8, 16], 0, 1, (some 0), .num⟩

/-- RGN_SRC(r, j). -/
def Fld.rgnSrc : FieldSpec := ⟨0x0506, [8, 16], 0, 29360128, none, .num⟩

/-- RGN_CRC(r, j). -/
def Fld.rgnCrc : FieldSpec := ⟨0x0507, [8, 16], 0, 4294967295, none, .num⟩

/-- AG_ORIENT(r, i, g). -/
def Fld.agOrient : FieldSpec := ⟨0x0508, [8, 8, 8], 0, 2, (some 0), .num⟩

/-- AG_BASE(r, i, g). -/
def Fld.agBase : FieldSpec := ⟨0x0509, [8, 8, 8], 0, 49151, (some 0), .num⟩

/-- AG_STEP(r, i, g). -/
def Fld.agStep : FieldSpec := ⟨0x050A, [8, 8, 8], (-32768), 32767, (some 0), .num⟩

/-- AG_RSTEP(r, i, g). -/
def Fld.agRstep : FieldSpec := ⟨0x050B, [8, 8, 8], (-32768), 32767, (some 0), .num⟩

/-- AG_TWRAP(r, i, g). -/
def Fld.agTwrap : FieldSpec := ⟨0x050C, [8, 8, 8], 1, 49152, (some 1), .num⟩

/-- AG_LSTEP(r, i, g). -/
def Fld.agLstep : FieldSpec := ⟨0x050D, [8, 8, 8], 0, 49151, (some 0), .num⟩

/-- AG_LWRAP(r, i, g). -/
def Fld.agLwrap : FieldSpec := ⟨0x050E, [8, 8, 8], 1, 49152, (some 1), .num⟩

/-- AG_RGN(r, i, g). -/
def Fld.agRgn : FieldSpec := ⟨0x050F, [8, 8, 8], 0, 15, none, .num⟩

/-- WMASK(r, i). -/
def Fld.wmask : FieldSpec := ⟨0x0510, [8, 8], 0, 65535, (some 0), .num⟩

/-- The fields of WREN part 0 in the order of their numbers. -/
def fieldsOf5 : List FieldSpec :=
  [Fld.rgnN, Fld.rgnBase, Fld.rgnLen, Fld.rgnKind, Fld.rgnNbw, Fld.rgnSrc, Fld.rgnCrc, Fld.agOrient, 
   Fld.agBase, Fld.agStep, Fld.agRstep, Fld.agTwrap, Fld.agLstep, Fld.agLwrap, Fld.agRgn, Fld.wmask]

/-! ### SPRUE -/

/-- TAG_KIND(t). -/
def Fld.tagKind : FieldSpec := ⟨0x0601, [16], 0, 4, (some 0), .num⟩

/-- REC_BUDGET. -/
def Fld.recBudget : FieldSpec := ⟨0x0602, [], 1, 11264, (some 1024), .num⟩

/-- REC_BURST. -/
def Fld.recBurst : FieldSpec := ⟨0x0603, [], 64, 8192, (some 1024), .num⟩

/-- TIME_EVERY. -/
def Fld.timeEvery : FieldSpec := ⟨0x0604, [], 256, 65536, (some 1024), .num⟩

/-- SEAM_EN. -/
def Fld.seamEn : FieldSpec := ⟨0x0605, [], 0, 1, (some 1), .num⟩

/-- SEAM_LGAP. -/
def Fld.seamLgap : FieldSpec := ⟨0x0606, [], 0, 15, (some 2), .num⟩

/-- SEAM_CGAP. -/
def Fld.seamCgap : FieldSpec := ⟨0x0607, [], 0, 63, (some 4), .num⟩

/-- ROI_EN. -/
def Fld.roiEn : FieldSpec := ⟨0x0608, [], 0, 1, (some 0), .num⟩

/-- ROI_BUDGET. -/
def Fld.roiBudget : FieldSpec := ⟨0x0609, [], 0, 65536, (some 0), .num⟩

/-- ROI_BURST. -/
def Fld.roiBurst : FieldSpec := ⟨0x060A, [], 0, 262144, (some 65536), .num⟩

/-- CROP_W(c). -/
def Fld.cropW : FieldSpec := ⟨0x060B, [256], 8, 256, (some 64), .num⟩

/-- CROP_H(c). -/
def Fld.cropH : FieldSpec := ⟨0x060C, [256], 1, 247, (some 32), .num⟩

/-- CROP_FIELDS(c). -/
def Fld.cropFields : FieldSpec := ⟨0x060D, [256], 1, 15, (some 1), .num⟩

/-- The fields of SPRUE in the order of their numbers. -/
def fieldsOf6 : List FieldSpec :=
  [Fld.tagKind, Fld.recBudget, Fld.recBurst, Fld.timeEvery, Fld.seamEn, Fld.seamLgap, Fld.seamCgap, 
   Fld.roiEn, Fld.roiBudget, Fld.roiBurst, Fld.cropW, Fld.cropH, Fld.cropFields]

/-! ### NET -/

/-- IP_ADDR(l). -/
def Fld.ipAddr : FieldSpec := ⟨0x0701, [2], 0, 4294967295, none, .ip⟩

/-- IP_PREFIX(l). -/
def Fld.ipPrefix : FieldSpec := ⟨0x0702, [2], 8, 30, (some 24), .num⟩

/-- GATEWAY(l). -/
def Fld.gateway : FieldSpec := ⟨0x0703, [2], 0, 4294967295, (some 0), .ip⟩

/-- HOST_IP(l). -/
def Fld.hostIp : FieldSpec := ⟨0x0704, [2], 0, 4294967295, none, .ip⟩

/-- HOST_PORT. -/
def Fld.hostPort : FieldSpec := ⟨0x0705, [], 1024, 65535, (some 47100), .num⟩

/-- NEXT_HOP_MAC(l). -/
def Fld.nextHopMac : FieldSpec := ⟨0x0706, [2], 0, 281474976710655, (some 0), .mac⟩

/-- VLAN_EN(l). -/
def Fld.vlanEn : FieldSpec := ⟨0x0707, [2], 0, 1, (some 0), .num⟩

/-- VLAN_ID(l). -/
def Fld.vlanId : FieldSpec := ⟨0x0708, [2], 1, 4094, (some 1), .num⟩

/-- PCP(l). -/
def Fld.pcp : FieldSpec := ⟨0x0709, [2], 0, 7, (some 0), .num⟩

/-- DSCP_RES. -/
def Fld.dscpRes : FieldSpec := ⟨0x070A, [], 0, 63, (some 0), .num⟩

/-- DSCP_MNT. -/
def Fld.dscpMnt : FieldSpec := ⟨0x070B, [], 0, 63, (some 0), .num⟩

/-- DSCP_PTP. -/
def Fld.dscpPtp : FieldSpec := ⟨0x070C, [], 0, 63, (some 46), .num⟩

/-- TTL. -/
def Fld.ttl : FieldSpec := ⟨0x070D, [], 1, 255, (some 64), .num⟩

/-- FLUSH_US. -/
def Fld.flushUs : FieldSpec := ⟨0x070E, [], 10, 1000, (some 20), .num⟩

/-- KEEPALIVE_MS. -/
def Fld.keepaliveMs : FieldSpec := ⟨0x070F, [], 10, 1000, (some 100), .num⟩

/-- PTP_DOMAIN. -/
def Fld.ptpDomain : FieldSpec := ⟨0x0710, [], 0, 127, (some 0), .num⟩

/-- PTP_ANN_TO. -/
def Fld.ptpAnnTo : FieldSpec := ⟨0x0711, [], 2, 10, (some 3), .num⟩

/-- PTP_STEP. -/
def Fld.ptpStep : FieldSpec := ⟨0x0712, [], 1000, 1000000000, (some 1000000), .num⟩

/-- PTP_ASYM(l). -/
def Fld.ptpAsym : FieldSpec := ⟨0x0713, [2], (-100000), 100000, (some 0), .num⟩

/-- PTP_REANCHOR. -/
def Fld.ptpReanchor : FieldSpec := ⟨0x0714, [], 1, 600, (some 10), .num⟩

/-- PPS_WIDTH. -/
def Fld.ppsWidth : FieldSpec := ⟨0x0715, [], 1, 500, (some 100), .num⟩

/-- PPS_WHEN. -/
def Fld.ppsWhen : FieldSpec := ⟨0x0716, [], 0, 1, (some 0), .num⟩

/-- The fields of NET in the order of their numbers. -/
def fieldsOf7 : List FieldSpec :=
  [Fld.ipAddr, Fld.ipPrefix, Fld.gateway, Fld.hostIp, Fld.hostPort, Fld.nextHopMac, Fld.vlanEn, 
   Fld.vlanId, Fld.pcp, Fld.dscpRes, Fld.dscpMnt, Fld.dscpPtp, Fld.ttl, Fld.flushUs, Fld.keepaliveMs, 
   Fld.ptpDomain, Fld.ptpAnnTo, Fld.ptpStep, Fld.ptpAsym, Fld.ptpReanchor, Fld.ppsWidth, Fld.ppsWhen]

/-! ### STARLING -/

/-- DEV_ID. -/
def Fld.devId : FieldSpec := ⟨0x0801, [], 0, 4095, none, .num⟩

/-- BAR. -/
def Fld.bar : FieldSpec := ⟨0x0802, [], 0, 4094, none, .num⟩

/-- BAR_POS. -/
def Fld.barPos : FieldSpec := ⟨0x0803, [], 0, 255, none, .num⟩

/-- BAR_OFFSET. -/
def Fld.barOffset : FieldSpec := ⟨0x0804, [], 0, 255, (some 0), .num⟩

/-- MASTER_ELIG. -/
def Fld.masterElig : FieldSpec := ⟨0x0805, [], 0, 1, (some 0), .num⟩

/-- ENC_ELIG. -/
def Fld.encElig : FieldSpec := ⟨0x0806, [], 0, 1, (some 0), .num⟩

/-- ENC_PRIO. -/
def Fld.encPrio : FieldSpec := ⟨0x0807, [], 0, 15, (some 0), .num⟩

/-- The fields of STARLING in the order of their numbers. -/
def fieldsOf8 : List FieldSpec :=
  [Fld.devId, Fld.bar, Fld.barPos, Fld.barOffset, Fld.masterElig, Fld.encElig, Fld.encPrio]

/-! ### HKC -/

/-- REF_SEL. -/
def Fld.refSel : FieldSpec := ⟨0x0901, [], 0, 1, (some 0), .num⟩

/-- VREF_MV. -/
def Fld.vrefMv : FieldSpec := ⟨0x0902, [], 1800, 2500, (some 2048), .num⟩

/-- REF_SETTLE_US. -/
def Fld.refSettleUs : FieldSpec := ⟨0x0903, [], 300, 10000, (some 300), .num⟩

/-- REFCH_TOL. -/
def Fld.refchTol : FieldSpec := ⟨0x0904, [], 4, 64, (some 16), .num⟩

/-- GND_TOL. -/
def Fld.gndTol : FieldSpec := ⟨0x0905, [], 4, 64, (some 8), .num⟩

/-- SCAN_MASK. -/
def Fld.scanMask : FieldSpec := ⟨0x0906, [], 0, 4294967295, (some 268431360), .num⟩

/-- DIFF. -/
def Fld.diff : FieldSpec := ⟨0x0907, [], 0, 63, (some 0), .num⟩

/-- ALIGN. -/
def Fld.align : FieldSpec := ⟨0x0908, [], 0, 1, (some 0), .num⟩

/-- RAIL_LO(i). -/
def Fld.railLo : FieldSpec := ⟨0x0909, [8], 0, 4095, (some 0), .num⟩

/-- RAIL_HI(i). -/
def Fld.railHi : FieldSpec := ⟨0x090A, [8], 0, 4095, (some 4095), .num⟩

/-- INTEG_EN. -/
def Fld.integEn : FieldSpec := ⟨0x090B, [], 0, 1, (some 0), .num⟩

/-- INTEG_SLOTS. -/
def Fld.integSlots : FieldSpec := ⟨0x090C, [], 0, 15, (some 0), .num⟩

/-- INTEG_TAIL. -/
def Fld.integTail : FieldSpec := ⟨0x090D, [], 0, 40, (some 0), .num⟩

/-- E_LO(k). -/
def Fld.eLo : FieldSpec := ⟨0x090E, [4], (-2147483648), 2147483647, none, .num⟩

/-- E_HI(k). -/
def Fld.eHi : FieldSpec := ⟨0x090F, [4], (-2147483648), 2147483647, none, .num⟩

/-- INJ_SRC. -/
def Fld.injSrc : FieldSpec := ⟨0x0910, [], 0, 2, (some 0), .num⟩

/-- INJ_CH. -/
def Fld.injCh : FieldSpec := ⟨0x0911, [], 0, 27, (some 12), .num⟩

/-- INJ_PIN. -/
def Fld.injPin : FieldSpec := ⟨0x0912, [], 0, 47, (some 0), .num⟩

/-- WD_US. -/
def Fld.wdUs : FieldSpec := ⟨0x0913, [], 100, 5000, (some 1000), .num⟩

/-- The fields of HKC in the order of their numbers. -/
def fieldsOf9 : List FieldSpec :=
  [Fld.refSel, Fld.vrefMv, Fld.refSettleUs, Fld.refchTol, Fld.gndTol, Fld.scanMask, Fld.diff, Fld.align, 
   Fld.railLo, Fld.railHi, Fld.integEn, Fld.integSlots, Fld.integTail, Fld.eLo, Fld.eHi, Fld.injSrc, 
   Fld.injCh, Fld.injPin, Fld.wdUs]

/-! ### PINS -/

/-- MUX(p). -/
def Fld.mux : FieldSpec := ⟨0x0A01, [48], 0, 15, (some 0), .num⟩

/-- OWNER(p). -/
def Fld.owner : FieldSpec := ⟨0x0A02, [48], 0, 3, (some 0), .num⟩

/-- OE(p). -/
def Fld.oe : FieldSpec := ⟨0x0A03, [48], 0, 1, (some 0), .num⟩

/-- DATA_INIT(p). -/
def Fld.dataInit : FieldSpec := ⟨0x0A04, [48], 0, 1, (some 0), .num⟩

/-- INV(p). -/
def Fld.inv : FieldSpec := ⟨0x0A05, [48], 0, 1, (some 0), .num⟩

/-- OD(p). -/
def Fld.od : FieldSpec := ⟨0x0A06, [48], 0, 1, (some 0), .num⟩

/-- PULL(p). -/
def Fld.pull : FieldSpec := ⟨0x0A07, [48], 0, 3, (some 1), .num⟩

/-- DRIVE(p). -/
def Fld.drive : FieldSpec := ⟨0x0A08, [48], 0, 3, (some 1), .num⟩

/-- SLEW(p). -/
def Fld.slew : FieldSpec := ⟨0x0A09, [48], 0, 1, (some 0), .num⟩

/-- HT(p). -/
def Fld.ht : FieldSpec := ⟨0x0A0A, [48], 0, 1, (some 0), .num⟩

/-- WAKE(p). -/
def Fld.wake : FieldSpec := ⟨0x0A0B, [48], 0, 1, (some 0), .num⟩

/-- INT_KIND(p). -/
def Fld.intKind : FieldSpec := ⟨0x0A0C, [48], 0, 5, (some 0), .num⟩

/-- INT_FILT(p). -/
def Fld.intFilt : FieldSpec := ⟨0x0A0D, [48], 1, 15, (some 2), .num⟩

/-- SUP_ACT(p). -/
def Fld.supAct : FieldSpec := ⟨0x0A0E, [48], 0, 4, (some 0), .num⟩

/-- EVP_MODE(k). -/
def Fld.evpMode : FieldSpec := ⟨0x0A0F, [16], 0, 4, (some 0), .num⟩

/-- EVP_PINS(k). -/
def Fld.evpPins : FieldSpec := ⟨0x0A10, [16], 0, 281474976710655, (some 0), .num⟩

/-- EVP_DELAY(k). -/
def Fld.evpDelay : FieldSpec := ⟨0x0A11, [16], 0, 1048575, (some 0), .num⟩

/-- EVP_WUNIT(k). -/
def Fld.evpWunit : FieldSpec := ⟨0x0A12, [16], 0, 1, (some 0), .num⟩

/-- EVP_WIDTH(k). -/
def Fld.evpWidth : FieldSpec := ⟨0x0A13, [16], 1, 65535, (some 1), .num⟩

/-- EVI_MAP(j). -/
def Fld.eviMap : FieldSpec := ⟨0x0A14, [8], 0, 255, (some 255), .num⟩

/-- I2C_MODE. -/
def Fld.i2cMode : FieldSpec := ⟨0x0A15, [], 0, 2, (some 0), .num⟩

/-- I2C_ADDR(m). -/
def Fld.i2cAddr : FieldSpec := ⟨0x0A16, [4], 0, 119, (some 0), .num⟩

/-- I2C_REG(m). -/
def Fld.i2cReg : FieldSpec := ⟨0x0A17, [4], 0, 255, (some 0), .num⟩

/-- The fields of PINS in the order of their numbers. -/
def fieldsOf10 : List FieldSpec :=
  [Fld.mux, Fld.owner, Fld.oe, Fld.dataInit, Fld.inv, Fld.od, Fld.pull, Fld.drive, Fld.slew, Fld.ht, 
   Fld.wake, Fld.intKind, Fld.intFilt, Fld.supAct, Fld.evpMode, Fld.evpPins, Fld.evpDelay, Fld.evpWunit, 
   Fld.evpWidth, Fld.eviMap, Fld.i2cMode, Fld.i2cAddr, Fld.i2cReg]

/-! ### FAULT -/

/-- WD_TIMEOUT(f). -/
def Fld.wdTimeout : FieldSpec := ⟨0x0B01, [5], 100, 5000, (some 1000), .num⟩

/-- The fields of FAULT in the order of their numbers. -/
def fieldsOf11 : List FieldSpec :=
  [Fld.wdTimeout]

/-- The fields of a section TYPE (Table 16.10). -/
def sectionFields (t : Nat) : List FieldSpec :=
  match t with
  | 1 => fieldsOf1
  | 2 => fieldsOf2
  | 3 => fieldsOf3
  | 4 => fieldsOf4
  | 5 => fieldsOf5
  | 6 => fieldsOf6
  | 7 => fieldsOf7
  | 8 => fieldsOf8
  | 9 => fieldsOf9
  | 10 => fieldsOf10
  | 11 => fieldsOf11
  | _ => []

end Sys2Proof.Machine
end

