-- ==== Sys2Proof/Machine/Image.lean ====
section
/-! DEFINITION. Reading an Adtas image: header, section table and items (R597 to R616), the values of its
fields, and the pointer records of the boot pointer block (R594, R595). -/

namespace Sys2Proof.Machine

/-! ### Values of fields -/

/-- Bits a subscript of `n` values takes (R611). -/
def subBits (n : Nat) : Nat :=
  if n ≤ 1 then 0 else Nat.log2 (n - 1) + 1

/-- INDEX packs the subscripts, the last one lowest (R611). -/
def packIndex (sizes subs : List Nat) : Nat :=
  (sizes.zip subs).foldl (fun acc p => acc * 2 ^ subBits p.1 + p.2) 0

/-- The subscripts an INDEX packs, with what stands above them. -/
def unpackIndex : List Nat → Nat → Nat × List Nat
  | [], x => (x, [])
  | n :: r, x =>
    let (y, l) := unpackIndex r x
    (y / 2 ^ subBits n, (y % 2 ^ subBits n) :: l)

/-- An INDEX names subscripts of the field, with nothing above them (R611). -/
def indexOk (f : FieldSpec) (x : Nat) : Bool :=
  let (y, l) := unpackIndex f.subs x
  y = 0 && (f.subs.zip l).all fun p => decide (p.2 < p.1)

/-- How a raw value of `w` bytes reads (R612). -/
def readRaw (f : FieldSpec) (w raw : Nat) : Int :=
  match f.kind with
  | .ip => ofBe (le 4 raw)
  | .mac => ofBe (le 6 raw)
  | _ => if f.lo < 0 then signed (8 * w) raw else raw

/-- The value an item gives for a subscript list, none where no item does. -/
def Image.given (m : Image) (f : FieldSpec) (subs : List Nat) : Option Int :=
  let i := packIndex f.subs subs
  (m.items.find? fun t => t.id = f.id && decide (t.index ≤ i) && decide (i < t.index + t.vals.length)).map
    fun t => readRaw f t.width (t.vals.getD (i - t.index) 0)

/-- The value of a field, its default where no item gives it (R614). -/
def Image.get (m : Image) (f : FieldSpec) (subs : List Nat) : Option Int :=
  match m.given f subs with
  | some v => some v
  | none => f.dflt

/-- A value lies in the field's own range. -/
def FieldSpec.inRange (f : FieldSpec) (v : Int) : Bool :=
  decide (f.lo ≤ v) && decide (v ≤ f.hi)

/-- What a check reads: the default where the value breaks the field's own range or is missing (R615). -/
def Image.checked (m : Image) (f : FieldSpec) (subs : List Nat) : Option Int :=
  match m.get f subs with
  | some v => if f.inRange v then some v else f.dflt
  | none => f.dflt

/-- A field's value as an integer, 0 where it has none. -/
def Image.int (m : Image) (f : FieldSpec) (subs : List Nat) : Int :=
  (m.get f subs).getD 0

/-- A field's value as a number. -/
def Image.nat (m : Image) (f : FieldSpec) (subs : List Nat) : Nat :=
  (m.int f subs).toNat

/-- A field's value as a flag. -/
def Image.on (m : Image) (f : FieldSpec) (subs : List Nat) : Bool :=
  m.int f subs == 1

/-- The elements of a string field, none where no item gives it (R613). -/
def Image.str (m : Image) (f : FieldSpec) (subs : List Nat) : Option (List Nat) :=
  (m.items.find? fun t => t.id = f.id && t.index = packIndex f.subs subs).map (·.vals)

/-- REG_DELAYk with its default 32 × k (Table 5.2). -/
def Image.regDelay (m : Image) (k : Nat) : Nat :=
  match m.given Fld.regDelay [k] with
  | some v => v.toNat
  | none => 32 * k

/-- The enabled fields, slots with SLOTk_EN = 1. -/
def Image.slots (m : Image) : List (Fin 4) :=
  (List.finRange 4).filter fun k => m.on Fld.slotEn [k]

/-- The used logical rows (FAB_ROWMASK). -/
def Image.rows (m : Image) : List Nat :=
  (List.range 8).filter fun r => (m.nat Fld.rowmask []).testBit r

/-! ### Items -/

/-- Raw values of `w` bytes, `n` of them. -/
def rawValues (w : Nat) : Nat → List Byte → List Nat
  | 0, _ => []
  | n + 1, bs => ofLe (bs.take w) :: rawValues w n (bs.drop w)

/-- The WIDTH a field allows (Table 16.9, R612, R613). -/
def widthOk (f : FieldSpec) (w : Nat) : Bool :=
  match f.kind with
  | .num => [1, 2, 4, 8].contains w
  | .str k => w = k
  | .ip => w = 4
  | .mac => w = 8

/-- A field whose item holds the whole value of one index. -/
def FieldSpec.isStr (f : FieldSpec) : Bool :=
  match f.kind with
  | .str _ => true
  | _ => false

/-- Length of an item with its padding. -/
def itemLen (w n : Nat) : Nat :=
  12 + (w * n + 3) / 4 * 4

/-- An item keeps the order of R609 after the one before it. -/
def orderOk (t : Nat) (prev : Option Item) (i : Item) : Bool :=
  match prev with
  | none => true
  | some p =>
    let whole := ((sectionFields t).find? (·.id = p.id)).any FieldSpec.isStr
    decide (p.id < i.id) ||
      (p.id = i.id && decide (p.index + (if whole then 1 else p.vals.length) ≤ i.index))

/-- The first and last INDEX of an item are INDEXes of the field that differ in the last subscript only
(R611, R612). -/
def itemIndexOk (f : FieldSpec) (i : Item) : Bool :=
  let l := i.index + (if f.isStr then 0 else i.vals.length - 1)
  indexOk f i.index && indexOk f l &&
    (unpackIndex f.subs i.index).2.dropLast == (unpackIndex f.subs l).2.dropLast &&
    (f.isStr || i.vals.length ≤ 1 || !f.subs.isEmpty)

/-- One item from the front of a section's bytes; `none` breaks R616. -/
def parseItem (t : Nat) (prev : Option Item) (bs : List Byte) : Option Item :=
  let w := field bs 2 1
  let n := field bs 8 4
  let i : Item := ⟨field bs 0 2, w, field bs 4 4, rawValues w (if bs.length < itemLen w n then 0 else n) (bs.drop 12)⟩
  match (sectionFields t).find? (·.id = i.id) with
  | none => none
  | some f =>
    if bs.length < 12 ∨ bs.length < itemLen w n ∨ n = 0 ∨ field bs 3 1 ≠ 0
        ∨ ((slice bs (12 + w * n) (itemLen w n - 12 - w * n)).any (· != 0)) = true
        ∨ widthOk f w = false ∨ itemIndexOk f i = false ∨ orderOk t prev i = false
    then none else some i

/-- The items of a section body and whether its structure holds (R609, R616); `fuel` bounds their number. -/
def parseItems (t : Nat) : Nat → Option Item → List Byte → List Item × Bool
  | 0, _, bs => ([], bs.isEmpty)
  | fuel + 1, prev, bs =>
    if bs.isEmpty then ([], true)
    else
      match parseItem t prev bs with
      | none => ([], false)
      | some i =>
        let (l, ok) := parseItems t fuel (some i) (bs.drop (itemLen i.width i.vals.length))
        (i :: l, ok)

/-- The bytes of an item (Table 16.9). -/
def Item.bytes (i : Item) : List Byte :=
  let v := i.vals.flatMap (le i.width)
  le 2 i.id ++ le 1 i.width ++ [0] ++ le 4 i.index ++ le 4 i.vals.length ++ v
    ++ List.replicate (itemLen i.width i.vals.length - 12 - v.length) 0

/-- The field's first subscript is a logical row. -/
def rowField (id : Nat) : Bool :=
  (id / 256 = 4 || id / 256 = 5) &&
    ((sectionFields (id / 256)).find? (·.id = id)).any fun f => f.subs.head? == some 8

/-- The item carries logical row `r` (R617; log entry 11). -/
def Item.carries (i : Item) (r : Nat) : Bool :=
  rowField i.id &&
    match (sectionFields (i.id / 256)).find? (·.id = i.id) with
    | none => false
    | some f =>
      let n := if f.isStr then 1 else i.vals.length
      (List.range n).any fun k => (unpackIndex f.subs (i.index + k)).2.head? == some r

/-- The row sum of logical row `r` (R617). -/
def rowSum (items : List Item) (r : Nat) : BitVec 32 :=
  crc32c ((items.filter fun i => i.carries r).flatMap Item.bytes)

/-! ### Header, section table and SIG -/

/-- First flash address of slot A or B (Table 16.1). -/
def slotBase (slot : Nat) : Nat :=
  if slot = 0 then 0x00400000 else 0x02000000

/-- TYPE and PART of the section table entries, in order (Table 16.5). -/
def sectionOrder : List (Nat × Nat) :=
  [(0x0F, 0), (1, 0), (2, 0), (3, 0), (4, 0), (5, 0), (5, 1), (6, 0), (7, 0), (8, 0), (9, 0), (10, 0), (11, 0)]

/-- One section table entry (Table 16.4). -/
def parseEntry (bs : List Byte) : SectEntry where
  typ := field bs 0 1
  part := field bs 1 1
  off := field bs 4 4
  len := field bs 8 4
  crc := BitVec.ofNat 32 (field bs 12 4)
  sha := BitVec.ofNat 256 (ofBe (slice bs 16 32))

/-- `n` section table entries. -/
def parseTable : Nat → List Byte → List SectEntry
  | 0, _ => []
  | n + 1, bs => parseEntry bs :: parseTable n (bs.drop 48)

/-- Each OFFSET is a multiple of 16 and not below the end of the entry before it (R599). -/
def offsetsOk : Nat → List SectEntry → Bool
  | _, [] => true
  | e, s :: r => s.off % 16 = 0 && decide (e ≤ s.off) && offsetsOk (s.off + s.len) r

/-- The conditions of code 0x03 on header `h`, table bytes `tb` and SIG bytes `sg` (R597, R599, R604, R605). -/
def tableOk (h tb sg : List Byte) : Bool :=
  let t := parseTable 13 tb
  let len := field h 16 4
  field h 11 1 = 13 && field h 20 4 = 64 && (BitVec.ofNat 32 (field h 24 4) == crc32c tb) &&
    (t.map fun e => (e.typ, e.part)) == sectionOrder &&
    ((List.range 13).all fun i => field tb (48 * i + 2) 2 = 0) &&
    (t.head?.map fun e => (e.off, e.len)) == some (688, 144) &&
    offsetsOk 0 t && t.all (fun e => decide (e.off + e.len ≤ len)) &&
    len = maxOf (t.map fun e => e.off + e.len) && decide (len ≤ 29360128) &&
    (BitVec.ofNat 32 (field sg 140 4) == crc32c (sg.take 140)) &&
    field sg 1 3 = 0 && field sg 132 8 = 0

/-- The checks of codes 0x01 to 0x05 on a slot, in ascending order; 0 when none refuses (R573, R574). -/
def headerCode (flash : List Host.Cell) (otp : Otp) (slot : Nat) : Nat :=
  let b := slotBase slot
  let h := Memory.bytes flash b 64
  let tb := Memory.bytes flash (b + 64) 624
  let sg := Memory.bytes flash (b + 688) 144
  let ks := field sg 0 1
  let dg := (sha256 (slice sg 4 64)).toNat
  let od := ofBe (le 32 (otp.keys.toList.getD ks 0).toNat)
  if slice h 0 4 ≠ [0x41, 0x44, 0x54, 0x53] ∨ field h 4 2 ≠ 1 ∨ field h 6 2 ≠ 64 ∨ 64 < field h 12 4
      ∨ field h 28 32 ≠ 0 ∨ BitVec.ofNat 32 (field h 60 4) ≠ crc32c (h.take 60) then 0x01
  else if field h 8 2 ≠ 0x0384 ∨ field h 10 1 ≠ 0xB1 then 0x02
  else if tableOk h tb sg = false then 0x03
  else if 3 < ks ∨ od = 0 ∨ od ≠ dg then 0x04
  else if otp.revoke.getLsbD ks then 0x05
  else 0

/-- The checks of codes 0x06 and 0x07 (R606, R608). -/
def signatureCode (flash : List Host.Cell) (otp : Otp) (slot : Nat) : Nat :=
  let b := slotBase slot
  let sg := Memory.bytes flash (b + 688) 144
  let z := (sha256 (Memory.bytes flash b 688)).toNat
  let be32 := fun o => ofBe (slice sg o 32)
  if ecdsaVerify (be32 4) (be32 36) (be32 68) (be32 100) z = false then 0x06
  else if field (Memory.bytes flash b 64) 12 4 < popcount 64 otp.rb then 0x07
  else 0

/-- What the header and section table of a slot give an image. -/
def headerImage (flash : List Host.Cell) (slot : Nat) : Image :=
  let b := slotBase slot
  let t := parseTable 13 (Memory.bytes flash (b + 64) 624)
  let sha := fun (i : Nat) => digestBytes ((t.getD i SectEntry.reset).sha)
  { Image.reset with
    valid := true
    keySlot := (Memory.read flash (b + 688)).toNat
    rollback := field (Memory.bytes flash b 64) 12 4
    len := field (Memory.bytes flash b 64) 16 4
    digest := sha256 (Memory.bytes flash b 688)
    groupHash := sha256 ([1, 4, 5, 6, 7].flatMap sha)
    table := t }

/-- The bytes of a section. -/
def sectionBytes (flash : List Host.Cell) (slot : Nat) (e : SectEntry) : List Byte :=
  Memory.bytes flash (slotBase slot + e.off) e.len

/-- The checks of codes 0x08 and 0x09 on one section; SIG has neither (R573, Table 16.6). -/
def sectionCode (flash : List Host.Cell) (slot : Nat) (e : SectEntry) : Nat :=
  if e.typ = 0x0F then 0
  else
    let bs := sectionBytes flash slot e
    if crc32c bs ≠ e.crc then 0x08 else if sha256 bs ≠ e.sha then 0x09 else 0

/-- A streamed section joins the staged image (R575, R578); SIG and WREN part 1 carry no items (R609). -/
def stageSection (flash : List Host.Cell) (slot : Nat) (e : SectEntry) (m : Image) : Image :=
  if e.typ = 0x0F ∨ e.part = 1 then m
  else
    let (l, ok) := parseItems e.typ e.len none (sectionBytes flash slot e)
    { m with items := m.items ++ l, bad := if ok then m.bad else m.bad ++ [e.typ] }

/-- The contents bytes of a resident region of the image in a slot (R618). -/
def regionBytes (flash : List Host.Cell) (slot : Nat) (m : Image) (r j : Nat) : List Byte :=
  let e := m.table.getD 6 SectEntry.reset
  Memory.bytes flash (slotBase slot + e.off + m.nat Fld.rgnSrc [r, j]) (m.nat Fld.rgnLen [r, j] * 2048)

/-! ### The boot pointer block -/

/-- The pointer record of a sector: slot and sequence number, none when not valid (R594). -/
def pointerAt (flash : List Host.Cell) (sector : Nat) : Option (Nat × Nat) :=
  let bs := Memory.bytes flash (4096 * sector) 16
  if slice bs 0 4 = [0x42, 0x50, 0x54, 0x52] ∧ field bs 4 1 < 2 ∧ field bs 5 3 = 0
      ∧ field bs 8 4 ≠ 0xFFFFFFFF ∧ BitVec.ofNat 32 (field bs 12 4) = crc32c (bs.take 12)
  then some (field bs 4 1, field bs 8 4) else none

/-- Record `b` is newer than record `a` in serial order (R569). -/
def newer (b a : Nat) : Bool :=
  let d := (b + 2 ^ 32 - a) % 2 ^ 32
  decide (1 ≤ d) && decide (d < 2 ^ 31)

/-- The pointer record in force: sector, slot and sequence number (R569). -/
def pointerInForce (flash : List Host.Cell) : Option (Nat × Nat × Nat) :=
  match pointerAt flash 0, pointerAt flash 1 with
  | none, none => none
  | some (s, q), none => some (0, s, q)
  | none, some (s, q) => some (1, s, q)
  | some (s0, q0), some (s1, q1) => if newer q1 q0 then some (1, s1, q1) else some (0, s0, q0)

/-- The sequence number after `q`, skipping the last (R595). -/
def nextSeq (q : Nat) : Nat :=
  if (q + 1) % 2 ^ 32 = 0xFFFFFFFF then 0 else (q + 1) % 2 ^ 32

/-- The bytes of a pointer record (Table 16.2). -/
def pointerBytes (slot seq : Nat) : List Byte :=
  let b := [0x42, 0x50, 0x54, 0x52] ++ le 1 slot ++ [0, 0, 0] ++ le 4 seq
  b ++ le 4 (crc32c b).toNat

/-- A new pointer record naming a slot goes into the sector not in force (R595). -/
def writePointer (flash : List Host.Cell) (slot : Nat) : List Host.Cell × Nat × Nat :=
  let (sector, seq) :=
    match pointerInForce flash with
    | none => (0, 1)
    | some (sc, _, q) => (1 - sc, nextSeq q)
  (Memory.program (4096 * sector) (pointerBytes slot seq) (Memory.erase (4096 * sector) flash), sector, seq)

end Sys2Proof.Machine
end

