-- ==== Sys2Proof/Machine/Eth.lean ====
section
/-! DEFINITION. The bytes of the Ethernet frames of the two lanes: Ethernet II with its FCS, the 802.1Q tag, IPv4, UDP
and ARP, what is sent and what is accepted (R398 to R402, R407, R411). Layouts and checksums that Table 11.1 names by
their published standard follow that standard (log entry 30). -/

namespace Sys2Proof.Machine

/-- Index of a lane. -/
def laneIx : LaneId → Fin 2
  | .a => 0
  | .b => 1

/-- A lane. -/
def egLane (s : State) (l : LaneId) : Lane :=
  s.net.lane[laneIx l]

/-- The own MAC address of a lane, octet 0 in [7:0] (R399). -/
def ownMac (s : State) (l : LaneId) : BitVec 48 :=
  s.otp.mac[laneIx l]

/-! ### Checksums -/

/-- One shift of the reflected CRC-32 of IEEE 802.3. -/
def fcsShift (c : BitVec 32) : BitVec 32 :=
  if c.getLsbD 0 then (c >>> 1) ^^^ 0xEDB88320#32 else c >>> 1

/-- One byte into the FCS. -/
def fcsByte (c : BitVec 32) (b : Byte) : BitVec 32 :=
  Nat.repeat fcsShift 8 (c ^^^ b.zeroExtend 32)

/-- The FCS of a frame, its low byte sent first. -/
def fcs (bs : List Byte) : BitVec 32 :=
  bs.foldl fcsByte 0xFFFFFFFF#32 ^^^ 0xFFFFFFFF#32

/-- The sum of the 16-bit words of bytes in network order, an odd last byte padded with 0. -/
def wordSum : List Byte → Nat
  | [] => 0
  | [a] => 256 * a.toNat
  | a :: b :: r => 256 * a.toNat + b.toNat + wordSum r

/-- A sum with its carries added back in. -/
def foldSum (x : Nat) : Nat :=
  let y := x % 65536 + x / 65536
  y % 65536 + y / 65536

/-- The checksum of IPv4 and UDP over bytes whose checksum field is 0. -/
def inetSum (bs : List Byte) : Nat :=
  65535 - foldSum (wordSum bs)

/-- Bytes that hold their checksum are good. -/
def inetOk (bs : List Byte) : Bool :=
  foldSum (wordSum bs) == 65535

/-! ### What is sent -/

/-- A frame of a lane with its tag, padded to the least size, and its FCS (R399, Table 11.1). -/
def ethFrame (s : State) (l : LaneId) (dst : BitVec 48) (etherType : Nat) (body : List Byte) : List Byte :=
  let c := (egLane s l).cfg
  let tag := match c.vlan with
    | some v => be 2 0x8100 ++ be 2 (8192 * c.pcp + v)
    | none => []
  let f := le 6 dst.toNat ++ le 6 (ownMac s l).toNat ++ tag ++ be 2 etherType ++ body
  let f := f ++ List.replicate (60 - f.length) 0
  f ++ le 4 (fcs f).toNat

/-- An IPv4 header for `n` bytes of UDP: identification 0, DF, no options, no fragment (R402). -/
def ipHeader (dscp ttl n : Nat) (src dst : BitVec 32) : List Byte :=
  let h := fun ck => [0x45] ++ be 1 (4 * dscp) ++ be 2 (20 + n) ++ [0, 0, 0x40, 0] ++ be 1 ttl ++ [17] ++ be 2 ck
    ++ be 4 src.toNat ++ be 4 dst.toNat
  h (inetSum (h 0))

/-- The bytes before a UDP datagram of `n` bytes that its checksum covers. -/
def pseudoHeader (src dst : BitVec 32) (n : Nat) : List Byte :=
  be 4 src.toNat ++ be 4 dst.toNat ++ [0, 17] ++ be 2 n

/-- A UDP datagram with its checksum (R402). -/
def udpBytes (src dst : BitVec 32) (sport dport : Nat) (data : List Byte) : List Byte :=
  let n := 8 + data.length
  let h := fun ck => be 2 sport ++ be 2 dport ++ be 2 n ++ be 2 ck ++ data
  let ck := inetSum (pseudoHeader src dst n ++ h 0)
  h (if ck = 0 then 65535 else ck)

/-- A UDP datagram of a lane as a frame (R402, R411). -/
def udpFrame (s : State) (l : LaneId) (mac : BitVec 48) (dscp ttl : Nat) (ip : BitVec 32) (sport dport : Nat)
    (data : List Byte) : List Byte :=
  let own := (egLane s l).cfg.ip
  let u := udpBytes own ip sport dport data
  ethFrame s l mac 0x0800 (ipHeader dscp ttl u.length own ip ++ u)

/-- A frame to the host from port 47100, to the next hop (R407, R411). -/
def hostFrame (s : State) (l : LaneId) (data : List Byte) : List Byte :=
  let c := (egLane s l).cfg
  udpFrame s l ((egLane s l).nextMac.getD 0) c.dscpRes c.ttl c.host 47100 c.hostPort data

/-- The Ethernet broadcast address. -/
def broadcastMac : BitVec 48 :=
  0xFFFFFFFFFFFF#48

/-- An ARP packet of a lane: a request (1) or announcement to the broadcast address, or a reply (2) (R403, R404). -/
def arpFrame (s : State) (l : LaneId) (op : Nat) (mac : BitVec 48) (ip : BitVec 32) : List Byte :=
  ethFrame s l (if op = 1 then broadcastMac else mac) 0x0806
    (be 2 1 ++ be 2 0x0800 ++ [6, 4] ++ be 2 op ++ le 6 (ownMac s l).toNat ++ be 4 (egLane s l).cfg.ip.toNat
      ++ le 6 mac.toNat ++ be 4 ip.toNat)

/-! ### PTP messages -/

/-- 224.0.1.129 (R424). -/
def ptpIp : BitVec 32 :=
  0xE0000181#32

/-- 01-00-5E-00-01-81, octet 0 in [7:0] (R401). -/
def ptpMac : BitVec 48 :=
  0x8101005E0001#48

/-- The portIdentity of the device on both lanes: lane A's MAC address with FF-FE in its middle, and port 1 (R423). -/
def portIdentity (s : State) : List Byte :=
  let m := le 6 (ownMac s .a).toNat
  m.take 3 ++ [0xFF, 0xFE] ++ m.drop 3 ++ be 2 1

/-- A Delay_Req of a lane: its sequence id, and the delay asymmetry taken off its correctionField (R424, R427). -/
def delayReqBytes (s : State) (l : LaneId) (seqId : Nat) : List Byte :=
  [0x01, 0x12] ++ be 2 44 ++ be 1 (s.img.nat Fld.ptpDomain []) ++ [0, 0, 0]
    ++ be 8 (unsign 64 (-65536 * s.img.int Fld.ptpAsym [(laneIx l).val])) ++ [0, 0, 0, 0] ++ portIdentity s
    ++ be 2 seqId ++ [1, 0x7F] ++ List.replicate 10 0

/-- A Delay_Req as a frame, TTL 1 (R402, R424). -/
def delayReqFrame (s : State) (l : LaneId) (seqId : Nat) : List Byte :=
  udpFrame s l ptpMac (egLane s l).cfg.dscpPtp 1 ptpIp 319 319 (delayReqBytes s l seqId)

/-! ### What is accepted -/

/-- The frame from its EtherType on, when its length and its tag are the lane's (R400, R401). -/
def untag (c : LaneCfg) (f : List Byte) : Option (List Byte) :=
  let tagged := ofBe (slice f 12 2) == 0x8100
  match c.vlan with
  | none => if tagged || decide (1518 < f.length) then none else some (f.drop 12)
  | some v =>
    if tagged && ofBe (slice f 14 2) % 4096 == v && decide (f.length ≤ 1522) then some (f.drop 16) else none

/-- The FCS of a frame is good (R401). -/
def fcsOk (f : List Byte) : Bool :=
  let n := f.length - 4
  ofLe (f.drop n) == (fcs (f.take n)).toNat

/-- The UDP conditions on the bytes after the IPv4 header (R401). -/
def udpOk (src dst : BitVec 32) (u : List Byte) : Bool :=
  let n := ofBe (slice u 4 2)
  decide (8 ≤ n) && decide (n ≤ u.length) &&
    (ofBe (slice u 6 2) == 0 || inetOk (pseudoHeader src dst n ++ u.take n))

/-- The IPv4 and UDP conditions on a packet, sent to the multicast MAC address of PTP or not (R401, Table 11.1). -/
def ipOk (c : LaneCfg) (multicast : Bool) (p : List Byte) : Bool :=
  let len := ofBe (slice p 2 2)
  let src := BitVec.ofNat 32 (ofBe (slice p 12 4))
  let dst := BitVec.ofNat 32 (ofBe (slice p 16 4))
  let u := (p.take len).drop 20
  let port := ofBe (slice u 2 2)
  let event := port == 319 || port == 320
  slice p 0 1 == [0x45] && inetOk (p.take 20) && decide (28 ≤ len) && decide (len ≤ p.length) &&
    ofBe (slice p 6 2) % 16384 == 0 && slice p 9 1 == [17] && (dst == c.ip || (event && dst == ptpIp)) &&
    (event || port == 47100 || port == 47101) && (event || !multicast) && udpOk src dst u

/-- A received frame is accepted (R400, R401). -/
def frameOk (s : State) (l : LaneId) (f : List Byte) : Bool :=
  let c := (egLane s l).cfg
  let dst := BitVec.ofNat 48 (ofLe (slice f 0 6))
  match untag c f with
  | none => false
  | some b =>
    let p := (b.drop 2).take (b.length - 6)
    fcsOk f &&
      (match ofBe (b.take 2) with
      | 0x0800 => (dst == ownMac s l || dst == ptpMac) && ipOk c (dst == ptpMac) p
      | 0x0806 => dst == ownMac s l || dst == broadcastMac
      | _ => false)

end Sys2Proof.Machine
end

