-- ==== Sys2Proof/Machine/LogArea.lean ====
section
/-! DEFINITION. The NVM log area of the flash: records, map snapshots, the scan of stage 0x5, and the commands
LOG_COMMIT, LOG_SECTOR_ERASE and LOG_MAPS_RESTORED (R678 to R684). -/

namespace Sys2Proof.Machine

/-- Flash address of a slot of the record ring (R678). -/
def ringAddr (slot : Nat) : Nat :=
  0x4000 + 64 * slot

/-- Slots of the record ring (R678). -/
def ringSlots : Nat := 65280

/-- Flash address of a snapshot slot (R678). -/
def snapAddr (slot : Nat) : Nat :=
  0x2000 + 512 * slot

/-- Bytes 0 to 59 of a log record (Table 18.9). -/
def recordBody (r : LogRec) : List Byte :=
  let b := le 4 r.index ++ le 1 r.kind ++ le 1 (r.state % 16) ++ le 2 r.code.toNat ++ le 6 r.lDet ++ le 6 r.lSus
    ++ le 8 r.uptimeUs ++ le 4 r.bootCount ++ le 6 r.ptpSec ++ le 1 r.ptpState ++ [0] ++ r.data
  b ++ le 4 (crc32c b).toNat

/-- A log record slot is committed (R681). -/
def recordCommitted (bs : List Byte) : Bool :=
  field bs 60 1 = 0 && (BitVec.ofNat 32 (field bs 56 4) == crc32c (bs.take 56))

/-- SUBSTg [8:0] (Table 5.4). -/
def substBits (x : Subst) : Nat :=
  x.column % 64 + 64 * bit x.valid + 128 * bit x.shadowFault + 256 * bit x.shared

/-- SUBSTg from its bits. -/
def substOf (n : Nat) : Subst :=
  ⟨n % 64, n.testBit 6, n.testBit 7, n.testBit 8⟩

/-- The AON column repair map: the bypass in force, and from step 5 of a repair on the new one (R245, R118). -/
def aonBypass (s : State) : Option Nat :=
  match s.fab.repair with
  | some r => if r.loaded && !r.aborted then some r.column else s.fab.bypass
  | none => s.fab.bypass

/-- Bytes 0 to 507 of a map snapshot of the present maps with sequence checkpoint `sc` (Table 18.8). -/
def snapshotBody (seq sc : Nat) (s : State) : List Byte :=
  let failed := (s.fab.perch.toList.zipIdx.map fun p => bit p.1.failed * 2 ^ p.2).sum
  let b := [0x4D, 0x41, 0x50, 0x53] ++ le 4 seq ++ le 1 ((aonBypass s).getD 0xF) ++ [0] ++ le 9 failed ++ [0]
    ++ le 8 sc ++ (s.pix.subst.toList.flatMap fun x => le 2 (substBits x)) ++ List.replicate 220 0
  b ++ le 4 (crc32c b).toNat

/-- A snapshot slot is committed (R681). -/
def snapshotCommitted (bs : List Byte) : Bool :=
  slice bs 0 4 = [0x4D, 0x41, 0x50, 0x53] && field bs 508 1 = 0 &&
    (BitVec.ofNat 32 (field bs 504 4) == crc32c (bs.take 504))

/-- Bytes a failed program leaves: of the bits to clear, those that took are not stated (log entry 8). -/
def tornProgram (ctr : Nat) : Nat → List Byte → List Byte
  | _, [] => []
  | i, b :: bs => (b ||| BitVec.ofNat 8 (Config.value (ctr + i))) :: tornProgram ctr (i + 1) bs

/-- Slots of `size` bytes from `base` that hold a byte other than the erased value, ascending. -/
def usedSlots (flash : List Host.Cell) (base size n : Nat) : List Nat :=
  ((flash.filter fun c => decide (base ≤ c.1) && decide (c.1 < base + size * n)).map
    fun c => (c.1 - base) / size).foldr (fun x l => if l.head? = some x then l else x :: l) []

/-- Slot and index of every committed record, in slot order. -/
def committedRecords (flash : List Host.Cell) : List (Nat × Nat) :=
  (usedSlots flash 0x4000 64 ringSlots).filterMap fun k =>
    let bs := Memory.bytes flash (ringAddr k) 64
    if recordCommitted bs then some (k, field bs 0 4) else none

/-- Insertion by rising distance of the index from `first` (R684 Edges). -/
def insertRecord (first : Nat) (x : Nat × Nat) : List (Nat × Nat) → List (Nat × Nat)
  | [] => [x]
  | y :: ys =>
    if (x.2 + 2 ^ 32 - first) % 2 ^ 32 ≤ (y.2 + 2 ^ 32 - first) % 2 ^ 32 then x :: y :: ys
    else y :: insertRecord first x ys

/-- Committed records in ring order from index `first`. -/
def recordsFrom (first : Nat) (l : List (Nat × Nat)) : List (Nat × Nat) :=
  l.foldr (insertRecord first) []

/-- The newest and the oldest index of a list of records, by serial order. -/
def newestRecord (l : List (Nat × Nat)) : Option (Nat × Nat) :=
  l.foldl (fun a x => match a with
    | none => some x
    | some y => if newer x.2 y.2 then some x else some y) none

/-- The oldest record, by serial order. -/
def oldestRecord (l : List (Nat × Nat)) : Option (Nat × Nat) :=
  l.foldl (fun a x => match a with
    | none => some x
    | some y => if newer y.2 x.2 then some x else some y) none

/-- The first slot at or after `k` that is not listed, `fuel` slots at most, in a ring of `n`. -/
def freeSlot (used : List Nat) (n : Nat) : Nat → Nat → Nat
  | 0, k => k
  | fuel + 1, k => if used.contains k then freeSlot used n fuel ((k + 1) % n) else k

/-- The log writer runs outside SLEEP and OFF, in BOOT from stage 0x5 on, while the supervisor's context is not being reset
(R71, R683). -/
def canCommit (s : State) : Bool :=
  supRuns s && !inState [.off, .sleep] s && (s.sys.code != .boot || decide (5 ≤ s.boot.stage))

/-- The front record as it is written: with its index and the reports dropped before it (R683). -/
def frontRecord (l : Log) (r : LogRec) : LogRec :=
  { r with
    index := l.logNext
    data := if r.kind = 1 then r.data.take 4 ++ le 2 l.dropped ++ r.data.drop 6 else r.data }

/-- LOG_COMMIT: the front record is programmed, committed and read back (R681); `ok` is the readback. -/
def execLogCommit (ok : Bool) (s : State) : Host.Outcome State Fault Refusal :=
  match s.log.queue with
  | [] => .next s
  | r :: rest =>
    if canCommit s = false ∨ s.log.snapPending = true then .next s
    else
      let b := recordBody (frontRecord s.log r)
      let a := ringAddr s.log.nextSlot
      let nxt := (s.log.nextSlot + 1) % ringSlots
      if ok then
        .next { s with
          flash := Memory.program a (b ++ [0]) s.flash
          log := { s.log with
            queue := rest
            dropped := if r.kind = 1 then 0 else s.log.dropped
            logNext := (s.log.logNext + 1) % 2 ^ 32
            nextSlot := nxt } }
      else
        .next (report 0xA001 { s with
          flash := Memory.program a (tornProgram s.freeCtr 0 b) s.flash
          freeCtr := s.freeCtr + 64
          log := { s.log with nextSlot := nxt } })

/-- LOG_SECTOR_ERASE: when the next free slot lies in the last erased sector, the sector after it, with the
oldest records, is erased and LOG_FIRST advances past them (R682). -/
def execLogSectorErase (s : State) : Host.Outcome State Fault Refusal :=
  let sector := (s.log.nextSlot / 64 + 1) % 1020
  let a := 0x4000 + 4096 * sector
  if canCommit s = false ∨ (usedSlots s.flash a 4096 1).isEmpty then .next s
  else
    let gone := (committedRecords s.flash).filter fun p => p.1 / 64 = sector
    let first :=
      match newestRecord gone with
      | none => s.log.logFirst
      | some p => (p.2 + 1) % 2 ^ 32
    .next { s with flash := Memory.erase a s.flash, log := { s.log with logFirst := first } }

/-- The reports of stage 0x5 on one used slot with its COMMIT byte at `at_` (R684). -/
def slotReport (committed : Bool) (bs : List Byte) (at_ : Nat) : List (BitVec 16) :=
  if committed then [] else if field bs at_ 1 = 0 then [0xA002] else [0xA000]

/-- The reports of stage 0x5 on the snapshot slots it skips (R684). -/
def snapshotReports (flash : List Host.Cell) : List (BitVec 16) :=
  (usedSlots flash 0x2000 512 16).flatMap fun k =>
    let bs := Memory.bytes flash (snapAddr k) 512
    slotReport (snapshotCommitted bs) bs 508

/-- The maps and S_c of the committed snapshot with the highest SEQ; empty maps without one (R684). -/
def restoreMaps (s : State) : State :=
  let used := usedSlots s.flash 0x2000 512 16
  let good := used.filterMap fun k =>
    let bs := Memory.bytes s.flash (snapAddr k) 512
    if snapshotCommitted bs then some (k, field bs 4 4) else none
  match newestRecord good with
  | none =>
    { s with
      fab := { s.fab with bypass := none, perch := s.fab.perch.map fun p => { p with failed := false } }
      pix := { s.pix with subst := Vector.replicate 128 Subst.reset }
      log := { s.log with sc := 0, scWant := 0, snapSeq := 0, snapSlot := freeSlot used 16 16 0 }
      sys := { s.sys with hseq := 65536 } }
  | some (k, q) =>
    let bs := Memory.bytes s.flash (snapAddr k) 512
    let sc := field bs 20 8
    { s with
      fab := { s.fab with
        bypass := if field bs 8 1 < 8 then some (field bs 8 1) else none
        perch := Vector.ofFn fun p => { s.fab.perch[p] with failed := (field bs 10 9).testBit p.val } }
      pix := { s.pix with subst := Vector.ofFn fun g => substOf (field bs (28 + 2 * g.val) 2) }
      log := { s.log with sc := sc, scWant := sc, snapSeq := q, snapSlot := freeSlot used 16 16 ((k + 1) % 16) }
      sys := { s.sys with hseq := sc + 65536 } }

/-- The record ring as stage 0x5 finds it: next free slot, next and first index, reports of skipped slots (R684). -/
def restoreRing (s : State) : State :=
  let used := usedSlots s.flash 0x4000 64 ringSlots
  let recs := committedRecords s.flash
  let bad := used.flatMap fun k =>
    let bs := Memory.bytes s.flash (ringAddr k) 64
    slotReport (recordCommitted bs) bs 60
  let log :=
    match newestRecord recs, oldestRecord recs with
    | some n, some o =>
      { s.log with
        logNext := (n.2 + 1) % 2 ^ 32
        logFirst := o.2
        nextSlot := freeSlot used ringSlots used.length ((n.1 + 1) % ringSlots) }
    | _, _ => { s.log with logNext := 0, logFirst := 0, nextSlot := freeSlot used ringSlots used.length 0 }
  reportAll bad { s with log := log }

end Sys2Proof.Machine
end

