-- ==== Sys2Proof/Machine/Maint.lean ====
section
/-! DEFINITION. The maintenance packet, its authentication, the sequence rule and the answers (R621 to R628):
the one frame in which every maintenance command runs. -/

namespace Sys2Proof.Machine

/-- The packet bytes before the MAC of a request (Table 17.1). -/
def requestBytes (op : Nat) (q : MntReq) (payload : List Byte) : List Byte :=
  le 2 q.magic.toNat ++ [q.version] ++ le 1 op ++ le 8 q.seq.toNat ++ le 2 payload.length ++ [q.status]
    ++ le 1 q.reserved.toNat ++ le 2 q.target.toNat ++ le 2 q.session.toNat ++ le 4 (q.reserved.toNat / 256) ++ payload

/-- Bytes 0 to 15 of the HMAC under the device key (Table 17.1). -/
def packetMac (s : State) (bs : List Byte) : BitVec 128 :=
  (hmac s.otp.devKey bs).extractLsb' 128 128

/-- The device has a DEV_ID: an image, or in SAFE an accepted image, is in force (R457, Table 12.6). -/
def devId (s : State) : Option Nat :=
  if s.img.valid then some (s.img.nat Fld.devId []) else none

/-- The device ID field a device without DEV_ID carries (R457). -/
def ownId (s : State) : Nat :=
  (devId s).getD 0x8FFF

/-- TARGET has ANY set or names the device's DEV_ID (R624). -/
def targetOk (s : State) (t : BitVec 16) : Bool :=
  t.getLsbD 15 || (match devId s with | some d => decide (t.toNat = d) | none => false)

/-- The checks of step 1 of R624. -/
def packetOk (s : State) (op : Nat) (q : MntReq) (payload : List Byte) : Bool :=
  decide (payload.length ≤ 1432) && q.magic == 0x4D47 && q.version == 1 && q.reserved == 0 &&
    packetMac s (requestBytes op q payload) == q.mac && targetOk s q.target

/-- Network part of an address. -/
def netOf (ip : BitVec 32) (pfx : Nat) : Nat :=
  ip.toNat / 2 ^ (32 - pfx)

/-- A request reaches the maintenance endpoint: the lane answers and is locked, no EGRESS re-init runs, the
supervisor and SEC work, and without image addresses the source lies in the lane's subnet (R584, R589, R624;
log entry 12). -/
def hears (s : State) (q : MntReq) : Bool :=
  let l := egLane s q.lane
  inState [.commit, .run, .hold, .repair, .safe] s && l.up && l.lock && !s.sys.funcBusy.getLsbD 0 &&
    !s.sys.supResetting && !s.sec.resetting &&
    (l.cfg.fromImage || netOf q.srcIp l.cfg.pfx == netOf l.cfg.ip l.cfg.pfx)

/-- The SESSION field of an answer: that of the lock for a session command, otherwise 0 (Table 17.1). -/
def answerSession (s : State) (op : Nat) : Nat :=
  if 0x10 ≤ op ∧ op < 0x24 ∧ s.nvm.locked then s.nvm.session.toNat else 0

/-- The packet bytes before the MAC of an answer (Table 17.1). -/
def answerBytes (s : State) (session op : Nat) (q : MntReq) (a : Answer) : List Byte :=
  [0x47, 0x4D, 1] ++ le 1 (op + 128) ++ le 8 q.seq.toNat ++ le 2 a.payload.length ++ [a.status, 0]
    ++ le 2 (ownId s) ++ le 2 session ++ le 4 0 ++ a.payload

/-- An answer as a frame: from port 47101 to the request's Ethernet and IPv4 source, under SESSION `session` (R621,
R622). -/
def answerFrame (s : State) (session op : Nat) (q : MntReq) (a : Answer) : List Byte :=
  let c := (egLane s q.lane).cfg
  let bs := answerBytes s session op q a
  udpFrame s q.lane q.srcMac c.dscpMnt c.ttl q.srcIp 47101 q.srcPort.toNat (bs ++ be 16 (packetMac s bs).toNat)

/-- An answer leaves on the lane of its request (R621). While the SEC context resets, its HMAC is not computed: the answer
waits for SEC_CONTEXT_RESUME (R106). -/
def sendAnswer (op : Nat) (q : MntReq) (a : Answer) (s : State) : State :=
  if s.sec.resetting then { s with mnt := { s.mnt with unsent := s.mnt.unsent ++ [⟨op, q, [], some a⟩] } }
  else emit (.frame q.lane (answerFrame s (answerSession s op) op q a)) s

/-- The answers that waited for the SEC block leave (R106). -/
def sendWaiting (s : State) : State :=
  s.mnt.unsent.foldl (fun t e => match e.answer with | some a => sendAnswer e.op e.req a t | none => t)
    { s with mnt := { s.mnt with unsent := [] } }

/-- An answer of a status code of Table 17.2. -/
def answerOf (op status : Nat) (payload : List Byte) : Answer :=
  ⟨BitVec.ofNat 8 (op + 128), BitVec.ofNat 8 status, payload⟩

/-- The cache entry of a request, by SEQ. -/
def setCached (seq : BitVec 64) (a : Answer) (s : State) : State :=
  { s with mnt := { s.mnt with
    cache := s.mnt.cache.map fun e => if e.req.seq = seq then { e with answer := some a } else e } }

/-- The answer of an accepted request is cached and leaves (R625). -/
def finish (op : Nat) (q : MntReq) (a : Answer) (s : State) : State :=
  sendAnswer op q a (setCached q.seq a s)

/-- What a command's body gives: a state, an answer now or later, and what it does after the answer left. -/
structure Reply where
  /-- the state before the answer -/
  state : State
  /-- status and payload, none when the answer comes later -/
  answer : Option (Nat × List Byte)
  /-- what the device does after the answer (R644) -/
  after : State → State

/-- A reply with a status and a payload. -/
def reply (s : State) (status : Nat) (payload : List Byte) : Reply :=
  ⟨s, some (status, payload), id⟩

/-- A reply whose answer comes later. -/
def later (s : State) : Reply :=
  ⟨s, none, id⟩

/-- The request is accepted: HSEQ, counter, cache and the S_c rule (R625, R626). -/
def accept (op : Nat) (q : MntReq) (payload : List Byte) (s : State) : State :=
  let n := q.seq.toNat
  let want := s.log.sc + 32768 < n
  { s with
    sys := { s.sys with hseq := n, mntAccepted := satInc 32 s.sys.mntAccepted }
    mnt := { s.mnt with cache := (⟨op, q, payload, none⟩ :: s.mnt.cache).take 16 }
    log := if want then { s.log with scWant := n, snapPending := true } else s.log }

/-- Steps 3 to 5 of R624 on an accepted request. -/
def runAccepted (op : Nat) (q : MntReq) (fits : Bool) (states : List DevState) (body : State → Reply)
    (s : State) : State :=
  if fits = false then finish op q (answerOf op 1 []) s
  else if inState states s = false then finish op q (answerOf op 2 []) s
  else
    let r := body s
    match r.answer with
    | none => r.after r.state
    | some (st, p) => r.after (finish op q (answerOf op st p) r.state)

/-- A cached request with every byte the same (R625). -/
def cachedSame (op : Nat) (q : MntReq) (payload : List Byte) (s : State) : Option CacheEntry :=
  s.mnt.cache.find? fun e =>
    e.req.seq == q.seq && requestBytes e.op e.req e.payload == requestBytes op q payload && e.req.mac == q.mac

/-- A maintenance request arrives (R624, R625, R626): it is lost, dropped, repeated, stale, made to wait for
its S_c commit, or accepted and run. `i` is the command itself, kept while it waits. -/
def request (i : Instr) (op : Nat) (q : MntReq) (payload : List Byte) (fits : Bool) (states : List DevState)
    (body : State → Reply) (s : State) : State :=
  if hears s q = false then s
  else if packetOk s op q payload = false then
    { s with sys := { s.sys with mntBad := satInc 32 s.sys.mntBad } }
  else if s.sys.hseq < q.seq.toNat then
    if s.log.sc + 65536 < q.seq.toNat then
      if s.mnt.waiting.length + s.mnt.sessWait.length < 4 then
        { s with
          mnt := { s.mnt with waiting := s.mnt.waiting ++ [i] }
          log := { s.log with scWant := Nat.max s.log.scWant q.seq.toNat, snapPending := true } }
      else { s with sys := { s.sys with mntDropped := satInc 32 s.sys.mntDropped } }
    else runAccepted op q fits states body (accept op q payload s)
  else
    match cachedSame op q payload s with
    | some e =>
      match e.answer with
      | some a => sendAnswer op q a s
      | none => sendAnswer op q (answerOf op 9 []) s
    | none =>
      sendAnswer op q (answerOf op 8 []) { s with sys := { s.sys with mntStale := satInc 32 s.sys.mntStale } }

/-- States in which most commands run (Table 17.3). -/
def mostStates : List DevState := [.run, .hold, .repair, .safe]

/-- A write-once violation of the OTP block (R24, R643, R671). -/
def otpViolation (s : State) : State :=
  report 0xB0F0 { s with flt := { s.flt with woViolation := true, woAt := some s.now, woCount := satInc 32 s.flt.woCount } }

/-- The answers of a range of the log: the records FIRST onward that exist, whole (R631). -/
def logRead (s : State) (first count : Nat) : List Byte :=
  let recs := recordsFrom s.log.logFirst (committedRecords s.flash)
  let d := (first + 2 ^ 32 - s.log.logFirst) % 2 ^ 32
  let from_ := recs.filter fun p =>
    decide (2 ^ 31 ≤ d) || decide (d ≤ (p.2 + 2 ^ 32 - s.log.logFirst) % 2 ^ 32)
  (from_.take (Nat.min count 16)).flatMap fun p => Memory.bytes s.flash (ringAddr p.1) 64

/-- LOG_READ (R631). -/
def execLogRead (q : MntReq) (first : BitVec 32) (count : BitVec 16) (s : State) :
    Host.Outcome State Fault Refusal :=
  .next (request (.logRead q first count) 0x03 q (le 4 first.toNat ++ le 2 count.toNat ++ [0, 0])
    (decide (1 ≤ count.toNat) && decide (count.toNat ≤ 32)) [.commit, .run, .hold, .repair, .safe]
    (fun t => reply t 0 (logRead t first.toNat count.toNat)) s)

end Sys2Proof.Machine
end

