-- ==== Sys2Proof/Machine/Nvm.lean ====
section
/-! DEFINITION. The NVM session lock, the flash commands and the OTP commands (R635 to R643). -/

namespace Sys2Proof.Machine

/-- The request comes from the holder's lane, address and port (R636). -/
def fromHolder (s : State) (q : MntReq) : Bool :=
  s.nvm.locked && s.nvm.lane = (laneIx q.lane).val && s.nvm.ownerIp == q.srcIp && s.nvm.ownerPort == q.srcPort

/-- The lease left in model time; it stands still while a session command runs (R636). -/
def leaseLeft (s : State) : Nat :=
  if s.nvm.busy.isSome then s.nvm.frozen else s.nvm.leaseEnd - s.now

/-- The lease left in ms. -/
def leaseMs (s : State) : Nat :=
  leaseLeft s / 200000

/-- The lease is 5 s from now (R635, R636). -/
def renew (s : State) : State :=
  { s with nvm := { s.nvm with leaseEnd := s.now + sec 5, frozen := sec 5 } }

/-- A session command of the holder runs and renews the lease at its answer; others get LOCKED or NO_SESSION
(R636). -/
def session (q : MntReq) (body : State → Reply) (s : State) : Reply :=
  if fromHolder s q && s.nvm.session == q.session then body (renew s)
  else if s.nvm.locked then reply s 3 (le 2 (leaseMs s))
  else reply s 4 []

/-- The bits a sector or page keeps when its erase fails or is cut are not stated (log entry 8). -/
def tornErase (ctr a : Nat) (m : List Host.Cell) : List Host.Cell :=
  (List.range 4096).foldl
    (fun m i => Memory.write (a + i) (Memory.read m (a + i) ||| BitVec.ofNat 8 (Config.value (ctr + i))) m) m

/-- The sector erase or page program in progress takes effect: whole, or torn (R637, R650, R676). -/
def endFlashOp (torn : Bool) (s : State) : State :=
  match s.nvm.busy with
  | some ⟨_, _, _, .erase slot sector _⟩ =>
    let a := slotBase slot + 4096 * sector
    if torn then { s with flash := tornErase s.freeCtr a s.flash, freeCtr := s.freeCtr + 4096 }
    else { s with flash := Memory.erase a s.flash }
  | some ⟨_, _, _, .program slot off data⟩ =>
    let a := slotBase slot + off
    let page := data.take 256
    if torn then { s with
      flash := Memory.program a (tornProgram s.freeCtr 0 page) s.flash, freeCtr := s.freeCtr + 256 }
    else { s with flash := Memory.program a page s.flash }
  | _ => s

/-- The lock is released: the flash operation in progress ends, the rest of the command is abandoned, VERIFIED
clears (R637). -/
def releaseLock (s : State) : State :=
  let s := endFlashOp false s
  { s with
    nvm := { s.nvm with
      locked := false, lane := 0, ownerIp := 0, ownerPort := 0, session := 0, leaseEnd := 0, frozen := 0
      busy := none, verifiedA := false, verifiedB := false }
    mnt := { s.mnt with
      sessWait := []
      cache := s.mnt.cache.filter fun e => e.answer.isSome } }

/-- The lock is held on the lane. -/
def heldOn (l : LaneId) (s : State) : Bool :=
  s.nvm.locked && s.nvm.lane = (laneIx l).val

/-- The lock is granted with a fresh non-zero SESSION (R635). -/
def grantLock (q : MntReq) (s : State) : State :=
  bump { s with nvm := { s.nvm with
    locked := true
    lane := (laneIx q.lane).val
    ownerIp := q.srcIp
    ownerPort := q.srcPort
    session := BitVec.ofNat 16 (1 + draw s 65535)
    leaseEnd := s.now + sec 5
    frozen := sec 5
    reasonA := 255
    reasonB := 255 } }

/-- Payload of an NVM_LOCK answer. -/
def lockPayload (s : State) : List Byte :=
  le 2 s.nvm.session.toNat ++ le 2 5000

/-- NVM_LOCK (R635). -/
def execNvmLock (q : MntReq) (s : State) : Host.Outcome State Fault Refusal :=
  .next (request (.nvmLock q) 0x10 q [] true mostStates
    (fun t =>
      if fromHolder t q then reply (renew t) 0 (lockPayload t)
      else if t.nvm.locked then reply t 3 (le 2 (leaseMs t))
      else reply (grantLock q t) 0 (lockPayload (grantLock q t))) s)

/-- NVM_RENEW (R636). -/
def execNvmRenew (q : MntReq) (s : State) : Host.Outcome State Fault Refusal :=
  .next (request (.nvmRenew q) 0x11 q [] true mostStates (session q fun t => reply t 0 (le 2 5000)) s)

/-- NVM_UNLOCK (R637). -/
def execNvmUnlock (q : MntReq) (s : State) : Host.Outcome State Fault Refusal :=
  .next (request (.nvmUnlock q) 0x12 q [] true mostStates (session q fun t => ⟨t, some (0, []), releaseLock⟩) s)

/-- The slot is open to erase and program: not the one the device runs; in SAFE after a refusal both are (R638). -/
def slotOpen (s : State) (slot : Nat) : Bool :=
  (s.sys.code == .safe && s.sys.safeKind == .refusal) || slot != s.boot.slot

/-- Any erase or program of a slot clears its VERIFIED (R640). -/
def clearVerified (slot : Nat) (s : State) : State :=
  if slot = 0 then { s with nvm := { s.nvm with verifiedA := false } }
  else { s with nvm := { s.nvm with verifiedB := false } }

/-- A session command starts in the background; the lease stands still (R627, R636). -/
def background (op : Nat) (q : MntReq) (payload : List Byte) (todo : SessOp) (s : State) : Reply :=
  later { s with nvm := { s.nvm with busy := some ⟨op, q, payload, todo⟩, frozen := leaseLeft s } }

/-- A command that uses the flash waits while another runs, at most four (R627; log entry 12). -/
def whenFree (i : Instr) (body : State → Reply) (s : State) : Reply :=
  if s.nvm.busy.isSome then
    if s.mnt.waiting.length + s.mnt.sessWait.length < 4 then
      later { s with mnt := { s.mnt with sessWait := s.mnt.sessWait ++ [i] } }
    else
      later { s with
        sys := { s.sys with mntDropped := satInc 32 s.sys.mntDropped }
        mnt := { s.mnt with cache := s.mnt.cache.drop 1 } }
  else body s

/-- Payload of NVM_ERASE. -/
def erasePayload (slot : BitVec 8) (sector : BitVec 32) (count : BitVec 16) : List Byte :=
  [slot, 0, 0, 0] ++ le 4 sector.toNat ++ le 2 count.toNat ++ [0, 0]

/-- NVM_ERASE's payload fits (Table 17.3, R639). -/
def eraseFits (slot : BitVec 8) (sector : BitVec 32) (count : BitVec 16) : Bool :=
  decide (slot.toNat < 2) && decide (sector.toNat < 7168) && decide (1 ≤ count.toNat) &&
    decide (count.toNat ≤ 256) && decide (sector.toNat + count.toNat ≤ 7168)

/-- NVM_ERASE starts (R638, R639). -/
def eraseBody (q : MntReq) (slot : BitVec 8) (sector : BitVec 32) (count : BitVec 16) : State → Reply :=
  session q fun t =>
    if slotOpen t slot.toNat then
      background 0x13 q (erasePayload slot sector count) (.erase slot.toNat sector.toNat count.toNat)
        (clearVerified slot.toNat t)
    else reply t 2 []

/-- NVM_ERASE (R638, R639). -/
def execNvmErase (q : MntReq) (slot : BitVec 8) (sector : BitVec 32) (count : BitVec 16) (s : State) :
    Host.Outcome State Fault Refusal :=
  .next (request (.nvmErase q slot sector count) 0x13 q (erasePayload slot sector count)
    (eraseFits slot sector count) mostStates
    (whenFree (.nvmErase q slot sector count) (eraseBody q slot sector count)) s)

/-- Payload of NVM_PROGRAM. -/
def programPayload (slot : BitVec 8) (offset : BitVec 32) (data : List Byte) : List Byte :=
  [slot, 0] ++ le 2 data.length ++ le 4 offset.toNat ++ data

/-- NVM_PROGRAM's payload fits (Table 17.3, R639). -/
def programFits (slot : BitVec 8) (offset : BitVec 32) (data : List Byte) : Bool :=
  decide (slot.toNat < 2) && decide (1 ≤ data.length) && decide (data.length ≤ 1024) &&
    offset.toNat % 256 = 0 && decide (offset.toNat + data.length ≤ 29360128)

/-- NVM_PROGRAM starts (R638, R639). -/
def programBody (q : MntReq) (slot : BitVec 8) (offset : BitVec 32) (data : List Byte) : State → Reply :=
  session q fun t =>
    if slotOpen t slot.toNat then
      background 0x14 q (programPayload slot offset data) (.program slot.toNat offset.toNat data)
        (clearVerified slot.toNat t)
    else reply t 2 []

/-- NVM_PROGRAM (R638, R639). -/
def execNvmProgram (q : MntReq) (slot : BitVec 8) (offset : BitVec 32) (data : List Byte) (s : State) :
    Host.Outcome State Fault Refusal :=
  .next (request (.nvmProgram q slot offset data) 0x14 q (programPayload slot offset data)
    (programFits slot offset data) mostStates
    (whenFree (.nvmProgram q slot offset data) (programBody q slot offset data)) s)

/-- NVM_VERIFY starts (R640). -/
def verifyBody (q : MntReq) (slot : BitVec 8) : State → Reply :=
  session q (background 0x15 q [slot, 0, 0, 0] (.verify slot.toNat))

/-- NVM_VERIFY (R640). -/
def execNvmVerify (q : MntReq) (slot : BitVec 8) (s : State) : Host.Outcome State Fault Refusal :=
  .next (request (.nvmVerify q slot) 0x15 q [slot, 0, 0, 0] (decide (slot.toNat < 2)) mostStates
    (whenFree (.nvmVerify q slot) (verifyBody q slot)) s)

/-- The NVM registers show the pointer record in force (Table 17.8). -/
def showPointer (s : State) : State :=
  match pointerInForce s.flash with
  | none => { s with nvm := { s.nvm with ptrValid := false } }
  | some (sector, slot, seq) =>
    { s with nvm := { s.nvm with
      ptrValid := true, ptrSector := sector, ptrSlot := slot, ptrSeq := BitVec.ofNat 32 seq } }

/-- A pointer record naming the slot is written and read back (R595, R641). -/
def switchTo (slot : Nat) (s : State) : State :=
  showPointer { s with flash := (writePointer s.flash slot).1 }

/-- A pointer write whose readback differs (R681): the sector not in force is erased and holds a torn record. -/
def switchTorn (slot : Nat) (s : State) : State :=
  let (_, sector, seq) := writePointer s.flash slot
  let m := Memory.erase (4096 * sector) s.flash
  showPointer { s with
    flash := Memory.program (4096 * sector) (tornProgram s.freeCtr 0 (pointerBytes slot seq)) m
    freeCtr := s.freeCtr + 16 }

/-- NVM_SWITCH runs (R641); `ok` is the readback. -/
def switchBody (q : MntReq) (slot : BitVec 8) (ok : Bool) : State → Reply :=
  session q fun t =>
    if (if slot.toNat = 0 then t.nvm.verifiedA else t.nvm.verifiedB) = false then reply t 2 []
    else if ok then reply (switchTo slot.toNat t) 0 (le 4 (switchTo slot.toNat t).nvm.ptrSeq.toNat)
    else reply (report 0xA001 (switchTorn slot.toNat t)) 5 []

/-- NVM_SWITCH (R641). -/
def execNvmSwitch (q : MntReq) (slot : BitVec 8) (ok : Bool) (s : State) : Host.Outcome State Fault Refusal :=
  .next (request (.nvmSwitch q slot ok) 0x16 q [slot, 0, 0, 0] (decide (slot.toNat < 2)) mostStates
    (whenFree (.nvmSwitch q slot ok) (switchBody q slot ok)) s)

/-- NVM_LEASE_EXPIRE: the lease of a lock runs out while no session command runs (R636, R637). -/
def execNvmLeaseExpire (s : State) : Host.Outcome State Fault Refusal :=
  if s.nvm.locked ∧ s.nvm.busy = none then .next (releaseLock s) else .next s

/-- The body of an accepted flash command that waited. -/
def waitedBody : Instr → Option (Nat × MntReq × (State → Reply))
  | .nvmErase q slot sector count => some (0x13, q, eraseBody q slot sector count)
  | .nvmProgram q slot offset data => some (0x14, q, programBody q slot offset data)
  | .nvmVerify q slot => some (0x15, q, verifyBody q slot)
  | .nvmSwitch q slot ok => some (0x16, q, switchBody q slot ok)
  | _ => none

/-- The waiting flash commands run in order of acceptance until one runs in the background (R627). -/
def runWaiting : List Instr → State → State
  | [], s => { s with mnt := { s.mnt with sessWait := [] } }
  | i :: rest, s =>
    if s.nvm.busy.isSome then { s with mnt := { s.mnt with sessWait := i :: rest } }
    else
      match waitedBody i with
      | none => runWaiting rest s
      | some (op, q, body) => runWaiting rest (runAccepted op q true mostStates body s)

/-- The background command ends with an answer; the lease runs again from 5 s, and the next command starts. -/
def endSession (c : SessCmd) (status : Nat) (payload : List Byte) (s : State) : State :=
  let s := renew { s with nvm := { s.nvm with busy := none } }
  let s := finish c.op c.req (answerOf c.op status payload) s
  runWaiting s.mnt.sessWait s

/-- The erase or program in progress has ended well: what is left of the command (R639). -/
def nextSessOp (c : SessCmd) (s : State) : State :=
  let s := endFlashOp false s
  match c.todo with
  | .erase slot sector count =>
    let s := { s with nvm := { s.nvm with erased := satInc 32 s.nvm.erased } }
    if count ≤ 1 then endSession c 0 [] s
    else { s with nvm := { s.nvm with busy := some { c with todo := .erase slot (sector + 1) (count - 1) } } }
  | .program slot off data =>
    let s := { s with nvm := { s.nvm with programmed := satInc 32 s.nvm.programmed } }
    if data.length ≤ 256 then endSession c 0 [] s
    else { s with nvm := { s.nvm with busy := some { c with todo := .program slot (off + 256) (data.drop 256) } } }
  | .verify _ => s

/-- FLASH_OP_DONE: one sector erase or page program of a session command ends; `ok` is its readback and the
flash status (R639). -/
def execFlashOpDone (ok : Bool) (s : State) : Host.Outcome State Fault Refusal :=
  match s.nvm.busy with
  | none => .next s
  | some c =>
    match c.todo with
    | .verify _ => .next s
    | _ => if ok then .next (nextSessOp c s) else .next (endSession c 5 [] (report 0xA001 (endFlashOp true s)))

/-! ### OTP commands -/

/-- States of OTP_KEY, OTP_REVOKE and OTP_RECOVERY (Table 17.3). -/
def otpStates : List DevState := [.run, .hold, .safe]

/-- OTP bits that took: `want` bits are programmed where `took` has them; an unlike readback is OTP_FAIL (R643). -/
def otpReply (took : Bool) (s : State) : Reply :=
  if took then reply s 0 []
  else reply { s with sys := { s.sys with otpFail := satInc 32 s.sys.otpFail } } 0x0B []

/-- OTP_KEY runs: an empty slot, or one a failed write of the same digest left, takes the digest (R643). -/
def otpKeyBody (q : MntReq) (slot : Nat) (digest took : BitVec 256) : State → Reply :=
  session q fun t =>
    if h : slot < 4 then
      let old := t.otp.keys[slot]
      if old ≠ 0 ∧ t.otp.keyTodo[slot] ≠ some digest then reply (otpViolation t) 7 []
      else
        let new := old ||| (digest &&& took)
        otpReply (new == digest) { t with otp := { t.otp with
          keys := t.otp.keys.set slot new
          keyTodo := t.otp.keyTodo.set slot (if new = digest then none else some digest) } }
    else reply t 1 []

/-- Digest bytes as the OTP holds them: byte 0 in [7:0] (Table 16.8). -/
def otpDigest (d : BitVec 256) : BitVec 256 :=
  BitVec.ofNat 256 (ofLe (digestBytes d))

/-- OTP_KEY (R643); `took` says which bits the array took. -/
def execOtpKey (q : MntReq) (slot : BitVec 8) (digest took : BitVec 256) (s : State) :
    Host.Outcome State Fault Refusal :=
  .next (request (.otpKey q slot digest took) 0x20 q ([slot, 0, 0, 0] ++ digestBytes digest)
    (decide (slot.toNat < 4) && digest != 0) otpStates
    (otpKeyBody q slot.toNat (otpDigest digest) took) s)

/-- OTP_REVOKE (R643); `took` says whether the array took the bit. -/
def execOtpRevoke (q : MntReq) (slot : BitVec 8) (took : Bool) (s : State) : Host.Outcome State Fault Refusal :=
  .next (request (.otpRevoke q slot took) 0x21 q [slot, 0, 0, 0] (decide (slot.toNat < 4)) otpStates
    (session q fun t =>
      if t.img.valid ∧ t.img.keySlot = slot.toNat then reply t 0x0A []
      else if t.otp.revoke.getLsbD slot.toNat then reply (otpViolation t) 7 []
      else
        let b : BitVec 4 := if took then 1 <<< slot.toNat else 0
        otpReply took { t with otp := { t.otp with revoke := t.otp.revoke ||| b } }) s)

/-- OTP_ROLLBACK runs in RUN, HOLD and SAFE after an accepted image (Table 17.3). -/
def rollbackStates (s : State) : List DevState :=
  if s.sys.safeKind = .refusal then [.run, .hold] else [.run, .hold, .safe]

/-- OTP_ROLLBACK (R643); `took` says which bits the array took. -/
def execOtpRollback (q : MntReq) (value : BitVec 32) (took : BitVec 64) (s : State) :
    Host.Outcome State Fault Refusal :=
  .next (request (.otpRollback q value took) 0x22 q (le 4 value.toNat)
    (decide (1 ≤ value.toNat) && decide (value.toNat ≤ 64)) (rollbackStates s)
    (session q fun t =>
      if t.img.rollback < value.toNat then reply t 0x0A []
      else if value.toNat ≤ popcount 64 t.otp.rb then reply (otpViolation t) 7 []
      else
        let mask := BitVec.ofNat 64 (2 ^ value.toNat - 1)
        let new := t.otp.rb ||| (mask &&& took)
        let t' := { t with otp := { t.otp with rb := new } }
        if new &&& mask = mask then reply t' 0 (le 1 (popcount 64 new))
        else otpReply false t') s)

/-- A unicast address that is not its subnet's broadcast address (R643, Table 11.5; log entry 15). -/
def unicast (ip : Nat) (pfx : Nat) : Bool :=
  ip != 0 && ip / 2 ^ 24 != 127 && decide (ip < 0xE0000000) && ip % 2 ^ (32 - pfx) != 2 ^ (32 - pfx) - 1

/-- OTP_RECOVERY (R643); `took` says which of address, prefix and written bit the array took. The written bit follows an
address and prefix that read back right, so a repeat after a failure programs the bits still clear (log entry 21). -/
def execOtpRecovery (q : MntReq) (lane pfx : BitVec 8) (ip : BitVec 32) (took : BitVec 38) (s : State) :
    Host.Outcome State Fault Refusal :=
  .next (request (.otpRecovery q lane pfx ip took) 0x23 q ([lane, pfx, 0, 0] ++ be 4 ip.toNat)
    (decide (lane.toNat < 2) && decide (8 ≤ pfx.toNat) && decide (pfx.toNat ≤ 30) && unicast ip.toNat pfx.toNat)
    otpStates
    (session q fun t =>
      let k : Fin 2 := if lane.toNat = 0 then 0 else 1
      let old := t.otp.recov[k]
      if old.written then reply (otpViolation t) 7 []
      else
        let p5 := BitVec.ofNat 5 pfx.toNat
        let a := old.ip ||| (ip &&& took.extractLsb' 0 32)
        let b := old.pfx ||| (p5 &&& took.extractLsb' 32 5)
        let new : Recov := ⟨a, b, a == ip && b == p5 && took.getLsbD 37⟩
        otpReply new.written
          { t with otp := { t.otp with recov := t.otp.recov.set k new } }) s)

end Sys2Proof.Machine
end

