-- ==== Sys2Proof/Machine/LineTiming.lean ====
section
/-! DEFINITION. The line-timing unit: encoder decoding, line requests, the period limit, strobes and gates, the
drain, and what resets and states do to it (R129 to R160). The line trigger itself is in Trigger.lean. -/

namespace Sys2Proof.Machine

/-- The line-timing clock runs (R66). -/
def ltRuns (s : State) : Bool :=
  clocked s && !inState [.off, .sleep] s

/-- The device takes its triggers from its own encoder (R45). -/
def isMaster (s : State) : Bool :=
  s.star.encMaster && live s

/-- An edge with the new levels is forward under ENC_DIR (R130, Table 4.1). -/
def forward (dir onA a b : Bool) : Bool :=
  (if onA then a != b else a == b) != dir

/-- A line request is raised: it merges into a deferred one, or waits for its trigger, deferred when that would
fall within TL_MIN of the last (R134, R139, R140, R144). LT_DEFERRED and LT_MERGED count here, the device's own requests
alone (DEDUCED, log entry 22). -/
def raiseRequest (s : State) : State :=
  match s.lt.request with
  | some n =>
    { s with lt := { s.lt with request := some (n + 1), merged := satInc 32 s.lt.merged } }
  | none =>
    let early := match s.lt.lastTrig with
      | none => false
      | some t => decide (s.now + 2 < t + s.img.nat Fld.tlMin [])
    { s with lt := { s.lt with
      request := some 0
      clampDefer := early
      drainDefer := s.lt.drain
      deferred := if early then satInc 32 s.lt.deferred else s.lt.deferred } }

/-- One counted edge: the accumulator and the deficit of R134. -/
def countEdge (fwd : Bool) (s : State) : State :=
  if fwd = false then
    { s with lt := { s.lt with deficit := Nat.min (s.lt.deficit + 1) (2 ^ 32 - 1) } }
  else if 0 < s.lt.deficit then { s with lt := { s.lt with deficit := s.lt.deficit - 1 } }
  else
    let a := s.lt.acc + 0x100000
    let r := s.img.nat Fld.encRatio []
    if r ≤ a then raiseRequest { s with lt := { s.lt with acc := a - r } }
    else { s with lt := { s.lt with acc := a } }

/-- The filter accepts a level present in that many consecutive samples (R131). -/
def filterAccepts (samples : Nat) (s : State) : Bool :=
  ltRuns s && decide (s.img.nat Fld.encFilt [] ≤ samples)

/-- An illegal transition (R133). -/
def illegalTransition (s : State) : State :=
  { s with lt := { s.lt with encErr := satInc 32 s.lt.encErr, encErrSticky := true, encErrAt := some s.now } }

/-- ENC_EDGE: an input, or both on one sample, shows a new level for `samples` samples (R130 to R134). Only the
encoder master counts edges (R45). -/
def execEncEdge (inp : EncInput) (samples : Nat) (s : State) : Host.Outcome State Fault Refusal :=
  if filterAccepts samples s = false then .next s
  else
    let a := if inp = .b then s.lt.encA else !s.lt.encA
    let b := if inp = .a then s.lt.encB else !s.lt.encB
    let t := { s with lt := { s.lt with encA := a, encB := b } }
    if isMaster s = false then .next t
    else
      match inp with
      | .both => .next (illegalTransition t)
      | .a => .next (countEdge (forward (s.img.on Fld.encDir []) true a b) t)
      | .b => .next (countEdge (forward (s.img.on Fld.encDir []) false a b) t)

/-- ENCZ_EDGE: ENCZ shows a new level for `samples` samples; a rise marks the next line (R131, R138). -/
def execEnczEdge (samples : Nat) (s : State) : Host.Outcome State Fault Refusal :=
  if filterAccepts samples s = false then .next s
  else
    let t := { s with lt := { s.lt with encZ := !s.lt.encZ } }
    if s.lt.encZ ∨ s.img.on Fld.enczEn [] = false ∨ isMaster s = false then .next t
    else if s.lt.enczMark then .next { t with lt := { t.lt with enczExtra := satInc 32 t.lt.enczExtra } }
    else .next { t with lt := { t.lt with enczMark := true } }

/-- A slot of the line in progress may still open: enabled, in RUN or REPAIR, the line neither stopped nor past
its close. -/
def slotDue (k : Fin 4) (s : State) : Bool :=
  inState [.run, .repair] s && ltRuns s && s.img.on Fld.slotEn [k] && s.lt.lastTrig.isSome && !s.lt.stopped &&
    !s.lt.closes.getLsbD k

/-- One bit of a four-bit vector. -/
def bit4 (k : Fin 4) : BitVec 4 :=
  1#4 <<< k.val

/-- STB_ASSERT: STBk rises once per line (R153). -/
def execStbAssert (k : Fin 4) (s : State) : Host.Outcome State Fault Refusal :=
  if slotDue k s ∧ s.lt.pulsed.getLsbD k = false then
    .next { s with lt := { s.lt with stb := s.lt.stb ||| bit4 k, pulsed := s.lt.pulsed ||| bit4 k } }
  else .next s

/-- FIELD_GATE_OPEN: field Fk's transfer gates integrate (R154). -/
def execFieldGateOpen (k : Fin 4) (s : State) : Host.Outcome State Fault Refusal :=
  if slotDue k s then .next { s with lt := { s.lt with gates := s.lt.gates ||| bit4 k } } else .next s

/-- STB_DEASSERT: STBk falls (R153). -/
def execStbDeassert (k : Fin 4) (s : State) : Host.Outcome State Fault Refusal :=
  .next { s with lt := { s.lt with stb := s.lt.stb &&& ~~~bit4 k } }

/-- The accumulator and the deficit are zeroed, as at COMMIT and where the encoder master role changes hands
(R134, Edges of "Line triggers from the encoder"). A line request that waits is discarded with them (DEDUCED, log
entry 22: those Edges name the accumulator and the deficit alone). -/
def zeroAccumulator (s : State) : State :=
  { s with lt := { s.lt with acc := 0, deficit := 0, request := none, clampDefer := false, drainDefer := false } }

/-- What a reset leaves of the line-timing unit: input levels and the counters COMMIT zeroes (Table 18.6). -/
def ltReset (s : State) : State :=
  { s with lt := { Lt.reset with
    encA := s.lt.encA
    encB := s.lt.encB
    encZ := s.lt.encZ
    deferred := s.lt.deferred
    merged := s.lt.merged
    encErr := s.lt.encErr
    enczExtra := s.lt.enczExtra } }

/-- The line-timing unit at the COMMIT edge, from which the strobe pins are outputs (R134, R158, R160, R580). -/
def ltCommit (s : State) : State :=
  { s with lt := { Lt.reset with encA := s.lt.encA, encB := s.lt.encB, encZ := s.lt.encZ, stbOut := true } }

/-- HOLD: strobes and gates off (R655). -/
def ltHold (s : State) : State :=
  { s with lt := { s.lt with stb := 0, gates := 0 } }

/-- SLEEP: strobes low, nothing pending (R158, R657). -/
def ltSleep (s : State) : State :=
  { s with lt := { s.lt with
    stb := 0, gates := 0, request := none, clampDefer := false, drainDefer := false, ticks := []
    acc := 0, deficit := 0, enczMark := false } }

/-- A wake: the first trigger is a restart with drained rows (R145, R663). -/
def ltWake (s : State) : State :=
  { s with lt := { s.lt with restart := true, drained := true, drain := false } }

end Sys2Proof.Machine
end

