-- ==== Sys2Proof/Machine/Hkc.lean ====
section
/-! DEFINITION. The housekeeping converter: slices and their calibration, the scan and its checks, the reference, the
strobe integrator, injected conversions, and the thermal thresholds (R484 to R526, R672). -/

namespace Sys2Proof.Machine

/-- The HKC changes. -/
def onHkc (f : Hkc → Hkc) (s : State) : State :=
  { s with hkc := f s.hkc }

/-! ### Results -/

/-- The reference voltage in mV (R502, R505). -/
def vref (s : State) : Nat :=
  if s.hkc.refSel then s.img.nat Fld.vrefMv [] else 2048

/-- STATUS.REF_READY (R503). -/
def refReady (s : State) : Bool :=
  s.hkc.refEn && s.hkc.settled && !s.hkc.refFail

/-- A channel has the signed differential format (R495, Table 13.3). -/
def isDiff (s : State) (c : Nat) : Bool :=
  c == 27 || (decide (c < 12) && c % 2 == 0 && s.hkc.diff.getLsbD (c / 2))

/-- A slice by its number. -/
def sliceAt (s : State) (k : Nat) : Slice :=
  s.hkc.slice[(Fin.ofNat 3 k)]

/-- Sixteenths rounded to the nearest code, a tie away from zero (R497). -/
def roundCode (x : Int) : Int :=
  if 0 ≤ x then (x + 8) / 16 else -((8 - x) / 16)

/-- The result of a raw code of a slice: corrected, rounded and clipped to the format (R497). -/
def hkcResult (x : Slice) (diff : Bool) (raw : Int) : Int :=
  let y := if x.offset = 0 ∧ x.gain = 0 then 16 * raw else Config.trimmed raw x.offset x.gain
  if diff then clampInt (-2048) 2047 (roundCode y) else clampInt 0 4095 (roundCode y)

/-- A value the spec does not say how to round: the whole number below, or where it is not exact perhaps the one
above, a free value. -/
def openRound (num : Int) (den : Nat) (s : State) : Int × State :=
  if num.emod den = 0 then (num / den, s)
  else (num / den + bit (Config.mayTake s.freeCtr), bump s)

/-- A result is written to HKC.DATA (R499). -/
def writeResult (chan : Nat) (inj : Bool) (result : Int) (s : State) : State :=
  let over_ := s.hkc.data.valid
  let unsettled := !refReady s
  onHkc (fun h => { h with
    data := { result := result, chan := chan, inj := inj, unsettled := unsettled, ovr := over_
              slice := h.roleP, valid := true }
    ovr := if over_ then satInc 32 h.ovr else h.ovr }) s

/-! ### The scan -/

/-- The lowest enabled channel from `c` on; below `n` channels are left to look at. -/
def nextEnabled (mask : BitVec 32) : Nat → Nat → Option Nat
  | 0, _ => none
  | n + 1, c => if mask.getLsbD c then some c else nextEnabled mask n (c + 1)

/-- The lowest enabled channel. -/
def firstChan (mask : BitVec 32) : Nat :=
  (nextEnabled mask 32 0).getD 12

/-- A pass of the scan ends (R494, Table 13.7). -/
def endPass (s : State) : State :=
  onHkc (fun h => { h with
    passCount := satInc 32 h.passCount
    passMax := Nat.min (Nat.max h.passMax (5 * (s.now - h.passStart))) (2 ^ 24 - 1)
    passStart := s.now
    nextChan := firstChan h.scanMask }) s

/-- SCAN_CONVERSION: P converts the next enabled channel (R494, R497 to R499). -/
def execScanConversion (raw : Int) (s : State) : Host.Outcome State Fault Refusal :=
  if s.hkc.scanOn = false ∨ s.hkc.roleP = 3 ∨ s.hkc.refEn = false then .next s
  else
    let c := s.hkc.nextChan
    let s := writeResult c false (hkcResult (sliceAt s s.hkc.roleP) (isDiff s c) raw) s
    match nextEnabled s.hkc.scanMask (31 - c) (c + 1) with
    | some n => .next (onHkc (fun h => { h with nextChan := n }) s)
    | none => .next (endPass s)

/-! ### Checks on consumed results -/

/-- The domain of a rail is on, neither off nor in retention, in the order of Table 2.4: PIXA, PIXD and FAB follow the
data path, WREN is off in SAFE and in retention in SLEEP, SER is off in SLEEP. -/
def railOn (i : Fin 8) (s : State) : Bool :=
  match i.val with
  | 1 => !inState [.boot, .sleep, .safe] s
  | 2 => !inState [.boot, .sleep, .safe] s
  | 3 => !inState [.sleep, .safe] s
  | 4 => !inState [.sleep, .safe] s
  | 6 => !inState [.sleep] s
  | _ => true

/-- A result inside the window: after 16 in a row the rail is back and its DEGRADED ends (Edges of Table 3.2). -/
def railBack (i : Fin 8) (s : State) : State :=
  let s := onHkc (fun h => { h with rail := vmod h.rail i fun r => { r with outRun := 0, inRun := satInc 5 r.inRun } }) s
  if s.hkc.rail[i].out ∧ 16 ≤ s.hkc.rail[i].inRun then
    unstand (faultCode 0x31 i.val) (onHkc (fun h => { h with rail := vmod h.rail i fun r => { r with out := false } }) s)
  else s

/-- A result of a rail: its window; flagged results neither count nor break the run, and a domain that is off is not
compared (R500, Edges of "Domains on die"). -/
def checkRail (i : Fin 8) (code : Nat) (unsettled : Bool) (s : State) : State :=
  let (mv, s) := openRound ((2 * code * vref s : Nat) : Int) 4096 s
  let s := onHkc (fun h => { h with rail := vmod h.rail i fun r => { r with mv := mv.toNat } }) s
  if unsettled ∨ railOn i s = false then s
  else
    let x := 2 * code * vref s
    if s.img.nat Fld.railLo [i.val] * 4096 < x ∧ x < s.img.nat Fld.railHi [i.val] * 4096 then
      railBack i s
    else
      onHkc (fun h => { h with rail := vmod h.rail i fun r => { r with outRun := satInc 5 r.outRun, inRun := 0 } }) s

/-- A result of channel 12 against the reference, once the buffer has settled (R505). -/
def checkRef (code : Nat) (s : State) : State :=
  let s := onHkc (fun h => { h with refch := code }) s
  if s.hkc.settled = false then s
  else
    let d := ((code * vref s : Nat) : Int) - 1200 * 4096
    if s.img.nat Fld.refchTol [] * vref s ≤ d.natAbs then
      onHkc (fun h => { h with refOutRun := satInc 5 h.refOutRun, refInRun := 0 }) s
    else
      let s := onHkc (fun h => { h with refOutRun := 0, refInRun := satInc 5 h.refInRun }) s
      if s.hkc.refFail ∧ 16 ≤ s.hkc.refInRun then
        logOther 2 0x3003 [] (onHkc (fun h => { h with refFail := false }) s)
      else s

/-- A result of the ground channel checks P (R488). -/
def checkGround (x : Int) (s : State) : State :=
  onHkc (fun h => { h with
    gndRun := if s.img.nat Fld.gndTol [] < x.natAbs then satInc 5 h.gndRun else 0 }) s

/-- The median of the other five readings (R501). -/
def medianOthers (s : State) (j : Fin 6) : Int :=
  (sortAsc (((List.finRange 6).filter fun i => i ≠ j).map fun i => s.hkc.temp[i].value)).getD 2 0

/-- The stack temperature: the highest latest reading of the sensors not excluded (R501). -/
def stackTemp (s : State) : Int :=
  let l := ((List.finRange 6).map fun j => s.hkc.temp[j]).filter fun t => t.seen && !t.excluded
  match l with
  | [] => s.hkc.stack
  | t :: r => r.foldl (fun a t => max a t.value) t.value

/-- A temperature reading in 1/16 °C: 2.000 mV per kelvin (Table 13.3). -/
def readTemp (j : Fin 6) (code : Nat) (s : State) : State :=
  let (v, s) := openRound (((5 * code * vref s : Nat) : Int) - 11188224) 2560 s
  let s := onHkc (fun h => { h with temp := vmod h.temp j fun t => { t with value := v, seen := true } }) s
  onHkc (fun h => { h with stack := stackTemp s }) s

/-- A result of a temperature sensor: more than 8 °C off the median of the other five counts (R501). -/
def checkTemp (j : Fin 6) (code : Nat) (s : State) : State :=
  let s := readTemp j code s
  let all := (List.finRange 6).all fun i => s.hkc.temp[i].seen
  let off := all && decide (128 < (s.hkc.temp[j].value - medianOthers s j).natAbs)
  onHkc (fun h => { h with temp := vmod h.temp j fun t => { t with devRun := if off then satInc 5 t.devRun else 0 } }) s

/-- The sensor with the highest temperature among those not excluded (Table 18.7). -/
def hottest (s : State) : Nat :=
  ((List.finRange 6).foldl (fun (a : Option (Nat × Int)) j =>
    let t := s.hkc.temp[j]
    if t.excluded then a
    else
      match a with
      | none => some (j.val, t.value)
      | some (_, v) => if v < t.value then some (j.val, t.value) else a) none).elim 0 (·.1)

/-- DATA of a THERMAL record (Table 18.10). -/
def thermalData (s : State) (crossing : Nat) : List Byte :=
  le 2 (unsign 16 s.hkc.stack) ++ [BitVec.ofNat 8 (hottest s), BitVec.ofNat 8 crossing]

/-- A THERMAL record of a crossing. -/
def logThermal (crossing : Nat) (s : State) : State :=
  logOther 7 0 (thermalData s crossing) s

/-- The rated threshold of Table 18.7. -/
def rated (s : State) : State :=
  let t := s.hkc.stack
  if s.sys.ratedOver = false ∧ 55 * 16 < t then logThermal 1 { s with sys := { s.sys with ratedOver := true } }
  else if s.sys.ratedOver ∧ t ≤ 53 * 16 then logThermal 2 { s with sys := { s.sys with ratedOver := false } }
  else s

/-- The warning of Table 18.7: class 0x80 with the hottest sensor. -/
def warning (s : State) : State :=
  let t := s.hkc.stack
  if s.sys.warned = false ∧ 80 * 16 ≤ t then
    logThermal 3 (report (faultCode 0x80 (hottest s)) { s with sys := { s.sys with warned := true } })
  else if s.sys.warned ∧ t < 77 * 16 then logThermal 4 { s with sys := { s.sys with warned := false } }
  else s

/-- A scan pass has read every sensor: the thresholds of Table 18.7, and the run toward the trip (R672). -/
def thermalPass (s : State) : State :=
  let s := warning (rated s)
  { s with sys := { s.sys with tripRun := if 95 * 16 ≤ s.hkc.stack then satInc 3 s.sys.tripRun else 0 } }

/-- The checks on a result, by its channel (R500, R501, R505, R488). -/
def checkResult (d : HkcData) (s : State) : State :=
  let code := d.result.toNat
  if d.chan = 12 then checkRef code s
  else if h : 13 ≤ d.chan ∧ d.chan ≤ 20 then checkRail ⟨d.chan - 13, by omega⟩ code d.unsettled s
  else if d.inj then s
  else if h : 21 ≤ d.chan ∧ d.chan ≤ 26 then
    let s := checkTemp ⟨d.chan - 21, by omega⟩ code s
    if d.chan = 26 then thermalPass s else s
  else if d.chan = 27 then checkGround d.result s
  else s

/-- HKC_RESULT_CONSUME: VALID clears and the supervisor's checks see the result (R499, R523). -/
def execHkcResultConsume (s : State) : Host.Outcome State Fault Refusal :=
  if s.hkc.data.valid = false ∨ s.sys.supResetting ∨ s.sys.supHalted then .next s
  else
    let d := s.hkc.data
    .next (progressed .hkc (checkResult d (onHkc (fun h => { h with data := { h.data with valid := false } }) s)))

/-- RAIL_OUT_OF_WINDOW: 16 consecutive results outside the window (R500). -/
def execRailOutOfWindow (i : Fin 8) (s : State) : Host.Outcome State Fault Refusal :=
  let r := s.hkc.rail[i]
  if r.outRun < 16 ∨ r.out then .next s
  else
    let c := faultCode 0x31 i.val
    .next (stand c (report c (onHkc (fun h => { h with rail := vmod h.rail i fun r => { r with out := true } }) s)))

/-- SENSOR_EXCLUDE: 16 consecutive passes off the median (R501). -/
def execSensorExclude (j : Fin 6) (s : State) : Host.Outcome State Fault Refusal :=
  let t := s.hkc.temp[j]
  if t.devRun < 16 ∨ t.excluded then .next s
  else
    let s := onHkc (fun h => { h with temp := vmod h.temp j fun t => { t with excluded := true } }) s
    .next (report (faultCode 0x32 j.val) (onHkc (fun h => { h with stack := stackTemp s }) s))

/-! ### The reference -/

/-- The buffer is enabled on, or reselected to, a reference: it settles anew (R502, R503). -/
def selectRef (ext : Bool) (s : State) : State :=
  onHkc (fun h => { h with
    refEn := true, refSel := ext, settled := false, refFail := false, refOutRun := 0, refInRun := 0 }) s

/-- A reselection, when the reference in use is another (R502). -/
def reselectRef (ext : Bool) (s : State) : State :=
  if s.hkc.refSel = ext then s else selectRef ext s

/-- REF_SETTLED: REF_SETTLE_US have passed since the enable or reselection (R503). -/
def execRefSettled (s : State) : Host.Outcome State Fault Refusal :=
  if s.hkc.refEn then .next (onHkc (fun h => { h with settled := true }) s) else .next s

/-- REF_CHECK_FAIL: REF_READY becomes 0; with the integrator enabled the line in progress is flagged as well (R505,
R506). -/
def execRefCheckFail (s : State) : Host.Outcome State Fault Refusal :=
  if s.hkc.refOutRun < 16 ∨ s.hkc.refFail then .next s
  else
    let s := report 0x3003 (onHkc (fun h => { h with refFail := true, refInRun := 0 }) s)
    .next (if s.hkc.integEn then markLine s.lt.line (fun l => { l with refUnsettled := true }) s else s)

/-! ### Slices -/

/-- Slices in service, ascending. -/
def inService (s : State) : List Nat :=
  (List.range 3).filter fun k => (sliceAt s k).inService

/-- Slices in service or still to be calibrated at a reset or re-init. -/
def slicesLeft (s : State) : Nat :=
  (inService s).length + (3 - s.hkc.calDone)

/-- One slice changes. -/
def onSlice (k : Nat) (f : Slice → Slice) (s : State) : State :=
  onHkc (fun h => { h with slice := vmod h.slice (Fin.ofNat 3 k) f }) s

/-- A fault of the integrator input no longer stands, unless another cause of its code does. -/
def endInputFault (k : Nat) (s : State) : State :=
  if k = 0 ∧ (s.hkc.oneSlice ∨ s.hkc.slot[(0 : Fin 4)].sat) then s
  else unstand (faultCode 0x03 (0x80 + k)) s

/-- The roles after slice `k` has left: C takes P's place, Q that of C (R488, Table 13.1). -/
def rolesWithout (k : Nat) (h : Hkc) : Hkc :=
  if h.roleP = k then { h with roleP := h.roleC, roleC := h.roleQ, roleQ := 3, gndRun := 0 }
  else if h.roleC = k then { h with roleC := h.roleQ, roleQ := 3 }
  else if h.roleQ = k then { h with roleQ := 3 }
  else h

/-- Slice `k` leaves service: reported, and when one slice is left the integrator stops (R487, Edges of "The strobe
integrator"). -/
def leaveService (k : Nat) (s : State) : State :=
  let left := slicesLeft s
  let s := onHkc (rolesWithout k) (onSlice k (fun x => { x with inService := false, calibrated := false }) s)
  let s := onSlice s.hkc.roleC (fun x => if s.hkc.roleC = 3 then x else { x with calibrated := false }) s
  let s := report (faultCode 0x30 (k + 0x80 * bit (decide (left ≤ 2)))) s
  if left = 2 then
    stand 0x0380 (report 0x0380 (onHkc (fun h => { h with oneSlice := true, integOn := false, window := none }) s))
  else s

/-- A calibration passes (R486, Table 13.2). -/
def calPasses (c : CalRes) : Bool :=
  c.finished && decide (c.offRes.natAbs ≤ 32) && decide (c.gainRes.natAbs ≤ 100) && decide (c.skewRes.natAbs ≤ 50)
    && decide (c.offTrim.natAbs < 128) && decide (c.gainTrim.natAbs < 120) && decide (c.skewTrim.natAbs < 100)

/-- The end of a calibration cycle of slice `k` (R486, R487). -/
def endCycle (k : Nat) (c : CalRes) (s : State) : State :=
  if calPasses c then
    onHkc (fun h => { h with calPass := satInc 32 h.calPass })
      (onSlice k (fun x => { x with
        offset := c.offTrim, gain := c.gainTrim, skew := c.skewTrim, inService := true, calibrated := true }) s)
  else leaveService k (onHkc (fun h => { h with calFail := satInc 32 h.calFail }) s)

/-- The slices that pass take the roles of their mode (Table 13.1). -/
def assignRoles (s : State) : State :=
  let (p, q, c) := match inService s with
    | [a, b, c] => (a, b, c)
    | [a, b] => (a, 3, b)
    | [a] => (a, 3, 3)
    | _ => (3, 3, 3)
  let s := onHkc (fun h => { h with roleP := p, roleQ := q, roleC := c, gndRun := 0 }) s
  if c = 3 then s else onSlice c (fun x => { x with calibrated := false }) s

/-- One slice is calibrated at a reset or re-init; after the last the scan runs in the mode that the slices passing
allow (R491, R524). -/
def initSlice (c : CalRes) (s : State) : State :=
  let k := s.hkc.calDone
  if 3 ≤ k then s
  else
    let s := endCycle k c s
    let s := onHkc (fun h => { h with calDone := k + 1 }) s
    if k < 2 then s
    else
      onHkc (fun h => { h with scanOn := true, nextChan := firstChan h.scanMask, passStart := s.now }) (assignRoles s)

/-- CALIBRATION_DONE of the slice that calibrates: C, the one slice left, or at a reset the next slice (R486, R487,
R490, R491). -/
def execCalibrationDone (c : CalRes) (s : State) : Host.Outcome State Fault Refusal :=
  if reinitBusy .hkc s ∨ s.hkc.sleepScan ∨ s.hkc.refEn = false then .next s
  else if s.hkc.calDone < 3 then .next (initSlice c s)
  else
    let k := if s.hkc.roleC = 3 then s.hkc.roleP else s.hkc.roleC
    if k = 3 ∨ (s.hkc.roleC ≠ 3 ∧ (sliceAt s k).calibrated) then .next s else .next (endCycle k c s)

/-- ROTATION_TICK (R485). -/
def execRotationTick (s : State) : Host.Outcome State Fault Refusal :=
  if s.hkc.scanOn ∧ s.hkc.roleC ≠ 3 then .next (onHkc (fun h => { h with rotDue := true }) s) else .next s

/-- SLICE_ROLE_ROTATE: at the first instant with no window open; a C that has not finished its cycle has failed
(R485, Edges of "Slices, roles and calibration"). -/
def execSliceRoleRotate (s : State) : Host.Outcome State Fault Refusal :=
  if s.hkc.rotDue = false ∨ s.hkc.window.isSome then .next s
  else
    let s := onHkc (fun h => { h with rotDue := false }) s
    let c := s.hkc.roleC
    if c = 3 then .next s
    else if (sliceAt s c).calibrated = false then
      .next (leaveService c (onHkc (fun h => { h with calFail := satInc 32 h.calFail }) s))
    else
      let s := onHkc (fun h =>
        if h.roleQ = 3 then { h with roleP := h.roleC, roleC := h.roleP, gndRun := 0 }
        else { h with roleP := h.roleQ, roleQ := h.roleC, roleC := h.roleP, gndRun := 0 }) s
      .next (onSlice s.hkc.roleC (fun x => { x with calibrated := false }) s)

/-- GROUND_CHECK_FAIL: P is judged faulty and leaves service (R488). -/
def execGroundCheckFail (s : State) : Host.Outcome State Fault Refusal :=
  if s.hkc.gndRun < 16 ∨ s.hkc.roleP = 3 then .next s
  else .next (leaveService s.hkc.roleP (onHkc (fun h => { h with gndRun := 0 }) s))

/-! ### The strobe integrator -/

/-- The slot line `n` measures: the slots of INTEG_SLOTS in rotation (R508). -/
def measuredSlot (s : State) (n : Nat) : Option (Fin 4) :=
  let l := (List.finRange 4).filter fun k => s.hkc.integSlots.getLsbD k.val
  l[n % l.length]?

/-- INTEG_WINDOW_OPEN at the rise of the strobe the line measures (R507 to R509). -/
def execIntegWindowOpen (s : State) : Host.Outcome State Fault Refusal :=
  match measuredSlot s s.lt.line with
  | none => .next s
  | some k =>
    if s.hkc.integOn ∧ s.hkc.integEn ∧ inState [.commit, .run, .repair] s ∧ s.lt.stb.getLsbD k.val
        ∧ s.hkc.window.isNone then
      .next (onHkc (fun h => { h with window := some (k.val, s.now) }) s)
    else .next s

/-- The energy of tap samples (instant in 5 ns, signed result): each counts from its instant, the first from the
window's opening, to the next one's, the last to the close (R511). -/
def energyOf (close : Nat) : Nat → List (Nat × Int) → Int
  | _, [] => 0
  | start, [(_, v)] => v * (5 * ((close : Int) - start))
  | start, (_, v) :: (t, w) :: r => v * (5 * ((t : Int) - start)) + energyOf close t ((t, w) :: r)

/-- The slice that took a tap sample: Q on its 100 ns grid from the opening, else P (R510). -/
def tapSlice (s : State) (start t : Nat) : Slice :=
  if s.hkc.roleQ ≠ 3 ∧ (t - start) % 20 = 0 then sliceAt s s.hkc.roleQ else sliceAt s s.hkc.roleP

/-- Four consecutive energies in window end the light fault of slot `k` (R513). -/
def inWindow (k : Fin 4) (s : State) : State :=
  let m := s.hkc.slot[k]
  let n := satInc 3 m.inRun
  let over_ := m.out && decide (4 ≤ n)
  let s := onHkc (fun h => { h with
    slot := vmod h.slot k fun m => { m with outRun := 0, inRun := n, out := m.out && !over_ } }) s
  if over_ then unstand (faultCode 0x03 k.val) (unstand (faultCode 0x03 (k.val + 4)) s) else s

/-- The comparison of an energy with its window (R512, R513). -/
def compareEnergy (k : Fin 4) (e : Int) (s : State) : State :=
  let low := decide (e ≤ s.img.int Fld.eLo [k.val])
  let high := decide (s.img.int Fld.eHi [k.val] ≤ e)
  if low || high then
    onHkc (fun h => { h with
      outCount := satInc 32 h.outCount
      slot := vmod h.slot k fun m => { m with outRun := satInc 3 m.outRun, high := high, inRun := 0 } }) s
  else inWindow k s

/-- Saturated measurements of slot `k` (R514). -/
def countSaturation (k : Fin 4) (sat : Bool) (s : State) : State :=
  let m := s.hkc.slot[k]
  if sat then
    onHkc (fun h => { h with
      slot := vmod h.slot k fun m => { m with satRun := satInc 3 m.satRun, unsatRun := 0 } }) s
  else
    let n := satInc 3 m.unsatRun
    let ends := m.sat && decide (4 ≤ n)
    let s := onHkc (fun h => { h with
      slot := vmod h.slot k fun m => { m with satRun := 0, unsatRun := n, sat := m.sat && !ends } }) s
    if ends then endInputFault k.val s else s

/-- INTEG_WINDOW_CLOSE: `samples` are the tap samples (instant, raw code), `close` the window's close, in 5 ns; the
energy is kept, and compared while REF_READY is 1 (R509 to R515). -/
def execIntegWindowClose (samples : List (Nat × Int)) (close : Nat) (s : State) :
    Host.Outcome State Fault Refusal :=
  match s.hkc.window with
  | none => .next s
  | some (kk, start) =>
    let k : Fin 4 := Fin.ofNat 4 kk
    let s := onHkc (fun h => { h with window := none }) s
    if samples.isEmpty then .next s
    else
      let rs := samples.map fun x => (x.1, hkcResult (tapSlice s start x.1) true x.2)
      let e := energyOf close start rs
      let s := onHkc (fun h => { h with slot := vmod h.slot k fun m => { m with energy := satInt 32 e } }) s
      if refReady s = false then .next s
      else .next (countSaturation k (rs.any fun r => r.2 == -2048 || r.2 == 2047) (compareEnergy k e s))

/-- INTEG_OUT_OF_WINDOW: 4 consecutive out-of-window measurements of a slot (R512, R513). -/
def execIntegOutOfWindow (k : Fin 4) (s : State) : Host.Outcome State Fault Refusal :=
  let m := s.hkc.slot[k]
  if m.outRun < 4 ∨ m.out then .next s
  else
    let c := faultCode 0x03 (k.val + 4 * bit m.high)
    .next (stand c (report c (onHkc (fun h => { h with slot := vmod h.slot k fun m => { m with out := true } }) s)))

/-- INTEG_SATURATED: 4 consecutive saturated measurements of a slot (R514). -/
def execIntegSaturated (k : Fin 4) (s : State) : Host.Outcome State Fault Refusal :=
  let m := s.hkc.slot[k]
  if m.satRun < 4 ∨ m.sat then .next s
  else
    let c := faultCode 0x03 (0x80 + k.val)
    .next (stand c (report c (onHkc (fun h => { h with slot := vmod h.slot k fun m => { m with sat := true } }) s)))

/-! ### Injected conversions -/

/-- A request finds another waiting, or follows the last accepted PIN request too closely: dropped (R519). -/
def requestInjected (pin : Bool) (s : State) : State :=
  let close := pin && (match s.hkc.injPinAt with | none => false | some t => decide (s.now < t + us 10))
  if s.hkc.injPending.isSome ∨ close then onHkc (fun h => { h with injDrop := satInc 32 h.injDrop }) s
  else
    onHkc (fun h => { h with
      injPending := some (s.lt.line % 256), injPinAt := if pin then some s.now else h.injPinAt }) s

/-- INJECT_REQUEST: a line trigger's request, or a pin's accepted edge (R517 to R519, R549). -/
def execInjectRequest (src : InjSrc) (s : State) : Host.Outcome State Fault Refusal :=
  match src with
  | .line =>
    if s.lt.injWait then .next (requestInjected false { s with lt := { s.lt with injWait := false } }) else .next s
  | .pin =>
    if s.hkc.pinReq then .next (requestInjected true (onHkc (fun h => { h with pinReq := false }) s)) else .next s

/-- INJECTED_RESULT: the injected conversion on P ends (R518, R520). -/
def execInjectedResult (raw : Int) (s : State) : Host.Outcome State Fault Refusal :=
  match s.hkc.injPending with
  | none => .next s
  | some n =>
    if s.hkc.scanOn = false ∨ s.hkc.roleP = 3 then .next s
    else
      let c := s.img.nat Fld.injCh []
      let x := hkcResult (sliceAt s s.hkc.roleP) (isDiff s c) raw
      .next (onHkc (fun h => { h with injPending := none, injResult := x, injLine := n, injChan := c })
        (writeResult c true x s))

/-! ### SLEEP, COMMIT, resets, re-init -/

/-- SLEEP_SCAN: the six sensors on one slice, and the trip in hardware (R521, R522); `codes` are the raw codes. -/
def execSleepScan (codes : List Int) (s : State) : Host.Outcome State Fault Refusal :=
  if s.hkc.sleepScan = false then .next s
  else
    let k := (inService s).headD 0
    let s := (List.finRange 6).foldl (fun t j =>
      match codes[j.val]? with
      | none => t
      | some raw => readTemp j (hkcResult (sliceAt t k) false raw).toNat t) s
    .next { s with sys := { s.sys with tripRun := if 95 * 16 ≤ s.hkc.stack then 4 else 0 } }

/-- No window, run or request is under way. -/
def quiet (h : Hkc) : Hkc :=
  { h with
    integOn := false, injOn := false, window := none, injPending := none, injPinAt := none, pinReq := false
    rotDue := false
    slot := h.slot.map fun m => { m with outRun := 0, inRun := 0, satRun := 0, unsatRun := 0 } }

/-- The integrator and injection run where the image enables them (R507, R517, R521). -/
def integStart (s : State) : State :=
  onHkc (fun h => { h with
    integOn := h.integEn && decide (2 ≤ (inService s).length), injOn := s.img.nat Fld.injSrc [] != 0 }) s

/-- What a reset leaves of the HKC: the reference back on the bandgap, every slice to be calibrated again, the last
readings and the counters (R491, R502, Table 18.6). -/
def hkcReset (s : State) : State :=
  onHkc (fun h => { Hkc.reset with
    settled := h.settled && !h.refSel
    slice := h.slice.map fun x => { x with inService := false, calibrated := false }
    data := h.data
    ovr := h.ovr
    passCount := h.passCount
    passMax := h.passMax
    injResult := h.injResult
    injLine := h.injLine
    injChan := h.injChan
    injDrop := h.injDrop
    calPass := h.calPass
    calFail := h.calFail
    outCount := h.outCount
    slot := h.slot.map fun m => { SlotMon.reset with energy := m.energy }
    rail := h.rail.map fun r => { RailMon.reset with mv := r.mv }
    temp := h.temp.map fun t => { TempMon.reset with value := t.value }
    stack := h.stack
    refch := h.refch }) s

/-- The COMMIT edge: counters zeroed and the image's settings in force; in SAFE after an accepted image the
integrator and injection stay off (R502, R521, R526, R580). -/
def hkcCommit (s : State) : State :=
  let s := onHkc (fun h => { quiet h with
    ovr := 0
    passCount := 0
    passMax := 0
    passStart := s.now
    injResult := 0
    injLine := 0
    injChan := 0
    injDrop := 0
    calPass := 0
    calFail := 0
    outCount := 0
    slot := Vector.replicate 4 SlotMon.reset
    rail := Vector.replicate 8 RailMon.reset
    temp := h.temp.map fun t => { t with value := 0, seen := false }
    scanMask := BitVec.ofNat 32 (s.img.nat Fld.scanMask [])
    nextChan := firstChan (BitVec.ofNat 32 (s.img.nat Fld.scanMask []))
    diff := BitVec.ofNat 6 (s.img.nat Fld.diff [])
    align := s.img.on Fld.align []
    integEn := s.img.on Fld.integEn []
    integSlots := BitVec.ofNat 4 (s.img.nat Fld.integSlots []) }) s
  let s := reselectRef (s.img.on Fld.refSel []) s
  if s.sys.safeKind = .none then integStart s else s

/-- SAFE after a refusal: the internal reference and the channels of BOOT (R521). -/
def hkcSafe (s : State) : State :=
  reselectRef false (onHkc (fun h => { quiet h with
    scanMask := Hkc.reset.scanMask, diff := 0, align := false, integEn := false, integSlots := 0 }) s)

/-- SLEEP: the sensors only, on the bandgap; runs in progress are discarded (R521, Edges of "The HKC across
states"). -/
def hkcSleep (s : State) : State :=
  reselectRef false (onHkc (fun h => { quiet h with scanOn := false, sleepScan := true }) s)

/-- A wake: the image's settings again (R521). -/
def hkcWake (s : State) : State :=
  let s := onHkc (fun h => { h with
    sleepScan := false, scanOn := decide (h.calDone = 3), nextChan := firstChan h.scanMask, passStart := s.now }) s
  integStart (reselectRef (s.img.on Fld.refSel []) s)

/-- An HKC re-init starts: scan, integrator and injection stop, the buffer is disabled (R524). -/
def reinitStartHkc (s : State) : State :=
  onHkc (fun h => { quiet h with
    scanOn := false, refEn := false, settled := false, roleP := 3, roleQ := 3, roleC := 3, calDone := 0
    slice := h.slice.map fun x => { x with inService := false, calibrated := false } }) s

/-- A calibration that did not end in time. -/
def CalRes.unfinished : CalRes :=
  ⟨0, 0, 0, 0, 0, 0, false⟩

/-- An HKC re-init ends: the buffer under REF_SEL, the three slices calibrated, and the mode they allow (R491, R524);
two slices in service end the fault of one (Edges of "The strobe integrator"). -/
def reinitEndHkc (cal : List CalRes) (s : State) : State :=
  let ext := s.hkc.refSel
  let s := selectRef ext (onHkc (fun h => { h with oneSlice := false }) s)
  let s := (List.range 3).foldl (fun t i => initSlice (cal.getD i CalRes.unfinished) t) s
  let s := if s.hkc.oneSlice then s else endInputFault 0 s
  if live s ∨ s.sys.code = .commit then integStart s else s

end Sys2Proof.Machine
end

