-- ==== Sys2Proof/Machine/Float.lean ====
section
/-! DEFINITION. Floating point as the Finch computes it: the encodings of Table 9.2, exact values, rounding to
nearest even, and the sums of R338 to R342 and R345. -/

namespace Sys2Proof.Machine

/-- A floating-point value: `(-1)^neg × m × 2^e`, an infinity, or a NaN. -/
inductive FVal where
  | num (neg : Bool) (m : Nat) (e : Int)
  | inf (neg : Bool)
  | nan
  deriving DecidableEq, Repr

/-- The value is a NaN. -/
def FVal.isNan : FVal → Bool
  | .nan => true
  | _ => false

/-- The value is an infinity of the given sign. -/
def FVal.isInf (s : Bool) : FVal → Bool
  | .inf n => n == s
  | _ => false

/-- The value is neither a NaN nor an infinity. -/
def FVal.isFinite : FVal → Bool
  | .num _ _ _ => true
  | _ => false

/-- The value is a zero. -/
def FVal.isZero : FVal → Bool
  | .num _ m _ => m = 0
  | _ => false

/-- The value with its sign changed. -/
def FVal.neg : FVal → FVal
  | .num n m e => .num (!n) m e
  | .inf n => .inf (!n)
  | .nan => .nan

/-- Exponent of the leading bit of a magnitude `m × 2^e`, `m` positive. -/
def leadExp (m : Nat) (e : Int) : Int :=
  (Nat.log2 m : Int) + e

/-- A signed value as an integer multiple of `2^q`, `q` at most its exponent. -/
def scaled (q : Int) : FVal → Int
  | .num n m e => (if n then -1 else 1) * ((m * 2 ^ (e - q).toNat : Nat) : Int)
  | _ => 0

/-! ### Encodings -/

/-- A finite value with `eb` exponent and `mb` fraction bits, bias `bias`; subnormals keep their value. -/
def decodeFin (mb bias : Nat) (neg : Bool) (ex fr : Nat) : FVal :=
  if ex = 0 then .num neg fr (1 - (bias : Int) - mb)
  else .num neg (2 ^ mb + fr) ((ex : Int) - bias - mb)

/-- E4M3 (Table 9.2). -/
def decodeE4M3 (x : Nat) : FVal :=
  if bits x 0 7 = 0x7F then .nan else decodeFin 3 7 (x.testBit 7) (bits x 3 4) (bits x 0 3)

/-- E5M2 (Table 9.2). -/
def decodeE5M2 (x : Nat) : FVal :=
  if bits x 2 5 = 31 then if bits x 0 2 = 0 then .inf (x.testBit 7) else .nan
  else decodeFin 2 15 (x.testBit 7) (bits x 2 5) (bits x 0 2)

/-- bf16, a subnormal read as zero (R334). -/
def decodeBf16 (x : Nat) : FVal :=
  if bits x 7 8 = 255 then if bits x 0 7 = 0 then .inf (x.testBit 15) else .nan
  else if bits x 7 8 = 0 then .num (x.testBit 15) 0 0
  else decodeFin 7 127 (x.testBit 15) (bits x 7 8) (bits x 0 7)

/-- fp32 (Table 9.1). -/
def decodeFp32 (x : Nat) : FVal :=
  if bits x 23 8 = 255 then if bits x 0 23 = 0 then .inf (x.testBit 31) else .nan
  else decodeFin 23 127 (x.testBit 31) (bits x 23 8) (bits x 0 23)

/-! ### Rounding -/

/-- `m × 2^e` rounded to a multiple of `2^q`, nearest, ties to even: the multiple. -/
def roundTo (m : Nat) (e q : Int) : Nat :=
  if q ≤ e then m * 2 ^ (e - q).toNat else (divNearestEven m (2 ^ (q - e).toNat)).toNat

/-- A magnitude rounded to `p` significant bits, as a significand of exactly `p` bits and its exponent. -/
def roundSig (p m : Nat) (e : Int) : Nat × Int :=
  let q := leadExp m e + 1 - p
  let k := roundTo m e q
  if k = 2 ^ p then (2 ^ (p - 1), q + 1) else (k, q)

/-- A magnitude in a format of `p` significant bits and exponent range of binary32, under R340: exponent field and
fraction, or none for an overflow; zero below 2^-126. -/
def encodeMag (p m : Nat) (e : Int) : Option (Nat × Nat) :=
  let (k, q) := roundSig p m e
  let ex := q + p - 1 + 127
  if ex < 1 then some (0, 0) else if 254 < ex then none else some (ex.toNat, k - 2 ^ (p - 1))

/-- fp32 bits of a value (R340, R341); `z` is the sign of an exact zero. -/
def encodeFp32 (z : Bool) : FVal → Nat
  | .nan => 0x7FC00000
  | .inf n => bit n * 2 ^ 31 + 255 * 2 ^ 23
  | .num n m e =>
    if m = 0 then bit z * 2 ^ 31
    else match encodeMag 24 m e with
      | some (ex, fr) => bit n * 2 ^ 31 + ex * 2 ^ 23 + fr
      | none => bit n * 2 ^ 31 + 255 * 2 ^ 23

/-- bf16 bits of a value (R340 to R342). -/
def encodeBf16 (z : Bool) : FVal → Nat
  | .nan => 0x7FC0
  | .inf n => bit n * 2 ^ 15 + 255 * 2 ^ 7
  | .num n m e =>
    if m = 0 then bit z * 2 ^ 15
    else match encodeMag 8 m e with
      | some (ex, fr) => bit n * 2 ^ 15 + ex * 2 ^ 7 + fr
      | none => bit n * 2 ^ 15 + 255 * 2 ^ 7

/-- A value rounded into an 8-bit format of `mb` fraction bits and bias `bias` whose largest finite code is
`top`: code and whether it saturated (R345). -/
def encode8 (mb bias top nanCode : Nat) : FVal → Nat × Bool
  | .nan => (nanCode, false)
  | .inf n => (128 * bit n + top, true)
  | .num n m e =>
    if m = 0 then (128 * bit n, false)
    else
      let q := max (leadExp m e - mb) (1 - (bias : Int) - mb)
      let k := roundTo m e q
      let sub := q = 1 - (bias : Int) - mb
      let code := if sub then k else ((q + mb + bias).toNat - 1) * 2 ^ mb + k
      if top < code then (128 * bit n + top, true) else (128 * bit n + code, false)

/-! ### Sums and comparisons -/

/-- The least exponent of a list of finite values. -/
def minExp : List FVal → Int
  | [] => 0
  | [.num _ _ e] => e
  | .num _ _ e :: r => min e (minExp r)
  | _ :: r => minExp r

/-- The exact sum of finite values. -/
def exactSum (l : List FVal) : FVal :=
  let q := minExp l
  let t := (l.map (scaled q)).sum
  .num (decide (t < 0)) t.natAbs q

/-- What specials a list holds decide (R341): a NaN, an infinity, or none. -/
def specialOf (l : List FVal) : Option FVal :=
  if l.any FVal.isNan ∨ (l.any (FVal.isInf true) ∧ l.any (FVal.isInf false)) then some .nan
  else if l.any (FVal.isInf true) then some (.inf true)
  else if l.any (FVal.isInf false) then some (.inf false)
  else none

/-- The product of two values: exact, a NaN for zero times infinity (R338, R341). -/
def fmul : FVal → FVal → FVal
  | .nan, _ => .nan
  | _, .nan => .nan
  | .inf a, .inf b => .inf (a != b)
  | .inf a, .num b m _ => if m = 0 then .nan else .inf (a != b)
  | .num a m _, .inf b => if m = 0 then .nan else .inf (a != b)
  | .num a m e, .num b n f => .num (a != b) (m * n) (e + f)

/-- The sum of two values, exact when finite. -/
def fadd (x y : FVal) : FVal :=
  match specialOf [x, y] with
  | some v => v
  | none => exactSum [x, y]

/-- The order of two values, none with a NaN (R342). -/
def fcmp (x y : FVal) : Option Ordering :=
  match x, y with
  | .nan, _ => none
  | _, .nan => none
  | .inf a, .inf b => some (if a = b then .eq else if a then .lt else .gt)
  | .inf a, _ => some (if a then .lt else .gt)
  | _, .inf b => some (if b then .gt else .lt)
  | x, y =>
    let q := minExp [x, y]
    some (compare (scaled q x) (scaled q y))

/-- One product truncated toward minus infinity to a multiple of `2^q` (R338). -/
def truncTo (q : Int) : FVal → Int
  | .num n m e =>
    let v : Int := (if n then -1 else 1) * (m : Int)
    if q ≤ e then v * 2 ^ (e - q).toNat else v.fdiv (2 ^ (q - e).toNat)
  | _ => 0

/-- The sum s of the products of one issue (R338). -/
def truncSum (ps : List FVal) : FVal :=
  match ps.filter (fun p => !p.isZero) with
  | [] => .num false 0 0
  | p :: r =>
    let lead := fun (v : FVal) => match v with
      | .num _ m e => leadExp m e
      | _ => 0
    let q := r.foldl (fun a v => max a (lead v)) (lead p) - 26
    let t := (ps.map (truncTo q)).sum
    .num (decide (t < 0)) t.natAbs q

/-- One fp32 accumulator lane after an issue (R338, R340, R341). With every product zero a finite accumulator
stays (R350), but a subnormal one is written as the zero of its sign (R340). -/
def faccumulate (trunc : Bool) (acc : Nat) (ps : List FVal) : Nat :=
  let a := decodeFp32 acc
  match specialOf (a :: ps) with
  | some v => encodeFp32 false v
  | none =>
    if ps.all FVal.isZero then if bits acc 23 8 = 0 then 2 ^ 31 * bits acc 31 1 else acc
    else encodeFp32 (Config.zeroSign acc acc) (fadd a (if trunc then truncSum ps else exactSum ps))

/-- fp32 bits of a sum of two fp32 lanes (R342). -/
def addFp32 (a b : Nat) : Nat :=
  encodeFp32 (Config.zeroSign a b) (fadd (decodeFp32 a) (decodeFp32 b))

/-- The fixed tree of RED on fp32 over 16 lanes (R342). -/
def redTree (l : List Nat) : Nat :=
  let x := fun i => l.getD i 0
  let half := fun o => addFp32 (addFp32 (addFp32 (x o) (x (o + 1))) (addFp32 (x (o + 2)) (x (o + 3))))
    (addFp32 (addFp32 (x (o + 4)) (x (o + 5))) (addFp32 (x (o + 6)) (x (o + 7))))
  addFp32 (half 0) (half 8)

/-- fp32 bits are a NaN or an infinity. -/
def special32 (x : Nat) : Bool :=
  bits x 23 8 = 255

/-- bf16 bits are a NaN or an infinity. -/
def special16 (x : Nat) : Bool :=
  bits x 7 8 = 255

end Sys2Proof.Machine
end

