-- ==== Sys2Proof/Machine/Pixel.lean ====
section
/-! DEFINITION. The Cope die and the Ladle: gate closes and stage cuts, conversions and the rotating shadow,
registration, correction, the adaptive flat field, row ingress and the history (R98 to R103, R161 to R203). -/

namespace Sys2Proof.Machine

/-! ### Columns, fields and perches -/

/-- Physical column that serves a logical column (the column map of R249). -/
def physCol (s : State) (c : Nat) : Nat :=
  match s.fab.bypass with
  | none => c
  | some b => if c < b then c else c + 1

/-- Physical perch of a logical row and column. -/
def perchAt (s : State) (r c : Nat) : Fin 72 :=
  Fin.ofNat 72 (9 * r + physCol s c)

/-- Logical column of a physical perch, none for a bypassed or spare one. -/
def logCol (s : State) (p : Fin 72) : Option Nat :=
  let k := p.val % 9
  match s.fab.bypass with
  | none => if k < 8 then some k else none
  | some b => if k < b then some k else if k = b then none else some (k - 1)

/-- Row of a perch. -/
def rowOf (p : Fin 72) : Nat :=
  p.val / 9

/-- A bit per field. -/
def fieldBits (l : List (Fin 4)) : BitVec 4 :=
  l.foldl (fun x k => x ||| bit4 k) 0

/-- The enabled fields that are not lost. -/
def deliveringFields (s : State) : List (Fin 4) :=
  s.img.slots.filter fun k => !s.pix.fieldLost.getLsbD k

/-! ### Charge -/

/-- A line trigger shifts the charge of every field by one row toward its readout row 32k; the rows beyond the stages in
use are held drained (R161, R163). -/
def shiftCharge (s : State) : State :=
  { s with pix := { s.pix with charge := Vector.ofFn fun i : Fin 128 =>
    if i.val % 32 + 1 < s.pix.stages[i.val / 32]'(by omega) then s.pix.charge.toList.getD (i.val + 1) 0 else 0 } }

/-- The rows in use of a field integrate one slot window (R163, R164). -/
def expose (k : Fin 4) (s : State) : State :=
  { s with pix := { s.pix with charge := Vector.ofFn fun i : Fin 128 =>
    if i.val / 32 = k.val ∧ i.val % 32 < s.pix.stages[k] then s.pix.charge[i] + 1 else s.pix.charge[i] } }

/-- Every row of every field is drained (R143, R165). -/
def drainRows (s : State) : State :=
  { s with pix := { s.pix with charge := Vector.replicate 128 0 } }

/-- STOPPED's drain of every TDI row is over (R143, R165). -/
def endDrain (s : State) : State :=
  drainRows { s with lt := { s.lt with drain := false, drained := true } }

/-- DRAIN_COMPLETE: the charge of every TDI row is drained (R143, R165). -/
def execDrainComplete (s : State) : Host.Outcome State Fault Refusal :=
  if s.lt.drain ∧ ltRuns s then .next (endDrain s) else .next s

/-! ### Gate closes and stage cuts -/

/-- Code of class 0x02 for a row of a field (Table 3.1). -/
def rowCode (k : Fin 4) (row : Nat) (whole : Bool) : BitVec 16 :=
  faultCode 0x02 (row + 32 * bit whole + 64 * k.val)

/-- The readback finds a failed row: reported once; within the stages in use the field is cut to the rows
before it, or lost, from the next line onward (R101). Row 0 is at the readout. -/
def failRow (k : Fin 4) (row : Fin 32) (s : State) : State :=
  if s.pix.badRows.contains (32 * k.val + row.val) then s
  else
    let s := { s with pix := { s.pix with badRows := (32 * k.val + row.val) :: s.pix.badRows } }
    let cut := decide (row.val < s.pix.stages[k])
    let lost := cut && row.val = 0
    let code := rowCode k row.val lost
    let s := report code s
    if cut = false then s
    else
      stand code { s with pix := { s.pix with
        stages := s.pix.stages.set k row.val
        fieldLost := if lost then s.pix.fieldLost ||| bit4 k else s.pix.fieldLost
        lostAt := if lost then s.pix.lostAt.set k (some s.lt.line) else s.pix.lostAt } }

/-- FIELD_GATE_CLOSE: field Fk's gates close and its conversion starts; the last enabled close is E(n) (R55,
R56); `badRows` is what the transfer-gate readback finds, which cuts the field from the next line on (R101). -/
def execFieldGateClose (k : Fin 4) (badRows : List (Fin 32)) (s : State) : Host.Outcome State Fault Refusal :=
  if s.lt.gates.getLsbD k = false ∨ ltRuns s = false then .next s
  else
    let closes := s.lt.closes ||| bit4 k
    let last := closes == fieldBits s.img.slots
    let lost := s.pix.fieldLost.getLsbD k
    let s := expose k { s with
      lt := { s.lt with
        gates := s.lt.gates &&& ~~~bit4 k
        closes := closes
        eTime := if last then some s.now else s.lt.eTime }
      pix := { s.pix with
        closed := s.pix.closed.set k (if lost then none else some s.lt.line)
        closedStages := s.pix.closedStages.set k s.pix.stages[k] } }
    let s := if last then markLine s.lt.line (fun l => { l with exposed := true }) s else s
    .next (badRows.foldl (fun t r => failRow k r t) s)

/-! ### Conversions and the rotating shadow -/

/-- The shadow of a group rotates: neither faulty nor substituting (R100). -/
def rotates (s : State) (g : Fin 128) : Bool :=
  !s.pix.subst[g].shadowFault && !s.pix.subst[g].valid

/-- The groups a rotating shadow visits in turn: its own, the West neighbour that lost its rotation, and group
127 for the shadow of group 126 (R100). -/
def visits (s : State) (g : Fin 128) : List (Fin 128) :=
  let west : Fin 128 := g - 1
  [g] ++ (if 0 < g.val && !rotates s west then [west] else [])
    ++ (if g.val = 126 && !rotates s 127 then [127] else [])

/-- The active column a rotating shadow converts in this line: the suspect again in the line after its
mismatch, else the next of its rotation (R98, R99). -/
def visited (s : State) (g : Fin 128) : Nat :=
  let w := s.pix.shadow[g]
  match w.suspect, w.agreed with
  | some k, 0 => k
  | _, _ => 64 * ((visits s g).getD w.turn g).val + w.pos % 64

/-- The rotation moves on: each group visited has its column checked before the next column. -/
def advance (n : Nat) (w : Shadow) : Shadow :=
  if w.turn + 1 < n then { w with turn := w.turn + 1 } else { w with turn := 0, pos := (w.pos + 1) % 64 }

/-- Group of an active column. -/
def groupOf (col : Nat) : Fin 128 :=
  Fin.ofNat 128 (col / 64)

/-- A column's converter was judged faulty before and has no substitute. -/
def isLost (s : State) (col : Nat) : Bool :=
  s.pix.lostConv.contains (col / 64, col % 64)

/-- The active conversions of a field with the substituting shadows' values in place (R99, R169). A substitution is
judged when the last conversion of line L + 2 has been compared, so the next one it meets is of line L + 3. -/
def substituted (s : State) (px sh : List Nat) : List Nat :=
  (List.finRange 128).foldl
    (fun l g => if s.pix.subst[g].valid then l.set (32 + 64 * g.val + s.pix.subst[g].column) (sh.getD g.val 0) else l) px

/-- The groups whose rotating shadow differs from the visited column by more than 6 LSB (R98). -/
def mismatches (s : State) (px sh : List Nat) : List Nat :=
  ((List.finRange 128).filter fun g =>
    let col := visited s g
    let x := px.getD (32 + col) 0
    let y := sh.getD g.val 0
    rotates s g && !isLost s col && (decide (x + 6 < y) || decide (y + 6 < x))).map (·.val)

/-- A SUBST log record and a map snapshot follow a change of a group's map entry (R169, Table 18.10). -/
def logSubst (g : Fin 128) (s : State) : State :=
  wantSnapshot (logOther 4 0 (le 4 (substBits s.pix.subst[g]) ++ le 1 g.val) s)

/-- The neighbour whose shadow takes over a group's rotation (R100). -/
def coveredBy (g : Fin 128) : Fin 128 :=
  if g.val = 127 then 126 else g + 1

/-- A group's own rotation ends; SHARED shows on both groups (Edges of "Column conversion"). -/
def shareShadow (g : Fin 128) (s : State) : State :=
  { s with pix := { s.pix with
    subst := vmod (vmod s.pix.subst g fun x => { x with shared := true }) (coveredBy g)
      fun x => { x with shared := true }
    shadow := vmod s.pix.shadow g fun w => { w with suspect := none, agreed := 0 } } }

/-- A converter fault shows DEGRADED on lines L_det to L_det + 2 (Table 3.1). -/
def flagDetection (s : State) : State :=
  markLine s.lt.line (fun l => { l with degraded := true }) { s with pix := { s.pix with degLeft := 2 } }

/-- A shadow is judged faulty (R99). -/
def judgeShadow (g : Fin 128) (s : State) : State :=
  let s := report (faultCode 0x01 (128 + g.val)) s
  let s := { s with pix := { s.pix with
    subst := vmod s.pix.subst g fun x => { x with shadowFault := true } } }
  flagDetection (logSubst g (shareShadow g s))

/-- A column's converter is judged faulty by shadow `h`: substituted by its group's own shadow while that only
serves its group, otherwise detected and not substituted (R99, R120, Table 3.2). -/
def judgeColumn (h : Fin 128) (col : Nat) (s : State) : State :=
  let g := groupOf col
  let c := col % 64
  if s.pix.subst[g].valid ∧ s.pix.subst[g].column = c then
    let t := judgeShadow g s
    { t with pix := { t.pix with lostConv := (g.val, c) :: t.pix.lostConv } }
  else
    let alone := (visits s h).length = 1
    let s := flagDetection (report (faultCode 0x01 g.val) s)
    if h = g ∧ alone then
      let s := { s with pix := { s.pix with
        substCount := satInc 32 s.pix.substCount
        subst := vmod s.pix.subst g fun x => { x with column := c, valid := true } } }
      logSubst g (shareShadow g s)
    else
      stand (faultCode 0x01 g.val) { s with pix := { s.pix with lostConv := (g.val, c) :: s.pix.lostConv } }

/-- One rotating shadow at the end of a line's comparisons (R98, R99). -/
def stepShadow (s : State) (g : Fin 128) : State :=
  if rotates s g = false then s
  else
    let bad := s.pix.mismatch.contains g.val
    let n := (visits s g).length
    let col := visited s g
    let w := s.pix.shadow[g]
    let put := fun (w : Shadow) => { s with pix := { s.pix with shadow := s.pix.shadow.set g w } }
    match w.suspect, w.agreed with
    | none, _ =>
      if bad then put { (advance n w) with suspect := some col, agreed := 0 } else put (advance n w)
    | some _, 0 => put { w with agreed := if bad then 1 else 2 }
    | some k, m =>
      if bad = false then judgeColumn g k (put { (advance n w) with suspect := none, agreed := 0 })
      else if m = 1 then judgeShadow g (put { (advance n w) with suspect := none, agreed := 0 })
      else put { (advance n w) with suspect := some col, agreed := 0 }

/-- The shadow rotation steps once every field of the line has been compared (R98). -/
def stepShadows (s : State) : State :=
  let t := (List.finRange 128).foldl stepShadow s
  { t with pix := { t.pix with mismatch := [] } }

/-- Every slot of line `n` has closed and no conversion of it is due (R56, R167). -/
def lineConverted (n : Nat) (s : State) : Bool :=
  (decide (s.lt.line ≠ n) || s.lt.closes == fieldBits s.img.slots) &&
    (List.finRange 4).all fun k => decide (s.pix.closed[k] ≠ some n)

/-- CONVERSION_COMPLETE: the 8,256 conversions of the field's closed slot and the shadow conversions arrive; they
join the registration buffer (R56, R98, R167, R177). Samples go missing during a PIXEL re-init (R178). -/
def execConversionComplete (k : Fin 4) (px shadow : List (BitVec 12)) (s : State) :
    Host.Outcome State Fault Refusal :=
  match s.pix.closed[k] with
  | none => .next s
  | some n =>
    if clocked s = false then .next s
    else
      let s := { s with pix := { s.pix with closed := s.pix.closed.set k none } }
      if reinitBusy .pixel s then .next s
      else
        let x := px.map (·.toNat)
        let sh := shadow.map (·.toNat)
        let y := substituted s x sh
        let bad := mismatches s y sh
        let line : RegLine := ⟨n, y, s.pix.closedStages[k], s.pix.charge.toList.getD (32 * k.val) 0⟩
        let s := { s with pix := { s.pix with
          regBuf := vmod s.pix.regBuf k fun l => line :: l
          mismatch := s.pix.mismatch ++ bad } }
        .next (if lineConverted n s then stepShadows s else s)

/-! ### The correction chain -/

/-- The dark conversions of one end that are not excluded. -/
def darkKept (excl : BitVec 32) (dark : List Nat) : List Int :=
  sortAsc ((dark.zipIdx.filter fun p => !excl.getLsbD p.2).map fun p => (p.1 : Int))

/-- The trimmed mean of one end in 1/16 LSB; none with fewer than 16 columns (R171, R173). -/
def trimmedMean (l : List Int) : Option Int :=
  let n := l.length
  if n < 16 then none
  else
    let m := (l.drop (n / 8)).take (n - 2 * (n / 8))
    some (divNearestEven (16 * m.sum) m.length)

/-- The dark levels of both ends in 1/16 LSB and whether DARK_DEFAULT is in use (R173). -/
def darkLevels (s : State) (px : List Nat) : Int × Int × Bool :=
  let l := trimmedMean (darkKept s.pix.exclL (px.take 32))
  let r := trimmedMean (darkKept s.pix.exclR (px.drop 8224))
  match l, r with
  | some a, some b => (a, b, false)
  | some a, none => (a, a, false)
  | none, some b => (b, b, false)
  | none, none => (16 * s.img.nat Fld.darkDefault [], 16 * s.img.nat Fld.darkDefault [], true)

/-- The dark columns of one end that depart from the median by more than DARK_OUTLIER (R172; log entry 13). -/
def departures (outlier : Nat) (excl : BitVec 32) (dark : List Nat) : List Nat :=
  let kept := darkKept excl dark
  let med2 := kept.getD ((kept.length - 1) / 2) 0 + kept.getD (kept.length / 2) 0
  (dark.zipIdx.filter fun p =>
    !excl.getLsbD p.2 && decide (2 * outlier < (2 * (p.1 : Int) - med2).natAbs)).map (·.2)

/-- Runs of consecutive lines of departure after a line (R172). -/
def runsAfter (dep : List Nat) (v : Vector Nat 32) : Vector Nat 32 :=
  Vector.ofFn fun i => if dep.contains i.val then Nat.min (v[i] + 1) 64 else 0

/-- The dark level d(c) of R174 in 1/16 LSB. -/
def darkAt (dl dr : Int) (c : Nat) : Int :=
  divNearestEven (dl * 8191 + (dr - dl) * c) 8191

/-- The adaptive factor of a column's segment in 1/65,536 (R187). -/
def affFactor (s : State) (k : Fin 4) (g : Nat) : Nat :=
  if s.img.on Fld.affEn [] then (s.pix.aff.factor.getD k.val []).getD g 65536 else 65536

/-- One corrected value y in 1/16 LSB before defect substitution (R180). -/
def correctOne (s : State) (k : Fin 4) (stages : Nat) (dl dr : Int) (c x : Nat) : Int :=
  let b := 16 * (x : Int) - darkAt dl dr c - s.img.int Fld.ffOffset [k.val, c]
  let num := b * s.img.nat Fld.ffGain [k.val, c] * s.img.nat Fld.stages [k.val] * affFactor s k (c / 64)
  clampInt (-8388608) 8388607 (divNearestEven num (16384 * stages * 65536))

/-- The defect map of a field. -/
def defectMap (s : State) (k : Fin 4) : List Nat :=
  (s.img.str Fld.defect [k.val]).getD []

/-- The nearest column left of `c` that is not in the map. -/
def goodLeft (map : List Nat) (c : Nat) : Option Nat :=
  ((List.range c).reverse.find? fun a => !map.contains a)

/-- The nearest column right of `c` that is not in the map. -/
def goodRight (map : List Nat) (c : Nat) : Option Nat :=
  (span (c + 1) 8192).find? fun a => !map.contains a

/-- The substituted value of a defective column (R180, R181). -/
def defectValue (y : List Int) (map : List Nat) (c : Nat) : Int :=
  match goodLeft map c, goodRight map c with
  | some a, some b => divNearestEven (y.getD a 0 * (b - c : Nat) + y.getD b 0 * (c - a : Nat)) (b - a)
  | some a, none => y.getD a 0
  | none, some b => y.getD b 0
  | none, none => 0

/-- The corrected values of a field of a line in 1/16 LSB (R180). -/
def correctField (s : State) (k : Fin 4) (r : RegLine) : List Int :=
  let (dl, dr, _) := darkLevels s r.px
  let y := ((r.px.drop 32).take 8192).zipIdx.map fun p => correctOne s k r.stages dl dr p.2 p.1
  let map := defectMap s k
  map.foldl (fun l c => l.set c (defectValue y map c)) y

/-- The history value of R183. -/
def histValue (shift : Nat) (y : Int) : Nat :=
  (clampInt 0 255 (divNearestEven y (16 * 2 ^ shift))).toNat

/-- Pairs of values binned (R184). -/
def binned : List Int → List Int
  | a :: b :: r => divNearestEven (a + b) 2 :: binned r
  | _ => []

/-- The fabric value of R185. -/
def fabricValue (s : State) (k : Fin 4) (y : Int) : Int :=
  satInt (if s.img.on Fld.fmt [k.val] then 16 else 8)
    (divNearestEven (y - 16 * s.img.nat Fld.zero [k.val]) (16 * 2 ^ s.img.nat Fld.shift [k.val]))

/-- The fabric plane of a field that delivered (R184, R185). -/
def planeOf (s : State) (k : Fin 4) (y : List Int) : List Int :=
  (if s.img.on Fld.bin [] then binned y else y).map (fabricValue s k)

/-- Columns of a plane. -/
def planeCols (s : State) : Nat :=
  if s.img.on Fld.bin [] then 4096 else 8192

/-- The sample of a field for line `n`, when the registration buffer holds it; line counters wrap (R137, R176, R178). -/
def sampleOf (s : State) (n : Nat) (k : Fin 4) : Option RegLine :=
  s.pix.regBuf[k].find? fun r => lineAdd r.trig (s.img.regDelay k.val) = n

/-- A lost field no longer delivers lines after the one whose readback lost it (R101, Edges of "Pixel array"). -/
def fieldGone (s : State) (n : Nat) (k : Fin 4) : Bool :=
  match s.pix.lostAt[k] with
  | none => false
  | some l => !linePast l n

/-- The fields that deliver line `n`: enabled, not lost, their samples held (R178). -/
def deliveredOf (s : State) (n : Nat) : List (Fin 4) :=
  s.img.slots.filter fun k => (sampleOf s n k).isSome && !fieldGone s n k

/-- The corrected values of each field of line `n`, none where it does not deliver the line. -/
def ladleFields (s : State) (n : Nat) : List (Option (List Int)) :=
  (List.finRange 4).map fun k =>
    if (deliveredOf s n).contains k then (sampleOf s n k).map (correctField s k) else none

/-- An enabled field's sample for line `n` is missing (R178). -/
def sampleMissing (s : State) (n : Nat) : Bool :=
  s.img.slots.any fun k => (sampleOf s n k).isNone

/-- What the ingress broadcasts for line `n` (R184, R185, R193): FILLk in the plane of a field that did not
deliver; poisoned planes for poisoned samples, or all after a disagreement of the Ladle halves. -/
def ladleOut (s : State) (n : Nat) (regBad : List (Fin 4)) : LadleLine where
  line := n
  planes := (List.finRange 4).map fun k =>
    match (ladleFields s n).getD k.val none with
    | some y => planeOf s k y
    | none => List.replicate (planeCols s) (s.img.int Fld.fill [k.val])
  delivered := fieldBits (deliveredOf s n)
  poison := if s.pix.ladleFault then 15 else fieldBits regBad

/-- A column's converter was judged faulty, whether the group's shadow serves the column or not. -/
def converterGone (s : State) (g : Fin 128) (c : Nat) : Bool :=
  s.pix.lostConv.contains (g.val, c) || (s.pix.subst[g].valid && s.pix.subst[g].column == c)

/-- Every enabled field has the column in its defect map, from which it takes its conversion (R124, R181). -/
def mapped (s : State) (col : Nat) : Bool :=
  s.img.slots.all fun k => (defectMap s k).contains col

/-- Every column of a group that the defect map does not serve has lost its converter (R124, Edges of R98 to R106). Until
then a judged column without a substitute counts as converted (DEDUCED, log entry 24). -/
def groupDead (s : State) (g : Fin 128) : Bool :=
  let own := (List.range 64).filter fun c => !mapped s (64 * g.val + c)
  !own.isEmpty && own.all fun c => converterGone s g c

/-- The segments whose columns all have a conversion (R124). -/
def liveSegments (s : State) : BitVec 128 :=
  (List.finRange 128).foldl (fun x g => if groupDead s g then x else x ||| (1#128 <<< g.val)) 0

/-! ### The adaptive flat field -/

/-- The window of a field is discarded and its adaptation freezes (R190). -/
def freezeField (k : Fin 4) (s : State) : State :=
  { s with pix := { s.pix with aff := { s.pix.aff with
    frozen := s.pix.aff.frozen ||| bit4 k
    thawing := s.pix.aff.thawing &&& ~~~bit4 k
    winAfter := s.pix.aff.winAfter.set k none
    thawLeft := s.pix.aff.thawLeft.set k ((2000000000 + s.img.nat Fld.linePitch [] - 1) / s.img.nat Fld.linePitch [])
    lines := s.pix.aff.lines.set k 0
    sum := s.pix.aff.sum.set k.val (List.replicate 128 0)
    count := s.pix.aff.count.set k.val (List.replicate 128 0) } } }

/-- The adaptation of every field freezes (R190). -/
def freezeAll (s : State) : State :=
  if s.img.on Fld.affEn [] then (List.finRange 4).foldl (fun t k => freezeField k t) s else s

/-- A line trigger without a freeze condition counts toward the thaw (R191). -/
def countThaw (s : State) : State :=
  if s.img.on Fld.affEn [] && s.pix.aff.frozen != 0 then
    { s with pix := { s.pix with aff := { s.pix.aff with
      thawing := s.pix.aff.thawing ||| s.pix.aff.frozen
      thawLeft := Vector.ofFn fun k =>
        if s.pix.aff.frozen.getLsbD k then s.pix.aff.thawLeft[k] - 1 else s.pix.aff.thawLeft[k] } } }
  else s

/-- AFF_THAW: the thaw count of a field is complete; its new window starts at the first line triggered after it
(R191). -/
def execAffThaw (s : State) : Host.Outcome State Fault Refusal :=
  if clocked s = false then .next s
  else
    let a := s.pix.aff
    let done := fieldBits ((List.finRange 4).filter fun k => a.thawing.getLsbD k && a.thawLeft[k] == 0)
    .next { s with pix := { s.pix with aff := { a with
      frozen := a.frozen &&& ~~~done
      thawing := a.thawing &&& ~~~done
      winAfter := Vector.ofFn fun k => if done.getLsbD k then some s.lt.line else a.winAfter[k] } } }

/-- Values of one segment that count toward its mean (R188). -/
def countable (s : State) (map : List Nat) (y : List Int) (g : Nat) : List Int :=
  ((((y.drop (64 * g)).take 64).zipIdx.filter fun p =>
    !map.contains (64 * g + p.2) && decide (s.img.int Fld.affLo [] ≤ p.1)
      && decide (p.1 ≤ s.img.int Fld.affHi [])).map (·.1))

/-- Line `n` lies before the first line of a field's window (R191). -/
def beforeWindow (s : State) (k : Fin 4) (n : Nat) : Bool :=
  match s.pix.aff.winAfter[k] with
  | none => false
  | some l => linePast l n

/-- A delivered line joins its field's window (R188). A line with poisoned samples, or one the Ladle halves disagree
about, joins it as well (DEDUCED, log entry 24). -/
def accumulateField (n : Nat) (k : Fin 4) (y : List Int) (s : State) : State :=
  if s.img.on Fld.affEn [] = false ∨ s.pix.aff.frozen.getLsbD k ∨ beforeWindow s k n then s
  else
    let map := defectMap s k
    let v := (List.range 128).map (countable s map y)
    let old := s.pix.aff.sum.getD k.val []
    let cnt := s.pix.aff.count.getD k.val []
    { s with pix := { s.pix with aff := { s.pix.aff with
      sum := s.pix.aff.sum.set k.val (v.zipIdx.map fun p => old.getD p.2 0 + p.1.sum)
      count := s.pix.aff.count.set k.val (v.zipIdx.map fun p => cnt.getD p.2 0 + p.1.length)
      winAfter := s.pix.aff.winAfter.set k none
      lines := vmod s.pix.aff.lines k (· + 1) } } }

/-- The factor `a` in 1/65,536 after a window of sum `sm` (1/16 LSB) and count `n` (R189). The spec states no
quotient for a sum of 0 and no direction in which the product is kept to 1/65,536: free values (log entry 8). -/
def newFactor (target shift a n : Nat) (sm : Int) (up : Bool) (open_ : Nat) : Nat :=
  let num : Int := if sm = 0 then open_ else target * n - sm
  let den : Nat := if sm = 0 then 1 else sm.toNat * 2 ^ shift
  let x : Int × Nat :=
    if (den : Int) < 256 * num then (a * 257, 256)
    else if 256 * num < -(den : Int) then (a * 255, 256)
    else (a * (den + num), den)
  let q := x.1 / x.2
  (clampInt 49152 81920 (if x.1 % x.2 = 0 then q else if up then q + 1 else q)).toNat

/-- The factor of a segment after its field's window (R189). -/
def segmentFactor (s : State) (k : Fin 4) (g : Nat) : Nat :=
  let a := (s.pix.aff.factor.getD k.val []).getD g 65536
  let n := (s.pix.aff.count.getD k.val []).getD g 0
  let i := s.freeCtr + 128 * k.val + g
  if n < s.img.nat Fld.affWindow [] * 16 then a
  else newFactor (s.img.nat Fld.affTarget [k.val, g]) (s.img.nat Fld.affShift []) a n
    ((s.pix.aff.sum.getD k.val []).getD g 0) (Config.mayTake i) (Config.value i)

/-- The window of a field ends: factors, skips and the sticky limit (R189). -/
def endWindow (k : Fin 4) (s : State) : State :=
  let cnt := s.pix.aff.count.getD k.val []
  let done := fun g => decide (s.img.nat Fld.affWindow [] * 16 ≤ cnt.getD g 0)
  let f := (List.range 128).map (segmentFactor s k)
  let hit := f.zipIdx.any fun p => done p.2 && (p.1 = 49152 || p.1 = 81920)
  let skipped := ((List.range 128).filter fun g => !done g).length
  { s with pix := { s.pix with aff := { s.pix.aff with
    factor := s.pix.aff.factor.set k.val f
    limitSticky := s.pix.aff.limitSticky || hit
    limitAt := if hit then some s.now else s.pix.aff.limitAt
    skip := satAdd 32 skipped s.pix.aff.skip
    lines := s.pix.aff.lines.set k 0
    sum := s.pix.aff.sum.set k.val (List.replicate 128 0)
    count := s.pix.aff.count.set k.val (List.replicate 128 0) } } }

/-- AFF_WINDOW_END: the window of AFF_WINDOW lines of each field that has one complete ends (R189). -/
def execAffWindowEnd (s : State) : Host.Outcome State Fault Refusal :=
  let due : List (Fin 4) := s.img.slots.filter fun k =>
    clocked s && s.img.on Fld.affEn [] && !s.pix.aff.frozen.getLsbD k
      && decide (s.img.nat Fld.affWindow [] ≤ s.pix.aff.lines[k])
  .next { (due.foldl (fun t k => endWindow k t) s) with
    freeCtr := if due.isEmpty then s.freeCtr else s.freeCtr + 512 }

/-- The factors of the image (R187). -/
def initFactors (s : State) : List (List Nat) :=
  (List.range 4).map fun k => (List.range 128).map fun g => s.img.nat Fld.affInit [k, g]

/-- The adaptive flat field as COMMIT and a wake leave it: image factors, frozen, no window (R187, R190). -/
def affInit (s : State) : State :=
  { s with pix := { s.pix with aff := { s.pix.aff with
    factor := initFactors s
    sum := List.replicate 4 (List.replicate 128 0)
    count := List.replicate 4 (List.replicate 128 0)
    lines := Vector.replicate 4 0
    frozen := 15
    thawing := 0
    winAfter := Vector.replicate 4 none
    thawLeft := Vector.replicate 4 0 } } }

/-! ### A line through the Ladle -/

/-- The dark levels and the departures of a line (R171 to R173). -/
def darkOfLine (n : Nat) (s : State) : State :=
  let samples := (List.finRange 4).filterMap fun k =>
    if s.img.on Fld.slotEn [k.val] then (sampleOf s n k).map fun r => (k, r) else none
  let lv := samples.map fun p => (p.1, darkLevels s p.2.px)
  let out := s.img.nat Fld.darkOutlier []
  let depL := samples.flatMap fun p => departures out s.pix.exclL (p.2.px.take 32)
  let depR := samples.flatMap fun p => departures out s.pix.exclR (p.2.px.drop 8224)
  let at_ := fun (old : Vector Nat 4) (f : Int × Int × Bool → Int) =>
    lv.foldl (fun (v : Vector Nat 4) p => v.set p.1 (f p.2).toNat) old
  if samples.isEmpty then s
  else
    { s with pix := { s.pix with
      darkL := at_ s.pix.darkL (·.1)
      darkR := at_ s.pix.darkR (·.2.1)
      runL := runsAfter depL s.pix.runL
      runR := runsAfter depR s.pix.runR
      fallback := s.pix.fallback || lv.any fun p => p.2.2.2 } }

/-- History values of a field that did not deliver: the spec states none (log entry 8). -/
def openHist (ctr : Nat) (k : Fin 4) : List Nat :=
  (List.range 8192).map fun c => Config.value (ctr + 8192 * k.val + c) % 256

/-- The history slot of line `n` (R183, R200, R201). -/
def writeHist (n : Nat) (y : List (Option (List Int))) (poison : Bool) (s : State) : State :=
  let px := (List.finRange 4).map fun k =>
    if s.img.on Fld.slotEn [k.val] then
      match y.getD k.val none with
      | some v => v.map (histValue (s.img.nat Fld.histShift [k.val]))
      | none => openHist s.freeCtr k
    else List.replicate 8192 0
  let any := y.any Option.isSome
  let slot : HistSlot := ⟨n, any && !s.pix.ladleFault, px, false, poison⟩
  { s with
    freeCtr := s.freeCtr + 32768
    pix := { s.pix with hist := s.pix.hist.set (n % 256) slot (Nat.mod_lt _ (by decide)) } }

/-- The oldest exposed line the Ladle has not completed. -/
def ladleDue (s : State) : Option LineRec :=
  s.spr.lines.find? fun l => l.exposed && !l.ladleDone

/-- Samples no later line needs leave the registration buffer (R177). -/
def pruneReg (n : Nat) (s : State) : State :=
  { s with pix := { s.pix with
    regBuf := Vector.ofFn fun k => s.pix.regBuf[k].filter fun r =>
      !linePast n (lineAdd r.trig (Nat.max 1 (32 * k.val) : Nat)) } }

/-- Fields of a line: windows of those delivered, a freeze of those not (R188, R190). -/
def adaptLine (n : Nat) (y : List (Option (List Int))) (s : State) : State :=
  s.img.slots.foldl (fun t k => match y.getD k.val none with
    | some v => accumulateField n k v t
    | none => if t.img.on Fld.affEn [] then freezeField k t else t) s

/-! ### Row ingress -/

/-- Values packed into 64-bit words, `n` bytes each (R193). -/
def packWords (n : Nat) (vals : List Int) : List Nat :=
  let per := 8 / n
  (List.range (vals.length / per)).map fun i =>
    ofLe (((vals.drop (per * i)).take per).flatMap fun v => le n (unsign (8 * n) v))

/-- Bytes of a fabric value of plane k. -/
def fmtBytes (s : State) (k : Fin 4) : Nat :=
  if s.img.on Fld.fmt [k.val] then 2 else 1

/-- Bus words of a plane (R193). -/
def planeWords (s : State) (k : Fin 4) : Nat :=
  planeCols s * fmtBytes s k / 128

/-- Bus words of a window (R195). -/
def windowWords (s : State) (k : Fin 4) : Nat :=
  planeWords s k / 8 + 2 * s.img.nat Fld.ingHalo []

/-- Bus word `i` of a plane as 16 Wren words; FILLk outside the plane (R195). -/
def busWord (s : State) (k : Fin 4) (words : List Nat) (i : Int) : List Nat :=
  if 0 ≤ i ∧ i < planeWords s k then (words.drop (16 * i.toNat)).take 16
  else packWords (fmtBytes s k) (List.replicate (128 / fmtBytes s k) (s.img.int Fld.fill [k.val]))

/-- The bus words a perch at logical column `c` captures of plane k, with their addresses (R195, R196). -/
def captured (s : State) (o : LadleLine) (k : Fin 4) (c : Nat) : List IngWord :=
  let w := windowWords s k
  let words := packWords (fmtBytes s k) (o.planes.getD k.val [])
  let base := s.img.nat Fld.ingBase [k.val] + o.line % s.img.nat Fld.ingDepth [] * 16 * w
  (List.range w).map fun i =>
    let j : Int := (planeWords s k / 8 * c + i : Nat) - (s.img.nat Fld.ingHalo [] : Int)
    ⟨base + 16 * i, (busWord s k words j).map fun x => ⟨BitVec.ofNat 64 x, o.poison.getLsbD k⟩⟩

/-- The planes a logical row takes, in ascending order (R194). -/
def rowPlanes (s : State) (r : Nat) : List (Fin 4) :=
  s.img.slots.filter fun k => (s.img.nat Fld.ingRowmask [k.val]).testBit r

/-- One word of a Wren takes a value; poisoned data is held as the poison pattern (log entry 14). A waiting correction of
the word is discarded (R281). -/
def setWord (a : Nat) (w : WWord) (x : Wren) : Wren :=
  { x with
    words := Sparse.write WWord.reset a (if w.poison then ⟨0, true⟩ else w) x.words
    wbQ := x.wbQ.filter fun q => q.1 != a }

/-- The oldest captured bus word is written as a row access (R196, R263). -/
def landIngress (x : Wren) : Wren :=
  match x.ingQ with
  | [] => x
  | w :: r => w.data.zipIdx.foldl (fun y d => if w.addr + d.2 < 49152 then setWord (w.addr + d.2) d.1 y else y) { x with ingQ := r }

/-- A bus word enters the buffer of 8; the buffer drains faster than words come, so at the ninth the oldest has been
written (R263). -/
def takeIngress (x : Wren) (w : IngWord) : Wren :=
  let y := if x.ingQ.length < 8 then x else landIngress x
  { y with ingQ := y.ingQ ++ [w] }

/-- Poison falls on the words of a line's planes that a Wren has captured or written (R102, R103). -/
def poisonWords (ws : List IngWord) (w : Wren) : Wren :=
  let addrs := ws.flatMap fun x => (List.range x.data.length).map (x.addr + ·)
  let queued := w.ingQ.flatMap fun x => (List.range x.data.length).map (x.addr + ·)
  { w with
    ingQ := w.ingQ.map fun x =>
      if ws.any (fun y => y.addr == x.addr) then { x with data := x.data.map fun d => { d with poison := true } } else x
    words := addrs.foldl (fun m a =>
      if queued.contains a then m else Sparse.write WWord.reset a ⟨0, true⟩ m) w.words }

/-- The planes `f` of line `n`, whose ingress has begun, are poisoned in every Wren that took them (R102, R103). -/
def poisonLine (n : Nat) (f : BitVec 4) (s : State) : State :=
  let o : LadleLine := { LadleLine.reset with line := n }
  (s.img.rows.flatMap fun r => (List.range 8).map fun c => (r, c)).foldl (fun t rc =>
    let ws := ((rowPlanes s rc.1).filter fun k : Fin 4 => f.getLsbD k).flatMap fun k => captured s o k rc.2
    { t with fab := { t.fab with perch := vmod t.fab.perch (perchAt s rc.1 rc.2) fun p =>
      { p with wren := poisonWords ws p.wren } } }) s

/-! ### Completing a line -/

/-- Adaptation is frozen for an enabled field. -/
def affFrozen (s : State) : Bool :=
  s.img.on Fld.affEn [] && s.img.slots.any fun k => s.pix.aff.frozen.getLsbD k

/-- Fields with an uncorrectable registration-buffer word among the words read for a line. -/
def regBadFields (reg : List (Fin 4 × Ecc)) : List (Fin 4) :=
  (List.finRange 4).filter fun k => reg.contains (k, .uncorrectable)

/-- The reports of the registration-buffer words a line met (Edges of the correction chain). -/
def regReports (reg : List (Fin 4 × Ecc)) : List (BitVec 16) :=
  reg.filterMap fun e => match e.2 with
    | .clean => none
    | .corrected => some 0x117E
    | .uncorrectable => some 0x127E

/-- LADLE_LINE_COMPLETE: correction, history write and ledger inputs of the oldest exposed line (R59, R171 to
R185, R188, R200, R201); `reg` are the registration-buffer words with an error that it read, by field (R102, R177, Edges of
the correction chain). A line whose samples went missing in a PIXEL re-init completes like any other, undelivered (R128,
R178). -/
def execLadleLineComplete (reg : List (Fin 4 × Ecc)) (s : State) : Host.Outcome State Fault Refusal :=
  match ladleDue s with
  | none => .next s
  | some l =>
    if clocked s = false ∨ live s = false then .next s
    else
      let n := l.line
      let y := ladleFields s n
      let del := deliveredOf s n
      let out := ladleOut s n (regBadFields reg)
      let segs := liveSegments s
      let missing := sampleMissing s n
      let s := reportAll (regReports reg) s
      let s := darkOfLine n s
      let s := writeHist n y (!(regBadFields reg).isEmpty) s
      let s := adaptLine n y s
      let s := { s with pix := { s.pix with
        regMissing := if missing then satInc 32 s.pix.regMissing else s.pix.regMissing
        ladleFault := false
        ingress := if l.ingressed then s.pix.ingress else s.pix.ingress ++ [out] } }
      let s := if l.ingressed then poisonLine n out.poison s else s
      let s := markLine n (fun r => { r with
        ladleDone := true
        delivered := fieldBits del
        segOk := segs
        affFrozen := r.affFrozen || affFrozen s }) s
      .next (progressed .pixel (pruneReg n s))

/-- LADLE_HALVES_DISAGREE: the line in the Ladle is written poisoned into every Wren, the words its ingress has written
already included (R103). -/
def execLadleHalvesDisagree (s : State) : Host.Outcome State Fault Refusal :=
  if live s = false ∨ clocked s = false then .next s
  else
    let t := report 0x6001 { s with pix := { s.pix with ladleFault := true } }
    match ladleDue s with
    | some l => .next (if l.ingressed then poisonLine l.line 15 t else t)
    | none => .next t

/-- DARK_COLUMN_EXCLUDE: a dark column that departed in 64 consecutive lines is excluded (R172). -/
def execDarkColumnExclude (left : Bool) (i : Fin 32) (s : State) : Host.Outcome State Fault Refusal :=
  if clocked s = false then .next s
  else if left then
    if 64 ≤ s.pix.runL[i] then .next { s with pix := { s.pix with exclL := s.pix.exclL ||| (1#32 <<< i.val) } }
    else .next s
  else if 64 ≤ s.pix.runR[i] then .next { s with pix := { s.pix with exclR := s.pix.exclR ||| (1#32 <<< i.val) } }
  else .next s

/-- What a crossing with parity makes of a word: it failed once and its repeat came good, or it failed twice and is
accepted poisoned (R67, R238; DEDUCED, log entry 41). -/
def crossed (parity : List (Fin 72 × Nat × Bool)) (p : Fin 72) (i : Nat) (w : IngWord) : IngWord :=
  if parity.contains (p, i, false) then { w with data := w.data.map fun d => { d with poison := true } } else w

/-- One perch captures its windows of a line. -/
def capture (o : LadleLine) (parity : List (Fin 72 × Nat × Bool)) (r c : Nat) (s : State) : State :=
  let p := perchAt s r c
  let ws := (rowPlanes s r).flatMap fun k => captured s o k c
  { s with fab := { s.fab with
    perch := vmod s.fab.perch p fun x =>
      { x with wren := (ws.zipIdx.map fun w => crossed parity p w.2 w.1).foldl takeIngress x.wren } } }

/-- Words that crossed at their repeat are counted, words that failed twice are reported for the receiving perch (R238). -/
def crossingFaults (parity : List (Fin 72 × Nat × Bool)) (s : State) : State :=
  parity.foldl (fun t e =>
    if e.2.2 then { t with fab := { t.fab with cnt := { t.fab.cnt with parityResend := satInc 32 t.fab.cnt.parityResend } } }
    else report (faultCode 0x20 e.1.val) t) s

/-- The ingress of a line on every row (R193 to R199). -/
def broadcast (o : LadleLine) (parity : List (Fin 72 × Nat × Bool)) (s : State) : State :=
  crossingFaults parity
    ((s.img.rows.flatMap fun r => (List.range 8).map fun c => (r, c)).foldl (fun t p => capture o parity p.1 p.2 t)
      (markLine o.line (fun l => { l with ingressed := true }) s))

/-- INGRESS_LINE: the ingress of the oldest line that waits for it starts (R198); `parity` are the captured bus words
that failed parity once (`true`) or twice, by perch and position. It may start before the Ladle
has completed the line: the values are the same. In a repair gap the row buses carry no planes (R245). -/
def execIngressLine (s : State) (parity : List (Fin 72 × Nat × Bool) := []) :
    Host.Outcome State Fault Refusal :=
  if inState [.run, .hold] s = false ∨ clocked s = false then .next s
  else
    match s.pix.ingress with
    | o :: rest => .next (broadcast o parity { s with pix := { s.pix with ingress := rest } })
    | [] =>
      match ladleDue s with
      | some l => if l.ingressed then .next s else .next (broadcast (ladleOut s l.line []) parity s)
      | none => .next s

/-! ### The history -/

/-- HISTORY_SCRUB: a pass over the history with the words it corrected and the slots with an uncorrectable word
(R202, Table 3.1). In HOLD, where PIXD is clock-gated, the scrub stands still (DEDUCED, log entry 24). -/
def execHistoryScrub (corrected : Nat) (bad : List (Fin 256)) (s : State) : Host.Outcome State Fault Refusal :=
  if inState [.run, .repair] s = false ∨ clocked s = false then .next s
  else
    let s := reportAll (List.replicate corrected 0x117F ++ bad.map fun _ => 0x127F) s
    .next { s with pix := { s.pix with
      histScrub := satInc 32 s.pix.histScrub
      hist := bad.foldl (fun h i => vmod h i fun x => { x with bad := true }) s.pix.hist } }

/-! ### Resets, COMMIT, SLEEP and re-init -/

/-- What a reset leaves of the Cope die and the Ladle: the substitution map and the counters COMMIT zeroes
(Table 18.6). -/
def pixReset (s : State) : State :=
  { s with pix := { Pix.reset with
    subst := s.pix.subst
    substCount := s.pix.substCount
    histScrub := s.pix.histScrub
    regMissing := s.pix.regMissing
    aff := { Aff.reset with limitSticky := s.pix.aff.limitSticky, skip := s.pix.aff.skip } } }

/-- PIXA and PIXD off in SAFE. -/
def pixOff (s : State) : State :=
  pixReset s

/-- The COMMIT edge: counters zeroed, stages of the image (R205, R580). -/
def pixCommit (s : State) : State :=
  { s with pix := { Pix.reset with
    subst := s.pix.subst
    stages := Vector.ofFn fun k => if s.img.on Fld.slotEn [k.val] then s.img.nat Fld.stages [k.val] else 0 } }

/-- The COMMIT state ends: factors copied, buffer and history clear, converters settled (R177, R187, R201,
R582). -/
def pixRun (s : State) : State :=
  affInit { s with pix := { s.pix with settled := true } }

/-- SLEEP: registration buffer, history and factors are lost; counters and status are kept (R203, R657). -/
def pixSleep (s : State) : State :=
  { s with pix := { s.pix with
    regBuf := Vector.replicate 4 []
    hist := Vector.replicate 256 HistSlot.reset
    ingress := []
    closed := Vector.replicate 4 none
    charge := Vector.replicate 128 0
    mismatch := []
    ladleFault := false
    settled := false
    aff := { s.pix.aff with
      factor := [], sum := [], count := [], frozen := 15, thawing := 0, winAfter := Vector.replicate 4 none } } }

/-- A wake: buffer and history clear, image factors (R177, R187, R201). -/
def pixWake (s : State) : State :=
  affInit { s with pix := { s.pix with settled := true } }

/-- A PIXEL re-init starts: rows drained, the registration buffer cleared, adaptation frozen, every line whose samples
the Ladle has not completed not inspected (R178, R190, Table 17.10). Slots, closes and the completion of lines go on at
their times (R128). -/
def reinitStartPixel (s : State) : State :=
  let s := markLines (fun l => if l.ladleDone then l else { l with uninsp := true }) s
  freezeAll (drainRows { s with pix := { s.pix with
    regBuf := Vector.replicate 4 []
    closed := Vector.replicate 4 none
    mismatch := []
    ladleFault := false
    settled := false } })

/-- A PIXEL re-init ends: missing samples under R178 and a restart under R145 follow (Table 17.10). -/
def reinitEndPixel (s : State) : State :=
  { s with lt := { s.lt with restart := true }, pix := { s.pix with settled := true } }

end Sys2Proof.Machine
end

