-- ==== Sys2Proof/Machine/Operands.lean ====
section
/-! DEFINITION. The operand forms of the Finch: formats and packing (R332), where a vector comes from and where
a result goes (log entry 6), tokens with their parity (R236), and access to the parts of one perch. -/

namespace Sys2Proof.Machine

/-! ### Parts of a perch -/

/-- One perch changes. -/
def onPerch (p : Fin 72) (f : Perch → Perch) (s : State) : State :=
  { s with fab := { s.fab with perch := vmod s.fab.perch p f } }

/-- The Finch of one perch changes. -/
def onFinch (p : Fin 72) (f : Finch → Finch) (s : State) : State :=
  onPerch p (fun x => { x with finch := f x.finch }) s

/-- The Wren of one perch changes. -/
def onWren (p : Fin 72) (f : Wren → Wren) (s : State) : State :=
  onPerch p (fun x => { x with wren := f x.wren }) s

/-- The runners of one perch change. -/
def onRun (p : Fin 72) (f : Runners → Runners) (s : State) : State :=
  onPerch p (fun x => { x with run := f x.run }) s

/-- One stage of a Finch changes. -/
def onStage (p : Fin 72) (v : Fin 4) (f : Stage → Stage) (s : State) : State :=
  onFinch p (fun x => { x with stages := vmod x.stages v f }) s

/-- The Finch of a perch. -/
def finchOf (s : State) (p : Fin 72) : Finch :=
  s.fab.perch[p].finch

/-- The FAB counters change. -/
def onCnt (f : FabCnt → FabCnt) (s : State) : State :=
  { s with fab := { s.fab with cnt := f s.fab.cnt } }

/-- The WREN registers change. -/
def onWCnt (f : WrenCnt → WrenCnt) (s : State) : State :=
  { s with fab := { s.fab with wcnt := f s.fab.wcnt } }

/-- The logical row of a perch is used by the image (R210). -/
def rowUsed (s : State) (p : Fin 72) : Bool :=
  s.img.rows.contains (rowOf p)

/-- The perch is one of the active perches: a used row and a mapped column (R206, R210). -/
def activePerch (s : State) (p : Fin 72) : Bool :=
  rowUsed s p && (logCol s p).isSome

/-- A stall holds a Finch: a SEND, RECV or WAIT, or a PUT at a full port queue (R219, R260). -/
def Finch.blocked (fi : Finch) : Bool :=
  fi.stalled || fi.putWait != 0

/-- A Finch issues operations: RUN, its beat runs, and no stall holds it (R219, R221). -/
def issues (s : State) (p : Fin 72) : Bool :=
  s.sys.code == .run && activePerch s p && (finchOf s p).running && !(finchOf s p).blocked && !reinitBusy .fabric s

/-- The neighbour in a direction by the column map, none where the link connects to nothing (R209, R293, R295). -/
def neighbour (s : State) (p : Fin 72) (d : Dir) : Option (Fin 72) :=
  let r := rowOf p
  match logCol s p with
  | none => none
  | some c =>
    match d with
    | .n => if 0 < r ∧ s.img.rows.contains (r - 1) then some (perchAt s (r - 1) c) else none
    | .s => if s.img.rows.contains (r + 1) then some (perchAt s (r + 1) c) else none
    | .e => if c < 7 then some (perchAt s r (c + 1)) else none
    | .w => if 0 < c then some (perchAt s r (c - 1)) else none

/-- Code of a direction: N 0, E 1, S 2, W 3 (R293). -/
def dirIx : Dir → Fin 4
  | .n => 0
  | .e => 1
  | .s => 2
  | .w => 3

/-- The opposite direction. -/
def opposite : Dir → Dir
  | .n => .s
  | .e => .w
  | .s => .n
  | .w => .e

/-- Index of a channel at a perch, 4 × link + ch. -/
def chanIx (d : Dir) (ch : Fin 4) : Fin 16 :=
  ⟨4 * (dirIx d).val + ch.val, by have := (dirIx d).isLt; have := ch.isLt; omega⟩

/-! ### Formats -/

/-- Width of a format in bits (Table 9.1). -/
def fmtWidth : Fmt → Nat
  | .int4 => 4
  | .int8 => 8
  | .int16 => 16
  | .e4m3 => 8
  | .e5m2 => 8
  | .bf16 => 16
  | .int32 => 32
  | .fp32 => 32

/-- The format is an integer format. -/
def fmtInt : Fmt → Bool
  | .int4 => true
  | .int8 => true
  | .int16 => true
  | .int32 => true
  | _ => false

/-- The floating-point value of a code (Tables 9.1, 9.2); 0 for an integer format. -/
def fmtDecode (f : Fmt) (x : Nat) : FVal :=
  match f with
  | .e4m3 => decodeE4M3 x
  | .e5m2 => decodeE5M2 x
  | .bf16 => decodeBf16 x
  | .fp32 => decodeFp32 x
  | _ => .num false 0 0

/-- A lane: 32 bits whose low bits hold a code. -/
abbrev Lanes := List (BitVec 32)

/-- The code of a lane in a format. -/
def codeOf (f : Fmt) (x : BitVec 32) : Nat :=
  x.toNat % 2 ^ fmtWidth f

/-- The integer value of a lane in a format. -/
def intOf (f : Fmt) (x : BitVec 32) : Int :=
  signed (fmtWidth f) (codeOf f x)

/-- An integer result as a lane, sign-extended. -/
def laneInt (x : Int) : BitVec 32 :=
  BitVec.ofInt 32 x

/-- A code as a lane. -/
def laneCode (x : Nat) : BitVec 32 :=
  BitVec.ofNat 32 x

/-- `n` codes of `w` bits from packed 64-bit words, code 0 lowest (R332). -/
def unpackCodes (w n : Nat) (ws : List (BitVec 64)) : List Nat :=
  let per := 64 / w
  (List.range n).map fun i => bits ((ws.getD (i / per) 0).toNat) (w * (i % per)) w

/-- A code as a lane: integers sign-extended. -/
def laneOf (f : Fmt) (x : Nat) : BitVec 32 :=
  if fmtInt f then laneInt (signed (fmtWidth f) x) else laneCode x

/-- Codes of `w` bits packed into 64-bit words (R332). -/
def packCodes (w : Nat) (xs : List Nat) : List (BitVec 64) :=
  let per := 64 / w
  (List.range ((xs.length + per - 1) / per)).map fun i =>
    BitVec.ofNat 64 (((List.range per).map fun j => xs.getD (per * i + j) 0 % 2 ^ w * 2 ^ (w * j)).sum)

/-! ### Vectors -/

/-- A vector and its poison mark (R102). -/
structure Vec where
  /-- its lanes -/
  lanes : Lanes
  /-- its poison mark -/
  poison : Bool
  deriving DecidableEq, Repr

/-- Lane `i` of a vector, 0 beyond its end. -/
def Vec.at (x : Vec) (i : Nat) : BitVec 32 :=
  x.lanes.getD i 0

/-- Values a vector has in a format for an operation that takes `n` of them. -/
def fromInput (fi : Finch) (f : Fmt) (n : Nat) : Vec :=
  ⟨(unpackCodes (fmtWidth f) n fi.inReg).map (laneOf f), fi.inPoison⟩

/-- The 32 int4 values of 16 lanes: lane i holds values 2i and 2i + 1 (log entry 6). -/
def splitInt4 (l : Lanes) : Lanes :=
  l.flatMap fun x => [laneInt (signed 4 (bits x.toNat 0 4)), laneInt (signed 4 (bits x.toNat 4 4))]

/-- A vector a stage operation reads (log entry 6); `wide` asks for the 32 values of an int4 MVM. -/
def readVec (fi : Finch) (v : Fin 4) (f : Fmt) (wide : Bool) (x : VSrc) : Vec :=
  let n := if wide then 32 else 16
  let cut := fun (l : Lanes) => if wide then splitInt4 l else l
  match x with
  | .prev => if v = 0 then fromInput fi f n else ⟨cut fi.stages[v - 1].outv, fi.stages[v - 1].outPoison⟩
  | .own => ⟨cut fi.stages[v].outv, fi.stages[v].outPoison⟩
  | .acc j => ⟨cut fi.stages[v].acc[j].toList, fi.stages[v].accPoison.getLsbD j.val⟩
  | .scalar c => ⟨cut (List.replicate 16 c), false⟩

/-- A vector of 16 lanes. -/
def toLanes (l : Lanes) : Vector (BitVec 32) 16 :=
  Vector.ofFn fun i => l.getD i.val 0

/-- One bit of a vector of bits set to a value. -/
def putBit {w : Nat} (x : BitVec w) (i : Nat) (b : Bool) : BitVec w :=
  if b then x ||| (1#w <<< i) else x &&& ~~~(1#w <<< i)

/-- An accumulator vector takes lanes and a mark. -/
def setAcc (j : Fin 16) (l : Lanes) (poison : Bool) (t : Stage) : Stage :=
  { t with acc := t.acc.set j (toLanes l), accPoison := putBit t.accPoison j.val poison }

/-- The pipeline register takes lanes and a mark. -/
def setOut (l : Lanes) (poison : Bool) (t : Stage) : Stage :=
  { t with outv := (toLanes l).toList, outPoison := poison }

/-- A destination takes lanes and a mark. -/
def setDst (d : VDst) (l : Lanes) (poison : Bool) (t : Stage) : Stage :=
  match d with
  | .out => setOut l poison t
  | .acc j => setAcc j l poison t

/-- What a destination holds. -/
def dstVec (fi : Finch) (v : Fin 4) (d : VDst) : Vec :=
  match d with
  | .out => readVec fi v .int32 false .own
  | .acc j => readVec fi v .int32 false (.acc j)

/-- Element `n` of the weight tile in a format, elements packed in ascending order (R332, log entry 6). -/
def tileCode (t : Stage) (f : Fmt) (n : Nat) : Nat :=
  let byte := fun (i : Nat) => (t.tile.toList.getD i 0).toNat
  match fmtWidth f with
  | 4 => bits (byte (n / 2)) (4 * (n % 2)) 4
  | 16 => byte (2 * n) + 256 * byte (2 * n + 1)
  | _ => byte n

/-- Words a store, PUT, SEND or EGR sends, 16 of them, and their mark (log entry 6). -/
def srcWords (fi : Finch) (x : StSrc) : List (BitVec 64) × Bool :=
  match x with
  | .inp => ((List.range 16).map fun i => fi.inReg.getD i 0, fi.inPoison)
  | .v3 f =>
    let w := packCodes (fmtWidth f) ((fi.stages[(3 : Fin 4)].outv.take 16).map (codeOf f))
    ((List.range 16).map fun i => w.getD i 0, fi.stages[(3 : Fin 4)].outPoison)

/-- The input register takes words. -/
def setInput (ws : List (BitVec 64)) (poison : Bool) (fi : Finch) : Finch :=
  { fi with inReg := ws, inPoison := poison }

/-- The first word of the input register is replaced (LDN, RECV; log entry 6). -/
def setInputWord (w : BitVec 64) (poison : Bool) (fi : Finch) : Finch :=
  { fi with inReg := ((List.range 16).map fun i => fi.inReg.getD i 0).set 0 w, inPoison := poison }

/-! ### Tokens -/

/-- Bits [71:0] of a token (Table 6.2). -/
def tokenBits (t : Token) : BitVec 72 :=
  t.tag ++ BitVec.ofBool t.poison ++ BitVec.ofBool t.void ++ t.ch ++ t.data

/-- Parity of nine bits from bit `9i`. -/
def parityBit (x : BitVec 72) (i : Nat) : Bool :=
  (List.range 9).foldl (fun b j => b != x.getLsbD (9 * i + j)) false

/-- PAR of a token: even parity over each nine bits (R236). -/
def tokenPar (t : Token) : BitVec 8 :=
  (List.range 8).foldl (fun p i => putBit p i (parityBit (tokenBits t) i)) 0

/-- The void token of a tag (R321). -/
def voidToken (ch : BitVec 2) (tag : BitVec 4) (poison : Bool) : Token :=
  ⟨0, ch, true, poison, tag⟩

end Sys2Proof.Machine
end

