-- ==== Sys2Proof/Machine/Flags.lean ====
section
/-! DEFINITION. Flags of the Finch: predicates and lane masks with their poison marks (R213, R320, R324), and the
counters of saturation, specials and cheap paths (R337, R341, R346, R358). -/

namespace Sys2Proof.Machine

/-- The value of an operation's predicate (R213). -/
def predValue (fi : Finch) : PredSel → Bool
  | .always => true
  | .p k => fi.preds.getLsbD k.val

/-- The predicate is poisoned (R324). -/
def predMark (fi : Finch) : PredSel → Bool
  | .always => false
  | .p k => fi.predPoison.getLsbD k.val

/-- A predicate takes a value and a mark (R324). -/
def setPred (k : Fin 8) (b mark : Bool) (fi : Finch) : Finch :=
  { fi with preds := putBit fi.preds k.val b, predPoison := putBit fi.predPoison k.val mark }

/-- A lane mask takes a value and a mark (R324). -/
def setMask (k : Fin 8) (m : BitVec 16) (mark : Bool) (fi : Finch) : Finch :=
  { fi with masks := fi.masks.set k m, maskPoison := putBit fi.maskPoison k.val mark }

/-- A lane mask as bits of a list of truth values. -/
def maskOf (l : List Bool) : BitVec 16 :=
  (l.zipIdx).foldl (fun m p => putBit m p.2 p.1) 0

/-- An issue with a saturated lane is counted (ACC_SAT, R337). -/
def countAccSat (sat : Bool) (s : State) : State :=
  if sat then onCnt (fun c => { c with accSat := satInc 32 c.accSat }) s else s

/-- An issue that leaves a NaN or an infinity is counted (FP_SPECIAL, R341). -/
def countSpecial (sp : Bool) (s : State) : State :=
  if sp then onCnt (fun c => { c with fpSpecial := satInc 32 c.fpSpecial }) s else s

/-- An RQ issue with a saturated lane is counted (RQ_SAT, R346). -/
def countRqSat (sat : Bool) (s : State) : State :=
  if sat then onCnt (fun c => { c with rqSat := satInc 32 c.rqSat }) s else s

/-- An issue eligible for a cheap path joins those of the last millisecond (QFRAC, R358). -/
def countEligible (narrow cheap : Bool) (s : State) : State :=
  onCnt (fun c => { c with
    qIssues := (s.now, narrow, cheap) :: c.qIssues.filter fun i => decide (s.now ≤ i.1 + ms 1) }) s

/-- A tile sent to the exact path for poison is counted (QPOISON_EXACT, R349). -/
def countQpoison (s : State) : State :=
  onCnt (fun c => { c with qpoisonExact := satInc 32 c.qpoisonExact }) s

/-- A fraction of QFRAC: of the eligible issues of the last millisecond in a mode, those that took the cheap path,
in 1/65,536 of a 16-bit field (Table 9.6). -/
def qFrac (s : State) (narrow : Bool) : Nat :=
  let l := s.fab.cnt.qIssues.filter fun i => decide (s.now ≤ i.1 + ms 1) && i.2.1 == narrow
  let n := (l.filter (·.2.2)).length
  if l.isEmpty then 0 else Nat.min (n * 65536 / l.length) 65535

/-- A void token sent with POISON is counted (VOID_POISON, R324). -/
def countVoidPoison (t : Token) (s : State) : State :=
  if t.void ∧ t.poison then onCnt (fun c => { c with voidPoison := satInc 32 c.voidPoison }) s else s

end Sys2Proof.Machine
end

