-- ==== Sys2Proof/Machine/Bundle.lean ====
section
/-! DEFINITION. The bundles of a Finch mould and the cycle an operation issues in (R212, R218, R299), the slices of a
beat's work and the signatures over their outputs (R109, R110, R222). The encoding of a bundle is a free value (log entry
8); where an operation falls in the schedule is log entry 42. -/

namespace Sys2Proof.Machine

/-! ### Bundles -/

/-- The slot of a bundle an operation takes: stage V0 to V3, MEM 4, XFER 5, CTL 6 (R212, Table 6.1). -/
def slotOf : Instr → Option Nat
  | .mvm _ v _ _ _ _ => some v.val
  | .opa _ v _ _ _ _ => some v.val
  | .lmac _ v _ _ _ _ _ => some v.val
  | .add _ v _ _ _ _ _ => some v.val
  | .sub _ v _ _ _ _ _ => some v.val
  | .mul _ v _ _ _ _ _ => some v.val
  | .max _ v _ _ _ _ _ => some v.val
  | .min _ v _ _ _ _ _ => some v.val
  | .rq _ v _ _ _ _ => some v.val
  | .lut _ v _ _ _ => some v.val
  | .cmp _ v _ _ _ _ _ _ => some v.val
  | .plog _ v _ _ => some v.val
  | .sel _ v _ _ _ _ _ _ => some v.val
  | .shf _ v _ _ _ _ _ => some v.val
  | .red _ v _ _ _ _ _ => some v.val
  | .aclr _ v _ _ => some v.val
  | .amov _ v _ _ _ => some v.val
  | .ldw _ _ _ _ => some 4
  | .stw _ _ _ _ => some 4
  | .ldn _ _ _ _ => some 4
  | .stn _ _ _ _ => some 4
  | .ldt _ _ _ _ _ _ => some 4
  | .put _ _ _ _ _ _ _ => some 5
  | .send _ _ _ _ _ _ => some 5
  | .recv _ _ _ _ _ => some 5
  | .egr _ _ _ _ => some 5
  | .wait _ _ _ => some 6
  | _ => none

/-- An operation as a mould holds it: without its perch and without the outcomes of its reads (R208). -/
def asHeld : Instr → Instr
  | .mvm _ v g f a x => .mvm 0 v g f a x
  | .opa _ v g f a b => .opa 0 v g f a b
  | .lmac _ v g f c a b => .lmac 0 v g f c a b
  | .add _ v g f a b d => .add 0 v g f a b d
  | .sub _ v g f a b d => .sub 0 v g f a b d
  | .mul _ v g f a b d => .mul 0 v g f a b d
  | .max _ v g f a b d => .max 0 v g f a b d
  | .min _ v g f a b d => .min 0 v g f a b d
  | .rq _ v g f a d => .rq 0 v g f a d
  | .lut _ v g w x => .lut 0 v g w x
  | .cmp _ v g f o a b m => .cmp 0 v g f o a b m
  | .plog _ v g o => .plog 0 v g o
  | .sel _ v g m a b d f => .sel 0 v g m a b d f
  | .shf _ v g q x d f => .shf 0 v g q x d f
  | .red _ v g f m x d => .red 0 v g f m x d
  | .aclr _ v g a => .aclr 0 v g a
  | .amov _ v g a b => .amov 0 v g a b
  | .ldw _ g a _ => .ldw 0 g a []
  | .stw _ g a x => .stw 0 g a x
  | .ldn _ g a _ => .ldn 0 g a .clean
  | .stn _ g a x => .stn 0 g a x
  | .ldt _ v g a h _ => .ldt 0 v g a h []
  | .put _ g d o u k x => .put 0 g d o u k x
  | .send _ g d c t x => .send 0 g d c t x
  | .recv _ g l c k => .recv 0 g l c k
  | .egr _ g t x => .egr 0 g t x
  | .wait _ k n => .wait 0 k n
  | i => i

/-- The operations of a bundle, at most one for each slot (R212); one of 16 zero bytes issues none (worked example of "A
complete image"). -/
def bundleOps (b : Nat) : List Instr :=
  if b = 0 then []
  else (List.range 7).filterMap fun k => (Config.bundle b).find? fun i => slotOf i == some k

/-- The bundles of a mould (Table 6.5). -/
def mouldBody (m : Image) (r i : Nat) : List (List Instr) :=
  ((m.str Fld.mbody [r, i]).getD []).map bundleOps

/-! ### The cycle an operation issues in -/

/-- The schedule of a perch changes. -/
def onIss (p : Fin 72) (f : Issue → Issue) (s : State) : State :=
  onPerch p (fun x => { x with iss := f x.iss }) s

/-- The registers of a Finch. -/
def regsOf (fi : Finch) : Regs :=
  ⟨fi.stages, fi.inReg, fi.inPoison, fi.masks, fi.maskPoison, fi.preds, fi.predPoison⟩

/-- A Finch with other registers. -/
def withRegs (r : Regs) (fi : Finch) : Finch :=
  { fi with
    stages := r.stages, inReg := r.inReg, inPoison := r.inPoison, masks := r.masks, maskPoison := r.maskPoison
    preds := r.preds, predPoison := r.predPoison }

/-- The bundle an operation issues in, and whether it is the one in issue: the first from there on that holds it in a
free slot; for an operation the running mould holds no further, the next bundle (R212, R299; log entry 42). -/
def placeOp (s : State) (p : Fin 72) (i : Instr) : Nat × Bool :=
  let fi := s.fab.perch[p].finch
  let x := s.fab.perch[p].iss
  let body := mouldBody s.img (rowOf p) fi.mould
  let n := body.length * s.img.nat Fld.mrepeat [rowOf p, fi.mould]
  let taken := (slotOf i).any x.slots.contains
  match (List.range (n - x.bun)).find? fun d =>
      ((body.getD ((x.bun + d) % body.length) []).any fun o => asHeld o == asHeld i) && (d != 0 || !taken) with
  | some d => (x.bun + d, d == 0 && !x.slots.isEmpty)
  | none => (if x.slots.isEmpty then x.bun else x.bun + 1, false)

/-- The Finch as an operation reads it: every operation of a bundle reads what stood at the start of its cycle (R212,
Edges of "Predication and void operations"). -/
def opView (s : State) (p : Fin 72) (i : Instr) : Finch :=
  let x := s.fab.perch[p]
  if (placeOp s p i).2 then withRegs x.iss.old x.finch else x.finch

/-- An operation takes its slot of its bundle (R212). -/
def beginOp (p : Fin 72) (i : Instr) (s : State) : State :=
  let (n, same) := placeOp s p i
  let k := (slotOf i).toList
  onIss p (fun x =>
    if same then { x with slots := k ++ x.slots }
    else { x with bun := n, slots := k, old := regsOf (finchOf s p) }) s

/-! ### Slices of a beat's work -/

/-- Floor cycles C of a beat (R107): TL_MIN counts 5 ns. -/
def floorCycles (m : Image) : Nat :=
  m.nat Fld.tlMin [] * 21 / 4

/-- Tithe cycles t, 0 when the image waives the tithe (R107, R114). -/
def titheCycles (m : Image) : Nat :=
  if m.on Fld.titheWaive [] then 0 else (floorCycles m + 15) / 16

/-- First cycle of a mould: the lengths of those before it (R219). -/
def mouldCycle (m : Image) (r i : Nat) : Nat :=
  ((List.range i).map fun j => m.nat Fld.mlen [r, j]).sum

/-- Work W of a row's beat (R220). -/
def workOf (m : Image) (r : Nat) : Nat :=
  mouldCycle m r (m.nat Fld.fold [r])

/-- Number of slices S of a row (R109). -/
def sliceCount (m : Image) (r : Nat) : Nat :=
  let t := titheCycles m
  if t = 0 then 0 else (workOf m r + t - 1) / t

/-- The work cycles of slice j: from the first to before the second (R222). -/
def sliceCycles (m : Image) (r j : Nat) : Nat × Nat :=
  (j * titheCycles m, Nat.min ((j + 1) * titheCycles m) (workOf m r))

/-- The tithe is in force for a perch. -/
def titheOn (s : State) (p : Fin 72) : Bool :=
  decide (0 < sliceCount s.img (rowOf p))

/-- The work cycle of the bundle in issue (R299). -/
def cycleNow (s : State) (p : Fin 72) : Nat :=
  mouldCycle s.img (rowOf p) (finchOf s p).mould + s.fab.perch[p].iss.bun

/-- The slice whose cycles hold the bundle in issue (R222); the last one takes what a late mould issues past W. -/
def sliceNow (s : State) (p : Fin 72) : Nat :=
  let n := sliceCount s.img (rowOf p)
  ((List.range n).find? fun j => decide (cycleNow s p < (sliceCycles s.img (rowOf p) j).2)).getD (n - 1)

/-- No bundle of a slice has issued yet: its start is still ahead or is the next cycle (R223). -/
def beforeSlice (s : State) (p : Fin 72) (j : Nat) : Bool :=
  let a := (sliceCycles s.img (rowOf p) j).1
  decide (cycleNow s p < a) || (decide (cycleNow s p = a) && s.fab.perch[p].iss.slots.isEmpty)

/-! ### Signatures -/

/-- The CRC register of a slice that has no output yet (R110, R601). -/
def sigStart : BitVec 32 := 0xFFFFFFFF#32

/-- The CRC register of a slice. -/
def sigOf (l : List (Nat × BitVec 32)) (j : Nat) : BitVec 32 :=
  ((l.find? fun x => x.1 == j).map (·.2)).getD sigStart

/-- Outputs join the signature of a slice. -/
def sigAdd (j : Nat) (bs : List Byte) (l : List (Nat × BitVec 32)) : List (Nat × BitVec 32) :=
  (j, bs.foldl crcByte (sigOf l j)) :: l.filter fun x => x.1 != j

/-- The newest beat kept for the check changes. -/
def onWork (p : Fin 72) (f : Work → Work) (s : State) : State :=
  onIss p (fun x => { x with work := match x.work with
    | [] => []
    | w :: r => f w :: r }) s

/-- An operation has issued with its ordered outputs: both join the slice of its cycle while the tithe is in force (R110,
R222). -/
def noteOp (p : Fin 72) (i : Instr) (out : List Byte) (s : State) : State :=
  if titheOn s p then
    let j := sliceNow s p
    onWork p (fun w => { w with ops := (j, (finchOf s p).mould, i) :: w.ops, sigs := sigAdd j out w.sigs }) s
  else s

/-- Accumulator lanes as signature bytes (R110; log entry 42). -/
def accBytes (t : Stage) (l : List (Fin 16)) : List Byte :=
  l.flatMap fun j => t.acc[j].toList.flatMap fun x => le 4 x.toNat

/-- The accumulator vector a destination is. -/
def dstAccs : VDst → List (Fin 16)
  | .out => []
  | .acc j => [j]

/-- The accumulator vectors a stage operation writes (Table 6.1). -/
def accsOf : Instr → List (Fin 16)
  | .mvm _ _ _ _ a _ => [a]
  | .opa _ _ _ _ _ _ => List.finRange 16
  | .lmac _ _ _ _ a _ _ => [a]
  | .add _ _ _ _ _ _ d => dstAccs d
  | .sub _ _ _ _ _ _ d => dstAccs d
  | .mul _ _ _ _ _ _ d => dstAccs d
  | .max _ _ _ _ _ _ d => dstAccs d
  | .min _ _ _ _ _ _ d => dstAccs d
  | .sel _ _ _ _ _ _ d _ => dstAccs d
  | .shf _ _ _ _ _ d _ => dstAccs d
  | .red _ _ _ _ _ _ d => dstAccs d
  | .aclr _ _ _ a => (List.finRange 16).filter fun j => a.getLsbD j.val
  | .amov _ _ _ _ d => [d]
  | _ => []

/-- A write as signature bytes: each address, then its data, or nothing for a void write (R110). -/
def writeBytes (as : List Nat) (d : Option (List WWord)) : List Byte :=
  match d with
  | some ws => (as.zip ws).flatMap fun x => le 2 x.1 ++ le 8 x.2.data.toNat
  | none => as.flatMap (le 2)

/-- The 80 bits of a token as bytes (Table 6.2). -/
def tokenBytes (t : Token) : List Byte :=
  le 10 ((tokenPar t ++ tokenBits t).toNat)

end Sys2Proof.Machine
end

