-- ==== Sys2Proof/Machine/Finch.lean ====
section
/-! DEFINITION. The stage operations of the Finch (Table 6.1) with the arithmetic of R337 to R346 and the precision
modes of R347 to R351. -/

namespace Sys2Proof.Machine

/-- A stage operation: nothing where the Finch does not issue or the format is not one of the operation's. It takes its
slot, reads what stood at the start of its cycle, and under a true predicate does `body`, told whether the predicate is
poisoned (R212, R320, R324); its accumulator results join the signature of its slice (R110). -/
def stageOp (p : Fin 72) (v : Fin 4) (i : Instr) (g : PredSel) (formats : Bool) (body : Finch → Bool → State → State)
    (s : State) : Host.Outcome State Fault Refusal :=
  if issues s p && formats then
    let fi := opView s p i
    let u := beginOp p i s
    if predValue fi g then
      let t := body fi (predMark fi g) u
      .next (noteOp p i (accBytes (finchOf t p).stages[v] (accsOf i)) t)
    else .next (noteOp p i [] u)
  else .next s

/-- Operand formats of MVM and OPA (Table 6.1). -/
def macFormats : List Fmt := [.int4, .int8, .e4m3, .e5m2, .int16, .bf16]

/-- Operand formats of LMAC (Table 6.1). -/
def lmacFormats : List Fmt := [.int8, .int16, .bf16]

/-- Operand formats of ADD, SUB and MUL (Table 6.1). -/
def arithFormats : List Fmt := [.int16, .int32, .bf16]

/-- Operand formats of MAX, MIN and CMP (Table 6.1). -/
def orderFormats : List Fmt := [.int8, .int16, .int32, .bf16]

/-- Output formats of RQ (Table 6.1). -/
def rqFormats : List Fmt := [.int4, .int8, .int16, .e4m3, .e5m2, .bf16]

/-! ### Multiply-accumulate -/

/-- One accumulator lane after an issue with operand pairs in format `f`, and whether it saturated (R337, R338). -/
def accumulate (f : Fmt) (trunc : Bool) (acc : BitVec 32) (xs : List (BitVec 32 × BitVec 32)) : BitVec 32 × Bool :=
  if fmtInt f then
    let t := acc.toInt + (xs.map fun q => intOf f q.1 * intOf f q.2).sum
    (laneInt (satInt 32 t), satInt 32 t != t)
  else
    (laneCode (faccumulate trunc acc.toNat
      (xs.map fun q => fmul (fmtDecode f (codeOf f q.1)) (fmtDecode f (codeOf f q.2)))), false)

/-- Counters after an issue that wrote these lanes (R337, R341). -/
def countIssue (f : Fmt) (r : List (BitVec 32 × Bool)) (s : State) : State :=
  countSpecial (!fmtInt f && r.any fun x => special32 x.1.toNat) (countAccSat (r.any (·.2)) s)

/-- The magnitude of a value lies strictly below the threshold (R348). -/
def belowTheta (f : Fmt) (theta : Nat) (x : BitVec 32) : Bool :=
  if fmtInt f then decide ((intOf f x).natAbs < theta)
  else
    let m := match fmtDecode f (codeOf f x) with
      | .num _ m e => FVal.num false m e
      | y => y
    fcmp m (fmtDecode f theta) == some .lt

/-- The value is a NaN or an infinity (R349). -/
def notFinite (f : Fmt) (x : BitVec 32) : Bool :=
  !fmtInt f && !(fmtDecode f (codeOf f x)).isFinite

/-- QMODE in force at a stage (R347). -/
def qMode (s : State) (p : Fin 72) (v : Fin 4) : Nat :=
  s.img.nat Fld.qmode [rowOf p, (finchOf s p).mould, v.val]

/-- QTHETA in force at a stage (R348). -/
def qTheta (s : State) (p : Fin 72) (v : Fin 4) : Nat :=
  s.img.nat Fld.qtheta [rowOf p, (finchOf s p).mould, v.val]

/-- Operand pairs of output lane `i` of an MVM (R335). -/
def mvmPairs (t : Stage) (f : Fmt) (x : Vec) (i : Nat) : List (BitVec 32 × BitVec 32) :=
  let n := if f = .int4 then 32 else 16
  (List.range n).map fun j => (laneOf f (tileCode t f (n * i + j)), x.at j)

/-- The tile an issue reads is poisoned: both halves at 16 bits, else the first. -/
def tileMark (t : Stage) (f : Fmt) : Bool :=
  if fmtWidth f = 16 then t.tilePoison != 0 else t.tilePoison.getLsbD 0

/-- The full MVM issue (R337, R338). -/
def mvmExact (p : Fin 72) (v : Fin 4) (f : Fmt) (acc : Fin 16) (x : Vec) (fi : Finch) (mark : Bool) (s : State) :
    State :=
  let t := fi.stages[v]
  let r := (List.finRange 16).map fun i => accumulate f true t.acc[acc][i] (mvmPairs t f x i.val)
  let poison := x.poison || tileMark t f || t.accPoison.getLsbD acc.val || mark
  countIssue f r (onStage p v (setAcc acc (r.map (·.1)) poison) s)

/-- A skipped issue leaves its accumulator lanes, and is counted when one holds a NaN or an infinity (R341, R350). -/
def mvmSkipped (v : Fin 4) (f : Fmt) (acc : Fin 16) (fi : Finch) (s : State) : State :=
  countSpecial (!fmtInt f && fi.stages[v].acc[acc].toList.any fun x => special32 x.toNat) s

/-- MVM with the precision mode of its stage (R347 to R351). NARROW gives the EXACT result. -/
def mvmBody (p : Fin 72) (v : Fin 4) (f : Fmt) (acc : Fin 16) (src : VSrc) (fi : Finch) (mark : Bool) (s : State) :
    State :=
  let x := readVec fi v f (f == .int4) src
  let mode := qMode s p v
  let narrow := mode = 2
  if mode = 0 ∨ (mode = 2 ∧ f ≠ .int8) then mvmExact p v f acc x fi mark s
  else if x.poison then mvmExact p v f acc x fi mark (countQpoison s)
  else if x.lanes.any (notFinite f) then mvmExact p v f acc x fi mark s
  else
    let cheap := x.lanes.all (belowTheta f (qTheta s p v))
    let s := countEligible narrow cheap s
    if cheap && !narrow then mvmSkipped v f acc fi s else mvmExact p v f acc x fi mark s

/-- MVM: acc[i] += Σ W[i][j] × x[j] (R214, R335). -/
def execMvm (p : Fin 72) (v : Fin 4) (g : PredSel) (f : Fmt) (acc : Fin 16) (x : VSrc) (s : State) :
    Host.Outcome State Fault Refusal :=
  stageOp p v (.mvm p v g f acc x) g (macFormats.contains f) (mvmBody p v f acc x) s

/-- The rows of an outer product. -/
def opaRows (t : Stage) (f : Fmt) (a b : Vec) : List (List (BitVec 32 × Bool)) :=
  (List.finRange 16).map fun i => (List.finRange 16).map fun j =>
    accumulate f true t.acc[i][j] [(a.at i.val, b.at j.val)]

/-- OPA: acc[i][j] += a[i] × b[j] over the 16 accumulator vectors; int4 operands are widened to int8, which keeps
their value (R214). -/
def opaBody (p : Fin 72) (v : Fin 4) (f : Fmt) (sa sb : VSrc) (fi : Finch) (mark : Bool) (s : State) : State :=
  let a := readVec fi v f false sa
  let b := readVec fi v f false sb
  let rows := opaRows fi.stages[v] f a b
  let poison := a.poison || b.poison || mark
  countIssue f rows.flatten (onStage p v (fun t =>
    (List.finRange 16).foldl (fun u i =>
      setAcc i ((rows.getD i.val []).map (·.1)) (poison || t.accPoison.getLsbD i.val) u) t) s)

/-- OPA (R214). -/
def execOpa (p : Fin 72) (v : Fin 4) (g : PredSel) (f : Fmt) (a b : VSrc) (s : State) :
    Host.Outcome State Fault Refusal :=
  stageOp p v (.opa p v g f a b) g (macFormats.contains f) (opaBody p v f a b) s

/-- LMAC: acc[i] += a[i] × b[i] (R214, R338). -/
def lmacBody (p : Fin 72) (v : Fin 4) (f : Fmt) (acc : Fin 16) (sa sb : VSrc) (fi : Finch) (mark : Bool)
    (s : State) : State :=
  let a := readVec fi v f false sa
  let b := readVec fi v f false sb
  let t := fi.stages[v]
  let r := (List.finRange 16).map fun i => accumulate f false t.acc[acc][i] [(a.at i.val, b.at i.val)]
  let poison := a.poison || b.poison || t.accPoison.getLsbD acc.val || mark
  countIssue f r (onStage p v (setAcc acc (r.map (·.1)) poison) s)

/-- LMAC (R214). -/
def execLmac (p : Fin 72) (v : Fin 4) (g : PredSel) (f : Fmt) (acc : Fin 16) (a b : VSrc) (s : State) :
    Host.Outcome State Fault Refusal :=
  stageOp p v (.lmac p v g f acc a b) g (lmacFormats.contains f) (lmacBody p v f acc a b) s

/-! ### Lane-wise arithmetic -/

/-- One lane of an arithmetic operation: saturated integers, or bf16 rounded to nearest even (R342). -/
def arithLane (f : Fmt) (fi : Int → Int → Int) (ff : FVal → FVal → FVal) (a b : BitVec 32) : BitVec 32 :=
  if fmtInt f then laneInt (satInt (fmtWidth f) (fi (intOf f a) (intOf f b)))
  else
    let x := codeOf f a
    let y := codeOf f b
    laneCode (encodeBf16 (Config.zeroSign x y) (ff (decodeBf16 x) (decodeBf16 y)))

/-- A lane-wise operation on two vectors into a destination. -/
def laneBody (p : Fin 72) (v : Fin 4) (f : Fmt) (op : BitVec 32 → BitVec 32 → BitVec 32) (sa sb : VSrc) (d : VDst)
    (fi : Finch) (mark : Bool) (s : State) : State :=
  let a := readVec fi v f false sa
  let b := readVec fi v f false sb
  let r := (List.range 16).map fun i => op (a.at i) (b.at i)
  onStage p v (setDst d r (a.poison || b.poison || mark)) s

/-- An arithmetic operation with its count of specials (R341, R342). -/
def arithBody (p : Fin 72) (v : Fin 4) (f : Fmt) (oi : Int → Int → Int) (of_ : FVal → FVal → FVal)
    (sa sb : VSrc) (d : VDst) (fi : Finch) (mark : Bool) (s : State) : State :=
  let a := readVec fi v f false sa
  let b := readVec fi v f false sb
  let sp := (List.range 16).any fun i => special16 (codeOf f (arithLane f oi of_ (a.at i) (b.at i)))
  countSpecial (!fmtInt f && sp) (laneBody p v f (arithLane f oi of_) sa sb d fi mark s)

/-- ADD (R342). -/
def execAdd (p : Fin 72) (v : Fin 4) (g : PredSel) (f : Fmt) (a b : VSrc) (d : VDst) (s : State) :
    Host.Outcome State Fault Refusal :=
  stageOp p v (.add p v g f a b d) g (arithFormats.contains f) (arithBody p v f (· + ·) fadd a b d) s

/-- SUB (R342). -/
def execSub (p : Fin 72) (v : Fin 4) (g : PredSel) (f : Fmt) (a b : VSrc) (d : VDst) (s : State) :
    Host.Outcome State Fault Refusal :=
  stageOp p v (.sub p v g f a b d) g (arithFormats.contains f)
    (arithBody p v f (· - ·) (fun x y => fadd x y.neg) a b d) s

/-- MUL (R342). -/
def execMul (p : Fin 72) (v : Fin 4) (g : PredSel) (f : Fmt) (a b : VSrc) (d : VDst) (s : State) :
    Host.Outcome State Fault Refusal :=
  stageOp p v (.mul p v g f a b d) g (arithFormats.contains f) (arithBody p v f (· * ·) fmul a b d) s

/-- The order of two lanes by value, none with a NaN (R342). -/
def laneCmp (f : Fmt) (a b : BitVec 32) : Option Ordering :=
  if fmtInt f then some (compare (intOf f a) (intOf f b))
  else fcmp (fmtDecode f (codeOf f a)) (fmtDecode f (codeOf f b))

/-- The code of an operand as it is read: a bf16 subnormal is the zero of its sign (R334). -/
def asRead (f : Fmt) (x : Nat) : Nat :=
  if f = .bf16 ∧ bits x 7 8 = 0 then 32768 * bits x 15 1 else x

/-- The extreme of two lanes: the one that compares `want`; where neither does and they differ, the spec does not
say which (log entry 8). -/
def extreme (f : Fmt) (want : Ordering) (a b : BitVec 32) : BitVec 32 :=
  let a' := laneOf f (asRead f (codeOf f a))
  let b' := laneOf f (asRead f (codeOf f b))
  if laneCmp f a b = some want then a'
  else if laneCmp f b a = some want then b'
  else if a' = b' then a'
  else if Config.pickFirst (codeOf f a) (codeOf f b) then a' else b'

/-- MAX or MIN lane by lane, with its count of specials (R341, R342). -/
def extremeBody (p : Fin 72) (v : Fin 4) (f : Fmt) (want : Ordering) (sa sb : VSrc) (d : VDst) (fi : Finch)
    (mark : Bool) (s : State) : State :=
  let a := readVec fi v f false sa
  let b := readVec fi v f false sb
  let sp := (List.range 16).any fun i => special16 (codeOf f (extreme f want (a.at i) (b.at i)))
  countSpecial (f == .bf16 && sp) (laneBody p v f (extreme f want) sa sb d fi mark s)

/-- MAX (R342). -/
def execMax (p : Fin 72) (v : Fin 4) (g : PredSel) (f : Fmt) (a b : VSrc) (d : VDst) (s : State) :
    Host.Outcome State Fault Refusal :=
  stageOp p v (.max p v g f a b d) g (orderFormats.contains f) (extremeBody p v f .gt a b d) s

/-- MIN (R342). -/
def execMin (p : Fin 72) (v : Fin 4) (g : PredSel) (f : Fmt) (a b : VSrc) (d : VDst) (s : State) :
    Host.Outcome State Fault Refusal :=
  stageOp p v (.min p v g f a b d) g (orderFormats.contains f) (extremeBody p v f .lt a b d) s

/-! ### Requantisation and tables -/

/-- One lane of RQ on int32, and whether it saturated (R344). -/
def rqInt (f : Fmt) (m z : Int) (sh : Nat) (acc : BitVec 32) : BitVec 32 × Bool :=
  let v := divNearestEven (acc.toInt * m) (2 ^ sh) + z
  (laneInt (satInt (fmtWidth f) v), satInt (fmtWidth f) v != v)

/-- An fp32 value times 2^k: exact unless R340 applies. -/
def scaleFp32 (k : Int) (x : Nat) : Nat :=
  match decodeFp32 x with
  | .num n m e => if m = 0 then x else encodeFp32 n (.num n m (e + k))
  | y => encodeFp32 false y

/-- bf16 rounding of RQ: a finite value or an infinity beyond the largest finite saturates (R345). -/
def rqBf16 (v : FVal) : Nat × Bool :=
  match v with
  | .num n m e =>
    if m = 0 then (32768 * bit n, false)
    else match encodeMag 8 m e with
      | some (ex, fr) => (32768 * bit n + ex * 128 + fr, false)
      | none => (32768 * bit n + 0x7F7F, true)
  | .inf n => (32768 * bit n + 0x7F7F, true)
  | .nan => (0x7FC0, false)

/-- One lane of RQ on fp32, and whether it saturated (R345). -/
def rqFloat (f : Fmt) (k : Int) (acc : BitVec 32) : BitVec 32 × Bool :=
  let v := decodeFp32 (scaleFp32 k acc.toNat)
  let (c, sat) := match f with
    | .e4m3 => encode8 3 7 0x7E 0x7F v
    | .e5m2 => encode8 2 15 0x7B 0x7E v
    | _ => rqBf16 v
  (laneCode c, sat)

/-- An output code of RQ is a NaN (R341, R345). -/
def rqSpecial (f : Fmt) (x : Nat) : Bool :=
  match f with
  | .e4m3 => bits x 0 7 = 0x7F
  | .e5m2 => bits x 2 5 = 31
  | .bf16 => special16 x
  | _ => false

/-- RQ of an accumulator vector by a descriptor of the running mould into the pipeline register (R344 to R346). -/
def rqBody (p : Fin 72) (v : Fin 4) (f : Fmt) (acc : Fin 16) (d : Fin 8) (fi : Finch) (mark : Bool) (s : State) :
    State :=
  let ix := [rowOf p, fi.mould, v.val, d.val]
  let lane := fun (x : BitVec 32) =>
    if fmtInt f then rqInt f (s.img.int Fld.rqM ix) (s.img.int Fld.rqZ ix) (s.img.nat Fld.rqS ix) x
    else rqFloat f (s.img.int Fld.rqK ix) x
  let t := fi.stages[v]
  let r := t.acc[acc].toList.map lane
  countSpecial (r.any fun x => rqSpecial f (codeOf f x.1)) (countRqSat (r.any (·.2))
    (onStage p v (setOut (r.map (·.1)) (t.accPoison.getLsbD acc.val || mark)) s))

/-- RQ (R344, R345). -/
def execRq (p : Fin 72) (v : Fin 4) (g : PredSel) (f : Fmt) (acc : Fin 16) (desc : Fin 8) (s : State) :
    Host.Outcome State Fault Refusal :=
  stageOp p v (.rq p v g f acc desc) g (rqFormats.contains f) (rqBody p v f acc desc) s

/-- Entry of the stage's lookup table for an int8 value: entry e serves input e − 128, all 0 by default (Table
16.11). -/
def lutEntry (s : State) (ix : List Nat) (x : Int) : Int :=
  signed 16 (((s.img.str Fld.lut ix).getD []).getD (x + 128).toNat 0)

/-- LUT: int8 in, int8 or int16 out (R214). -/
def lutBody (p : Fin 72) (v : Fin 4) (wide : Bool) (x : VSrc) (fi : Finch) (mark : Bool) (s : State) : State :=
  let a := readVec fi v .int8 false x
  let e := fun i => lutEntry s [rowOf p, fi.mould, v.val] (intOf .int8 (a.at i))
  let r := (List.range 16).map fun i => laneInt (if wide then e i else signed 8 (unsign 8 (e i)))
  onStage p v (setOut r (a.poison || mark)) s

/-- LUT (R214). -/
def execLut (p : Fin 72) (v : Fin 4) (g : PredSel) (wide : Bool) (x : VSrc) (s : State) :
    Host.Outcome State Fault Refusal :=
  stageOp p v (.lut p v g wide x) g true (lutBody p v wide x) s

/-! ### Masks and selection -/

/-- One comparison of CMP; false with a NaN (R342). -/
def cmpHolds (op : CmpOp) (o : Option Ordering) : Bool :=
  match o with
  | none => false
  | some o =>
    match op with
    | .eq => o == .eq
    | .ne => o != .eq
    | .lt => o == .lt
    | .le => o != .gt
    | .gt => o == .gt
    | .ge => o != .lt

/-- CMP of two vectors, or a vector and a scalar, into a lane mask (R214, R324). -/
def cmpBody (p : Fin 72) (v : Fin 4) (f : Fmt) (op : CmpOp) (sa sb : VSrc) (m : Fin 8) (fi : Finch) (mark : Bool)
    (s : State) : State :=
  let a := readVec fi v f false sa
  let b := readVec fi v f false sb
  let r := maskOf ((List.range 16).map fun i => cmpHolds op (laneCmp f (a.at i) (b.at i)))
  onFinch p (setMask m r (a.poison || b.poison || mark)) s

/-- CMP (R214). -/
def execCmp (p : Fin 72) (v : Fin 4) (g : PredSel) (f : Fmt) (op : CmpOp) (a b : VSrc) (m : Fin 8) (s : State) :
    Host.Outcome State Fault Refusal :=
  stageOp p v (.cmp p v g f op a b m) g (orderFormats.contains f) (cmpBody p v f op a b m) s

/-- PLOG: logic on lane masks, ANY or ALL of a mask into a predicate (R214, R324). -/
def plogBody (p : Fin 72) (op : PlogOp) (fi : Finch) (mark : Bool) (s : State) : State :=
  let m := fun (k : Fin 8) => fi.masks[k]
  let q := fun (k : Fin 8) => fi.maskPoison.getLsbD k.val
  match op with
  | .and a b d => onFinch p (setMask d (m a &&& m b) (q a || q b || mark)) s
  | .or a b d => onFinch p (setMask d (m a ||| m b) (q a || q b || mark)) s
  | .not a d => onFinch p (setMask d (~~~(m a)) (q a || mark)) s
  | .any a d => onFinch p (setPred d (m a != 0) (q a || mark)) s
  | .all a d => onFinch p (setPred d (m a == 0xFFFF#16) (q a || mark)) s

/-- PLOG (R214). Of its stage it takes the slot alone. -/
def execPlog (p : Fin 72) (v : Fin 4) (g : PredSel) (op : PlogOp) (s : State) : Host.Outcome State Fault Refusal :=
  stageOp p v (.plog p v g op) g true (plogBody p op) s

/-- SEL: lane i of `a` where bit i of the mask is 1, else of `b`; poisoned when the mask is, or takes a lane of a
poisoned vector (R214, R332, Edges of "Predication"). -/
def selBody (p : Fin 72) (v : Fin 4) (f : Fmt) (m : Fin 8) (sa sb : VSrc) (d : VDst) (fi : Finch) (mark : Bool) (s : State) :
    State :=
  let a := readVec fi v f false sa
  let b := readVec fi v f false sb
  let k := fi.masks[m]
  let r := (List.range 16).map fun i => if k.getLsbD i then a.at i else b.at i
  let poison := fi.maskPoison.getLsbD m.val || (a.poison && k != 0) || (b.poison && k != 0xFFFF#16) || mark
  onStage p v (setDst d r poison) s

/-- SEL (R214). -/
def execSel (p : Fin 72) (v : Fin 4) (g : PredSel) (m : Fin 8) (a b : VSrc) (d : VDst) (s : State)
    (f : Fmt := .int32) : Host.Outcome State Fault Refusal :=
  stageOp p v (.sel p v g m a b d f) g true (selBody p v f m a b d) s

/-- Source lane of permutation `q` for lane `n`: entry 16q + n of the stage's table, n by default (Table 16.11). -/
def permEntry (s : State) (ix : List Nat) (q n : Nat) : Nat :=
  match s.img.str Fld.perm ix with
  | some t => t.getD (16 * q + n) 0
  | none => n

/-- SHF: lane permutation (R214, R332). -/
def shfBody (p : Fin 72) (v : Fin 4) (f : Fmt) (q : Fin 16) (x : VSrc) (d : VDst) (fi : Finch) (mark : Bool) (s : State) :
    State :=
  let a := readVec fi v f false x
  let r := (List.range 16).map fun n => a.at (permEntry s [rowOf p, fi.mould, v.val] q.val n)
  onStage p v (setDst d r (a.poison || mark)) s

/-- SHF (R214). -/
def execShf (p : Fin 72) (v : Fin 4) (g : PredSel) (q : Fin 16) (x : VSrc) (d : VDst) (s : State)
    (f : Fmt := .int32) : Host.Outcome State Fault Refusal :=
  stageOp p v (.shf p v g q x d f) g true (shfBody p v f q x d) s

/-! ### Reduction and accumulators -/

/-- The sum or maximum of 16 lanes (R342). -/
def reduce (f : Fmt) (mx : Bool) (l : Lanes) : BitVec 32 :=
  if mx then (l.drop 1).foldl (extreme f .gt) (l.getD 0 0)
  else if fmtInt f then laneInt (satInt 32 ((l.map BitVec.toInt).sum))
  else laneCode (redTree (l.map BitVec.toNat))

/-- RED into lane 0 of the destination, whose other lanes stay (log entry 6). -/
def redBody (p : Fin 72) (v : Fin 4) (f : Fmt) (mx : Bool) (x : VSrc) (d : VDst) (fi : Finch) (mark : Bool)
    (s : State) : State :=
  let a := readVec fi v f false x
  let r := reduce f mx ((List.range 16).map a.at)
  let old := dstVec fi v d
  let s := countSpecial (f == .fp32 && special32 r.toNat) s
  onStage p v (setDst d (((List.range 16).map old.at).set 0 r) (a.poison || old.poison || mark)) s

/-- RED (R342). -/
def execRed (p : Fin 72) (v : Fin 4) (g : PredSel) (f : Fmt) (max : Bool) (x : VSrc) (d : VDst) (s : State) :
    Host.Outcome State Fault Refusal :=
  stageOp p v (.red p v g f max x d) g (f == .int32 || f == .fp32) (redBody p v f max x d) s

/-- ACLR: the accumulators of a mask are cleared, with their poison marks unless the predicate is poisoned. -/
def aclrBody (p : Fin 72) (v : Fin 4) (accs : BitVec 16) (_fi : Finch) (mark : Bool) (s : State) : State :=
  onStage p v (fun t => (List.finRange 16).foldl (fun u j =>
    if accs.getLsbD j.val then setAcc j (List.replicate 16 0) mark u else u) t) s

/-- ACLR (R214). -/
def execAclr (p : Fin 72) (v : Fin 4) (g : PredSel) (accs : BitVec 16) (s : State) :
    Host.Outcome State Fault Refusal :=
  stageOp p v (.aclr p v g accs) g true (aclrBody p v accs) s

/-- AMOV: one accumulator vector into another. -/
def amovBody (p : Fin 72) (v : Fin 4) (src dst : Fin 16) (fi : Finch) (mark : Bool) (s : State) : State :=
  let t := fi.stages[v]
  onStage p v (setAcc dst t.acc[src].toList (t.accPoison.getLsbD src.val || mark)) s

/-- AMOV (R214). -/
def execAmov (p : Fin 72) (v : Fin 4) (g : PredSel) (src dst : Fin 16) (s : State) :
    Host.Outcome State Fault Refusal :=
  stageOp p v (.amov p v g src dst) g true (amovBody p v src dst) s

end Sys2Proof.Machine
end

