-- ==== Sys2Proof/Machine/Wren.lean ====
section
/-! DEFINITION. The Wren: words and addresses, regions and protection, address generators, errors and poison, the
MEM operations, neighbour writes, arrival counters, scrub, rewrite and retention (R251 to R292). -/

namespace Sys2Proof.Machine

/-! ### Regions -/

/-- A declared region (R273). -/
structure Region where
  /-- its number -/
  ix : Nat
  /-- first block -/
  base : Nat
  /-- blocks -/
  len : Nat
  /-- 0 streaming, 1 resident, 2 riser -/
  kind : Nat
  /-- neighbour writes accepted -/
  nbw : Bool
  deriving DecidableEq, Repr

/-- The regions of a logical row (Table 7.3). -/
def regionsOf (m : Image) (r : Nat) : List Region :=
  (List.range (m.nat Fld.rgnN [r])).map fun j =>
    ⟨j, m.nat Fld.rgnBase [r, j], m.nat Fld.rgnLen [r, j], m.nat Fld.rgnKind [r, j], m.on Fld.rgnNbw [r, j]⟩

/-- The region that holds a word address. -/
def regionAt (m : Image) (r a : Nat) : Option Region :=
  (regionsOf m r).find? fun g => decide (g.base ≤ a / 256) && decide (a / 256 < g.base + g.len)

/-- The resident regions of a row. -/
def residents (m : Image) (r : Nat) : List Region :=
  (regionsOf m r).filter (·.kind = 1)

/-- The word is resident in a perch. -/
def isResident (s : State) (p : Fin 72) (a : Nat) : Bool :=
  (regionAt s.img (rowOf p) a).any (·.kind = 1)

/-- The used perches of an image by the column map (R206, R210). -/
def usedPerches (m : Image) (s : State) : List (Fin 72) :=
  m.rows.flatMap fun r => (List.range 8).map fun c => perchAt s r c

/-! ### Findings -/

/-- A repair can still be made (R119). -/
def canRepair (s : State) : Bool :=
  s.fab.repairAvail && s.fab.repair.isNone

/-- A perch fault that no repair can mask: DEGRADED on every record until the next reset (R120, Table 3.2). -/
def unmask (s : State) : State :=
  markLines (fun l => { l with degraded := true }) { s with fab := { s.fab with unmasked := true } }

/-- A finding of R115 for a perch in an active column: the repair is due, or with no spare left the fault is not
masked (R120, Table 3.2). -/
def finding (p : Fin 72) (s : State) : State :=
  if activePerch s p = false ∨ s.fab.perch[p].failed then s
  else
    let s := wantSnapshot (onPerch p (fun x => { x with failed := true }) s)
    if canRepair s then
      if s.fab.findings.isEmpty then { s with fab := { s.fab with findings := [p.val] } } else s
    else unmask s

/-- The line of the beat a perch runs carries DEGRADED. -/
def degradeBeat (p : Fin 72) (s : State) : State :=
  markLine (finchOf s p).beat (fun l => { l with degraded := true }) s

/-! ### Words -/

/-- One word of a Wren. -/
def wordAt (s : State) (p : Fin 72) (a : Nat) : WWord :=
  Sparse.read WWord.reset s.fab.perch[p].wren.words a

/-- One word takes a value, within R251; poisoned data is held as the poison pattern (log entry 14). A waiting
correction of the word is discarded (R281). -/
def putWord (p : Fin 72) (a : Nat) (w : WWord) (s : State) : State :=
  if a < 49152 then onWren p (setWord a w) s else s

/-- The 8 check bits of a word: those of the code for its data, or 0xFF in the poison pattern (R251, R282). They go with
the data words of a neighbour request unchanged (R267). -/
def checkOf (w : WWord) : BitVec 8 :=
  if w.poison then 0xFF#8 else Config.checkBits w.data

/-- Words take values, in order. -/
def putWords (p : Fin 72) : List Nat → List WWord → State → State
  | a :: r, w :: ws, s => putWords p r ws (putWord p a w s)
  | _, _, s => s

/-- A correction write-back is queued, at most 4 (R281, WB_DROPPED). -/
def queueWb (p : Fin 72) (a : Nat) (w : WWord) (s : State) : State :=
  if s.fab.perch[p].wren.wbQ.length < 4 then onWren p (fun x => { x with wbQ := x.wbQ ++ [(a, w)] }) s
  else onWCnt (fun c => { c with wbDropped := satInc 32 c.wbDropped }) s

/-- Code of class 0x11 or 0x12 for a word: bit 7 for a resident one (Table 3.1). -/
def eccCode (cls : Nat) (s : State) (p : Fin 72) (a : Nat) : BitVec 16 :=
  faultCode cls (p.val + 128 * bit (isResident s p a))

/-- A region of a Wren is being rewritten from flash (R285). -/
def rewriting (s : State) (p : Fin 72) (j : Nat) : Bool :=
  s.fab.perch[p].wren.rewriting.any fun x => x.1 == j

/-- A resident word is lost in RUN, HOLD or REPAIR: the loader rewrites its region, or after such a rewrite a repair is
due (R285, R115). -/
def residentLost (p : Fin 72) (a : Nat) (s : State) : State :=
  match regionAt s.img (rowOf p) a with
  | some g =>
    if g.kind ≠ 1 ∨ live s = false ∨ rewriting s p g.ix then s
    else if s.flt.reloadedRgn.contains (p.val, g.ix) then finding p s
    else
      onWCnt (fun c => { c with reloading := true })
        (onWren p (fun x => { x with rewriting := x.rewriting ++ [(g.ix, 0)] }) s)
  | none => s

/-- A class 0x11 event of a Wren: reported and counted (R281, R292). -/
def wrenCorrected (code : BitVec 16) (s : State) : State :=
  onWCnt (fun c => { c with corr := satInc 32 c.corr }) (report code s)

/-- A class 0x12 event of a Wren: reported and counted (R282, R292). -/
def wrenLost (code : BitVec 16) (s : State) : State :=
  onWCnt (fun c => { c with uncorr := satInc 32 c.uncorr }) (report code s)

/-- A read met the poison pattern, which is counted and not reported again (R282). -/
def poisonRead (s : State) : State :=
  onWCnt (fun c => { c with poisonReads := satInc 32 c.poisonReads }) s

/-- One word is read with what its SECDED check finds (R280 to R282): data, poison, and the state after it. The
data of an uncorrectable word is a free value. -/
def readWord (p : Fin 72) (a : Nat) (e : Ecc) (s : State) : WWord × State :=
  let w := wordAt s p a
  match e with
  | .uncorrectable =>
    let s := onWren p (fun x => { x with uncorr := satInc 8 x.uncorr }) (wrenLost (eccCode 0x12 s p a) s)
    (⟨BitVec.ofNat 64 (Config.value s.freeCtr), true⟩, residentLost p a (putWord p a ⟨0, true⟩ (bump s)))
  | .corrected =>
    if w.poison then (w, poisonRead s)
    else (w, queueWb p a w (onWren p (fun x => { x with corr := satInc 8 x.corr }) (wrenCorrected (eccCode 0x11 s p a) s)))
  | .clean => if w.poison then (w, poisonRead s) else (w, s)

/-- Words are read in order, each with its check; missing checks are clean. -/
def readWords (p : Fin 72) : List Nat → List Ecc → State → List WWord × State
  | [], _, s => ([], s)
  | a :: r, es, s =>
    let (w, t) := readWord p a (es.headD .clean) s
    let (ws, u) := readWords p r es.tail t
    (w :: ws, u)

/-! ### Address generators -/

/-- The words of a unit (R255): orientation 0 narrow, 1 row, 2 column. -/
def unitWords (orient k : Nat) : List Nat :=
  match orient with
  | 0 => [k]
  | 1 => (List.range 16).map fun i => 16 * k + i
  | _ => (List.range 16).map fun i => 256 * (k / 16) + k % 16 + 16 * i

/-- Uses of generator `ag` an operation makes; a tile load makes two. -/
def agUses (ag : Fin 8) (i : Instr) : Nat :=
  match i with
  | .ldw _ _ a _ => if a = ag then 1 else 0
  | .stw _ _ a _ => if a = ag then 1 else 0
  | .ldn _ _ a _ => if a = ag then 1 else 0
  | .stn _ _ a _ => if a = ag then 1 else 0
  | .ldt _ _ _ a _ _ => if a = ag then 2 else 0
  | _ => 0

/-- Uses of a generator in one repeat of a mould's body. -/
def usesPerRepeat (m : Image) (r i : Nat) (ag : Fin 8) : Nat :=
  ((mouldBody m r i).flatten.map (agUses ag)).sum

/-- Repeat and uses since it began after `k` uses of a generator (R277). -/
def repeatOf (m : Image) (r i : Nat) (ag : Fin 8) (k : Nat) : Nat × Nat :=
  if m.nat Fld.mrepeat [r, i] ≤ 1 then (0, k)
  else
    let n := usesPerRepeat m r i ag
    if n = 0 then (0, k) else (k / n, k % n)

/-- The unit a generator gives for its use `k` in the running mould (R277). -/
def agUnit (s : State) (p : Fin 72) (ag : Fin 8) (k : Nat) : Nat :=
  let r := rowOf p
  let fi := finchOf s p
  let ix := [r, fi.mould, ag.val]
  let (rep, u) := repeatOf s.img r fi.mould ag k
  let line : Int := (fi.beat * s.img.nat Fld.agLstep ix % s.img.nat Fld.agLwrap ix : Nat)
  let step : Int := ((u : Int) * s.img.int Fld.agStep ix + (rep : Int) * s.img.int Fld.agRstep ix).emod
    (s.img.int Fld.agTwrap ix)
  ((s.img.int Fld.agBase ix) + line + step).toNat

/-- Orientation of a generator (AG_ORIENT). -/
def agOrient (s : State) (p : Fin 72) (ag : Fin 8) : Nat :=
  s.img.nat Fld.agOrient [rowOf p, (finchOf s p).mould, ag.val]

/-- The words of a generator's use `k`. -/
def agWords (s : State) (p : Fin 72) (ag : Fin 8) (k : Nat) : List Nat :=
  unitWords (agOrient s p ag) (agUnit s p ag k)

/-- The next use of a generator. -/
def agCount (s : State) (p : Fin 72) (ag : Fin 8) : Nat :=
  (finchOf s p).agUse[ag]

/-- A generator has been used `n` times more. -/
def stepAg (p : Fin 72) (ag : Fin 8) (n : Nat) (s : State) : State :=
  onFinch p (fun x => { x with agUse := vmod x.agUse ag (· + n) }) s

/-- A MEM operation can issue: the Finch issues, and the generator's orientation is wide or narrow as asked. -/
def memIssues (s : State) (p : Fin 72) (ag : Fin 8) (wide : Bool) : Bool :=
  issues s p && (decide (agOrient s p ag ≠ 0) == wide)

/-! ### Loads and stores -/

/-- The words a load reads reach its destination under a true predicate, and the generator steps: LDW and LDN (R259,
R283, Table 8.3). -/
def loadInput (p : Fin 72) (g : PredSel) (ag : Fin 8) (fi : Finch) (ws : List WWord) (s : State) : State :=
  let t := stepAg p ag 1 s
  let mark := ws.any (·.poison) || predMark fi g
  if predValue fi g then
    if ws.length = 1 then onFinch p (setInputWord ((ws.map (·.data)).headD 0) mark) t
    else onFinch p (setInput (ws.map (·.data)) mark) t
  else t

/-- LDW: 16 words into the input register (R259); under a false predicate the words are read and checked and
nothing is written (R283, Table 8.3). -/
def execLdw (p : Fin 72) (g : PredSel) (ag : Fin 8) (ecc : List Ecc) (s : State) : Host.Outcome State Fault Refusal :=
  if memIssues s p ag true = false then .next s
  else
    let i : Instr := .ldw p g ag ecc
    let (ws, t) := readWords p (agWords s p ag (agCount s p ag)) ecc (beginOp p i s)
    .next (noteOp p i [] (loadInput p g ag (opView s p i) ws t))

/-- LDN: one word into the first word of the input register (R259). -/
def execLdn (p : Fin 72) (g : PredSel) (ag : Fin 8) (ecc : Ecc) (s : State) : Host.Outcome State Fault Refusal :=
  if memIssues s p ag false = false then .next s
  else
    let i : Instr := .ldn p g ag ecc
    let (w, t) := readWord p (agUnit s p ag (agCount s p ag)) ecc (beginOp p i s)
    .next (noteOp p i [] (loadInput p g ag (opView s p i) [w] t))

/-- Bytes of words, little-endian (R253). -/
def wordBytes (ws : List WWord) : List Byte :=
  ws.flatMap fun w => le 8 w.data.toNat

/-- Half a weight tile takes 256 bytes and a mark. The tile register has two halves and LDT names one: a tile of 8-bit or
narrower elements is the first half, a 16-bit tile takes two LDTs (DESIGN CHOICE, log entry 6). -/
def setTile (half : Bool) (bs : List Byte) (mark : Bool) (t : Stage) : Stage :=
  let o := if half then 256 else 0
  { t with
    tile := Vector.ofFn fun i => if o ≤ i.val ∧ i.val < o + 256 then bs.getD (i.val - o) 0 else t.tile[i]
    tilePoison := putBit t.tilePoison (bit half) mark }

/-- The words of a tile load reach the tile under a true predicate, and the generator steps twice. -/
def loadTile (p : Fin 72) (v : Fin 4) (g : PredSel) (ag : Fin 8) (half : Bool) (fi : Finch) (ws : List WWord) (s : State) :
    State :=
  let t := stepAg p ag 2 s
  if predValue fi g then onStage p v (setTile half (wordBytes ws) (ws.any (·.poison) || predMark fi g)) t else t

/-- The words the two wide reads of a tile load take. -/
def tileWords (s : State) (p : Fin 72) (ag : Fin 8) : List Nat :=
  agWords s p ag (agCount s p ag) ++ agWords s p ag (agCount s p ag + 1)

/-- LDT: 256 bytes of a stage's weight tile from two wide reads (R214). -/
def execLdt (p : Fin 72) (v : Fin 4) (g : PredSel) (ag : Fin 8) (half : Bool) (ecc : List Ecc) (s : State) :
    Host.Outcome State Fault Refusal :=
  if memIssues s p ag true = false then .next s
  else
    let i : Instr := .ldt p v g ag half ecc
    let (ws, t) := readWords p (tileWords s p ag) ecc (beginOp p i s)
    .next (noteOp p i [] (loadTile p v g ag half (opView s p i) ws t))

/-- A write was blocked: class 0x13, counted, and the records of the beat carry DEGRADED (R274, R279). -/
def blocked (p : Fin 72) (s : State) : State :=
  degradeBeat p (onWCnt (fun c => { c with blocked := satInc 32 c.blocked }) (report (faultCode 0x13 p.val) s))

/-- A local store may write the word: a streaming region that WMASK of the running mould names (R274, R275,
R277). -/
def storeAllowed (s : State) (p : Fin 72) (a : Nat) : Bool :=
  match regionAt s.img (rowOf p) a with
  | none => false
  | some g => g.kind = 0 && (s.img.nat Fld.wmask [rowOf p, (finchOf s p).mould]).testBit g.ix

/-- What a store, PUT writes: nothing under a false predicate, the poison pattern when that is poisoned (R320,
R324). -/
def storeData (fi : Finch) (g : PredSel) (src : StSrc) (n : Nat) : Option (List WWord) :=
  if predValue fi g then
    let (ws, mark) := srcWords fi src
    some ((ws.take n).map fun w => ⟨w, mark || predMark fi g⟩)
  else if predMark fi g then some (List.replicate n ⟨0, true⟩)
  else none

/-- A local store to words of one unit. -/
def storeWords (p : Fin 72) (as : List Nat) (d : Option (List WWord)) (s : State) : State :=
  match d with
  | none => s
  | some ws => if as.all (storeAllowed s p) then putWords p as ws s else blocked p s

/-- A local store of `n` words to the words of its generator; its write joins the signature, void or not (R110, R259,
R277). -/
def storeOp (p : Fin 72) (g : PredSel) (ag : Fin 8) (src : StSrc) (n : Nat) (i : Instr) (s : State) : State :=
  let as := agWords s p ag (agCount s p ag)
  let d := storeData (opView s p i) g src n
  noteOp p i (writeBytes as d) (stepAg p ag 1 (storeWords p as d (beginOp p i s)))

/-- STW: 16 words (R259, R277). -/
def execStw (p : Fin 72) (g : PredSel) (ag : Fin 8) (src : StSrc) (s : State) : Host.Outcome State Fault Refusal :=
  if memIssues s p ag true = false then .next s else .next (storeOp p g ag src 16 (.stw p g ag src) s)

/-- STN: one word (R259, R277). -/
def execStn (p : Fin 72) (g : PredSel) (ag : Fin 8) (src : StSrc) (s : State) : Host.Outcome State Fault Refusal :=
  if memIssues s p ag false = false then .next s else .next (storeOp p g ag src 1 (.stn p g ag src) s)

/-! ### Neighbour writes -/

/-- Orientation code of R255. -/
def orientIx : Orient → Nat
  | .narrow => 0
  | .row => 1
  | .column => 2

/-- Free entries of a port queue (R260). -/
def portFree (s : State) (owner : Fin 72) (port : Dir) : Bool :=
  decide (s.fab.perch[owner].wren.portQ[dirIx port].length < 4)

/-- A PUT that finds the port queue full stalls its Finch, and one that finds room does so no longer (R260). -/
def putStall (p : Fin 72) (dir : Dir) (b : Bool) (s : State) : State :=
  onFinch p (fun x => { x with putWait := putBit x.putWait (dirIx dir).val b }) s

/-- The request a PUT makes, its data words with their check bits (R260, R267, R297). -/
def putRequest (fi : Finch) (p : Fin 72) (g : PredSel) (dir : Dir) (o : Orient) (unit : Nat) (ac : Fin 16) (src : StSrc) :
    NbReq :=
  let d := storeData fi g src (if o = .narrow then 1 else 16)
  { NbReq.reset with
    from_ := p.val
    port := dirIx (opposite dir)
    beat := fi.beat % 32
    addr := unitWords (orientIx o) unit
    data := d.getD []
    void := d.isNone
    ac := ac.val }

/-- PUT: a write request to an adjacent Wren is sent (R260, R297); a void one under a false predicate (R320). A full
port queue stalls the Finch. -/
def execPut (p : Fin 72) (g : PredSel) (dir : Dir) (o : Orient) (unit : Nat) (ac : Fin 16) (src : StSrc) (s : State) :
    Host.Outcome State Fault Refusal :=
  match neighbour s p dir with
  | none => .next s
  | some q =>
    if issues s p = false then .next s
    else
      let i : Instr := .put p g dir o unit ac src
      let r := putRequest (opView s p i) p g dir o unit ac src
      let t := onRun p (fun x => { x with putOut := vmod x.putOut (dirIx dir) (· ++ [r]) }) (beginOp p i s)
      let t := if portFree s q (opposite dir) then t else putStall p dir true t
      .next (noteOp p i (writeBytes r.addr (if r.void then none else some r.data)) t)

/-- The front request of a sender's port enters the owner's queue. -/
def enqueueNb (p owner : Fin 72) (dir : Dir) (s : State) : State :=
  match s.fab.perch[p].run.putOut[dirIx dir] with
  | [] => s
  | q :: rest =>
    onWren owner (fun x => { x with portQ := vmod x.portQ (dirIx (opposite dir)) (· ++ [q]) })
      (onRun p (fun x => { x with putOut := x.putOut.set (dirIx dir) rest }) s)

/-- The front request as its crossing delivers it: one that failed parity twice is accepted with its data poisoned and
reported for the owner, one accepted at the repeat is counted (R67, R238; DEDUCED, log entry 41). -/
def crossRequest (p owner : Fin 72) (dir : Dir) (parity : Option Bool) (s : State) : State :=
  match parity with
  | none => s
  | some true => onCnt (fun c => { c with parityResend := satInc 32 c.parityResend }) s
  | some false =>
    report (faultCode 0x20 owner.val) (onRun p (fun x => { x with putOut := vmod x.putOut (dirIx dir) fun l =>
      match l with
      | [] => []
      | q :: r => { q with data := q.data.map fun w => { w with poison := true } } :: r }) s)

/-- NBW_REQUEST: the oldest PUT request of a perch toward a direction reaches the owner's port queue; a full queue
stalls the sending Finch until an entry is free (R260). `parity`: the crossing failed once and the repeat was good or bad
(R67). -/
def execNbwRequest (p : Fin 72) (dir : Dir) (s : State) (parity : Option Bool := none) :
    Host.Outcome State Fault Refusal :=
  match neighbour s p dir, s.fab.perch[p].run.putOut[dirIx dir] with
  | some o, _ :: _ =>
    if portFree s o (opposite dir) then
      .next (putStall p dir false (enqueueNb p o dir (crossRequest p o dir parity s)))
    else .next (putStall p dir true s)
  | _, _ => .next s

/-- A stall ends. -/
def unstall (p : Fin 72) (s : State) : State :=
  onFinch p (fun x => { x with stalled := false, stall := Stall.reset }) s

/-- An entry of the owner's port queue is free again: a sender stalled on it goes on (R260). -/
def releasePut (owner : Fin 72) (port : Dir) (s : State) : State :=
  match neighbour s owner port with
  | none => s
  | some q =>
    let d := opposite port
    if (finchOf s q).putWait.getLsbD (dirIx d).val then putStall q d false (enqueueNb q owner d s) else s

/-- The request as the owner's check of address and index leaves it (R267): corrected and reported, or with an
uncorrectable address and index at free values and poisoned data (log entry 8). -/
def checkRequest (owner : Fin 72) (e : Ecc) (q : NbReq) (s : State) : NbReq × State :=
  match e with
  | .clean => (q, s)
  | .corrected => (q, wrenCorrected (faultCode 0x11 owner.val) s)
  | .uncorrectable =>
    let k := Config.value s.freeCtr
    let o := if q.addr.length = 1 then 0 else 1
    let u := if o = 0 then k % 49152 else k % 3072
    ({ q with
        addr := unitWords o u
        ac := Config.value (s.freeCtr + 1) % 16
        data := q.data.map fun w => { w with poison := true } },
     wrenLost (faultCode 0x12 owner.val) { s with freeCtr := s.freeCtr + 2 })

/-- The head of a port queue that may be accepted: one of the owner's current beat (R297). -/
def readyHead (s : State) (p : Fin 72) (port : Fin 4) : Option NbReq :=
  (s.fab.perch[p].wren.portQ[port].head?).filter fun q => q.beat == (finchOf s p).beat % 32

/-- The bank of a word (R252). -/
def wrenBank (a : Nat) : Nat :=
  (a % 256 / 16 + a % 16) % 16

/-- Two requests compete for a slot: one is wide, or both need one bank (R258, R261). -/
def compete (a b : NbReq) : Bool :=
  a.addr.length != 1 || b.addr.length != 1 || a.addr.map wrenBank == b.addr.map wrenBank

/-- Rank of a port among those that compete: wide before narrow, then N, E, S, W in rotation after the port last accepted
(Table 7.2). -/
def portRank (s : State) (p : Fin 72) (port : Fin 4) (q : NbReq) : Nat :=
  (if q.addr.length = 1 then 4 else 0) + (port.val + 3 - s.fab.perch[p].wren.rot) % 4

/-- Another port's request goes first (R262). -/
def outranked (s : State) (p : Fin 72) (port : Fin 4) (q : NbReq) : Bool :=
  (List.finRange 4).any fun o => o != port &&
    (readyHead s p o).any fun x => compete q x && decide (portRank s p o x < portRank s p port q)

/-- NBW_ACCEPT: the owner accepts the head of a port queue when it is of its current beat, else the request is
held (R261, R262, R297). A request that another one outranks waits. -/
def execNbwAccept (p : Fin 72) (port : Dir) (ecc : Ecc) (s : State) : Host.Outcome State Fault Refusal :=
  match s.fab.perch[p].wren.portQ[dirIx port] with
  | [] => .next s
  | q :: rest =>
    if s.sys.code ≠ .run then .next s
    else if q.beat ≠ (finchOf s p).beat % 32 then
      if q.held then .next s
      else
        .next (onCnt (fun c => { c with nbwHeld := satInc 32 c.nbwHeld })
          (onWren p (fun x => { x with portQ := x.portQ.set (dirIx port) ({ q with held := true } :: rest) }) s))
    else if outranked s p (dirIx port) q then .next s
    else
      let (q, s) := checkRequest p ecc q s
      .next (releasePut p port (onWren p (fun x => { x with
        portQ := x.portQ.set (dirIx port) rest
        rot := (dirIx port).val
        landing := x.landing ++ [q] }) s))

/-- A neighbour write may change the word (R274 to R276). -/
def nbwAllowed (s : State) (p : Fin 72) (a : Nat) : Bool :=
  match regionAt s.img (rowOf p) a with
  | none => false
  | some g => g.kind = 0 && g.nbw

/-- Class 0x20 with bit 7: a recurrence within 64 lines is a finding (R115, Table 3.1). -/
def creditFault (p : Fin 72) (s : State) : State :=
  let again := s.flt.creditSeen.any fun x => x.1 = p.val && linePast (lineAdd x.2 64) s.lt.line
  let s := degradeBeat p (report (faultCode 0x20 (128 + p.val)) s)
  let s := { s with flt := { s.flt with
    creditSeen := (p.val, s.lt.line) :: s.flt.creditSeen.filter fun x => x.1 != p.val } }
  if again then finding p s else s

/-- An arrival counter counts one landing (R269, R271). -/
def countArrival (p : Fin 72) (k : Nat) (s : State) : State :=
  let i : Fin 16 := Fin.ofNat 16 k
  if s.fab.perch[p].wren.ac[i] < 1048575 then onWren p (fun x => { x with ac := vmod x.ac i (· + 1) }) s
  else creditFault p (onWCnt (fun c => { c with acSat := satInc 32 c.acSat }) s)

/-- A WAIT whose counter has reached its count completes and subtracts it (R270). -/
def completeWait (p : Fin 72) (s : State) : State :=
  let fi := finchOf s p
  let i : Fin 16 := Fin.ofNat 16 fi.stall.chan
  if fi.stalled ∧ fi.stall.kind = .wait ∧ fi.stall.n ≤ s.fab.perch[p].wren.ac[i] then
    unstall p (onWren p (fun x => { x with ac := vmod x.ac i (· - fi.stall.n) }) s)
  else s

/-- NBW_LAND: the oldest accepted request lands: data or void, blocked or not, its counter counts (R269, R274,
R279, R320). -/
def execNbwLand (p : Fin 72) (s : State) : Host.Outcome State Fault Refusal :=
  match s.fab.perch[p].wren.landing with
  | [] => .next s
  | q :: rest =>
    let s := onWren p (fun x => { x with landing := rest }) s
    let s :=
      if q.void then s
      else if q.addr.all (nbwAllowed s p) then putWords p q.addr q.data s
      else blocked p s
    .next (completeWait p (countArrival p q.ac s))

/-! ### Ingress, background writer, scrub -/

/-- INGRESS_WORD_WRITE: the oldest captured bus word is written as a row access (R196, R263). -/
def execIngressWordWrite (p : Fin 72) (s : State) : Host.Outcome State Fault Refusal :=
  .next (onWren p landIngress s)

/-- The oldest correction is written back (R281). -/
def writeBack (p : Fin 72) (s : State) : State :=
  match s.fab.perch[p].wren.wbQ with
  | [] => s
  | q :: rest => putWord p q.1 q.2 (onWren p (fun x => { x with wbQ := rest }) s)

/-- CORRECTION_WRITEBACK (R281, Table 7.2). -/
def execCorrectionWriteback (p : Fin 72) (s : State) : Host.Outcome State Fault Refusal :=
  .next (writeBack p s)

/-- The entries of a perch's riser: 128 for each block (R316). -/
def riserEntries (s : State) (p : Fin 72) : Nat :=
  (((regionsOf s.img (rowOf p)).filter (·.kind = 2)).map fun g => 128 * g.len).sum

/-- First word of a riser entry: one entry is two words (R316). -/
def riserWord (s : State) (p : Fin 72) (e : Nat) : Nat :=
  (((regionsOf s.img (rowOf p)).find? (·.kind = 2)).map fun g => 256 * g.base).getD 0 + 2 * e

/-- The two words of a riser entry that holds a token: DATA, then bits [79:64] (R316, Table 6.2; log entry 43). -/
def riserPair (t : Token) : List WWord :=
  let b : BitVec 80 := tokenPar t ++ tokenBits t
  [⟨b.extractLsb' 0 64, false⟩, ⟨BitVec.ofNat 64 (b.extractLsb' 64 16).toNat, false⟩]

/-- The riser entries in use. -/
def entriesUsed (s : State) (p : Fin 72) : List Nat :=
  s.fab.perch[p].run.backlog.toList.flatten.filterMap (·.2)

/-- The oldest backlog token of a channel that is not written yet gets an entry. -/
def fillEntry (e : Nat) : List (Token × Option Nat) → List (Token × Option Nat)
  | [] => []
  | (t, none) :: r => (t, some e) :: r
  | x :: r => x :: fillEntry e r

/-- The channel whose backlog token the background writer writes next, with the token: channels in order, the oldest
token of each first (log entry 43). -/
def nextUnwritten (s : State) (p : Fin 72) : Option (Fin 16 × Token) :=
  (List.finRange 16).findSome? fun i =>
    ((s.fab.perch[p].run.backlog[i].find? fun x => x.2.isNone).map fun x => (i, x.1))

/-- One waiting token is written into the lowest free entry of the riser. -/
def spillToken (p : Fin 72) (s : State) : State :=
  match nextUnwritten s p, (List.range (riserEntries s p)).find? fun e => !(entriesUsed s p).contains e with
  | some (i, t), some e =>
    putWords p [riserWord s p e, riserWord s p e + 1] (riserPair t)
      (onRun p (fun x => { x with backlog := vmod x.backlog i (fillEntry e) }) s)
  | _, _ => s

/-- One spill write of the background writer: up to 8 waiting tokens are written into the riser (R316). -/
def spillOnce (p : Fin 72) (s : State) : State :=
  (List.range 8).foldl (fun t _ => spillToken p t) s

/-- Tokens wait for a spill write. -/
def spillWaits (s : State) (p : Fin 72) : Bool :=
  (nextUnwritten s p).isSome

/-- SPILL_WRITE (R316). -/
def execSpillWrite (p : Fin 72) (s : State) : Host.Outcome State Fault Refusal :=
  .next (spillOnce p s)

/-- The 16 Wren words of row `k` of a resident region's contents (R618). -/
def contentRow (s : State) (r j k : Nat) : List WWord :=
  let bs := slice (regionBytes s.flash s.boot.slot s.img r j) (128 * k) 128
  (List.range 16).map fun i => ⟨BitVec.ofNat 64 (field bs (8 * i) 8), false⟩

/-- One row of a region's contents is written from the running slot, and the loader's next row is the one after it (R257,
R285). -/
def loaderRow (p : Fin 72) (g : Region) (row : Nat) (s : State) : State :=
  putWords p ((List.range 16).map fun i => 256 * g.base + 16 * row + i) (contentRow s (rowOf p) g.ix row)
    (onWren p (fun x => { x with rewriting := x.rewriting.map fun y => if y.1 = g.ix then (g.ix, row + 1) else y }) s)

/-- LOADER_WRITE: during the rewrite of a resident region the loader writes one row of it from the running slot
(R257, R285). -/
def execLoaderWrite (p : Fin 72) (rgn : Fin 16) (row : Nat) (s : State) : Host.Outcome State Fault Refusal :=
  match (residents s.img (rowOf p)).find? (·.ix = rgn.val) with
  | none => .next s
  | some g => if rewriting s p g.ix ∧ row < 16 * g.len then .next (loaderRow p g row s) else .next s

/-- The loader write that waits in a Wren: the next row of a region being rewritten (R285). -/
def loaderDue (s : State) (p : Fin 72) : Option (Region × Nat) :=
  s.fab.perch[p].wren.rewriting.findSome? fun y =>
    ((residents s.img (rowOf p)).find? fun g => g.ix = y.1 && decide (y.2 < 16 * g.len)).map fun g => (g, y.2)

/-- FORCED_SLOT: a background write that has waited takes a forced slot (R264): a spill write, else a loader write, else a
write-back. -/
def execForcedSlot (p : Fin 72) (s : State) : Host.Outcome State Fault Refusal :=
  if spillWaits s p then .next (spillOnce p s)
  else
    match loaderDue s p with
    | some (g, row) => .next (loaderRow p g row s)
    | none => .next (writeBack p s)

/-- WREN_SCRUB_ROW: the scrub reads the next row (R284); it runs in RUN, HOLD and REPAIR. -/
def execWrenScrubRow (p : Fin 72) (ecc : List Ecc) (s : State) : Host.Outcome State Fault Refusal :=
  if live s = false ∨ s.fab.perch[p].powered = false then .next s
  else
    let k := s.fab.perch[p].wren.scrubRow
    let (_, t) := readWords p (unitWords 1 k) ecc s
    if k + 1 < 3072 then .next (onWren p (fun x => { x with scrubRow := k + 1 }) t)
    else
      .next (onWren p (fun x => { x with
        scrubRow := 0
        passes := satInc 32 x.passes
        lastUs := Nat.min ((t.now - x.passStart) / 200) 65535
        passStart := t.now }) t)

/-! ### Resident contents -/

/-- The contents of a resident region are written into a Wren. -/
def loadRegion (m : Image) (slot : Nat) (p : Fin 72) (g : Region) (s : State) : State :=
  let bs := regionBytes s.flash slot m (rowOf p) g.ix
  putWords p ((List.range (256 * g.len)).map fun i => 256 * g.base + i)
    ((List.range (256 * g.len)).map fun i => ⟨BitVec.ofNat 64 (field bs (8 * i) 8), false⟩) s

/-- Every resident region of a Wren is loaded. -/
def loadWren (m : Image) (slot : Nat) (p : Fin 72) (s : State) : State :=
  onWren p (fun x => { x with loaded := true }) ((residents m (rowOf p)).foldl (fun t g => loadRegion m slot p g t) s)

/-- The retention tag is no longer valid (R287). -/
def clearTag (s : State) : State :=
  onWCnt (fun c => { c with rtagValid := false }) s

/-- Part 1 of WREN streams into the Wrens (R578, R287). -/
def stageResident (m : Image) (slot : Nat) (s : State) : State :=
  (usedPerches m s).foldl (fun t p => loadWren m slot p t) (clearTag s)

/-- A region's data, little-endian in address order (R288). -/
def regionData (s : State) (p : Fin 72) (g : Region) : List Byte :=
  wordBytes ((List.range (256 * g.len)).map fun i => wordAt s p (256 * g.base + i))

/-- A region has no poisoned word and its CRC-32C equals RGN_CRC (R288). -/
def regionOk (m : Image) (s : State) (p : Fin 72) (g : Region) : Bool :=
  ((List.range (256 * g.len)).all fun i => !(wordAt s p (256 * g.base + i)).poison) &&
    (crc32c (regionData s p g)).toNat == m.nat Fld.rgnCrc [rowOf p, g.ix]

/-- The retention check of a Wren passes (R288). -/
def retentionOk (m : Image) (p : Fin 72) (s : State) : Bool :=
  (residents m (rowOf p)).all (regionOk m s p)

/-- The retention check of a Wren failed (R292). -/
def retentionFailed (p : Fin 72) (s : State) : State :=
  onWCnt (fun c => { c with retainFails := satInc 32 c.retainFails })
    (onWren p (fun x => { x with retainFail := true }) s)

/-- The reads of a retention check against the resident regions of image `m`: `found` are the words in which it meets an
error (R280 to R282, R288). -/
def retentionReads (m : Image) (p : Fin 72) (found : List (Nat × Ecc)) (s : State) : State :=
  { found.foldl (fun t e =>
      if (regionAt m (rowOf p) e.1).any (·.kind = 1) then (readWord p e.1 e.2 t).2 else t) { s with img := m }
    with img := s.img }

/-- Every Wren an image uses has its resident regions loaded and verified (R287). -/
def allVerified (m : Image) (s : State) : Bool :=
  (usedPerches m s).all fun p => retentionOk m p s

/-- The retention tag names an image: VALID when every resident region of every used Wren is verified (R287). -/
def setTag (m : Image) (s : State) : State :=
  onWCnt (fun c => { c with rtagValid := allVerified m s, rtag := m.digest }) s

/-- A region is being rewritten somewhere. -/
def anyRewriting (s : State) : Bool :=
  s.fab.perch.toList.any fun x => !x.wren.rewriting.isEmpty

/-- A rewrite of the oldest region in work ends and is counted; verified, its region has been reloaded once (R285). -/
def rewriteEnds (p : Fin 72) (g : Region) (s : State) : State :=
  let s := loadRegion s.img s.boot.slot p g s
  let ok := regionOk s.img s p g
  let s := onWren p (fun x => { x with rewriting := if ok then x.rewriting.drop 1 else x.rewriting }) s
  let s := onWCnt (fun c => { c with resReloads := satInc 32 c.resReloads, reloading := anyRewriting s }) s
  if ok then { s with flt := { s.flt with reloadedRgn := (p.val, g.ix) :: s.flt.reloadedRgn } } else s

/-- RESIDENT_REWRITE_DONE: the whole region has been read again from the running slot; its CRC is verified (R285). -/
def execResidentRewriteDone (p : Fin 72) (s : State) : Host.Outcome State Fault Refusal :=
  match s.fab.perch[p].wren.rewriting with
  | [] => .next s
  | j :: rest =>
    match (residents s.img (rowOf p)).find? (·.ix = j.1) with
    | none => .next (onWren p (fun x => { x with rewriting := rest }) s)
    | some g => .next (rewriteEnds p g s)

/-- Streaming regions, riser and unused blocks are zeroed and the arrival counters cleared (R268, R276). -/
def zeroStreaming (m : Image) (s : State) : State :=
  { s with fab := { s.fab with perch := Vector.ofFn fun p =>
    let x := s.fab.perch[p]
    { x with wren := { x.wren with
      words := x.wren.words.filter fun w => (residents m (rowOf p)).any fun g =>
        decide (256 * g.base ≤ w.1) && decide (w.1 < 256 * (g.base + g.len))
      ac := Vector.replicate 16 0
      portQ := Vector.replicate 4 []
      landing := []
      ingQ := []
      wbQ := [] } } } }

end Sys2Proof.Machine
end

