-- ==== Sys2Proof/Machine/Runners.lean ====
section
/-! DEFINITION. The runners: SEND, RECV, EGR and WAIT, the links with their handshakes and credits, elastic
channels, the watch and the riser (R235 to R244, R270 to R272, R293 to R317, R320 to R324). -/

namespace Sys2Proof.Machine

/-! ### Channels -/

/-- Kind of a receive channel of a perch: 0 unused, 1 static, 2 elastic (R293, R294). -/
def chanKind (s : State) (q : Fin 72) (link : Dir) (ch : Fin 4) : Nat :=
  s.img.nat Fld.chKind [rowOf q, (dirIx link).val, ch.val]

/-- Credit count of a receive channel (R296). -/
def chanCredit (s : State) (q : Fin 72) (link : Dir) (ch : Fin 4) : Nat :=
  if chanKind s q link ch = 2 then 16 else s.img.nat Fld.credit [rowOf q, (dirIx link).val, ch.val]

/-- Elastic group of a receive channel (R310). -/
def chanGroup (s : State) (q : Fin 72) (link : Dir) (ch : Fin 4) : Fin 16 :=
  Fin.ofNat 16 (s.img.nat Fld.elc [rowOf q, (dirIx link).val, ch.val])

/-- The direction of a channel index, 4 × link + ch. -/
def chanDir (i : Nat) : Dir :=
  match i / 4 with
  | 0 => .n
  | 1 => .e
  | 2 => .s
  | _ => .w

/-- The channel number a token carries. -/
def tokenCh (t : Token) : Fin 4 :=
  Fin.ofNat 4 t.ch.toNat

/-- A movement in an elastic group (R315). -/
def moved (q : Fin 72) (link : Dir) (ch : Fin 4) (s : State) : State :=
  if chanKind s q link ch = 2 then
    { s with fab := { s.fab with watch := vmod s.fab.watch (chanGroup s q link ch) fun w => { w with idle := 0 } } }
  else s

/-! ### The riser -/

/-- Entries of a perch's riser that no backlog token takes (R316). -/
def riserFree (s : State) (p : Fin 72) : Nat :=
  riserEntries s p - (s.fab.perch[p].run.backlog.toList.map List.length).sum

/-- The largest backlog seen in any riser (RISER_PEAK). -/
def notePeak (p : Fin 72) (s : State) : State :=
  let n := (s.fab.perch[p].run.backlog.toList.map List.length).sum
  onCnt (fun c => { c with riserPeak := Nat.max c.riserPeak (Nat.min n 65535) }) s

/-- A token is lost at a full riser: class 0x21 with bit 7 for the sending perch, and the records of the beat from
its row carry DEGRADED (R317). -/
def dropToken (p : Fin 72) (s : State) : State :=
  markLine (finchOf s p).beat (fun l => { l with degRows := rowOf p :: l.degRows })
    (onCnt (fun c => { c with riserDrops := satInc 32 c.riserDrops }) (report (faultCode 0x21 (128 + p.val)) s))

/-- A token enters its channel's riser backlog, in front or behind, or is dropped (R312, R315, R317). -/
def spill (p : Fin 72) (dir : Dir) (front : Bool) (t : Token) (s : State) : State :=
  if riserFree s p = 0 then dropToken p s
  else
    let i := chanIx dir (tokenCh t)
    notePeak p (onCnt (fun c => { c with spillTokens := satInc 32 c.spillTokens })
      (onRun p (fun x => { x with
        backlog := vmod x.backlog i fun l => if front then (t, none) :: l else l ++ [(t, none)] }) s))

/-! ### SEND -/

/-- The token a SEND or EGR makes (R321, R324). -/
def tokenFor (fi : Finch) (g : PredSel) (ch : BitVec 2) (tag : BitVec 4) (src : StSrc) : Token :=
  if predValue fi g then
    let (ws, mark) := srcWords fi src
    ⟨ws.getD 0 0, ch, false, mark || predMark fi g, tag⟩
  else voidToken ch tag (predMark fi g)

/-- A static token takes its credit and waits for the link (R240). -/
def takeCredit (p : Fin 72) (dir : Dir) (t : Token) (s : State) : State :=
  let i := chanIx dir (tokenCh t)
  onRun p (fun x => { x with
    credit := vmod x.credit i (· - 1)
    waitTx := vmod x.waitTx (dirIx dir) (· ++ [t])
    sentLater := vmod x.sentLater i (· + 1) }) s

/-- Credits a perch holds on a channel it sends on. -/
def creditHeld (s : State) (p : Fin 72) (dir : Dir) (ch : Fin 4) : Nat :=
  s.fab.perch[p].run.credit[chanIx dir ch]

/-- A SEND on a static channel (R240): it stalls without a credit. -/
def sendStatic (p : Fin 72) (dir : Dir) (t : Token) (s : State) : State :=
  let s := countVoidPoison t s
  if 0 < creditHeld s p dir (tokenCh t) then takeCredit p dir t s
  else
    onFinch p (fun x => { x with
      stalled := true
      stall := { Stall.reset with kind := .send, chan := (chanIx dir (tokenCh t)).val, tok := t } }) s

/-- A SEND of a true predicate on an elastic channel (R312): the output buffer, else the riser backlog. -/
def sendElastic (p : Fin 72) (dir : Dir) (t : Token) (s : State) : State :=
  let x := s.fab.perch[p].run
  if x.backlog[chanIx dir (tokenCh t)].isEmpty ∧ x.outBuf[dirIx dir].length < 16 then
    onRun p (fun x => { x with outBuf := vmod x.outBuf (dirIx dir) (· ++ [t]) }) s
  else spill p dir false t s

/-- SEND (R240, R312, R320): on an unused channel or a link to nothing it has no effect. Its token, or the void one it
discards on an elastic channel, joins the signature (R110, Edges of "Elastic channels"). -/
def execSend (p : Fin 72) (g : PredSel) (dir : Dir) (ch : Fin 4) (tag : BitVec 4) (src : StSrc) (s : State) :
    Host.Outcome State Fault Refusal :=
  if issues s p = false then .next s
  else
    match neighbour s p dir with
    | none => .next s
    | some q =>
      let i : Instr := .send p g dir ch tag src
      let fi := opView s p i
      let t := tokenFor fi g (BitVec.ofNat 2 ch.val) tag src
      let u := noteOp p i (tokenBytes t) (beginOp p i s)
      match chanKind s q (opposite dir) ch with
      | 1 => .next (sendStatic p dir t u)
      | 2 => .next (if predValue fi g then sendElastic p dir t u else u)
      | _ => .next s

/-- A SEND that waited for a credit goes on. -/
def releaseSend (p : Fin 72) (s : State) : State :=
  let fi := finchOf s p
  let i : Fin 16 := Fin.ofNat 16 fi.stall.chan
  let dir := chanDir fi.stall.chan
  if fi.stalled ∧ fi.stall.kind = .send ∧ 0 < s.fab.perch[p].run.credit[i] then
    unstall p (takeCredit p dir fi.stall.tok s)
  else s

/-! ### RECV -/

/-- A receive queue with its oldest token taken. -/
def dequeue (q : Fin 72) (link : Dir) (ch : Fin 4) (s : State) : State :=
  onRun q (fun x => { x with rxQ := vmod x.rxQ (chanIx link ch) (·.drop 1) }) s

/-- A credit travels back to the sender of a channel (R240). -/
def returnCredit (q : Fin 72) (link : Dir) (ch : Fin 4) (s : State) : State :=
  match neighbour s q link with
  | none => s
  | some p => onRun p (fun x => { x with creditOnLink := vmod x.creditOnLink (chanIx (opposite link) ch) (· + 1) }) s

/-- What a RECV takes, or that it takes nothing, joins the token log of the beat, whose entry holds 512 (R224, R314). -/
def logToken (q : Fin 72) (t : Option Token) (s : State) : State :=
  onWork q (fun w => if w.toks.length < 512 then { w with toks := w.toks ++ [t] } else w) s

/-- What taking a token writes: DATA into the input register and the named predicate (R322, R324). -/
def writeToken (q : Fin 72) (t : Token) (pd : Option (Fin 8)) (mark : Bool) (s : State) : State :=
  let s := onFinch q (setInputWord t.data (t.poison || mark)) s
  match pd with
  | none => s
  | some k => onFinch q (setPred k (!t.void) (t.poison || mark)) s

/-- The oldest token of a channel is taken: logged, its credit returned, written where the predicate is true
(R240, R322). -/
def takeToken (q : Fin 72) (link : Dir) (ch : Fin 4) (t : Token) (write : Bool) (pd : Option (Fin 8)) (mark : Bool)
    (s : State) : State :=
  let s := moved q link ch (logToken q (some t) (returnCredit q link ch (dequeue q link ch s)))
  if write then writeToken q t pd mark s else s

/-- The oldest token in a receive queue. -/
def frontToken (s : State) (q : Fin 72) (link : Dir) (ch : Fin 4) : Option Token :=
  (s.fab.perch[q].run.rxQ[chanIx link ch].head?).map (·.2)

/-- RECV on a static channel: it stalls on an empty queue; under a false predicate it takes the token and writes
nothing (R320, R322). -/
def recvStatic (q : Fin 72) (link : Dir) (ch : Fin 4) (write : Bool) (pd : Option (Fin 8)) (mark : Bool) (s : State) :
    State :=
  match frontToken s q link ch with
  | some t => takeToken q link ch t write pd mark s
  | none =>
    onFinch q (fun x => { x with
      stalled := true
      stall := { Stall.reset with
        kind := .recv, chan := (chanIx link ch).val, predDst := pd, write := write, mark := mark } }) s

/-- RECV on an elastic channel under a true predicate (R314). -/
def recvElastic (q : Fin 72) (link : Dir) (ch : Fin 4) (pd : Option (Fin 8)) (mark : Bool) (s : State) : State :=
  match frontToken s q link ch with
  | some t =>
    let s := takeToken q link ch t true none mark s
    match pd with
    | none => s
    | some k => onFinch q (setPred k true (t.poison || mark)) s
  | none =>
    let s := logToken q none (onFinch q (setInputWord 0 mark) s)
    match pd with
    | none => s
    | some k => onFinch q (setPred k false mark) s

/-- RECV (R240, R314, R322). -/
def execRecv (p : Fin 72) (g : PredSel) (link : Dir) (ch : Fin 4) (pd : Option (Fin 8)) (s : State) :
    Host.Outcome State Fault Refusal :=
  if issues s p = false ∨ (neighbour s p link).isNone then .next s
  else
    let i : Instr := .recv p g link ch pd
    let fi := opView s p i
    let u := noteOp p i [] (beginOp p i s)
    match chanKind s p link ch with
    | 1 => .next (recvStatic p link ch (predValue fi g) pd (predMark fi g) u)
    | 2 => .next (if predValue fi g then recvElastic p link ch pd (predMark fi g) u else logToken p none u)
    | _ => .next s

/-- A RECV that waited for a token of a channel goes on. -/
def releaseRecv (q : Fin 72) (link : Dir) (ch : Fin 4) (s : State) : State :=
  let fi := finchOf s q
  if fi.stalled ∧ fi.stall.kind = .recv ∧ fi.stall.chan = (chanIx link ch).val then
    match frontToken s q link ch with
    | some t => unstall q (takeToken q link ch t fi.stall.write fi.stall.predDst fi.stall.mark s)
    | none => s
  else s

/-! ### EGR and WAIT -/

/-- EGR: a result token, void under a false predicate, enters the egress FIFO of 96 (R243, Table 8.3). -/
def execEgr (p : Fin 72) (g : PredSel) (tag : BitVec 4) (src : StSrc) (s : State) :
    Host.Outcome State Fault Refusal :=
  if issues s p = false ∨ 96 ≤ s.fab.perch[p].run.egr.length then .next s
  else
    let i : Instr := .egr p g tag src
    let t := tokenFor (opView s p i) g 0 tag src
    .next (countVoidPoison t (onRun p (fun x => { x with egr := x.egr ++ [((finchOf s p).beat, t)] })
      (noteOp p i (tokenBytes t) (beginOp p i s))))

/-- WAIT k, n: whatever the predicate, it stalls until ACk is at least n and subtracts n (R270, R320). -/
def execWait (p : Fin 72) (k : Fin 16) (n : Nat) (s : State) : Host.Outcome State Fault Refusal :=
  if issues s p = false ∨ n = 0 ∨ 1048575 < n then .next s
  else
    .next (completeWait p (onFinch p (fun x => { x with
      stalled := true, stall := { Stall.reset with kind := .wait, chan := k.val, n := n } })
      (noteOp p (.wait p k n) [] (beginOp p (.wait p k n) s))))

/-! ### Links -/

/-- The oldest token of the output buffer whose channel holds a credit, with the buffer without it (R313). -/
def pickElastic (credit : Fin 4 → Nat) : List Token → Option (Token × List Token)
  | [] => none
  | t :: r =>
    if 0 < credit (tokenCh t) then some (t, r)
    else (pickElastic credit r).map fun x => (x.1, t :: x.2)

/-- LINK_TRANSFER: a free outgoing link of a perch takes the oldest static token that has its credit, else the
oldest elastic token whose channel holds one (R237, R239, R313). That a waiting static token goes before the elastic ones
is a DESIGN CHOICE (log entry 23): the spec gives no priority between the kinds. -/
def execLinkTransfer (p : Fin 72) (dir : Dir) (s : State) : Host.Outcome State Fault Refusal :=
  let x := s.fab.perch[p].run
  let d := dirIx dir
  if (neighbour s p dir).isNone ∨ x.onLink[d].isSome then .next s
  else
    match x.waitTx[d] with
    | t :: r => .next (onRun p (fun x => { x with waitTx := x.waitTx.set d r, onLink := x.onLink.set d (some (t, false)) }) s)
    | [] =>
      match pickElastic (fun c => x.credit[chanIx dir c]) x.outBuf[d] with
      | none => .next s
      | some (t, r) =>
        .next (onRun p (fun x => { x with
          outBuf := x.outBuf.set d r
          credit := vmod x.credit (chanIx dir (tokenCh t)) (· - 1)
          onLink := x.onLink.set d (some (t, false)) }) s)

/-- A token enters the receive queue; one that finds it full is dropped and reported (R235, Edges of "Runners and
row buses"). -/
def deliver (q : Fin 72) (link : Dir) (t : Token) (s : State) : State :=
  let ch := tokenCh t
  if 16 ≤ s.fab.perch[q].run.rxQ[chanIx link ch].length then creditFault q s
  else
    let n := s.fab.tokSeq
    let s := { s with fab := { s.fab with tokSeq := n + 1 } }
    releaseRecv q link ch (moved q link ch
      (onRun q (fun x => { x with rxQ := vmod x.rxQ (chanIx link ch) (· ++ [(n, t)]) }) s))

/-- The link toward a perch from its neighbour is free. -/
def clearLink (p : Fin 72) (dir : Dir) (s : State) : State :=
  onRun p (fun x => { x with onLink := x.onLink.set (dirIx dir) none }) s

/-- What stands on the link into perch `q` from its neighbour in direction `link`, with that neighbour. -/
def incoming (s : State) (q : Fin 72) (link : Dir) : Option (Fin 72 × Token × Bool) :=
  match neighbour s q link with
  | none => none
  | some p => (s.fab.perch[p].run.onLink[dirIx (opposite link)]).map fun x => (p, x.1, x.2)

/-- TOKEN_RECEIVE at perch `p` on the link of a direction: good parity delivers, bad parity asks for the repeat
(R237, R238). -/
def execTokenReceive (p : Fin 72) (dir : Dir) (parityOk : Bool) (s : State) : Host.Outcome State Fault Refusal :=
  match incoming s p dir with
  | some (q, t, false) =>
    if parityOk then .next (deliver p dir t (clearLink q (opposite dir) s))
    else .next (onRun q (fun x => { x with onLink := x.onLink.set (dirIx (opposite dir)) (some (t, true)) }) s)
  | _ => .next s

/-- TOKEN_RESEND: the repeat is accepted unchanged and counted, or after a second failure poisoned and reported
(R238). -/
def execTokenResend (p : Fin 72) (dir : Dir) (parityOk : Bool) (s : State) : Host.Outcome State Fault Refusal :=
  match incoming s p dir with
  | some (q, t, true) =>
    let s := clearLink q (opposite dir) s
    if parityOk then
      .next (deliver p dir t (onCnt (fun c => { c with parityResend := satInc 32 c.parityResend }) s))
    else .next (deliver p dir { t with poison := true } (report (faultCode 0x20 p.val) s))
  | _ => .next s

/-- Most credits a channel can hold (R296). -/
def creditCap (s : State) (p : Fin 72) (dir : Dir) (ch : Fin 4) : Nat :=
  match neighbour s p dir with
  | none => 0
  | some q => chanCredit s q (opposite dir) ch

/-- CREDIT_RETURN to perch `p` for a channel it sends on: good parity gives the credit and releases a waiting SEND;
the second failure loses it (R240, Edges of "Runners and row buses"). -/
def execCreditReturn (p : Fin 72) (dir : Dir) (ch : Fin 4) (parityOk : Bool) (s : State) :
    Host.Outcome State Fault Refusal :=
  let i := chanIx dir ch
  let x := s.fab.perch[p].run
  if x.creditOnLink[i] = 0 then .next s
  else if parityOk then
    let s := if x.creditBad.getLsbD i.val then onCnt (fun c => { c with parityResend := satInc 32 c.parityResend }) s else s
    let cap := creditCap s p dir ch
    .next (releaseSend p (onRun p (fun x => { x with
      creditOnLink := vmod x.creditOnLink i (· - 1)
      creditBad := putBit x.creditBad i.val false
      credit := vmod x.credit i fun c => Nat.min (c + 1) cap }) s))
  else if x.creditBad.getLsbD i.val then
    .next (report (faultCode 0x20 p.val) (onRun p (fun x => { x with
      creditOnLink := vmod x.creditOnLink i (· - 1), creditBad := putBit x.creditBad i.val false }) s))
  else .next (onRun p (fun x => { x with creditBad := putBit x.creditBad i.val true }) s)

/-- CREDIT_RESYNC by receiver `p` of a channel at its beat start: the sender's count becomes CREDIT less what it
sent in later beats (R309). -/
def execCreditResync (p : Fin 72) (link : Dir) (ch : Fin 4) (s : State) : Host.Outcome State Fault Refusal :=
  match neighbour s p link with
  | none => .next s
  | some q =>
    if chanKind s p link ch ≠ 1 ∨ s.sys.code ≠ .run then .next s
    else
      let i := chanIx (opposite link) ch
      let x := s.fab.perch[q].run
      let mine := (finchOf s p).beat
      let theirs := (finchOf s q).beat
      let later := if theirs < mine then 0 else if theirs = mine then x.sentLater[i] else x.sentLater[i] + x.sentPrev[i]
      let c := chanCredit s p link ch - later
      let s := if c = x.credit[i] then s
        else onCnt (fun k => { k with creditResync := satInc 32 k.creditResync }) s
      .next (releaseSend q (onRun q (fun x => { x with
        credit := x.credit.set i c, creditOnLink := x.creditOnLink.set i 0 }) s))

/-- SEND_CREDIT_TIMEOUT: a SEND has waited across two beat-start tokens; the receiving perch is the instance
(R241). -/
def execSendCreditTimeout (p : Fin 72) (s : State) : Host.Outcome State Fault Refusal :=
  let fi := finchOf s p
  let dir := chanDir fi.stall.chan
  if fi.stalled ∧ fi.stall.kind = .send ∧ 2 ≤ fi.stall.beats then
    match neighbour s p dir with
    | some q =>
      .next (creditFault q (onFinch p (fun x => { x with stall := { x.stall with beats := 0 } }) s))
    | none => .next s
  else .next s

/-- WAIT_TIMEOUT: a WAIT has stalled across two beat-start tokens (R272). -/
def execWaitTimeout (p : Fin 72) (s : State) : Host.Outcome State Fault Refusal :=
  let fi := finchOf s p
  if fi.stalled ∧ fi.stall.kind = .wait ∧ 2 ≤ fi.stall.beats then
    .next (creditFault p (onFinch p (fun x => { x with stall := { x.stall with beats := 0 } }) s))
  else .next s

/-! ### Elastic channels -/

/-- The directions. -/
def dirs : List Dir := [.n, .e, .s, .w]

/-- A token of an output buffer belongs to an elastic group. -/
def inGroup (s : State) (p : Fin 72) (dir : Dir) (grp : Fin 16) (ch : Fin 4) : Bool :=
  match neighbour s p dir with
  | none => false
  | some q => chanKind s q (opposite dir) ch = 2 && chanGroup s q (opposite dir) ch == grp

/-- The output buffers, perch and direction, that hold a token of a group. -/
def buffersOf (s : State) (grp : Fin 16) : List (Fin 72 × Dir) :=
  (List.finRange 72).flatMap fun p => (dirs.filter fun d =>
    s.fab.perch[p].run.outBuf[dirIx d].any fun t => inGroup s p d grp (tokenCh t)).map fun d => (p, d)

/-- The tokens of a group in receive queues: order of arrival and perch. -/
def queuedOf (s : State) (grp : Fin 16) : List (Nat × Fin 72) :=
  (List.finRange 72).flatMap fun q => dirs.flatMap fun l => (List.finRange 4).flatMap fun c =>
    if chanKind s q l c = 2 ∧ chanGroup s q l c = grp ∧ (neighbour s q l).isSome then
      s.fab.perch[q].run.rxQ[chanIx l c].map fun t => (t.1, q)
    else []

/-- Backlog tokens of a group. -/
def backlogOf (s : State) (grp : Fin 16) : Nat :=
  ((List.finRange 72).map fun p => (dirs.map fun d => ((List.finRange 4).map fun c =>
    if inGroup s p d grp c then s.fab.perch[p].run.backlog[chanIx d c].length else 0).sum).sum).sum

/-- The occupancy of a group is not zero (R315). -/
def occupied (s : State) (grp : Fin 16) : Bool :=
  !(buffersOf s grp).isEmpty || !(queuedOf s grp).isEmpty || decide (0 < backlogOf s grp)

/-- A whole output buffer moves in front of the backlogs of its channels (R315). -/
def spillBuffer (p : Fin 72) (d : Dir) (s : State) : State :=
  let ts := s.fab.perch[p].run.outBuf[dirIx d]
  ts.reverse.foldl (fun u t => spill p d true t u)
    (onRun p (fun x => { x with outBuf := x.outBuf.set (dirIx d) [] }) s)

/-- The perch with the oldest token of a list. -/
def oldestIn (l : List (Nat × Fin 72)) : Option (Fin 72) :=
  match l with
  | [] => none
  | x :: r => some ((r.foldl (fun a b => if b.1 < a.1 then b else a) x).2)

/-- ELASTIC_WATCH_FIRE: at the beat-start token just counted the group was not empty and no movement had taken place
since the fourth token before it (R315, `countToken`). -/
def execElasticWatchFire (grp : Fin 16) (s : State) : Host.Outcome State Fault Refusal :=
  if s.fab.watch[grp].due = false then .next s
  else
    let bufs := buffersOf s grp
    let who := if bufs.isEmpty then (oldestIn (queuedOf s grp)).toList
      else (List.finRange 72).filter fun p => bufs.any fun b => b.1 = p
    let s := bufs.foldl (fun t b => spillBuffer b.1 b.2 t) s
    let s := reportAll (who.map fun p => faultCode 0x21 p.val) s
    let s := onCnt (fun c => { c with watchSpills := satInc 32 c.watchSpills }) s
    .next { s with fab := { s.fab with watch := vmod s.fab.watch grp fun w => { w with due := false } } }

/-- The token of a riser entry's two words: poison of either reaches it (R316, Edges of "Elastic channels"; log entry
43). -/
def entryToken (ws : List WWord) : Token :=
  let d := (ws.map (·.data)).headD 0
  let b := ((ws.map (·.data)).getD 1 0)
  ⟨d, b.extractLsb' 0 2, b.getLsbD 2, b.getLsbD 3 || ws.any (·.poison), b.extractLsb' 4 4⟩

/-- The token a riser read gives for an entry of a channel: a poisoned one keeps the place its channel gives it. -/
def riserToken (ch : Fin 4) (ws : List WWord) : Token :=
  { entryToken ws with ch := BitVec.ofNat 2 ch.val }

/-- RISER_READ: the oldest backlog token of a channel, once written, is read from its two riser words and goes onto its
free link, while the output buffer holds none of that channel (R313, R316). -/
def execRiserRead (p : Fin 72) (dir : Dir) (ch : Fin 4) (ecc : List Ecc) (s : State) : Host.Outcome State Fault Refusal :=
  let x := s.fab.perch[p].run
  let i := chanIx dir ch
  let d := dirIx dir
  match x.backlog[i] with
  | (_, some e) :: r =>
    if x.onLink[d].isSome ∨ x.credit[i] = 0 ∨ (x.outBuf[d].any fun u => tokenCh u == ch) = true
        ∨ (neighbour s p dir).isNone then .next s
    else
      let (ws, t) := readWords p [riserWord s p e, riserWord s p e + 1] ecc s
      .next (onRun p (fun x => { x with
        backlog := x.backlog.set i r
        credit := vmod x.credit i (· - 1)
        onLink := x.onLink.set d (some (riserToken ch ws, false)) }) t)
  | _ => .next s

/-- Credits of every channel at their full count, queues, links and logs empty (R319, R245 step 6). -/
def clearRunners (s : State) : State :=
  { s with fab := { s.fab with
    watch := Vector.replicate 16 Watch.reset
    perch := Vector.ofFn fun p =>
      let x := s.fab.perch[p]
      { x with run := { Runners.reset with
        credit := Vector.ofFn fun i =>
          creditCap s p (chanDir i.val) (Fin.ofNat 4 i.val) } } } }

end Sys2Proof.Machine
end

