-- ==== Sys2Proof/Machine/Tithe.lean ====
section
/-! DEFINITION. The check tithe: snapshots, the re-execution of a slice over the retained operands, the comparison of
signatures and the arbitration (R108 to R113, R222 to R228, R286, R355). -/

namespace Sys2Proof.Machine

/-! ### Pairing and slices -/

/-- The perch at a distance along the logical columns of the row, modulo 8 (R108, R111). -/
def besides (s : State) (p : Fin 72) (d : Nat) : Fin 72 :=
  perchAt s (rowOf p) (((logCol s p).getD 0 + d) % 8)

/-- The slice a Finch checks in its running beat: b mod S, and after a skipped or paused beat the slice at which
its sweep stopped (R109, Edges of "The check tithe"). -/
def sliceOf (s : State) (p : Fin 72) : Nat :=
  match (finchOf s p).slice with
  | some j => j
  | none => (finchOf s p).beat % Nat.max 1 (sliceCount s.img (rowOf p))

/-- The sweep goes on with the next slice. -/
def nextSlice (p : Fin 72) (s : State) : State :=
  let j := (sliceOf s p + 1) % Nat.max 1 (sliceCount s.img (rowOf p))
  onFinch p (fun x => { x with slice := some j }) s

/-- A tithe slice is skipped and counted (TITHE_SKIP). -/
def skipTithe (p : Fin 72) (s : State) : State :=
  nextSlice p (onFinch p (fun x => { x with titheDone := true, arb := none })
    (onCnt (fun c => { c with titheSkip := satInc 32 c.titheSkip }) s))

/-! ### Snapshots -/

/-- The slices a Finch snapshots in a beat, in the order they start: the one its checker visits now, for
arbitration, and the one after it (R223). -/
def snapSlices (s : State) (p : Fin 72) : List Nat :=
  let n := sliceCount s.img (rowOf p)
  let j := sliceOf s (besides s p 1) % Nat.max 1 n
  let k := (j + 1) % Nat.max 1 n
  if j = k then [j] else if j < k then [j, k] else [k, j]

/-- The work of the running beat that a Finch keeps. -/
def workNow (s : State) (p : Fin 72) : Work :=
  s.fab.perch[p].iss.work.headD Work.reset

/-- The Finch's state as a snapshot for a slice. -/
def snapshotOf (s : State) (p : Fin 72) (j : Nat) : Snapshot where
  beat := (finchOf s p).beat
  slice := j
  regs := regsOf (finchOf s p)
  mould := (finchOf s p).mould
  agUse := (finchOf s p).agUse
  bun := s.fab.perch[p].iss.bun
  slots := s.fab.perch[p].iss.slots
  old := s.fab.perch[p].iss.old
  issued := (workNow s p).ops.length
  logged := (workNow s p).toks.length

/-- TITHE_SNAPSHOT: before a chosen slice starts the Finch's state enters the snapshot store of four (R223). -/
def execTitheSnapshot (p : Fin 72) (s : State) : Host.Outcome State Fault Refusal :=
  let fi := finchOf s p
  let l := snapSlices s p
  let j := l.getD fi.snapCount 0
  if issues s p = false ∨ titheOn s p = false ∨ l.length ≤ fi.snapCount ∨ beforeSlice s p j = false then .next s
  else
    .next (onFinch p (fun x => { x with snapCount := x.snapCount + 1, snaps := (snapshotOf s p j :: x.snaps).take 4 }) s)

/-! ### Re-execution -/

/-- A stage operation issues again. -/
def stageAgain (p : Fin 72) (i : Instr) (s : State) : Host.Outcome State Fault Refusal :=
  match i with
  | .mvm _ v g f a x => execMvm p v g f a x s
  | .opa _ v g f a b => execOpa p v g f a b s
  | .lmac _ v g f c a b => execLmac p v g f c a b s
  | .add _ v g f a b d => execAdd p v g f a b d s
  | .sub _ v g f a b d => execSub p v g f a b d s
  | .mul _ v g f a b d => execMul p v g f a b d s
  | .max _ v g f a b d => execMax p v g f a b d s
  | .min _ v g f a b d => execMin p v g f a b d s
  | .rq _ v g f a d => execRq p v g f a d s
  | .lut _ v g w x => execLut p v g w x s
  | .cmp _ v g f o a b m => execCmp p v g f o a b m s
  | .plog _ v g o => execPlog p v g o s
  | .sel _ v g m a b d f => execSel p v g m a b d s f
  | .shf _ v g q x d f => execShf p v g q x d s f
  | .red _ v g f m x d => execRed p v g f m x d s
  | .aclr _ v g a => execAclr p v g a s
  | .amov _ v g a b => execAmov p v g a b s
  | _ => .next s

/-- A store of the re-execution writes no Wren word (R228). -/
def storeAgain (p : Fin 72) (g : PredSel) (ag : Fin 8) (src : StSrc) (n : Nat) (i : Instr) (s : State) : State :=
  noteOp p i (writeBytes (agWords s p ag (agCount s p ag)) (storeData (opView s p i) g src n))
    (stepAg p ag 1 (beginOp p i s))

/-- The next entry of the replayed token log is used up. -/
def popToken (p : Fin 72) (s : State) : State :=
  onWork p (fun w => { w with toks := w.toks.drop 1 }) s

/-- The next entry of the replayed token log. -/
def nextToken (s : State) (p : Fin 72) : Option Token :=
  ((workNow s p).toks.head?).join

/-- A RECV of the re-execution takes its outcome from the token log (R224, R314, R322). -/
def recvAgain (p : Fin 72) (g : PredSel) (link : Dir) (ch : Fin 4) (pd : Option (Fin 8)) (i : Instr) (s : State) :
    State :=
  let fi := opView s p i
  let u := popToken p (noteOp p i [] (beginOp p i s))
  let mark := predMark fi g
  let elastic := chanKind s p link ch == 2
  if predValue fi g = false then u
  else
    match nextToken s p with
    | some t =>
      let v := writeToken p t none mark u
      match pd with
      | none => v
      | some k => onFinch p (setPred k (elastic || !t.void) (t.poison || mark)) v
    | none =>
      if elastic then
        let v := onFinch p (setInputWord 0 mark) u
        match pd with
        | none => v
        | some k => onFinch p (setPred k false mark) v
      else u

/-- The words an operation reads. -/
def wordsRead (s : State) (p : Fin 72) (i : Instr) : List Nat :=
  match i with
  | .ldw _ _ ag _ => agWords s p ag (agCount s p ag)
  | .ldn _ _ ag _ => [agUnit s p ag (agCount s p ag)]
  | .ldt _ _ _ ag _ _ => tileWords s p ag
  | _ => []

/-- A read gives the re-execution no operand: a poisoned or uncorrectable word, or one the loader is rewriting
(R286). -/
def readFails (s : State) (p : Fin 72) (as : List Nat) (es : List Ecc) : Bool :=
  es.contains .uncorrectable || as.any fun a =>
    (wordAt s p a).poison || (regionAt s.img (rowOf p) a).any fun g => rewriting s p g.ix

/-- What a command leads to, its next state. -/
def afterOp (o : Host.Outcome State Fault Refusal) (s : State) : State :=
  match o with
  | .next t => t
  | _ => s

/-- One operation issues again, with the checks its reads find: it writes no word, sends no token and pushes none
(R228); only the signature takes its outputs. -/
def opAgain (p : Fin 72) (i : Instr) (es : List Ecc) (s : State) : State :=
  match i with
  | .ldw _ g ag _ => afterOp (execLdw p g ag es s) s
  | .ldn _ g ag _ => afterOp (execLdn p g ag (es.headD .clean) s) s
  | .ldt _ v g ag h _ => afterOp (execLdt p v g ag h es s) s
  | .stw _ g ag x => storeAgain p g ag x 16 i s
  | .stn _ g ag x => storeAgain p g ag x 1 i s
  | .put _ g d o u ac x =>
    let r := putRequest (opView s p i) p g d o u ac x
    noteOp p i (writeBytes r.addr (if r.void then none else some r.data)) (beginOp p i s)
  | .send _ g _ ch tag x => noteOp p i (tokenBytes (tokenFor (opView s p i) g (BitVec.ofNat 2 ch.val) tag x)) (beginOp p i s)
  | .recv _ g link ch pd => recvAgain p g link ch pd i s
  | .egr _ g tag x => noteOp p i (tokenBytes (tokenFor (opView s p i) g 0 tag x)) (beginOp p i s)
  | .wait _ _ _ => noteOp p i [] (beginOp p i s)
  | _ => afterOp (stageAgain p i s) s

/-- The re-execution goes on to a later mould. -/
def mouldAgain (p : Fin 72) (m : Nat) (s : State) : State :=
  if (finchOf s p).mould = m then s
  else
    onIss p (fun x => { x with bun := 0, slots := [] })
      (onFinch p (fun x => { x with mould := m, agUse := Vector.replicate 8 0 }) s)

/-- The operations of a slice issue again in order; whether a read failed, and the checks left. -/
def replayOps (p : Fin 72) : List (Nat × Nat × Instr) → List Ecc → Bool → State → Bool × State
  | [], _, bad, s => (bad, s)
  | (_, m, i) :: r, es, bad, s =>
    let u := mouldAgain p m s
    let as := wordsRead u p i
    let mine := es.take as.length
    replayOps p r (es.drop as.length) (bad || readFails u p as mine) (opAgain p i mine u)

/-- The checked Finch as its snapshot and its token log give it to the re-execution. -/
def rewind (p : Fin 72) (q : Snapshot) (w : Work) (s : State) : State :=
  onPerch p (fun x => { x with
    finch := { withRegs q.regs x.finch with
      running := true, stalled := false, putWait := 0, beat := q.beat, mould := q.mould, agUse := q.agUse }
    iss := { bun := q.bun, slots := q.slots, old := q.old
             work := [{ Work.reset with beat := w.beat, toks := w.toks.drop q.logged }] } }) s

/-- After a re-execution the checked Finch, its runners and the FAB counters stand as before it: what stays is what the
reads found in its Wren (R225, R228). -/
def unwind (p : Fin 72) (s t : State) : State :=
  onPerch p (fun x => { x with finch := s.fab.perch[p].finch, iss := s.fab.perch[p].iss, run := s.fab.perch[p].run })
    { t with fab := { t.fab with cnt := s.fab.cnt } }

/-- The kept work of a beat. -/
def keptWork (s : State) (p : Fin 72) (beat : Nat) : Option Work :=
  s.fab.perch[p].iss.work.find? fun w => w.beat == beat

/-- The snapshot of a slice of a beat. -/
def keptSnap (s : State) (p : Fin 72) (beat j : Nat) : Option Snapshot :=
  (finchOf s p).snaps.find? fun q => q.beat == beat && q.slice == j

/-- The operations a re-execution of a slice issues: those after its snapshot up to the slice's end. -/
def opsToCheck (q : Snapshot) (w : Work) (j : Nat) : List (Nat × Nat × Instr) :=
  (w.ops.reverse.drop q.issued).filter fun o => decide (o.1 ≤ j)

/-- Slice `j` of a kept beat is executed again from its snapshot: the CRC-32C over its ordered outputs, none where a read
failed (R109, R110, R286, R355), and the state its reads leave. -/
def reexecute (p : Fin 72) (q : Snapshot) (w : Work) (j : Nat) (es : List Ecc) (s : State) :
    Option (BitVec 32) × State :=
  let (bad, t) := replayOps p (opsToCheck q w j) es false (rewind p q w s)
  (if bad then none else some (~~~ sigOf (workNow t p).sigs j), unwind p s t)

/-! ### Judgement -/

/-- A Finch is judged faulty on a slice: class 0x10, DEGRADED from then on; a second time at the next visit of the
slice it is reported with bit 7 and a repair starts (R111, R112). -/
def judgeFinch (f : Fin 72) (slice : Nat) (checker : Fin 72) (s : State) : State :=
  let e := (f.val, slice, checker.val)
  let c := faultCode 0x10 f.val
  if s.flt.titheFound.contains e then
    finding f (stand c (report (faultCode 0x10 (128 + f.val)) s))
  else
    let s := stand c (report c s)
    { s with flt := { s.flt with titheFound := e :: s.flt.titheFound } }

/-- A finding was transient: it is recorded so by a FAULT_END record of its code, and its DEGRADED ends when no finding
of its Finch is left (R112, Table 18.10; DEDUCED, log entry 26). -/
def endFinding (f : Nat) (s : State) : State :=
  let s := logOther 2 (faultCode 0x10 f) [] s
  if s.flt.titheFound.any fun x => x.1 == f then s else unstand (faultCode 0x10 f) s

/-- A visit of a slice without a mismatch: its findings were transient (R112). -/
def clearFinding (checker : Fin 72) (slice : Nat) (s : State) : State :=
  let mine := fun (e : Nat × Nat × Nat) => e.2.1 == slice && e.2.2 == checker.val
  let gone := s.flt.titheFound.filter mine
  gone.foldl (fun t e => endFinding e.1 t)
    { s with flt := { s.flt with titheFound := s.flt.titheFound.filter fun e => !mine e } }

/-- The outcome of an arbitration: the Finch whose signature differs from the other two is faulty; when all three
differ, the checked one and the checker are (R111). -/
def arbitrate (checked checker arbiter : Fin 72) (slice : Nat) (own re arb : BitVec 32) (s : State) : State :=
  if own = re ∧ re = arb then s
  else if re = arb then judgeFinch checked slice checker s
  else if own = arb then judgeFinch checker slice checker s
  else if own = re then judgeFinch arbiter slice checker s
  else judgeFinch checker slice checker (judgeFinch checked slice checker s)

/-- What the SECDED of the snapshot store or token log finds at the read of the slot (Edges of "Moulds, folding and the
beat", Table 3.1). -/
def storeFinding (west : Fin 72) (store : Ecc) (s : State) : State :=
  match store with
  | .clean => s
  | .corrected => report (faultCode 0x11 west.val) s
  | .uncorrectable => report (faultCode 0x12 west.val) s

/-- The line of the beat a Finch ran before the running one. -/
def lastBeat (s : State) (p : Fin 72) : Option Nat :=
  (s.fab.perch[p].iss.work[1]?).map (·.beat)

/-- What the tithe of a checker finds for slice `j`: the checked Finch's own signature and those of the re-executions by
the checker and, when an arbitration is due, by the arbiter; `masks`: the bits in which a fault alters each (R84,
R110). -/
def titheSigs (p : Fin 72) (j : Nat) (masks : BitVec 32 × BitVec 32 × BitVec 32) (ecc eccArb : List Ecc) (s : State) :
    Option (BitVec 32 × BitVec 32 × BitVec 32) × State :=
  let west := besides s p 7
  match lastBeat s p with
  | none => (none, s)
  | some b =>
    match keptWork s west b, keptSnap s west b j with
    | some w, some q =>
      let own := ~~~ sigOf w.sigs j ^^^ masks.1
      let (re, t) := reexecute west q w j ecc s
      if (finchOf s p).arb.isSome then
        let (arb, u) := reexecute west q w j eccArb t
        match re, arb with
        | some r, some a => (some (own, r ^^^ masks.2.1, a ^^^ masks.2.2), u)
        | _, _ => (none, u)
      else (re.map fun r => (own, r ^^^ masks.2.1, 0), t)
    | _, _ => (none, s)

/-- The tithe of a checker ends with the signatures it has (R110 to R112). -/
def closeTithe (p : Fin 72) (sigs : Option (BitVec 32 × BitVec 32 × BitVec 32)) (s : State) : State :=
  match sigs, (finchOf s p).arb with
  | none, _ => skipTithe p s
  | some (own, re, arb), some j =>
    nextSlice p (onFinch p (fun x => { x with arb := none, titheDone := true })
      (arbitrate (besides s p 7) p (besides s p 1) j own re arb s))
  | some (own, re, _), none =>
    let j := sliceOf s p
    if re = own then nextSlice p (clearFinding p j (onFinch p (fun x => { x with titheDone := true }) s))
    else
      onFinch p (fun x => { x with arb := some j, slice := some j, titheDone := true })
        (onCnt (fun c => { c with titheMismatch := satInc 32 c.titheMismatch }) s)

/-- TITHE_SLOT of checker `p`, after its last mould: it re-executes its slice of the checked Finch's last beat and
compares the signatures (R109 to R112). `own`, `re`, `arb`: the signature bits a fault in the checked Finch, the checker
or the arbiter alters; `store`: what the snapshot store's and token log's SECDED finds; `ecc`, `eccArb`: the checks of
the words the checker's and the arbiter's re-execution read. Without a kept beat and snapshot of the slice the check is
skipped. A serving arbiter skips its own slice, which runs in the next beat. -/
def execTitheSlot (p : Fin 72) (own re arb : BitVec 32) (s : State) (store : Ecc := .clean)
    (ecc eccArb : List Ecc := []) : Host.Outcome State Fault Refusal :=
  let fi := finchOf s p
  if issues s p = false ∨ fi.titheDone ∨ titheOn s p = false ∨ fi.mould + 1 < s.img.nat Fld.fold [rowOf p] then .next s
  else if fi.serves && fi.arb.isNone then .next (onFinch p (fun x => { x with titheDone := true }) s)
  else
    let s := storeFinding (besides s p 7) store s
    if store = .uncorrectable then .next (skipTithe p s)
    else
      let (x, t) := titheSigs p (fi.arb.getD (sliceOf s p)) (own, re, arb) ecc eccArb s
      .next (closeTithe p x t)

end Sys2Proof.Machine
end

