-- ==== Sys2Proof/Machine/Fabric.lean ====
section
/-! DEFINITION. The schedule of the perch fabric: beats, lag, moulds, island clocks, the spare self-test, and what COMMIT,
resets, SLEEP and re-inits do to the fabric (R119, R217 to R234, R247, R287 to R291, R319). The check tithe is in
Tithe.lean, the column repair in Repair.lean. -/

namespace Sys2Proof.Machine

/-! ### Beats -/

/-- The line whose beat a perch runs next: exposed, ingressed where it is inspected, not begun (R221, R232). -/
def beatDue (s : State) (p : Fin 72) : Option LineRec :=
  s.spr.lines.find? fun l =>
    l.exposed && (l.ingressed || l.uninsp) && !l.noBeat && !l.ranOn.contains p.val

/-- Beats run: RUN, no FABRIC re-init, a powered active perch (R150, R245, R644). -/
def beatsRun (s : State) (p : Fin 72) : Bool :=
  s.sys.code == .run && !reinitBusy .fabric s && activePerch s p && s.fab.perch[p].powered

/-- Moulds of a perch's row (FOLD). -/
def foldOf (s : State) (p : Fin 72) : Nat :=
  s.img.nat Fld.fold [rowOf p]

/-- A beat overrun is reported: class 0x22 and OVERRUN (R233). -/
def overrun (p : Fin 72) (s : State) : State :=
  onCnt (fun c => { c with overrun := satInc 32 c.overrun }) (report (faultCode 0x22 p.val) s)

/-- Predicates with an EVI_MAP take their pin's event input of the line (R548). -/
def loadEventInputs (p : Fin 72) (l : LineRec) (s : State) : State :=
  (List.finRange 8).foldl (fun t k =>
    let m := s.img.nat Fld.eviMap [k.val]
    if m < 48 then onFinch p (setPred k (l.evIn.getLsbD m) false) t else t) s

/-- A watch counts a beat-start token: it fires when its group is not empty and no movement has taken place since the
fourth token before, so that this one is the fifth in a row (R315). -/
def watchToken (occ : Bool) (w : Watch) : Watch :=
  { idle := w.idle + 1, due := occ && decide (5 ≤ w.idle + 1) }

/-- A beat-start token of a line is seen for the first time: every elastic watch counts it (R315). -/
def countToken (l : LineRec) (s : State) : State :=
  if l.ranOn.isEmpty then
    { s with fab := { s.fab with watch := Vector.ofFn fun g => watchToken (occupied s g) s.fab.watch[g] } }
  else s

/-- A later line than one has its beat-start token due at a perch. -/
def laterDue (s : State) (p : Fin 72) (n : Nat) : Bool :=
  s.spr.lines.any fun l =>
    linePast l.line n && l.line != n && l.exposed && (l.ingressed || l.uninsp) && !l.noBeat && !l.ranOn.contains p.val

/-- A Finch at the start of a beat: mould 0, its first bundle, a new token log (R219, R221, R224). -/
def beginBeat (l : LineRec) (late : Nat) (two serves : Bool) (x : Perch) : Perch :=
  { x with
    run := { x.run with sentPrev := x.run.sentLater, sentLater := Vector.replicate 16 0 }
    iss := { x.iss with bun := 0, slots := [], work := { Work.reset with beat := l.line } :: x.iss.work.take 1 }
    finch := { x.finch with
      running := true
      beat := l.line
      mould := 0
      agUse := Vector.replicate 8 0
      held := none
      twoHeld := x.finch.twoHeld || two
      lag := late
      lagBeats := if late = 0 then 0 else x.finch.lagBeats + 1
      titheDone := false
      snapCount := 0
      serves := serves } }

/-- A Finch starts the beat of a line with mould 0, `late` cycles after the token (R221, R223, R224, R233): a late start
that no held token has reported yet is a beat overrun, also while the island lags already. -/
def startBeat (p : Fin 72) (l : LineRec) (late : Nat) (s : State) : State :=
  let fi := finchOf s p
  let s := if titheOn s p && fi.running && !fi.titheDone && !fi.serves then skipTithe p s else s
  let s := if 0 < late ∧ fi.held.isNone then overrun p s else s
  let west := besides s p 7
  let serves := titheOn s p && ((finchOf s west).arb).isSome
  let two := decide (0 < late) && laterDue s p l.line
  let s := countToken l s
  let s := markLine l.line (fun x => { x with beatRan := true, ranOn := p.val :: x.ranOn }) s
  let s := onPerch p (beginBeat l late two serves) s
  let s := if titheOn s p && decide (0 < late) then skipTithe p s else s
  loadEventInputs p l s

/-- A beat-start token reaches a stalled Finch: the first is held and reported as an overrun, a further one finds it held
(R234), and each counts toward the two tokens of a waiting SEND or WAIT (R233, R241, R272). -/
def holdToken (p : Fin 72) (l : LineRec) (s : State) : State :=
  let fi := finchOf s p
  let s := onFinch p (fun x => { x with
    twoHeld := x.twoHeld || x.held.isSome
    stall := { x.stall with beats := Nat.min 3 (x.stall.beats + 1) } }) s
  if fi.held.isSome then s else overrun p (onFinch p (fun x => { x with held := some l.line }) s)

/-- BEAT_START: the beat-start token of the next line reaches an island. A free Finch begins the beat, `late`
cycles after the token; `slip`: the last mould of the beat before exceeded its stall allowance (R219, R221, R232,
R233). The ingress words of the line precede the token (R232). -/
def execBeatStart (p : Fin 72) (late : Nat) (slip : Bool) (s : State) : Host.Outcome State Fault Refusal :=
  match beatDue s p with
  | none => .next s
  | some l =>
    let fi := finchOf s p
    if beatsRun s p = false ∨ s.fab.perch[p].wren.ingQ ≠ [] then .next s
    else if fi.blocked then
      match fi.held with
      | none => .next (holdToken p l s)
      | some n => .next (if laterDue s p n then holdToken p l s else s)
    else
      let s := if slip && fi.running then onCnt (fun c => { c with stallOver := satInc 32 c.stallOver }) s else s
      .next (startBeat p l late s)

/-- Class 0x70: reported, a finding of R115. -/
def perchFails (p : Fin 72) (s : State) : State :=
  finding p (report (faultCode 0x70 p.val) s)

/-- LAG_TIMEOUT: a further token arrived while one was held, or the lag has not reached 0 within 16 beats of the overrun
(R234). The beat that started late is beat 0 of the count, so the lag stands at the 17th late start in a row (DEDUCED, log
entry 25: the rule does not say which beat counts as the first). -/
def execLagTimeout (p : Fin 72) (s : State) : Host.Outcome State Fault Refusal :=
  let fi := finchOf s p
  if beatsRun s p = false ∨ s.fab.perch[p].failed then .next s
  else if fi.twoHeld ∨ 17 ≤ fi.lagBeats then .next (perchFails p s)
  else .next s

/-- MOULD_START: the next mould starts; `overrun`: the one before exceeded its stall allowance (R219). -/
def execMouldStart (p : Fin 72) (overrun : Bool) (s : State) : Host.Outcome State Fault Refusal :=
  let fi := finchOf s p
  if issues s p = false ∨ foldOf s p ≤ fi.mould + 1 then .next s
  else
    let s := if overrun then onCnt (fun c => { c with stallOver := satInc 32 c.stallOver }) s else s
    .next (onIss p (fun x => { x with bun := 0, slots := [] })
      (onFinch p (fun x => { x with mould := x.mould + 1, agUse := Vector.replicate 8 0 }) s))

/-! ### Island clocks and the spare -/

/-- FLOOR_WINDOW: a 100 µs window of an island's cycles ends (R231). -/
def execFloorWindow (p : Fin 72) (cycles : Nat) (s : State) : Host.Outcome State Fault Refusal :=
  let x := s.fab.perch[p]
  if x.powered = false ∨ inState [.commit, .run, .hold, .repair] s = false then .next s
  else
    let low := decide (cycles < 105000)
    let n := if low then Nat.min 10 (x.belowRun + 1) else 0
    let s := onPerch p (fun x => { x with
      freq := Nat.min 2047 (cycles / 100), belowFloor := low, belowRun := n }) s
    .next (if n = 10 ∧ x.belowRun = 9 then perchFails p s else s)

/-- The spare perch of a row. -/
def sparePerch (r : Fin 8) : Fin 72 :=
  ⟨9 * r.val + 8, by have := r.isLt; omega⟩

/-- The repair in progress is given up: the device keeps the original map and the failed perch is a fault not
masked (Edges of "Column repair"). -/
def abortRepair (s : State) : State :=
  match s.fab.repair with
  | none => s
  | some r =>
    unmask { s with fab := { s.fab with
      repair := some { r with aborted := true }
      perch := Vector.ofFn fun p =>
        let x := s.fab.perch[p]
        { x with powered := if p.val % 9 = 8 then false else rowUsed s p } } }

/-- SPARE_SELF_TEST: the spare column tests itself at every boot, every second in RUN and in step 2 of a repair;
`failed` are the rows whose spare perch fails (R119, R245). After a bypass no spare is left. That a later passing test
makes repair available again is a DESIGN CHOICE (log entry 26): the spec does not say how long the mark stands. -/
def execSpareSelfTest (failed : List (Fin 8)) (s : State) : Host.Outcome State Fault Refusal :=
  if s.fab.bypass.isSome ∨ inState [.boot, .commit, .run, .repair] s = false then .next s
  else if failed.isEmpty then
    .next { s with fab := { s.fab with
      spareOk := true
      repairAvail := true
      repair := s.fab.repair.map fun r => { r with tested := true }
      wcnt := { s.fab.wcnt with reloading := s.fab.wcnt.reloading || s.fab.repair.any fun r => !r.loaded && !r.aborted } } }
  else
    let s := reportAll (failed.map fun r => faultCode 0x70 (sparePerch r).val) s
    let s := { s with fab := { s.fab with spareOk := false, repairAvail := false } }
    match s.fab.repair with
    | some r => .next (if r.loaded then s else abortRepair s)
    | none => .next s

/-! ### Gaps and restarts -/

/-- The exposed lines whose beat has not begun, oldest first. -/
def waitingBeats (s : State) : List LineRec :=
  s.spr.lines.filter fun l => l.exposed && !l.beatRan && !l.noBeat

/-- The beats of the waiting lines are not run, but for the newest when `keep`: they carry UNINSPECTED, in a repair
gap REPAIRING too (R117, R245, R644). -/
def skipBeats (rep keep : Bool) (s : State) : State :=
  let w := waitingBeats s
  let ls := (if keep then w.dropLast else w).map (·.line)
  markLines (fun l =>
    if ls.contains l.line then { l with noBeat := true, uninsp := true, repairing := l.repairing || rep } else l) s

/-- A fabric restart: from the first line whose beat is still to run, D lines lie in the CONTEXT_PARTIAL window, and that
line sends a time anchor (R247, R145, R391). -/
def fabricRestart (s : State) : State :=
  let d := s.img.nat Fld.d []
  let ls := (s.spr.lines.filter fun l => !l.beatRan && !l.noBeat).map (·.line)
  let s := { s with fab := { s.fab with ctxLeft := d - ls.length, restart := ls.isEmpty } }
  markLines (fun l =>
    if (ls.take d).contains l.line then
      let first := ls.head? == some l.line
      { l with ctx := true, restart := l.restart || first, anchor := l.anchor || first }
    else l) s

/-- Every Finch at rest: accumulators, tiles, registers, masks, token logs and snapshots cleared; its sweep of the
tithe goes on where it stopped (R245 step 6). -/
def clearFinches (s : State) : State :=
  { s with fab := { s.fab with perch := Vector.ofFn fun p =>
    let x := s.fab.perch[p]
    { x with finch := { Finch.reset with slice := x.finch.slice }, iss := Issue.reset } } }

/-- No operation of a Finch's beat is left: its last mould runs and the bundles after the one in issue are empty (R221). -/
def workDone (s : State) (p : Fin 72) : Bool :=
  let fi := finchOf s p
  let x := s.fab.perch[p].iss
  let body := mouldBody s.img (rowOf p) fi.mould
  let n := body.length * s.img.nat Fld.mrepeat [rowOf p, fi.mould]
  decide (foldOf s p ≤ fi.mould + 1) && (List.range (n - x.bun)).all fun d =>
    (body.getD ((x.bun + d) % body.length) []).all fun o => d == 0 && (slotOf o).any x.slots.contains

/-- The lines whose beats run on some perch with work left. -/
def abortedBeats (s : State) : List Nat :=
  ((List.finRange 72).filter fun p => (finchOf s p).running && activePerch s p && !workDone s p).map
    fun p => (finchOf s p).beat

/-- Beats that a FABRIC re-init stops before their work is done: no segment of their lines counts as inspected (R124,
Table 17.10; DEDUCED, log entry 25). -/
def abortBeats (s : State) : State :=
  let ls := abortedBeats s
  markLines (fun l => if ls.contains l.line then { l with noBeat := true, uninsp := true, ranOn := [] } else l) s

/-- The running beats end without their tithe. -/
def stopBeats (s : State) : State :=
  { s with fab := { s.fab with perch := Vector.ofFn fun p =>
    let x := s.fab.perch[p]
    { x with finch := { x.finch with
      running := false, stalled := false, stall := Stall.reset, putWait := 0, held := none, twoHeld := false, lag := 0
      lagBeats := 0, serves := false } } } }

/-! ### COMMIT, resets, SLEEP -/

/-- What a reset leaves of a perch: FAILED and RETAIN_FAIL, and the Wren words of a WARM reset (R289, R290,
Table 18.6). -/
def perchAfterReset (kind : Nat) (x : Perch) : Perch :=
  { Perch.reset with
    failed := x.failed
    wren := { Wren.reset with
      words := if kind = 3 then x.wren.words else []
      loaded := decide (kind = 3) && x.wren.loaded
      corr := x.wren.corr
      uncorr := x.wren.uncorr
      retainFail := x.wren.retainFail } }

/-- What a reset of a kind of Table 18.5 leaves of the fabric: the column map, the RS fields and the counters, and
the retention tag of a WARM reset (R250, R287, R289, R292). -/
def fabReset (kind : Nat) (s : State) : State :=
  { s with fab := { Fab.reset with
    perch := s.fab.perch.map (perchAfterReset kind)
    bypass := aonBypass s
    cnt := s.fab.cnt
    wcnt := { s.fab.wcnt with
      rtagValid := decide (kind = 3) && s.fab.wcnt.rtagValid, retained := false, reloading := false }
    repairLine := s.fab.repairLine
    repairLineHi := s.fab.repairLineHi
    repairLong := s.fab.repairLong
    refuseAt := s.fab.refuseAt } }

/-- The FABRIC and WREN domains are off in SAFE: nothing of their contents stays. -/
def fabOff (s : State) : State :=
  fabReset 5 s

/-- The active perches are powered: used rows and mapped columns (R210, R245). -/
def powerPerches (s : State) : State :=
  { s with fab := { s.fab with perch := Vector.ofFn fun p =>
    { s.fab.perch[p] with powered := activePerch s p } } }

/-- The COMMIT edge: counters zeroed, streaming regions zeroed, credits given, resident protection armed, the
retention tag set to the image's digest, VALID where every resident region is verified (R250, R268, R276, R287, R292,
R319, R580). -/
def fabCommit (s : State) : State :=
  let s := clearRunners (zeroStreaming s.img (powerPerches s))
  setTag s.img { s with fab := { s.fab with
    cnt := FabCnt.reset
    wcnt := { WrenCnt.reset with retained := s.boot.retained, retainFails := s.fab.wcnt.retainFails }
    perch := s.fab.perch.map fun x => { x with
      finch := Finch.reset
      iss := Issue.reset
      wren := { x.wren with corr := 0, uncorr := 0, passes := 0, lastUs := 0, passStart := s.now, scrubRow := 0, armed := true } } } }

/-- The fabric is released from reset (R582). -/
def fabRun (s : State) : State :=
  { s with fab := { s.fab with released := true } }

/-- SLEEP: the FABRIC domain is off, the Wrens in retention; streaming regions are lost (R289, R657). -/
def fabSleep (s : State) : State :=
  let s := clearRunners (zeroStreaming s.img s)
  { s with fab := { s.fab with
    ctxLeft := 0
    perch := s.fab.perch.map fun x => { x with
      finch := Finch.reset, iss := Issue.reset, powered := false, freq := 0, belowFloor := false, belowRun := 0 } } }

/-- A Wren's resident regions are reloaded after a failed retention check at the exit from SLEEP: the failure is class
0x12 with bit 7, the tag is not valid meanwhile (R287, R291, R292). -/
def reloadFailed (p : Fin 72) (s : State) : State :=
  loadWren s.img s.boot.slot p (clearTag (retentionFailed p (wrenLost (faultCode 0x12 (128 + p.val)) s)))

/-- The retention check of one Wren at the exit from SLEEP: its reads with what they find, then the reload where it does
not pass (R288, R291). -/
def wakeWren (found : List (Nat × Ecc)) (p : Fin 72) (s : State) : State :=
  let t := retentionReads s.img p found s
  if retentionOk s.img p t then t else reloadFailed p t

/-- The Wrens whose retention check at the exit from SLEEP fails. -/
def wakeFails (found : List (Fin 72 × Nat × Ecc)) (s : State) : Bool :=
  (usedPerches s.img s).any fun p =>
    !retentionOk s.img p (retentionReads s.img p ((found.filter (·.1 = p)).map (·.2)) s)

/-- The exit from SLEEP: retention checks with what their reads find, streaming regions and riser zeroed (R276, R288, R289,
R291, R319). STATUS.RETAINED reads 0 when any Wren was reloaded, a DESIGN CHOICE (log entry 28): the spec does not say what
it reads when some were kept. -/
def fabWake (found : List (Fin 72 × Nat × Ecc)) (s : State) : State :=
  let s := powerPerches s
  let bad := wakeFails found s
  let t := (usedPerches s.img s).foldl (fun t p => wakeWren ((found.filter (·.1 = p)).map (·.2)) p t) s
  let t := clearRunners (zeroStreaming t.img t)
  onWCnt (fun c => { c with retained := !bad }) (if bad then setTag t.img t else t)

/-! ### FABRIC re-init -/

/-- A FABRIC re-init starts: beats stop, the retention tag is cleared, streaming regions and queues are zeroed
(R287, R289, R319, Table 17.10). -/
def reinitStartFabric (s : State) : State :=
  let s := skipBeats false false (stopBeats (abortBeats s))
  onWCnt (fun c => { c with reloading := true })
    (clearTag (clearRunners (zeroStreaming s.img (clearFinches s))))

/-- It ends: every resident region is reloaded from the running slot and verified, the tag is set, and the next beat is a
fabric restart (R287, R289, Table 17.10). -/
def reinitEndFabric (s : State) : State :=
  let s := (usedPerches s.img s).foldl (fun t p => loadWren s.img s.boot.slot p t) s
  let s := { s with fab := { s.fab with perch := s.fab.perch.map fun x => { x with wren := { x.wren with rewriting := [] } } } }
  fabricRestart (skipBeats false true
    (onWCnt (fun c => { c with reloading := false }) (setTag s.img s)))

end Sys2Proof.Machine
end

