-- ==== Sys2Proof/Machine/Pins.lean ====
section
/-! DEFINITION. The general pins: how a pin's output is composed, who may change it, event ports, interrupts and
event inputs, the I2C controller, bank supplies and boundary scan (R527 to R561, R692, R706). -/

namespace Sys2Proof.Machine

/-! ### Outputs -/

/-- One pin changes. -/
def onPin (p : Fin 48) (f : Pin → Pin) (s : State) : State :=
  { s with gpio := { s.gpio with pin := vmod s.gpio.pin p f } }

/-- Every pin changes. -/
def onPins (f : Fin 48 → Pin → Pin) (s : State) : State :=
  { s with gpio := { s.gpio with pin := Vector.ofFn fun p => f p s.gpio.pin[p] } }

/-- Bank of a pin: 0 for GP00 to GP23 (R527). -/
def bankOf (p : Fin 48) : Fin 2 :=
  if p.val < 24 then 0 else 1

/-- A PULSE port with a raised contribution is routed to the pin (R528, R543). -/
def pulsed (s : State) (p : Fin 48) : Bool :=
  s.gpio.evpOn && (List.finRange 16).any fun k =>
    s.gpio.evp[k].active && (s.img.nat Fld.evpPins [k.val]).testBit p.val

/-- The signal f of a pin's function (R528, Table 14.1). -/
def pinSignal (s : State) (p : Fin 48) : Bool :=
  let x := s.gpio.pin[p]
  match x.mux with
  | 0 => x.data
  | 1 => s.ptp.pps
  | 2 => x.lineOut
  | 3 => x.lineOut
  | _ => false

/-- A level as an output drives it: an open drain releases the pin at 1 (R528). -/
def driveLevel (od level : Bool) : Option Bool :=
  if od && level then none else some level

/-- What a pin with image settings drives (R528, R529). The I2C signals of functions 4 and 5 lie below this
model. -/
def activeOut (s : State) (p : Fin 48) : Option Bool :=
  let x := s.gpio.pin[p]
  if (x.mux = 0 ∧ x.oe) ∨ (1 ≤ x.mux ∧ x.mux ≤ 3) then
    driveLevel x.od ((pinSignal s p || pulsed s p) != x.inv)
  else none

/-- What a pin drives: the boundary register, nothing without a bank supply, the frozen level in SLEEP, the image's
composition, or before COMMIT the hold-through latch (R528, R529, R554, R559, R706, Edges of "Operating
conditions"). -/
def padOut (s : State) (p : Fin 48) : Option Bool :=
  let x := s.gpio.pin[p]
  if s.gpio.bank[bankOf p] = .absent then none
  else if s.bscan.driving then some (s.bscan.cells.getD p.val false)
  else if s.sys.code = .sleep then x.frozen
  else if s.gpio.active then activeOut s p
  else if x.htValid && x.htOe then driveLevel x.htOd (x.htLevel != x.htInv)
  else none

/-- Every pin whose drive a change alters shows an edge (R538). -/
def withPins (f : State → State) (s : State) : State :=
  let t := f s
  (List.finRange 48).foldl (fun u p =>
    if padOut s p = padOut t p then u else emit (.pin p.val (padOut t p)) u) t

/-- The level at a pin's pad: what it drives, or what is driven from outside, where it drives nothing or is forced; 0
without a bank supply (R530, Edges of "Banks and functions" and of "Operating conditions"). -/
def padLevel (s : State) (p : Fin 48) : Bool :=
  let x := s.gpio.pin[p]
  if s.gpio.bank[bankOf p] = .absent then false else if x.forced then x.pad else (padOut s p).getD x.pad

/-! ### Owners and writes -/

/-- Owner code of an agent (Table 14.2). -/
def agentCode : Agent → Nat
  | .sec => 0
  | .sup => 1
  | .fab => 2
  | .mnt => 3

/-- An agent owns a pin and writes it at run time; SEC writes nothing (R532, Table 14.2). -/
def mayWrite (who : Agent) (x : Pin) : Bool :=
  who != .sec && x.owner == agentCode who

/-- A foreign write is ignored and counted (R534). -/
def foreign (who : Agent) (p : Fin 48) (s : State) : State :=
  { s with gpio := { s.gpio with
    foreignCount := satInc 32 s.gpio.foreignCount, foreignPin := p.val, foreignAgent := agentCode who } }

/-- The OWN fields of CFGp take their bits of a word (R533, Table 14.7). -/
def cfgPin (v : Nat) (x : Pin) : Pin :=
  { x with
    oe := v.testBit 6
    od := v.testBit 7
    pull := bits v 8 2
    drive := bits v 10 2
    slew := v.testBit 12 }

/-- A CFGp write by an agent (R533, R534). -/
def writeCfg (who : Agent) (p : Fin 48) (v : Nat) (s : State) : State :=
  let x := s.gpio.pin[p]
  if mayWrite who x then withPins (onPin p (cfgPin v)) s
  else if cfgPin v x ≠ x ∧ x.owner ≠ agentCode who then foreign who p s
  else s

/-- Pin `i` of a bank. -/
def bankPin (b : Fin 2) (i : Fin 24) : Fin 48 :=
  ⟨24 * b.val + i.val, by have := b.isLt; have := i.isLt; omega⟩

/-- One DATA bit is written with a value by an agent, or the write is foreign (R533, R534). -/
def writeBit (who : Agent) (p : Fin 48) (v : Bool) (s : State) : State :=
  if mayWrite who s.gpio.pin[p] then onPin p (fun x => { x with data := v }) s
  else if s.gpio.pin[p].owner = agentCode who then s
  else foreign who p s

/-- The pins of a bank whose bits are named take a write. -/
def writeBank (who : Agent) (b : Fin 2) (named : Fin 48 → Fin 24 → Bool) (v : Fin 48 → Fin 24 → Bool) (s : State) :
    State :=
  withPins (fun s => (List.finRange 24).foldl (fun t i =>
    let p := bankPin b i
    if named p i then writeBit who p (v p i) t else t) s) s

/-- DATAb: a bit that differs is written, or foreign (R534). -/
def writeData (who : Agent) (b : Fin 2) (v : Nat) (s : State) : State :=
  writeBank who b (fun p i => s.gpio.pin[p].data != v.testBit i.val) (fun _ i => v.testBit i.val) s

/-- SETb (R535). -/
def writeSet (who : Agent) (b : Fin 2) (v : Nat) (s : State) : State :=
  writeBank who b (fun _ i => v.testBit i.val) (fun _ _ => true) s

/-- CLRb (R535). -/
def writeClr (who : Agent) (b : Fin 2) (v : Nat) (s : State) : State :=
  writeBank who b (fun _ i => v.testBit i.val) (fun _ _ => false) s

/-- TGLb (R535). -/
def writeTgl (who : Agent) (b : Fin 2) (v : Nat) (s : State) : State :=
  writeBank who b (fun _ i => v.testBit i.val) (fun p _ => !s.gpio.pin[p].data) s

/-- GPIO_CFG_WRITE (R533, R534). -/
def execGpioCfgWrite (who : Agent) (p : Fin 48) (v : BitVec 32) (s : State) : Host.Outcome State Fault Refusal :=
  .next (writeCfg who p v.toNat s)

/-- GPIO_DATA_WRITE (R533, R534). -/
def execGpioDataWrite (who : Agent) (bank : Fin 2) (v : BitVec 24) (s : State) : Host.Outcome State Fault Refusal :=
  .next (writeData who bank v.toNat s)

/-- GPIO_SET (R535). -/
def execGpioSet (who : Agent) (bank : Fin 2) (v : BitVec 24) (s : State) : Host.Outcome State Fault Refusal :=
  .next (writeSet who bank v.toNat s)

/-- GPIO_CLR (R535). -/
def execGpioClr (who : Agent) (bank : Fin 2) (v : BitVec 24) (s : State) : Host.Outcome State Fault Refusal :=
  .next (writeClr who bank v.toNat s)

/-- GPIO_TGL (R535). -/
def execGpioTgl (who : Agent) (bank : Fin 2) (v : BitVec 24) (s : State) : Host.Outcome State Fault Refusal :=
  .next (writeTgl who bank v.toNat s)

/-- What SUP_ACT asks of a pin's DATA bit (R537). -/
def supActLevel (s : State) (x : Pin) : Bool :=
  match x.supAct with
  | 1 => inState [.run, .repair] s
  | 2 => s.spr.supBit || inState [.safe] s
  | 3 => decide (80 * 16 ≤ s.hkc.stack)
  | 4 => inState [.safe] s
  | _ => x.data

/-- SUP_ACT_UPDATE: the supervisor brings a pin of its own up to date (R537). -/
def execSupActUpdate (p : Fin 48) (s : State) : Host.Outcome State Fault Refusal :=
  let x := s.gpio.pin[p]
  if s.gpio.active ∧ x.owner = 1 ∧ x.mux = 0 ∧ x.oe ∧ s.sys.supResetting = false ∧ s.sys.supHalted = false then
    .next (withPins (onPin p fun x => { x with data := supActLevel s x }) s)
  else .next s

/-! ### Event ports -/

/-- The pins of a port's mask. -/
def portPins (s : State) (k : Fin 16) : List (Fin 48) :=
  (List.finRange 48).filter fun p => (s.img.nat Fld.evpPins [k.val]).testBit p.val

/-- Before the first SET, CLR or TGL action of an instant each pin's DATA bit is noted (R544). -/
def openInstant (key : Bool × Nat) (s : State) : State :=
  if s.gpio.tie = some key then s
  else
    let s := onPins (fun _ x => { x with tieBase := x.data, tieSet := false, tieClr := false, tieOdd := false }) s
    { s with gpio := { s.gpio with tie := some key } }

/-- DATA after the port actions of one instant: any SET, else any CLR, else one inversion per TGL port (R544). -/
def tieData (x : Pin) : Bool :=
  if x.tieSet then true else if x.tieClr then false else x.tieBase != x.tieOdd

/-- A SET (2), CLR (3) or TGL (4) action on a pin (Table 14.3, R544). -/
def portOnPin (mode : Nat) (x : Pin) : Pin :=
  let x := { x with
    tieSet := x.tieSet || mode == 2
    tieClr := x.tieClr || mode == 3
    tieOdd := if mode = 4 then !x.tieOdd else x.tieOdd }
  { x with data := tieData x }

/-- A port takes its action at an instant (Table 14.3, R543, R544, EVPk_COUNT). -/
def portActs (k : Fin 16) (key : Bool × Nat) (s : State) : State :=
  let mode := s.img.nat Fld.evpMode [k.val]
  let on := fun (f : Evp → Evp) (t : State) => { t with gpio := { t.gpio with evp := vmod t.gpio.evp k f } }
  if mode = 0 ∨ s.gpio.evpOn = false then s
  else
    let s := on (fun e => { e with count := satInc 32 e.count }) s
    if mode = 1 then
      let s := if s.gpio.evp[k].active then
          { s with gpio := { s.gpio with retrig := satInc 32 s.gpio.retrig } }
        else s
      withPins (on fun e => { e with active := true, startLine := s.lt.line }) s
    else
      withPins (fun s => (portPins s k).foldl (fun t p => onPin p (portOnPin mode) t) (openInstant key s)) s

/-- An event released to its port acts, or is held for its target line; a target already passed is the next trigger's
(R539, R540, R542). -/
def releaseToPort (k : Fin 16) (j : Nat) (s : State) : State :=
  let d := s.img.nat Fld.evpDelay [k.val]
  if s.img.nat Fld.evpMode [k.val] = 0 ∨ s.gpio.evpOn = false then s
  else if d = 0 then portActs k (false, j) s
  else if 64 ≤ s.gpio.evp[k].held.length then dropEvents 1 s
  else
    let n := lineAdd j (s.img.nat Fld.d [] + d : Nat)
    let n := if linePast s.lt.line n then lineAdd s.lt.line 1 else n
    { s with gpio := { s.gpio with evp := vmod s.gpio.evp k fun e => { e with held := e.held ++ [n] } } }

/-- EVP_DELAYED_ACT: at a trigger whose line counter has reached it, the oldest held event of a port acts (R540). -/
def execEvpDelayedAct (k : Fin 16) (s : State) : Host.Outcome State Fault Refusal :=
  match s.gpio.evp[k].held with
  | [] => .next s
  | n :: rest =>
    if live s ∧ s.lt.anyLine ∧ linePast s.lt.line n then
      .next (portActs k (true, s.lt.line) { s with gpio := { s.gpio with
        evp := vmod s.gpio.evp k fun e => { e with held := rest } } })
    else .next s

/-- PULSE_END: a contribution ends after its width in µs, or in lines or at STOPPED (R543). -/
def execPulseEnd (k : Fin 16) (s : State) : Host.Outcome State Fault Refusal :=
  let e := s.gpio.evp[k]
  let byLines := s.img.on Fld.evpWunit [k.val]
  let done := s.lt.stopped || linePast s.lt.line (lineAdd e.startLine (s.img.nat Fld.evpWidth [k.val]))
  if e.active ∧ (byLines = false ∨ done) then
    .next (withPins (fun s => { s with gpio := { s.gpio with
      evp := vmod s.gpio.evp k fun e => { e with active := false } } }) s)
  else .next s

/-- Held delayed events are dropped and counted (R542). -/
def dropHeld (s : State) : State :=
  let n := (s.gpio.evp.toList.map fun e => e.held.length).sum
  dropEvents n { s with gpio := { s.gpio with evp := s.gpio.evp.map fun e => { e with held := [] } } }

/-- Every PULSE contribution ends; those cut short are counted where `count` (R543, R559). -/
def endPulses (count : Bool) (s : State) : State :=
  let n := (s.gpio.evp.toList.filter (·.active)).length
  { s with gpio := { s.gpio with
    pulseCut := if count then satAdd 32 n s.gpio.pulseCut else s.gpio.pulseCut
    evp := s.gpio.evp.map fun e => { e with active := false } } }

/-! ### LINE_OUT -/

/-- The pulses of LINE_OUT and ENCZ_OUT rise at a trigger (Table 14.1). -/
def startLineOut (encz : Bool) (s : State) : State :=
  if s.gpio.active then
    withPins (onPins fun _ x =>
      { x with lineOut := x.lineOut || x.mux == 2 || (x.mux == 3 && encz) }) s
  else s

/-- LINE_OUT_PULSE_END: 100 ns after it rose, the pulse of a pin ends (Table 14.1). -/
def execLineOutPulseEnd (p : Fin 48) (s : State) : Host.Outcome State Fault Refusal :=
  .next (withPins (onPin p fun x => { x with lineOut := false }) s)

/-! ### Interrupts and event inputs -/

/-- A change of the accepted level is the condition of an interrupt kind: none, rise, fall, both, high, low
(R545). -/
def intCondition (kind : Nat) (level : Bool) : Bool :=
  match kind with
  | 1 => level
  | 2 => !level
  | 3 => true
  | 4 => level
  | 5 => !level
  | _ => false

/-- The level condition of a pin holds (R546, R548). -/
def levelHolds (x : Pin) : Bool :=
  (x.intKind == 4 && x.accepted) || (x.intKind == 5 && !x.accepted)

/-- PIN_INTERRUPT: a new level is present at a pad for `samples` samples; an accepted condition sets INT_STATUS, counts
is an event input and, on INJ_PIN, an injected request (R545 to R549). -/
def execPinInterrupt (p : Fin 48) (level : Bool) (samples : Nat) (s : State) : Host.Outcome State Fault Refusal :=
  let s := onPin p (fun x => { x with pad := level, forced := padOut s p == some (!level) }) s
  let x := s.gpio.pin[p]
  if s.gpio.active = false ∨ s.gpio.bank[bankOf p] = .absent ∨ s.sys.code = .sleep ∨ samples < x.intFilt
      ∨ x.accepted = level then .next s
  else
    let s := onPin p (fun x => { x with accepted := level }) s
    if intCondition x.intKind level then
      let s := onPin p (fun x => { x with
        intStatus := true, intAt := some s.now, evIn := x.evIn || decide (x.intKind ≤ 3) }) s
      let inj := decide (x.intKind ≤ 3) && s.img.nat Fld.injSrc [] == 2 && s.img.nat Fld.injPin [] == p.val
      let s := if inj && s.hkc.injOn then { s with hkc := { s.hkc with pinReq := true } } else s
      .next { s with gpio := { s.gpio with intCount := satInc 32 s.gpio.intCount } }
    else .next s

/-- The event inputs of a line at its trigger, bit p for pin p (R548). -/
def eventInputs (s : State) : BitVec 48 :=
  (List.finRange 48).foldl (fun v p =>
    let x := s.gpio.pin[p]
    if x.evIn || levelHolds x then v ||| (1#48 <<< p.val) else v) 0

/-- The edges of a line have been taken by its trigger (R548). -/
def clearEdges (s : State) : State :=
  onPins (fun _ x => { x with evIn := false }) s

/-- A write of 1 clears INT_STATUS bits; a level kind sets its bit again while the level holds (R546), and a condition of
the same cycle leaves it set (R23). -/
def clearInt (b : Fin 2) (v : Nat) (s : State) : State :=
  (List.finRange 24).foldl (fun t i =>
    if v.testBit i.val then
      onPin (bankPin b i) (fun x => { x with intStatus := levelHolds x || (x.intStatus && setNow x.intAt s) }) t
    else t) s

/-! ### The I2C controller -/

/-- A sensor is polled: the controller runs and its address is set (R552). -/
def i2cPolled (m : Fin 4) (s : State) : Bool :=
  s.gpio.active && s.img.nat Fld.i2cMode [] != 0 && s.img.nat Fld.i2cAddr [m.val] != 0 && s.sys.code != .sleep &&
    !s.sys.supResetting

/-- I2C_POLL: a sensor is read (R552, R553). -/
def execI2cPoll (m : Fin 4) (a : I2cAnswer) (s : State) : Host.Outcome State Fault Refusal :=
  if i2cPolled m s = false then .next s
  else
    match a with
    | .data v =>
      .next { s with gpio := { s.gpio with
        i2cOk := true, i2cStuck := false, boardTemp := s.gpio.boardTemp.set m (v.toInt / 16, true) } }
    | .nack =>
      .next { s with gpio := { s.gpio with
        i2cOk := false, i2cStuck := false, i2cNack := satInc 32 s.gpio.i2cNack
        boardTemp := vmod s.gpio.boardTemp m fun t => (t.1, false) } }
    | .stuck => .next { s with gpio := { s.gpio with i2cOk := false, i2cStuck := true } }

/-- I2C_STRETCH_TIMEOUT: a stretch beyond 1 ms ends the transfer (R553). -/
def execI2cStretchTimeout (m : Fin 4) (s : State) : Host.Outcome State Fault Refusal :=
  if i2cPolled m s then
    .next { s with gpio := { s.gpio with i2cOk := false, i2cTimeout := satInc 32 s.gpio.i2cTimeout } }
  else .next s

/-! ### Bank supplies and boundary scan -/

/-- BANK_SUPPLY_RANGE_DETECT: a bank supply of `mv` millivolts: a range is detected when the supply enters it and
stays until the supply falls below 1.0 V (R692, Table 19.2). -/
def execBankSupplyRangeDetect (b : Fin 2) (mv : Nat) (s : State) : Host.Outcome State Fault Refusal :=
  let set := fun (r : BankRange) => withPins (fun t => { t with gpio := { t.gpio with bank := t.gpio.bank.set b r } }) s
  if mv < 1000 then .next (set .absent)
  else if s.gpio.bank[b] ≠ .absent then .next s
  else if 1710 ≤ mv ∧ mv ≤ 1890 then .next (set .v18)
  else if 3135 ≤ mv ∧ mv ≤ 3465 then .next (set .v33)
  else .next s

/-- BOUNDARY_SCAN_INSTRUCTION while PGOOD_IN is high: `cells` are the levels the boundary register gives GP00 to GP47,
then STB0 to STB3 (R706). -/
def execBoundaryScanInstruction (drives : Bool) (cells : List Bool) (s : State) : Host.Outcome State Fault Refusal :=
  if s.sys.porActive then .next s
  else .next (withPins (fun t => { t with bscan := ⟨drives, if drives then cells else []⟩ }) s)

/-! ### COMMIT, resets, SAFE, SLEEP -/

/-- What a reset leaves of a pin: outside level and hold-through latch (R554, R555). -/
def pinAfterReset (x : Pin) : Pin :=
  { Pin.reset with
    pad := x.pad
    htValid := x.htValid
    htLevel := x.htLevel
    htOe := x.htOe
    htOd := x.htOd
    htPull := x.htPull
    htDrive := x.htDrive
    htSlew := x.htSlew
    htInv := x.htInv }

/-- The pull a pin without image settings takes: up for GP44 to GP47, down otherwise (R554). -/
def safePull (p : Fin 48) : Nat :=
  if 44 ≤ p.val then 2 else 1

/-- The hold-through latch of a pin with HT = 1 (R555): DATA and settings, no PULSE contribution. -/
def latchPin (x : Pin) : Pin :=
  if x.ht then
    { x with
      htValid := true
      htLevel := x.data
      htOe := x.oe
      htOd := x.od
      htPull := x.pull
      htDrive := x.drive
      htSlew := x.slew
      htInv := x.inv }
  else x

/-- A reset other than POR: latches taken, held events dropped, pins in the state of R554; counters stay until
COMMIT (R542, R554, R555, Table 18.6). -/
def gpioReset (s : State) : State :=
  withPins (fun s =>
    let s := dropHeld s
    let g := s.gpio
    { s with gpio := { Gpio.reset with
      pin := Vector.ofFn fun p => { pinAfterReset (latchPin g.pin[p]) with pull := safePull p }
      evp := g.evp.map fun e => { Evp.reset with count := e.count }
      foreignCount := g.foreignCount
      pulseCut := g.pulseCut
      retrig := g.retrig
      intCount := g.intCount
      i2cNack := g.i2cNack
      i2cTimeout := g.i2cTimeout
      bank := g.bank } }) s

/-- POR: only what lies outside the package stays (R554, Table 18.6). -/
def gpioPor (g : Gpio) : Gpio :=
  { Gpio.reset with
    pin := Vector.ofFn fun p => { Pin.reset with pad := g.pin[p].pad, pull := safePull p }
    bank := g.bank }

/-- The settings of a pin that the image gives (R556, R557). -/
def imagePin (s : State) (p : Fin 48) (x : Pin) : Pin :=
  let n := fun f => s.img.nat f [p.val]
  let b := fun f => s.img.on f [p.val]
  { x with
    mux := n Fld.mux
    owner := n Fld.owner
    oe := b Fld.oe
    od := b Fld.od
    pull := n Fld.pull
    drive := n Fld.drive
    slew := b Fld.slew
    inv := b Fld.inv
    ht := b Fld.ht
    wake := b Fld.wake
    intKind := n Fld.intKind
    intFilt := n Fld.intFilt
    supAct := n Fld.supAct
    data := if b Fld.ht && x.htValid then x.htLevel else b Fld.dataInit
    accepted := x.pad
    htValid := b Fld.ht && x.htValid }

/-- A pin at the COMMIT edge: the image's settings, and the status of a level that holds already (R546, R556, R557). -/
def commitPin (s : State) (p : Fin 48) (x : Pin) : Pin :=
  let y := imagePin s p x
  { y with intStatus := levelHolds y }

/-- The COMMIT edge: every setting, port and function starts; counters are zeroed (R556, R557, R561). -/
def gpioCommit (s : State) : State :=
  withPins (fun s =>
    { s with gpio := { Gpio.reset with
      pin := Vector.ofFn fun p => commitPin s p (pinAfterReset s.gpio.pin[p])
      active := true
      evpOn := true
      bank := s.gpio.bank } }) s

/-- Entry into SAFE after an accepted image: event ports silent, held events dropped, DATA of FAB-owned pins 0
(R542, Table 14.4). -/
def gpioSafe (s : State) : State :=
  withPins (fun s =>
    let s := endPulses false (dropHeld s)
    let s := onPins (fun _ x => if x.owner = 2 then { x with data := false } else x) s
    { s with gpio := { s.gpio with evpOn := false } }) s

/-- SLEEP entry: held events dropped, PULSE contributions ended and counted, PPS low, outputs frozen (R542, R559,
Edges of "Precision time"). -/
def gpioSleep (s : State) : State :=
  withPins (fun s =>
    let s := endPulses true (dropHeld s)
    let s := { s with ptp := { s.ptp with pps := false } }
    { s with gpio := { s.gpio with
      pin := Vector.ofFn fun p => { s.gpio.pin[p] with frozen := padOut s p, slept := padLevel s p } } }) s

/-- Leaving SLEEP: the pins resume with their settings (R559). -/
def gpioWake (s : State) : State :=
  onPins (fun _ x => { x with frozen := none }) s

end Sys2Proof.Machine
end

