-- ==== Sys2Proof/Machine/Egress.lean ====
section
/-! DEFINITION. The egress lanes: block lock, ARP and the usable lane, result datagrams, the replay ring and
retries, and what COMMIT, resets, SAFE, SLEEP and the re-init do to them (R398 to R422, R439, R589). -/

namespace Sys2Proof.Machine

/-! ### Lanes -/

/-- One lane changes. -/
def onLane (l : LaneId) (f : Lane → Lane) (s : State) : State :=
  { s with net := { s.net with lane := vmod s.net.lane (laneIx l) f } }

/-- A lane sends and receives: it is up and clocked, its PCS has block lock, its reconciliation sublayer reports no
fault and no EGRESS re-init runs (R66, R405, R439). -/
def laneHears (s : State) (l : LaneId) : Bool :=
  (egLane s l).up && (egLane s l).lock && !(egLane s l).rsFault && clocked s && !reinitBusy .egress s

/-- A lane is usable (R405). -/
def laneUsable (s : State) (l : LaneId) : Bool :=
  laneHears s l && (egLane s l).nextMac.isSome

/-- The lanes. -/
def lanes : List LaneId := [.a, .b]

/-- Network addresses agree in the lane's prefix. -/
def inSubnet (c : LaneCfg) (ip : BitVec 32) : Bool :=
  netOf ip c.pfx == netOf c.ip c.pfx

/-- The next hop of a lane (R404). -/
def nextHop (c : LaneCfg) : BitVec 32 :=
  if inSubnet c c.host then c.host else c.gateway

/-- The lane announces its address when it has become usable (R403); with SAFE addresses of its own it does so
when it starts (Table 15.8). -/
def announce (l : LaneId) (s : State) : State :=
  let x := egLane s l
  if x.announced = false ∧ (laneUsable s l ∨ (laneHears s l ∧ x.cfg.fromImage = false)) then
    emit (.frame l (arpFrame s l 1 0 x.cfg.ip)) (onLane l (fun x => { x with announced := true }) s)
  else s

/-- The next hop's MAC address is known (R404). -/
def learnMac (l : LaneId) (mac : BitVec 48) (s : State) : State :=
  announce l (onLane l (fun x => { x with nextMac := some mac }) s)

/-- An ARP request for the next hop leaves where it is resolved by ARP (R404). -/
def askNextHop (l : LaneId) (s : State) : State :=
  let c := (egLane s l).cfg
  if laneHears s l ∧ c.hopMac.isNone ∧ nextHop c ≠ 0 then emit (.frame l (arpFrame s l 1 0 (nextHop c))) s else s

/-- A lane that is up gains block lock, or the fault of its reconciliation sublayer ends (R404, R405). -/
def gainLock (l : LaneId) (s : State) : State :=
  let x := egLane s l
  if x.up = false ∨ (x.lock ∧ x.rsFault = false) ∨ clocked s = false ∨ reinitBusy .egress s then s
  else
    let s := onLane l (fun x => { x with lock := true, rsFault := false, announced := false }) s
    match x.cfg.hopMac with
    | some m => learnMac l m s
    | none => announce l (askNextHop l s)

/-- Datagrams that wait for a lane which is no longer usable are not sent on it (R411, SKIPPED); what it still
served is dropped (Edges of "Replay ring and retries"). -/
def dropLaneWork (l : LaneId) (s : State) : State :=
  onLane l (fun x => { x with skipped := satAdd 32 x.txq.length x.skipped, txq := [], serve := [] }) s

/-- The session lock ends when its holder's lane becomes unusable (R637). -/
def lockLane (l : LaneId) (s : State) : State :=
  if heldOn l s then releaseLock s else s

/-- A lane goes down: its next hop must be resolved again, what waits for it is dropped, and a session lock held over it
ends (R404, R405, R420, R637). -/
def laneDown (l : LaneId) (s : State) : State :=
  lockLane l (dropLaneWork l (onLane l (fun x => { x with nextMac := none, announced := false }) s))

/-- A lane loses block lock: class 0x40 for the lane (R405, Table 3.1). -/
def loseLock (l : LaneId) (s : State) : State :=
  if (egLane s l).lock = false then s
  else
    laneDown l (onLane l (fun x => { x with lock := false, rsFault := false, lockLoss := satInc 32 x.lockLoss })
      (report (faultCode 0x40 (laneIx l).val) s))

/-- The reconciliation sublayer of a lane with block lock reports a fault (R405, Table 11.1). -/
def faultLane (l : LaneId) (s : State) : State :=
  if (egLane s l).lock = false ∨ (egLane s l).rsFault then s
  else laneDown l (onLane l (fun x => { x with rsFault := true }) (report (faultCode 0x40 (laneIx l).val) s))

/-- An ARP packet is seen: the next hop's address updates its MAC, a claim on the own address is a conflict (R404,
R406). -/
def seeArp (l : LaneId) (mac : BitVec 48) (ip : BitVec 32) (s : State) : State :=
  let x := egLane s l
  let s := if ip = x.cfg.ip ∧ mac ≠ ownMac s l then
      onLane l (fun x => { x with arpConflict := satInc 32 x.arpConflict }) s
    else s
  if ip = nextHop x.cfg ∧ ip ≠ 0 then learnMac l mac s else s

/-- An ARP request from `mac` and `ip` for address `target`, answered when it is the lane's own (R403). -/
def arpRequest (l : LaneId) (mac : BitVec 48) (ip target : BitVec 32) (s : State) : State :=
  if laneHears s l = false then s
  else
    let s := seeArp l mac ip s
    if target = (egLane s l).cfg.ip then emit (.frame l (arpFrame s l 2 mac ip)) s else s

/-- ARP_RESOLVE_TIMER (R404). -/
def execArpResolveTimer (l : LaneId) (s : State) : Host.Outcome State Fault Refusal :=
  .next (askNextHop l s)

/-- RECEIVED_FRAME_DROP: a frame, from its destination address to its FCS, that fails a check is dropped and counted
(R400, R401, Table 11.1). -/
def execReceivedFrameDrop (l : LaneId) (frame : List Byte) (s : State) : Host.Outcome State Fault Refusal :=
  if laneHears s l ∧ frameOk s l frame = false then
    .next (onLane l (fun x => { x with rxDrop := satInc 32 x.rxDrop }) s)
  else .next s

/-! ### Datagrams -/

/-- Bytes 0 to 19 of a header with the CRC over them and the records (Table 11.2). -/
def headed (h recs : List Byte) : List Byte :=
  h ++ le 4 (crc32c (h ++ recs)).toNat ++ recs

/-- The UDP payload of a datagram, live (1) or retransmitted (2) (Table 11.2). -/
def datagramBytes (kind : Nat) (d : Datagram) : List Byte :=
  headed ([0x47, 0x5A, 0x01] ++ le 1 kind ++ le 6 d.seq ++ le 2 (d.source.toNat % 4096) ++ le 2 d.recs.length
    ++ le 1 d.state ++ [0] ++ le 4 d.stream.toNat) d.recs.flatten

/-- A NAK (Table 11.2). -/
def nakBytes (s : State) (seq count reason : Nat) : List Byte :=
  headed ([0x47, 0x5A, 0x01, 0x03] ++ le 6 seq ++ le 2 (ownId s % 4096) ++ le 2 count ++ le 1 (stateCode s.sys.code)
    ++ le 1 reason ++ le 4 s.net.stream.toNat) []

/-- The bytes of the datagrams a ring holds (R415). -/
def ringSize (r : List Datagram) : Nat :=
  (r.map fun d => 24 + 32 * d.recs.length).sum

/-- The oldest datagrams leave until 32 MiB hold the rest (R415). -/
def ringFit : List Datagram → List Datagram
  | [] => []
  | d :: r => if ringSize (d :: r) ≤ 33554432 then d :: r else ringFit r

/-- The datagrams the replay ring holds at this moment: none is held longer than 128 ms (R415). -/
def ringNow (s : State) : List Datagram :=
  s.net.ring.filter fun d => decide (s.now ≤ d.closed + ms 128)

/-- The open records become a live datagram: the next SEQ, into the ring, and onto the transmit queue of each lane
usable at this moment (R408, R410, R411, R415). -/
def closeDatagram (s : State) : State :=
  let d : Datagram :=
    { Datagram.reset with
      seq := s.net.seq
      recs := s.net.queue
      state := stateCode s.sys.code
      source := BitVec.ofNat 16 (ownId s)
      stream := s.net.stream
      closed := s.now }
  let put := fun (t : State) (l : LaneId) =>
    if laneUsable s l then onLane l (fun x => { x with txq := x.txq ++ [d.seq] }) t
    else onLane l (fun x => { x with skipped := satInc 32 x.skipped }) t
  let s := lanes.foldl put s
  progressed .egress { s with net := { s.net with
    seq := (d.seq + 1) % 2 ^ 48, queue := [], ring := ringFit (ringNow s ++ [d]) } }

/-- A record joins the open datagram, which closes with its 45th record (R408). -/
def queueRecord (r : List Byte) (s : State) : State :=
  let s := { s with net := { s.net with queue := s.net.queue ++ [r] } }
  if 45 ≤ s.net.queue.length then closeDatagram s else s

/-- A datagram closes before its 45th record, if one is open (R408). -/
def flush (s : State) : State :=
  if s.net.queue.isEmpty then s else closeDatagram s

/-- FLUSH_TIMEOUT (R408). -/
def execFlushTimeout (s : State) : Host.Outcome State Fault Refusal :=
  .next (if working s then flush s else s)

/-- KEEPALIVE: an empty datagram closes (R409). -/
def execKeepalive (s : State) : Host.Outcome State Fault Refusal :=
  .next (if working s && s.net.queue.isEmpty then closeDatagram s else s)

/-- The ring's datagram of a sequence number. -/
def ringFind (s : State) (seq : Nat) : Option Datagram :=
  (ringNow s).find? (·.seq = seq)

/-- DATAGRAM_TX: the oldest waiting live datagram of a lane leaves (R411, R412, R414). -/
def execDatagramTx (l : LaneId) (s : State) : Host.Outcome State Fault Refusal :=
  match (egLane s l).txq with
  | [] => .next s
  | n :: rest =>
    if laneUsable s l = false ∨ live s = false then .next s
    else
      let s := onLane l (fun x => { x with txq := rest }) s
      match ringFind s n with
      | none => .next s
      | some d =>
        .next (emit (.frame l (hostFrame s l (datagramBytes 1 d)))
          (onLane l (fun x => { x with txLive := satInc 32 x.txLive }) s))

/-- RING_AGE_OUT: the oldest datagram leaves the ring, at least 64 ms after its closing (R415). -/
def execRingAgeOut (s : State) : Host.Outcome State Fault Refusal :=
  match s.net.ring with
  | [] => .next s
  | d :: r => if s.now < d.closed + ms 64 then .next s else .next { s with net := { s.net with ring := r } }

/-! ### Retries -/

/-- Why a sequence number cannot be sent: 0 when it can, 2 beyond the last live datagram, else 1 (R419). -/
def nakReason (s : State) (seq : Nat) : Nat :=
  if (ringFind s seq).isSome then 0 else if linePast seq s.net.seq then 2 else 1

/-- A sequence number joins the answers of a request: a run of equal reasons is one NAK (R419). -/
def addServe (s : State) (l : List Serve) (seq : Nat) : List Serve :=
  let r := nakReason s seq
  match l with
  | x :: rest =>
    if r ≠ 0 ∧ x.nak = r then { x with count := x.count + 1 } :: rest
    else ⟨seq, r, 1, false⟩ :: x :: rest
  | [] => [⟨seq, r, 1, false⟩]

/-- What a request for `n` sequence numbers of a stream is answered with, in ascending order, the last thing marked
(R419). -/
def servesOf (s : State) (first n stream : Nat) : List Serve :=
  let l := if stream = s.net.stream.toNat then
      ((List.range n).foldl (fun l i => addServe s l ((first + i) % 2 ^ 48)) [])
    else [⟨first, 3, n, false⟩]
  match l with
  | [] => []
  | x :: rest => ({ x with last := true } :: rest).reverse

/-- COUNT of a retry request (Table 11.3). -/
def retryCount (p : List Byte) : Nat :=
  field p 10 2

/-- A retry request has the layout of Table 11.3 and comes from the lane's host (R417, R418). -/
def retryOk (c : LaneCfg) (srcIp : BitVec 32) (p : List Byte) : Bool :=
  srcIp == c.host && p.length == 24 && p.take 4 == [0x47, 0x5A, 0x01, 0x10] && decide (1 ≤ retryCount p) &&
    decide (retryCount p ≤ 1024) && field p 20 4 == (crc32c (p.take 20)).toNat

/-- RETRY_REQUEST on a lane: the payload of a UDP datagram to port 47100 (R417 to R420). -/
def execRetryRequest (l : LaneId) (srcIp : BitVec 32) (s : State) (payload : List Byte := []) :
    Host.Outcome State Fault Refusal :=
  let x := egLane s l
  if laneHears s l = false ∨ live s = false then .next s
  else if retryOk x.cfg srcIp payload = false then
    .next (onLane l (fun x => { x with retryBad := satInc 32 x.retryBad }) s)
  else if 16 ≤ (x.serve.filter (·.last)).length then
    .next (onLane l (fun x => { x with retryDropped := satInc 32 x.retryDropped }) s)
  else
    let new := servesOf s (field payload 4 6) (retryCount payload) (field payload 16 4)
    .next (onLane l (fun x => { x with retryOk := satInc 32 x.retryOk, serve := x.serve ++ new }) s)

/-- A NAK leaves on a lane (R419, Table 11.2). -/
def sendNak (l : LaneId) (seq count reason : Nat) (s : State) : State :=
  emit (.frame l (hostFrame s l (nakBytes s seq count reason))) (onLane l (fun x => { x with txNak := satInc 32 x.txNak }) s)

/-- RETRANSMIT: the oldest retransmission or NAK of a lane leaves while no live datagram waits; `ecc` is what the
ring's check finds (R412, R419, R420, Edges of "Replay ring and retries"). -/
def execRetransmit (l : LaneId) (ecc : Ecc) (s : State) : Host.Outcome State Fault Refusal :=
  match (egLane s l).serve with
  | [] => .next s
  | x :: rest =>
    if laneUsable s l = false ∨ live s = false ∨ (egLane s l).txq ≠ [] then .next s
    else
      let s := onLane l (fun x => { x with serve := rest }) s
      if x.nak ≠ 0 then .next (sendNak l x.seq x.count x.nak s)
      else
        match ringFind s x.seq with
        | none => .next (sendNak l x.seq 1 1 s)
        | some d =>
          if ecc = .uncorrectable then .next (sendNak l x.seq 1 1 (report 0x127C s))
          else
            let s := if ecc = .corrected then report 0x117C s else s
            .next (emit (.frame l (hostFrame s l (datagramBytes 2 d)))
              (onLane l (fun x => { x with txRetrans := satInc 32 x.txRetrans }) s))

/-! ### COMMIT, resets, SAFE, SLEEP and the re-init -/

/-- A MAC address of the image, octet 0 moved to [7:0]; 0 is none (R404, R612). -/
def imageMac (m : Nat) : Option (BitVec 48) :=
  if m = 0 then none else some (BitVec.ofNat 48 (ofBe (le 6 m)))

/-- The addresses a NET section gives a lane (R440). -/
def laneCfg (m : Image) (l : Nat) : LaneCfg where
  ip := BitVec.ofNat 32 (m.nat Fld.ipAddr [l])
  pfx := m.nat Fld.ipPrefix [l]
  gateway := BitVec.ofNat 32 (m.nat Fld.gateway [l])
  host := BitVec.ofNat 32 (m.nat Fld.hostIp [l])
  hostPort := m.nat Fld.hostPort []
  hopMac := imageMac (m.nat Fld.nextHopMac [l])
  vlan := if m.on Fld.vlanEn [l] then some (m.nat Fld.vlanId [l]) else none
  pcp := m.nat Fld.pcp [l]
  ttl := m.nat Fld.ttl []
  dscpRes := m.nat Fld.dscpRes []
  dscpMnt := m.nat Fld.dscpMnt []
  dscpPtp := m.nat Fld.dscpPtp []
  fromImage := true

/-- A new STREAM differs from the one before (R410). -/
def newStream (s : State) : BitVec 32 :=
  let r := BitVec.ofNat 32 (draw s (2 ^ 32))
  if r = s.net.lastStream then r + 1 else r

/-- The COMMIT edge: image addresses, lanes up, a new STREAM with SEQ 0, counters zeroed (R410, R442, R584). -/
def netCommit (s : State) : State :=
  let st := newStream s
  bump { s with net := { Net.reset with
    lane := Vector.ofFn fun l =>
      { Lane.reset with lock := s.net.lane[l].lock, rsFault := s.net.lane[l].rsFault, cfg := laneCfg s.img l.val, up := true }
    stream := st
    lastStream := st } }

/-- What a reset leaves of the lanes: the counters COMMIT zeroes, and the last STREAM (Table 18.6, R422). -/
def netReset (s : State) : State :=
  { s with net := { Net.reset with
    lastStream := s.net.lastStream
    lane := s.net.lane.map fun x => { Lane.reset with
      txLive := x.txLive
      txRetrans := x.txRetrans
      txNak := x.txNak
      retryOk := x.retryOk
      retryBad := x.retryBad
      retryDropped := x.retryDropped
      rxDrop := x.rxDrop
      arpConflict := x.arpConflict
      lockLoss := x.lockLoss
      skipped := x.skipped } } }

/-- The SAFE addresses of a lane after a refusal: sources 2 to 4 of R589. -/
def safeCfg (s : State) (l : Fin 2) : LaneCfg :=
  match s.boot.safeNet with
  | some items => laneCfg { Image.reset with items := items } l.val
  | none =>
    let r := s.otp.recov[l]
    if r.written then { LaneCfg.reset with ip := r.ip, pfx := r.pfx.toNat }
    else
      let b4 := (s.otp.mac[l].toNat / 2 ^ 32) % 256
      let b5 := (s.otp.mac[l].toNat / 2 ^ 40) % 256
      { LaneCfg.reset with ip := BitVec.ofNat 32 (ofBe [169, 254, BitVec.ofNat 8 (1 + b4 % 254), BitVec.ofNat 8 b5]), pfx := 16 }

/-- SAFE after a refusal: the lanes answer with SAFE addresses (R589). -/
def netSafe (s : State) : State :=
  { s with net := { s.net with lane := Vector.ofFn fun l =>
    { s.net.lane[l] with cfg := safeCfg s l, up := true } } }

/-- SLEEP: the lanes are off and the replay ring is emptied; SEQ and STREAM stay (R422, R657). -/
def netSleep (s : State) : State :=
  { s with net := { s.net with
    queue := []
    ring := []
    lane := s.net.lane.map fun x => { x with
      lock := false, rsFault := false, nextMac := none, announced := false, up := false, txq := [], serve := [] } } }

/-- A wake: the lanes start again (R660). -/
def netWake (s : State) : State :=
  { s with net := { s.net with lane := s.net.lane.map fun x => { x with up := true } } }

/-- What an EGRESS re-init resets of a lane (R439). -/
def laneReinit (x : Lane) : Lane :=
  { x with
    lock := false
    rsFault := false
    nextMac := none
    announced := false
    skipped := satAdd 32 x.txq.length x.skipped
    txq := []
    serve := [] }

end Sys2Proof.Machine
end

