-- ==== Sys2Proof/Machine/Ptp.lean ====
section
/-! DEFINITION. Precision time: the PTP exchange of each lane, the servo, the time counter and line-counter time,
and the PPS output (R423 to R438), with what resets, SLEEP and the EGRESS re-init do to them. -/

namespace Sys2Proof.Machine

/-- The PTP exchange of one lane changes. -/
def onPtp (l : LaneId) (f : PtpLane → PtpLane) (s : State) : State :=
  { s with ptp := { s.ptp with pl := vmod s.ptp.pl (laneIx l) f } }

/-- The PTP exchange of a lane. -/
def ptpLane (s : State) (l : LaneId) : PtpLane :=
  s.ptp.pl[laneIx l]

/-- The PTP exchange of a lane runs. -/
def ptpHears (s : State) (l : LaneId) : Bool :=
  laneHears s l && s.ptp.running

/-- The other lane. -/
def otherLane : LaneId → LaneId
  | .a => .b
  | .b => .a

/-- The lane the servo uses (PTP_LANE). -/
def servoLane (s : State) : LaneId :=
  if s.ptp.lane = 0 then .a else .b

/-! ### Timestamps -/

/-- Ticks in 0.8 ns, the quantum of a timestamp (R427). -/
def quantum : Int :=
  524288

/-- The timestamp of an event of this 5 ns period on a lane, to the quantum: `q` quanta from the period's start,
where the event falls in the period and the error of up to 4 ns together (R427, Table 11.4; log entry 31). -/
def stampNow (s : State) (q : Int) : Int :=
  (ptpTicks s / quantum + clampInt (-5) 11 q) * quantum

/-- A timestamp field in ticks (R428). -/
def stampTicks (t : PtpStamp) : Int :=
  (t.sec.toNat * 1000000000 + t.ns.toNat : Nat) * perNs

/-- A correctionField in ticks (R425). -/
def corrTicks (c : BitVec 64) : Int :=
  c.toInt * 10

/-- PTP_ASYM of a lane in ticks (R427). -/
def asymTicks (s : State) (l : LaneId) : Int :=
  s.img.int Fld.ptpAsym [(laneIx l).val] * perNs

/-- An interval of 2^log seconds in model time. -/
def logSec (log : Int) : Nat :=
  if 0 ≤ log then sec 1 * 2 ^ log.toNat else sec 1 / 2 ^ (-log).toNat

/-- The moments of a list that lie within the last second. -/
def lastSecond (s : State) (l : List Nat) : List Nat :=
  l.filter fun t => decide (s.now < t + sec 1)

/-- A message was sent to 224.0.1.129, an event message to port 319 and a general one to port 320, in the image's
domain, and the exchange of the lane runs (R424). -/
def ptpTakes (s : State) (l : LaneId) (event : Bool) (h : PtpHead) : Bool :=
  ptpHears s l && h.dst == ptpIp && h.port == (if event then 319 else 320) &&
    h.domain == BitVec.ofNat 8 (s.img.nat Fld.ptpDomain [])

/-! ### Time path and state -/

/-- A lane's time path is usable (R430). -/
def pathUsable (s : State) (l : LaneId) : Bool :=
  laneUsable s l && (ptpLane s l).master.isSome && !(ptpLane s l).pathFault

/-- PTP_STATE takes a value; a change sends an anchor at the next line (R391). -/
def setPtpState (n : Nat) (s : State) : State :=
  if s.ptp.state = n then s
  else { s with ptp := { s.ptp with state := n }, spr := { s.spr with anchorDue := true } }

/-- The servo takes its offset from a lane; a change is counted (R430). -/
def useLane (l : LaneId) (s : State) : State :=
  if servoLane s = l then s
  else { s with ptp := { s.ptp with
    lane := (laneIx l).val, failover := satInc 32 s.ptp.failover, goodRun := 0, mpd := (ptpLane s l).mpd } }

/-- Time counter and t_LC are brought to the present moment, from which new terms act. -/
def rebase (s : State) : State :=
  { s with ptp := { s.ptp with tBase := ptpTicks s, tlc := tlcTicks s, tAt := s.now } }

/-- Since when lane A's time path has been usable (R430). -/
def noteA (s : State) : State :=
  { s with ptp := { s.ptp with
    aSince := if pathUsable s .a then some (s.ptp.aSince.getD s.now) else none } }

/-- Failover from lane A to lane B, holdover, and its end (R430, R433), as the time paths stand. The servo leaves lane
A when A's time path, once usable, no longer is, and at the start when B's is usable first (log entry 31). -/
def watchPaths (s : State) : State :=
  let a := pathUsable s .a
  let b := pathUsable s .b
  let leave := s.ptp.lane = 0 ∧ a = false ∧ (b ∨ s.ptp.aSince.isSome)
  let s := noteA s
  let s := if leave then useLane .b s else s
  if s.ptp.state = 1 ∧ a = false ∧ b = false then
    let s := rebase s
    setPtpState 2 { s with ptp := { s.ptp with goodRun := 0, lockedAt := none, slew := 0 } }
  else if s.ptp.state = 2 ∧ (a || b) then setPtpState 0 s
  else s

/-! ### Masters -/

/-- Dataset comparison of IEEE 1588-2019: `a` is better than `b` (R426). -/
def better (a b : AnnData) : Bool :=
  if a.gm = b.gm then
    decide (a.steps < b.steps) || (a.steps == b.steps && decide (a.source.toNat < b.source.toNat))
  else
    let l := [(a.prio1, b.prio1), (a.clockClass, b.clockClass), (a.accuracy, b.accuracy), (a.variance, b.variance),
      (a.prio2, b.prio2), (a.gm.toNat, b.gm.toNat)]
    match l.find? fun p => p.1 != p.2 with
    | some p => decide (p.1 < p.2)
    | none => false

/-- The best of the announced masters. -/
def bestMaster : List AnnData → Option AnnData
  | [] => none
  | a :: r => some (r.foldl (fun x y => if better y x then y else x) a)

/-- A candidate has announced itself within PTP_ANN_TO of its announce intervals (R426). -/
def announced (s : State) (c : Candidate) : Bool :=
  decide (s.now ≤ c.since + s.img.nat Fld.ptpAnnTo [] * logSec c.ann.logInterval.toInt)

/-- The candidates of a lane change and its master is selected again; a change of master abandons the exchange with
the old one. -/
def setCandidates (l : LaneId) (c : List Candidate) (s : State) : State :=
  let c := c.filter (announced s)
  let m := bestMaster (c.map (·.ann))
  let old := (ptpLane s l).master.map (·.source)
  onPtp l (fun x => { x with
    candidates := c
    master := m
    twoStep := if m.map (·.source) = old then x.twoStep else none
    t3 := if m.map (·.source) = old then x.t3 else none }) s

/-- ANNOUNCE_RECEIVE (R424, R426, R433). -/
def execAnnounceReceive (l : LaneId) (a : AnnData) (s : State) (h : PtpHead := .general) :
    Host.Outcome State Fault Refusal :=
  if ptpTakes s l false h = false then .next s
  else
    let alone := (ptpLane s l).master.isNone
    let c := ((ptpLane s l).candidates.filter fun x => x.ann.source != a.source) ++ [⟨a, s.now⟩]
    let s := watchPaths (setCandidates l c s)
    .next (if alone ∧ s.ptp.state = 2 then setPtpState 0 s else s)

/-- ANNOUNCE_TIMEOUT: a lane's master is lost (R426, R430, R432, R433). -/
def execAnnounceTimeout (l : LaneId) (s : State) : Host.Outcome State Fault Refusal :=
  match (ptpLane s l).master with
  | none => .next s
  | some m =>
    let lost := l = servoLane s ∧ (ptpLane s (otherLane l)).master.isNone
    let s := setCandidates l ((ptpLane s l).candidates.filter fun x => x.ann.source != m.source) s
    .next (watchPaths (if lost then report 0x4100 s else s))

/-! ### The servo -/

/-- A step of the counter by the offset (R429). -/
def stepTime (off : Int) (s : State) : State :=
  let s := rebase s
  report 0x4103 { s with ptp := { s.ptp with
    tBase := (s.ptp.tBase - off) % timeSpan, steps := satInc 32 s.ptp.steps, goodRun := 0, lockedAt := none, slew := 0 } }

/-- The servo's terms after an offset: the frequency term within ± 200 ppm is a free value, the phase term slews
toward zero offset at a free rate within 500 ppm (R427, R428, Table 11.4). -/
def steer (off : Int) (s : State) : State :=
  let s := rebase s
  let f := clampInt (-13107200) 13107200 (Config.servoFreq s.freeCtr)
  let r : Int := (Config.value s.freeCtr % 32768001 : Nat)
  bump { s with ptp := { s.ptp with freq := f, slew := if 0 < off then -r else if off < 0 then r else 0 } }

/-- PTP_STATE after a Sync's offset (R433, R434). -/
def stateAfter (off : Int) (s : State) : State :=
  if off.natAbs ≤ 1000 * perNs.toNat then
    let n := Nat.min 16 (s.ptp.goodRun + 1)
    let s := { s with ptp := { s.ptp with goodRun := n } }
    if n < 16 ∨ s.ptp.state = 1 then s
    else
      let s := setPtpState 1 { s with ptp := { s.ptp with lockedAt := some s.now } }
      if s.ptp.tlc.isNone then
        let s := rebase s
        { s with ptp := { s.ptp with tlc := some s.ptp.tBase } }
      else s
  else
    let s := { s with ptp := { s.ptp with goodRun := 0, lockedAt := none } }
    if s.ptp.state = 1 then setPtpState 0 s else s

/-- The servo acts on an offset from master (R428, R429, R433). -/
def servo (off : Int) (s : State) : State :=
  let s := { s with ptp := { s.ptp with offset := off } }
  if s.img.nat Fld.ptpStep [] * perNs.toNat < off.natAbs then stateAfter off (stepTime off s)
  else stateAfter off (steer off s)

/-- A complete Sync: origin timestamp with its corrections and receive timestamp; on the servo's lane it feeds the
servo, PTP_ASYM being its delay asymmetry (R425, R427, R430). -/
def useSync (l : LaneId) (t1 t2 : Int) (s : State) : State :=
  let t1 := t1 + asymTicks s l
  let s := onPtp l (fun x => { x with t1 := t1, t2 := t2, twoStep := none }) s
  if servoLane s = l ∧ pathUsable s l then servo (timeDiff t2 t1 - (ptpLane s l).mpd) s else s

/-- SYNC_RECEIVE from the selected master: none within 7.8 ms of the last accepted one, and at most 128 in a second
(R424, R425). -/
def execSyncReceive (l : LaneId) (m : SyncData) (s : State) (h : PtpHead := .event) (quanta : Int := 0) :
    Host.Outcome State Fault Refusal :=
  let x := ptpLane s l
  let recent := lastSecond s x.syncs
  if ptpTakes s l true h = false ∨ x.master.map (·.source) ≠ some m.source then .next s
  else if 128 ≤ recent.length ∨ (recent.any fun t => decide (s.now < t + 1560000)) then .next s
  else
    let rx := stampNow s quanta
    let s := onPtp l (fun x => { x with syncs := s.now :: recent }) s
    if m.twoStep then .next (onPtp l (fun x => { x with twoStep := some ⟨m, rx, s.now⟩ }) s)
    else .next (useSync l (stampTicks m.origin + corrTicks m.corr) rx s)

/-- FOLLOW_UP_RECEIVE completes a two-step Sync of the last second (R425). -/
def execFollowUpReceive (l : LaneId) (source : BitVec 80) (seqId : BitVec 16) (origin : PtpStamp) (corr : BitVec 64)
    (s : State) (h : PtpHead := .general) : Host.Outcome State Fault Refusal :=
  match (ptpLane s l).twoStep with
  | none => .next s
  | some p =>
    if ptpTakes s l false h ∧ p.msg.source = source ∧ p.msg.seqId = seqId ∧ s.now ≤ p.since + sec 1 then
      .next (useSync l (stampTicks origin + corrTicks p.msg.corr + corrTicks corr) p.rx s)
    else .next s

/-- FOLLOW_UP_TIMEOUT (R425). -/
def execFollowUpTimeout (l : LaneId) (s : State) : Host.Outcome State Fault Refusal :=
  .next (onPtp l (fun x => { x with twoStep := none }) s)

/-- A Delay_Req of a lane may leave: its randomised interval is over, and fewer than 16 left in the last second
(R425). -/
def delayReqDue (s : State) (l : LaneId) : Bool :=
  decide ((ptpLane s l).reqDue ≤ s.now) && decide ((lastSecond s (ptpLane s l).reqs).length < 16)

/-- DELAY_REQ_TIMER: a Delay_Req leaves and is timestamped; the next follows after a drawn time of up to twice the
interval (R424, R425, log entry 31). -/
def execDelayReqTimer (l : LaneId) (quanta : Int) (s : State) : Host.Outcome State Fault Refusal :=
  let x := ptpLane s l
  if ptpHears s l ∧ x.master.isSome ∧ delayReqDue s l then
    let n := (x.reqId + 1) % 65536
    let gap := draw s (2 * logSec x.reqLog + 1)
    let tx := stampNow s quanta
    .next (bump (emit (.frame l (delayReqFrame s l n)) (onPtp l (fun x => { x with
      t3 := some tx, reqId := n, reqs := s.now :: lastSecond s x.reqs, reqDue := s.now + gap }) s)))
  else .next s

/-- DELAY_RESP_RECEIVE: the answer of the selected master to the Delay_Req outstanding gives the mean path delay of the
lane and the interval of the next ones (R423 to R425, R427). -/
def execDelayRespReceive (l : LaneId) (source : BitVec 80) (seqId : BitVec 16) (rx : PtpStamp) (corr : BitVec 64)
    (s : State) (h : PtpHead := .general) (logInterval : BitVec 8 := 0) (requesting : List Byte := []) :
    Host.Outcome State Fault Refusal :=
  let x := ptpLane s l
  match x.t3 with
  | none => .next s
  | some t3 =>
    if ptpTakes s l false h = false ∨ x.master.map (·.source) ≠ some source ∨ seqId.toNat ≠ x.reqId ∨
        requesting ≠ portIdentity s then .next s
    else
      let m := (timeDiff x.t2 x.t1 + timeDiff (stampTicks rx - corrTicks corr) t3) / 2
      let s := onPtp l (fun x => { x with mpd := m, t3 := none, reqLog := logInterval.toInt }) s
      .next (if servoLane s = l then { s with ptp := { s.ptp with mpd := m } } else s)

/-- TIME_PATH_MARKER: the transmit and receive timestamps of a lane's marker differ from the counter by `txErr` and
`rxErr` quanta of 0.8 ns, more than 2 ns from the third on (R427, R431). -/
def execTimePathMarker (l : LaneId) (txErr rxErr : Int) (s : State) : Host.Outcome State Fault Refusal :=
  let c := faultCode 0x41 ((laneIx l).val + 1)
  if (egLane s l).up = false ∨ s.ptp.running = false ∨ clocked s = false ∨ reinitBusy .egress s then .next s
  else if 3 ≤ txErr.natAbs ∨ 3 ≤ rxErr.natAbs then
    let n := Nat.min 2 ((ptpLane s l).markerBad + 1)
    let s := onPtp l (fun x => { x with markerBad := n }) s
    if n = 2 ∧ (ptpLane s l).pathFault = false then
      .next (watchPaths (onPtp l (fun x => { x with pathFault := true }) (stand c (report c s))))
    else .next s
  else .next (watchPaths (onPtp l (fun x => { x with markerBad := 0, pathFault := false }) (unstand c s)))

/-- Lane A's time path has been usable for 60 s without a break (R430). -/
def backDue (s : State) : Bool :=
  pathUsable s .a && (match s.ptp.aSince with | some t => decide (t + sec 60 ≤ s.now) | none => false)

/-- PTP_FAILBACK: the servo returns to lane A (R430). -/
def execPtpFailback (s : State) : Host.Outcome State Fault Refusal :=
  .next (if backDue s then useLane .a s else s)

/-- TLC_RESYNC: each second t_LC follows t_PTP while locked and within 5 µs (R434). -/
def execTlcResync (s : State) : Host.Outcome State Fault Refusal :=
  match tlcTicks s with
  | none => .next s
  | some t =>
    if s.ptp.state = 1 ∧ (timeDiff (ptpTicks s) t).natAbs ≤ 5000 * perNs.toNat then
      let s := rebase s
      .next { s with ptp := { s.ptp with tlc := some s.ptp.tBase } }
    else .next s

/-- TIME_SUSPECT at a line trigger (R435, R436). -/
def judgeTime (s : State) : State :=
  let held : Bool := match s.ptp.lockedAt with
    | none => false
    | some t => s.ptp.state == 1 && decide (t + sec (s.img.nat Fld.ptpReanchor []) ≤ s.now)
  if s.ptp.suspect && held then
    let s := rebase s
    { s with ptp := { s.ptp with suspect := false, tlc := some s.ptp.tBase } }
  else
    match tlcTicks s with
    | none => s
    | some t => if 50000 * perNs.toNat < (timeDiff (ptpTicks s) t).natAbs then { s with ptp := { s.ptp with suspect := true } } else s

/-! ### PPS -/

/-- PPS pulses are driven (R438). -/
def ppsOn (s : State) : Bool :=
  s.ptp.running && clocked s && s.sys.code != .sleep && (s.img.on Fld.ppsWhen [] || s.ptp.state == 1 || s.ptp.state == 2)

/-- PPS_SECOND: a whole second of the time counter (R438). -/
def execPpsSecond (s : State) : Host.Outcome State Fault Refusal :=
  .next (if ppsOn s then withPins (fun t => { t with ptp := { t.ptp with pps := true } }) s else s)

/-- PPS_WIDTH_END (R438). -/
def execPpsWidthEnd (s : State) : Host.Outcome State Fault Refusal :=
  .next (withPins (fun t => { t with ptp := { t.ptp with pps := false } }) s)

/-! ### Lane losses, COMMIT, resets, SLEEP, the re-init -/

/-- BLOCK_LOCK_GAIN, with what it means for the servo (R405, R430, R433). -/
def execBlockLockGain (l : LaneId) (s : State) : Host.Outcome State Fault Refusal :=
  .next (watchPaths (gainLock l s))

/-- BLOCK_LOCK_LOSS: a lane loses block lock, or its reconciliation sublayer reports a fault (`rs`), with what it means
for the servo (R405, R430, R433). -/
def execBlockLockLoss (l : LaneId) (s : State) (rs : Bool := false) : Host.Outcome State Fault Refusal :=
  .next (watchPaths (if rs then faultLane l s else loseLock l s))

/-- ARP_REQUEST_RECEIVE from `mac` and `ip` for address `target` (R403, R404). -/
def execArpRequestReceive (l : LaneId) (mac : BitVec 48) (ip target : BitVec 32) (s : State) :
    Host.Outcome State Fault Refusal :=
  .next (watchPaths (arpRequest l mac ip target s))

/-- ARP_PACKET_RECEIVE (R404, R406). -/
def execArpPacketReceive (l : LaneId) (mac : BitVec 48) (ip : BitVec 32) (s : State) :
    Host.Outcome State Fault Refusal :=
  .next (watchPaths (if laneHears s l then seeArp l mac ip s else s))

/-- The COMMIT edge: the counter runs from 0, the exchange is fresh (R428, R434, R442). -/
def ptpCommit (s : State) : State :=
  { s with ptp := { Ptp.reset with running := true, tAt := s.now } }

/-- What a reset leaves: the counters COMMIT zeroes (Table 18.6). -/
def ptpReset (s : State) : State :=
  { s with ptp := { Ptp.reset with tAt := s.now, steps := s.ptp.steps, failover := s.ptp.failover } }

/-- SLEEP: counter, t_LC and frequency term are lost (Table 18.6, Edges of "Precision time"). -/
def ptpSleep (s : State) : State :=
  { s with ptp := { Ptp.reset with tAt := s.now, steps := s.ptp.steps, failover := s.ptp.failover } }

/-- A wake: the counter runs from 0 (R428). -/
def ptpWake (s : State) : State :=
  { s with ptp := { s.ptp with running := true, tBase := 0, tAt := s.now } }

/-- An EGRESS re-init starts: lanes, ARP state and PTP exchange reset, PTP_STATE 1 becomes 2, the session lock is
released (R439, R637, Edges of "Egress re-initialisation"). -/
def reinitStartEgress (s : State) : State :=
  let s := rebase { s with net := { s.net with lane := s.net.lane.map laneReinit } }
  let s := { s with ptp := { s.ptp with
    pl := Vector.replicate 2 PtpLane.reset, goodRun := 0, lockedAt := none, slew := 0 } }
  let s := watchPaths s
  let s := unstand 0x4101 (unstand 0x4102 s)
  releaseLock (if s.ptp.state = 1 then setPtpState 2 s else s)

/-- It ends: the lanes return through block lock (R439). -/
def reinitEndEgress (s : State) : State :=
  s

end Sys2Proof.Machine
end

