-- ==== Sys2Proof/Machine/Links.lean ====
section
/-! DEFINITION. The Starling ports as every chapter uses them: sides, what a port can send, and what the last HELLO
said of a neighbour (R443, R455, R457, R479). -/

namespace Sys2Proof.Machine

/-- Index of a port: SW 0, SE 1 (R443). -/
def sideIx : Side → Fin 2
  | .west => 0
  | .east => 1

/-- The other port. -/
def otherSide : Side → Side
  | .west => .east
  | .east => .west

/-- The ports. -/
def sides : List Side := [.west, .east]

/-- A port. -/
def portAt (s : State) (d : Side) : Port :=
  s.star.port[sideIx d]

/-- One port changes. -/
def onPort (d : Side) (f : Port → Port) (s : State) : State :=
  { s with star := { s.star with port := vmod s.star.port (sideIx d) f } }

/-- A port is active: outside OFF and SLEEP, with SPLL locked (R66, R70, Table 12.6). -/
def portActive (s : State) (d : Side) : Bool :=
  !(portAt s d).passive && clocked s && !inState [.off, .sleep] s

/-- A port is active with its link up: it sends and takes frames (R447, R479). -/
def portLive (s : State) (d : Side) : Bool :=
  (portAt s d).up && portActive s d

/-- The header of a frame the device sends: PV 1, HOP 0 (R450, R453). -/
def ownHead (s : State) : FrameHead where
  crcOk := true
  eof := true
  pv := 1
  src := BitVec.ofNat 16 (ownId s)
  hop := 0

/-- TYPE, scope (0 hop, 1 ring) and payload of a data frame (Tables 12.2, 12.4). -/
def starBody : StarFrame → Nat × Nat × List Byte
  | .hello h => (2, 0, le 4 h.nonce.toNat ++ le 1 h.state.toNat ++ le 2 h.bar.toNat ++ le 1 h.pos.toNat
      ++ le 1 h.offset.toNat ++ be 8 h.hash.toNat ++ le 1 h.flags.toNat)
  | .echo seq ret => (3, 0, le 1 seq ++ le 1 (bit ret))
  | .seamFrag f => (4, 0, le 6 f.line.toNat ++ le 2 f.h.toNat ++ le 2 f.x0.toNat ++ le 2 f.x1.toNat ++ le 1 f.cls.toNat
      ++ le 2 f.score.toNat ++ le 2 f.flags.toNat ++ le 2 f.boxId.toNat ++ le 1 f.offset.toNat)
  | .seamResolve boxId partner => (5, 0, le 2 boxId.toNat ++ le 2 partner.toNat)
  | .member m => (6, 1, le 4 m.nonce.toNat ++ le 1 m.state.toNat ++ le 2 m.bar.toNat ++ le 1 m.pos.toNat
      ++ le 1 m.roles.toNat ++ be 8 m.hash.toNat ++ le 6 m.lastLine.toNat ++ le 2 m.wDelay.toNat ++ le 2 m.eDelay.toNat)
  | .claim nonce epoch => (7, 1, le 4 nonce.toNat ++ le 4 epoch.toNat)
  | .agree a => (8, 1, le 4 a.nonce.toNat ++ le 4 a.epoch.toNat ++ be 32 a.hash.toNat ++ le 2 a.ringN.toNat
      ++ le 2 a.dBar.toNat ++ le 1 a.dDir.toNat ++ le 2 a.dP.toNat)
  | .role epoch bar holder => (9, 1, le 4 epoch.toNat ++ le 2 bar.toNat ++ le 2 holder.toNat)
  | .event k port subject => (10, 1,
      [match k with | .brk => 1 | .heal => 2 | .lost => 3] ++ le 1 (sideIx port).val ++ le 2 subject.toNat)

/-- Bytes with the CRC of a Starling frame after them (R451, R452). -/
def withCrc (bs : List Byte) : List Byte :=
  bs ++ le 4 (crc32c bs).toNat

/-- The bytes of a data frame (R450, R451, Table 12.2). -/
def starBytes (hd : FrameHead) (f : StarFrame) : List Byte :=
  let (ty, scope, p) := starBody f
  withCrc (le 1 (ty + 16 * hd.pv.toNat) ++ le 1 p.length
    ++ le 2 (hd.src.toNat % 4096 + 4096 * scope + 32768 * bit (hd.src.getLsbD 15)) ++ le 2 hd.hop.toNat ++ p)

/-- A data frame on a port. -/
def starOut (d : Side) (hd : FrameHead) (f : StarFrame) : Out :=
  .star d .sod (starBytes hd f) hd.eof

/-- The bytes of a tick (R452, Table 12.3). -/
def tickBytes (t : TickFrame) : List Byte :=
  withCrc (le 1 (1 + 16 * t.pv.toNat)
    ++ le 2 (t.bar.toNat + 4096 * bit t.deferred + 8192 * bit t.encz + 16384 * bit t.handover)
    ++ le 2 t.hop.toNat ++ le 6 t.line.toNat ++ le 1 t.merge.toNat ++ le 3 (unsign 24 t.excess))

/-- A tick on a port (R450, R476). -/
def tickOn (d : Side) (t : TickFrame) : Out :=
  .star d (if t.detour then .sotd else .sot) (tickBytes t) t.eof

/-- A frame of the device leaves a port with HOP 0 (R453, R455). -/
def sendFrame (d : Side) (f : StarFrame) (s : State) : State :=
  if portLive s d then emit (starOut d (ownHead s) f) s else s

/-- A ring-scope frame leaves on both ports (R455). -/
def sendRing (f : StarFrame) (s : State) : State :=
  sides.foldl (fun t d => sendFrame d f t) s

/-- The first 8 bytes of a group image hash, byte 0 in the top bits (Table 12.4). -/
def hashHead (h : BitVec 256) : BitVec 64 :=
  h.extractLsb' 192 64

/-- A device ID field names no device (R457). -/
def idNone (f : BitVec 16) : Bool :=
  f.getLsbD 15

/-- The neighbour on a port, from a HELLO still current (R465, R466). -/
def neighAt (s : State) (d : Side) : Option Neigh :=
  if (portAt s d).up && !(portAt s d).lost then
    match (portAt s d).neigh with
    | some n => if idNone n.id then none else some n
    | none => none
  else none

/-- The neighbour on a port belongs to a bar. -/
def neighOfBar (s : State) (d : Side) (bar : Nat) : Bool :=
  match neighAt s d with
  | some n => n.bar == bar
  | none => false

/-- Own BAR. -/
def ownBar (s : State) : Nat :=
  s.img.nat Fld.bar []

/-- A neighbour of the same bar does not stand in BAR_POS order on its side (R444, Table 12.7). -/
def orderBad (s : State) (d : Side) : Bool :=
  match neighAt s d with
  | some n =>
    n.bar == ownBar s &&
      (match d with
      | .west => n.pos + 1 != s.img.nat Fld.barPos []
      | .east => n.pos != s.img.nat Fld.barPos [] + 1)
  | none => false

/-- STAR.STATUS.BAR_ORDER (R482). -/
def barOrder (s : State) : Bool :=
  sides.any (orderBad s)

end Sys2Proof.Machine
end

