-- ==== Sys2Proof/Machine/Sprue.lean ====
section
/-! DEFINITION. The Sprue: egress tokens, line summaries with the coverage ledger, labels, boxes, crops, time anchors
and the release of pin events (R62 to R64, R77, R104, R122 to R125, R359 to R384, R391, R396, R397). -/

namespace Sys2Proof.Machine

/-! ### Egress tokens -/

/-- The Sprue's record change. -/
def onSprue (f : Sprue → Sprue) (s : State) : State :=
  { s with spr := f s.spr }

/-- A relative column of the perch at logical column `c` as a device column (R367). -/
def deviceColumn (s : State) (c x : Nat) : Int :=
  clampInt 0 8191 (1024 * c + (1 + bit (s.img.on Fld.bin [])) * signed 12 x)

/-- What a LABEL or BOX token says (Table 10.3, R367); H 0 is read as 1, reversed columns are swapped. -/
def tokenRecord (s : State) (row col : Nat) (beat : Nat) (box : Bool) (t : Token) : TokRec :=
  let b := fun (lo n : Nat) => bits t.data.toNat lo n
  let a := signed 12 (b 0 12)
  let z := signed 12 (b 12 12)
  let (lo, hi) := if z < a then (b 12 12, b 0 12) else (b 0 12, b 12 12)
  { TokRec.reset with
    row := row
    col := col
    beat := beat
    box := box
    void := t.void
    cls := if box then b 36 8 else b 24 8
    score := if box then b 44 16 else b 32 16
    attr16 := if box then 0 else b 48 16
    x0 := deviceColumn s col lo
    x1 := deviceColumn s col hi
    h := if box then Nat.max 1 (b 24 12) else 1
    crop := box && t.data.getLsbD 60
    poison := t.poison }

/-- ATTR words attach to the perch's last LABEL or BOX of the beat, unless it is void or has its words already
(R369). `toks` is newest first; none when the token is discarded. -/
def attach (row col beat : Nat) (poison : Bool) (d : BitVec 64) : List TokRec → Option (List TokRec)
  | [] => none
  | t :: r =>
    if t.row = row ∧ t.col = col ∧ t.beat = beat then
      if t.void ∨ t.attr.isSome then none
      else some ({ t with attr := some (d.truncate 32, (d >>> 32).truncate 32), poison := t.poison || poison } :: r)
    else (attach row col beat poison d r).map (t :: ·)

/-- The last line a decision of beat `k` depends on (R76, R368). -/
def decisionLine (s : State) (k : Nat) : Nat :=
  lineAdd k (1 - (s.img.nat Fld.d [] : Int))

/-- A token acts by the kind of its TAG (R366, R326, R327, R369). -/
def actOn (row col beat : Nat) (t : Token) (s : State) : State :=
  let kind := s.img.nat Fld.tagKind [t.tag.toNat]
  let s := if t.void ∧ t.poison then markLine beat (fun l => { l with degRows := row :: l.degRows }) s else s
  match kind with
  | 1 => onSprue (fun x => { x with toks := x.toks ++ [tokenRecord s row col beat false t] }) s
  | 2 => onSprue (fun x => { x with toks := x.toks ++ [tokenRecord s row col beat true t] }) s
  | 3 =>
    if t.void then s
    else
      match attach row col beat t.poison t.data s.spr.toks.reverse with
      | some l => onSprue (fun x => { x with toks := l.reverse }) s
      | none => onSprue (fun x => { x with attrDiscard := satInc 32 x.attrDiscard }) s
  | 4 =>
    let k := bits t.data.toNat 0 4
    if t.void ∨ s.img.nat Fld.evpMode [k] = 0 then s
    else onSprue (fun x => { x with events := x.events ++ [⟨decisionLine s beat, k⟩] }) s
  | _ => s

/-- The receiver's handshake rule on an egress token: `some true` good on the repeat, `some false` failed twice (R238,
Edges of "Runners and row buses"). -/
def receiveEgress (p : Fin 72) (parity : Option Bool) (t : Token) (s : State) : Token × State :=
  match parity with
  | none => (t, s)
  | some true => (t, onCnt (fun c => { c with parityResend := satInc 32 c.parityResend }) s)
  | some false => ({ t with poison := true }, report (faultCode 0x20 p.val) s)

/-- The logical column whose token a row's egress bus takes next: the first with a token, round from the one after the
last it took (R242). -/
def egressTurn (s : State) (row : Fin 8) : Option (Fin 8) :=
  ((List.finRange 8).map fun i => s.spr.egrNext[row] + i).find? fun c =>
    !s.fab.perch[perchAt s row.val c.val].run.egr.isEmpty

/-- SPRUE_TOKEN: the oldest token of the egress FIFO at a logical row and column reaches the Sprue, when the row's bus is
at that column (R242, R366). -/
def execSprueToken (row col : Fin 8) (parity : Option Bool) (s : State) : Host.Outcome State Fault Refusal :=
  let p := perchAt s row.val col.val
  match s.fab.perch[p].run.egr with
  | [] => .next s
  | (beat, t) :: rest =>
    if working s = false ∨ rowUsed s p = false ∨ egressTurn s row ≠ some col then .next s
    else
      let s := onSprue (fun x => { x with egrNext := x.egrNext.set row (col + 1) }) (onRun p (fun x => { x with egr := rest }) s)
      let (t, s) := receiveEgress p parity t s
      .next (actOn row.val col.val beat t s)

/-! ### Flags -/

/-- Flags of the device's condition when a record is formed (Tables 0.5, 10.6). -/
def deviceFlags (s : State) : Nat :=
  16 * bit s.star.foreign + 32 * bit s.ptp.suspect + 64 * bit s.star.dupId + 128 * bit (s.img.on Fld.titheWaive [])

/-- Line flags of a line (Table 10.6). -/
def lineFlags (s : State) (l : LineRec) : BitVec 16 :=
  BitVec.ofNat 16 (bit l.ctx + 2 * bit l.speedLimit + 4 * bit l.repairing + 8 * bit (l.degraded || l.withheld)
    + deviceFlags s + 256 * bit l.uninsp + 512 * bit l.refUnsettled)

/-- The OR of the line flags of the lines from LINE - H + 1 to LINE (R373). -/
def spanFlags (s : State) (line h : Nat) : BitVec 16 :=
  s.spr.flagHist.foldl (fun f e =>
    if (line + 2 ^ 48 - e.line) % 2 ^ 48 < h then f ||| e.flags else f) 0

/-- The beat of a formed line lies in the CONTEXT_PARTIAL window. -/
def beatCtx (s : State) (beat : Nat) : Bool :=
  (s.spr.flagHist.find? fun e => e.line == beat).any fun e => e.flags.getLsbD 0

/-- Flags of a label, box or crop (Table 10.6): CONTEXT_PARTIAL of the issue beat, SPEED_LIMIT, REPAIRING, DEGRADED,
UNINSPECTED and REF_UNSETTLED of the lines spanned, DEGRADED of its own causes, and the device's condition. -/
def recordFlags (s : State) (l : LineRec) (beat line h : Nat) (row : Nat) (poison : Bool) : BitVec 16 :=
  (spanFlags s line h &&& 0x030E#16) |||
    BitVec.ofNat 16 (bit (beatCtx s beat) + 8 * bit (l.degraded || poison || l.degRows.contains row) + deviceFlags s)

/-- The flags of a crop's header and payload when they are formed: those of its lines, and the device's condition of that
moment (Table 10.6). -/
def cropFlags (s : State) (c : Crop) : BitVec 16 :=
  (c.flags &&& 0xFF0F#16) ||| BitVec.ofNat 16 (deviceFlags s)

/-- Segment bits of a line (R104, R124, R125, R644): every enabled field delivered, every active perch ran its beat. -/
def segments (s : State) (l : LineRec) : BitVec 128 :=
  if l.uninsp || l.withheld || l.noBeat || !l.ladleDone then 0
  else if l.delivered = fieldBits s.img.slots ∧ (usedPerches s.img s).all (fun p => l.ranOn.contains p.val) then l.segOk
  else 0

/-! ### Crops -/

/-- A crop is withheld in the beat of line `n` (R375 to R378, CROP_DROP). -/
def withholdCrop (n : Nat) (s : State) : State :=
  markLine n (fun l => { l with drops := satInc 8 l.drops, cropDrop := true })
    (onSprue (fun x => { x with cropsWithheld := satInc 32 x.cropsWithheld }) s)

/-- Fields of a mask, ascending. -/
def maskFields (m : Nat) : List (Fin 4) :=
  (List.finRange 4).filter fun k => m.testBit k.val

/-- Payload bytes of a crop of a class (R379). -/
def cropPayload (s : State) (c : Nat) : Nat :=
  s.img.nat Fld.cropW [c] * s.img.nat Fld.cropH [c] * (maskFields (s.img.nat Fld.cropFields [c])).length

/-- Payload records F (R379). -/
def cropRecords (bytes : Nat) : Nat :=
  (bytes + 23) / 24

/-- Cost of a crop (R375). -/
def cropCost (bytes : Nat) : Nat :=
  32 * (1 + cropRecords bytes)

/-- The lines of a crop, oldest first. -/
def cropLines (line h : Nat) : List Nat :=
  (List.range h).map fun i => lineAdd line ((i : Int) + 1 - h)

/-- The history slot of a line. -/
def histSlot (s : State) (n : Nat) : HistSlot :=
  s.pix.hist[(Fin.ofNat 256 n)]

/-- Every line of a crop stands in the history with no uncorrectable word (R378). -/
def histHolds (s : State) (line h : Nat) : Bool :=
  (cropLines line h).all fun n =>
    let x := histSlot s n
    x.valid && x.line == n && !x.bad

/-- A line of a crop was computed from poisoned data (R202). -/
def histPoison (s : State) (line h : Nat) : Bool :=
  (cropLines line h).any fun n => (histSlot s n).poison

/-- First column of a crop (R374). -/
def cropC0 (t : TokRec) (w : Nat) : Nat :=
  (clampInt 0 (8192 - w) ((t.x0 + t.x1) / 2 - (w / 2 : Nat))).toNat

/-- The payload bytes of a crop: fields ascending, lines from oldest, columns from C0 (R379). -/
def cropBytes (s : State) (c : Crop) : List Byte :=
  (maskFields c.fields.toNat).flatMap fun k => (cropLines c.line c.height).flatMap fun n =>
    let row := ((histSlot s n).px.getD k.val []).drop c.c0
    (List.range c.width).map fun i => BitVec.ofNat 8 (row.getD i 0)

/-- What stands before a crop's copy: the code of Table 10.4, 1 where its lines are read (R374 to R376). -/
def cropAsked (s : State) (t : TokRec) : Nat :=
  let bytes := cropPayload s t.cls
  if t.crop = false then 0
  else if s.img.on Fld.roiEn [] = false then 5
  else if s.spr.roiCredit < cropCost bytes then 2
  else if 65536 < s.spr.cropBeat + bytes ∨ 262144 < s.spr.cropUsed + bytes then 3
  else 1

/-- The SECDED of one history slot at a crop's read: a corrected word is reported, an uncorrectable one is too and the
slot's line is lost to crops (R202, R378, Table 3.1). -/
def readSlot (i : Fin 256) (e : Ecc) (s : State) : State :=
  match e with
  | .clean => s
  | .corrected => report 0x117F s
  | .uncorrectable =>
    report 0x127F { s with pix := { s.pix with hist := vmod s.pix.hist i fun x => { x with bad := true } } }

/-- The reads of a crop's lines with what they find, by slot (R202, R378). -/
def readHistory (hist : List (Fin 256 × Ecc)) (line h : Nat) (s : State) : State :=
  (hist.filter fun e => (cropLines line h).any fun n => Fin.ofNat 256 n == e.1).foldl (fun t e => readSlot e.1 e.2 t) s

/-- The crop a box asks for, copied from the history (R374, R376). -/
def cropOf (s : State) (t : TokRec) (line : Nat) (fl : BitVec 16) : Crop :=
  let h := s.img.nat Fld.cropH [t.cls]
  let w := s.img.nat Fld.cropW [t.cls]
  let c : Crop :=
    { Crop.reset with
      id := s.spr.cropId
      boxId := s.spr.boxId
      line := line
      cls := t.cls
      c0 := cropC0 t w
      width := w
      height := h
      fields := BitVec.ofNat 4 (s.img.nat Fld.cropFields [t.cls])
      flags := if histPoison s line h then fl ||| 8#16 else fl
      cost := cropCost (cropPayload s t.cls) }
  { c with bytes := cropBytes s c }

/-- What becomes of a box's crop request once its lines have been read: the code of Table 10.4, and the crop taken
(R374 to R378); `fl` are the flags over the crop's lines. -/
def requestCrop (s : State) (t : TokRec) (line : Nat) (fl : BitVec 16) : Nat × Option Crop :=
  let code := cropAsked s t
  if code ≠ 1 then (code, none)
  else if histHolds s line (s.img.nat Fld.cropH [t.cls]) = false then (4, none)
  else (1, some (cropOf s t line fl))

/-- A crop is taken: credit, store and identity (R375, R376). -/
def takeCrop (c : Crop) (s : State) : State :=
  onSprue (fun x => { x with
    roiCredit := x.roiCredit - c.cost
    cropUsed := x.cropUsed + c.bytes.length
    cropBeat := x.cropBeat + c.bytes.length
    cropId := (x.cropId + 1) % 65535
    crops := x.crops ++ [c] }) s

/-- ROI header (Table 10.7). -/
def roiHeader (s : State) (c : Crop) (bytes : List Byte) : List Byte :=
  let sh := (maskFields c.fields.toNat).foldl (fun a k =>
    a + s.img.nat Fld.histShift [k.val] % 8 * 8 ^ k.val) 0
  let f := cropRecords bytes.length
  let pad := bytes ++ List.replicate (24 * f - bytes.length) 0
  [0x04] ++ le 1 c.fields.toNat ++ le 2 (cropFlags s c).toNat ++ le 6 c.line ++ le 2 c.id ++ le 2 c.boxId ++ le 2 c.c0
    ++ le 2 c.width ++ le 2 c.height ++ le 2 f ++ le 2 sh ++ le 4 (crc32c pad).toNat ++ le 4 0

/-- ROI payload record `f` (Table 10.7). -/
def roiPayload (c : Crop) (flags : BitVec 16) (bytes : List Byte) (f : Nat) : List Byte :=
  let d := slice bytes (24 * f) 24
  [0x05] ++ le 1 c.line ++ le 2 flags.toNat ++ le 2 c.id ++ le 2 f ++ d ++ List.replicate (24 - d.length) 0

/-- Bytes read from the crop store where a word is uncorrectable: free values. -/
def openBytes (ctr n : Nat) : List Byte :=
  (List.range n).map fun i => BitVec.ofNat 8 (Config.value (ctr + i))

/-- What the SECDED of the crop store finds in a crop's bytes as they are read: the bytes, whether the payload records
carry DEGRADED, and the state after the report (Table 3.1, Edges of "ROI crops"). -/
def readStore (c : Crop) (e : Ecc) (s : State) : List Byte × Bool × State :=
  match e with
  | .clean => (c.bytes, false, s)
  | .corrected => (c.bytes, false, report 0x117D s)
  | .uncorrectable =>
    (openBytes s.freeCtr c.bytes.length, true, report 0x127D { s with freeCtr := s.freeCtr + c.bytes.length })

/-- CROP_COPY: the copy of the oldest crop in the crop store has ended: its header and payload records are queued and its
space is free; `store`: what the store's SECDED finds (R376 to R380, Edges of "ROI crops"). -/
def execCropCopy (store : Ecc) (s : State) : Host.Outcome State Fault Refusal :=
  match s.spr.crops with
  | [] => .next s
  | c :: rest =>
    if working s = false then .next s
    else
      let head := roiHeader s c c.bytes
      let s := onSprue (fun x => { x with
        crops := rest, cropUsed := x.cropUsed - c.bytes.length, cropsSent := satInc 32 x.cropsSent }) s
      let (out, bad, s) := readStore c store s
      let fl := if bad then cropFlags s c ||| 8#16 else cropFlags s c
      let recs := (List.range (cropRecords c.bytes.length)).map (roiPayload c fl out)
      .next (recs.foldl (fun t r => queueRecord r t) (queueRecord head s))

/-! ### Labels and boxes -/

/-- A record finds less than one record of credit and is dropped (R372). -/
def dropRecord (n : Nat) (s : State) : State :=
  markLine n (fun l => { l with drops := satInc 8 l.drops, recDrop := true })
    (onSprue (fun x => { x with recDrops := satInc 32 x.recDrops }) s)

/-- One record of credit is taken (R371). -/
def takeRecordCredit (s : State) : State :=
  onSprue (fun x => { x with recCredit := x.recCredit - 256 }) s

/-- The two words of an ATTR token, 0 without one (R369). -/
def attrWords (t : TokRec) : Nat × Nat :=
  match t.attr with
  | none => (0, 0)
  | some (a, b) => (a.toNat, b.toNat)

/-- A column as two bytes. -/
def col2 (x : Int) : List Byte :=
  le 2 (unsign 16 x)

/-- Label record (Table 10.4). -/
def labelBytes (t : TokRec) (line : Nat) (fl : BitVec 16) : List Byte :=
  let (a, b) := attrWords t
  [0x02] ++ le 1 t.cls ++ le 2 fl.toNat ++ le 6 line ++ col2 t.x0 ++ col2 t.x1 ++ le 2 t.score ++ le 2 t.attr16
    ++ [0, 0] ++ le 4 a ++ le 4 b ++ le 4 0

/-- The seam a box is a fragment on: 1 West, 2 East, 0 interior (R381). -/
def seamOf (s : State) (x0 x1 : Int) : Nat :=
  let w : Int := s.img.nat Fld.seamW []
  let west := decide (x0 < w)
  let east := decide (8192 - w ≤ x1)
  if west && east then 0 else if west then 1 else if east then 2 else 0

/-- Box record (Table 10.4). -/
def boxBytes (t : TokRec) (line : Nat) (fl : BitVec 16) (seam crop boxId cropId : Nat) : List Byte :=
  let (a, b) := attrWords t
  [0x03] ++ le 1 t.cls ++ le 2 fl.toNat ++ le 6 line ++ col2 t.x0 ++ col2 t.x1 ++ le 2 t.h ++ le 2 t.score
    ++ le 1 seam ++ le 1 crop ++ le 2 boxId ++ le 2 cropId ++ le 4 a ++ le 4 b

/-- The port of a seam: 1 West, 2 East. -/
def seamSide (seam : Nat) : Side :=
  if seam = 1 then .west else .east

/-- A fragment is held and its frame leaves toward the seam's neighbour (R384). -/
def sendFragment (t : TokRec) (line : Nat) (fl : BitVec 16) (seam boxId : Nat) (s : State) : State :=
  let off := s.img.nat Fld.barOffset []
  let f : Frag :=
    { Frag.reset with
      side := seam, line := line, h := t.h, x0 := t.x0, x1 := t.x1, cls := t.cls, score := t.score, flags := fl
      boxId := boxId, offset := off, dev := BitVec.ofNat 16 (ownId s) }
  sendFrame (seamSide seam)
    (.seamFrag ⟨BitVec.ofNat 48 line, BitVec.ofNat 16 t.h, BitVec.ofInt 16 t.x0, BitVec.ofInt 16 t.x1,
      BitVec.ofNat 8 t.cls, BitVec.ofNat 16 t.score, fl, BitVec.ofNat 16 boxId, BitVec.ofNat 8 off⟩)
    (onSprue (fun x => { x with own := x.own ++ [f] }) s)

/-- A label or box of the beat of line record `l` is queued, with its crop and its fragment, or dropped (R368 to
R376, R384); `hist` is what the history words that crops read give. -/
def formRecord (hist : List (Fin 256 × Ecc)) (l : LineRec) (t : TokRec) (s : State) : State :=
  let line := decisionLine s t.beat
  let l := (s.spr.lines.find? fun x => x.line = l.line).getD l
  let fl := recordFlags s l t.beat line t.h t.row t.poison
  if s.spr.recCredit < 256 then dropRecord l.line s
  else if t.box = false then queueRecord (labelBytes t line fl) (takeRecordCredit s)
  else
    let h := s.img.nat Fld.cropH [t.cls]
    let s := if cropAsked s t = 1 then readHistory hist line h s else s
    let (code, c) := requestCrop s t line (recordFlags s l t.beat line h t.row t.poison)
    let id := s.spr.boxId
    let cropId := match c with | some c => c.id | none => 0xFFFF
    let seam := seamOf s t.x0 t.x1
    let s := match c with
      | some c => takeCrop c s
      | none => if code = 2 ∨ code = 3 ∨ code = 4 then withholdCrop l.line s else s
    let s := onSprue (fun x => { x with boxId := (x.boxId + 1) % 65536 }) (takeRecordCredit s)
    let s := queueRecord (boxBytes t line fl seam code id cropId) s
    if seam = 0 then s else sendFragment t line fl seam id s

/-- The labels and boxes of a beat and of earlier beats that came late: by row, column and issue order (R370). -/
def beatRecords (s : State) (n : Nat) : List TokRec :=
  let l := s.spr.toks.filter fun t => linePast n t.beat
  (List.range 8).flatMap fun r => (List.range 8).flatMap fun c =>
    l.filter fun t => t.row = r && t.col = c && !t.void

/-! ### Line summaries -/

/-- Line summary record (Table 10.2). -/
def summaryBytes (l : LineRec) (fl code : BitVec 16) (seg : BitVec 128) (stop : Bool) : List Byte :=
  let info := bit l.encz + 2 * bit l.restart + 4 * bit stop + 8 * bit l.recDrop + 16 * bit l.cropDrop
    + 32 * bit l.affFrozen
  [0x01] ++ le 1 info ++ le 2 fl.toNat ++ le 6 l.line ++ le 2 code.toNat ++ le 1 l.merged ++ le 1 l.drops
    ++ le 1 l.delivered.toNat ++ [0] ++ le 16 seg.toNat

/-- Time anchor (Table 10.10). -/
def anchorBytes (s : State) (l : LineRec) : List Byte :=
  let t := l.time.toNat
  [0x06] ++ le 1 l.ptpState ++ le 2 (deviceFlags s) ++ le 6 l.line ++ le 6 (t / 1000000000)
    ++ le 4 (t % 1000000000) ++ le 2 l.hop ++ le 2 (s.img.nat Fld.bar []) ++ le 3 l.period
    ++ le 1 (s.img.nat Fld.barOffset []) ++ le 1 (s.img.nat Fld.barPos []) ++ le 1 (s.img.nat Fld.seamW [] / 64)
    ++ [0, 0]

/-- The line summary is queued: fault code, flags, segments; LEDGER follows, and the supervisor's status bit (R72,
R362 to R365, R397). -/
def queueLine (l : LineRec) (stop : Bool) (s : State) : State :=
  let seg := segments s l
  let l := { l with uninsp := l.uninsp || seg == 0, delivered := if l.noBeat && !l.ladleDone then 0 else l.delivered }
  let fl := lineFlags s l
  let code := s.flt.sumQueue.head?.getD 0
  let s := { s with flt := { s.flt with sumQueue := s.flt.sumQueue.drop 1 } }
  let s := queueRecord (summaryBytes l fl code seg stop) s
  let s := onSprue (fun x => { x with
    lastLine := l.line
    anySummary := true
    uninspLines := if l.uninsp then satInc 32 x.uninspLines else x.uninspLines
    supBit := l.uninsp || l.degraded || l.withheld }) s
  let s := if stop then flush s else s
  if l.anchor then queueRecord (anchorBytes s l) s else s

/-- No beat runs now: a repair gap or a FABRIC re-init. -/
def beatsStopped (s : State) : Bool :=
  s.sys.code == .repair || reinitBusy .fabric s

/-- A line whose beat cannot run carries UNINSPECTED, in a repair gap REPAIRING too (R117, R644). -/
def closeLine (s : State) (l : LineRec) : LineRec :=
  if beatsStopped s && !l.beatRan && !l.noBeat then
    { l with noBeat := true, uninsp := true, repairing := l.repairing || s.sys.code == .repair }
  else l

/-- The records of the oldest line are formed: labels and boxes, then its summary (R104, R362, R370). -/
def formLine (hist : List (Fin 256 × Ecc)) (l : LineRec) (stop : Bool) (s : State) : State :=
  let n := l.line
  let l := closeLine s l
  let l := if l.withheld then { l with uninsp := true, degraded := true } else l
  let s := markLine n (fun _ => l) s
  let u := decide (segments s l = 0)
  let s := onSprue (fun x => { x with
    cropBeat := 0
    flagHist := (⟨n, lineFlags s { l with uninsp := l.uninsp || u }⟩ :: x.flagHist).take (4096 + s.img.nat Fld.d []) }) s
  let s := if l.withheld then
      let gone := s.spr.events.filter fun e => e.line == decisionLine s n
      dropEvents gone.length (onSprue (fun x => { x with
        events := x.events.filter fun e => e.line != decisionLine s n
        toks := x.toks.filter fun t => t.beat != n }) s)
    else s
  let s := (beatRecords s n).foldl (fun t r => formRecord hist l r t) s
  let l := (s.spr.lines.find? fun x => x.line = n).getD l
  let s := queueLine l stop s
  progressed .fabric (onSprue (fun x => { x with
    lines := x.lines.filter fun y => y.line != n
    toks := x.toks.filter fun t => !linePast n t.beat }) s)

/-- The beat of the oldest line has ended: that of the next line has begun, or cannot run, or the strip has stopped
(R60, R147). -/
def beatEnded (s : State) (l : LineRec) (rest : List LineRec) : Bool :=
  l.noBeat || s.lt.stopped ||
    (match rest with
    | [] => false
    | m :: _ => (l.beatRan || beatsStopped s) && (m.beatRan || m.noBeat || (m.exposed && beatsStopped s)))

/-- Egress tokens of a beat, or of an earlier one, have not reached the Sprue yet. -/
def tokensDue (s : State) (n : Nat) : Bool :=
  (usedPerches s.img s).any fun p => s.fab.perch[p].run.egr.any fun t => linePast n t.1

/-- SPRUE_FORM_RECORDS: the beat of the oldest line has ended and its tokens are in (R62, R147, R363); `hist`: the history
slots in which the crops' reads find an error (R202, R378). -/
def execSprueFormRecords (s : State) (hist : List (Fin 256 × Ecc) := []) :
    Host.Outcome State Fault Refusal :=
  match s.spr.lines with
  | [] => .next s
  | l :: rest =>
    if working s ∧ l.exposed ∧ beatEnded s l rest ∧ tokensDue s l.line = false then
      .next (formLine hist l (s.lt.stopped && rest.isEmpty) s)
    else .next s

/-- SPRUE_HALVES_DISAGREE: the records of the beat in progress are withheld (R104). -/
def execSprueHalvesDisagree (s : State) : Host.Outcome State Fault Refusal :=
  if working s = false then .next s
  else
    let s := report 0x6002 s
    match s.spr.lines with
    | [] => .next s
    | l :: _ => .next (markLine l.line (fun x => { x with withheld := true }) s)

/-! ### Pin events -/

/-- The exposure E of a line has passed (R55). -/
def exposedPast (s : State) (m : Nat) : Bool :=
  s.lt.anyLine && linePast s.lt.line m && s.spr.lines.all fun l => l.exposed || !linePast m l.line

/-- The first of the queued events whose E(j + D) has passed, and the others. -/
def dueEvent (s : State) : List Evt → Option (Evt × List Evt)
  | [] => none
  | e :: r =>
    if exposedPast s (lineAdd e.line (s.img.nat Fld.d [] : Nat)) then some (e, r)
    else (dueEvent s r).map fun x => (x.1, e :: x.2)

/-- EVENT_RELEASE: at E(j + D) + 40 µs an event goes to its port; one not formed in time is dropped and counted (R77,
R122, R539). -/
def execEventRelease (inTime : Bool) (s : State) : Host.Outcome State Fault Refusal :=
  match dueEvent s s.spr.events with
  | none => .next s
  | some (e, rest) =>
    if working s = false then .next s
    else
      let s := onSprue (fun x => { x with events := rest }) s
      .next (if inTime then releaseToPort (Fin.ofNat 16 e.port) e.line s else dropEvents 1 s)

/-! ### COMMIT, resets, HOLD, SLEEP -/

/-- The events of the release queue are dropped and counted (Edges of "Depth and reaction"). -/
def dropQueued (s : State) : State :=
  dropEvents s.spr.events.length (onSprue (fun x => { x with events := [] }) s)

/-- The LEDGER registers outlive resets until COMMIT, and SLEEP (R397, Table 18.6). -/
def ledgerOf (x : Sprue) : Sprue :=
  { Sprue.reset with
    lastLine := x.lastLine
    lastLineHi := x.lastLineHi
    uninspLines := x.uninspLines
    recDrops := x.recDrops
    cropsSent := x.cropsSent
    cropsWithheld := x.cropsWithheld
    seamMerged := x.seamMerged
    seamUnmerged := x.seamUnmerged
    attrDiscard := x.attrDiscard }

/-- What a reset leaves of the Sprue. -/
def sprReset (s : State) : State :=
  onSprue ledgerOf (dropQueued s)

/-- The Sprue is off in SAFE. -/
def sprOff (s : State) : State :=
  sprReset s

/-- The COMMIT edge: full credits, counters zeroed, the first line sends an anchor (R371, R375, R391, R397). -/
def sprCommit (s : State) : State :=
  onSprue (fun _ => { Sprue.reset with
    recCredit := 256 * s.img.nat Fld.recBurst []
    roiCredit := s.img.nat Fld.roiBurst []
    anchorDue := true }) s

/-- RUN: the Sprue is released from reset with the fabric (R582). -/
def sprRun (s : State) : State :=
  s

/-- The records of every line left are formed, oldest first. -/
def formAll : Nat → State → State
  | 0, s => s
  | n + 1, s =>
    match s.spr.lines with
    | [] => s
    | l :: rest => formAll n (formLine [] l rest.isEmpty s)

/-- HOLD: the ledger entries not yet sent leave first (Edges of R123, of "Line summary and the ledger"). -/
def sprHold (s : State) : State :=
  formAll s.spr.lines.length s

/-- SLEEP: queued events are dropped, the Sprue's contents are lost, its counters and identities stay (R657). -/
def sprSleep (s : State) : State :=
  onSprue (fun x => { ledgerOf x with boxId := x.boxId, cropId := x.cropId, anySummary := x.anySummary }) (dropQueued s)

/-- A wake: credits as at COMMIT (R660). -/
def sprWake (s : State) : State :=
  onSprue (fun x => { x with
    recCredit := 256 * s.img.nat Fld.recBurst [], roiCredit := s.img.nat Fld.roiBurst [] }) s

end Sys2Proof.Machine
end

