-- ==== Sys2Proof/Machine/Seams.lean ====
section
/-! DEFINITION. Seam fragments: their exchange, pairing and resolution (R381 to R390). -/

namespace Sys2Proof.Machine

/-- The seam on a port: 1 West, 2 East (R381). -/
def seamIx : Side → Nat
  | .west => 1
  | .east => 2

/-- A hop-scope frame is taken: good, own protocol version, HOP 0 (R454, R455). -/
def hopTaken (hd : FrameHead) : Bool :=
  hd.crcOk && hd.eof && hd.pv == 1 && hd.hop == 0

/-- A received fragment (R384). -/
def fragOf (side : Side) (hd : FrameHead) (f : FragPay) : Frag :=
  { Frag.reset with
    side := seamIx side
    line := f.line.toNat
    h := f.h.toNat
    x0 := f.x0.toInt
    x1 := f.x1.toInt
    cls := f.cls.toNat
    score := f.score.toNat
    flags := f.flags
    boxId := f.boxId.toNat
    offset := f.offset.toNat
    dev := hd.src }

/-- One of a list of fragments. -/
def isFrag (seam boxId : Nat) (f : Frag) : Bool :=
  f.side == seam && f.boxId == boxId

/-- SEAM_FRAG_RECEIVE: a fragment of the neighbour on a port is held (R384, R385). -/
def execSeamFragReceive (side : Side) (hd : FrameHead) (f : FragPay) (s : State) : Host.Outcome State Fault Refusal :=
  if working s && portLive s side && hopTaken hd then
    let x := fragOf side hd f
    .next (onSprue (fun y => { y with
      theirs := y.theirs.filter (fun t => !isFrag x.side x.boxId t) ++ [x] }) s)
  else .next s

/-- SEAM_RESOLVE_RECEIVE: the partner names the fragment it has paired, or none (R386). -/
def execSeamResolveReceive (side : Side) (hd : FrameHead) (boxId partner : BitVec 16) (s : State) :
    Host.Outcome State Fault Refusal :=
  if working s && portLive s side && hopTaken hd then
    let p := if partner = 0xFFFF then none else some partner.toNat
    .next (onSprue (fun y => { y with
      theirs := y.theirs.map fun t => if isFrag (seamIx side) boxId.toNat t then { t with partner := some p } else t }) s)
  else .next s

/-! ### Pairing -/

/-- East columns lie this much further in the West frame (R382). -/
def eastShift (s : State) : Int :=
  8192 - s.img.nat Fld.seamW []

/-- The extent of a fragment in the West frame of its seam; `own` tells whose it is (R382). -/
def inWestFrame (s : State) (own : Bool) (f : Frag) : Int × Int :=
  let east := (f.side == 1) == own
  if east then (f.x0 + eastShift s, f.x1 + eastShift s) else (f.x0, f.x1)

/-- Strip lines from the last one of `f` to the last one of `g`, across the wrap (R385, R393). -/
def lastGap (f g : Frag) : Int :=
  signed 48 (((g.line : Int) - g.offset - (f.line - f.offset)).emod (2 ^ 48 : Nat)).toNat

/-- Strip lines a fragment covers: H, at least one (R385). -/
def fragH (f : Frag) : Int :=
  Nat.max 1 f.h

/-- Two fragments, one from each side of a seam, are candidates: nearest strip lines and nearest columns at most
SEAM_LGAP and SEAM_CGAP apart (R385). -/
def candidates (s : State) (own their : Frag) : Bool :=
  let d := lastGap own their
  let g : Int := s.img.nat Fld.seamLgap []
  let c : Int := s.img.nat Fld.seamCgap []
  let (a0, a1) := inWestFrame s true own
  let (b0, b1) := inWestFrame s false their
  decide (d - fragH their + 1 ≤ g) && decide (1 - fragH own - d ≤ g) && decide (b0 - a1 ≤ c) && decide (a0 - b1 ≤ c)

/-- The neighbour of a seam. -/
def seamNeigh (s : State) (seam : Nat) : Option Neigh :=
  neighAt s (seamSide seam)

/-- Why no fragment of a seam can be paired, 0 when they can (R385, Tables 10.9, 10.11, 12.7). -/
def seamBar (s : State) (seam : Nat) : Nat :=
  if s.img.on Fld.seamEn [] = false ∨ (portAt s (seamSide seam)).up = false ∨ s.star.dupId then 4
  else
    match seamNeigh s seam with
    | none => 5
    | some n =>
      if n.bar ≠ ownBar s ∨ orderBad s (seamSide seam) ∨ n.flags.testBit 0 then 4
      else if n.hash ≠ hashHead s.img.groupHash ∨ (n.state ≠ stateCode .run ∧ n.state ≠ stateCode .repair) then 5
      else 0

/-- OFFSET of the seam neighbour, by its last HELLO; without one the own (R386). -/
def neighOffset (s : State) (seam : Nat) : Nat :=
  match (portAt s (seamSide seam)).neigh with
  | some n => n.offset
  | none => s.img.nat Fld.barOffset []

/-- The key candidate pairs are taken by: difference of the last strip lines, West BOX_ID, East BOX_ID (R386). -/
def pairKey (own their : Frag) : Nat × Nat × Nat :=
  let d := (lastGap own their).natAbs
  if own.side = 2 then (d, own.boxId, their.boxId) else (d, their.boxId, own.boxId)

/-- One key comes before another. -/
def keyBefore (a b : Nat × Nat × Nat) : Bool :=
  decide (a.1 < b.1) || (a.1 == b.1 && (decide (a.2.1 < b.2.1) || (a.2.1 == b.2.1 && decide (a.2.2 < b.2.2))))

/-- The candidate pairs of a seam whose fragments are free: OFFSET in the frame is that of the last HELLO. -/
def freePairs (s : State) (seam : Nat) : List (Frag × Frag) :=
  let own := s.spr.own.filter fun f => f.side = seam && f.pair.isNone && !f.resolved
  let their := s.spr.theirs.filter fun f => f.side = seam && f.pair.isNone && f.offset = neighOffset s seam
  own.flatMap fun o => (their.filter (candidates s o)).map fun t => (o, t)

/-- The pair to take first. -/
def firstPair : List (Frag × Frag) → Option (Frag × Frag)
  | [] => none
  | p :: r =>
    match firstPair r with
    | none => some p
    | some q => if keyBefore (pairKey q.1 q.2) (pairKey p.1 p.2) then some q else some p

/-- Two fragments are paired. -/
def pairUp (seam : Nat) (o t : Frag) (s : State) : State :=
  onSprue (fun y => { y with
    own := y.own.map fun f => if isFrag seam o.boxId f then { f with pair := some t.boxId } else f
    theirs := y.theirs.map fun f => if isFrag seam t.boxId f then { f with pair := some o.boxId } else f }) s

/-- Every pair of a seam is taken, in order; at most as many as it has own fragments (R386). -/
def pairAll (seam : Nat) : Nat → State → State
  | 0, s => s
  | n + 1, s =>
    match firstPair (freePairs s seam) with
    | none => s
    | some (o, t) => pairAll seam n (pairUp seam o t s)

/-- A candidate was held whose OFFSET is no longer the neighbour's (Table 10.9, reason 3). -/
def staleCandidate (s : State) (o : Frag) : Bool :=
  s.spr.theirs.any fun t => t.side == o.side && t.pair.isNone && t.offset != neighOffset s o.side && candidates s o t

/-- The line whose exposure decides a fragment's release: LINE + Δ + D (R386). -/
def releaseLine (s : State) (f : Frag) : Nat :=
  lineAdd f.line ((neighOffset s f.side - s.img.nat Fld.barOffset [] : Nat) + (s.img.nat Fld.d [] : Int))

/-- SEAM_RESOLVE_POINT of an own fragment: the pairs of its seam are taken, and a resolve frame names its partner
or none (R386). -/
def execSeamResolvePoint (boxId : BitVec 16) (s : State) : Host.Outcome State Fault Refusal :=
  match s.spr.own.find? fun f => f.boxId == boxId.toNat && !f.resolved with
  | none => .next s
  | some f =>
    if working s = false ∨ exposedPast s (releaseLine s f) = false then .next s
    else
      let bar := seamBar s f.side
      let s := if bar = 0 then pairAll f.side s.spr.own.length s else s
      let f := (s.spr.own.find? fun g => g.boxId == boxId.toNat).getD f
      let why := if f.pair.isSome then 0 else if bar ≠ 0 then bar else if staleCandidate s f then 3 else 1
      let s := onSprue (fun y => { y with
        own := y.own.map fun g => if g.boxId == boxId.toNat then { g with resolved := true, why := why } else g }) s
      .next (sendFrame (seamSide f.side) (.seamResolve boxId (BitVec.ofNat 16 (f.pair.getD 0xFFFF))) s)

/-! ### Resolution -/

/-- What a resolution says of its box. -/
structure SeamBox where
  /-- OUTCOME 1 OWNED_MERGED, 2 YIELDED, 3 UNMERGED -/
  outcome : Nat
  /-- reason of Table 10.9 -/
  reason : Nat
  /-- LINE in the own counter -/
  line : Nat
  /-- X0 in the own columns -/
  x0 : Int
  /-- X1 in the own columns -/
  x1 : Int
  /-- H -/
  h : Nat
  /-- SCORE -/
  score : Nat
  /-- CLASS -/
  cls : Nat
  deriving DecidableEq, Repr

/-- The own fragment as it stands, with an outcome. -/
def ownBox (f : Frag) (outcome reason : Nat) : SeamBox :=
  ⟨outcome, reason, f.line, f.x0, f.x1, f.h, f.score, f.cls⟩

/-- The union of a pair in the West frame and in strip lines, LINE in the own counter (R387), if the midline gives
it to this device (R383). -/
def mergedBox (s : State) (o t : Frag) : Option SeamBox :=
  let (a0, a1) := inWestFrame s true o
  let (b0, b1) := inWestFrame s false t
  let x0 := min a0 b0
  let x1 := max a1 b1
  let m : Int := 8192 - s.img.nat Fld.seamW [] / 2
  let west := decide (x0 + x1 ≤ 2 * m - 1)
  if west != (o.side == 2) then none
  else
    let d := lastGap o t
    let last := max 0 d
    let first := min (1 - fragH o) (d - fragH t + 1)
    let back := if o.side = 1 then eastShift s else 0
    let (w, e) := if o.side = 2 then (o, t) else (t, o)
    let top := if e.score ≤ w.score then w else e
    some ⟨1, 0, lineAdd o.line last, x0 - back, x1 - back, (last - first + 1).toNat, top.score, top.cls⟩

/-- The outcome of Table 10.8, with the paired fragment. -/
def seamOutcome (s : State) (o : Frag) : SeamBox × Option Frag :=
  match o.pair with
  | none => (ownBox o 3 o.why, none)
  | some b =>
    match s.spr.theirs.find? (isFrag o.side b) with
    | none => (ownBox o 3 2, none)
    | some t =>
      match mergedBox s o t with
      | some m => (m, some t)
      | none => if t.partner = some (some o.boxId) then (ownBox o 2 0, some t) else (ownBox o 3 2, some t)

/-- Seam resolution (Table 10.9); flags under Table 10.6. -/
def resolutionBytes (s : State) (o : Frag) (b : SeamBox) (t : Option Frag) : List Byte :=
  let fl := ((o.flags ||| (match t with | some t => t.flags | none => 0)) &&& 0x030F#16)
    ||| BitVec.ofNat 16 (deviceFlags s)
  [0x07] ++ le 1 (b.outcome + 16 * b.reason) ++ le 2 fl.toNat ++ le 6 b.line ++ col2 b.x0 ++ col2 b.x1 ++ le 2 b.h
    ++ le 2 b.score ++ le 1 b.cls ++ le 1 o.side ++ le 2 o.boxId
    ++ (match t with
      | some t => le 2 t.boxId ++ le 2 t.dev.toNat
      | none => le 2 0xFFFF ++ le 2 0x8FFF)
    ++ List.replicate 6 0

/-- A resolution is counted (Table 10.12). -/
def countResolution (outcome : Nat) (s : State) : State :=
  onSprue (fun y =>
    if outcome = 3 then { y with seamUnmerged := satInc 32 y.seamUnmerged }
    else { y with seamMerged := satInc 32 y.seamMerged }) s

/-- SEAM_RELEASE: at a fragment's seam release time its resolution is formed, or dropped for want of credit (R372,
R388). -/
def execSeamRelease (boxId : BitVec 16) (s : State) : Host.Outcome State Fault Refusal :=
  match s.spr.own.find? fun f => f.boxId == boxId.toNat && f.resolved with
  | none => .next s
  | some o =>
    if working s = false then .next s
    else
      let (b, t) := seamOutcome s o
      let r := resolutionBytes s o b t
      let s := onSprue (fun y => { y with
        own := y.own.filter fun f => f.boxId != o.boxId
        theirs := y.theirs.filter fun f => !(f.side == o.side && o.pair == some f.boxId) }) s
      let s := countResolution b.outcome s
      if s.spr.recCredit < 256 then
        .next (match s.spr.lines with
          | l :: _ => dropRecord l.line s
          | [] => onSprue (fun x => { x with recDrops := satInc 32 x.recDrops }) s)
      else .next (queueRecord r (takeRecordCredit s))

end Sys2Proof.Machine
end

