-- ==== Sys2Proof/Machine/Starling.lean ====
section
/-! DEFINITION. Starling: the links, the frames a port takes, forwards and sends, identity, the election of the group
master, the encoder master roles, ticks, breaks and the detour (R443 to R483). -/

namespace Sys2Proof.Machine

/-- The Starling block changes. -/
def onStar (f : Star → Star) (s : State) : State :=
  { s with star := f s.star }

/-! ### Conditions -/

/-- The device carries an identity and may hold roles: COMMIT, RUN, HOLD, REPAIR (Table 12.6). -/
def mayHold (s : State) : Bool :=
  inState [.commit, .run, .hold, .repair] s

/-- The device takes part in the ring with its identity: SAFE after an accepted image too (Table 12.6). -/
def hasIdentity (s : State) : Bool :=
  mayHold s || (s.sys.code == .safe && s.sys.safeKind == .accepted)

/-- SRC names this device (R455, R458). -/
def isOwn (s : State) (src : BitVec 16) : Bool :=
  hasIdentity s && src == BitVec.ofNat 16 (ownId s)

/-- A frame is good (R454). -/
def frameGood (hd : FrameHead) : Bool :=
  hd.crcOk && hd.eof

/-- The AGREE the device follows: the lowest SRC (R461). -/
def followed (s : State) : Option Agree :=
  s.star.heard.head?

/-- The port the followed AGREE's detour of a bar travels out of: 1 West, 2 East (R475). -/
def detourSide (s : State) (bar : Nat) : Option Side :=
  match followed s with
  | none => none
  | some a =>
    if a.dBar ≠ bar then none
    else
      match a.dDir with
      | 1 => some .west
      | 2 => some .east
      | _ => none

/-- The hop index changes: the next line sends a time anchor (R391, R468). -/
def setHop (h : Nat) (s : State) : State :=
  if s.star.hop = h then s
  else { s with star := { s.star with hop := h }, spr := { s.spr with anchorDue := true } }

/-! ### Relaying -/

/-- A frame leaves the other port with HOP + 1, closed by EOFB when it came bad (R454, R480). -/
def relay (d : Side) (hd : FrameHead) (f : StarFrame) (s : State) : State :=
  if (portAt s (otherSide d)).up = false then s
  else emit (starOut (otherSide d) { hd with crcOk := true, eof := frameGood hd, hop := hd.hop + 1 } f) s

/-- A bad CRC on an active port is counted; more than 16 within 1 s are reported (R449). -/
def countCrc (d : Side) (crcOk : Bool) (s : State) : State :=
  if crcOk ∨ portActive s d = false then s
  else
    let ts := (s.now :: (portAt s d).crcTimes).filter fun t => decide (s.now < t + sec 1)
    let s := onPort d (fun p => { p with crcErr := satInc 32 p.crcErr, crcTimes := ts.take 17 }) s
    if ts.length = 17 then report 0x5006 s else s

/-- What a port does with a hop-scope frame: a passive port relays it; an active one takes a good frame with HOP 0
(R455, R480). -/
def hopScope (d : Side) (hd : FrameHead) (f : StarFrame) (take : State → State) (s : State) : State :=
  let s := countCrc d hd.crcOk s
  if (portAt s d).up = false then s
  else if portActive s d = false then relay d hd f s
  else if frameGood hd ∧ hd.hop = 0 then take s
  else s

/-- What a port does with a ring-scope frame: relayed, but for the device's own and one with HOP 4,095; an active
port takes a good one (R455). -/
def ringScope (d : Side) (hd : FrameHead) (f : StarFrame) (take : State → State) (s : State) : State :=
  let s := countCrc d hd.crcOk s
  if (portAt s d).up = false then s
  else if portActive s d = false then relay d hd f s
  else
    let s := if isOwn s hd.src ∨ hd.hop = 4095 then s else relay d hd f s
    if frameGood hd then take s else s

/-! ### The group master -/

/-- A device is a candidate for its bar's encoder master role (R462). -/
def isCandidate (bar : Nat) (m : Member) : Bool :=
  m.bar == bar && m.roles.testBit 1 && !m.dup && !m.lost &&
    (m.state == stateCode .run || m.state == stateCode .hold || m.state == stateCode .repair)

/-- ROLES of this device (Table 12.4). -/
def ownRoles (s : State) : Nat :=
  bit (s.img.on Fld.masterElig []) + 2 * bit (s.img.on Fld.encElig []) + 16 * s.img.nat Fld.encPrio []

/-- This device as a member. -/
def selfMember (s : State) : Member where
  id := ownId s
  state := stateCode s.sys.code
  bar := ownBar s
  roles := ownRoles s
  dup := s.star.dupId
  lost := false

/-- Every device known, this one included. -/
def allMembers (s : State) : List Member :=
  selfMember s :: s.star.members

/-- One candidate is preferred to another: lower ENC_PRIO, then lower ID (R462). -/
def preferred (a b : Member) : Bool :=
  decide (a.roles / 16 < b.roles / 16) || (a.roles / 16 == b.roles / 16 && decide (a.id < b.id))

/-- The preferred one of a list. -/
def bestOf : List Member → Option Member
  | [] => none
  | m :: r =>
    match bestOf r with
    | none => some m
    | some x => if preferred x m then some x else some m

/-- The holder a bar has now, none when the bar is not known. -/
def holderOf (s : State) (bar : Nat) : Option (Option Nat) :=
  (s.star.holders.find? fun h => h.1 == bar).map (·.2)

/-- The holder a bar is granted: the present one while it stays a candidate, else the preferred candidate (R462). -/
def grantOf (s : State) (bar : Nat) : Option Nat :=
  let c := (allMembers s).filter (isCandidate bar)
  let best := (bestOf c).map (·.id)
  match holderOf s bar with
  | some (some h) => if c.any (fun m => m.id == h) then some h else best
  | _ => best

/-- The bars known, each once. -/
def knownBars (s : State) : List Nat :=
  ((allMembers s).map (·.bar) ++ s.star.holders.map (·.1)).eraseDups

/-- A bar's holder is noted. -/
def noteHolder (bar : Nat) (h : Option Nat) (s : State) : State :=
  onStar (fun x => { x with holders := (x.holders.filter fun e => e.1 != bar) ++ [(bar, h)] }) s

/-- A device ID field (R457). -/
def idField (h : Option Nat) : BitVec 16 :=
  BitVec.ofNat 16 (h.getD 0x8FFF)

/-- The encoder master role is given up at a tick boundary: the accumulator is zeroed (Edges of "Line triggers from
the encoder"). -/
def endRole (s : State) : State :=
  zeroAccumulator (onStar (fun x => { x with encMaster := false, handover := false }) s)

/-- The device starts as encoder master; `line` is the LINE of its first trigger (R463, R464, R468). -/
def startRole (line : Nat) (s : State) : State :=
  setHop 0 (zeroAccumulator (onStar (fun x => { x with
    encMaster := true, granted := false, await := .none, handover := false, startLine := some line }) s))

/-- The followed master names the holder of a bar; in the own bar the device starts or ends a handover (R463). -/
def applyRole (bar : Nat) (h : Option Nat) (s : State) : State :=
  let s := noteHolder bar h s
  if bar ≠ ownBar s ∨ mayHold s = false then s
  else
    let s := onStar (fun x => { x with holder := h }) s
    if h = some (ownId s) then
      if s.star.encMaster ∨ s.star.granted ∨ s.star.dupId then onStar (fun x => { x with handover := false }) s
      else onStar (fun x => { x with granted := true, await := .tick, bestLast := none }) s
    else
      onStar (fun x => { x with granted := false, await := .none, handover := x.encMaster }) s

/-- ROLE of one bar leaves (Table 12.4), and the master follows it itself. -/
def sendRole (bar : Nat) (s : State) : State :=
  let h := (holderOf s bar).getD none
  applyRole bar h (sendRing (.role (BitVec.ofNat 32 s.star.epoch) (BitVec.ofNat 16 bar) (idField h)) s)

/-- The content of the AGREE this device sends as group master (R460). -/
def ownAgree (s : State) : Agree :=
  let (b, d, p) := s.star.detour.getD (0, 0, 0)
  { src := ownId s, pv := 1, epoch := s.star.epoch, hash := s.img.groupHash, ringN := s.star.ringN
    dBar := b, dDir := d, dP := p, time := s.now }

/-- An AGREE takes its place among those received within the last 5 ms, by SRC (R461). -/
def insertAgree (a : Agree) : List Agree → List Agree
  | [] => [a]
  | b :: r => if a.src < b.src then a :: b :: r else if a.src = b.src then a :: r else b :: insertAgree a r

/-- The device follows the lowest SRC received within 5 ms; a hash that differs from its own is reported at each
change (R461, R482). -/
def follow (s : State) : State :=
  let s := onStar (fun x => { x with heard := x.heard.filter fun a => decide (s.now ≤ a.time + ms 5) }) s
  match followed s with
  | none => s
  | some a =>
    let differs := decide (a.hash ≠ s.img.groupHash)
    let fresh := differs && !(s.star.foreign && s.star.last.hash == a.hash)
    let s := onStar (fun x => { x with last := a, foreign := differs }) s
    if fresh then report 0x5003 s else s

/-- AGREE leaves, and the master follows its own (R460, R461). -/
def sendAgree (s : State) : State :=
  let a := ownAgree s
  let s := sendRing (.agree ⟨s.star.nonce, BitVec.ofNat 32 a.epoch, a.hash, BitVec.ofNat 16 a.ringN,
    BitVec.ofNat 16 a.dBar, BitVec.ofNat 8 a.dDir, BitVec.ofNat 16 a.dP⟩) s
  follow (onStar (fun x => { x with heard := insertAgree a x.heard, returned := false }) s)

/-- EPOCH goes up at a change of AGREE or ROLE content (R460). -/
def newEpoch (s : State) : State :=
  onStar (fun x => { x with epoch := (x.epoch + 1) % 2 ^ 32 }) s

/-- The group master grants or re-grants every bar's role; ROLE leaves for the bars that change (R460, R462, R465). -/
def grantRoles (s : State) : State :=
  if s.star.groupMaster = false then s
  else
    let changed := (knownBars s).filter fun b => holderOf s b != some (grantOf s b)
    if changed.isEmpty then s
    else
      let grants := changed.map fun b => (b, grantOf s b)
      let s := newEpoch (grants.foldl (fun t g => noteHolder g.1 g.2 t) s)
      sendAgree (changed.foldl (fun t b => sendRole b t) s)

/-- The group master role ends. -/
def endMaster (s : State) : State :=
  follow (onStar (fun x => { x with
    groupMaster := false, detour := none, heard := x.heard.filter fun a => a.src != ownId s }) s)

/-- A CLAIM or AGREE of a lower ID: claiming stops, a group master gives up (R459, R461). -/
def yieldTo (src : Nat) (s : State) : State :=
  if src < ownId s ∧ hasIdentity s then
    let s := onStar (fun x => { x with claiming := false }) s
    if s.star.groupMaster then report 0x5005 (endMaster s) else s
  else s

/-- The device may claim (R459, Table 12.6). -/
def mayClaim (s : State) : Bool :=
  mayHold s && s.img.on Fld.masterElig [] && !s.star.dupId && !s.star.groupMaster

/-- Another device sends with the own DEV_ID: DUP_ID, and no role is held any more (R458, R482). -/
def checkDup (src : BitVec 16) (nonce : BitVec 32) (s : State) : State :=
  if isOwn s src ∧ nonce ≠ s.star.nonce then
    let s := if s.star.dupId then s else report 0x5004 s
    let s := onStar (fun x => { x with dupId := true, claiming := false, granted := false, await := .none }) s
    let s := if s.star.groupMaster then endMaster s else s
    if s.star.encMaster then endRole s else s
  else s

/-- What is known of a device changes. -/
def noteMember (id : Nat) (f : Member → Member) (s : State) : State :=
  onStar (fun x =>
    if x.members.any (fun m => m.id == id) then
      { x with members := x.members.map fun m => if m.id == id then f m else m }
    else { x with members := x.members ++ [f { Member.reset with id := id }] }) s

/-- The group master's epoch follows the highest received (R460). -/
def noteEpoch (e : Nat) (s : State) : State :=
  onStar (fun x => { x with maxEpoch := some (Nat.max e (x.maxEpoch.getD e)) }) s

/-! ### Breaks and the detour -/

/-- The device at a place of the ring as last closed. -/
def atPlace (s : State) (p : Nat) : Option RingDev :=
  s.star.map.find? fun m => m.place == p

/-- East along the bar from a place: the break whose West end is `a` lies that way. -/
def breakEast (s : State) (bar a : Nat) : Nat → Nat → Bool
  | 0, _ => false
  | n + 1, p =>
    if p = a then true
    else
      let q := (p + 1) % s.star.mapN
      match atPlace s q with
      | none => false
      | some m => if m.bar = bar then breakEast s bar a n q else false

/-- Links and bars of a detour path from place `p` to `target`: the sum of the delays less 4.5 ns, in 0.5 ns, and the
other bars crossed (R475). -/
def detourPath (s : State) (bar target : Nat) (west : Bool) : Nat → Nat → Nat × List Nat
  | 0, _ => (0, [])
  | n + 1, p =>
    if p = target then (0, [])
    else
      let m := (atPlace s p).getD RingDev.reset
      let q := if west then (p + s.star.mapN - 1) % s.star.mapN else (p + 1) % s.star.mapN
      let (d, bars) := detourPath s bar target west n q
      let bars := if m.bar = bar ∨ bars.contains m.bar then bars else m.bar :: bars
      ((if west then m.wDelay else m.eDelay) - 9 + d, bars)

/-- The detour a break calls for: its bar, direction and P, when it lies between two devices of one bar (R475). -/
def detourFor (s : State) (brk : Nat × Nat) : Option (Nat × Nat × Nat) :=
  match s.star.map.find? fun m => m.id == brk.1 with
  | none => none
  | some m =>
    let n := s.star.mapN
    let a := if brk.2 = 1 then m.place else (m.place + n - 1) % n
    let b := (a + 1) % n
    match atPlace s a, atPlace s b with
    | some x, some y =>
      if x.bar ≠ y.bar then none
      else
        match (holderOf s x.bar).getD none with
        | none => none
        | some h =>
          match s.star.map.find? fun m => m.id == h with
          | none => none
          | some e =>
            let west := breakEast s x.bar a n e.place
            let (d, bars) := detourPath s x.bar (if west then b else a) west n e.place
            let p := (d + 1100 * bars.length + 95) / 96
            some (x.bar, if west then 1 else 2, p % 4096)
    | _, _ => none

/-- The group master publishes a detour for a break known, unless one is in force (R475). -/
def publishDetour (s : State) : State :=
  if s.star.groupMaster = false ∨ s.star.detour.isSome then s
  else
    match s.star.breaks.findSome? (detourFor s) with
    | none => s
    | some d => sendAgree (newEpoch (onStar (fun x => { x with detour := some d }) s))

/-- An EVENT is taken: breaks and losses are noted, and the group master acts on them (R465, R474, R475, R477). -/
def takeEvent (k : StarEvent) (src : Nat) (port : Side) (subject : BitVec 16) (s : State) : State :=
  let b := (src, (sideIx port).val)
  match k with
  | .brk =>
    publishDetour (onStar (fun x => { x with breaks := (x.breaks.filter fun e => e != b) ++ [b] }) s)
  | .heal =>
    let s := onStar (fun x => { x with breaks := x.breaks.filter fun e => e != b }) s
    if s.star.groupMaster ∧ s.star.detour.isSome then
      sendAgree (newEpoch (onStar (fun x => { x with detour := none }) s))
    else s
  | .lost =>
    if idNone subject then s
    else grantRoles (noteMember (subject.toNat % 4096) (fun m => { m with lost := true }) s)

/-- An EVENT of this device leaves and is taken by itself. -/
def raiseEvent (k : StarEvent) (port : Side) (subject : BitVec 16) (s : State) : State :=
  if hasIdentity s then takeEvent k (ownId s) port subject (sendRing (.event k port subject) s) else s

/-! ### Links -/

/-- LINK_SYNC: a link is up; after a break HEAL leaves (R447, R474). -/
def execLinkSync (side : Side) (s : State) : Host.Outcome State Fault Refusal :=
  if (portAt s side).up ∨ s.sys.code = .off then .next s
  else
    let broke := (portAt s side).broke
    let s := onPort side (fun p => { p with up := true, broke := false }) s
    .next (if broke ∧ portActive s side then raiseEvent .heal side (BitVec.ofNat 16 (ownId s)) s else s)

/-- LINK_DOWN: the receiver is out of sync: counted, reported, BREAK (R447, R474). -/
def execLinkDown (side : Side) (s : State) : Host.Outcome State Fault Refusal :=
  if (portAt s side).up = false ∨ s.sys.code = .off then .next s
  else
    let s := onPort side (fun p => { p with up := false, linkDown := satInc 32 p.linkDown }) s
    let s := report (faultCode 0x50 (sideIx side).val) s
    if portActive s side then
      .next (raiseEvent .brk side (BitVec.ofNat 16 (ownId s)) (onPort side (fun p => { p with broke := true }) s))
    else .next s

/-- PORT_MODE_CHANGE: at an IDLE received in both directions the wanted mode is taken (R481). -/
def execPortModeChange (side : Side) (s : State) : Host.Outcome State Fault Refusal :=
  match (portAt s side).want with
  | none => .next s
  | some b => .next (onPort side (fun p => { p with passive := b, want := none }) s)

/-- Both ports take a mode at the next IDLE (R481). -/
def wantMode (passive : Bool) (s : State) : State :=
  sides.foldl (fun t d => onPort d (fun p => { p with want := if p.passive = passive then none else some passive }) t) s

/-- Every role is given up (R479, R644). -/
def dropRoles (s : State) : State :=
  let s := onStar (fun x => { x with
    groupMaster := false, claiming := false, granted := false, await := .none, detour := none, holder := none }) s
  if s.star.encMaster then endRole s else s

/-! ### ECHO, HELLO, MEMBER -/

/-- ECHO_TIMER: an ECHO leaves the port (R448). -/
def execEchoTimer (side : Side) (s : State) : Host.Outcome State Fault Refusal :=
  if portLive s side then
    let q := ((portAt s side).echoSeq + 1) % 256
    .next (sendFrame side (.echo q false) (onPort side (fun p => { p with echoSeq := q }) s))
  else .next s

/-- A cable delay, in 0.5 ns units, lies outside R445. -/
def cableOut (delay : Nat) : Bool :=
  decide (delay < 9) || decide (11 < delay)

/-- ECHO_RECEIVE: an ECHO is returned, by a passive port too; a returned one gives the cable delay it has measured,
in 0.5 ns units (R448, R480). -/
def execEchoReceive (side : Side) (hd : FrameHead) (seq : BitVec 8) (ret : Bool) (delay : Nat) (s : State) :
    Host.Outcome State Fault Refusal :=
  let s := if ret = false ∧ frameGood hd ∧ hd.hop = 0 ∧ (portAt s side).up then
    emit (starOut side (ownHead s) (.echo seq.toNat true)) s else s
  .next (hopScope side hd (.echo seq.toNat ret) (fun s =>
    if ret = false ∨ seq.toNat ≠ (portAt s side).echoSeq then s
    else
      let d := Nat.min delay 65535
      let oot := neighOfBar s side (ownBar s) && cableOut d
      onPort side (fun p => { p with delay := d, relayDelay := d, oot := oot }) s) s)

/-- This device's HELLO with a state (Table 12.4). -/
def ownHello (c : DevState) (s : State) : Hello where
  nonce := s.star.nonce
  state := BitVec.ofNat 4 (stateCode c)
  bar := BitVec.ofNat 12 (ownBar s)
  pos := BitVec.ofNat 8 (s.img.nat Fld.barPos [])
  offset := BitVec.ofNat 8 (s.img.nat Fld.barOffset [])
  hash := hashHead s.img.groupHash
  flags := BitVec.ofNat 8 (bit s.star.dupId + 2 * bit s.star.foreign)

/-- HELLO with a state leaves on each live port (Table 12.4). -/
def sendHello (c : DevState) (s : State) : State :=
  sides.foldl (fun t d => sendFrame d (.hello (ownHello c s)) t) s

/-- HELLO_TIMER: the progress the STARLING watchdog looks for (Table 12.4, Table 17.11). -/
def execHelloTimer (s : State) : Host.Outcome State Fault Refusal :=
  if sides.any (portLive s) then .next (progressed .starling (sendHello s.sys.code s)) else .next s

/-- HELLO_RECEIVE (R458, R462, R482). -/
def execHelloReceive (side : Side) (hd : FrameHead) (h : Hello) (s : State) : Host.Outcome State Fault Refusal :=
  .next (hopScope side hd (.hello h) (fun s =>
    if hd.pv ≠ 1 then s
    else
      let s := checkDup hd.src h.nonce s
      let n : Neigh :=
        { id := hd.src, nonce := h.nonce, state := h.state.toNat, bar := h.bar.toNat, pos := h.pos.toNat
          offset := h.offset.toNat, hash := h.hash, flags := h.flags.toNat }
      let s := onPort side (fun p => { p with neigh := some n, lost := false }) s
      if idNone hd.src ∨ isOwn s hd.src then s
      else
        grantRoles (noteMember (hd.src.toNat % 4096) (fun m => { m with
          state := n.state, bar := n.bar, dup := h.flags.getLsbD 0, lost := false }) s)) s)

/-- NEIGHBOUR_LOST: no HELLO for 1 ms; LOST names the neighbour (R465). -/
def execNeighbourLost (side : Side) (s : State) : Host.Outcome State Fault Refusal :=
  match (portAt s side).neigh with
  | none => .next s
  | some n =>
    if portActive s side = false ∨ (portAt s side).lost then .next s
    else .next (raiseEvent .lost side n.id (onPort side (fun p => { p with lost := true }) s))

/-- The ring as last closed: one device's place and delays (R474). -/
def noteRing (e : RingDev) (s : State) : State :=
  match followed s with
  | none => s
  | some a =>
    if a.ringN = 0 then s
    else onStar (fun x => { x with mapN := a.ringN, map := (x.map.filter fun m => m.id != e.id) ++ [e] }) s

/-- LAST_LINE of the MEMBER frame; the spec gives none before the first line summary: a free value. -/
def memberLast (s : State) : Nat :=
  if s.spr.anySummary then s.spr.lastLine else Config.value s.freeCtr

/-- MEMBER_TIMER (Table 12.4). -/
def execMemberTimer (s : State) : Host.Outcome State Fault Refusal :=
  if hasIdentity s = false then .next s
  else
    let w := (portAt s .west).delay
    let e := (portAt s .east).delay
    let m : MemberPay :=
      { nonce := s.star.nonce
        state := BitVec.ofNat 4 (stateCode s.sys.code)
        bar := BitVec.ofNat 12 (ownBar s)
        pos := BitVec.ofNat 8 (s.img.nat Fld.barPos [])
        roles := BitVec.ofNat 8 (ownRoles s)
        hash := hashHead s.img.groupHash
        lastLine := BitVec.ofNat 48 (memberLast s)
        wDelay := BitVec.ofNat 16 w
        eDelay := BitVec.ofNat 16 e }
    .next (noteRing ⟨ownId s, 0, ownBar s, w, e⟩ (bump (sendRing (.member m) s)))

/-- The place on the ring of a frame's sender: relays passed plus one, East or West of this device (R455, R474). -/
def placeOf (s : State) (d : Side) (hop : BitVec 12) : Nat :=
  let n := Nat.max 1 (((followed s).map (·.ringN)).getD 1)
  match d with
  | .east => (hop.toNat + 1) % n
  | .west => (n - (hop.toNat + 1) % n) % n

/-- LAST_LINE counts toward the LINE of a new holder's first trigger (R464). -/
def noteLast (bar last : Nat) (s : State) : State :=
  if s.star.await = .member ∧ bar = ownBar s then
    onStar (fun x => { x with bestLast := some (Nat.max last (x.bestLast.getD last)) }) s
  else s

/-- MEMBER_RECEIVE (R458, R462, R464, R474). -/
def execMemberReceive (side : Side) (hd : FrameHead) (m : MemberPay) (s : State) :
    Host.Outcome State Fault Refusal :=
  .next (ringScope side hd (.member m) (fun s =>
    if hd.pv ≠ 1 ∨ idNone hd.src then s
    else
      let s := checkDup hd.src m.nonce s
      if isOwn s hd.src then s
      else
        let id := hd.src.toNat % 4096
        let s := noteRing ⟨id, placeOf s side hd.hop, m.bar.toNat, m.wDelay.toNat, m.eDelay.toNat⟩ s
        let s := noteLast m.bar.toNat m.lastLine.toNat s
        grantRoles (noteMember id (fun x => { x with
          state := m.state.toNat, bar := m.bar.toNat, roles := m.roles.toNat, lost := false }) s)) s)

/-! ### Election -/

/-- EPOCH the device would take as group master (R460). -/
def nextEpoch (s : State) : Nat :=
  match s.star.maxEpoch with
  | none => 1
  | some e => (e + 1) % 2 ^ 32

/-- CLAIM_TIMER: a claiming device sends CLAIM (R459). -/
def execClaimTimer (s : State) : Host.Outcome State Fault Refusal :=
  if s.star.claiming ∧ mayClaim s then
    .next (sendRing (.claim s.star.nonce (BitVec.ofNat 32 (nextEpoch s))) s)
  else .next s

/-- CLAIM_RECEIVE (R458 to R461). -/
def execClaimReceive (side : Side) (hd : FrameHead) (nonce epoch : BitVec 32) (s : State) :
    Host.Outcome State Fault Refusal :=
  .next (ringScope side hd (.claim nonce epoch) (fun s =>
    if hd.pv ≠ 1 ∨ idNone hd.src then s
    else
      let s := checkDup hd.src nonce s
      if isOwn s hd.src then s else yieldTo (hd.src.toNat % 4096) (noteEpoch epoch.toNat s)) s)

/-- AGREE_TIMER: the group master sends AGREE; RING_N is 0 while its AGREE does not come back (R460). -/
def execAgreeTimer (s : State) : Host.Outcome State Fault Refusal :=
  if s.star.groupMaster = false ∨ mayHold s = false then .next s
  else
    let open_ := !s.star.returned && s.star.ringN != 0
    let s := if open_ then newEpoch (onStar (fun x => { x with ringN := 0 }) s) else s
    .next (sendAgree s)

/-- The own AGREE comes back: the ring is closed and counted (R460). -/
def agreeBack (nonce : BitVec 32) (hop : Nat) (s : State) : State :=
  if s.star.groupMaster = false ∨ nonce ≠ s.star.nonce then s
  else
    let s := onStar (fun x => { x with returned := true }) s
    if s.star.ringN = hop + 1 then s
    else sendAgree (newEpoch (onStar (fun x => { x with ringN := hop + 1, returned := true }) s))

/-- An AGREE of another PV from below the present master's SRC: passive relay until the next reset (R482). -/
def otherVersion (src : Nat) (s : State) : State :=
  match followed s with
  | none => s
  | some a =>
    if src < a.src then
      report 0x5002 (wantMode true (dropRoles (onStar (fun x => { x with pvMismatch := true, pvOut := true }) s)))
    else s

/-- AGREE_RECEIVE (R458 to R461, R482). -/
def execAgreeReceive (side : Side) (hd : FrameHead) (a : AgreePay) (s : State) : Host.Outcome State Fault Refusal :=
  .next (ringScope side hd (.agree a) (fun s =>
    let src := hd.src.toNat % 4096
    if idNone hd.src then s
    else if hd.pv ≠ 1 then if isOwn s hd.src then s else otherVersion src s
    else
      let s := checkDup hd.src a.nonce s
      if isOwn s hd.src then agreeBack a.nonce hd.hop.toNat s
      else
        let x : Agree :=
          { src := src, pv := hd.pv.toNat, epoch := a.epoch.toNat, hash := a.hash, ringN := a.ringN.toNat
            dBar := a.dBar.toNat, dDir := a.dDir.toNat, dP := a.dP.toNat, time := s.now }
        let s := yieldTo src (noteEpoch x.epoch s)
        follow (onStar (fun y => { y with heard := insertAgree x y.heard }) s)) s)

/-- AGREE_TIMEOUT: 5 ms without an AGREE of the followed master; an eligible device that hears none claims (R459,
R461). -/
def execAgreeTimeout (s : State) : Host.Outcome State Fault Refusal :=
  if hasIdentity s = false ∨ s.star.groupMaster then .next s
  else
    let s := follow (onStar (fun x => { x with heard := x.heard.drop 1 }) s)
    .next (onStar (fun x => { x with claiming := x.claiming || (x.heard.isEmpty && mayClaim s) }) s)

/-- CLAIM_WON: after 5 ms of claiming the device becomes group master; the roles granted before stand (R459, R460,
Edges of "Identity, election and roles"). -/
def execClaimWon (s : State) : Host.Outcome State Fault Refusal :=
  if s.star.claiming = false ∨ mayClaim s = false then .next s
  else
    let s := onStar (fun x => { x with
      claiming := false, groupMaster := true, epoch := nextEpoch s, ringN := 0, returned := true, detour := none }) s
    let s := grantRoles (sendAgree s)
    .next (publishDetour ((s.star.holders.map (·.1)).foldl (fun t b => sendRole b t) s))

/-- ROLE_TIMER (Table 12.4). -/
def execRoleTimer (s : State) : Host.Outcome State Fault Refusal :=
  if s.star.groupMaster = false ∨ mayHold s = false then .next s
  else .next ((s.star.holders.map (·.1)).foldl (fun t b => sendRole b t) (grantRoles s))

/-- ROLE_RECEIVE: taken from the followed master (R461 to R463). -/
def execRoleReceive (side : Side) (hd : FrameHead) (epoch : BitVec 32) (bar holder : BitVec 16) (s : State) :
    Host.Outcome State Fault Refusal :=
  .next (ringScope side hd (.role epoch bar holder) (fun s =>
    if hd.pv ≠ 1 ∨ idNone hd.src ∨ isOwn s hd.src then s
    else
      let s := noteEpoch epoch.toNat s
      match followed s with
      | none => s
      | some a =>
        if a.src ≠ hd.src.toNat % 4096 then s
        else applyRole (bar.toNat % 4096) (if idNone holder then none else some (holder.toNat % 4096)) s) s)

/-- HANDOVER_TIMEOUT: no tick within 1 ms of the ROLE frame; the new holder starts from the last tick of its bar, or
waits for MEMBER frames (R463, R464). -/
def execHandoverTimeout (s : State) : Host.Outcome State Fault Refusal :=
  if s.star.granted = false ∨ s.star.await ≠ .tick then .next s
  else
    match s.star.lastTick with
    | some n => .next (startRole (lineAdd n 1) s)
    | none => .next (onStar (fun x => { x with await := .member, bestLast := none }) s)

/-- MEMBER_LINE_WAIT: after 100 ms of MEMBER frames (R464). -/
def execMemberLineWait (s : State) : Host.Outcome State Fault Refusal :=
  if s.star.granted = false ∨ s.star.await ≠ .member then .next s
  else
    match s.star.bestLast with
    | some n => .next (startRole (lineAdd n 1) s)
    | none => .next (startRole 0 s)

/-- DUP_ID_CLEAR (R458). -/
def execDupIdClear (s : State) : Host.Outcome State Fault Refusal :=
  .next (onStar (fun x => { x with dupId := false }) s)

/-- STARLING_EVENT_RECEIVE (R465, R474, R475, R477). -/
def execStarlingEventReceive (side : Side) (hd : FrameHead) (k : StarEvent) (port : Side) (subject : BitVec 16)
    (s : State) : Host.Outcome State Fault Refusal :=
  .next (ringScope side hd (.event k port subject) (fun s =>
    if idNone hd.src ∨ isOwn s hd.src then s else takeEvent k (hd.src.toNat % 4096) port subject s) s)

/-! ### Ticks -/

/-- A tick relayed: its input cable delay less 5.0 ns and the time its start symbol leaves later than 43.0 ns after
arrival add to EXCESS (R454). How late it leaves is a free value, not before it arrived; a passive port keeps
43.0 ns ± 0.5 ns (R480). -/
def relayTick (d : Side) (t : TickFrame) (detour : Bool) (s : State) : State :=
  let p := portAt s d
  let late : Int := if portActive s d = false then (Config.value s.freeCtr % 3 : Nat) - 1 else (Config.value s.freeCtr : Int) - 86
  let cable : Int := (if portActive s d = false then p.relayDelay else p.delay : Nat) - 10
  let good := t.crcOk && t.eof
  if (portAt s (otherSide d)).up = false then s
  else
    bump (emit (tickOn (otherSide d) { t with
      detour := detour, crcOk := true, eof := good, hop := t.hop + 1
      excess := satInt 24 (t.excess + cable + late) }) s)

/-- Whether and how an active device forwards a tick: along its bar's span, as a detour tick at the span's edge and
beyond, never its own bar's as encoder master, nor past HOP 4,095 (R467, R476). -/
def tickOut (d : Side) (t : TickFrame) (s : State) : Option Bool :=
  let bar := t.bar.toNat
  if (s.star.encMaster && bar == ownBar s) || t.hop == 4095 then none
  else if t.detour then some true
  else if neighOfBar s (otherSide d) bar then some false
  else if mayHold s && bar == ownBar s && detourSide s bar == some (otherSide d) then some true
  else none

/-- The last LINE the device took, tick or own trigger (R469). -/
def lastTaken (s : State) : Option Nat :=
  match s.lt.ticks.getLast? with
  | some t => some t.line
  | none => if s.lt.anyLine then some s.lt.line else none

/-- A tick of the own bar arrives: the first with a LINE past the last taken triggers a line (R136, R468, R469), a
HANDOVER tick starts the new holder (R463). -/
def takeTick (t : TickFrame) (s : State) : State :=
  let line := t.line.toNat
  let fresh := match s.star.lastTick with | none => true | some n => linePast line n
  let s := onStar (fun x => { x with lastTick := if fresh then some line else x.lastTick }) s
  let new := match lastTaken s with | none => true | some n => linePast line n && line != n
  if s.star.encMaster ∨ new = false then s
  else
    let p := if t.detour && (detourSide s (ownBar s)).isSome then ((followed s).map (·.dP)).getD 0 else 0
    let hop := t.hop.toNat + 1 + p
    let due : Int := (10 * s.now : Nat) + max 0 (96 * p - t.excess)
    let x : TickInfo :=
      { line := line, deferred := t.deferred, encz := t.encz, merge := t.merge.toNat, hop := hop
        arrived := ((due + 9) / 10).toNat }
    let s := setHop hop { s with lt := { s.lt with ticks := s.lt.ticks ++ [x], drainDefer := s.lt.drain } }
    if t.handover ∧ s.star.granted then startRole (lineAdd line 1) s else s

/-- TICK_RECEIVE: relayed by a passive port; an active device forwards it under R467 and R476 and takes a good tick
of its own bar (R454, R467 to R469). -/
def execTickReceive (side : Side) (t : TickFrame) (s : State) : Host.Outcome State Fault Refusal :=
  let s := countCrc side t.crcOk s
  if (portAt s side).up = false then .next s
  else if portActive s side = false then .next (relayTick side t t.detour s)
  else
    let s := match tickOut side t s with
      | some d => relayTick side t d s
      | none => s
    if t.crcOk ∧ t.eof ∧ t.bar.toNat = ownBar s ∧ mayHold s then .next (takeTick t s) else .next s

/-- The tick of a line the encoder master triggers leaves toward its bar's span, and into the detour at the span's
edge; its start symbol leaves 18 ns to 43 ns after the trigger, a free value (R466, R476). The HANDOVER tick ends
the role (R463). -/
def sendTick (line merge : Nat) (deferred encz : Bool) (s : State) : State :=
  let bar := ownBar s
  let t : TickFrame :=
    { pv := 1, detour := false, crcOk := true, eof := true, bar := BitVec.ofNat 12 bar, deferred := deferred, encz := encz
      handover := s.star.handover, hop := 0, line := BitVec.ofNat 48 line
      merge := BitVec.ofNat 8 (Nat.min merge 255), excess := -(Config.value s.freeCtr % 51 : Nat) }
  let out := fun (s : State) (d : Side) =>
    if portLive s d = false then s
    else if neighOfBar s d bar then emit (tickOn d t) s
    else if detourSide s bar = some d then emit (tickOn d { t with detour := true }) s
    else s
  let s := bump (sides.foldl out s)
  let s := onStar (fun x => { x with lastTick := some line, startLine := none }) s
  if s.star.handover then endRole s else s

/-! ### COMMIT, resets, SLEEP, re-init -/

/-- A NONCE is drawn (R458). -/
def drawNonce (s : State) : State :=
  bump (onStar (fun x => { x with nonce := BitVec.ofNat 32 (draw s (2 ^ 32)) }) s)

/-- What a port keeps across a reset: its link, its mode until the next IDLE, the delay its relay uses (R480, Table
18.6), and the counters COMMIT zeroes. -/
def portAfterReset (p : Port) : Port :=
  { Port.reset with
    up := p.up
    passive := p.passive
    want := if p.passive then none else some true
    delay := p.delay
    relayDelay := p.relayDelay
    crcErr := p.crcErr
    linkDown := p.linkDown }

/-- A reset: both ports passive at the next IDLE; identity, roles and what was heard are lost (R479, R666, Table
18.6). -/
def starReset (s : State) : State :=
  onStar (fun x => { Star.reset with
    port := x.port.map portAfterReset
    pvMismatch := x.pvMismatch
    gapLines := x.gapLines
    lineBreaks := x.lineBreaks }) s

/-- The ports at the COMMIT edge: counters zeroed, active at the next IDLE (R479, R483, R580). -/
def starStart (s : State) : State :=
  wantMode false (onStar (fun x => { Star.reset with
    port := x.port.map fun p => { p with crcErr := 0, linkDown := 0, neigh := none, lost := false }
    pvMismatch := x.pvMismatch }) s)

/-- The COMMIT edge: a NONCE is drawn, and an eligible device claims (R458, R459, R580). SAFE after an accepted image
holds no role and makes no claim (Table 12.6). -/
def starCommit (s : State) : State :=
  let s := drawNonce (starStart s)
  onStar (fun x => { x with claiming := s.img.on Fld.masterElig [] && s.sys.safeKind == .none }) s

/-- SAFE after a refusal: active ports and no identity (R457, Table 12.6). -/
def starSafe (s : State) : State :=
  onStar (fun x => { x with noId := true }) (starStart s)

/-- SLEEP entry: one HELLO with STATE 0x5 on each port, then passive at an IDLE (R657). -/
def starSleep (s : State) : State :=
  wantMode true (dropRoles (sendHello .sleep s))

/-- A wake: active again, unless a PV mismatch stands; what HELLO and AGREE said is forgotten with the SER domain (R660). -/
def starWake (s : State) : State :=
  wantMode s.star.pvOut (onStar (fun x => { x with
    port := x.port.map fun p => { p with neigh := none, lost := false }
    heard := [] }) s)

/-- A STARLING re-init starts: passive at an IDLE, every role given up (R644). -/
def reinitStartStarling (s : State) : State :=
  wantMode true (dropRoles s)

/-- It ends: active again, unless a PV mismatch stands, DEV_ID and NONCE unchanged (R644). -/
def reinitEndStarling (s : State) : State :=
  wantMode s.star.pvOut s

end Sys2Proof.Machine
end

