-- ==== Sys2Proof/Machine/Trigger.lean ====
section
/-! DEFINITION. The line trigger, from the own encoder or from a tick, and STOPPED (R135 to R150, R466 to R473). -/

namespace Sys2Proof.Machine

/-- What a trigger brings with it. -/
structure Trig where
  /-- bar line counter -/
  line : Nat
  /-- the trigger was deferred under R139 -/
  deferred : Bool
  /-- requests merged into it -/
  merged : Nat
  /-- ENCZ mark -/
  encz : Bool
  /-- a gap or a break before it makes it a restart -/
  gap : Bool
  deriving DecidableEq, Repr

/-- A gap's line: no inspection, its summary is due (R471). -/
def gapLine (n : Nat) : LineRec :=
  { LineRec.reset with line := n, uninsp := true, noBeat := true, exposed := true, ladleDone := true, ingressed := true }

/-- Missing counter values before a tick's line, none before the first line (R471). -/
def missing (n : Nat) (s : State) : Nat :=
  if s.lt.anyLine then (n + 2 ^ 48 - s.lt.line - 1) % 2 ^ 48 else 0

/-- A gap: one summary for each missing value, or past 65,536 a line break with a time anchor (R471, R472). -/
def fillGap (m : Nat) (s : State) : State :=
  if m = 0 then s
  else if 65536 < m then
    onSprue (fun x => { x with anchorDue := true })
      (onStar (fun x => { x with lineBreaks := satInc 32 x.lineBreaks }) s)
  else
    let first := s.lt.line
    onSprue (fun x => { x with lines := x.lines ++ (List.range m).map fun i => gapLine (lineAdd first (i + 1 : Nat)) })
      (onStar (fun x => { x with gapLines := satAdd 32 m x.gapLines }) s)

/-- Period of the line that ends with a trigger now (R142, Table 4.5). -/
def periodNow (s : State) : Nat :=
  match s.lt.lastTrig with
  | none => s.lt.period
  | some t => Nat.min (s.now - t) 0xFFFFFF

/-- Adaptation freezes or counts toward the thaw (R190, R191). -/
def adaptAtTrigger (s : State) : State :=
  if s.lt.lastTrig.isNone ∨ s.img.nat Fld.affTmax [] ≤ s.lt.period ∨ reinitBusy .pixel s then freezeAll s
  else countThaw s

/-- A fault whose flag stands, a converter fault's window or a fault no repair masks makes the line DEGRADED (R88,
R97, R120). -/
def degradedNow (s : State) : Bool :=
  s.flt.standing.any degrades || decide (0 < s.pix.degLeft) || s.fab.unmasked

/-- What the device knows of a line at its trigger (R362, R391, R437, R506, R548). -/
def lineRecord (t : Trig) (restart ctx : Bool) (s : State) : LineRec :=
  { LineRec.reset with
    line := t.line
    encz := t.encz
    restart := restart
    speedLimit := t.deferred
    merged := Nat.min t.merged 255
    ctx := ctx
    evIn := eventInputs s
    uninsp := reinitBusy .pixel s
    degraded := degradedNow s
    refUnsettled := s.hkc.integEn && !refReady s
    affFrozen := affFrozen s
    time := ptpTime s
    ptpState := s.ptp.state
    period := s.lt.period
    hop := s.star.hop
    anchor := t.line % s.img.nat Fld.timeEvery [] == 0 || s.spr.anchorDue || restart }

/-- Record and ROI credits at a trigger (R371, R375). -/
def gainCredits (s : State) : State :=
  onSprue (fun x => { x with
    recCredit := Nat.min (x.recCredit + s.img.nat Fld.recBudget []) (256 * s.img.nat Fld.recBurst [])
    roiCredit := Nat.min (x.roiCredit + s.img.nat Fld.roiBudget []) (s.img.nat Fld.roiBurst []) }) s

/-- The line-timing unit at a trigger: the line in progress, its period, nothing pulsed or closed (R137, R142, R143,
R165). -/
def ltTrigger (t : Trig) (s : State) : State :=
  { s with lt := { s.lt with
    period := periodNow s
    line := t.line
    anyLine := true
    lastTrig := some s.now
    trigs := (s.now, t.line) :: s.lt.trigs.filter fun e => decide (s.now ≤ e.1 + ms 5)
    clampHist := (t.deferred :: s.lt.clampHist).take 64
    stopped := false
    restart := false
    drained := false
    pulsed := 0
    closes := 0
    enczLine := if t.encz && s.img.on Fld.enczEn [] then t.line else s.lt.enczLine
    injWait := s.lt.injWait || (s.hkc.injOn && s.img.nat Fld.injSrc [] == 1) } }

/-- A line is triggered: its record begins, credits grow, HOLD ends, and as encoder master its tick leaves (R64, R135,
R145, R150, R247, R466). -/
def trigger (t : Trig) (s : State) : State :=
  let restart := s.lt.restart || t.gap || s.fab.restart
  let s := adaptAtTrigger { s with lt := { s.lt with period := periodNow s } }
  let left := if restart then s.img.nat Fld.d [] else s.fab.ctxLeft
  let s := judgeTime s
  let l := lineRecord t restart (decide (0 < left)) s
  let s := shiftCharge (ltTrigger t s)
  let s := clearEdges (gainCredits (onSprue (fun x => { x with lines := x.lines ++ [l], anchorDue := false }) s))
  let s := { s with
    pix := { s.pix with degLeft := s.pix.degLeft - 1 }
    fab := { s.fab with restart := false, ctxLeft := left - 1 } }
  let s := startLineOut t.encz s
  let s := if s.sys.code = .hold then enter .run s else s
  if s.star.encMaster then sendTick t.line (Nat.min t.merged 255) t.deferred t.encz s else s

/-- The oldest taken tick triggers its line (R136, R471 to R473). A mark that ENCZ left while the device was still
encoder master falls on it, the first trigger after the rise (R138). -/
def tickTrigger (t : TickInfo) (s : State) : State :=
  let mark := t.encz || s.lt.enczMark
  let s := { s with lt := { s.lt with ticks := s.lt.ticks.drop 1, enczMark := false } }
  let m := missing t.line s
  trigger ⟨t.line, t.deferred, t.merge, mark, decide (0 < m)⟩ (fillGap m s)

/-- LINE of the encoder master's next trigger: that of R463 or R464 for a new holder, else the next value (R64). -/
def nextLine (s : State) : Nat :=
  match s.star.startLine with
  | some n => n
  | none => if s.lt.anyLine then lineAdd s.lt.line 1 else 0

/-- The waiting line request triggers a line (R135, R138, R139). -/
def requestTrigger (merged : Nat) (s : State) : State :=
  let t : Trig := ⟨nextLine s, s.lt.clampDefer, merged, s.lt.enczMark, false⟩
  trigger t { s with lt := { s.lt with
    request := none, clampDefer := false, drainDefer := false, enczMark := false } }

/-- LINE_TRIGGER: from a tick whose trigger is due, or 10 ns after the edge that raised a request not deferred (R135,
R136). -/
def execLineTrigger (s : State) : Host.Outcome State Fault Refusal :=
  if live s = false ∨ ltRuns s = false ∨ s.lt.drain then .next s
  else
    match s.lt.ticks with
    | t :: _ => .next (tickTrigger t s)
    | [] =>
      match s.lt.request with
      | none => .next s
      | some n =>
        if isMaster s = false ∨ s.lt.clampDefer ∨ s.lt.drainDefer then .next s else .next (requestTrigger n s)

/-- DEFERRED_TRIGGER: the end of the clamp, or of the drain, issues what was deferred (R139 to R141, R144). -/
def execDeferredTrigger (s : State) : Host.Outcome State Fault Refusal :=
  if live s = false ∨ ltRuns s = false ∨ s.lt.drain then .next s
  else
    match s.lt.ticks with
    | t :: _ => .next (tickTrigger t s)
    | [] =>
      match s.lt.request with
      | none => .next s
      | some n =>
        if isMaster s ∧ (s.lt.clampDefer ∨ s.lt.drainDefer) then .next (requestTrigger n s) else .next s

/-- STOP_DETECT: 200 µs without a trigger: STOPPED, the drain, a restart next, adaptation frozen (R143, R145, R190). -/
def execStopDetect (s : State) : Host.Outcome State Fault Refusal :=
  if live s = false ∨ ltRuns s = false ∨ s.lt.lastTrig.isNone ∨ s.lt.stopped then .next s
  else .next (freezeAll { s with lt := { s.lt with stopped := true, drain := true, restart := true } })

end Sys2Proof.Machine
end

