-- ==== Sys2Proof/Machine/Power.lean ====
section
/-! DEFINITION. Supplies, the six reset kinds, supervisor and SEC faults, HOLD, SLEEP and waking
(R650, R654 to R676). -/

namespace Sys2Proof.Machine

/-! ### Resets -/

/-- Rank of a reset kind by its code of Table 18.5: POR, PIN, FLT, WDT, WARM from the highest (R667). -/
def resetRank (kind : Nat) : Nat :=
  match kind with
  | 1 => 5
  | 2 => 4
  | 5 => 3
  | 4 => 2
  | _ => 1

/-- SYS.RESET at the start of a reset: the highest-ranked kind since RUN or SAFE stays (R664, R667). -/
def writeReset (kind : Nat) (fault : BitVec 16) (bySup : Bool) (s : State) : Sys :=
  if inState [.boot, .commit] s ∧ resetRank kind < resetRank s.sys.cause then s.sys
  else { s.sys with cause := kind, lastState := s.sys.code, bySup := bySup, resetFault := fault }

/-- SAFE_LATCH after the start of a reset: set by FLT, kept by WDT, cleared by WARM and PIN (R588). -/
def latchAfter (kind : Nat) (latch : Bool) : Bool :=
  if kind = 5 then true else if kind = 4 then latch else false

/-- DATA of a RESET record (Table 18.10). -/
def resetData (y : Sys) : List Byte :=
  [BitVec.ofNat 8 y.cause, BitVec.ofNat 8 (stateCode y.lastState), BitVec.ofNat 8 (bit y.bySup), 0]
    ++ le 2 y.resetFault.toNat

/-- What a reset does to the SYS block and the supervisor (R667, R668, Table 18.6). -/
def sysAfterReset (y : Sys) : Sys :=
  { y with
    code := .boot
    prev := y.code
    safeKind := .none
    bootCount := y.bootCount + 1
    funcBusy := 0
    pwrcycLow := false
    spllLocked := false
    supOnSpll := false
    bootOsc := true
    lockRetries := 0
    supResetting := false
    supHalted := false
    waking := false
    lastLockstep := none
    mutexes := []
    wd := y.wd.map fun w => { w with expiries := 0, reinitEnd := none, afterReinit := 0 }
    ratedOver := false
    warned := false
    tripRun := 0 }

/-- What a reset leaves of the NVM block: the counters, which COMMIT zeroes. -/
def nvmAfterReset (n : Nvm) : Nvm :=
  { Nvm.reset with erased := n.erased, programmed := n.programmed }

/-- What a reset leaves of the FLT block: the AON registers and the counters (Table 18.6). -/
def fltAfterReset (f : Flt) : Flt :=
  { f with
    summaryAt := none, woAt := none, ldetHi := 0, lsusHi := 0, sumQueue := [], standing := [], creditSeen := [], reloadedRgn := [], titheFound := [] }

/-- A PIN, WARM, WDT or FLT reset starts: the actions of R666, SYS.RESET and the RESET record, and a boot from
stage 0x2 with nothing staged (R563, R581, R664 to R669). -/
def startReset (kind : Nat) (fault : BitVec 16) (bySup : Bool) (s : State) : State :=
  let s := releaseLock s
  let s := { s with sys := writeReset kind fault bySup s }
  let s := logOther 5 0 (resetData s.sys) s
  let s := gpioReset (netReset (sprReset s))
  let s := starReset (ptpReset (hkcReset (ltReset (pixReset (fabReset kind s)))))
  { s with
    sys := sysAfterReset s.sys
    boot := { Boot.reset with
      stage := 2, cold := false, warm := kind = 3, safeLatch := latchAfter kind s.boot.safeLatch, origin := s.now }
    img := Image.reset
    flt := fltAfterReset s.flt
    sec := SecBlk.reset
    nvm := nvmAfterReset s.nvm
    mnt := Mnt.reset }

/-- The POR state: every block at its reset value, AON not yet started; OTP, flash, what has left, model fields, the
levels outside the package and what a new STREAM must differ from stay (R410, R650, R651, Table 18.6). -/
def porBlocks (s : State) : State :=
  let f := endFlashOp (Config.mayTake s.freeCtr) s
  { State.reset with
    freeCtr := f.freeCtr + 1
    otp := f.otp
    flash := f.flash
    out := f.out
    pending := s.pending
    net := { Net.reset with lastStream := s.net.lastStream }
    gpio := gpioPor f.gpio
    hkc := { Hkc.reset with refEn := false }
    boot := { Boot.reset with stage := 0 }
    sys := { Sys.reset with
      code := .off
      porActive := true
      bootOsc := false
      resetNLow := s.sys.resetNLow
      refclk := s.sys.refclk
      testMode := s.sys.testMode } }

/-- A POR begins: what the pins drove ends (R650, R554). -/
def porState (s : State) : State :=
  withPins porBlocks s

/-- PGOOD_LOW for `ns` nanoseconds (R650). -/
def execPgoodLow (ns : Nat) (s : State) : Host.Outcome State Fault Refusal :=
  if s.sys.porActive ∨ ns < 100 then .next s
  else if 1000 ≤ ns then .next (porState s)
  else if Config.mayTake s.freeCtr then .next (porState (bump s))
  else .next (bump s)

/-- AON_UNDERVOLTAGE (R650): no filter applies. -/
def execAonUndervoltage (s : State) : Host.Outcome State Fault Refusal :=
  if s.sys.porActive then .next s else .next (porState s)

/-- POR_END: AON start at stage 0x1, BOOT entered, HKC reference enabled (R562, R563). -/
def execPorEnd (s : State) : Host.Outcome State Fault Refusal :=
  if s.sys.porActive then
    .next { s with
      sys := { s.sys with code := .boot, prev := .off, porActive := false, bootOsc := true }
      boot := { s.boot with stage := 1, cold := true, origin := s.now }
      hkc := { s.hkc with refEn := true } }
  else .next s

/-- RESET_N_ASSERT for `ns` nanoseconds (R664, R665). A pulse that starts a reset holds the boot until
RESET_N_RELEASE; one during a POR only holds the boot. -/
def execResetNAssert (ns : Nat) (s : State) : Host.Outcome State Fault Refusal :=
  let low := fun (t : State) => { t with sys := { t.sys with resetNLow := true } }
  if ns < 20 ∨ s.sys.resetNLow then .next s
  else if s.sys.porActive then .next (low s)
  else if 100 ≤ ns then .next (low (startReset 2 0 false s))
  else if Config.mayTake s.freeCtr then .next (low (startReset 2 0 false (bump s)))
  else .next (bump s)

/-- RESET_N_RELEASE: the boot begins at stage 0x2 (R664); after a POR it goes on (R668 Edges). -/
def execResetNRelease (s : State) : Host.Outcome State Fault Refusal :=
  if s.sys.resetNLow then
    .next { s with
      sys := { s.sys with resetNLow := false }
      boot := { s.boot with origin := if s.sys.porActive then s.boot.origin else s.now } }
  else .next s

/-- The device runs: neither OFF nor in SLEEP with the supervisor halted, nor held in reset. -/
def awake (s : State) : Bool :=
  !inState [.off] s && !s.sys.supHalted && !s.sys.resetNLow

/-- SUPERVISOR_WATCHDOG_EXPIRE: class 0x61 instance 0x0F and a WDT reset (Table 17.11). -/
def execSupervisorWatchdogExpire (s : State) : Host.Outcome State Fault Refusal :=
  if awake s then .next (startReset 4 0x610F false (report 0x610F s)) else .next s

/-- The boot starts again from stage 0x2 with every staged content discarded (R564). -/
def restartBoot (s : State) : State :=
  { s with boot := { Boot.reset with
      stage := 2
      cold := s.boot.cold
      warm := s.boot.warm
      safeLatch := s.boot.safeLatch
      origin := s.boot.origin } }

/-- LOCKSTEP_FAULT of the supervisor (R73 to R75, R564, R637). -/
def execLockstepFault (s : State) : Host.Outcome State Fault Refusal :=
  if awake s = false then .next s
  else
    let t := report 0x6000 s
    if within (sec 1) s.sys.lastLockstep s then .next (startReset 5 0x6000 false t)
    else
      let t := releaseLock t
      let t := { t with
        sys := { t.sys with supResetting := true, mutexes := [], lastLockstep := some t.now }
        mnt := { t.mnt with waiting := [], sessWait := [] } }
      .next (if t.sys.code = .boot then restartBoot t else t)

/-- SUPERVISOR_RESUME (R73). -/
def execSupervisorResume (s : State) : Host.Outcome State Fault Refusal :=
  .next { s with sys := { s.sys with supResetting := false } }

/-- SEC_HALVES_DISAGREE (R106). -/
def execSecHalvesDisagree (s : State) : Host.Outcome State Fault Refusal :=
  if awake s = false then .next s
  else
    let t := report 0x6004 s
    if within (sec 1) s.sec.lastFault s then .next (startReset 5 0x6004 false t)
    else .next { t with sec := { resetting := true, lastFault := some t.now } }

/-- SEC_CONTEXT_RESUME: work abandoned runs again and the answers that waited leave; in BOOT the boot restarts from stage 0x2 (R106, R564). -/
def execSecContextResume (s : State) : Host.Outcome State Fault Refusal :=
  if s.sec.resetting then
    let t := sendWaiting { s with sec := { s.sec with resetting := false } }
    .next (if t.sys.code = .boot then restartBoot t else t)
  else .next s

/-- LINE_TIMING_HALVES_DISAGREE: reported, then a FLT reset (R105). -/
def execLineTimingHalvesDisagree (s : State) : Host.Outcome State Fault Refusal :=
  if awake s then .next (startReset 5 0x6003 false (report 0x6003 s)) else .next s

/-- SPLL is not locked without the reference: the SERDES clocks stop, so the lanes lose block lock and the PTP counter
stands, the supervisor runs from the boot oscillator, and the ports go passive (R66, Tables 2.3, 12.6; log entry 22). -/
def clockGone (s : State) : State :=
  let s := rebase (watchPaths (loseLock .b (loseLock .a s)))
  wantMode true { s with sys := { s.sys with refclk := false, spllLocked := false, supOnSpll := false } }

/-- REFCLK_LOSS: in RUN class 0x40 for both lanes and a FLT reset (R66, Table 18.5, Edges of "Clocks, islands and
handshakes"). -/
def execRefclkLoss (s : State) : Host.Outcome State Fault Refusal :=
  if s.sys.code = .run then .next (clockGone (startReset 5 0x4000 false (report 0x4001 (report 0x4000 s))))
  else .next (clockGone s)

/-- THERMAL_TRIP: once the readings of R672 have been taken, class 0x81 and a FLT reset (R674). -/
def execThermalTrip (s : State) : Host.Outcome State Fault Refusal :=
  if s.sys.tripRun < 4 ∨ inState [.off] s ∨ s.sys.resetNLow then .next s
  else
    let c := faultCode 0x81 (hottest s)
    .next (startReset 5 c false (logOther 7 c (thermalData s 5) (report c s)))

/-- PWRCYC_TIMEOUT: the pin is released and the request counted as not taken (R647). -/
def execPwrcycTimeout (s : State) : Host.Outcome State Fault Refusal :=
  if s.sys.pwrcycLow then
    .next { s with sys := { s.sys with
      pwrcycLow := false, pwrcycNotTaken := satInc 16 s.sys.pwrcycNotTaken } }
  else .next s

/-! ### HOLD, SLEEP and waking -/

/-- HOLD_ENTRY: RUN to HOLD (R148, R654, R655). -/
def execHoldEntry (s : State) : Host.Outcome State Fault Refusal :=
  if s.sys.code = .run ∧ supRuns s then .next (enter .hold (ltHold (sprHold s))) else .next s

/-- The conditions of entering SLEEP (R656). -/
def maySleep (s : State) : Bool :=
  s.sys.code == .hold && supRuns s && s.img.nat Fld.sleepDelay [] != 0 && !s.star.encMaster && !s.nvm.locked &&
    s.sys.funcBusy == 0 && s.log.queue.isEmpty && !s.log.snapPending

/-- SLEEP_ENTRY: the steps of R657 in order. -/
def execSleepEntry (s : State) : Host.Outcome State Fault Refusal :=
  if maySleep s = false then .next s
  else
    let s := gpioSleep s
    let s := starSleep s
    let s := netSleep (ptpSleep s)
    let s := pixSleep (fabSleep (sprSleep (hkcSleep (ltSleep s))))
    let s := enter .sleep s
    .next { s with sys := { s.sys with
      supHalted := true, spllLocked := false, supOnSpll := false, bootOsc := false } }

/-- A pin holds its interrupt kind's condition against its level at SLEEP entry (R550). -/
def wakeCondition (s : State) (p : Fin 48) : Bool :=
  let x := s.gpio.pin[p]
  let v := padLevel s p
  intCondition x.intKind v && (decide (4 ≤ x.intKind) || v != x.slept)

/-- A wake source counts: the encoder inputs always, a pin GP00 to GP07 with WAKE set on its interrupt kind (R550,
R658). -/
def wakes (w : WakeSrc) (s : State) : Bool :=
  match w with
  | .encA => true
  | .encB => true
  | .pin p => decide (p.val < 8) && s.gpio.pin[p].wake && wakeCondition s p

/-- WAKE_EVENT: the supervisor runs again and the domains power up (R658, R660). -/
def execWakeEvent (w : WakeSrc) (s : State) : Host.Outcome State Fault Refusal :=
  if s.sys.code = .sleep ∧ s.sys.waking = false ∧ wakes w s then
    .next { s with sys := { s.sys with waking := true, supHalted := false, bootOsc := true } }
  else .next s

/-- The sections a wake reads: COPE, LADLE, FABRIC, WREN part 0, SPRUE, NET, STARLING (R660). -/
def wakeSections : List Nat := [2, 3, 4, 5, 7, 8, 9]

/-- Every section a wake reads matches the section table kept in AON (R660). -/
def wakeSectionsOk (s : State) : Bool :=
  wakeSections.all fun i => sectionCode s.flash s.boot.slot (s.img.table.getD i SectEntry.reset) = 0

/-- WAKE_COMPLETE: RUN, or a WARM reset when a section fails (R660, R661); `found` are the Wren words in which the
retention check meets an error (R288, R291). -/
def execWakeComplete (found : List (Fin 72 × Nat × Ecc)) (s : State) : Host.Outcome State Fault Refusal :=
  if s.sys.code ≠ .sleep ∨ s.sys.waking = false ∨ s.sys.refclk = false ∨ supRuns s = false ∨ s.sec.resetting then
    .next s
  else if wakeSectionsOk s = false then .next (startReset 3 0xA003 true (report 0xA003 s))
  else
    let s := { s with sys := { s.sys with waking := false, spllLocked := true, supOnSpll := true } }
    let s := netWake (starWake (ptpWake (hkcWake (gpioWake s))))
    let s := sprWake (ltWake (fabWake found (pixWake s)))
    .next (enter .run s)

end Sys2Proof.Machine
end

