-- ==== Sys2Proof/Machine/Checks.lean ====
section
/-! DEFINITION. What the fit checks are built from: places of FAB.REFUSE_AT, range checks over the items an image
gives, and the fields as a check reads them (R329, R331, R574, R614 to R616). -/

namespace Sys2Proof.Machine

/-! ### Places -/

/-- Logical row of a subscript list. -/
def placeRow (l : List Nat) : RefuseAt :=
  { RefuseAt.reset with row := l.getD 0 0 }

/-- Row and mould. -/
def placeMould (l : List Nat) : RefuseAt :=
  { RefuseAt.reset with row := l.getD 0 0, mould := l.getD 1 0 }

/-- Row, mould and the generator or stage in ITEM (Table 8.6, R353). -/
def placeGen (l : List Nat) : RefuseAt :=
  { RefuseAt.reset with row := l.getD 0 0, mould := l.getD 1 0, item := l.getD 2 0 }

/-- Row, mould and stage × 8 + descriptor modulo 16 in ITEM (R353). -/
def placeDesc (l : List Nat) : RefuseAt :=
  { RefuseAt.reset with row := l.getD 0 0, mould := l.getD 1 0, item := (8 * l.getD 2 0 + l.getD 3 0) % 16 }

/-- Row, link and channel. -/
def placeChan (l : List Nat) : RefuseAt :=
  { RefuseAt.reset with row := l.getD 0 0, link := l.getD 1 0, ch := l.getD 2 0 }

/-- Row and the region or counter in ITEM. -/
def placeItem (l : List Nat) : RefuseAt :=
  { RefuseAt.reset with row := l.getD 0 0, item := l.getD 1 0 }

/-- No location. -/
def noPlace (_ : List Nat) : RefuseAt :=
  RefuseAt.reset

/-- The place of the first condition of a list that is broken. -/
def firstBroken (l : List (Bool × RefuseAt)) : Option RefuseAt :=
  (l.find? (·.1)).map (·.2)

/-- A check without a location. -/
def broken (b : Bool) : Option RefuseAt :=
  if b then some RefuseAt.reset else none

/-! ### Values -/

/-- The values items give for a field, each with its subscripts (R612). -/
def Image.givens (m : Image) (f : FieldSpec) : List (List Nat × Int) :=
  (m.items.filter fun t => t.id = f.id).flatMap fun t =>
    (List.range t.vals.length).map fun j =>
      ((unpackIndex f.subs (t.index + j)).2, readRaw f t.width (t.vals.getD j 0))

/-- The string items give for a field, each with its subscripts (R613). -/
def Image.givenStrs (m : Image) (f : FieldSpec) : List (List Nat × List Int) :=
  (m.items.filter fun t => t.id = f.id).map fun t =>
    ((unpackIndex f.subs t.index).2, t.vals.map (readRaw f t.width))

/-- Every value items give for a field, outside its own range and where `c` holds, with its place. -/
def rangeWhere (m : Image) (f : FieldSpec) (pl : List Nat → RefuseAt) (c : List Nat → Int → Bool) :
    List (Bool × RefuseAt) :=
  (m.givens f).map fun x => (!f.inRange x.2 && c x.1 x.2, pl x.1)

/-- Every value items give for a field, outside its own range. -/
def ranges (m : Image) (f : FieldSpec) (pl : List Nat → RefuseAt) : List (Bool × RefuseAt) :=
  rangeWhere m f pl fun _ _ => true

/-- A value of one of the fields lies outside the field's own range. -/
def anyOut (m : Image) (fs : List FieldSpec) : Bool :=
  fs.any fun f => (ranges m f noPlace).any (·.1)

/-- A field without an item that has no default (R614). -/
def absent (m : Image) (f : FieldSpec) (subs : List Nat) : Bool :=
  f.dflt.isNone && (m.given f subs).isNone

/-- The section's structure is broken (R616). -/
def badSection (m : Image) (t : Nat) : Bool :=
  m.bad.contains t

/-- What a check reads of a field that has a default (R615). -/
def cint (m : Image) (f : FieldSpec) (subs : List Nat) : Int :=
  (m.checked f subs).getD 0

/-- The same as a number. -/
def cnat (m : Image) (f : FieldSpec) (subs : List Nat) : Nat :=
  (cint m f subs).toNat

/-- The same as a flag. -/
def con (m : Image) (f : FieldSpec) (subs : List Nat) : Bool :=
  cint m f subs == 1

/-- What a check reads of a field without a default, none where the check is passed (R615). -/
def cnat? (m : Image) (f : FieldSpec) (subs : List Nat) : Option Nat :=
  (m.checked f subs).map Int.toNat

/-- A condition on a field without a default: passed where the field has no value (R615). -/
def whenKnown (x : Option Nat) (c : Nat → Bool) : Bool :=
  x.any c

/-- REG_DELAYk as a check reads it: 32 × k by default (Table 5.2, R615). -/
def cRegDelay (m : Image) (k : Nat) : Nat :=
  match m.given Fld.regDelay [k] with
  | some v => if 0 ≤ v ∧ v ≤ 32 * (k : Int) then v.toNat else 32 * k
  | none => 32 * k

/-- The enabled slots as a check reads them. -/
def cSlots (m : Image) : List Nat :=
  (List.range 4).filter fun k => con m Fld.slotEn [k]

/-- The used rows as a check reads them. -/
def cRows (m : Image) : List Nat :=
  (List.range 8).filter fun r => (cnat m Fld.rowmask []).testBit r

/-- TL_MIN as a check reads it. -/
def cTlMin (m : Image) : Option Nat :=
  cnat? m Fld.tlMin []

/-- The pairs of a list, each element before a later one. -/
def pairsOf {α : Type} : List α → List (α × α)
  | [] => []
  | a :: r => r.map (fun b => (a, b)) ++ pairsOf r

/-- Intervals from `a.1` up to but not including `a.2` share a point. -/
def overlaps (a b : Nat × Nat) : Bool :=
  decide (a.1 < b.2) && decide (b.1 < a.2)

/-- The smallest element of a list of numbers, 0 for an empty one. -/
def leastOf (l : List Nat) : Nat :=
  l.foldl Nat.min (l.headD 0)

end Sys2Proof.Machine
end

