-- ==== Sys2Proof/Machine/FabFit.lean ====
section
/-! DEFINITION. The fabric checks of an image, codes 0x40 to 0x50: the operations of its moulds with their floor
cycles, the proofs of R299 to R307, and every refusal of Table 8.5 and R353. The operations come from the bundles,
whose encoding is a free value (log entry 8). -/

namespace Sys2Proof.Machine

/-! ### Operations with their floor cycles -/

/-- An operation of a row's beat. -/
structure Placed where
  /-- mould that holds it -/
  mould : Nat
  /-- floor cycle of its issue (R299) -/
  cyc : Nat
  /-- stall allowance of its mould (R301) -/
  sa : Nat
  /-- the operation -/
  op : Instr
  deriving DecidableEq, Repr

/-- Moulds a row uses as a check reads them. -/
def cMoulds (m : Image) (r : Nat) : List Nat :=
  List.range ((cnat? m Fld.fold [r]).getD 0)

/-- Length of a mould, 0 where it is not known. -/
def cLen (m : Image) (r i : Nat) : Nat :=
  (cnat? m Fld.mlen [r, i]).getD 0

/-- Bundles of a mould's body. -/
def bodyLen (m : Image) (r i : Nat) : Nat :=
  ((m.str Fld.mbody [r, i]).getD []).length

/-- First floor cycle of a mould (R219). -/
def mouldFirst (m : Image) (r i : Nat) : Nat :=
  ((List.range i).map fun j => cLen m r j).sum

/-- The operations of a mould in issue order: bundle b of repeat p issues at S + p × B + b (R299). -/
def placedMould (m : Image) (r i : Nat) : List Placed :=
  let body := mouldBody m r i
  (List.range (cnat m Fld.mrepeat [r, i])).flatMap fun p =>
    (body.zipIdx).flatMap fun x =>
      x.1.map fun op => ⟨i, mouldFirst m r i + p * body.length + x.2, cnat m Fld.mstall [r, i], op⟩

/-- The operations of a row's beat in issue order. -/
def placed (m : Image) (r : Nat) : List Placed :=
  (cMoulds m r).flatMap (placedMould m r)

/-- Latest issue of an operation (R301). -/
def Placed.latest (x : Placed) : Nat :=
  x.cyc + x.sa

/-- The row a link of a row leads to, none where the link connects to nothing (R295). For E and W it is the row
itself: moulds are column-uniform and the hardware applies the edge rule of R209 (log entry 15). -/
def linkRow (m : Image) (r : Nat) (d : Dir) : Option Nat :=
  let rows := cRows m
  match d with
  | .n => if 0 < r ∧ rows.contains (r - 1) then some (r - 1) else none
  | .s => if rows.contains (r + 1) then some (r + 1) else none
  | .e => some r
  | .w => some r

/-- CH_KIND of a channel as a check reads it. -/
def cKind (m : Image) (r : Nat) (link : Dir) (ch : Nat) : Nat :=
  cnat m Fld.chKind [r, (dirIx link).val, ch]

/-- The four directions in code order. -/
def allDirs : List Dir :=
  [.n, .e, .s, .w]

/-- The channels of used rows, (r, link, ch). -/
def channels (m : Image) : List (Nat × Dir × Nat) :=
  (cRows m).flatMap fun r => allDirs.flatMap fun d => (List.range 4).map fun c => (r, d, c)

/-- Place of a channel. -/
def chanPlace (x : Nat × Dir × Nat) : RefuseAt :=
  placeChan [x.1, (dirIx x.2.1).val, x.2.2]

/-- The RECVs of a channel in a row's beat. -/
def recvsOf (m : Image) (r : Nat) (link : Dir) (ch : Nat) : List Placed :=
  (placed m r).filter fun x =>
    match x.op with
    | .recv _ _ l c _ => l = link && c.val = ch
    | _ => false

/-- The SENDs of a row toward a direction on a channel number. -/
def sendsOf (m : Image) (r : Nat) (dir : Dir) (ch : Nat) : List Placed :=
  (placed m r).filter fun x =>
    match x.op with
    | .send _ _ d c _ _ => d = dir && c.val = ch
    | _ => false

/-- The SENDs on receive channel (r, link, ch): its sender is the neighbour in the direction of the link (R293). -/
def sendersOf (m : Image) (r : Nat) (link : Dir) (ch : Nat) : List Placed :=
  match linkRow m r link with
  | some q => sendsOf m q (opposite link) ch
  | none => []

/-! ### Proof constants (Table 8.2) -/

/-- A_tok. -/
def aTok : Nat := 20

/-- A_cr. -/
def aCr : Nat := 20

/-- A_put. -/
def aPut : Nat := 24

/-- C of R107, none where TL_MIN is not known. -/
def cFloor (m : Image) : Option Nat :=
  (cTlMin m).map fun t => t * 21 / 4

/-- t of R107. -/
def cTithe (m : Image) : Nat :=
  if con m Fld.titheWaive [] then 0 else ((cFloor m).getD 0 + 15) / 16

/-! ### Static channels (R303, R304) -/

/-- R303 on a static channel: as many SENDs as RECVs, and the last credit home within C. -/
def channelProven (m : Image) (r : Nat) (link : Dir) (ch : Nat) : Bool :=
  let rv := recvsOf m r link ch
  (sendersOf m r link ch).length = rv.length &&
    match rv.getLast?, cFloor m with
    | some x, some c => decide (x.latest + aCr ≤ c)
    | _, _ => true

/-- Deficits of the RECVs of a static channel, with their moulds (R304). -/
def recvDeficits (m : Image) (r : Nat) (link : Dir) (ch : Nat) : List (Nat × Nat) :=
  ((sendersOf m r link ch).zip (recvsOf m r link ch)).map fun x =>
    (x.2.mould, x.1.latest + aTok - x.2.cyc)

/-- Deficits of the SENDs on a static channel, with the moulds of the sending row (R304). -/
def sendDeficits (m : Image) (r : Nat) (link : Dir) (ch : Nat) : List (Nat × Nat) :=
  let k := cnat m Fld.credit [r, (dirIx link).val, ch]
  (((sendersOf m r link ch).drop k).zip (recvsOf m r link ch)).map fun x =>
    (x.1.mould, x.2.latest + aCr - x.1.cyc)

/-! ### Neighbour writes (R305, R306) -/

/-- A PUT into a Wren. -/
structure PutIn where
  /-- sending row -/
  row : Nat
  /-- port of the owner it arrives at -/
  port : Dir
  /-- the operation -/
  x : Placed
  /-- counter it names -/
  ac : Nat
  deriving DecidableEq, Repr

/-- The PUTs of a row toward a direction, in issue order. -/
def putsToward (m : Image) (q : Nat) (dir : Dir) : List PutIn :=
  (placed m q).filterMap fun x =>
    match x.op with
    | .put _ _ d _ _ ac _ => if d = dir then some ⟨q, opposite dir, x, ac.val⟩ else none
    | _ => none

/-- The PUTs into the Wren of a perch of row r with all its neighbours. -/
def putsInto (m : Image) (r : Nat) : List PutIn :=
  allDirs.flatMap fun d =>
    match linkRow m r d with
    | some q => putsToward m q (opposite d)
    | none => []

/-- Issue windows share a cycle. -/
def windowsMeet (a b : Placed) : Bool :=
  decide (a.cyc ≤ b.latest) && decide (b.cyc ≤ a.latest)

/-- Landing bound λ of the PUT at position `i` of those into its Wren (R305). -/
def landing (l : List PutIn) (i : Nat) (p : PutIn) : Nat :=
  let q := ((l.zipIdx).filter fun y => y.2 != i && windowsMeet y.1.x p.x).length
  p.x.latest + aPut + q

/-- The PUTs into a Wren with λ and ε (R305). -/
def landings (m : Image) (r : Nat) : List (PutIn × Nat × Nat) :=
  let l := putsInto m r
  l.zipIdx.map fun y => (y.1, landing l y.2 y.1, 7 * y.1.x.cyc / 8)

/-- Deficits of the PUTs of row `q` toward a direction: λ of the fourth earlier one − 7 + A_cr − s (R305). -/
def putDeficits (m : Image) (q : Nat) (dir : Dir) : List (Nat × Nat) :=
  match linkRow m q dir with
  | none => []
  | some r =>
    let l := (landings m r).filter fun y => y.1.row = q && y.1.port = opposite dir
    ((l.drop 4).zip l).map fun y => (y.1.1.x.mould, y.2.2.1 + aCr - 7 - y.1.1.x.cyc)

/-- Insertion by ascending λ. -/
def insertLand (y : PutIn × Nat × Nat) : List (PutIn × Nat × Nat) → List (PutIn × Nat × Nat)
  | [] => [y]
  | z :: r => if y.2.1 < z.2.1 then y :: z :: r else z :: insertLand y r

/-- The PUTs naming counter `k` of row `r`, ranked by λ (R306). -/
def rankedPuts (m : Image) (r k : Nat) : List (PutIn × Nat × Nat) :=
  ((landings m r).filter fun y => y.1.ac = k).foldl (fun l y => insertLand y l) []

/-- The WAITs on counter `k` of row `r`, with their cumulative targets (R306). -/
def waitsOf (m : Image) (r k : Nat) : List (Placed × Nat) :=
  ((placed m r).foldl (fun (acc : List (Placed × Nat) × Nat) x =>
    match x.op with
    | .wait _ c n => if c.val = k then (acc.1 ++ [(x, acc.2 + n)], acc.2 + n) else acc
    | _ => acc) ([], 0)).1

/-- The three conditions of R306 on one counter. -/
def counterProven (m : Image) (r k : Nat) : Bool :=
  let ps := rankedPuts m r k
  let ws := waitsOf m r k
  let total := (ws.getLast?.map (·.2)).getD 0
  ps.length = total &&
    ws.all (fun w =>
      match ps[w.2 - 1]? with
      | some q => (ps.drop w.2).all fun y => decide (q.2.1 < y.2.2)
      | none => true) &&
    ps.all fun y => (cFloor m).all fun c => decide (y.2.1 ≤ c)

/-- Deficits of the WAITs of a row (R306). -/
def waitDeficits (m : Image) (r : Nat) : List (Nat × Nat) :=
  (List.range 16).flatMap fun k =>
    (waitsOf m r k).filterMap fun w =>
      ((rankedPuts m r k)[w.2 - 1]?).map fun q => (w.1.mould, q.2.1 - w.1.cyc)

/-! ### Stall bound (R307) -/

/-- A MEM operation (Table 6.1). -/
def isMem (i : Instr) : Bool :=
  match i with
  | .ldw .. => true
  | .stw .. => true
  | .ldn .. => true
  | .stn .. => true
  | .ldt .. => true
  | _ => false

/-- Deficits of every RECV, SEND, PUT and WAIT of a row, with their moulds. -/
def deficits (m : Image) (r : Nat) : List (Nat × Nat) :=
  (allDirs.flatMap fun d => (List.range 4).flatMap fun ch =>
    (if cKind m r d ch = 1 then recvDeficits m r d ch else []) ++
      match linkRow m r d with
      | some q => if cKind m q (opposite d) ch = 1 then sendDeficits m q (opposite d) ch else []
      | none => []) ++
    (allDirs.flatMap (putDeficits m r)) ++ waitDeficits m r

/-- H of a mould: PUTs into the perch whose interval from ε to λ meets the mould's frame (R307). -/
def collisions (m : Image) (r i : Nat) : Nat :=
  if ((placed m r).any fun x => x.mould = i && isMem x.op) = false then 0
  else
    let a := mouldFirst m r i
    let b := a + cLen m r i
    ((landings m r).filter fun y => decide (y.2.2 ≤ b) && decide (a ≤ y.2.1)).length

/-- Δ of a mould (R307). -/
def stallBound (m : Image) (r i : Nat) : Nat :=
  maxOf (((deficits m r).filter fun x => x.1 = i).map (·.2)) + collisions m r i + (cLen m r i + 1023) / 1024

/-! ### Codes 0x40 to 0x4A -/

/-- 0x40: a FAILED perch of a used row in a column the map needs, with the spare used or unavailable (R121). -/
def check40 (m : Image) (s : State) : Option RefuseAt :=
  firstBroken ((cRows m).flatMap fun r => (List.range 8).map fun c =>
    ((s.fab.bypass.isSome || !s.fab.repairAvail) && s.fab.perch[perchAt s r c].failed, placeRow [r]))

/-- 0x41: FAB_ROWMASK is 0 or out of range. -/
def check41 (m : Image) : Option RefuseAt :=
  broken (anyOut m [Fld.rowmask])

/-- 0x42: FOLD, MBODY and the mould store (R218). That only the bodies of the moulds in use, i < FOLD(r), fill the store is a
DESIGN CHOICE (log entry 15): the rule counts the bundles 'across all its moulds'. -/
def check42 (m : Image) : Option RefuseAt :=
  firstBroken (ranges m Fld.fold placeRow ++
    (m.givenStrs Fld.mbody).map (fun x => (decide (2048 < x.2.length), placeMould x.1)) ++
    (cRows m).flatMap fun r =>
      (absent m Fld.fold [r], placeRow [r]) ::
        (cMoulds m r).map (fun i => ((m.str Fld.mbody [r, i]).isNone, placeMould [r, i])) ++
        [(decide (8192 < ((cMoulds m r).map (bodyLen m r)).sum), placeRow [r])])

/-- The stall allowances given for moulds whose length is known, above MLEN − 4, in rows and moulds not in use too (Table
6.5, R616). -/
def stallRanges (m : Image) : List (Bool × RefuseAt) :=
  (m.givens Fld.mstall).map fun x =>
    (whenKnown (cnat? m Fld.mlen x.1) (fun n => decide ((n : Int) < x.2 + 4)), placeMould x.1)

/-- 0x43: MLEN, MSTALL, MREPEAT and R300. -/
def check43 (m : Image) : Option RefuseAt :=
  firstBroken (ranges m Fld.mlen placeMould ++ ranges m Fld.mstall placeMould ++ stallRanges m ++
    ranges m Fld.mrepeat placeMould ++
    (cRows m).flatMap fun r => (cMoulds m r).map fun i =>
      (absent m Fld.mlen [r, i] ||
        whenKnown (cnat? m Fld.mlen [r, i]) (fun n =>
          decide (n < cnat m Fld.mstall [r, i] + 4) ||
            decide (n < cnat m Fld.mrepeat [r, i] * bodyLen m r i + 16 + cnat m Fld.mstall [r, i])),
       placeMould [r, i]))

/-- 0x44: the work of a beat (R220, R114). -/
def check44 (m : Image) : Option RefuseAt :=
  firstBroken ((cRows m).map fun r =>
    (whenKnown (cFloor m) (fun c => decide (c - cTithe m < ((cMoulds m r).map (cLen m r)).sum)), placeRow [r]))

/-- 0x46: a channel declared, or an operation addressed, to a link that connects to nothing (R209, R295). -/
def check46 (m : Image) : Option RefuseAt :=
  firstBroken ((channels m).map (fun x => (cKind m x.1 x.2.1 x.2.2 != 0 && (linkRow m x.1 x.2.1).isNone, chanPlace x)) ++
    (cRows m).flatMap fun r => (placed m r).map fun x =>
      let dead := fun (d : Dir) (ch : Nat) =>
        ((linkRow m r d).isNone, { placeMould [r, x.mould] with link := (dirIx d).val, ch := ch })
      match x.op with
      | .put _ _ d _ _ _ _ => dead d 0
      | .send _ _ d ch _ _ => dead d ch.val
      | .recv _ _ d ch _ => dead d ch.val
      | _ => (false, RefuseAt.reset))

/-- The elastic edges between perches of the grid, sender to receiver, with their group (R310). -/
def elasticEdges (m : Image) : List ((Nat × Nat) × (Nat × Nat) × Nat) :=
  (channels m).flatMap fun x =>
    if cKind m x.1 x.2.1 x.2.2 ≠ 2 then []
    else
      let g := (cnat? m Fld.elc [x.1, (dirIx x.2.1).val, x.2.2]).getD 0
      match linkRow m x.1 x.2.1 with
      | none => []
      | some q =>
        (List.range 8).filterMap fun c =>
          match x.2.1 with
          | .n => some ((q, c), (x.1, c), g)
          | .s => some ((q, c), (x.1, c), g)
          | .e => if c < 7 then some ((q, c + 1), (x.1, c), g) else none
          | .w => if 0 < c then some ((q, c - 1), (x.1, c), g) else none

/-- The perches some elastic path leads to from those given, within `n` edges. -/
def reachable (es : List ((Nat × Nat) × (Nat × Nat) × Nat)) : Nat → List (Nat × Nat) → List (Nat × Nat)
  | 0, l => l
  | n + 1, l => reachable es n (l ++ ((es.filter fun e => l.contains e.1).map (·.2.1)).eraseDups.filter fun v => !l.contains v)

/-- A directed loop of elastic channels passes through more than one group (R310). -/
def mixedLoop (m : Image) : Bool :=
  let es := elasticEdges m
  let leads := fun (v u : Nat × Nat) => (reachable es 64 [v]).contains u
  es.any fun a => es.any fun b => a.2.2 != b.2.2 && leads a.2.1 b.1 && leads b.2.1 a.1

/-- 0x47: the channel declarations (Table 8.1, R310). -/
def check47 (m : Image) : Option RefuseAt :=
  firstBroken (ranges m Fld.chKind placeChan ++ ranges m Fld.elc placeChan ++
    rangeWhere m Fld.credit placeChan (fun l _ => cnat m Fld.chKind l == 1) ++
    (channels m).map (fun x =>
      (cKind m x.1 x.2.1 x.2.2 == 2 &&
        (absent m Fld.elc [x.1, (dirIx x.2.1).val, x.2.2] ||
          (List.range 4).any fun c =>
            cKind m x.1 x.2.1 c == 2 &&
              cnat? m Fld.elc [x.1, (dirIx x.2.1).val, c] != cnat? m Fld.elc [x.1, (dirIx x.2.1).val, x.2.2]),
       chanPlace x)) ++
    (cRows m).flatMap (fun r => (placed m r).map fun x =>
      match x.op with
      | .recv _ _ d ch _ =>
        (cKind m r d ch.val == 0, { placeMould [r, x.mould] with link := (dirIx d).val, ch := ch.val })
      | .send _ _ d ch _ _ =>
        ((linkRow m r d).any (fun q => cKind m q (opposite d) ch.val == 0),
         { placeMould [r, x.mould] with link := (dirIx d).val, ch := ch.val })
      | _ => (false, RefuseAt.reset)) ++
    [(mixedLoop m, RefuseAt.reset)])

/-- 0x48: the bounds of static channels and counters (R303, R306). -/
def check48 (m : Image) : Option RefuseAt :=
  firstBroken ((channels m).map (fun x =>
      (cKind m x.1 x.2.1 x.2.2 == 1 && !channelProven m x.1 x.2.1 x.2.2, chanPlace x)) ++
    (cRows m).flatMap fun r => (List.range 16).map fun k => (!counterProven m r k, placeItem [r, k]))

/-- The link and channel of the RECV or SEND with the largest deficit of a mould, 0 where there is none. -/
def worstChannel (m : Image) (r i : Nat) : Nat × Nat :=
  let ds := allDirs.flatMap fun d => (List.range 4).flatMap fun ch =>
    let rd := if cKind m r d ch = 1 then recvDeficits m r d ch else []
    let sd := match linkRow m r d with
      | some q => if cKind m q (opposite d) ch = 1 then sendDeficits m q (opposite d) ch else []
      | none => []
    (rd.filter fun x => x.1 = i).map (fun x => (x.2, (dirIx d).val, ch)) ++
      (sd.filter fun x => x.1 = i).map (fun x => (x.2, (dirIx (opposite d)).val, ch))
  let w := maxOf (ds.map (·.1))
  match ds.find? fun x => x.1 = w && decide (0 < w) with
  | some x => x.2
  | none => (0, 0)

/-- 0x49: the stall bound exceeds the allowance (R307). -/
def check49 (m : Image) : Option RefuseAt :=
  firstBroken ((cRows m).flatMap fun r => (cMoulds m r).map fun i =>
    (decide (cnat m Fld.mstall [r, i] < stallBound m r i),
     { placeMould [r, i] with link := (worstChannel m r i).1, ch := (worstChannel m r i).2 }))

/-- 0x4A: the Wren port budget (R265). -/
def check4A (m : Image) : Option RefuseAt :=
  firstBroken ((cRows m).flatMap fun r => (cMoulds m r).map fun i =>
    (decide (cnat m Fld.mstall [r, i] < (cLen m r i + 1023) / 1024), placeMould [r, i]))

/-! ### Regions and generators -/

/-- A row's regions whose base and length are known: number, first block, end block, kind. -/
def cRegions (m : Image) (r : Nat) : List (Nat × Nat × Nat × Nat) :=
  (List.range ((cnat? m Fld.rgnN [r]).getD 0)).filterMap fun j =>
    match cnat? m Fld.rgnBase [r, j], cnat? m Fld.rgnLen [r, j] with
    | some b, some n => some (j, b, b + n, cnat m Fld.rgnKind [r, j])
    | _, _ => none

/-- Bus words of a window of plane k as a check reads them (R193, R195). -/
def cWindow (m : Image) (k : Nat) : Nat :=
  (if con m Fld.bin [] then 4 else 8) * (if con m Fld.fmt [k] then 2 else 1) + 2 * cnat m Fld.ingHalo []

/-- The ingress rings row r takes: plane, first word and end word (R196). -/
def cRings (m : Image) (r : Nat) : List (Nat × Nat × Nat) :=
  (cSlots m).filterMap fun k =>
    if (cnat m Fld.ingRowmask [k]).testBit r then
      (cnat? m Fld.ingBase [k]).map fun b => (k, b, b + cnat m Fld.ingDepth [] * 16 * cWindow m k)
    else none

/-- The generator a MEM operation names, and whether it stores. -/
def memGen (i : Instr) : Option (Nat × Bool) :=
  match i with
  | .ldw _ _ a _ => some (a.val, false)
  | .stw _ _ a _ => some (a.val, true)
  | .ldn _ _ a _ => some (a.val, false)
  | .stn _ _ a _ => some (a.val, true)
  | .ldt _ _ _ a _ _ => some (a.val, false)
  | _ => none

/-- A mould uses a generator, for a store when `st`. -/
def usesGen (m : Image) (r i g : Nat) (st : Bool) : Bool :=
  (mouldBody m r i).flatten.any fun x => memGen x == some (g, st)

/-- A generator breaks R278 or its fields' conditions in Table 7.3. -/
def genBroken (m : Image) (r i g : Nat) : Bool :=
  let l := [r, i, g]
  let ld := usesGen m r i g false
  let st := usesGen m r i g true
  let o := cnat m Fld.agOrient l
  let base := cnat m Fld.agBase l
  let last := base + (cnat m Fld.agLwrap l - 1) + (cnat m Fld.agTwrap l - 1)
  let per := if o = 0 then 256 else 16
  ((ld || st) && absent m Fld.agRgn l) || (o != 0 && decide (3071 < base)) ||
    match cnat? m Fld.agRgn l with
    | none => false
    | some j =>
      match (cRegions m r).find? fun x => x.1 = j with
      | none => decide ((cnat? m Fld.rgnN [r]).getD 16 ≤ j)
      | some (_, b, e, kind) =>
        decide (base / per < b) || decide (e ≤ last / per) ||
          (st && (kind != 0 || !(cnat m Fld.wmask [r, i]).testBit j)) || (ld && kind == 2)

/-- Bytes of WREN part 1 that hold a resident region: first and end (R618). -/
def contentsOf (m : Image) (r j : Nat) : Option (Nat × Nat) :=
  match cnat? m Fld.rgnSrc [r, j], cnat? m Fld.rgnLen [r, j] with
  | some a, some n => some (a, a + 2048 * n)
  | _, _ => none

/-- A region breaks its conditions in Table 7.3 or R618; `keep` says that part 1 was not read (R619). -/
def regionBroken (m : Image) (slot : Nat) (keep : Bool) (s : State) (r j : Nat) : Bool :=
  let kind := cnat m Fld.rgnKind [r, j]
  absent m Fld.rgnBase [r, j] || absent m Fld.rgnLen [r, j] ||
    (match cnat? m Fld.rgnBase [r, j], cnat? m Fld.rgnLen [r, j] with
      | some b, some n => decide (192 < b + n)
      | _, _ => false) ||
    (kind != 0 && con m Fld.rgnNbw [r, j]) ||
    (kind == 1 &&
      (absent m Fld.rgnSrc [r, j] || absent m Fld.rgnCrc [r, j] ||
        (match contentsOf m r j with
          | some x => decide ((m.table.getD 6 SectEntry.reset).len < x.2)
          | none => false) ||
        (!keep && (match cnat? m Fld.rgnCrc [r, j] with
          | some c => (crc32c (regionBytes s.flash slot m r j)).toNat != c
          | none => false)))) ||
    (kind != 0 && (cMoulds m r).any fun i => (cnat m Fld.wmask [r, i]).testBit j)

/-- Two resident regions of a row share bytes of part 1 (R618). -/
def contentsOverlap (m : Image) (r : Nat) : Bool :=
  (pairsOf (((cRegions m r).filter fun x => x.2.2.2 = 1).filterMap fun x => contentsOf m r x.1)).any fun y =>
    overlaps y.1 y.2

/-- Two regions of a row overlap, or a ring overlaps a region that is not streaming (R278). -/
def regionsOverlap (m : Image) (r : Nat) : Bool :=
  ((pairsOf (cRegions m r)).any fun y => overlaps (y.1.2.1, y.1.2.2.1) (y.2.2.1, y.2.2.2.1)) ||
    (cRings m r).any fun g => (cRegions m r).any fun x =>
      x.2.2.2 != 0 && overlaps (g.2.1, g.2.2) (256 * x.2.1, 256 * x.2.2.1)

/-- The WREN fields with a range of their own, each with its place. -/
def wrenRanges (m : Image) : List (Bool × RefuseAt) :=
  ranges m Fld.rgnN placeRow ++
    ([Fld.rgnBase, Fld.rgnLen, Fld.rgnKind, Fld.rgnNbw, Fld.rgnSrc, Fld.rgnCrc].flatMap fun f => ranges m f placeItem) ++
    ([Fld.agOrient, Fld.agBase, Fld.agStep, Fld.agRstep, Fld.agTwrap, Fld.agLstep, Fld.agLwrap, Fld.agRgn].flatMap
      fun f => ranges m f placeGen) ++
    ranges m Fld.wmask placeMould

/-- 0x4B: the Wren layout (R256, R278, R618, Table 7.3 except riser fields). -/
def check4B (m : Image) (slot : Nat) (keep : Bool) (s : State) : Option RefuseAt :=
  firstBroken ((badSection m 5, RefuseAt.reset) :: wrenRanges m ++
    (List.range 4).map (fun k =>
      (whenKnown (cnat? m Fld.ingBase [k]) (fun b => b % 16 != 0), RefuseAt.reset)) ++
    (cRows m).flatMap fun r =>
      (absent m Fld.rgnN [r] || regionsOverlap m r || contentsOverlap m r, placeRow [r]) ::
        (List.range ((cnat? m Fld.rgnN [r]).getD 0)).map (fun j =>
          (regionBroken m slot keep s r j, placeItem [r, j])) ++
        (cMoulds m r).flatMap fun i => (List.range 8).map fun g => (genBroken m r i g, placeGen [r, i, g]))

/-- 0x4C: the riser (R318). -/
def check4C (m : Image) : Option RefuseAt :=
  firstBroken ((cRows m).flatMap fun r =>
    let rs := (cRegions m r).filter fun x => x.2.2.2 = 2
    (rs.drop 1).map (fun x => (true, placeItem [r, x.1])) ++
      rs.map (fun x => (decide (x.2.1 + 16 < x.2.2.1), placeItem [r, x.1])) ++
      (placed m r).map fun x =>
        match x.op with
        | .send _ _ d ch _ _ =>
          (rs.isEmpty && (linkRow m r d).any (fun q => cKind m q (opposite d) ch.val == 2),
           { placeMould [r, x.mould] with link := (dirIx d).val, ch := ch.val })
        | _ => (false, RefuseAt.reset))

/-! ### The tithe's operands (0x45) -/

/-- The row's RECVs of a beat, elastic ones included: each adds one entry to the token log (R224, R314). -/
def recvCount (m : Image) (r : Nat) : Nat :=
  ((placed m r).filter fun x => match x.op with
    | .recv .. => true
    | _ => false).length

/-- A use of a generator in a row's beat: generator, position in issue order, and the part of its unit that does
not depend on the line (R277). -/
structure AgUse where
  /-- mould -/
  mould : Nat
  /-- generator -/
  gen : Nat
  /-- position among the beat's uses -/
  pos : Nat
  /-- floor cycle of its issue (R299) -/
  cyc : Nat
  /-- it stores -/
  store : Bool
  /-- unit without the line term -/
  unit : Int
  deriving DecidableEq, Repr

/-- The uses one MEM operation makes: two for a tile load. -/
def usesOf (i : Instr) : List (Nat × Bool) :=
  match i with
  | .ldt _ _ _ a _ _ => [(a.val, false), (a.val, false)]
  | x => (memGen x).toList

/-- The uses of a mould's generators in issue order, each with its repeat and its count since the repeat began. -/
def mouldUses (m : Image) (r i : Nat) : List AgUse :=
  let body := (mouldBody m r i).zipIdx.flatMap fun x => (x.1.flatMap usesOf).map fun y => (y.1, y.2, x.2)
  (List.range (cnat m Fld.mrepeat [r, i])).flatMap fun p =>
    body.zipIdx.map fun y =>
      let (g, st, b) := y.1
      let l := [r, i, g]
      let u := ((body.take y.2).filter fun z => z.1 = g).length
      let t : Int := ((u : Int) * cint m Fld.agStep l + (p : Int) * cint m Fld.agRstep l).emod (cint m Fld.agTwrap l)
      { mould := i, gen := g, pos := y.2, cyc := mouldFirst m r i + p * bodyLen m r i + b, store := st
        unit := cint m Fld.agBase l + t }

/-- The uses of a row's beat in issue order. -/
def beatUses (m : Image) (r : Nat) : List AgUse :=
  ((cMoulds m r).flatMap (mouldUses m r)).zipIdx.map fun y => { y.1 with pos := y.2 }

/-- The words a use reaches in the beat of line n (R255, R277). -/
def useWords (m : Image) (r : Nat) (u : AgUse) (n : Nat) : List Nat :=
  let l := [r, u.mould, u.gen]
  unitWords (cnat m Fld.agOrient l) (u.unit + (n * cnat m Fld.agLstep l % cnat m Fld.agLwrap l : Nat)).toNat

/-- Lines after which the line terms of a row's generators and its rings repeat. -/
def linePeriod (m : Image) (r : Nat) : Nat :=
  (((beatUses m r).map fun u =>
      let l := [r, u.mould, u.gen]
      cnat m Fld.agLwrap l / Nat.gcd (cnat m Fld.agLstep l) (cnat m Fld.agLwrap l)).eraseDups).foldl Nat.lcm
    (Nat.max 1 (cnat m Fld.ingDepth []))

/-- The words the ingress of line n writes in a row (R196). -/
def ringWords (m : Image) (r n : Nat) : List Nat :=
  (cRings m r).flatMap fun g =>
    let w := 16 * cWindow m g.1
    (List.range w).map fun i => g.2.1 + n % Nat.max 1 (cnat m Fld.ingDepth []) * w + i

/-- The words a PUT into row r writes in the beat of line n, in regions that take neighbour writes (R274, R277); how its
unit follows the line is a free value with the period of the row's lines (log entry 8). -/
def putWords229 (m : Image) (r n : Nat) (x : PutIn) : List Nat :=
  match x.x.op with
  | .put _ _ _ o unit _ _ =>
    (unitWords (orientIx o) (Config.putUnit unit (n % Nat.max 1 (linePeriod m r)))).filter fun a =>
      (cRegions m r).any fun g => g.2.2.2 = 0 && con m Fld.rgnNbw [r, g.1] &&
        decide (256 * g.2.1 ≤ a) && decide (a < 256 * g.2.2.1)
  | _ => []

/-- R229 by a neighbour for beat n of a row: a word it reads is written by a PUT of the next beat, or by one of the same
beat whose issue at the floor is not before the read's. -/
def putRewrites (m : Image) (r n : Nat) : Bool :=
  let ps := putsInto m r
  ((beatUses m r).filter fun u => !u.store).any fun u => (useWords m r u n).any fun a =>
    ps.any fun x => (putWords229 m r (n + 1) x).contains a ||
      (decide (u.cyc ≤ x.x.cyc) && (putWords229 m r n x).contains a)

/-- R229 for beat n of a row: a word it reads is written by the Finch later in the beat or in the next, or by the
ingress of one of the two lines that follow. -/
def rereads (m : Image) (r n : Nat) : Bool :=
  let us := beatUses m r
  let later := ringWords m r (n + 1) ++ ringWords m r (n + 2) ++
    (us.filter (·.store)).flatMap fun u => useWords m r u (n + 1)
  (us.filter fun u => !u.store).any fun u =>
    let ws := useWords m r u n
    ws.any fun a => later.contains a ||
      us.any fun v => v.store && decide (u.pos < v.pos) && (useWords m r v n).contains a

/-- R229 breaks for a row: by the Ladle, the Finch itself or a neighbour. -/
def titheRewrites (m : Image) (r : Nat) : Bool :=
  (List.range (linePeriod m r)).any fun n => rereads m r n || putRewrites m r n

/-- 0x45: the tithe's operands (R224, R229). -/
def check45 (m : Image) : Option RefuseAt :=
  if con m Fld.titheWaive [] then none
  else firstBroken ((cRows m).map fun r => (decide (512 < recvCount m r) || titheRewrites m r, placeRow [r]))

/-! ### Codes 0x4D to 0x50 -/

/-- The EGR operations of a row's beat. -/
def egrCount (m : Image) (r : Nat) : Nat :=
  ((placed m r).filter fun x => match x.op with
    | .egr .. => true
    | _ => false).length

/-- 0x4D: EGR_MAX and R244. -/
def check4D (m : Image) : Option RefuseAt :=
  firstBroken (ranges m Fld.egrMax noPlace ++
    (cRows m).map fun r => (decide (cnat m Fld.egrMax [] < egrCount m r), placeRow [r]))

/-- B of R246: the items of every used row and its resident contents (log entry 11). -/
def reloadBytes (m : Image) : Nat :=
  ((cRows m).map fun r =>
    ((m.items.filter fun i => i.carries r).map fun i => i.bytes.length).sum +
      (((cRegions m r).filter fun x => x.2.2.2 = 1).map fun x => 2048 * (x.2.2.1 - x.2.1)).sum).sum

/-- 0x4E: the repair reload (R246). -/
def check4E (m : Image) : Option RefuseAt :=
  broken (decide (3172000 < reloadBytes m))

/-- A mould looks up the stage's table with an int8 output. -/
def lutNarrow (m : Image) (r i v : Nat) : Bool :=
  (mouldBody m r i).flatten.any fun x =>
    match x with
    | .lut _ w _ wide _ => w.val = v && !wide
    | _ => false

/-- 0x4F: the other FABRIC fields (Tables 6.5, 16.11). -/
def check4F (m : Image) : Option RefuseAt :=
  firstBroken ((badSection m 4, RefuseAt.reset) :: ranges m Fld.titheWaive noPlace ++
    (m.givenStrs Fld.lut).map (fun x =>
      (x.2.length != 256 || x.2.any (fun e => !Fld.lut.inRange e) ||
        (lutNarrow m (x.1.getD 0 0) (x.1.getD 1 0) (x.1.getD 2 0) &&
          x.2.any fun e => decide (e < -128) || decide (127 < e)), placeMould x.1)) ++
    (m.givenStrs Fld.perm).map fun x =>
      (x.2.length != 256 || x.2.any (fun e => !Fld.perm.inRange e), placeMould x.1))

/-- The formats of the MVMs of a mould on a stage. -/
def mvmFormats (m : Image) (r i v : Nat) : List Fmt :=
  ((mouldBody m r i).flatten.filterMap fun x =>
    match x with
    | .mvm _ w _ f _ _ => if w.val = v then some f else none
    | _ => none).eraseDups

/-- QTHETA lies in its range for a format (Table 9.4). -/
def thetaOk (f : Fmt) (x : Nat) : Bool :=
  match f with
  | .int4 => decide (1 ≤ x) && decide (x ≤ 8)
  | .int8 => decide (1 ≤ x) && decide (x ≤ 128)
  | .e4m3 => decide (1 ≤ x) && decide (x < 0x7F)
  | .e5m2 => decide (1 ≤ x) && decide (x < 0x7C)
  | _ => true

/-- A stage's QMODE or QTHETA breaks Table 9.4. -/
def stageBroken (m : Image) (r i v : Nat) : Bool :=
  let fs := mvmFormats m r i v
  let q := cnat m Fld.qmode [r, i, v]
  let th := cnat m Fld.qtheta [r, i, v]
  (q == 2 && (fs.any (· != Fmt.int8) || decide (8 < th))) ||
    (q != 0 && (fs.contains .int16 || fs.contains .bf16)) || fs.any (fun f => !thetaOk f th) ||
    (q != 0 && (m.given Fld.qtheta [r, i, v]).isSome && decide (1 < fs.length))

/-- The integer output formats of the RQs of a mould that name a stage's descriptor. -/
def rqOutputs (m : Image) (r i v d : Nat) : List Fmt :=
  (mouldBody m r i).flatten.filterMap fun x =>
    match x with
    | .rq _ w _ f _ e => if w.val = v ∧ e.val = d ∧ fmtInt f then some f else none
    | _ => none

/-- RQ_Z lies outside the output format of every RQ that names the descriptor. -/
def zBroken (m : Image) (r i v d : Nat) : Bool :=
  let fs := rqOutputs m r i v d
  let z := cint m Fld.rqZ [r, i, v, d]
  !fs.isEmpty && fs.all fun f => decide (z < -(2 ^ (fmtWidth f - 1) : Int)) || decide ((2 ^ (fmtWidth f - 1) : Int) ≤ z)

/-- 0x50: the precision fields (R353). -/
def check50 (m : Image) : Option RefuseAt :=
  firstBroken (ranges m Fld.qmode placeGen ++ ranges m Fld.qtheta placeGen ++
    ([Fld.rqM, Fld.rqS, Fld.rqZ, Fld.rqK].flatMap fun f => ranges m f placeDesc) ++
    (cRows m).flatMap fun r => (cMoulds m r).flatMap fun i => (List.range 4).flatMap fun v =>
      (stageBroken m r i v, placeGen [r, i, v]) ::
        (List.range 8).map fun d => (zBroken m r i v d, placeDesc [r, i, v, d]))

/-- The fabric checks in ascending code order (R329). -/
def fabricChecks (m : Image) (slot : Nat) (keep : Bool) (s : State) : List (Nat × Option RefuseAt) :=
  [(0x40, check40 m s), (0x41, check41 m), (0x42, check42 m), (0x43, check43 m), (0x44, check44 m), (0x45, check45 m),
   (0x46, check46 m), (0x47, check47 m), (0x48, check48 m), (0x49, check49 m), (0x4A, check4A m),
   (0x4B, check4B m slot keep s), (0x4C, check4C m), (0x4D, check4D m), (0x4E, check4E m), (0x4F, check4F m),
   (0x50, check50 m)]

end Sys2Proof.Machine
end

