-- ==== Sys2Proof/Machine/Fit.lean ====
section
/-! DEFINITION. The fit checks of an image in ascending code order (R574, R577, Table 16.12): META, COPE, LADLE,
SPRUE, NET, STARLING, HKC, PINS and FAULT here, the fabric checks in FabFit.lean. -/

namespace Sys2Proof.Machine

/-! ### META -/

/-- 0x10: D, NAME and the structure of META. -/
def check10 (m : Image) : Bool :=
  badSection m 1 || absent m Fld.d [] || anyOut m [Fld.d] ||
    (m.givenStrs Fld.name).any fun x => decide (32 < x.2.length) || x.2.any fun c => !Fld.name.inRange c

/-- 0x11: reaction latency, in ns (R79). -/
def check11 (m : Image) : Bool :=
  match cnat? m Fld.d [], cTlMin m with
  | some d, some t => decide (1000000 < d * t * 5 + 40000)
  | _, _ => false

/-- 0x12: depth (R146, R179). -/
def check12 (m : Image) : Bool :=
  whenKnown (cnat? m Fld.d []) fun d =>
    (cSlots m).any fun k => decide (d < cRegDelay m k + cnat m Fld.stages [k])

/-- 0x13: SEAM_W. -/
def check13 (m : Image) : Bool :=
  (m.givens Fld.seamW).any fun x => !Fld.seamW.inRange x.2 || x.2 % 64 != 0

/-! ### COPE -/

/-- 0x20: line-timing fields (Table 4.1). -/
def check20 (m : Image) : Bool :=
  badSection m 2 || absent m Fld.encRatio [] || absent m Fld.tlMin [] ||
    anyOut m [Fld.encRatio, Fld.encDir, Fld.encFilt, Fld.enczEn, Fld.tlMin, Fld.holdDelay, Fld.sleepDelay] ||
    (decide (1 ≤ cnat m Fld.sleepDelay []) && decide (cnat m Fld.sleepDelay [] ≤ cnat m Fld.holdDelay []))

/-- The gate window of a slot (R154). -/
def gateWindow (m : Image) (k : Nat) : Nat × Nat :=
  (cnat m Fld.slotOpen [k], cnat m Fld.slotOpen [k] + cnat m Fld.slotWidth [k])

/-- 0x21: strobe slots (Table 4.1, R57, R156); 300 ns are 60 units. -/
def check21 (m : Image) : Bool :=
  let ks := cSlots m
  let ws := ks.map (gateWindow m)
  let cs := ws.map (·.2)
  anyOut m [Fld.slotEn, Fld.slotOpen, Fld.slotWidth, Fld.slotLead] || ks.isEmpty ||
    (List.range 4).any (fun k => decide (cnat m Fld.slotOpen [k] < cnat m Fld.slotLead [k])) ||
    (pairsOf ws).any (fun y => overlaps y.1 y.2) ||
    (pairsOf cs).any (fun y => decide (y.1 < y.2 + 60) && decide (y.2 < y.1 + 60)) ||
    whenKnown (cTlMin m) fun t =>
      cs.any (fun c => decide (t < c)) || decide (leastOf cs + t < maxOf cs + 60)

/-- 0x22: pixel fields (Table 5.2). -/
def check22 (m : Image) : Bool :=
  (rangeWhere m Fld.stages noPlace fun l _ => con m Fld.slotEn l).any (·.1) ||
    (m.givens Fld.regDelay).any (fun x => decide (x.2 < 0) || decide (32 * (x.1.headD 0 : Nat) < x.2)) ||
    anyOut m [Fld.darkOutlier, Fld.darkDefault]

/-- A list ascends strictly. -/
def ascends : List Int → Bool
  | a :: b :: r => decide (a < b) && ascends (b :: r)
  | _ => true

/-- More than three consecutive columns in a row of an ascending list (R182). -/
def longRun : List Int → Bool
  | a :: b :: c :: d :: r => (b = a + 1 && c = a + 2 && d = a + 3) || longRun (b :: c :: d :: r)
  | _ => false

/-- 0x23: defect maps (R182). -/
def check23 (m : Image) : Bool :=
  (m.givenStrs Fld.defect).any fun x =>
    decide (512 < x.2.length) || x.2.any (fun c => !Fld.defect.inRange c) || !ascends x.2 || longRun x.2

/-! ### LADLE -/

/-- 0x30: Ladle fields (Table 5.2). -/
def check30 (m : Image) : Bool :=
  badSection m 3 || absent m Fld.linePitch [] ||
    anyOut m [Fld.ffGain, Fld.ffOffset, Fld.histShift, Fld.fmt, Fld.zero, Fld.shift, Fld.fill, Fld.bin, Fld.linePitch] ||
    (m.givens Fld.fill).any fun x => !con m Fld.fmt x.1 && (decide (x.2 < -128) || decide (127 < x.2))

/-- 0x31: adaptive flat field (Table 5.2). -/
def check31 (m : Image) : Bool :=
  anyOut m [Fld.affEn, Fld.affInit, Fld.affLo, Fld.affHi, Fld.affWindow, Fld.affShift, Fld.affTmax] ||
    (rangeWhere m Fld.affTarget noPlace fun _ v => v != 0 || con m Fld.affEn []).any (·.1) ||
    decide (cnat m Fld.affHi [] ≤ cnat m Fld.affLo []) ||
    whenKnown (cTlMin m) (fun t => decide (cnat m Fld.affTmax [] < t)) ||
    (con m Fld.affEn [] && (List.range 4).any fun k => (List.range 128).any fun g => absent m Fld.affTarget [k, g])

/-- A ring of plane k in row r lies wholly within one streaming region of the row (R197). -/
def ringHeld (m : Image) (r : Nat) (g : Nat × Nat × Nat) : Bool :=
  (cRegions m r).any fun x => x.2.2.2 = 0 && decide (256 * x.2.1 ≤ g.2.1) && decide (g.2.2 ≤ 256 * x.2.2.1)

/-- 0x32: ingress (Table 5.2, R197). -/
def check32 (m : Image) : Bool :=
  anyOut m [Fld.ingRowmask, Fld.ingBase, Fld.ingDepth, Fld.ingHalo] ||
    (List.range 4).any (fun k =>
      cnat m Fld.ingRowmask [k] != 0 && (!(cSlots m).contains k || absent m Fld.ingBase [k])) ||
    (cRows m).any fun r =>
      (cRings m r).any (fun g => !ringHeld m r g) || (pairsOf (cRings m r)).any fun y => overlaps y.1.2 y.2.2

/-! ### SPRUE -/

/-- A power of two. -/
def isPow2 (n : Nat) : Bool :=
  n != 0 && n == 2 ^ Nat.log2 n

/-- 0x60: Sprue fields (Table 10.11). -/
def check60 (m : Image) : Bool :=
  badSection m 6 ||
    anyOut m [Fld.tagKind, Fld.recBudget, Fld.recBurst, Fld.timeEvery, Fld.seamEn, Fld.seamLgap, Fld.seamCgap,
      Fld.roiEn, Fld.roiBudget, Fld.roiBurst] ||
    (m.givens Fld.timeEvery).any (fun x => !isPow2 x.2.toNat) ||
    (m.givens Fld.roiBudget).any fun x => x.2 % 32 != 0

/-- 1 + 1 / TIME_EVERY + REC_BUDGET + ROI_BUDGET / 32 exceeds `rate` × TL_MIN: both sides times
TIME_EVERY × 256 × 10^9, with TL_MIN in 5 ns (R396, R416). -/
def overRate (m : Image) (rate : Nat) : Bool :=
  let t := cnat m Fld.timeEvery []
  whenKnown (cTlMin m) fun tl =>
    decide (rate * tl * 5 * (256 * t)
      < (256 * t + 256 + cnat m Fld.recBudget [] * t + 8 * cnat m Fld.roiBudget [] * t) * 1000000000)

/-- 0x62: the ROI history interlock (R80, R377). -/
def check62 (m : Image) : Bool :=
  anyOut m [Fld.cropH] ||
    (con m Fld.roiEn [] && whenKnown (cnat? m Fld.d []) fun d =>
      decide (256 < d) || (List.range 256).any fun c => decide (256 < d + cnat m Fld.cropH [c] + 8))

/-- 0x63: crop fields of every class (Table 10.11, R614). -/
def check63 (m : Image) : Bool :=
  anyOut m [Fld.cropW, Fld.cropFields] || (m.givens Fld.cropW).any (fun x => x.2 % 8 != 0) ||
    (List.range 256).any (fun c =>
      let fm := cnat m Fld.cropFields [c]
      (List.range 4).any (fun k => fm.testBit k && !(cSlots m).contains k) ||
        decide (65536 < cnat m Fld.cropW [c] * cnat m Fld.cropH [c] * popcount 4 (BitVec.ofNat 4 fm)))

/-! ### NET -/

/-- 0x70: NET fields (Table 11.5). -/
def check70 (m : Image) : Bool :=
  badSection m 7 ||
    anyOut m [Fld.ipPrefix, Fld.hostPort, Fld.vlanEn, Fld.vlanId, Fld.pcp, Fld.dscpRes, Fld.dscpMnt, Fld.dscpPtp,
      Fld.ttl, Fld.flushUs, Fld.keepaliveMs]

/-- A unicast address: not zero, multicast, broadcast, reserved or loopback. -/
def unicastIp (a : Nat) : Bool :=
  a != 0 && a / 2 ^ 24 != 127 && decide (a < 0xE0000000)

/-- The addresses lie in one subnet of the prefix. -/
def sameNet (pre a b : Nat) : Bool :=
  a / 2 ^ (32 - pre) == b / 2 ^ (32 - pre)

/-- The addresses of a lane break Table 11.5. -/
def laneBroken (m : Image) (l : Nat) : Bool :=
  let pre := cnat m Fld.ipPrefix [l]
  let gw := cnat m Fld.gateway [l]
  let ip := cnat? m Fld.ipAddr [l]
  let host := cnat? m Fld.hostIp [l]
  let low := 2 ^ (32 - pre)
  absent m Fld.ipAddr [l] || absent m Fld.hostIp [l] ||
    whenKnown ip (fun a => !unicastIp a || a % low == low - 1 || (gw != 0 && !sameNet pre gw a)) ||
    whenKnown host (fun h => !unicastIp h || ip == some h ||
      (gw == 0 && whenKnown ip fun a => !sameNet pre h a)) ||
    (cnat m Fld.nextHopMac [l]).testBit 40

/-- 0x71: addresses. -/
def check71 (m : Image) : Bool :=
  laneBroken m 0 || laneBroken m 1

/-- 0x73: PTP fields. -/
def check73 (m : Image) : Bool :=
  anyOut m [Fld.ptpDomain, Fld.ptpAnnTo, Fld.ptpStep, Fld.ptpAsym, Fld.ptpReanchor, Fld.ppsWidth, Fld.ppsWhen]

/-- The NET checks in ascending order (R441). -/
def netChecks (m : Image) : List (Nat × Bool) :=
  [(0x70, check70 m), (0x71, check71 m), (0x72, overRate m 16000000), (0x73, check73 m)]

/-! ### STARLING -/

/-- 0x80: STARLING fields (Table 12.5). -/
def check80 (m : Image) : Bool :=
  badSection m 8 || absent m Fld.devId [] || absent m Fld.bar [] || absent m Fld.barPos [] || anyOut m fieldsOf8

/-! ### HKC -/

/-- 0x90: HKC fields (Table 13.5). -/
def check90 (m : Image) : Bool :=
  badSection m 9 ||
    anyOut m [Fld.gndTol, Fld.align, Fld.railLo, Fld.railHi, Fld.integEn, Fld.integTail, Fld.injSrc, Fld.injCh,
      Fld.injPin, Fld.wdUs] ||
    (List.range 8).any (fun i => decide (cnat m Fld.railHi [i] ≤ cnat m Fld.railLo [i])) ||
    (con m Fld.integEn [] && decide (cnat m Fld.injCh [] < 2))

/-- 0x91: HKC reference settings. -/
def check91 (m : Image) : Bool :=
  anyOut m [Fld.refSel, Fld.refSettleUs, Fld.refchTol] || (con m Fld.refSel [] && anyOut m [Fld.vrefMv])

/-- The integrator window of slot k breaks R516: from STBk's rise to INTEG_TAIL after its fall (R509). -/
def integBroken (m : Image) (k : Nat) : Bool :=
  let n := cnat m Fld.slotWidth [k] + cnat m Fld.integTail []
  let close := cnat m Fld.slotOpen [k] - cnat m Fld.slotLead [k] + n
  !(cSlots m).contains k || decide (4000 < n) ||
    whenKnown (cTlMin m) (fun t => decide (t < 2 * n) || decide (t < close)) ||
    absent m Fld.eLo [k] || absent m Fld.eHi [k] ||
    match m.checked Fld.eLo [k], m.checked Fld.eHi [k] with
    | some a, some b => decide (b ≤ a)
    | _, _ => false

/-- 0x92: the integrator window (R516). -/
def check92 (m : Image) : Bool :=
  anyOut m [Fld.integSlots, Fld.eLo, Fld.eHi] ||
    (con m Fld.integEn [] &&
      (cnat m Fld.integSlots [] == 0 ||
        (List.range 4).any fun k => (cnat m Fld.integSlots []).testBit k && integBroken m k))

/-- 0x93: the scan mask (R493, R495, R507). -/
def check93 (m : Image) : Bool :=
  let k := cnat m Fld.scanMask []
  let d := cnat m Fld.diff []
  anyOut m [Fld.scanMask, Fld.diff] || k / 4096 != 0xFFFF ||
    (List.range 6).any (fun i => d.testBit i && k.testBit (2 * i + 1)) ||
    (con m Fld.integEn [] && (k % 4 != 0 || d.testBit 0))

/-! ### PINS -/

/-- A pin has function 0 and OE = 1. -/
def gpioOut (m : Image) (p : Nat) : Bool :=
  cnat m Fld.mux [p] == 0 && con m Fld.oe [p]

/-- 0xA0: pin fields (Table 14.5). -/
def checkA0 (m : Image) : Bool :=
  badSection m 10 ||
    anyOut m [Fld.mux, Fld.owner, Fld.oe, Fld.dataInit, Fld.inv, Fld.od, Fld.pull, Fld.drive, Fld.slew, Fld.ht,
      Fld.wake, Fld.intKind, Fld.intFilt, Fld.supAct, Fld.i2cMode, Fld.i2cReg] ||
    (m.givens Fld.i2cAddr).any (fun x => x.2 != 0 && (decide (x.2 < 8) || decide (0x77 < x.2))) ||
    (List.range 48).any fun p =>
      (con m Fld.ht [p] && !gpioOut m p) ||
        (con m Fld.wake [p] && (decide (7 < p) || cnat m Fld.intKind [p] == 0))

/-- The pins of a port. -/
def evpPinsOf (m : Image) (k : Nat) : List Nat :=
  (List.range 48).filter fun p => (cnat m Fld.evpPins [k]).testBit p

/-- 0xA1: the multiplexer (Tables 14.1, 14.5, R549). -/
def checkA1 (m : Image) : Bool :=
  let mux := fun p => cnat m Fld.mux [p]
  let scl := (List.range 48).filter fun p => mux p == 4
  let sda := (List.range 48).filter fun p => mux p == 5
  (List.range 48).any (fun p => decide (6 ≤ mux p)) ||
    !(scl == [] && sda == [] || scl == [8] && sda == [9] || scl == [32] && sda == [33]) ||
    (!scl.isEmpty && cnat m Fld.i2cMode [] == 0) ||
    (cnat m Fld.injSrc [] == 2 &&
      (let p := cnat m Fld.injPin []
       mux p != 0 || con m Fld.oe [p] || !([1, 2, 3] : List Nat).contains (cnat m Fld.intKind [p]))) ||
    (List.range 16).any fun k => (evpPinsOf m k).any fun p =>
      mux p == 4 || mux p == 5 || (mux p == 0 && !con m Fld.oe [p])

/-- 0xA2: owners (Table 14.5). -/
def checkA2 (m : Image) : Bool :=
  (List.range 48).any (fun p =>
      ((cnat m Fld.mux [p] == 4 || cnat m Fld.mux [p] == 5) && cnat m Fld.owner [p] != 1) ||
        (cnat m Fld.supAct [p] != 0 && !(cnat m Fld.owner [p] == 1 && gpioOut m p))) ||
    (List.range 16).any fun k =>
      decide (2 ≤ cnat m Fld.evpMode [k]) && (evpPinsOf m k).any fun p =>
        cnat m Fld.owner [p] != 2 || cnat m Fld.mux [p] != 0

/-- 0xA3: event ports (Table 14.5, R541), 40 µs being 8,000 units. -/
def checkA3 (m : Image) : Bool :=
  anyOut m [Fld.evpMode, Fld.evpPins, Fld.evpDelay, Fld.evpWunit] ||
    (rangeWhere m Fld.evpWidth noPlace fun l v => v != 0 || cnat m Fld.evpMode l == 1).any (·.1) ||
    (m.givens Fld.eviMap).any (fun x => x.2 != 255 && decide (47 < x.2)) ||
    (List.range 16).any (fun k =>
      (cnat m Fld.evpMode [k] != 0 && cnat m Fld.evpPins [k] == 0) ||
        (let d := cnat m Fld.evpDelay [k]
         d != 0 && whenKnown (cTlMin m) fun t => decide ((d - 1) * t ≤ 8000))) ||
    (List.range 8).any fun j =>
      let p := cnat m Fld.eviMap [j]
      decide (p < 48) && cnat m Fld.intKind [p] == 0

/-! ### FAULT and the whole -/

/-- 0xB0: WD_TIMEOUT (Table 16.11). -/
def checkB0 (m : Image) : Bool :=
  badSection m 11 || anyOut m [Fld.wdTimeout] || (m.givens Fld.wdTimeout).any fun x => x.1 == [1]

/-- Every fit check with its code, in ascending order (R574, Table 16.12). -/
def fitChecks (m : Image) (slot : Nat) (keep : Bool) (s : State) : List (Nat × Option RefuseAt) :=
  let plain := List.map fun (x : Nat × Bool) => (x.1, broken x.2)
  plain [(0x10, check10 m), (0x11, check11 m), (0x12, check12 m), (0x13, check13 m), (0x20, check20 m),
    (0x21, check21 m), (0x22, check22 m), (0x23, check23 m), (0x30, check30 m), (0x31, check31 m), (0x32, check32 m)] ++
  fabricChecks m slot keep s ++
  plain ([(0x60, check60 m), (0x61, overRate m 36000000), (0x62, check62 m), (0x63, check63 m)] ++ netChecks m ++
    [(0x80, check80 m), (0x90, check90 m), (0x91, check91 m), (0x92, check92 m), (0x93, check93 m), (0xA0, checkA0 m),
     (0xA1, checkA1 m), (0xA2, checkA2 m), (0xA3, checkA3 m), (0xB0, checkB0 m)])

/-- The lowest code of a list of checks that refuses, 0 for none. -/
def lowestCode (l : List (Nat × Option RefuseAt)) : Nat × RefuseAt :=
  match l.find? fun x => x.2.isSome with
  | none => (0, RefuseAt.reset)
  | some (c, p) => (c, { p.getD RefuseAt.reset with reason := c })

/-- The fit checks of the image of a slot: its code, 0 where it is accepted, and FAB.REFUSE_AT (R574, R577, R329);
`keep`: part 1 of WREN was not read (R619). -/
def fitCode (m : Image) (slot : Nat) (keep : Bool) (s : State) : Nat × RefuseAt :=
  lowestCode (fitChecks m slot keep s)

/-- The NET checks alone, which choose the SAFE addresses (Edges of "Fit checks and staging"). -/
def netFitCode (m : Image) : Nat :=
  (lowestCode ((netChecks m).map fun x => (x.1, broken x.2))).1

end Sys2Proof.Machine
end

