-- ==== Sys2Proof/Machine/Boot.lean ====
section
/-! DEFINITION. The boot stages, the choice and the authentication of a slot, the COMMIT edge, RUN and SAFE
(R562 to R592), the image checks of NVM_VERIFY (R640), and the snapshot commit that admits waiting requests. -/

namespace Sys2Proof.Machine

/-- The boot can go on: BOOT, RESET_N high, supervisor and SEC running. -/
def booting (s : State) : Bool :=
  s.sys.code == .boot && !s.sys.resetNLow && !s.sys.supResetting && !s.sec.resetting

/-- The boot stands at a stage. -/
def atStage (n : Nat) (s : State) : Bool :=
  booting s && s.boot.stage == n

/-- The boot reaches a stage (R562). -/
def toStage (n : Nat) (s : State) : State :=
  { s with boot := { s.boot with stage := n } }

/-- BOOT_TIME.MS10 at the present moment (R592). -/
def bootMs10 (s : State) : Nat :=
  Nat.min ((s.now - s.boot.origin) / 20000) 0xFFFF

/-- DATA of a BOOT record (Table 18.10). -/
def bootData (s : State) : List Byte :=
  [BitVec.ofNat 8 s.boot.slot,
   BitVec.ofNat 8 (bit s.boot.fallback + 2 * bit s.boot.ptrNone + 4 * bit s.boot.safeLatch + 8 * bit s.boot.retained),
   s.boot.reasonA, s.boot.reasonB] ++ le 2 s.boot.timeMs10 ++ [BitVec.ofNat 8 (stateCode s.sys.code)]

/-- A boot ends in RUN or SAFE: BOOT_TIME and the BOOT record (R592, Table 18.10). -/
def endBoot (c : DevState) (s : State) : State :=
  let s := enter c { s with boot := { s.boot with timeMs10 := bootMs10 s } }
  logOther 6 0 (bootData s) s

/-- The device enters SAFE after a refusal or with an unreadable flash: staged contents discarded, data-path
domains off, SAFE addresses, ring identity none (R568, R581, R589, R590). -/
def safeRefused (s : State) : State :=
  let s := { s with
    img := Image.reset
    boot := { s.boot with staged := Image.reset, edgeReady := false, headerOk := false, sigOk := false }
    sys := { s.sys with safeKind := .refusal } }
  endBoot .safe (starSafe (netSafe (hkcSafe (sprOff (pixOff (fabOff s))))))

/-- SELF_TEST_DONE ends stage 0x2 (R562). -/
def execSelfTestDone (s : State) : Host.Outcome State Fault Refusal :=
  if booting s ∧ s.boot.stage ≤ 2 then .next (toStage (if s.sys.spllLocked then 4 else 3) s) else .next s

/-- SPLL_LOCK: the supervisor clock takes SPLL and the derived clocks run (R66), the ports are active again
where the reference had gone (Table 12.6); a boot at stage 0x3 goes on. -/
def execSpllLock (s : State) : Host.Outcome State Fault Refusal :=
  if inState [.off] s ∨ s.sys.supHalted then .next s
  else
    let t := rebase s
    let t := { t with sys := { t.sys with refclk := true, spllLocked := true, supOnSpll := true } }
    let t := if s.sys.refclk ∨ inState [.boot, .sleep] s ∨ s.star.pvOut then t else wantMode false t
    .next (if atStage 3 t then toStage 4 t else t)

/-- SPLL_LOCK_RETRY at stage 0x3 (R562, Edges of "The boot stages"). -/
def execSpllLockRetry (s : State) : Host.Outcome State Fault Refusal :=
  if atStage 3 s ∧ s.sys.spllLocked = false then
    .next { s with sys := { s.sys with lockRetries := s.sys.lockRetries + 1 } }
  else .next s

/-- The flash fails R565 or R566 (R568). -/
def flashUnreadable (s : State) : State :=
  safeRefused (report 0xA003 s)

/-- FLASH_IDLE at stage 0x4 (R565). -/
def execFlashIdle (s : State) : Host.Outcome State Fault Refusal :=
  if atStage 4 s then .next { s with boot := { s.boot with flashReady := true } } else .next s

/-- FLASH_BUSY_TIMEOUT at stage 0x4 (R565, R568). -/
def execFlashBusyTimeout (s : State) : Host.Outcome State Fault Refusal :=
  if atStage 4 s ∧ s.boot.flashReady = false then .next (flashUnreadable s) else .next s

/-- What R566 requires of the flash. -/
def sfdpOk (t : Sfdp) : Bool :=
  t.headerOk && decide (512 ≤ t.densityMbit) && t.quadRead && t.quadProgram && t.erase4k && t.quadEnable

/-- SFDP_CHECKED at stage 0x4 (R566 to R568). -/
def execSfdpChecked (t : Sfdp) (s : State) : Host.Outcome State Fault Refusal :=
  if atStage 4 s ∧ s.boot.flashReady then
    if sfdpOk t then
      .next (toStage (if s.boot.cold then 5 else 6)
        { s with nvm := { s.nvm with density := t.densityMbit / 8, quad := true } })
    else .next (flashUnreadable s)
  else .next s

/-- LOG_MAPS_RESTORED at stage 0x5, after POR only (R562, R684). -/
def execLogMapsRestored (s : State) : Host.Outcome State Fault Refusal :=
  if atStage 5 s then .next (toStage 6 (restoreRing (reportAll (snapshotReports s.flash) (restoreMaps s)))) else .next s

/-- POINTER_READ at stage 0x6 (R569). -/
def execPointerRead (s : State) : Host.Outcome State Fault Refusal :=
  if atStage 6 s then
    let p := pointerInForce s.flash
    let slot := (p.map fun x => x.2.1).getD 0
    .next (toStage 7 (showPointer { s with boot := { s.boot with
      slot := slot, pointed := slot, ptrNone := p.isNone } }))
  else .next s

/-- The reason of the slot in hand is recorded (R571). -/
def recordReason (code : Nat) (b : Boot) : Boot :=
  if b.slot = 0 then { b with reasonA := BitVec.ofNat 8 code } else { b with reasonB := BitVec.ofNat 8 code }

/-- The NET items a refused image offers for the SAFE addresses (R589). -/
def offerNet (s : State) : Boot :=
  if s.boot.sigOk ∧ 8 < s.boot.nextSect ∧ netFitCode s.boot.staged = 0 then
    { s.boot with safeNet := some (s.boot.staged.items.filter fun i => i.id / 256 = 7) }
  else s.boot

/-- A slot is refused: class 0x90, its reason, then the other slot once after a boot-stage code, else SAFE
(R570, R571). -/
def refuseSlot (code : Nat) (s : State) : State :=
  let s := report (faultCode 0x90 code) { s with boot := recordReason code (offerNet s) }
  if code < 0x10 ∧ s.boot.tried = false then
    { s with boot := { s.boot with
      stage := 7
      tried := true
      slot := 1 - s.boot.slot
      headerOk := false
      sigOk := false
      keeping := false
      tagged := false
      checked := []
      part1Due := false
      nextSect := 0
      staged := Image.reset } }
  else safeRefused s

/-- The retention tag lets the boot skip the resident contents (R587, R290). -/
def tagMatches (m : Image) (s : State) : Bool :=
  s.boot.warm && s.fab.wcnt.rtagValid && s.fab.wcnt.rtag == m.digest

/-- HEADER_CHECKED at stage 0x7: codes 0x01 to 0x05 (R573 to R575). -/
def execHeaderChecked (s : State) : Host.Outcome State Fault Refusal :=
  if atStage 7 s then
    let c := headerCode s.flash s.otp s.boot.slot
    if c = 0 then
      let m := headerImage s.flash s.boot.slot
      .next (toStage 8 { s with boot := { s.boot with
        headerOk := true, nextSect := 1, staged := m, tagged := tagMatches m s, keeping := tagMatches m s } })
    else .next (refuseSlot c s)
  else .next s

/-- Every used Wren has passed the retention check of a boot that keeps the resident regions (R290). -/
def retentionDone (s : State) : Bool :=
  !s.boot.keeping || (usedPerches s.boot.staged s).all fun p => s.boot.checked.contains p.val

/-- Signature, sections and retention are complete: the fit checks follow (R562, R575 Edges). -/
def toFit (s : State) : State :=
  if s.boot.sigOk ∧ s.boot.nextSect = 13 ∧ s.boot.part1Due = false ∧ retentionDone s then toStage 9 s else s

/-- SIGNATURE_VERIFIED at stage 0x8: codes 0x06 and 0x07 (R606, R608). -/
def execSignatureVerified (s : State) : Host.Outcome State Fault Refusal :=
  if atStage 8 s ∧ s.boot.sigOk = false then
    let c := signatureCode s.flash s.otp s.boot.slot
    if c = 0 then .next (toFit { s with boot := { s.boot with sigOk := true } }) else .next (refuseSlot c s)
  else .next s

/-- Codes 0x08 and 0x09 over the whole section table; part 1 of WREN is exempt while it is skipped (R574, R619). -/
def sectionsCode (flash : List Host.Cell) (slot : Nat) (skip : Bool) (t : List SectEntry) : Nat :=
  let cs := (t.filter fun e => !(skip && e.typ = 5 && e.part = 1)).map (sectionCode flash slot)
  if cs.contains 8 then 8 else if cs.contains 9 then 9 else 0

/-- The next section to read: part 1 of WREN again after a failed retention check, else in table order. -/
def dueSection (s : State) : Nat :=
  if s.boot.nextSect = 13 ∧ s.boot.part1Due then 6 else s.boot.nextSect

/-- A section that fails is refused with the lowest code the slot breaks (R574). -/
def refuseSection (s : State) : State :=
  let c := if s.boot.sigOk then 0 else signatureCode s.flash s.otp s.boot.slot
  if c ≠ 0 then refuseSlot c s
  else refuseSlot (sectionsCode s.flash s.boot.slot s.boot.keeping s.boot.staged.table)
    { s with boot := { s.boot with sigOk := true } }

/-- A section has streamed and checked: it is staged (R575, R578). -/
def stageOne (k : Nat) (e : SectEntry) (s : State) : State :=
  let skip := k = 6 && s.boot.keeping
  let m := stageSection s.flash s.boot.slot e s.boot.staged
  let s := { s with boot := { s.boot with
    staged := m
    nextSect := if s.boot.nextSect = 13 then 13 else k + 1
    part1Due := if k = 6 then false else s.boot.part1Due } }
  if k = 6 && !skip then stageResident m s.boot.slot s else s

/-- SECTION_STREAMED at stage 0x8 (R575, R619). -/
def execSectionStreamed (s : State) : Host.Outcome State Fault Refusal :=
  let k := dueSection s
  if atStage 8 s = false ∨ 13 ≤ k then .next s
  else
    let e := s.boot.staged.table.getD k SectEntry.reset
    if (k = 6 && s.boot.keeping) = false ∧ sectionCode s.flash s.boot.slot e ≠ 0 then .next (refuseSection s)
    else .next (toFit (stageOne k e s))

/-- FIT_CHECKS_DONE at stage 0x9 (R577, R570, Table 18.7): accepted, or SAFE; `upset`: the staging store has an
uncorrectable error, which refuses the slot with code 0x08 (Edges of "Fit checks and staging"). -/
def execFitChecksDone (s : State) (upset : Bool := false) : Host.Outcome State Fault Refusal :=
  if atStage 9 s ∧ s.boot.edgeReady = false ∧ upset then .next (refuseSlot 8 s)
  else if atStage 9 s ∧ s.boot.edgeReady = false then
    let (c, at_) := fitCode s.boot.staged s.boot.slot s.boot.keeping s
    let s := if c = 0 ∨ (0x40 ≤ c ∧ c ≤ 0x50) then { s with fab := { s.fab with refuseAt := at_ } } else s
    if c = 0 then
      let hot := decide (85 * 16 ≤ s.hkc.stack)
      let m := s.boot.staged
      let s := { s with boot := { s.boot with
        edgeReady := true
        fallback := s.boot.tried
        retained := s.boot.keeping
        safeLatch := s.boot.safeLatch || hot
        staged := { m with rowSums := (List.range 8).map (rowSum m.items) } } }
      .next (if hot then logOther 7 0 (thermalData s 6) s else s)
    else .next (refuseSlot c s)
  else .next s

/-- The counters of SYS, FLT and NVM that COMMIT zeroes (R580, R634, Table 18.6). -/
def zeroCounters (s : State) : State :=
  { s with
    sys := { s.sys with
      funcCount := 0, mntAccepted := 0, mntBad := 0, mntStale := 0, mntDropped := 0, otpFail := 0 }
    flt := { s.flt with evtDrop := 0, summaryLost := 0, classCount := [] }
    nvm := { s.nvm with erased := 0, programmed := 0 } }

/-- The sections SAFE after an accepted image applies: NET, STARLING, HKC, PINS, FAULT (R588). -/
def safeImage (m : Image) : Image :=
  { m with items := m.items.filter fun i => decide (7 ≤ i.id / 256) }

/-- COMMIT_EDGE: one AON edge applies the whole staged image and enters COMMIT (R580); with SAFE_LATCH set it
applies only what SAFE needs, zeroes the counters of every block, and enters SAFE with the data path off (R588). -/
def execCommitEdge (s : State) : Host.Outcome State Fault Refusal :=
  if atStage 9 s ∧ s.boot.edgeReady then
    let m := s.boot.staged
    let s := zeroCounters { s with boot := { s.boot with
      stage := 10, staged := Image.reset, edgeReady := false } }
    if s.boot.safeLatch then
      let s := { s with img := safeImage m, sys := { s.sys with safeKind := .accepted } }
      let s := starCommit (netCommit (ptpCommit (hkcCommit (gpioCommit s))))
      let s := sprCommit (fabCommit (pixCommit (ltCommit s)))
      .next (endBoot .safe (sprOff (pixOff (fabOff (gpioSafe s)))))
    else
      let s := { s with img := m }
      let s := starCommit (netCommit (ptpCommit (hkcCommit (gpioCommit s))))
      .next (enter .commit (sprCommit (fabCommit (pixCommit (ltCommit s)))))
  else .next s

/-- A WARM reset the supervisor made for a function leads to RUN: the 600 s of R645 begin. -/
def watchRun (now : Nat) (w : FuncWd) : FuncWd :=
  { w with warmRun := if w.bySupWarm then some now else w.warmRun, bySupWarm := false }

/-- COMMIT_DONE: the data path is up and the device enters RUN at stage 0xB (R562, R582). -/
def execCommitDone (s : State) : Host.Outcome State Fault Refusal :=
  if s.sys.code = .commit ∧ supRuns s then
    let s := toStage 11 (sprRun (fabRun (pixRun s)))
    .next (endBoot .run { s with sys := { s.sys with wd := s.sys.wd.map (watchRun s.now) } })
  else .next s

/-- The retention check of perch `p` is due: the signature has verified, the tag matches the digest, the WREN section is
staged, and the Wren is used and not yet checked (R287, R288, R587). -/
def retentionDue (p : Fin 72) (s : State) : Bool :=
  atStage 8 s && s.boot.sigOk && s.boot.tagged && decide (5 < s.boot.nextSect) &&
    (usedPerches s.boot.staged s).contains p && !s.boot.checked.contains p.val

/-- A Wren of the boot's retention check is done. -/
def checkedOff (p : Fin 72) (b : Boot) : Boot :=
  { b with checked := b.checked ++ [p.val] }

/-- One Wren fails the retention check: part 1 is read as after a PIN reset (R587). -/
def keepNone (b : Boot) : Boot :=
  { b with keeping := false, part1Due := if b.keeping then decide (6 < b.nextSect) else b.part1Due }

/-- RETENTION_CHECK_DONE of a perch in a boot whose retention tag matches: `found` are the words in which the reads meet an
error; no uncorrectable word and every region CRC equal to RGN_CRC pass (R288, R290, R292, R587). -/
def execRetentionCheckDone (p : Fin 72) (found : List (Nat × Ecc)) (s : State) : Host.Outcome State Fault Refusal :=
  if retentionDue p s then
    let t := retentionReads s.boot.staged p found s
    if retentionOk s.boot.staged p t then .next (toFit { t with boot := checkedOff p t.boot })
    else .next { retentionFailed p t with boot := keepNone (checkedOff p t.boot) }
  else .next s

/-! ### NVM_VERIFY and snapshots -/

/-- The first reason code a slot breaks, boot-stage and fit checks alike, 0 for none (R574, R640). -/
def slotCode (slot : Nat) (s : State) : Nat :=
  let c := headerCode s.flash s.otp slot
  if c ≠ 0 then c
  else
    let c := signatureCode s.flash s.otp slot
    if c ≠ 0 then c
    else
      let m := headerImage s.flash slot
      let c := sectionsCode s.flash slot false m.table
      if c ≠ 0 then c
      else (fitCode (m.table.foldl (fun m e => stageSection s.flash slot e m) m) slot false s).1

/-- NVM.VERIFY and VERIFIED of a slot take a result (R640). -/
def setVerify (slot code : Nat) (n : Nvm) : Nvm :=
  if slot = 0 then { n with reasonA := BitVec.ofNat 8 code, verifiedA := code = 0 }
  else { n with reasonB := BitVec.ofNat 8 code, verifiedB := code = 0 }

/-- NVM_VERIFY_DONE (R640); the checks do not end while the SEC context resets (R106). -/
def execNvmVerifyDone (s : State) : Host.Outcome State Fault Refusal :=
  match s.nvm.busy with
  | some c =>
    match c.todo with
    | .verify slot =>
      if s.sec.resetting then .next s
      else
      let k := slotCode slot s
      .next (endSession c (if k = 0 then 0 else 6) (le 1 k) { s with nvm := setVerify slot k s.nvm })
    | _ => .next s
  | none => .next s

end Sys2Proof.Machine
end

