-- ==== Sys2Proof/Machine/Repair.lean ====
section
/-! DEFINITION. The column repair: the gap, the reload of the spare perches, the new column map and the return
(R115 to R119, R245 to R248). -/

namespace Sys2Proof.Machine

/-- The islands of a column are powered or not. -/
def powerColumn (c : Nat) (on : State → Fin 72 → Bool) (s : State) : State :=
  { s with fab := { s.fab with perch := Vector.ofFn fun p =>
    let x := s.fab.perch[p]
    if p.val % 9 = c then { x with powered := on s p } else x } }

/-- REPAIR_START: at the first beat start after a finding of R115, or at once in HOLD, the device enters REPAIR: beats
stop, the column of the failed perch is powered down and the spare islands are powered (R245 steps 1 and 2). A
finding of the check tithe degrades no longer (Table 3.1). -/
def execRepairStart (s : State) : Host.Outcome State Fault Refusal :=
  match s.fab.findings with
  | [] => .next s
  | n :: _ =>
    if inState [.run, .hold] s = false ∨ supRuns s = false ∨ s.fab.repair.isSome then .next s
    else
      let c := n % 9
      let s := unstand (faultCode 0x10 n) (unstand (faultCode 0x10 (128 + n)) s)
      let s := skipBeats true false (stopBeats (enter .repair s))
      let s := powerColumn 8 rowUsed (powerColumn c (fun _ _ => false) s)
      .next { s with
        pix := { s.pix with ingress := [] }
        fab := { s.fab with
          repair := some { Repair.reset with column := c, perch := n, started := s.now }
          repairLine := s.lt.line } }

/-- The items of FABRIC and WREN part 0 as the running slot holds them now (R245 step 3). -/
def reloadItems (s : State) : List Item :=
  [4, 5].flatMap fun i =>
    let e := s.img.table.getD i SectEntry.reset
    (parseItems e.typ e.len none (sectionBytes s.flash s.boot.slot e)).1

/-- The row sums of the used rows are those kept at load (R617). -/
def rowSumsOk (s : State) : Bool :=
  let l := reloadItems s
  s.img.rows.all fun r => rowSum l r == s.img.rowSums.getD r 0

/-- The spare perches of the used rows. -/
def spares (s : State) : List (Fin 72) :=
  (List.finRange 8).filterMap fun r => if s.img.rows.contains r.val then some (sparePerch r) else none

/-- The spare perches whose retention check of step 4 fails are counted (R245, R292). -/
def countRetention (s : State) : State :=
  ((spares s).filter fun p => !retentionOk s.img p s).foldl (fun t p => retentionFailed p t) s

/-- REPAIR_RELOAD_DONE: after the self-test of step 2 passed, steps 3 and 4 end; `flashOk` says that the flash served the
reads. The moulds are checked against the row sums and the resident regions by a retention check; then the AON map and the
log record of R118 are written (R245 step 5). A second failure is class 0xA0 instance 0x03 and a FLT reset (Edges of
"Column repair and the second fault"). -/
def execRepairReloadDone (flashOk : Bool) (s : State) : Host.Outcome State Fault Refusal :=
  match s.fab.repair with
  | none => .next s
  | some r =>
    if s.sys.code ≠ .repair ∨ supRuns s = false ∨ r.tested = false ∨ r.aborted ∨ r.loaded then .next s
    else
      let t := countRetention ((spares s).foldl (fun t p => loadWren s.img s.boot.slot p t) s)
      let t := onWCnt (fun c => { c with reloading := anyRewriting s }) t
      if flashOk = false ∨ rowSumsOk s = false ∨ ((spares s).all fun p => retentionOk s.img p t) = false then
        .next (startReset 5 0xA003 false (report 0xA003 t))
      else
        let t := { t with fab := { t.fab with repair := some { r with loaded := true } } }
        .next (wantSnapshot (logOther 3 0
          [BitVec.ofNat 8 r.column, BitVec.ofNat 8 r.perch, BitVec.ofNat 8 (bit t.fab.spareOk)] t))

/-- The log record and the map of a repair have been committed (R118, R245 step 5). -/
def repairCommitted (s : State) : Bool :=
  !s.log.snapPending && s.log.queue.all fun r => r.kind != 3

/-- REPAIR_MAP_APPLY: between two beats the new column map applies on every row, and everything that streams is
cleared (R245 step 6, R206). The failed perch no longer matters (Edges of "Column repair"). -/
def execRepairMapApply (s : State) : Host.Outcome State Fault Refusal :=
  match s.fab.repair with
  | none => .next s
  | some r =>
    if s.sys.code ≠ .repair ∨ supRuns s = false ∨ r.loaded = false ∨ r.applied ∨ repairCommitted s = false then .next s
    else
      let s := { s with
        fab := { s.fab with
          bypass := some r.column
          repairAvail := false
          findings := []
          repair := some { r with applied := true } }
        flt := { s.flt with titheFound := [] } }
      .next (clearFinches (clearRunners (zeroStreaming s.img s)))

/-- The last trigger lies HOLD_DELAY ms back (R245 step 7). -/
def holdDue (s : State) : Bool :=
  match s.lt.lastTrig with
  | none => true
  | some t => decide (t + ms (s.img.nat Fld.holdDelay []) ≤ s.now)

/-- The newest element of a list alone. -/
def newestOnly {α : Type} (l : List α) : List α :=
  l.drop (l.length - 1)

/-- REPAIR_GAP_END: the gap ends with the new map, or with the original one when the spare self-test failed: RUN at a
beat start, else HOLD; the next beat is a fabric restart, before which everything that streams is cleared (R116, R245 step
7, R247, R289, R319). -/
def execRepairGapEnd (s : State) : Host.Outcome State Fault Refusal :=
  match s.fab.repair with
  | none => .next s
  | some r =>
    if s.sys.code ≠ .repair ∨ supRuns s = false ∨ (r.applied = false ∧ r.aborted = false) then .next s
    else
      let hold := holdDue s
      let s := { s with fab := { s.fab with
        repair := none
        findings := []
        repairLong := if r.started + ms 80 < s.now then satInc 32 s.fab.repairLong else s.fab.repairLong } }
      let s := fabricRestart (skipBeats true (!hold) (clearFinches (clearRunners (zeroStreaming s.img s))))
      let s := { s with pix := { s.pix with ingress := if hold then [] else newestOnly s.pix.ingress } }
      .next (if hold then enter .hold (ltHold (sprHold s)) else enter .run s)

end Sys2Proof.Machine
end

