-- ==== Sys2Proof/Machine/Regs.lean ====
section
/-! DEFINITION. The maintenance address space: the value of every register of Table 17.4, READ and its latches, WRITE and
the writable subset of Table 17.5. -/

namespace Sys2Proof.Machine

/-- A register word of its fields, each as (low bit, width, value); unnamed bits are 0 (R25). -/
def pack (l : List (Nat × Nat × Nat)) : Nat :=
  l.foldl (fun acc f => acc + f.2.2 % 2 ^ f.2.1 * 2 ^ f.1) 0

/-- A single-bit field. -/
def flag (i : Nat) (b : Bool) : Nat × Nat × Nat :=
  (i, 1, bit b)

/-- Entry `i` of a vector, when there is one. -/
def vget? {α : Type} {n : Nat} (v : Vector α n) (i : Nat) : Option α :=
  if h : i < n then some v[i] else none

/-- An IPv4 address with its first octet in [7:0] (Tables 17.8, 17.9). -/
def ipReg (ip : BitVec 32) : Nat :=
  ofBe (le 4 ip.toNat)

/-- Word `k` of a digest: bytes 4k to 4k + 3, byte 4k in [7:0] (Tables 7.5, 12.8). -/
def digestWord (d : BitVec 256) (k : Nat) : Nat :=
  field (digestBytes d) (4 * k) 4

/-- SYS (Tables 17.6, 15.9). -/
def sysReg (s : State) (off : Nat) : Nat :=
  let y := s.sys
  let b := s.boot
  match off with
  | 0x00 => pack [(0, 16, 0x0384), (16, 8, 0xB1)]
  | 0x04 => pack [(0, 4, stateCode y.code), (4, 4, stateCode y.prev)]
  | 0x08 => pack [(0, 4, y.cause), (4, 4, stateCode y.lastState), flag 8 y.bySup, (16, 16, y.resetFault.toNat)]
  | 0x0C => y.bootCount
  | 0x10 => pack [(0, 1, b.slot), flag 1 b.fallback, flag 2 b.ptrNone, flag 3 b.safeLatch, (8, 8, b.reasonA.toNat),
      (16, 8, b.reasonB.toNat), (24, 4, b.stage)]
  | 0x14 => pack [(0, 16, b.timeMs10), flag 16 b.retained]
  | 0x18 => pack [(0, 5, y.funcBusy.toNat), (16, 16, y.funcCount)]
  | 0x20 => y.mntAccepted
  | 0x24 => y.mntBad
  | 0x28 => y.mntStale
  | 0x2C => y.mntDropped
  | 0x30 => bits y.hseq 0 32
  | 0x34 => y.hseqHi
  | 0x38 => pack [(0, 16, y.pwrcycRequests), (16, 16, y.pwrcycNotTaken)]
  | 0x3C => y.otpFail
  | _ => 0

/-- FLT (Table 17.7). -/
def fltReg (s : State) (off : Nat) : Nat :=
  let f := s.flt
  if 0x100 ≤ off then
    let n := (off - 0x100) / 4
    if 1 ≤ n ∧ n ≤ 0xB0 then classCount s n else 0
  else
    match off with
    | 0x00 => pack [flag 0 f.woViolation, flag 1 f.summaryValid]
    | 0x04 => f.summaryCode.toNat
    | 0x08 => bits f.ldet 0 32
    | 0x0C => f.ldetHi
    | 0x10 => bits f.lsus 0 32
    | 0x14 => f.lsusHi
    | 0x18 => f.woCount
    | 0x1C => f.evtDrop
    | 0x20 => f.summaryLost
    | 0x24 => s.log.logNext
    | 0x28 => s.log.logFirst
    | _ => 0

/-- LEDGER (Table 10.12). -/
def ledgerReg (s : State) (off : Nat) : Nat :=
  let r := s.spr
  match off with
  | 0x00 => bits r.lastLine 0 32
  | 0x04 => r.lastLineHi
  | 0x08 => r.uninspLines
  | 0x0C => r.recDrops
  | 0x10 => r.cropsSent
  | 0x14 => r.cropsWithheld
  | 0x18 => r.seamMerged
  | 0x1C => r.seamUnmerged
  | 0x20 => r.attrDiscard
  | 0x24 => bits r.roiCredit 0 19
  | _ => 0

/-- An image is in force whose every field the registers show; in SAFE the image fields of COPE and FAB have none. -/
def imageShown (s : State) : Bool :=
  s.img.valid && !inState [.safe] s

/-- The enabled fields. -/
def fieldEn (s : State) : Nat :=
  if imageShown s then s.img.slots.foldl (fun a k => a + 2 ^ k.val) 0 else 0

/-- The adaptation of some enabled field is frozen, or no image runs it (AFF_STATUS.FROZEN, reset 1). -/
def affHeld (s : State) : Bool :=
  fieldEn s == 0 || (List.range 4).any fun k => (fieldEn s).testBit k && s.pix.aff.frozen.getLsbD k

/-- Pixel, Ladle and line-timing registers, COPE (Tables 4.5, 5.3, 5.4). -/
def copeReg (s : State) (off : Nat) : Nat :=
  let x := s.pix
  let t := s.lt
  if 0x400 ≤ off ∧ off < 0x600 then
    match vget? x.subst ((off - 0x400) / 4) with
    | some m => pack [(0, 6, m.column), flag 6 m.valid, flag 7 m.shadowFault, flag 8 m.shared]
    | none => 0
  else if 0x10 ≤ off ∧ off < 0x20 then
    let k := (off - 0x10) / 4
    if (fieldEn s).testBit k then
      pack [(0, 16, (vget? x.darkL k).getD 0), (16, 16, (vget? x.darkR k).getD 0)]
    else 0
  else
    match off with
    | 0x000 => pack [(0, 4, fieldEn s), (4, 4, x.fieldLost.toNat), flag 8 (imageShown s && s.img.on Fld.bin [])]
    | 0x004 => pack [(0, 6, x.stages[0]), (8, 6, x.stages[1]), (16, 6, x.stages[2]), (24, 6, x.stages[3])]
    | 0x020 => pack [(0, 6, popcount 32 x.exclL), (8, 6, popcount 32 x.exclR), flag 16 x.fallback]
    | 0x024 => x.substCount
    | 0x030 => pack [flag 0 (affHeld s), flag 1 (x.aff.thawing != 0), flag 2 x.aff.limitSticky]
    | 0x034 => maxOf x.aff.thawLeft.toList
    | 0x038 => x.aff.skip
    | 0x040 => x.histScrub
    | 0x044 => x.regMissing
    | 0x800 => pack [flag 0 t.stopped, flag 1 s.star.encMaster, flag 2 (t.clampHist.any id), flag 3 (t.deficit != 0),
        flag 4 t.encErrSticky]
    | 0x804 => bits t.period 0 24
    | 0x808 => t.deferred
    | 0x80C => t.merged
    | 0x810 => t.encErr
    | 0x814 => t.deficit
    | 0x818 => bits t.enczLine 0 32
    | 0x81C => t.enczHi
    | 0x820 => t.enczExtra
    | _ => 0

/-- ISLANDp (Table 6.6); an unpowered island reads FREQ 0. -/
def islandReg (x : Perch) : Nat :=
  pack [(0, 11, if x.powered then x.freq else 0), flag 11 x.belowFloor, flag 12 x.powered,
    flag 13 (x.finch.lag != 0), flag 14 x.failed]

/-- FAB (Tables 6.6, 8.6, 9.6). -/
def fabReg (s : State) (off : Nat) : Nat :=
  let f := s.fab
  let c := f.cnt
  let a := f.refuseAt
  if 0x100 ≤ off then
    match vget? f.perch ((off - 0x100) / 4) with
    | some x => islandReg x
    | none => 0
  else
    match off with
    | 0x00 => pack [(0, 4, f.bypass.getD 15), flag 8 f.spareOk, flag 9 f.repairAvail]
    | 0x04 => if imageShown s then bits (s.img.nat Fld.rowmask []) 0 8 else 0
    | 0x10 => c.overrun
    | 0x14 => c.titheSkip
    | 0x18 => c.titheMismatch
    | 0x1C => c.stallOver
    | 0x20 => c.parityResend
    | 0x24 => bits f.repairLine 0 32
    | 0x28 => f.repairLineHi
    | 0x2C => f.repairLong
    | 0x30 => pack [(0, 8, a.reason), (8, 3, a.row), (11, 3, a.mould), (14, 2, a.link), (16, 2, a.ch), (18, 4, a.item)]
    | 0x34 => c.spillTokens
    | 0x38 => c.watchSpills
    | 0x3C => c.riserDrops
    | 0x40 => bits c.riserPeak 0 16
    | 0x44 => c.creditResync
    | 0x48 => c.nbwHeld
    | 0x4C => c.voidPoison
    | 0x50 => pack [(0, 16, qFrac s false), (16, 16, qFrac s true)]
    | 0x54 => c.accSat
    | 0x58 => c.rqSat
    | 0x5C => c.fpSpecial
    | 0x60 => c.qpoisonExact
    | _ => 0

/-- The powered Wrens. -/
def poweredWrens (s : State) : List Wren :=
  (s.fab.perch.toList.filter (·.powered)).map (·.wren)

/-- Scrub passes that every powered Wren has completed (SCRUB_PASSES). -/
def scrubPasses (s : State) : Nat :=
  match (poweredWrens s).map (·.passes) with
  | [] => 0
  | n :: l => l.foldl Nat.min n

/-- WREN (Table 7.5). -/
def wrenReg (s : State) (off : Nat) : Nat :=
  let w := s.fab.wcnt
  if 0x100 ≤ off then
    match vget? s.fab.perch ((off - 0x100) / 4) with
    | some x => pack [(0, 8, x.wren.corr), (8, 8, x.wren.uncorr), flag 16 x.powered, flag 17 x.wren.retainFail]
    | none => 0
  else if 0x40 ≤ off ∧ off < 0x60 then digestWord w.rtag ((off - 0x40) / 4)
  else
    match off with
    | 0x00 => pack [flag 0 w.rtagValid, flag 1 w.retained, flag 2 w.reloading]
    | 0x04 => w.corr
    | 0x08 => w.uncorr
    | 0x0C => w.poisonReads
    | 0x10 => bits (scrubPasses s) 0 32
    | 0x14 => bits (maxOf ((poweredWrens s).map (·.lastUs))) 0 16
    | 0x18 => w.blocked
    | 0x1C => w.resReloads
    | 0x20 => w.retainFails
    | 0x24 => w.wbDropped
    | 0x28 => w.acSat
    | _ => 0

/-- A result as a register shows it, aligned under R498. -/
def shownResult (s : State) (r : Int) : Nat :=
  unsign 16 (if s.hkc.align then 16 * r else r)

/-- SLICEs (Table 13.7). -/
def sliceReg (x : Slice) : Nat :=
  pack [(0, 8, unsign 8 x.offset), (8, 8, unsign 8 x.gain), (16, 8, unsign 8 x.skew), flag 24 x.inService]

/-- HKC.DATA (Table 13.8). -/
def hkcDataReg (s : State) : Nat :=
  let d := s.hkc.data
  pack [(0, 16, shownResult s d.result), (16, 5, d.chan), flag 21 d.inj, flag 22 d.unsettled, flag 23 d.ovr,
    (24, 2, d.slice), flag 31 d.valid]

/-- HKC (Tables 13.7, 13.8). -/
def hkcReg (s : State) (off : Nat) : Nat :=
  let h := s.hkc
  if 0x30 ≤ off ∧ off < 0x3C then ((vget? h.slice ((off - 0x30) / 4)).map sliceReg).getD 0
  else if 0x40 ≤ off ∧ off < 0x50 then
    ((vget? h.slot ((off - 0x40) / 4)).map fun x => unsign 32 x.energy).getD 0
  else if 0x60 ≤ off ∧ off < 0x80 then
    ((vget? h.rail ((off - 0x60) / 4)).map fun x => pack [(0, 16, x.mv), flag 16 x.out]).getD 0
  else if 0x80 ≤ off ∧ off < 0x98 then
    ((vget? h.temp ((off - 0x80) / 4)).map fun x => pack [(0, 16, unsign 16 x.value), flag 16 x.excluded]).getD 0
  else
    match off with
    | 0x00 => pack [flag 0 h.refEn, flag 1 (refReady s), (2, 2, h.roleP), (4, 2, h.roleQ), (6, 2, h.roleC),
        flag 8 h.slice[0].inService, flag 9 h.slice[1].inService, flag 10 h.slice[2].inService, flag 11 h.integOn,
        flag 12 h.sleepScan]
    | 0x04 => hkcDataReg s
    | 0x08 => h.scanMask.toNat
    | 0x0C => pack [(0, 6, h.diff.toNat), flag 8 h.align, flag 9 h.refSel, flag 10 h.integEn,
        (12, 4, h.integSlots.toNat)]
    | 0x10 => h.ovr
    | 0x14 => h.passCount
    | 0x18 => bits h.passMax 0 24
    | 0x1C => pack [(0, 16, shownResult s h.injResult), (16, 8, h.injLine), (24, 5, h.injChan)]
    | 0x20 => h.injDrop
    | 0x24 => h.calPass
    | 0x28 => h.calFail
    | 0x50 => pack [flag 0 h.slot[0].out, flag 1 h.slot[1].out, flag 2 h.slot[2].out, flag 3 h.slot[3].out,
        flag 4 h.slot[0].sat, flag 5 h.slot[1].sat, flag 6 h.slot[2].sat, flag 7 h.slot[3].sat]
    | 0x54 => h.outCount
    | 0x98 => unsign 16 h.stack
    | 0x9C => bits h.refch 0 12
    | _ => 0

/-- CFGp (Table 14.7). -/
def cfgReg (x : Pin) : Nat :=
  pack [(0, 4, x.mux), (4, 2, x.owner), flag 6 x.oe, flag 7 x.od, (8, 2, x.pull), (10, 2, x.drive), flag 12 x.slew,
    flag 13 x.inv, flag 14 x.ht, flag 15 x.wake, (16, 3, x.intKind), (19, 4, x.intFilt)]

/-- A bank register: bit i is pin 24b + i (R561). -/
def bankReg (b : Fin 2) (f : Fin 48 → Bool) : Nat :=
  (List.finRange 24).foldl (fun a i => a + bit (f (bankPin b i)) * 2 ^ i.val) 0

/-- The registers of a pin bank (Table 14.7). -/
def bankRegs (s : State) (b : Fin 2) (off : Nat) : Nat :=
  match off with
  | 0x00 => bankReg b fun p => s.gpio.pin[p].data
  | 0x10 => bankReg b fun p => padLevel s p
  | 0x14 => bankReg b fun p => s.gpio.pin[p].intStatus
  | 0x18 => bankReg b fun p => s.gpio.pin[p].htValid
  | 0x1C => bankReg b fun p => s.gpio.pin[p].htLevel
  | _ => 0

/-- GPIO (Table 14.7). -/
def gpioReg (s : State) (off : Nat) : Nat :=
  let g := s.gpio
  if off < 0xC0 then ((vget? g.pin (off / 4)).map cfgReg).getD 0
  else if 0x100 ≤ off ∧ off < 0x120 then bankRegs s 0 (off - 0x100)
  else if 0x120 ≤ off ∧ off < 0x140 then bankRegs s 1 (off - 0x120)
  else if 0x240 ≤ off ∧ off < 0x280 then ((vget? g.evp ((off - 0x240) / 4)).map (·.count)).getD 0
  else if 0x284 ≤ off ∧ off < 0x294 then
    ((vget? g.boardTemp ((off - 0x284) / 4)).map fun t => pack [(0, 16, unsign 16 t.1), flag 16 t.2]).getD 0
  else
    match off with
    | 0x200 => g.foreignCount
    | 0x204 => pack [(0, 6, g.foreignPin), (6, 2, g.foreignAgent)]
    | 0x208 => g.pulseCut
    | 0x20C => g.retrig
    | 0x210 => g.intCount
    | 0x280 => pack [flag 0 g.i2cOk, flag 1 g.i2cStuck]
    | 0x294 => g.i2cNack
    | 0x298 => g.i2cTimeout
    | _ => 0

/-- The counters of one lane (Table 11.7). -/
def laneReg (x : Lane) (off : Nat) : Nat :=
  match off with
  | 0x00 => x.txLive
  | 0x04 => x.txRetrans
  | 0x08 => x.txNak
  | 0x0C => x.retryOk
  | 0x10 => x.retryBad
  | 0x14 => x.retryDropped
  | 0x18 => x.rxDrop
  | 0x1C => x.arpConflict
  | 0x20 => x.lockLoss
  | 0x24 => x.skipped
  | _ => 0

/-- The oldest SEQ the replay ring holds, 0 when it holds none. -/
def ringOldest (s : State) : Nat :=
  ((ringNow s).head?.map (·.seq)).getD 0

/-- A time in ticks as a signed 32-bit register of ns shows it (Table 11.7). -/
def nsReg (t : Int) : Nat :=
  unsign 32 (satInt 32 (t / perNs))

/-- The next live SEQ as its registers show it: 0 in SAFE (Edges of "Egress"). -/
def seqShown (s : State) : Nat :=
  if inState [.safe] s then 0 else s.net.seq

/-- NET (Table 11.7). -/
def netReg (s : State) (off : Nat) : Nat :=
  let n := s.net
  let p := s.ptp
  if 0x100 ≤ off ∧ off < 0x140 then laneReg n.lane[0] (off - 0x100)
  else if 0x140 ≤ off then laneReg n.lane[1] (off - 0x140)
  else
    match off with
    | 0x00 => pack [flag 0 (laneUsable s .a), flag 1 (laneUsable s .b), flag 2 n.lane[0].lock, flag 3 n.lane[1].lock,
        (4, 2, p.state), (6, 1, p.lane), flag 7 p.suspect]
    | 0x04 => bits (seqShown s) 0 32
    | 0x08 => n.seqHi
    | 0x0C => if inState [.safe] s then 0 else n.stream.toNat
    | 0x10 => bits (ringOldest s) 0 32
    | 0x14 => n.ringHi
    | 0x20 => nsReg p.offset
    | 0x24 => nsReg p.mpd
    | 0x28 => unsign 32 p.freq
    | 0x2C => p.steps
    | 0x30 => p.failover
    | _ => 0

/-- NEIGH_W and NEIGH_E (Table 12.8). -/
def neighReg (x : Port) : Nat :=
  match x.neigh with
  | none => pack [(0, 12, 0xFFF), flag 28 true]
  | some n => pack [(0, 12, n.id.toNat), (12, 4, n.state), (16, 12, n.bar), flag 28 (n.id.getLsbD 15)]

/-- STAR (Table 12.8). -/
def starReg (s : State) (off : Nat) : Nat :=
  let r := s.star
  let a := r.last
  let w := portAt s .west
  let e := portAt s .east
  if 0x60 ≤ off ∧ off < 0x80 then digestWord a.hash ((off - 0x60) / 4)
  else
    match off with
    | 0x00 => pack [flag 0 w.up, flag 1 e.up, flag 2 (w.passive || e.passive), flag 3 r.groupMaster, flag 4 r.encMaster,
        flag 5 r.foreign, flag 6 r.dupId, flag 7 r.pvMismatch, flag 8 (detourSide s (ownBar s)).isSome,
        flag 9 (barOrder s), flag 10 (w.oot || e.oot), flag 11 (a.ringN != 0)]
    | 0x04 => pack [(0, 12, (devId s).getD 0xFFF), flag 15 r.noId, (16, 12, r.hop)]
    | 0x08 =>
      let m := r.heard.head?
      pack [(0, 12, (m.map (·.src)).getD 0xFFF), (12, 4, a.pv), (16, 13, a.ringN), flag 29 m.isNone]
    | 0x0C => bits a.epoch 0 32
    | 0x10 => pack [(0, 12, r.holder.getD 0xFFF), flag 15 r.holder.isNone]
    | 0x14 => pack [(0, 12, a.dBar), (12, 2, a.dDir), (16, 12, a.dP)]
    | 0x18 => bits w.delay 0 16
    | 0x1C => bits e.delay 0 16
    | 0x20 => neighReg w
    | 0x24 => neighReg e
    | 0x30 => w.crcErr
    | 0x34 => e.crcErr
    | 0x38 => w.linkDown
    | 0x3C => e.linkDown
    | 0x40 => r.gapLines
    | 0x44 => r.lineBreaks
    | _ => 0

/-- NVM (Table 17.8). -/
def nvmReg (s : State) (off : Nat) : Nat :=
  let n := s.nvm
  match off with
  | 0x00 => pack [flag 0 n.locked, (1, 1, n.lane), flag 2 n.busy.isSome, flag 3 n.verifiedA, flag 4 n.verifiedB,
      (16, 16, if n.locked then leaseMs s else 0)]
  | 0x04 => ipReg n.ownerIp
  | 0x08 => pack [(0, 16, n.ownerPort.toNat), (16, 16, n.session.toNat)]
  | 0x0C => pack [(0, 1, n.ptrSlot), (1, 1, n.ptrSector), flag 2 n.ptrValid]
  | 0x10 => n.ptrSeq.toNat
  | 0x14 => pack [(0, 8, n.reasonA.toNat), (8, 8, n.reasonB.toNat)]
  | 0x18 => bits n.density 0 16
  | 0x1C => n.erased
  | 0x20 => n.programmed
  | _ => 0

/-- RECOV_l (Table 17.9). -/
def recovReg (r : Recov) : Nat :=
  pack [(0, 5, r.pfx.toNat), flag 8 r.written]

/-- OTP view (Tables 16.8, 17.9). -/
def otpReg (s : State) (off : Nat) : Nat :=
  let o := s.otp
  if off < 0x80 then ((vget? o.keys (off / 0x20)).map fun k => bits k.toNat (8 * (off % 0x20)) 32).getD 0
  else
    match off with
    | 0x80 => o.revoke.toNat
    | 0x88 => bits o.rb.toNat 0 32
    | 0x8C => bits o.rb.toNat 32 32
    | 0x90 => bits o.mac[0].toNat 0 32
    | 0x94 => bits o.mac[0].toNat 32 16
    | 0x98 => bits o.mac[1].toNat 0 32
    | 0x9C => bits o.mac[1].toNat 32 16
    | 0xA0 => ipReg o.recov[0].ip
    | 0xA4 => recovReg o.recov[0]
    | 0xA8 => ipReg o.recov[1].ip
    | 0xAC => recovReg o.recov[1]
    | 0xB0 => bit o.devKeyWritten
    | 0xB4 => o.devKeyId.toNat
    | 0xB8 => bit o.debugLocked
    | _ => 0

/-- The value of the register at a maintenance address; every other address reads 0 (R629, R632, Table 0.1). -/
def regValue (s : State) (addr : Nat) : Nat :=
  if addr % 4 ≠ 0 then 0
  else
    let off := addr % 0x1000
    match addr / 0x1000 with
    | 0x00 => sysReg s off
    | 0x01 => fltReg s off
    | 0x02 => ledgerReg s off
    | 0x10 => copeReg s off
    | 0x20 => fabReg s off
    | 0x30 => wrenReg s off
    | 0x40 => hkcReg s off
    | 0x50 => gpioReg s off
    | 0x60 => netReg s off
    | 0x70 => starReg s off
    | 0x80 => nvmReg s off
    | 0xF0 => otpReg s off
    | _ => 0

/-- Reading the low part of a latched pair latches its high part (R629). -/
def latchRead (addr : Nat) (s : State) : State :=
  match addr with
  | 0x00030 => { s with sys := { s.sys with hseqHi := bits s.sys.hseq 32 32 } }
  | 0x01008 => { s with flt := { s.flt with ldetHi := bits s.flt.ldet 32 16 } }
  | 0x01010 => { s with flt := { s.flt with lsusHi := bits s.flt.lsus 32 16 } }
  | 0x02000 => { s with spr := { s.spr with lastLineHi := bits s.spr.lastLine 32 16 } }
  | 0x10818 => { s with lt := { s.lt with enczHi := bits s.lt.enczLine 32 16 } }
  | 0x20024 => { s with fab := { s.fab with repairLineHi := bits s.fab.repairLine 32 16 } }
  | 0x60004 => { s with net := { s.net with seqHi := bits (seqShown s) 32 16 } }
  | 0x60010 => { s with net := { s.net with ringHi := bits (ringOldest s) 32 16 } }
  | _ => s

/-- `n` words from an address upward, with what reading them latches (R629). -/
def regWords : Nat → Nat → State → List Byte × State
  | 0, _, s => ([], s)
  | n + 1, a, s =>
    let r := regWords n (a + 4) (latchRead a s)
    (le 4 (regValue s a) ++ r.1, r.2)

/-- The states whose maintenance channel answers. -/
def answeringStates : List DevState := [.commit, .run, .hold, .repair, .safe]

/-- READ fits: an aligned address and 1 to 256 words (R629, Table 17.3). -/
def readFits (addr : BitVec 32) (count : BitVec 16) : Bool :=
  addr.toNat % 4 == 0 && decide (1 ≤ count.toNat) && decide (count.toNat ≤ 256)

/-- READ answers the words (R629). -/
def readBody (addr : BitVec 32) (count : BitVec 16) (s : State) : Reply :=
  let r := regWords count.toNat addr.toNat s
  reply r.2 0 r.1

/-- READ (R629, Table 17.3). -/
def execRead (q : MntReq) (addr : BitVec 32) (count : BitVec 16) (s : State) : Host.Outcome State Fault Refusal :=
  .next (request (.read q addr count) 0x01 q (le 4 addr.toNat ++ le 2 count.toNat ++ [0, 0]) (readFits addr count)
    answeringStates (readBody addr count) s)

/-- LATCHED_PAIR_READ: a register read that latches the high part of its pair (R629). -/
def execLatchedPairRead (addr : BitVec 32) (s : State) : Host.Outcome State Fault Refusal :=
  .next (if inState answeringStates s then latchRead addr.toNat s else s)

/-! ### Writes -/

/-- A 1 clears COPE.LT_STATUS.ENC_ERR_STICKY, unless it was set in the same cycle (R23, Table 17.5). -/
def clearEncErr (v : Bool) (s : State) : State :=
  if v ∧ setNow s.lt.encErrAt s = false then { s with lt := { s.lt with encErrSticky := false } } else s

/-- A 1 clears COPE.AFF_STATUS.LIMIT_STICKY, unless it was set in the same cycle (R23, Table 17.5). -/
def clearLimit (v : Bool) (s : State) : State :=
  if v ∧ setNow s.pix.aff.limitAt s = false then { s with pix := { s.pix with aff := { s.pix.aff with limitSticky := false } } } else s

/-- A 1 clears FLT.STATUS.WO_VIOLATION, unless it was set in the same cycle (R23, Table 17.5). -/
def clearWo (v : Bool) (s : State) : State :=
  if v ∧ setNow s.flt.woAt s = false then { s with flt := { s.flt with woViolation := false } } else s

/-- A 1 re-arms the fault summary, unless SUMMARY took its code in the same cycle (R23, R634, Table 17.5). -/
def rearmSummary (v : Bool) (s : State) : State :=
  if v ∧ setNow s.flt.summaryAt s = false then { s with flt := { s.flt with summaryValid := false } } else s

/-- CLEAR_ENC_ERR_STICKY (Table 17.5). -/
def execClearEncErrSticky (v : Bool) (s : State) : Host.Outcome State Fault Refusal :=
  .next (clearEncErr v s)

/-- CLEAR_LIMIT_STICKY (Table 17.5). -/
def execClearLimitSticky (v : Bool) (s : State) : Host.Outcome State Fault Refusal :=
  .next (clearLimit v s)

/-- CLEAR_WO_VIOLATION (Table 17.5). -/
def execClearWoViolation (v : Bool) (s : State) : Host.Outcome State Fault Refusal :=
  .next (clearWo v s)

/-- REARM_FAULT_SUMMARY (R634, Table 17.5). -/
def execRearmFaultSummary (v : Bool) (s : State) : Host.Outcome State Fault Refusal :=
  .next (rearmSummary v s)

/-- CLEAR_INT_STATUS (R546, Table 17.5). -/
def execClearIntStatus (bank : Fin 2) (bits : BitVec 24) (s : State) : Host.Outcome State Fault Refusal :=
  .next (clearInt bank bits.toNat s)

/-- The host owns a pin of a bank that a mask names. -/
def hostOwns (s : State) (b : Fin 2) (mask : Nat) : Bool :=
  (List.finRange 24).any fun i => mask.testBit i.val && mayWrite .mnt s.gpio.pin[bankPin b i]

/-- One word written to a bank register, and whether any bit of it took effect. -/
def writeBankReg (b : Fin 2) (off v : Nat) (s : State) : State × Bool :=
  let v := bits v 0 24
  match off with
  | 0x00 => (writeData .mnt b v s, hostOwns s b (2 ^ 24 - 1))
  | 0x04 => (writeSet .mnt b v s, hostOwns s b v)
  | 0x08 => (writeClr .mnt b v s, hostOwns s b v)
  | 0x0C => (writeTgl .mnt b v s, hostOwns s b v)
  | 0x14 => (clearInt b v s, v != 0)
  | _ => (s, false)

/-- One word written to the GPIO block. -/
def writeGpio (off v : Nat) (s : State) : State × Bool :=
  if h : off / 4 < 48 then
    (writeCfg .mnt ⟨off / 4, h⟩ v s, mayWrite .mnt (s.gpio.pin[(⟨off / 4, h⟩ : Fin 48)]))
  else if 0x100 ≤ off ∧ off < 0x120 then writeBankReg 0 (off - 0x100) v s
  else if 0x120 ≤ off ∧ off < 0x140 then writeBankReg 1 (off - 0x120) v s
  else (s, false)

/-- One word written to a maintenance address, and whether any bit of it took effect (R630, R633, Table 17.5). -/
def writeWord (addr v : Nat) (s : State) : State × Bool :=
  if addr = 0x10800 then (clearEncErr (v.testBit 4) s, v.testBit 4)
  else if addr = 0x10030 then (clearLimit (v.testBit 2) s, v.testBit 2)
  else if addr = 0x01000 then (rearmSummary (v.testBit 1) (clearWo (v.testBit 0) s), v.testBit 0 || v.testBit 1)
  else if addr / 0x1000 = 0x50 then writeGpio (addr % 0x1000) v s
  else (s, false)

/-- The words of a WRITE in order, with the number none of whose bits took effect (R630, Table 17.3). -/
def writeWords : List (BitVec 32) → Nat → State → State × Nat
  | [], _, s => (s, 0)
  | v :: vs, a, s =>
    let r := writeWord a v.toNat s
    let t := writeWords vs (a + 4) r.1
    (t.1, t.2 + bit (!r.2))

/-- WRITE fits (Table 17.3). -/
def writeFits (addr : BitVec 32) (words : List (BitVec 32)) : Bool :=
  addr.toNat % 4 == 0 && decide (1 ≤ words.length) && decide (words.length ≤ 256)

/-- WRITE answers how many words had no effect (R630). -/
def writeBody (addr : BitVec 32) (words : List (BitVec 32)) (s : State) : Reply :=
  let r := writeWords words addr.toNat s
  reply r.1 0 (le 2 r.2)

/-- WRITE (R630, Table 17.3). -/
def execWrite (q : MntReq) (addr : BitVec 32) (words : List (BitVec 32)) (s : State) :
    Host.Outcome State Fault Refusal :=
  .next (request (.write q addr words) 0x02 q
    (le 4 addr.toNat ++ le 2 words.length ++ [0, 0] ++ words.flatMap fun w => le 4 w.toNat) (writeFits addr words)
    mostStates (writeBody addr words) s)

end Sys2Proof.Machine
end

