-- ==== Sys2Proof/Machine/Recovery.lean ====
section
/-! DEFINITION. The recovery ladder: re-inits, the function watchdogs, RESET_WARM and POWER_CYCLE (R644 to
R647), and the snapshot commit that lets requests waiting for S_c be accepted (R626, R679). -/

namespace Sys2Proof.Machine

/-- What the start of a re-init does to its function (Table 17.10). -/
def reinitStart (f : Func) (s : State) : State :=
  match f with
  | .egress => reinitStartEgress s
  | .hkc => reinitStartHkc s
  | .starling => reinitStartStarling s
  | .pixel => reinitStartPixel s
  | .fabric => reinitStartFabric s

/-- What the end of a re-init does to its function; `cal` are the calibrations of an HKC re-init. -/
def reinitEnd (f : Func) (cal : List CalRes) (s : State) : State :=
  match f with
  | .egress => reinitEndEgress s
  | .hkc => reinitEndHkc cal s
  | .starling => reinitEndStarling s
  | .pixel => reinitEndPixel s
  | .fabric => reinitEndFabric s

/-- The states a re-init is allowed in (Table 17.10). -/
def reinitStates (f : Func) : List DevState :=
  match f with
  | .pixel => [.run, .hold, .repair]
  | .fabric => [.run, .hold]
  | _ => mostStates

/-- A re-init starts, unless one of the function runs already: SYS.FUNC, the ladder's count, the function
(R644, R646, Edges of the recovery ladder). -/
def startReinit (f : Func) (s : State) : State :=
  if reinitBusy f s then s
  else
    let k := funcIx f
    reinitStart f { s with sys := { s.sys with
      funcBusy := s.sys.funcBusy ||| (1#5 <<< k.val)
      funcCount := satInc 16 s.sys.funcCount
      wd := vmod s.sys.wd k fun w => { w with expiries := 0, afterReinit := 0, reinitEnd := none } } }

/-- Payload of REINIT. -/
def reinitPayload (f : Func) : List Byte :=
  [BitVec.ofNat 8 (funcIx f).val, 0, 0, 0]

/-- REINIT runs: answered before the device acts, or when the running re-init ends (R644, R646). -/
def reinitBody (f : Func) (q : MntReq) (s : State) : Reply :=
  if reinitBusy f s then
    later { s with mnt := { s.mnt with reinitWait := s.mnt.reinitWait ++ [⟨0x30, q, reinitPayload f, none⟩] } }
  else ⟨s, some (0, []), startReinit f⟩

/-- A re-init commanded by the host, or started by the supervisor (rung 2). -/
def reinit (i : Instr) (f : Func) (q : Option MntReq) (s : State) : State :=
  match q with
  | some q => request i 0x30 q (reinitPayload f) true (reinitStates f) (reinitBody f q) s
  | none => if inState (reinitStates f) s then startReinit f s else s

/-- REINIT_EGRESS (R439, Table 17.10). -/
def execReinitEgress (q : Option MntReq) (s : State) : Host.Outcome State Fault Refusal :=
  .next (reinit (.reinitEgress q) .egress q s)

/-- REINIT_HKC (R524, Table 17.10). -/
def execReinitHkc (q : Option MntReq) (s : State) : Host.Outcome State Fault Refusal :=
  .next (reinit (.reinitHkc q) .hkc q s)

/-- REINIT_STARLING (R644, Table 17.10). -/
def execReinitStarling (q : Option MntReq) (s : State) : Host.Outcome State Fault Refusal :=
  .next (reinit (.reinitStarling q) .starling q s)

/-- REINIT_PIXEL (R644, Table 17.10). -/
def execReinitPixel (q : Option MntReq) (s : State) : Host.Outcome State Fault Refusal :=
  .next (reinit (.reinitPixel q) .pixel q s)

/-- REINIT_FABRIC (R644, Table 17.10). -/
def execReinitFabric (q : Option MntReq) (s : State) : Host.Outcome State Fault Refusal :=
  .next (reinit (.reinitFabric q) .fabric q s)

/-- The REINIT requests that waited for the running re-init are answered (R646). -/
def answerWaiting (f : Func) (s : State) : State :=
  let p := reinitPayload f
  let (mine, rest) := s.mnt.reinitWait.partition (·.payload == p)
  mine.foldl (fun t e => finish 0x30 e.req (answerOf 0x30 0 []) t)
    { s with mnt := { s.mnt with reinitWait := rest } }

/-- REINIT_DONE: the function resumes and SYS.FUNC no longer shows it (R644, R646). -/
def execReinitDone (f : Func) (cal : List CalRes) (s : State) : Host.Outcome State Fault Refusal :=
  if reinitBusy f s ∧ supRuns s then
    let k := funcIx f
    let s := { s with sys := { s.sys with
      funcBusy := s.sys.funcBusy &&& ~~~(1#5 <<< k.val)
      wd := vmod s.sys.wd k fun w => { w with reinitEnd := some s.now, expiries := 0, progress := false } } }
    .next (answerWaiting f (reinitEnd f cal s))
  else .next s

/-- Where a function's watchdog runs (Table 17.11). -/
def watchRuns (f : Func) (s : State) : Bool :=
  match f with
  | .egress => live s
  | .hkc => !inState [.off, .sleep] s
  | .starling => inState [.commit, .run, .hold, .repair, .safe] s
  | .pixel => inState [.run, .repair] s
  | .fabric => inState [.run] s

/-- Rung 3 for a function: a WARM reset, or a FLT reset within 600 s of the RUN that followed the last one
(R645). -/
def ladderReset (f : Func) (s : State) : State :=
  let k := funcIx f
  let code := faultCode 0x61 k.val
  if within (sec 600) s.sys.wd[k].warmRun s then startReset 5 code true s
  else startReset 3 code true
    { s with sys := { s.sys with wd := vmod s.sys.wd k fun w => { w with bySupWarm := true } } }

/-- FUNC_WATCHDOG_EXPIRE: the supervisor climbs one rung for the function (R645, R646). -/
def execFuncWatchdogExpire (f : Func) (s : State) : Host.Outcome State Fault Refusal :=
  let k := funcIx f
  let w := s.sys.wd[k]
  let code := faultCode 0x61 k.val
  let set := fun (g : FuncWd → FuncWd) (t : State) => { t with sys := { t.sys with wd := vmod t.sys.wd k g } }
  if watchRuns f s = false ∨ reinitBusy f s ∨ supRuns s = false then .next s
  else
    if within (sec 60) w.reinitEnd s then
      if 1 ≤ w.afterReinit then .next (ladderReset f s)
      else .next (report code (set (fun w => { w with afterReinit := 1, progress := false }) s))
    else if w.expiries = 0 ∨ w.progress then
      .next (report code (set (fun w => { w with expiries := 1, progress := false }) s))
    else .next (startReinit f s)

/-- RESET_WARM, by the host (answered first) or by the supervisor (R644, R664). -/
def execResetWarm (q : Option MntReq) (s : State) : Host.Outcome State Fault Refusal :=
  match q with
  | some r =>
    .next (request (.resetWarm q) 0x31 r [] true mostStates (fun t => ⟨t, some (0, []), startReset 3 0 false⟩) s)
  | none => .next (if inState mostStates s then startReset 3 0 true s else s)

/-- POWER_CYCLE: PWRCYC_REQ_N is driven low (R647). -/
def execPowerCycle (q : MntReq) (s : State) : Host.Outcome State Fault Refusal :=
  .next (request (.powerCycle q) 0x32 q [] true mostStates
    (fun t => ⟨t, some (0, []), fun t => { t with sys := { t.sys with
      pwrcycLow := true, pwrcycRequests := satInc 16 t.sys.pwrcycRequests } }⟩) s)

/-! ### Snapshots and the requests that wait for S_c -/

/-- The state a meaning that always goes on gives. -/
def nextOf (s : State) : Host.Outcome State Fault Refusal → State
  | .next t => t
  | _ => s

/-- A maintenance command that waited for its S_c commit arrives again (R626). -/
def runMnt (i : Instr) (s : State) : State :=
  nextOf s <|
    match i with
    | .read q a c => execRead q a c s
    | .write q a w => execWrite q a w s
    | .logRead q f c => execLogRead q f c s
    | .nvmLock q => execNvmLock q s
    | .nvmRenew q => execNvmRenew q s
    | .nvmUnlock q => execNvmUnlock q s
    | .nvmErase q x a c => execNvmErase q x a c s
    | .nvmProgram q x o d => execNvmProgram q x o d s
    | .nvmVerify q x => execNvmVerify q x s
    | .nvmSwitch q x ok => execNvmSwitch q x ok s
    | .otpKey q x d t => execOtpKey q x d t s
    | .otpRevoke q x t => execOtpRevoke q x t s
    | .otpRollback q v t => execOtpRollback q v t s
    | .otpRecovery q l p ip t => execOtpRecovery q l p ip t s
    | .reinitEgress q => execReinitEgress q s
    | .reinitHkc q => execReinitHkc q s
    | .reinitStarling q => execReinitStarling q s
    | .reinitPixel q => execReinitPixel q s
    | .reinitFabric q => execReinitFabric q s
    | .resetWarm q => execResetWarm q s
    | .powerCycle q => execPowerCycle q s
    | _ => .next s

/-- The waiting requests arrive again, in order (R626). -/
def admitWaiting (s : State) : State :=
  s.mnt.waiting.foldl (fun t i => runMnt i t) { s with mnt := { s.mnt with waiting := [] } }

/-- MAP_SNAPSHOT_COMMIT: a snapshot of the maps with S_c is programmed, committed and read back; a commit at
slot 0 of a sector erases the other (R679, R681); `ok` is the readback. -/
def execMapSnapshotCommit (ok : Bool) (s : State) : Host.Outcome State Fault Refusal :=
  if canCommit s = false ∨ s.log.snapPending = false then .next s
  else
    let k := s.log.snapSlot
    let b := snapshotBody (s.log.snapSeq + 1) s.log.scWant s
    let nxt := (k + 1) % 16
    if ok then
      let m := Memory.program (snapAddr k) (b ++ [0]) s.flash
      let m := if k % 8 = 0 then Memory.erase (snapAddr (8 - k)) m else m
      .next (admitWaiting { s with
        flash := m
        log := { s.log with
          snapPending := false, snapSlot := nxt, snapSeq := (s.log.snapSeq + 1) % 2 ^ 32, sc := s.log.scWant } })
    else
      .next (report 0xA001 { s with
        flash := Memory.program (snapAddr k) (tornProgram s.freeCtr 0 b) s.flash
        freeCtr := s.freeCtr + 512
        log := { s.log with snapSlot := nxt } })

end Sys2Proof.Machine
end

