-- ==== Sys2Proof/Machine/Dispatch.lean ====
section
/-! DEFINITION. One arm per command of the opcode table, each a direct call of its meaning. -/

namespace Sys2Proof.Machine

/-- A command's effect on everything but the queue. -/
def exec (i : Instr) (s : State) : Host.Outcome State Fault Refusal :=
  match i with
  | .pgoodLow ns => Sys2Proof.Machine.execPgoodLow ns s
  | .aonUndervoltage => Sys2Proof.Machine.execAonUndervoltage s
  | .porEnd => Sys2Proof.Machine.execPorEnd s
  | .resetNAssert ns => Sys2Proof.Machine.execResetNAssert ns s
  | .resetNRelease => Sys2Proof.Machine.execResetNRelease s
  | .supervisorWatchdogExpire => Sys2Proof.Machine.execSupervisorWatchdogExpire s
  | .selfTestDone => Sys2Proof.Machine.execSelfTestDone s
  | .spllLock => Sys2Proof.Machine.execSpllLock s
  | .spllLockRetry => Sys2Proof.Machine.execSpllLockRetry s
  | .flashIdle => Sys2Proof.Machine.execFlashIdle s
  | .flashBusyTimeout => Sys2Proof.Machine.execFlashBusyTimeout s
  | .sfdpChecked t => Sys2Proof.Machine.execSfdpChecked t s
  | .logMapsRestored => Sys2Proof.Machine.execLogMapsRestored s
  | .pointerRead => Sys2Proof.Machine.execPointerRead s
  | .headerChecked => Sys2Proof.Machine.execHeaderChecked s
  | .signatureVerified => Sys2Proof.Machine.execSignatureVerified s
  | .sectionStreamed => Sys2Proof.Machine.execSectionStreamed s
  | .fitChecksDone upset => Sys2Proof.Machine.execFitChecksDone s upset
  | .commitEdge => Sys2Proof.Machine.execCommitEdge s
  | .commitDone => Sys2Proof.Machine.execCommitDone s
  | .lockstepFault => Sys2Proof.Machine.execLockstepFault s
  | .supervisorResume => Sys2Proof.Machine.execSupervisorResume s
  | .secHalvesDisagree => Sys2Proof.Machine.execSecHalvesDisagree s
  | .ladleHalvesDisagree => Sys2Proof.Machine.execLadleHalvesDisagree s
  | .sprueHalvesDisagree => Sys2Proof.Machine.execSprueHalvesDisagree s
  | .lineTimingHalvesDisagree => Sys2Proof.Machine.execLineTimingHalvesDisagree s
  | .refclkLoss => Sys2Proof.Machine.execRefclkLoss s
  | .floorWindow p cycles => Sys2Proof.Machine.execFloorWindow p cycles s
  | .encEdge inp samples => Sys2Proof.Machine.execEncEdge inp samples s
  | .lineTrigger => Sys2Proof.Machine.execLineTrigger s
  | .deferredTrigger => Sys2Proof.Machine.execDeferredTrigger s
  | .enczEdge samples => Sys2Proof.Machine.execEnczEdge samples s
  | .stbAssert k => Sys2Proof.Machine.execStbAssert k s
  | .fieldGateOpen k => Sys2Proof.Machine.execFieldGateOpen k s
  | .stbDeassert k => Sys2Proof.Machine.execStbDeassert k s
  | .fieldGateClose k badRows => Sys2Proof.Machine.execFieldGateClose k badRows s
  | .stopDetect => Sys2Proof.Machine.execStopDetect s
  | .drainComplete => Sys2Proof.Machine.execDrainComplete s
  | .holdEntry => Sys2Proof.Machine.execHoldEntry s
  | .sleepEntry => Sys2Proof.Machine.execSleepEntry s
  | .wakeEvent w => Sys2Proof.Machine.execWakeEvent w s
  | .wakeComplete found => Sys2Proof.Machine.execWakeComplete found s
  | .conversionComplete k px shadow => Sys2Proof.Machine.execConversionComplete k px shadow s
  | .ladleLineComplete reg => Sys2Proof.Machine.execLadleLineComplete reg s
  | .darkColumnExclude left idx => Sys2Proof.Machine.execDarkColumnExclude left idx s
  | .affWindowEnd => Sys2Proof.Machine.execAffWindowEnd s
  | .affThaw => Sys2Proof.Machine.execAffThaw s
  | .ingressLine parity => Sys2Proof.Machine.execIngressLine s parity
  | .ingressWordWrite p => Sys2Proof.Machine.execIngressWordWrite p s
  | .historyScrub corrected bad => Sys2Proof.Machine.execHistoryScrub corrected bad s
  | .beatStart p late slip => Sys2Proof.Machine.execBeatStart p late slip s
  | .lagTimeout p => Sys2Proof.Machine.execLagTimeout p s
  | .mouldStart p overrun => Sys2Proof.Machine.execMouldStart p overrun s
  | .titheSnapshot p => Sys2Proof.Machine.execTitheSnapshot p s
  | .titheSlot p own re arb store ecc eccArb => Sys2Proof.Machine.execTitheSlot p own re arb s store ecc eccArb
  | .mvm p v g f acc x => Sys2Proof.Machine.execMvm p v g f acc x s
  | .opa p v g f a b => Sys2Proof.Machine.execOpa p v g f a b s
  | .lmac p v g f acc a b => Sys2Proof.Machine.execLmac p v g f acc a b s
  | .add p v g f a b d => Sys2Proof.Machine.execAdd p v g f a b d s
  | .sub p v g f a b d => Sys2Proof.Machine.execSub p v g f a b d s
  | .mul p v g f a b d => Sys2Proof.Machine.execMul p v g f a b d s
  | .max p v g f a b d => Sys2Proof.Machine.execMax p v g f a b d s
  | .min p v g f a b d => Sys2Proof.Machine.execMin p v g f a b d s
  | .rq p v g f acc desc => Sys2Proof.Machine.execRq p v g f acc desc s
  | .lut p v g wide x => Sys2Proof.Machine.execLut p v g wide x s
  | .cmp p v g f op a b m => Sys2Proof.Machine.execCmp p v g f op a b m s
  | .plog p v g op => Sys2Proof.Machine.execPlog p v g op s
  | .sel p v g m a b d f => Sys2Proof.Machine.execSel p v g m a b d s f
  | .shf p v g q x d f => Sys2Proof.Machine.execShf p v g q x d s f
  | .red p v g f max x d => Sys2Proof.Machine.execRed p v g f max x d s
  | .aclr p v g accs => Sys2Proof.Machine.execAclr p v g accs s
  | .amov p v g src dst => Sys2Proof.Machine.execAmov p v g src dst s
  | .ldw p g ag ecc => Sys2Proof.Machine.execLdw p g ag ecc s
  | .stw p g ag src => Sys2Proof.Machine.execStw p g ag src s
  | .ldn p g ag ecc => Sys2Proof.Machine.execLdn p g ag ecc s
  | .stn p g ag src => Sys2Proof.Machine.execStn p g ag src s
  | .ldt p v g ag half ecc => Sys2Proof.Machine.execLdt p v g ag half ecc s
  | .put p g dir o unit ac src => Sys2Proof.Machine.execPut p g dir o unit ac src s
  | .send p g dir ch tag src => Sys2Proof.Machine.execSend p g dir ch tag src s
  | .recv p g link ch pd => Sys2Proof.Machine.execRecv p g link ch pd s
  | .egr p g tag src => Sys2Proof.Machine.execEgr p g tag src s
  | .wait p k n => Sys2Proof.Machine.execWait p k n s
  | .linkTransfer p dir => Sys2Proof.Machine.execLinkTransfer p dir s
  | .tokenReceive p dir parityOk => Sys2Proof.Machine.execTokenReceive p dir parityOk s
  | .tokenResend p dir parityOk => Sys2Proof.Machine.execTokenResend p dir parityOk s
  | .creditReturn p dir ch parityOk => Sys2Proof.Machine.execCreditReturn p dir ch parityOk s
  | .creditResync p link ch => Sys2Proof.Machine.execCreditResync p link ch s
  | .sendCreditTimeout p => Sys2Proof.Machine.execSendCreditTimeout p s
  | .waitTimeout p => Sys2Proof.Machine.execWaitTimeout p s
  | .elasticWatchFire grp => Sys2Proof.Machine.execElasticWatchFire grp s
  | .spillWrite p => Sys2Proof.Machine.execSpillWrite p s
  | .riserRead p dir ch ecc => Sys2Proof.Machine.execRiserRead p dir ch ecc s
  | .nbwRequest p dir parity => Sys2Proof.Machine.execNbwRequest p dir s parity
  | .nbwAccept p port ecc => Sys2Proof.Machine.execNbwAccept p port ecc s
  | .nbwLand p => Sys2Proof.Machine.execNbwLand p s
  | .forcedSlot p => Sys2Proof.Machine.execForcedSlot p s
  | .loaderWrite p rgn row => Sys2Proof.Machine.execLoaderWrite p rgn row s
  | .correctionWriteback p => Sys2Proof.Machine.execCorrectionWriteback p s
  | .wrenScrubRow p ecc => Sys2Proof.Machine.execWrenScrubRow p ecc s
  | .residentRewriteDone p => Sys2Proof.Machine.execResidentRewriteDone p s
  | .retentionCheckDone p found => Sys2Proof.Machine.execRetentionCheckDone p found s
  | .spareSelfTest failed => Sys2Proof.Machine.execSpareSelfTest failed s
  | .repairStart => Sys2Proof.Machine.execRepairStart s
  | .repairReloadDone flashOk => Sys2Proof.Machine.execRepairReloadDone flashOk s
  | .repairMapApply => Sys2Proof.Machine.execRepairMapApply s
  | .repairGapEnd => Sys2Proof.Machine.execRepairGapEnd s
  | .sprueFormRecords hist => Sys2Proof.Machine.execSprueFormRecords s hist
  | .sprueToken row col parity => Sys2Proof.Machine.execSprueToken row col parity s
  | .cropCopy store => Sys2Proof.Machine.execCropCopy store s
  | .eventRelease inTime => Sys2Proof.Machine.execEventRelease inTime s
  | .evpDelayedAct k => Sys2Proof.Machine.execEvpDelayedAct k s
  | .pulseEnd k => Sys2Proof.Machine.execPulseEnd k s
  | .seamFragReceive side hd f => Sys2Proof.Machine.execSeamFragReceive side hd f s
  | .seamResolvePoint boxId => Sys2Proof.Machine.execSeamResolvePoint boxId s
  | .seamResolveReceive side hd boxId partner => Sys2Proof.Machine.execSeamResolveReceive side hd boxId partner s
  | .seamRelease boxId => Sys2Proof.Machine.execSeamRelease boxId s
  | .flushTimeout => Sys2Proof.Machine.execFlushTimeout s
  | .keepalive => Sys2Proof.Machine.execKeepalive s
  | .datagramTx l => Sys2Proof.Machine.execDatagramTx l s
  | .ringAgeOut => Sys2Proof.Machine.execRingAgeOut s
  | .retryRequest l srcIp payload => Sys2Proof.Machine.execRetryRequest l srcIp s payload
  | .retransmit l ecc => Sys2Proof.Machine.execRetransmit l ecc s
  | .blockLockGain l => Sys2Proof.Machine.execBlockLockGain l s
  | .blockLockLoss l rs => Sys2Proof.Machine.execBlockLockLoss l s rs
  | .arpRequestReceive l mac ip target => Sys2Proof.Machine.execArpRequestReceive l mac ip target s
  | .arpPacketReceive l mac ip => Sys2Proof.Machine.execArpPacketReceive l mac ip s
  | .arpResolveTimer l => Sys2Proof.Machine.execArpResolveTimer l s
  | .announceReceive l a h => Sys2Proof.Machine.execAnnounceReceive l a s h
  | .announceTimeout l => Sys2Proof.Machine.execAnnounceTimeout l s
  | .syncReceive l m h quanta => Sys2Proof.Machine.execSyncReceive l m s h quanta
  | .followUpReceive l source seqId origin corr h => Sys2Proof.Machine.execFollowUpReceive l source seqId origin corr s h
  | .followUpTimeout l => Sys2Proof.Machine.execFollowUpTimeout l s
  | .delayReqTimer l quanta => Sys2Proof.Machine.execDelayReqTimer l quanta s
  | .delayRespReceive l source seqId rx corr h logInterval requesting => Sys2Proof.Machine.execDelayRespReceive l source seqId rx corr s h logInterval requesting
  | .timePathMarker l txErr rxErr => Sys2Proof.Machine.execTimePathMarker l txErr rxErr s
  | .ptpFailback => Sys2Proof.Machine.execPtpFailback s
  | .tlcResync => Sys2Proof.Machine.execTlcResync s
  | .ppsSecond => Sys2Proof.Machine.execPpsSecond s
  | .ppsWidthEnd => Sys2Proof.Machine.execPpsWidthEnd s
  | .linkSync side => Sys2Proof.Machine.execLinkSync side s
  | .linkDown side => Sys2Proof.Machine.execLinkDown side s
  | .tickReceive side t => Sys2Proof.Machine.execTickReceive side t s
  | .helloTimer => Sys2Proof.Machine.execHelloTimer s
  | .helloReceive side hd h => Sys2Proof.Machine.execHelloReceive side hd h s
  | .echoTimer side => Sys2Proof.Machine.execEchoTimer side s
  | .echoReceive side hd seq ret delay => Sys2Proof.Machine.execEchoReceive side hd seq ret delay s
  | .memberTimer => Sys2Proof.Machine.execMemberTimer s
  | .memberReceive side hd m => Sys2Proof.Machine.execMemberReceive side hd m s
  | .claimTimer => Sys2Proof.Machine.execClaimTimer s
  | .claimReceive side hd nonce epoch => Sys2Proof.Machine.execClaimReceive side hd nonce epoch s
  | .agreeTimer => Sys2Proof.Machine.execAgreeTimer s
  | .agreeReceive side hd a => Sys2Proof.Machine.execAgreeReceive side hd a s
  | .agreeTimeout => Sys2Proof.Machine.execAgreeTimeout s
  | .claimWon => Sys2Proof.Machine.execClaimWon s
  | .roleTimer => Sys2Proof.Machine.execRoleTimer s
  | .roleReceive side hd epoch bar holder => Sys2Proof.Machine.execRoleReceive side hd epoch bar holder s
  | .handoverTimeout => Sys2Proof.Machine.execHandoverTimeout s
  | .memberLineWait => Sys2Proof.Machine.execMemberLineWait s
  | .dupIdClear => Sys2Proof.Machine.execDupIdClear s
  | .neighbourLost side => Sys2Proof.Machine.execNeighbourLost side s
  | .starlingEventReceive side hd k port subject => Sys2Proof.Machine.execStarlingEventReceive side hd k port subject s
  | .portModeChange side => Sys2Proof.Machine.execPortModeChange side s
  | .scanConversion raw => Sys2Proof.Machine.execScanConversion raw s
  | .hkcResultConsume => Sys2Proof.Machine.execHkcResultConsume s
  | .rotationTick => Sys2Proof.Machine.execRotationTick s
  | .sliceRoleRotate => Sys2Proof.Machine.execSliceRoleRotate s
  | .calibrationDone c => Sys2Proof.Machine.execCalibrationDone c s
  | .groundCheckFail => Sys2Proof.Machine.execGroundCheckFail s
  | .refSettled => Sys2Proof.Machine.execRefSettled s
  | .refCheckFail => Sys2Proof.Machine.execRefCheckFail s
  | .railOutOfWindow idx => Sys2Proof.Machine.execRailOutOfWindow idx s
  | .sensorExclude j => Sys2Proof.Machine.execSensorExclude j s
  | .integWindowOpen => Sys2Proof.Machine.execIntegWindowOpen s
  | .integWindowClose samples close => Sys2Proof.Machine.execIntegWindowClose samples close s
  | .integOutOfWindow k => Sys2Proof.Machine.execIntegOutOfWindow k s
  | .integSaturated k => Sys2Proof.Machine.execIntegSaturated k s
  | .injectRequest src => Sys2Proof.Machine.execInjectRequest src s
  | .injectedResult raw => Sys2Proof.Machine.execInjectedResult raw s
  | .sleepScan codes => Sys2Proof.Machine.execSleepScan codes s
  | .thermalTrip => Sys2Proof.Machine.execThermalTrip s
  | .pinInterrupt p level samples => Sys2Proof.Machine.execPinInterrupt p level samples s
  | .supActUpdate p => Sys2Proof.Machine.execSupActUpdate p s
  | .i2cPoll m a => Sys2Proof.Machine.execI2cPoll m a s
  | .i2cStretchTimeout m => Sys2Proof.Machine.execI2cStretchTimeout m s
  | .read q addr count => Sys2Proof.Machine.execRead q addr count s
  | .latchedPairRead addr => Sys2Proof.Machine.execLatchedPairRead addr s
  | .write q addr words => Sys2Proof.Machine.execWrite q addr words s
  | .clearEncErrSticky v => Sys2Proof.Machine.execClearEncErrSticky v s
  | .clearLimitSticky v => Sys2Proof.Machine.execClearLimitSticky v s
  | .clearWoViolation v => Sys2Proof.Machine.execClearWoViolation v s
  | .rearmFaultSummary v => Sys2Proof.Machine.execRearmFaultSummary v s
  | .clearIntStatus bank bits => Sys2Proof.Machine.execClearIntStatus bank bits s
  | .gpioCfgWrite who p v => Sys2Proof.Machine.execGpioCfgWrite who p v s
  | .gpioDataWrite who bank v => Sys2Proof.Machine.execGpioDataWrite who bank v s
  | .gpioSet who bank v => Sys2Proof.Machine.execGpioSet who bank v s
  | .gpioClr who bank v => Sys2Proof.Machine.execGpioClr who bank v s
  | .gpioTgl who bank v => Sys2Proof.Machine.execGpioTgl who bank v s
  | .logRead q first count => Sys2Proof.Machine.execLogRead q first count s
  | .nvmLock q => Sys2Proof.Machine.execNvmLock q s
  | .nvmRenew q => Sys2Proof.Machine.execNvmRenew q s
  | .nvmUnlock q => Sys2Proof.Machine.execNvmUnlock q s
  | .nvmErase q slot sector count => Sys2Proof.Machine.execNvmErase q slot sector count s
  | .nvmProgram q slot offset data => Sys2Proof.Machine.execNvmProgram q slot offset data s
  | .nvmVerify q slot => Sys2Proof.Machine.execNvmVerify q slot s
  | .nvmSwitch q slot ok => Sys2Proof.Machine.execNvmSwitch q slot ok s
  | .flashOpDone ok => Sys2Proof.Machine.execFlashOpDone ok s
  | .nvmLeaseExpire => Sys2Proof.Machine.execNvmLeaseExpire s
  | .otpKey q slot digest took => Sys2Proof.Machine.execOtpKey q slot digest took s
  | .otpRevoke q slot took => Sys2Proof.Machine.execOtpRevoke q slot took s
  | .otpRollback q value took => Sys2Proof.Machine.execOtpRollback q value took s
  | .otpRecovery q lane pfx ip took => Sys2Proof.Machine.execOtpRecovery q lane pfx ip took s
  | .reinitEgress q => Sys2Proof.Machine.execReinitEgress q s
  | .reinitHkc q => Sys2Proof.Machine.execReinitHkc q s
  | .reinitStarling q => Sys2Proof.Machine.execReinitStarling q s
  | .reinitPixel q => Sys2Proof.Machine.execReinitPixel q s
  | .reinitFabric q => Sys2Proof.Machine.execReinitFabric q s
  | .reinitDone f cal => Sys2Proof.Machine.execReinitDone f cal s
  | .funcWatchdogExpire f => Sys2Proof.Machine.execFuncWatchdogExpire f s
  | .resetWarm q => Sys2Proof.Machine.execResetWarm q s
  | .powerCycle q => Sys2Proof.Machine.execPowerCycle q s
  | .pwrcycTimeout => Sys2Proof.Machine.execPwrcycTimeout s
  | .logCommit ok => Sys2Proof.Machine.execLogCommit ok s
  | .mapSnapshotCommit ok => Sys2Proof.Machine.execMapSnapshotCommit ok s
  | .logSectorErase => Sys2Proof.Machine.execLogSectorErase s
  | .boundaryScanInstruction drives cells => Sys2Proof.Machine.execBoundaryScanInstruction drives cells s
  | .secContextResume => Sys2Proof.Machine.execSecContextResume s
  | .nvmVerifyDone => Sys2Proof.Machine.execNvmVerifyDone s
  | .receivedFrameDrop l frame => Sys2Proof.Machine.execReceivedFrameDrop l frame s
  | .lineOutPulseEnd p => Sys2Proof.Machine.execLineOutPulseEnd p s
  | .bankSupplyRangeDetect b mv => Sys2Proof.Machine.execBankSupplyRangeDetect b mv s

end Sys2Proof.Machine
end

