-- ==== Sys2Proof/Safety.lean ====
section
/-! DEFINITION. What claims about the block are stated in: commands that complete, and the invariants of a run. -/

namespace Sys2Proof.Machine

/-- The flash contents are in their canonical form. -/
def CanonicalFlash (s : State) : Prop :=
  Memory.wf s.flash = true

/-- The words of a Wren are in their canonical form. -/
abbrev CanonicalWren (s : State) (p : Fin 72) : Prop :=
  Sparse.wf WWord.reset s.fab.perch[p].wren.words = true

/-- No bit of the OTP array has been taken back, and nothing that no command writes has changed (R24, R623, R670). -/
def OtpGrew (a b : Otp) : Prop :=
  a.revoke &&& ~~~b.revoke = 0 ∧ a.rb &&& ~~~b.rb = 0 ∧ (∀ k : Fin 4, a.keys[k] &&& ~~~b.keys[k] = 0) ∧
    (∀ l : Fin 2, a.recov[l].ip &&& ~~~b.recov[l].ip = 0 ∧ a.recov[l].pfx &&& ~~~b.recov[l].pfx = 0 ∧
      (a.recov[l].written = true → b.recov[l].written = true)) ∧
    a.mac = b.mac ∧ a.devKey = b.devKey ∧ a.devKeyWritten = b.devKeyWritten ∧ a.devKeyId = b.devKeyId ∧
    a.debugLocked = b.debugLocked

/-- The command is a stage operation of Table 6.1 on the Finch of perch `p`. -/
def StageOn (p : Fin 72) (c : Instr) : Prop :=
  (∃ v g f acc x, c = .mvm p v g f acc x) ∨ (∃ v g f a b, c = .opa p v g f a b) ∨
    (∃ v g f acc a b, c = .lmac p v g f acc a b) ∨ (∃ v g f a b d, c = .add p v g f a b d) ∨
    (∃ v g f a b d, c = .sub p v g f a b d) ∨ (∃ v g f a b d, c = .mul p v g f a b d) ∨
    (∃ v g f a b d, c = .max p v g f a b d) ∨ (∃ v g f a b d, c = .min p v g f a b d) ∨
    (∃ v g f acc d, c = .rq p v g f acc d) ∨ (∃ v g w x, c = .lut p v g w x) ∨
    (∃ v g f o a b m, c = .cmp p v g f o a b m) ∨ (∃ v g o, c = .plog p v g o) ∨
    (∃ v g m a b d f, c = .sel p v g m a b d f) ∨ (∃ v g k x d f, c = .shf p v g k x d f) ∨
    (∃ v g f w x d, c = .red p v g f w x d) ∨ (∃ v g m, c = .aclr p v g m) ∨
    (∃ v g a b, c = .amov p v g a b)

/-- From `s` to `t` nothing changes but the schedule of perch `p`: the bundle in issue and the work kept for the check. -/
abbrev OnlySlot (p : Fin 72) (s t : State) : Prop :=
  t = { s with fab := { s.fab with perch := vmod s.fab.perch p fun x => { x with iss := t.fab.perch[p].iss } } }

/-- Runners whose stalled SEND goes on: its token takes a credit of its channel and waits for the link (R237). -/
def sendGoesOn (r : Runners) (k : Stall) : Runners :=
  let c := chanIx (chanDir k.chan) (tokenCh k.tok)
  { r with
    credit := vmod r.credit c (· - 1)
    waitTx := vmod r.waitTx (dirIx (chanDir k.chan)) (· ++ [k.tok])
    sentLater := vmod r.sentLater c (· + 1) }

/-- A Finch whose stalled RECV takes a token with DATA `data`, `void` and `poison`, and no longer stalls; under a false
predicate it takes it and writes nothing (R243, R322). -/
def recvGoesOn (fi : Finch) (k : Token) (poison : Bool) : Finch :=
  let pz := poison || fi.stall.mark
  let on := fi.stall.write
  { fi with
    stalled := false
    stall := Stall.reset
    inReg := if on then ((List.range 16).map fun i => fi.inReg.getD i 0).set 0 k.data else fi.inReg
    inPoison := if on then pz else fi.inPoison
    preds := if on then fi.stall.predDst.elim fi.preds fun i => putBit fi.preds i.val (!k.void) else fi.preds
    predPoison :=
      if on then fi.stall.predDst.elim fi.predPoison fun i => putBit fi.predPoison i.val pz else fi.predPoison }

/-- The credits of a channel after a RESYNC: the count of its receiver less the tokens sent in beats that the receiver has
not begun (R239). -/
def creditAfterResync (s : State) (p q : Fin 72) (link : Dir) (ch : Fin 4) : Nat :=
  let r := s.fab.perch[q].run
  let j := chanIx (opposite link) ch
  chanCredit s p link ch -
    (if (finchOf s q).beat < (finchOf s p).beat then 0
    else if (finchOf s q).beat = (finchOf s p).beat then r.sentLater[j]
    else r.sentLater[j] + r.sentPrev[j])

/-- A maintenance request arrives, authentic and fresh, with its sequence number inside the committed window (R624 to
R626). -/
abbrev Arrives (s : State) (op : Nat) (q : MntReq) (payload : List Byte) : Prop :=
  hears s q = true ∧ packetOk s op q payload = true ∧ s.sys.hseq < q.seq.toNat ∧ q.seq.toNat ≤ s.log.sc + 65536

/-- From `s` to `t` exactly one thing leaves the package: the frame of the answer of a request, whose SESSION is that of
the lock, for NVM_LOCK as it then is (Table 17.1). -/
abbrev AnsweredWith (s t : State) (op : Nat) (q : MntReq) (status : Nat) (payload : List Byte) : Prop :=
  t.out = .frame q.lane (answerFrame s (answerSession (if op = 0x10 then t else s) op) op q
    (answerOf op status payload)) :: s.out

/-- The request comes from the session lock's holder and names its session (R636). -/
abbrev InSession (s : State) (q : MntReq) : Prop :=
  fromHolder s q = true ∧ s.nvm.session = q.session

/-- A maintenance command as the packet that carries it (Table 17.3). -/
structure Packet where
  /-- opcode -/
  op : Nat
  /-- the request's header -/
  q : MntReq
  /-- payload -/
  payload : List Byte
  /-- the payload fits the opcode -/
  fits : Bool
  /-- states the opcode runs in -/
  states : List DevState
  deriving DecidableEq, Repr

/-- The packet of a maintenance command, none for every other command (Table 17.3). -/
def packetOf (s : State) (c : Instr) : Option Packet :=
  match c with
  | .read q a n => some ⟨0x01, q, le 4 a.toNat ++ le 2 n.toNat ++ [0, 0], readFits a n, answeringStates⟩
  | .write q a w =>
    some ⟨0x02, q, le 4 a.toNat ++ le 2 w.length ++ [0, 0] ++ w.flatMap (fun x => le 4 x.toNat), writeFits a w, mostStates⟩
  | .logRead q f n =>
    some ⟨0x03, q, le 4 f.toNat ++ le 2 n.toNat ++ [0, 0], decide (1 ≤ n.toNat) && decide (n.toNat ≤ 32), answeringStates⟩
  | .nvmLock q => some ⟨0x10, q, [], true, mostStates⟩
  | .nvmRenew q => some ⟨0x11, q, [], true, mostStates⟩
  | .nvmUnlock q => some ⟨0x12, q, [], true, mostStates⟩
  | .nvmErase q x a n => some ⟨0x13, q, erasePayload x a n, eraseFits x a n, mostStates⟩
  | .nvmProgram q x o d => some ⟨0x14, q, programPayload x o d, programFits x o d, mostStates⟩
  | .nvmVerify q x => some ⟨0x15, q, [x, 0, 0, 0], decide (x.toNat < 2), mostStates⟩
  | .nvmSwitch q x _ => some ⟨0x16, q, [x, 0, 0, 0], decide (x.toNat < 2), mostStates⟩
  | .otpKey q x d _ => some ⟨0x20, q, [x, 0, 0, 0] ++ digestBytes d, decide (x.toNat < 4) && d != 0, otpStates⟩
  | .otpRevoke q x _ => some ⟨0x21, q, [x, 0, 0, 0], decide (x.toNat < 4), otpStates⟩
  | .otpRollback q v _ =>
    some ⟨0x22, q, le 4 v.toNat, decide (1 ≤ v.toNat) && decide (v.toNat ≤ 64), rollbackStates s⟩
  | .otpRecovery q l p ip _ =>
    some ⟨0x23, q, [l, p, 0, 0] ++ be 4 ip.toNat, decide (l.toNat < 2) && decide (8 ≤ p.toNat) && decide (p.toNat ≤ 30) &&
      unicast ip.toNat p.toNat, otpStates⟩
  | .reinitEgress (some q) => some ⟨0x30, q, reinitPayload .egress, true, reinitStates .egress⟩
  | .reinitHkc (some q) => some ⟨0x30, q, reinitPayload .hkc, true, reinitStates .hkc⟩
  | .reinitStarling (some q) => some ⟨0x30, q, reinitPayload .starling, true, reinitStates .starling⟩
  | .reinitPixel (some q) => some ⟨0x30, q, reinitPayload .pixel, true, reinitStates .pixel⟩
  | .reinitFabric (some q) => some ⟨0x30, q, reinitPayload .fabric, true, reinitStates .fabric⟩
  | .resetWarm (some q) => some ⟨0x31, q, [], true, mostStates⟩
  | .powerCycle q => some ⟨0x32, q, [], true, mostStates⟩
  | _ => none

/-- A session command that uses the flash (R627). -/
def usesFlash (x : Packet) : Bool :=
  decide (0x13 ≤ x.op) && decide (x.op ≤ 0x16)

end Sys2Proof.Machine
end

