-- ==== Sys2Proof/Certificates/Slice0/Obligations.lean ====
section
/-! DEFINITION. What is to be proved of the block, one proposition per statement of OBLIGATIONS.json. -/

open Sys2Proof Sys2Proof.Machine

/-- A step runs the command at the front of the queue on the rest of the queue. Where the spec leaves room the clauses follow the model's choices of log entry 4. Basis: derived; cites 00_scope.md, Conventions; 95_what_each_step_holds.md. -/
def Obligations.StepRunsTheFrontCommand : Prop :=
  ∀ (s : State) (c : Instr) (q : List Instr), s.pending = c :: q →
        step s = exec c { s with pending := q }

/-- On an empty queue one 5 ns period passes and nothing else changes. Where the spec leaves room the clauses follow the model's choices of log entry 2. Basis: derived; cites 00_scope.md, Conventions; 04_line_timing.md, R142. -/
def Obligations.EmptyQueueLetsTimePass : Prop :=
  ∀ (s : State), s.pending = [] →
        step s = .next { s with now := s.now + 1 }

/-- No command of the table stops the block. Where the spec leaves room the clauses follow the model's choices of log entry 1. Basis: derived; cites 95_what_each_step_holds.md. -/
def Obligations.EveryCommandCompletes : Prop :=
  ∀ (c : Instr) (s : State),
        ∃ t, exec c s = .next t

/-- The reset state is AON start after a POR. Where the spec leaves room the clauses follow the model's choices of log entries 4, 7. Basis: derived; cites 15_boot_commit.md, R562, R563; 18_power_reset.md, R664, R668; 13_housekeeping_converter.md, R502; 17_maintenance_recovery.md, R625. -/
def Obligations.ResetStateIsAonStart : Prop :=
  State.reset.sys.code = .boot ∧ State.reset.sys.prev = .off ∧ State.reset.sys.cause = 1 ∧
        State.reset.sys.bootCount = 1 ∧ State.reset.sys.hseq = 0 ∧ State.reset.hkc.refEn = true ∧
        State.reset.img.valid = false ∧ State.reset.flt.summaryValid = false ∧ State.reset.pending = [] ∧
        State.reset.out = [] ∧ CanonicalFlash State.reset ∧ (∀ p : Fin 72, CanonicalWren State.reset p) ∧ ∀ l : Fin 2, State.reset.net.lane[l].up = false

/-- PGOOD low and AON undervoltage begin a POR, and POR_END starts the AON domain. Where the spec leaves room the clauses follow the model's choices of log entries 8, 17. Basis: derived; cites 18_power_reset.md, R650, R664, Table 18.6; 15_boot_commit.md, R562, R563. Says that these complete: pgoodLow, aonUndervoltage, porEnd. -/
def Obligations.PorEndsWhateverRan : Prop :=
  (∀ (s : State) (ns : Nat), s.sys.porActive = false → 1000 ≤ ns →
        ∃ t, exec (.pgoodLow ns) s = .next t ∧ t.sys.code = .off ∧ t.sys.porActive = true ∧ t.sys.hseq = 0 ∧
          t.img = Image.reset ∧ t.lt = Lt.reset ∧ t.pix = Pix.reset ∧ t.fab = Fab.reset ∧ t.spr = Sprue.reset ∧
          t.star = Star.reset ∧ t.mnt = Mnt.reset ∧ t.hkc.refEn = false ∧ t.otp = s.otp ∧ t.pending = s.pending) ∧
  (∀ (s : State) (ns : Nat), (s.sys.porActive = true ∨ ns < 100) →
        exec (.pgoodLow ns) s = .next s) ∧
  (∀ (s : State) (ns : Nat), s.sys.porActive = false → 100 ≤ ns → ns < 1000 →
        ∃ t, exec (.pgoodLow ns) s = .next t ∧
          (t = { s with freeCtr := s.freeCtr + 1 } ∨ (t.sys.code = .off ∧ t.sys.porActive = true ∧ t.img = Image.reset))) ∧
  (∀ (s : State), s.sys.porActive = false →
        ∃ t, exec .aonUndervoltage s = .next t ∧ t.sys.code = .off ∧ t.sys.porActive = true ∧ t.sys.hseq = 0 ∧
          t.img = Image.reset ∧ t.lt = Lt.reset ∧ t.pix = Pix.reset ∧ t.fab = Fab.reset ∧ t.spr = Sprue.reset ∧
          t.star = Star.reset ∧ t.mnt = Mnt.reset ∧ t.hkc.refEn = false ∧ t.otp = s.otp ∧ t.pending = s.pending) ∧
  (∀ (s : State), s.sys.porActive = true →
        exec .aonUndervoltage s = .next s ∧ exec .porEnd s = .next { s with
          sys := { s.sys with code := .boot, prev := .off, porActive := false, bootOsc := true }
          boot := { s.boot with stage := 1, cold := true, origin := s.now }
          hkc := { s.hkc with refEn := true } }) ∧
  (∀ (s : State), s.sys.porActive = false →
        exec .porEnd s = .next s)

/-- RESET_N low starts a PIN reset, and its release begins the boot. Where the spec leaves room the clauses follow the model's choices of log entries 1, 8, 17. Basis: derived; cites 18_power_reset.md, R664, R665, R667, R668, Table 18.5; 15_boot_commit.md, R588. Says that these complete: resetNAssert, resetNRelease. -/
def Obligations.ResetPinStartsAndHoldsTheBoot : Prop :=
  (∀ (s : State) (ns : Nat), 100 ≤ ns → s.sys.resetNLow = false → s.sys.porActive = false →
        ∃ t, exec (.resetNAssert ns) s = .next t ∧ t.sys.code = .boot ∧ t.sys.prev = s.sys.code ∧
          t.sys.bootCount = s.sys.bootCount + 1 ∧ t.sys.resetNLow = true ∧ t.sys.hseq = s.sys.hseq ∧
          t.sys.cause = (if (s.sys.code = .boot ∨ s.sys.code = .commit) ∧ s.sys.cause = 1 then 1 else 2) ∧
          t.boot.stage = 2 ∧ t.boot.safeLatch = false ∧ t.img = Image.reset ∧ t.mnt = Mnt.reset ∧ t.nvm.locked = false ∧
          t.lt.stb = 0 ∧ t.otp = s.otp) ∧
  (∀ (s : State) (ns : Nat), (ns < 20 ∨ s.sys.resetNLow = true) →
        exec (.resetNAssert ns) s = .next s) ∧
  (∀ (s : State) (ns : Nat), 20 ≤ ns → s.sys.resetNLow = false → s.sys.porActive = true →
        exec (.resetNAssert ns) s = .next { s with sys := { s.sys with resetNLow := true } }) ∧
  (∀ (s : State) (ns : Nat), 20 ≤ ns → ns < 100 → s.sys.resetNLow = false → s.sys.porActive = false →
        ∃ t, exec (.resetNAssert ns) s = .next t ∧
          (t = { s with freeCtr := s.freeCtr + 1 } ∨ (t.sys.code = .boot ∧ t.sys.resetNLow = true ∧ t.boot.stage = 2))) ∧
  (∀ (s : State), s.sys.resetNLow = true →
        exec .resetNRelease s = .next { s with
          sys := { s.sys with resetNLow := false }
          boot := { s.boot with origin := if s.sys.porActive then s.boot.origin else s.now } }) ∧
  (∀ (s : State), s.sys.resetNLow = false →
        exec .resetNRelease s = .next s)

/-- Watchdog, line-timing, reference and thermal faults start their resets. Where the spec leaves room the clauses follow the model's choices of log entries 17, 22. Basis: derived; cites 18_power_reset.md, R664, R667, R674, Table 18.5; 17_maintenance_recovery.md, Table 17.11; 03_promises.md, R105; 02_architecture.md, R66; 15_boot_commit.md, R588. Says that these complete: supervisorWatchdogExpire, lineTimingHalvesDisagree, refclkLoss, thermalTrip. -/
def Obligations.FaultsThatEndInAReset : Prop :=
  (∀ (s : State), awake s = true →
        ∃ t, exec .supervisorWatchdogExpire s = .next t ∧ t.sys.code = .boot ∧ t.sys.prev = s.sys.code ∧
          t.boot.stage = 2 ∧ t.boot.safeLatch = s.boot.safeLatch ∧ t.img = Image.reset ∧ t.otp = s.otp ∧
          (t.sys.cause, t.sys.resetFault) =
            (if (s.sys.code = .boot ∨ s.sys.code = .commit) ∧ s.sys.cause ∈ [1, 2, 5] then (s.sys.cause, s.sys.resetFault)
             else (4, 0x610F)) ∧
          classCount t 0x61 = satInc 32 (classCount s 0x61)) ∧
  (∀ (s : State), awake s = true →
        ∃ t, exec .lineTimingHalvesDisagree s = .next t ∧ t.sys.code = .boot ∧ t.sys.prev = s.sys.code ∧
          t.boot.stage = 2 ∧ t.boot.safeLatch = true ∧ t.img = Image.reset ∧ t.otp = s.otp ∧
          (t.sys.cause, t.sys.resetFault) =
            (if (s.sys.code = .boot ∨ s.sys.code = .commit) ∧ s.sys.cause ∈ [1, 2] then (s.sys.cause, s.sys.resetFault)
             else (5, 0x6003)) ∧
          classCount t 0x60 = satInc 32 (classCount s 0x60)) ∧
  (∀ (s : State), awake s = false →
        exec .supervisorWatchdogExpire s = .next s ∧ exec .lineTimingHalvesDisagree s = .next s) ∧
  (∀ (s : State), s.sys.code = .run →
        ∃ t, exec .refclkLoss s = .next t ∧ t.sys.code = .boot ∧ t.sys.prev = .run ∧ t.sys.cause = 5 ∧
          t.sys.resetFault = 0x4000 ∧ t.boot.stage = 2 ∧ t.boot.safeLatch = true ∧ t.img = Image.reset ∧
          t.sys.refclk = false ∧ t.sys.spllLocked = false ∧ t.sys.supOnSpll = false ∧
          classCount t 0x40 = satInc 32 (satInc 32 (classCount s 0x40))) ∧
  (∀ (s : State), s.sys.code ≠ .run →
        ∃ t, exec .refclkLoss s = .next t ∧
          t.sys = { s.sys with refclk := false, spllLocked := false, supOnSpll := false } ∧
          (∀ l, (egLane t l).lock = false) ∧ t.boot = s.boot ∧ t.img = s.img ∧ t.lt = s.lt ∧ t.pix = s.pix ∧
          t.fab = s.fab ∧ t.hkc = s.hkc) ∧
  (∀ (s : State), 4 ≤ s.sys.tripRun → s.sys.resetNLow = false → s.sys.code ≠ .off →
        ∃ t, exec .thermalTrip s = .next t ∧ t.sys.code = .boot ∧ t.sys.prev = s.sys.code ∧ t.boot.stage = 2 ∧
          t.boot.safeLatch = true ∧ t.img = Image.reset ∧ t.otp = s.otp ∧
          (t.sys.cause, t.sys.resetFault) =
            (if (s.sys.code = .boot ∨ s.sys.code = .commit) ∧ s.sys.cause ∈ [1, 2] then (s.sys.cause, s.sys.resetFault)
             else (5, faultCode 0x81 (hottest s))) ∧
          classCount t 0x81 = satInc 32 (classCount s 0x81)) ∧
  (∀ (s : State), (s.sys.tripRun < 4 ∨ s.sys.code = .off ∨ s.sys.resetNLow = true) →
        exec .thermalTrip s = .next s)

/-- A second lockstep fault within 1 s of the first is a FLT reset. Basis: stated; cites R75. Says that these complete: lockstepFault. -/
def Obligations.SecondLockstepFaultEscalates : Prop :=
  ∀ (s : State) (first : Nat), awake s = true → s.sys.lastLockstep = some first → s.now ≤ first + sec 1 →
        ∃ t, exec .lockstepFault s = .next t ∧ t.sys.code = .boot ∧ t.boot.stage = 2 ∧ t.boot.safeLatch = true ∧
          (s.sys.code ≠ .boot → s.sys.code ≠ .commit → t.sys.cause = 5)

/-- A lockstep fault frees the supervisor's hardware mutexes. Basis: stated; cites R74. Says that these complete: lockstepFault. -/
def Obligations.LockstepFaultFreesEveryMutex : Prop :=
  ∀ (s : State), awake s = true →
        ∃ t, exec .lockstepFault s = .next t ∧ t.sys.mutexes = []

/-- Lockstep and half faults reset one context and the data path goes on. Where the spec leaves room the clauses follow the model's choices of log entries 1, 19. Basis: derived; cites 02_architecture.md, R73; 03_promises.md, R103, R104, R106; 15_boot_commit.md, R564. Says that these complete: lockstepFault, supervisorResume, secHalvesDisagree, secContextResume, ladleHalvesDisagree, sprueHalvesDisagree. -/
def Obligations.HalvesAndContextsRecover : Prop :=
  (∀ (s : State), awake s = true → within (sec 1) s.sys.lastLockstep s = false →
        ∃ t, exec .lockstepFault s = .next t ∧ t.sys = { s.sys with supResetting := true, mutexes := [], lastLockstep := some s.now } ∧
          t.nvm.locked = false ∧ t.mnt.waiting = [] ∧ t.mnt.sessWait = [] ∧ t.lt = s.lt ∧ t.pix = s.pix ∧ t.fab = s.fab ∧
          t.spr = s.spr ∧ t.net = s.net ∧ t.img = s.img ∧ classCount t 0x60 = satInc 32 (classCount s 0x60) ∧
          (s.sys.code ≠ .boot → t.boot = s.boot) ∧
          (s.sys.code = .boot → t.boot.stage = 2 ∧ t.boot.staged = Image.reset ∧ t.boot.origin = s.boot.origin)) ∧
  (∀ (s : State),
        exec .supervisorResume s = .next { s with sys := { s.sys with supResetting := false } }) ∧
  (∀ (s : State), awake s = true → within (sec 1) s.sec.lastFault s = false →
        ∃ t, exec .secHalvesDisagree s = .next t ∧ t.sec = ⟨true, some s.now⟩ ∧ t.sys = s.sys ∧ t.boot = s.boot ∧ t.lt = s.lt ∧
          t.pix = s.pix ∧ t.fab = s.fab ∧ t.net = s.net ∧ classCount t 0x60 = satInc 32 (classCount s 0x60) ∧
          (s.flt.summaryValid = false → t.flt.summaryValid = true ∧ t.flt.summaryCode = 0x6004 ∧ t.flt.ldet = s.lt.line)) ∧
  (∀ (s : State), awake s = true → within (sec 1) s.sec.lastFault s = true →
        ∃ t, exec .secHalvesDisagree s = .next t ∧ t.sys.code = .boot ∧ t.boot.stage = 2 ∧ t.boot.safeLatch = true ∧
          t.img = Image.reset) ∧
  (∀ (s : State), awake s = false →
        exec .lockstepFault s = .next s ∧ exec .secHalvesDisagree s = .next s) ∧
  (∀ (s : State), s.sec.resetting = true →
        ∃ t, exec .secContextResume s = .next t ∧ t.sec = { s.sec with resetting := false } ∧ t.mnt = { s.mnt with unsent := [] } ∧
          (s.mnt.unsent = [] → t.out = s.out) ∧ t.sys = s.sys ∧ t.nvm = s.nvm ∧ t.lt = s.lt ∧ t.pix = s.pix ∧ t.fab = s.fab ∧
          (s.sys.code ≠ .boot → t.boot = s.boot) ∧
          (s.sys.code = .boot → t.boot.stage = 2 ∧ t.boot.staged = Image.reset ∧ t.boot.origin = s.boot.origin)) ∧
  (∀ (s : State) (e : CacheEntry) (a : Answer), s.sec.resetting = true → s.mnt.unsent = [e] → e.answer = some a →
        ∃ t, exec .secContextResume s = .next t ∧
          t.out = .frame e.req.lane (answerFrame s (answerSession s e.op) e.op e.req a) :: s.out) ∧
  (∀ (s : State), s.sec.resetting = false →
        exec .secContextResume s = .next s) ∧
  (∀ (s : State), working s = true →
        ∃ t, exec .ladleHalvesDisagree s = .next t ∧ t.pix.ladleFault = true ∧ t.sys = s.sys ∧ t.lt = s.lt ∧
          classCount t 0x60 = satInc 32 (classCount s 0x60) ∧
          ((∀ l, ladleDue s = some l → l.ingressed = false) → t.pix = { s.pix with ladleFault := true } ∧ t.fab = s.fab)) ∧
  (∀ (s : State) (l : LineRec) (rest : List LineRec), working s = true → s.spr.lines = l :: rest →
        ∃ t, exec .sprueHalvesDisagree s = .next t ∧ t.pix = s.pix ∧ t.fab = s.fab ∧ t.lt = s.lt ∧
          t.spr = { s.spr with lines := s.spr.lines.map fun x => if x.line = l.line then { x with withheld := true } else x } ∧
          classCount t 0x60 = satInc 32 (classCount s 0x60)) ∧
  (∀ (s : State), working s = true → s.spr.lines = [] →
        exec .sprueHalvesDisagree s = .next (report 0x6002 s)) ∧
  (∀ (s : State), working s = false →
        exec .ladleHalvesDisagree s = .next s ∧ exec .sprueHalvesDisagree s = .next s)

/-- The events that end boot stages 0x2 to 0x6, in every state. Where the spec leaves room the clauses follow the model's choices of log entries 1, 18. Basis: derived; cites 15_boot_commit.md, R562, R565, R566, R567, R568, R569, Table 15.1; 02_architecture.md, R66; 18_power_reset.md, R684. Says that these complete: selfTestDone, spllLock, spllLockRetry, flashIdle, flashBusyTimeout, sfdpChecked, logMapsRestored, pointerRead. -/
def Obligations.BootStagesBeforeTheImage : Prop :=
  (∀ (s : State), booting s = true → s.boot.stage ≤ 2 →
        exec .selfTestDone s = .next { s with boot := { s.boot with stage := if s.sys.spllLocked then 4 else 3 } }) ∧
  (∀ (s : State), (booting s = false ∨ 2 < s.boot.stage) →
        exec .selfTestDone s = .next s) ∧
  (∀ (s : State), s.sys.code ≠ .off → s.sys.supHalted = false →
        ∃ t, exec .spllLock s = .next t ∧ t.sys = { s.sys with refclk := true, spllLocked := true, supOnSpll := true } ∧
          t.boot = (if atStage 3 s then { s.boot with stage := 4 } else s.boot) ∧ t.lt = s.lt ∧ t.pix = s.pix ∧ t.fab = s.fab ∧
          t.hkc = s.hkc ∧ t.net = s.net ∧ t.flt = s.flt) ∧
  (∀ (s : State), (s.sys.code = .off ∨ s.sys.supHalted = true) →
        exec .spllLock s = .next s) ∧
  (∀ (s : State), atStage 3 s = true → s.sys.spllLocked = false →
        exec .spllLockRetry s = .next { s with sys := { s.sys with lockRetries := s.sys.lockRetries + 1 } }) ∧
  (∀ (s : State), (atStage 3 s = false ∨ s.sys.spllLocked = true) →
        exec .spllLockRetry s = .next s) ∧
  (∀ (s : State), atStage 4 s = true →
        exec .flashIdle s = .next { s with boot := { s.boot with flashReady := true } }) ∧
  (∀ (s : State) (f : Sfdp), atStage 4 s = false →
        exec .flashIdle s = .next s ∧ exec .flashBusyTimeout s = .next s ∧ exec (.sfdpChecked f) s = .next s) ∧
  (∀ (s : State), atStage 4 s = true → s.boot.flashReady = false →
        ∃ t, exec .flashBusyTimeout s = .next t ∧ t.sys.code = .safe ∧ t.sys.prev = .boot ∧ t.sys.safeKind = .refusal ∧
          t.img = Image.reset ∧ t.boot.staged = Image.reset ∧ t.boot.stage = 4 ∧ t.otp = s.otp ∧ t.flash = s.flash ∧
          classCount t 0xA0 = satInc 32 (classCount s 0xA0)) ∧
  (∀ (s : State), atStage 4 s = true → s.boot.flashReady = true →
        exec .flashBusyTimeout s = .next s) ∧
  (∀ (s : State) (f : Sfdp), atStage 4 s = true → s.boot.flashReady = true → sfdpOk f = true →
        exec (.sfdpChecked f) s = .next { s with
          boot := { s.boot with stage := if s.boot.cold then 5 else 6 }
          nvm := { s.nvm with density := f.densityMbit / 8, quad := true } }) ∧
  (∀ (s : State) (f : Sfdp), atStage 4 s = true → s.boot.flashReady = true → sfdpOk f = false →
        ∃ t, exec (.sfdpChecked f) s = .next t ∧ t.sys.code = .safe ∧ t.sys.prev = .boot ∧ t.sys.safeKind = .refusal ∧
          t.img = Image.reset ∧ t.boot.staged = Image.reset ∧ t.boot.stage = 4 ∧ t.otp = s.otp ∧ t.flash = s.flash ∧
          classCount t 0xA0 = satInc 32 (classCount s 0xA0)) ∧
  (∀ (s : State) (f : Sfdp), atStage 4 s = true → s.boot.flashReady = false →
        exec (.sfdpChecked f) s = .next s) ∧
  (∀ (f : Sfdp),
        sfdpOk f = true ↔ f.headerOk = true ∧ 512 ≤ f.densityMbit ∧ f.quadRead = true ∧ f.quadProgram = true ∧
          f.erase4k = true ∧ f.quadEnable = true) ∧
  (∀ (s : State), atStage 5 s = true →
      (∀ k ∈ usedSlots s.flash 0x2000 512 16, snapshotCommitted (Memory.bytes s.flash (snapAddr k) 512) = false) →
        ∃ t, exec .logMapsRestored s = .next t ∧ t.boot = { s.boot with stage := 6 } ∧ t.fab.bypass = none ∧
          (∀ p : Fin 72, t.fab.perch[p].failed = false) ∧ (∀ g : Fin 128, t.pix.subst[g] = Subst.reset) ∧ t.log.sc = 0 ∧
          t.sys = { s.sys with hseq := 65536 } ∧ t.flash = s.flash ∧ t.otp = s.otp) ∧
  (∀ (s : State) (k : Nat) (bs : List Byte), atStage 5 s = true → usedSlots s.flash 0x2000 512 16 = [k] →
      bs = Memory.bytes s.flash (snapAddr k) 512 → snapshotCommitted bs = true →
        ∃ t, exec .logMapsRestored s = .next t ∧ t.boot = { s.boot with stage := 6 } ∧
          t.fab.bypass = (if field bs 8 1 < 8 then some (field bs 8 1) else none) ∧
          (∀ p : Fin 72, t.fab.perch[p].failed = (field bs 10 9).testBit p.val) ∧
          (∀ g : Fin 128, t.pix.subst[g] = substOf (field bs (28 + 2 * g.val) 2)) ∧ t.log.sc = field bs 20 8 ∧
          t.log.snapSeq = field bs 4 4 ∧ t.sys = { s.sys with hseq := field bs 20 8 + 65536 } ∧ t.flash = s.flash ∧ t.otp = s.otp) ∧
  (∀ (s : State), atStage 5 s = false →
        exec .logMapsRestored s = .next s) ∧
  (∀ (s : State), atStage 6 s = true → pointerInForce s.flash = none →
        ∃ t, exec .pointerRead s = .next t ∧ t.boot = { s.boot with stage := 7, slot := 0, pointed := 0, ptrNone := true } ∧
          t.nvm.ptrValid = false ∧ t.sys = s.sys ∧ t.flash = s.flash ∧ t.otp = s.otp) ∧
  (∀ (s : State) (sector slot seq : Nat), atStage 6 s = true → pointerInForce s.flash = some (sector, slot, seq) →
        ∃ t, exec .pointerRead s = .next t ∧ t.boot = { s.boot with stage := 7, slot := slot, pointed := slot, ptrNone := false } ∧
          t.nvm.ptrValid = true ∧ t.nvm.ptrSlot = slot ∧ t.nvm.ptrSector = sector ∧ t.sys = s.sys ∧ t.flash = s.flash ∧
          t.otp = s.otp) ∧
  (∀ (s : State), atStage 6 s = false →
        exec .pointerRead s = .next s)

/-- The checks of boot stages 0x7 to 0x9 pass, or refuse the slot. Where the spec leaves room the clauses follow the model's choices of log entries 1, 18. Basis: derived; cites 15_boot_commit.md, R562, R570, R571, R574, R575, R577, R587, R590, R619, Tables 15.1 and 15.2; 07_wren.md, R288, R290, R292. Says that these complete: headerChecked, signatureVerified, sectionStreamed, retentionCheckDone, fitChecksDone. -/
def Obligations.BootChecksOfTheSlot : Prop :=
  (∀ (s : State), atStage 7 s = true → headerCode s.flash s.otp s.boot.slot = 0 →
        ∃ t, exec .headerChecked s = .next t ∧ t.boot = { s.boot with
            stage := 8, headerOk := true, nextSect := 1, staged := headerImage s.flash s.boot.slot
            tagged := tagMatches (headerImage s.flash s.boot.slot) s
            keeping := tagMatches (headerImage s.flash s.boot.slot) s } ∧
          t.img = s.img ∧ t.sys = s.sys ∧ t.fab = s.fab ∧ t.flt = s.flt ∧ t.otp = s.otp ∧ t.flash = s.flash) ∧
  (∀ (s : State), atStage 7 s = true → headerCode s.flash s.otp s.boot.slot ≠ 0 → s.boot.tried = false →
        ∃ t, exec .headerChecked s = .next t ∧ t.boot.stage = 7 ∧ t.boot.tried = true ∧ t.boot.slot = 1 - s.boot.slot ∧
          t.boot.staged = Image.reset ∧ t.boot.sigOk = false ∧ t.sys = s.sys ∧
          (s.boot.slot = 0 → t.boot.reasonA.toNat = headerCode s.flash s.otp 0) ∧
          classCount t 0x90 = satInc 32 (classCount s 0x90)) ∧
  (∀ (s : State), atStage 7 s = true → headerCode s.flash s.otp s.boot.slot ≠ 0 → s.boot.tried = true →
        ∃ t, exec .headerChecked s = .next t ∧ t.sys.code = .safe ∧ t.sys.prev = .boot ∧ t.sys.safeKind = .refusal ∧
          t.img = Image.reset ∧ t.boot.staged = Image.reset ∧ classCount t 0x90 = satInc 32 (classCount s 0x90)) ∧
  (∀ (s : State), atStage 7 s = false →
        exec .headerChecked s = .next s) ∧
  (∀ (s : State), atStage 8 s = true → s.boot.sigOk = false → signatureCode s.flash s.otp s.boot.slot = 0 →
        ∃ t, exec .signatureVerified s = .next t ∧ t.boot = { s.boot with sigOk := true, stage := t.boot.stage } ∧
          (t.boot.stage = 8 ∨ t.boot.stage = 9) ∧ t.img = s.img ∧ t.sys = s.sys ∧ t.fab = s.fab ∧ t.flt = s.flt ∧
          t.otp = s.otp ∧ t.flash = s.flash) ∧
  (∀ (s : State), atStage 8 s = true → s.boot.sigOk = false → signatureCode s.flash s.otp s.boot.slot ≠ 0 →
      s.boot.tried = false →
        ∃ t, exec .signatureVerified s = .next t ∧ t.boot.stage = 7 ∧ t.boot.tried = true ∧
          t.boot.slot = 1 - s.boot.slot ∧ t.boot.staged = Image.reset ∧ t.boot.sigOk = false ∧ t.sys = s.sys ∧
          (s.boot.slot = 0 → t.boot.reasonA.toNat = signatureCode s.flash s.otp 0) ∧
          classCount t 0x90 = satInc 32 (classCount s 0x90)) ∧
  (∀ (s : State), atStage 8 s = true → s.boot.sigOk = false → signatureCode s.flash s.otp s.boot.slot ≠ 0 →
      s.boot.tried = true →
        ∃ t, exec .signatureVerified s = .next t ∧ t.sys.code = .safe ∧ t.sys.safeKind = .refusal ∧ t.img = Image.reset ∧
          t.boot.staged = Image.reset ∧ classCount t 0x90 = satInc 32 (classCount s 0x90)) ∧
  (∀ (s : State), (atStage 8 s = false ∨ s.boot.sigOk = true) →
        exec .signatureVerified s = .next s) ∧
  (∀ (s : State) (k : Nat) (e : SectEntry), atStage 8 s = true → dueSection s = k → k < 13 → k ≠ 6 →
      e = s.boot.staged.table.getD k SectEntry.reset → sectionCode s.flash s.boot.slot e = 0 →
        ∃ t, exec .sectionStreamed s = .next t ∧ t.boot = { s.boot with
            nextSect := k + 1, staged := stageSection s.flash s.boot.slot e s.boot.staged, stage := t.boot.stage } ∧
          (t.boot.stage = 8 ∨ t.boot.stage = 9) ∧ t.img = s.img ∧ t.fab = s.fab ∧ t.sys = s.sys ∧ t.flt = s.flt) ∧
  (∀ (s : State) (e : SectEntry), atStage 8 s = true → dueSection s = 6 → s.boot.keeping = true →
      e = s.boot.staged.table.getD 6 SectEntry.reset →
        ∃ t, exec .sectionStreamed s = .next t ∧ t.boot = { s.boot with
            nextSect := if s.boot.nextSect = 13 then 13 else 7, part1Due := false
            staged := stageSection s.flash s.boot.slot e s.boot.staged, stage := t.boot.stage } ∧
          (t.boot.stage = 8 ∨ t.boot.stage = 9) ∧ t.img = s.img ∧ t.fab = s.fab ∧ t.sys = s.sys ∧ t.flt = s.flt) ∧
  (∀ (s : State) (e : SectEntry) (m : Image), atStage 8 s = true → dueSection s = 6 → s.boot.keeping = false →
      e = s.boot.staged.table.getD 6 SectEntry.reset → sectionCode s.flash s.boot.slot e = 0 →
      m = stageSection s.flash s.boot.slot e s.boot.staged →
        ∃ t, exec .sectionStreamed s = .next t ∧ t.boot = { s.boot with
            nextSect := if s.boot.nextSect = 13 then 13 else 7, part1Due := false, staged := m, stage := t.boot.stage } ∧
          (t.boot.stage = 8 ∨ t.boot.stage = 9) ∧ t.img = s.img ∧ t.sys = s.sys ∧ t.flt = s.flt ∧
          t.fab = (stageResident m s.boot.slot s).fab) ∧
  (∀ (s : State) (k : Nat), atStage 8 s = true → dueSection s = k → k < 13 → (k = 6 → s.boot.keeping = false) →
      sectionCode s.flash s.boot.slot (s.boot.staged.table.getD k SectEntry.reset) ≠ 0 →
        ∃ t, exec .sectionStreamed s = .next t ∧ t.img = (if s.boot.tried then Image.reset else s.img) ∧
          t.boot.staged = Image.reset ∧ classCount t 0x90 = satInc 32 (classCount s 0x90) ∧
          (s.boot.tried = false → t.boot.stage = 7 ∧ t.boot.tried = true ∧ t.boot.slot = 1 - s.boot.slot ∧ t.sys = s.sys) ∧
          (s.boot.tried = true → t.sys.code = .safe ∧ t.sys.safeKind = .refusal)) ∧
  (∀ (s : State), (atStage 8 s = false ∨ 13 ≤ dueSection s) →
        exec .sectionStreamed s = .next s) ∧
  (∀ (s : State) (p : Fin 72) (found : List (Nat × Ecc)), retentionDue p s = true →
      retentionOk s.boot.staged p (retentionReads s.boot.staged p found s) = true →
        ∃ t, exec (.retentionCheckDone p found) s = .next t ∧
          t.boot = { s.boot with checked := s.boot.checked ++ [p.val], stage := t.boot.stage } ∧
          (t.boot.stage = 8 ∨ t.boot.stage = 9) ∧ t.fab = (retentionReads s.boot.staged p found s).fab ∧
          (found = [] → t.fab = s.fab ∧ t.flt = s.flt) ∧ t.img = s.img ∧ t.sys = s.sys) ∧
  (∀ (s : State) (p : Fin 72) (found : List (Nat × Ecc)), retentionDue p s = true →
      retentionOk s.boot.staged p (retentionReads s.boot.staged p found s) = false →
        ∃ t, exec (.retentionCheckDone p found) s = .next t ∧ t.boot = { s.boot with
            checked := s.boot.checked ++ [p.val], keeping := false
            part1Due := if s.boot.keeping then decide (6 < s.boot.nextSect) else s.boot.part1Due } ∧
          t.fab.perch[p].wren.retainFail = true ∧ t.img = s.img ∧ t.sys = s.sys ∧
          (found = [] → t.fab.wcnt.retainFails = satInc 32 s.fab.wcnt.retainFails)) ∧
  (∀ (s : State) (p : Fin 72) (found : List (Nat × Ecc)), retentionDue p s = false →
        exec (.retentionCheckDone p found) s = .next s) ∧
  (∀ (s : State), atStage 9 s = true → s.boot.edgeReady = false →
      (fitCode s.boot.staged s.boot.slot s.boot.keeping s).1 = 0 →
        ∃ t, exec (.fitChecksDone false) s = .next t ∧ t.boot = { s.boot with
            edgeReady := true, fallback := s.boot.tried, retained := s.boot.keeping
            safeLatch := s.boot.safeLatch || decide (1360 ≤ s.hkc.stack)
            staged := { s.boot.staged with rowSums := (List.range 8).map (rowSum s.boot.staged.items) } } ∧
          t.sys = s.sys ∧ t.img = s.img ∧ t.lt = s.lt ∧ t.pix = s.pix ∧ t.fab.perch = s.fab.perch ∧ t.flt = s.flt) ∧
  (∀ (s : State), atStage 9 s = true → s.boot.edgeReady = false →
      0x10 ≤ (fitCode s.boot.staged s.boot.slot s.boot.keeping s).1 →
        ∃ t, exec (.fitChecksDone false) s = .next t ∧ t.sys.code = .safe ∧ t.sys.prev = .boot ∧ t.sys.safeKind = .refusal ∧
          t.img = Image.reset ∧ t.boot.staged = Image.reset ∧ classCount t 0x90 = satInc 32 (classCount s 0x90)) ∧
  (∀ (s : State), atStage 9 s = true → s.boot.edgeReady = false →
        ∃ t, exec (.fitChecksDone true) s = .next t ∧ t.boot.staged = Image.reset ∧
          classCount t 0x90 = satInc 32 (classCount s 0x90) ∧
          (s.boot.slot = 0 → t.boot.reasonA = 8) ∧
          (s.boot.tried = false → t.boot.stage = 7 ∧ t.boot.tried = true ∧ t.boot.slot = 1 - s.boot.slot ∧ t.sys = s.sys) ∧
          (s.boot.tried = true → t.sys.code = .safe ∧ t.sys.safeKind = .refusal ∧ t.img = Image.reset)) ∧
  (∀ (s : State) (upset : Bool), (atStage 9 s = false ∨ s.boot.edgeReady = true) →
        exec (.fitChecksDone upset) s = .next s)

/-- The COMMIT edge applies the staged image at once, and COMMIT ends in RUN. Where the spec leaves room the clauses follow the model's choices of log entries 1, 18. Basis: derived; cites 15_boot_commit.md, R562, R580, R582, R588; 17_maintenance_recovery.md, R634; 04_line_timing.md, R158. Says that these complete: commitEdge, commitDone. -/
def Obligations.CommitAppliesTheWholeImage : Prop :=
  (∀ (s : State), atStage 9 s = true → s.boot.edgeReady = true → s.boot.safeLatch = false →
        ∃ t, exec .commitEdge s = .next t ∧ t.img = s.boot.staged ∧
          t.sys = { s.sys with
            code := .commit, prev := .boot, funcCount := 0, mntAccepted := 0, mntBad := 0, mntStale := 0, mntDropped := 0, otpFail := 0 } ∧
          t.boot = { s.boot with stage := 10, staged := Image.reset, edgeReady := false } ∧
          t.flt = { s.flt with evtDrop := 0, summaryLost := 0, classCount := [] } ∧
          t.nvm = { s.nvm with erased := 0, programmed := 0 } ∧ t.fab.cnt = FabCnt.reset ∧
          t.lt = { Lt.reset with encA := s.lt.encA, encB := s.lt.encB, encZ := s.lt.encZ, stbOut := true } ∧
          t.otp = s.otp ∧ t.flash = s.flash ∧ t.log = s.log) ∧
  (∀ (s : State), atStage 9 s = true → s.boot.edgeReady = true → s.boot.safeLatch = true →
        ∃ t, exec .commitEdge s = .next t ∧ t.sys.code = .safe ∧ t.sys.prev = .boot ∧ t.sys.safeKind = .accepted ∧
          t.img = { s.boot.staged with items := s.boot.staged.items.filter fun i => decide (7 ≤ i.id / 256) } ∧
          t.boot.staged = Image.reset ∧ t.boot.edgeReady = false ∧ t.flt.classCount = [] ∧ t.sys.mntAccepted = 0 ∧
          t.nvm = { s.nvm with erased := 0, programmed := 0 } ∧ t.fab.cnt = FabCnt.reset ∧ t.fab.released = false ∧
          t.pix.settled = false ∧ t.otp = s.otp ∧ t.flash = s.flash) ∧
  (∀ (s : State), (atStage 9 s = false ∨ s.boot.edgeReady = false) →
        exec .commitEdge s = .next s) ∧
  (∀ (s : State), s.sys.code = .commit → supRuns s = true →
        ∃ t, exec .commitDone s = .next t ∧ t.sys.code = .run ∧ t.sys.prev = .commit ∧ t.boot.stage = 11 ∧ t.img = s.img ∧
          t.fab = { s.fab with released := true } ∧ t.pix.settled = true ∧ t.lt = s.lt ∧ t.flt = s.flt ∧ t.otp = s.otp ∧
          t.flash = s.flash) ∧
  (∀ (s : State), (s.sys.code ≠ .commit ∨ supRuns s = false) →
        exec .commitDone s = .next s)

/-- RUN, HOLD and SLEEP follow one another as the table says. Where the spec leaves room the clauses follow the model's choices of log entries 1, 37. Basis: derived; cites 18_power_reset.md, R654, R655, R656, R657, R658, R660, R661, R663, Table 18.3; 04_line_timing.md, R145, R148, R158; 05_cope_fields.md, R203; 11_egress.md, R428. Says that these complete: holdEntry, sleepEntry, wakeEvent, wakeComplete. -/
def Obligations.HoldSleepAndWake : Prop :=
  (∀ (s : State), s.sys.code = .run → supRuns s = true →
        ∃ t, exec .holdEntry s = .next t ∧ t.sys.code = .hold ∧ t.sys.prev = .run ∧ t.lt = { s.lt with stb := 0, gates := 0 } ∧
          t.img = s.img ∧ t.boot = s.boot ∧ t.fab = s.fab ∧ t.pix = s.pix ∧ t.hkc = s.hkc ∧ t.otp = s.otp ∧ t.flash = s.flash) ∧
  (∀ (s : State), (s.sys.code ≠ .run ∨ supRuns s = false) →
        exec .holdEntry s = .next s) ∧
  (∀ (s : State), maySleep s = true →
        ∃ t, exec .sleepEntry s = .next t ∧ t.sys.code = .sleep ∧ t.sys.prev = .hold ∧ t.sys.supHalted = true ∧
          t.sys.spllLocked = false ∧ t.sys.supOnSpll = false ∧ t.sys.bootOsc = false ∧ t.lt.stb = 0 ∧ t.lt.gates = 0 ∧
          t.lt.request = none ∧ t.lt.ticks = [] ∧ t.lt.acc = 0 ∧ t.lt.deficit = 0 ∧ t.lt.line = s.lt.line ∧
          t.pix.hist = Vector.replicate 256 HistSlot.reset ∧ t.net.ring = [] ∧ t.net.queue = [] ∧ t.spr.events = [] ∧
          (∀ p : Fin 72, t.fab.perch[p].powered = false) ∧ t.ptp.running = false ∧ t.hkc.sleepScan = true ∧
          t.img = s.img ∧ t.boot = s.boot ∧ t.otp = s.otp ∧ t.flash = s.flash) ∧
  (∀ (s : State), maySleep s = false →
        exec .sleepEntry s = .next s) ∧
  (∀ (s : State),
        maySleep s = true ↔ s.sys.code = .hold ∧ s.sys.supResetting = false ∧ s.img.nat Fld.sleepDelay [] ≠ 0 ∧
          s.star.encMaster = false ∧ s.nvm.locked = false ∧ s.sys.funcBusy = 0 ∧ s.log.queue = [] ∧ s.log.snapPending = false) ∧
  (∀ (s : State) (w : WakeSrc), s.sys.code = .sleep → s.sys.waking = false → wakes w s = true →
        exec (.wakeEvent w) s = .next { s with sys := { s.sys with waking := true, supHalted := false, bootOsc := true } }) ∧
  (∀ (s : State) (w : WakeSrc), (s.sys.code ≠ .sleep ∨ s.sys.waking = true ∨ wakes w s = false) →
        exec (.wakeEvent w) s = .next s) ∧
  (∀ (s : State) (found : List (Fin 72 × Nat × Ecc)), s.sys.code = .sleep → s.sys.waking = true →
      s.sys.refclk = true → supRuns s = true → s.sec.resetting = false → wakeSectionsOk s = true →
        ∃ t, exec (.wakeComplete found) s = .next t ∧ t.sys.code = .run ∧ t.sys.prev = .sleep ∧ t.sys.waking = false ∧
          t.sys.spllLocked = true ∧ t.sys.supOnSpll = true ∧ t.lt.restart = true ∧ t.lt.drained = true ∧
          t.pix.settled = true ∧ t.ptp.running = true ∧ t.ptp.tBase = 0 ∧ t.img = s.img ∧ t.otp = s.otp ∧
          t.flash = s.flash) ∧
  (∀ (s : State) (found : List (Fin 72 × Nat × Ecc)), s.sys.code = .sleep → s.sys.waking = true →
      s.sys.refclk = true → supRuns s = true → s.sec.resetting = false → wakeSectionsOk s = false →
        ∃ t, exec (.wakeComplete found) s = .next t ∧ t.sys.code = .boot ∧ t.sys.cause = 3 ∧ t.sys.bySup = true ∧
          t.sys.resetFault = 0xA003 ∧ t.img = Image.reset ∧ t.boot.stage = 2 ∧ t.boot.warm = true ∧ t.otp = s.otp ∧
          t.flash = s.flash) ∧
  (∀ (s : State) (found : List (Fin 72 × Nat × Ecc)),
      (s.sys.code ≠ .sleep ∨ s.sys.waking = false ∨ s.sys.refclk = false ∨ supRuns s = false ∨ s.sec.resetting = true) →
        exec (.wakeComplete found) s = .next s)

/-- ENCA and ENCB on one sample are an error, not an edge. Basis: stated; cites R133. Says that these complete: encEdge. -/
def Obligations.BothInputsAtOnceCountNoEdge : Prop :=
  ∀ (s : State) (samples : Nat), filterAccepts samples s = true → isMaster s = true →
        exec (.encEdge .both samples) s = .next { s with lt := { s.lt with
          encA := !s.lt.encA
          encB := !s.lt.encB
          encErr := satInc 32 s.lt.encErr
          encErrSticky := true
          encErrAt := some s.now } }

/-- Edges count through the accumulator and the deficit, and raise line requests. Where the spec leaves room the clauses follow the model's choices of log entry 22. Basis: derived; cites 04_line_timing.md, R130, R131, R134, R138 to R140, R144. Says that these complete: encEdge, enczEdge. -/
def Obligations.EncoderEdgesFeedTheAccumulator : Prop :=
  (∀ (s : State) (e : EncInput) (samples : Nat), filterAccepts samples s = false →
        exec (.encEdge e samples) s = .next s ∧ exec (.enczEdge samples) s = .next s) ∧
  (∀ (s : State) (samples : Nat),
        filterAccepts samples s = true ↔ s.sys.spllLocked = true ∧ s.sys.code ≠ .off ∧ s.sys.code ≠ .sleep ∧
          s.img.nat Fld.encFilt [] ≤ samples) ∧
  (∀ (s : State) (e : EncInput) (samples : Nat), filterAccepts samples s = true → isMaster s = false →
        exec (.encEdge e samples) s = .next { s with lt := { s.lt with
          encA := if e = .b then s.lt.encA else !s.lt.encA
          encB := if e = .a then s.lt.encB else !s.lt.encB } }) ∧
  (∀ (s : State) (e : EncInput) (samples : Nat) (a b : Bool), filterAccepts samples s = true → isMaster s = true →
      e ≠ .both → (a = (if e = .b then s.lt.encA else !s.lt.encA)) →
      (b = (if e = .a then s.lt.encB else !s.lt.encB)) →
      forward (s.img.on Fld.encDir []) (decide (e = .a)) a b = false →
        exec (.encEdge e samples) s = .next { s with lt := { s.lt with
          encA := a, encB := b, deficit := min (s.lt.deficit + 1) (2 ^ 32 - 1) } }) ∧
  (∀ (s : State) (e : EncInput) (samples : Nat) (a b : Bool), filterAccepts samples s = true → isMaster s = true →
      e ≠ .both → (a = (if e = .b then s.lt.encA else !s.lt.encA)) →
      (b = (if e = .a then s.lt.encB else !s.lt.encB)) →
      forward (s.img.on Fld.encDir []) (decide (e = .a)) a b = true → 0 < s.lt.deficit →
        exec (.encEdge e samples) s = .next { s with lt := { s.lt with
          encA := a, encB := b, deficit := s.lt.deficit - 1 } }) ∧
  (∀ (s : State) (e : EncInput) (samples : Nat) (a b : Bool), filterAccepts samples s = true → isMaster s = true →
      e ≠ .both → (a = (if e = .b then s.lt.encA else !s.lt.encA)) →
      (b = (if e = .a then s.lt.encB else !s.lt.encB)) →
      forward (s.img.on Fld.encDir []) (decide (e = .a)) a b = true → s.lt.deficit = 0 →
      s.lt.acc + 2 ^ 20 < s.img.nat Fld.encRatio [] →
        exec (.encEdge e samples) s = .next { s with lt := { s.lt with
          encA := a, encB := b, acc := s.lt.acc + 2 ^ 20 } }) ∧
  (∀ (s : State) (e : EncInput) (samples n : Nat) (a b : Bool), filterAccepts samples s = true → isMaster s = true →
      e ≠ .both → (a = (if e = .b then s.lt.encA else !s.lt.encA)) →
      (b = (if e = .a then s.lt.encB else !s.lt.encB)) →
      forward (s.img.on Fld.encDir []) (decide (e = .a)) a b = true → s.lt.deficit = 0 →
      s.img.nat Fld.encRatio [] ≤ s.lt.acc + 2 ^ 20 → s.lt.request = some n →
        exec (.encEdge e samples) s = .next { s with lt := { s.lt with
          encA := a, encB := b, acc := s.lt.acc + 2 ^ 20 - s.img.nat Fld.encRatio []
          request := some (n + 1)
          merged := satInc 32 s.lt.merged } }) ∧
  (∀ (s : State) (e : EncInput) (samples : Nat) (a b : Bool), filterAccepts samples s = true → isMaster s = true →
      e ≠ .both → (a = (if e = .b then s.lt.encA else !s.lt.encA)) →
      (b = (if e = .a then s.lt.encB else !s.lt.encB)) →
      forward (s.img.on Fld.encDir []) (decide (e = .a)) a b = true → s.lt.deficit = 0 →
      s.img.nat Fld.encRatio [] ≤ s.lt.acc + 2 ^ 20 → s.lt.request = none →
      (∀ t, s.lt.lastTrig = some t → t + s.img.nat Fld.tlMin [] ≤ s.now + 2) →
        exec (.encEdge e samples) s = .next { s with lt := { s.lt with
          encA := a, encB := b, acc := s.lt.acc + 2 ^ 20 - s.img.nat Fld.encRatio []
          request := some 0
          clampDefer := false
          drainDefer := s.lt.drain } }) ∧
  (∀ (s : State) (e : EncInput) (samples t : Nat) (a b : Bool), filterAccepts samples s = true → isMaster s = true →
      e ≠ .both → (a = (if e = .b then s.lt.encA else !s.lt.encA)) →
      (b = (if e = .a then s.lt.encB else !s.lt.encB)) →
      forward (s.img.on Fld.encDir []) (decide (e = .a)) a b = true → s.lt.deficit = 0 →
      s.img.nat Fld.encRatio [] ≤ s.lt.acc + 2 ^ 20 → s.lt.request = none → s.lt.lastTrig = some t →
      s.now + 2 < t + s.img.nat Fld.tlMin [] →
        exec (.encEdge e samples) s = .next { s with lt := { s.lt with
          encA := a, encB := b, acc := s.lt.acc + 2 ^ 20 - s.img.nat Fld.encRatio []
          request := some 0
          clampDefer := true
          drainDefer := s.lt.drain
          deferred := satInc 32 s.lt.deferred } }) ∧
  (∀ (s : State) (samples : Nat), filterAccepts samples s = true →
      (s.lt.encZ = true ∨ s.img.on Fld.enczEn [] = false ∨ isMaster s = false) →
        exec (.enczEdge samples) s = .next { s with lt := { s.lt with encZ := !s.lt.encZ } }) ∧
  (∀ (s : State) (samples : Nat), filterAccepts samples s = true → isMaster s = true → s.lt.encZ = false →
      s.img.on Fld.enczEn [] = true → s.lt.enczMark = false →
        exec (.enczEdge samples) s = .next { s with lt := { s.lt with encZ := true, enczMark := true } }) ∧
  (∀ (s : State) (samples : Nat), filterAccepts samples s = true → isMaster s = true → s.lt.encZ = false →
      s.img.on Fld.enczEn [] = true → s.lt.enczMark = true →
        exec (.enczEdge samples) s = .next { s with lt := { s.lt with encZ := true, enczExtra := satInc 32 s.lt.enczExtra } })

/-- A line trigger takes the request or the tick, begins the line and leaves HOLD. Where the spec leaves room the clauses follow the model's choices of log entries 1, 22. Basis: derived; cites 04_line_timing.md, R135 to R145, R150, R165, R166; 12_starling.md, R466, R471; 02_architecture.md, R66. Says that these complete: lineTrigger, deferredTrigger, stopDetect, drainComplete. -/
def Obligations.TriggersBeginTheirLines : Prop :=
  (∀ (s : State) (n : Nat), isMaster s = true → ltRuns s = true → s.lt.drain = false → s.lt.ticks = [] →
      s.lt.request = some n → s.lt.clampDefer = false → s.lt.drainDefer = false →
        ∃ t, exec .lineTrigger s = .next t ∧ t.lt.line = nextLine s ∧ t.lt.anyLine = true ∧
          t.lt.lastTrig = some s.now ∧ t.lt.period = periodNow s ∧ t.lt.request = none ∧ t.lt.clampDefer = false ∧
          t.lt.drainDefer = false ∧ t.lt.enczMark = false ∧ t.lt.stopped = false ∧ t.lt.drained = false ∧
          t.lt.restart = false ∧ t.lt.pulsed = 0 ∧ t.lt.closes = 0 ∧
          (∃ l, t.spr.lines = s.spr.lines ++ [l] ∧ l.line = nextLine s ∧ l.speedLimit = false ∧
            l.merged = min n 255 ∧ l.encz = s.lt.enczMark ∧ l.restart = (s.lt.restart || s.fab.restart)) ∧
          t.sys.code = (if s.sys.code = .hold then .run else s.sys.code) ∧ t.img = s.img ∧ t.otp = s.otp ∧ t.flash = s.flash) ∧
  (∀ (s : State) (n : Nat), isMaster s = true → ltRuns s = true → s.lt.drain = false → s.lt.ticks = [] →
      s.lt.request = some n → (s.lt.clampDefer = true ∨ s.lt.drainDefer = true) →
        ∃ t, exec .deferredTrigger s = .next t ∧ t.lt.line = nextLine s ∧ t.lt.anyLine = true ∧
          t.lt.lastTrig = some s.now ∧ t.lt.period = periodNow s ∧ t.lt.request = none ∧ t.lt.clampDefer = false ∧
          t.lt.drainDefer = false ∧ t.lt.enczMark = false ∧ t.lt.stopped = false ∧ t.lt.drained = false ∧
          t.lt.restart = false ∧ t.lt.pulsed = 0 ∧ t.lt.closes = 0 ∧
          (∃ l, t.spr.lines = s.spr.lines ++ [l] ∧ l.line = nextLine s ∧ l.speedLimit = s.lt.clampDefer ∧
            l.merged = min n 255 ∧ l.encz = s.lt.enczMark ∧ l.restart = (s.lt.restart || s.fab.restart)) ∧
          t.sys.code = (if s.sys.code = .hold then .run else s.sys.code) ∧ t.img = s.img ∧ t.otp = s.otp ∧ t.flash = s.flash) ∧
  (∀ (s : State) (k : TickInfo) (rest : List TickInfo), live s = true → ltRuns s = true → s.lt.drain = false →
      s.lt.ticks = k :: rest →
        ∃ t, exec .lineTrigger s = .next t ∧ exec .deferredTrigger s = .next t ∧ t.lt.line = k.line ∧ t.lt.ticks = rest ∧
          t.lt.lastTrig = some s.now ∧ t.lt.period = periodNow s ∧ t.lt.anyLine = true ∧ t.lt.enczMark = false ∧
          t.lt.stopped = false ∧ t.lt.drained = false ∧ t.lt.restart = false ∧ t.lt.pulsed = 0 ∧ t.lt.closes = 0 ∧
          (∃ l, t.spr.lines.getLast? = some l ∧ l.line = k.line ∧ l.speedLimit = k.deferred ∧ l.merged = min k.merge 255 ∧
            l.encz = (k.encz || s.lt.enczMark)) ∧
          t.sys.code = (if s.sys.code = .hold then .run else s.sys.code) ∧ t.img = s.img ∧ t.otp = s.otp ∧ t.flash = s.flash) ∧
  (∀ (s : State),
      (live s = false ∨ ltRuns s = false ∨ s.lt.drain = true ∨ (s.lt.ticks = [] ∧ s.lt.request = none) ∨ (s.lt.ticks = [] ∧ isMaster s = false)) →
        exec .lineTrigger s = .next s ∧ exec .deferredTrigger s = .next s) ∧
  (∀ (s : State), s.lt.ticks = [] → (s.lt.clampDefer = true ∨ s.lt.drainDefer = true) →
        exec .lineTrigger s = .next s) ∧
  (∀ (s : State), s.lt.ticks = [] → s.lt.clampDefer = false → s.lt.drainDefer = false →
        exec .deferredTrigger s = .next s) ∧
  (∀ (s : State), live s = true → ltRuns s = true → s.lt.lastTrig ≠ none → s.lt.stopped = false →
        ∃ t, exec .stopDetect s = .next t ∧ t.lt = { s.lt with stopped := true, drain := true, restart := true } ∧
          t.sys = s.sys ∧ t.spr = s.spr ∧ t.fab = s.fab ∧ t.flt = s.flt ∧
          (∀ k : Fin 4, s.img.on Fld.affEn [] = true → t.pix.aff.frozen.getLsbD k = true ∧ t.pix.aff.lines[k] = 0)) ∧
  (∀ (s : State), (live s = false ∨ ltRuns s = false ∨ s.lt.lastTrig = none ∨ s.lt.stopped = true) →
        exec .stopDetect s = .next s) ∧
  (∀ (s : State), s.lt.drain = true → ltRuns s = true →
        exec .drainComplete s = .next { s with
          lt := { s.lt with drain := false, drained := true }
          pix := { s.pix with charge := Vector.replicate 128 0 } }) ∧
  (∀ (s : State), (s.lt.drain = false ∨ ltRuns s = false) →
        exec .drainComplete s = .next s)

/-- Strobes, gates and slot closes of the line in progress. Where the spec leaves room the clauses follow the model's choices of log entries 1, 24. Basis: derived; cites 04_line_timing.md, R153, R154; 02_architecture.md, R55, R56; 03_promises.md, R101; 05_cope_fields.md, R161, R163, R164. Says that these complete: stbAssert, fieldGateOpen, stbDeassert, fieldGateClose. -/
def Obligations.StrobesAndGatesOfALine : Prop :=
  (∀ (s : State) (k : Fin 4), slotDue k s = true → s.lt.pulsed.getLsbD k = false →
        exec (.stbAssert k) s = .next { s with lt := { s.lt with stb := s.lt.stb ||| bit4 k, pulsed := s.lt.pulsed ||| bit4 k } }) ∧
  (∀ (s : State) (k : Fin 4), (slotDue k s = false ∨ s.lt.pulsed.getLsbD k = true) →
        exec (.stbAssert k) s = .next s) ∧
  (∀ (s : State) (k : Fin 4), slotDue k s = true →
        exec (.fieldGateOpen k) s = .next { s with lt := { s.lt with gates := s.lt.gates ||| bit4 k } }) ∧
  (∀ (s : State) (k : Fin 4), slotDue k s = false →
        exec (.fieldGateOpen k) s = .next s) ∧
  (∀ (s : State) (k : Fin 4),
        exec (.stbDeassert k) s = .next { s with lt := { s.lt with stb := s.lt.stb &&& ~~~bit4 k } }) ∧
  (∀ (s : State) (k : Fin 4) (rows : List (Fin 32)), s.lt.gates.getLsbD k = true → ltRuns s = true →
        ∃ t, exec (.fieldGateClose k rows) s = .next t ∧ t.lt = { s.lt with
            gates := s.lt.gates &&& ~~~bit4 k
            closes := s.lt.closes ||| bit4 k
            eTime := if s.lt.closes ||| bit4 k = fieldBits s.img.slots then some s.now else s.lt.eTime } ∧
          t.pix.closed = s.pix.closed.set k (if s.pix.fieldLost.getLsbD k then none else some s.lt.line) ∧
          t.pix.closedStages = s.pix.closedStages.set k s.pix.stages[k] ∧
          (∀ i : Fin 128, t.pix.charge[i] =
            if i.val / 32 = k.val ∧ i.val % 32 < s.pix.stages[k] then s.pix.charge[i] + 1 else s.pix.charge[i]) ∧
          (rows = [] → t.pix.stages = s.pix.stages ∧ t.pix.fieldLost = s.pix.fieldLost ∧ t.flt = s.flt) ∧
          t.fab = s.fab ∧ t.img = s.img ∧ t.sys = s.sys) ∧
  (∀ (s : State) (k : Fin 4), s.lt.gates.getLsbD k = true → ltRuns s = true →
        ∃ t, exec (.fieldGateClose k []) s = .next t ∧
          t.spr = (if s.lt.closes ||| bit4 k = fieldBits s.img.slots then
            (markLine s.lt.line (fun l => { l with exposed := true }) s).spr else s.spr)) ∧
  (∀ (s : State) (k : Fin 4) (r : Fin 32), s.lt.gates.getLsbD k = true → ltRuns s = true →
      s.pix.badRows.contains (32 * k.val + r.val) = false → r.val < s.pix.stages[k] →
        ∃ t, exec (.fieldGateClose k [r]) s = .next t ∧ t.pix.stages = s.pix.stages.set k r.val ∧
          t.pix.badRows = (32 * k.val + r.val) :: s.pix.badRows ∧
          t.pix.fieldLost = (if r.val = 0 then s.pix.fieldLost ||| bit4 k else s.pix.fieldLost) ∧
          t.pix.lostAt = (if r.val = 0 then s.pix.lostAt.set k (some s.lt.line) else s.pix.lostAt) ∧
          classCount t 2 = satInc 32 (classCount s 2)) ∧
  (∀ (s : State) (k : Fin 4) (r : Fin 32), s.lt.gates.getLsbD k = true → ltRuns s = true →
      s.pix.badRows.contains (32 * k.val + r.val) = false → s.pix.stages[k] ≤ r.val →
        ∃ t, exec (.fieldGateClose k [r]) s = .next t ∧ t.pix.stages = s.pix.stages ∧ t.pix.fieldLost = s.pix.fieldLost ∧
          t.pix.badRows = (32 * k.val + r.val) :: s.pix.badRows ∧ classCount t 2 = satInc 32 (classCount s 2)) ∧
  (∀ (s : State) (k : Fin 4) (rows : List (Fin 32)), (s.lt.gates.getLsbD k = false ∨ ltRuns s = false) →
        exec (.fieldGateClose k rows) s = .next s)

/-- Conversions join the buffer, lines complete in the Ladle, dark columns and windows follow. Where the spec leaves room the clauses follow the model's choices of log entries 1, 13, 24. Basis: derived; cites 02_architecture.md, R56, R59, R66; 05_cope_fields.md, R167, R172, R177, R178, R189, R191, R200, R201. Says that these complete: conversionComplete, ladleLineComplete, darkColumnExclude, affWindowEnd, affThaw. -/
def Obligations.ConversionsReachTheLadle : Prop :=
  (∀ (s : State) (k : Fin 4) (px shadow : List (BitVec 12)) (n : Nat), s.pix.closed[k] = some n → clocked s = true →
      reinitBusy .pixel s = false →
        ∃ t, exec (.conversionComplete k px shadow) s = .next t ∧ t.pix.closed = s.pix.closed.set k none ∧
          t.pix.regBuf[k] = ⟨n, substituted s (px.map (·.toNat)) (shadow.map (·.toNat)), s.pix.closedStages[k],
            s.pix.charge.toList.getD (32 * k.val) 0⟩ :: s.pix.regBuf[k] ∧
          (∀ j : Fin 4, j ≠ k → t.pix.regBuf[j] = s.pix.regBuf[j]) ∧ t.lt = s.lt ∧ t.fab = s.fab ∧ t.img = s.img) ∧
  (∀ (s : State) (px shadow : List Nat), (∀ g : Fin 128, s.pix.subst[g].valid = false) →
        substituted s px shadow = px) ∧
  (∀ (s : State) (k : Fin 4) (px shadow : List (BitVec 12)) (n : Nat), s.pix.closed[k] = some n → clocked s = true →
      reinitBusy .pixel s = true →
        exec (.conversionComplete k px shadow) s = .next { s with pix := { s.pix with closed := s.pix.closed.set k none } }) ∧
  (∀ (s : State) (k : Fin 4) (px shadow : List (BitVec 12)), (s.pix.closed[k] = none ∨ clocked s = false) →
        exec (.conversionComplete k px shadow) s = .next s) ∧
  (∀ (s : State) (l : LineRec) (reg : List (Fin 4 × Ecc)), live s = true → clocked s = true → ladleDue s = some l →
        ∃ t, exec (.ladleLineComplete reg) s = .next t ∧ t.pix.ladleFault = false ∧
          (t.pix.hist[l.line % 256]'(Nat.mod_lt _ (by decide))).line = l.line ∧
          (t.pix.hist[l.line % 256]'(Nat.mod_lt _ (by decide))).valid =
            ((ladleFields s l.line).any Option.isSome && !s.pix.ladleFault) ∧
          t.pix.ingress = (if l.ingressed then s.pix.ingress else s.pix.ingress ++ [ladleOut s l.line (regBadFields reg)]) ∧
          t.pix.regMissing = (if sampleMissing s l.line then satInc 32 s.pix.regMissing else s.pix.regMissing) ∧
          (∀ x ∈ t.spr.lines, x.line = l.line → x.ladleDone = true ∧ x.delivered = fieldBits (deliveredOf s l.line)) ∧
          t.spr.lines.length = s.spr.lines.length ∧ (l.ingressed = false → t.fab = s.fab) ∧ t.lt = s.lt ∧
          (reg = [] → t.flt = s.flt ∧ t.log = s.log)) ∧
  (∀ (s : State) (l : LineRec) (k : Fin 4), live s = true → clocked s = true → ladleDue s = some l →
        ∃ t u, exec (.ladleLineComplete [(k, .corrected)]) s = .next t ∧ exec (.ladleLineComplete [(k, .uncorrectable)]) s = .next u ∧
          classCount t 0x11 = satInc 32 (classCount s 0x11) ∧ classCount u 0x12 = satInc 32 (classCount s 0x12) ∧
          (u.pix.hist[l.line % 256]'(Nat.mod_lt _ (by decide))).poison = true) ∧
  (∀ (s : State) (reg : List (Fin 4 × Ecc)), (live s = false ∨ clocked s = false ∨ ladleDue s = none) →
        exec (.ladleLineComplete reg) s = .next s) ∧
  (∀ (s : State) (i : Fin 32), clocked s = true → 64 ≤ s.pix.runL[i] →
        exec (.darkColumnExclude true i) s = .next { s with pix := { s.pix with exclL := s.pix.exclL ||| (1#32 <<< i.val) } }) ∧
  (∀ (s : State) (i : Fin 32), clocked s = true → 64 ≤ s.pix.runR[i] →
        exec (.darkColumnExclude false i) s = .next { s with pix := { s.pix with exclR := s.pix.exclR ||| (1#32 <<< i.val) } }) ∧
  (∀ (s : State) (left : Bool) (i : Fin 32),
      (clocked s = false ∨ (if left then s.pix.runL[i] else s.pix.runR[i]) < 64) →
        exec (.darkColumnExclude left i) s = .next s) ∧
  (∀ (s : State), s.img.on Fld.affEn [] = true → clocked s = true →
        ∃ t, exec .affWindowEnd s = .next t ∧
          (∀ k : Fin 4, t.pix.aff.lines[k] =
            if s.img.on Fld.slotEn [k] = true ∧ s.pix.aff.frozen.getLsbD k = false ∧
              s.img.nat Fld.affWindow [] ≤ s.pix.aff.lines[k] then 0 else s.pix.aff.lines[k]) ∧
          t.pix.aff.frozen = s.pix.aff.frozen ∧ t.pix.regBuf = s.pix.regBuf ∧ t.pix.hist = s.pix.hist ∧ t.lt = s.lt ∧
          t.fab = s.fab ∧ t.spr = s.spr) ∧
  (∀ (s : State), (s.img.on Fld.affEn [] = false ∨ clocked s = false) →
        exec .affWindowEnd s = .next s) ∧
  (∀ (s : State), clocked s = true →
        ∃ t, exec .affThaw s = .next t ∧
          (∀ k : Fin 4, t.pix.aff.frozen.getLsbD k =
              (s.pix.aff.frozen.getLsbD k && !(s.pix.aff.thawing.getLsbD k && s.pix.aff.thawLeft[k] == 0)) ∧
            t.pix.aff.thawing.getLsbD k = (s.pix.aff.thawing.getLsbD k && s.pix.aff.thawLeft[k] != 0) ∧
            t.pix.aff.winAfter[k] =
              (if s.pix.aff.thawing.getLsbD k = true ∧ s.pix.aff.thawLeft[k] = 0 then some s.lt.line else s.pix.aff.winAfter[k])) ∧
          t.pix.regBuf = s.pix.regBuf ∧ t.pix.aff.factor = s.pix.aff.factor ∧ t.lt = s.lt ∧ t.spr = s.spr) ∧
  (∀ (s : State), clocked s = false →
        exec .affThaw s = .next s)

/-- Completed lines go onto the row buses, and the scrub marks bad history. Where the spec leaves room the clauses follow the model's choices of log entries 1, 8, 24, 41. Basis: derived; cites 05_cope_fields.md, R193 to R198, R202; 07_wren.md, R263; 02_architecture.md, R67. Says that these complete: ingressLine, ingressWordWrite, historyScrub. -/
def Obligations.IngressAndHistory : Prop :=
  (∀ (s : State) (o : LadleLine) (rest : List LadleLine) (parity : List (Fin 72 × Nat × Bool)),
      (s.sys.code = .run ∨ s.sys.code = .hold) → clocked s = true → s.pix.ingress = o :: rest →
        ∃ t, exec (.ingressLine parity) s = .next t ∧ t.pix = { s.pix with ingress := rest } ∧ t.lt = s.lt ∧ t.sys = s.sys ∧
          t.spr.lines = (s.spr.lines.map fun l => if l.line = o.line then { l with ingressed := true } else l) ∧
          (parity = [] → t.flt = s.flt ∧ t.fab.cnt = s.fab.cnt) ∧
          (∀ p : Fin 72, p ∉ usedPerches s.img s → t.fab.perch[p] = s.fab.perch[p])) ∧
  (∀ (s : State) (l : LineRec) (parity : List (Fin 72 × Nat × Bool)), (s.sys.code = .run ∨ s.sys.code = .hold) →
      clocked s = true → s.pix.ingress = [] → ladleDue s = some l → l.ingressed = false →
        ∃ t, exec (.ingressLine parity) s = .next t ∧ t.pix = s.pix ∧ t.lt = s.lt ∧ t.sys = s.sys ∧
          t.spr.lines = (s.spr.lines.map fun x => if x.line = l.line then { x with ingressed := true } else x) ∧
          (parity = [] → t.flt = s.flt ∧ t.fab.cnt = s.fab.cnt)) ∧
  (∀ (s : State) (o : LadleLine) (rest : List LadleLine) (p : Fin 72) (i : Nat),
      (s.sys.code = .run ∨ s.sys.code = .hold) → clocked s = true → s.pix.ingress = o :: rest →
        ∃ t u, exec (.ingressLine [(p, i, true)]) s = .next t ∧ exec (.ingressLine [(p, i, false)]) s = .next u ∧
          t.fab.cnt = { s.fab.cnt with parityResend := satInc 32 s.fab.cnt.parityResend } ∧ t.flt = s.flt ∧
          u.fab.cnt = s.fab.cnt ∧ classCount u 0x20 = satInc 32 (classCount s 0x20)) ∧
  (∀ (s : State) (parity : List (Fin 72 × Nat × Bool)),
      ((s.sys.code ≠ .run ∧ s.sys.code ≠ .hold) ∨ clocked s = false ∨ (s.pix.ingress = [] ∧ ladleDue s = none)) →
        exec (.ingressLine parity) s = .next s) ∧
  (∀ (s : State) (parity : List (Fin 72 × Nat × Bool)) (l : LineRec), s.pix.ingress = [] → ladleDue s = some l →
      l.ingressed = true →
        exec (.ingressLine parity) s = .next s) ∧
  (∀ (s : State) (p : Fin 72) (w : IngWord) (rest : List IngWord), s.fab.perch[p].wren.ingQ = w :: rest →
        ∃ t, exec (.ingressWordWrite p) s = .next t ∧ t.fab.perch[p].wren.ingQ = rest ∧ t.pix = s.pix ∧ t.spr = s.spr ∧
          (∀ q : Fin 72, q ≠ p → t.fab.perch[q] = s.fab.perch[q]) ∧
          (∀ a, a < w.addr ∨ w.addr + w.data.length ≤ a → wordAt t p a = wordAt s p a)) ∧
  (∀ (s : State) (p : Fin 72) (a : Nat) (d : WWord) (rest : List IngWord),
      s.fab.perch[p].wren.ingQ = ⟨a, [d]⟩ :: rest → CanonicalWren s p → a < 49152 →
        ∃ t, exec (.ingressWordWrite p) s = .next t ∧ wordAt t p a = (if d.poison then ⟨0, true⟩ else d)) ∧
  (∀ (s : State) (p : Fin 72), s.fab.perch[p].wren.ingQ = [] →
        exec (.ingressWordWrite p) s = .next s) ∧
  (∀ (s : State) (corrected : Nat) (bad : List (Fin 256)), (s.sys.code = .run ∨ s.sys.code = .repair) →
      clocked s = true →
        ∃ t, exec (.historyScrub corrected bad) s = .next t ∧ t.pix.histScrub = satInc 32 s.pix.histScrub ∧
          (∀ i ∈ bad, t.pix.hist[i] = { s.pix.hist[i] with bad := true }) ∧
          (∀ i : Fin 256, i ∉ bad → t.pix.hist[i] = s.pix.hist[i]) ∧ t.lt = s.lt ∧ t.fab = s.fab ∧
          (corrected = 0 → bad = [] → t.flt = s.flt) ∧
          (corrected = 1 → bad = [] → classCount t 0x11 = satInc 32 (classCount s 0x11)) ∧
          (corrected = 0 → bad.length = 1 → classCount t 0x12 = satInc 32 (classCount s 0x12))) ∧
  (∀ (s : State) (corrected : Nat) (bad : List (Fin 256)),
      ((s.sys.code ≠ .run ∧ s.sys.code ≠ .repair) ∨ clocked s = false) →
        exec (.historyScrub corrected bad) s = .next s)

/-- Windows below the floor, and class 0x70 at the tenth in a row. Basis: stated; cites R231. Says that these complete: floorWindow. -/
def Obligations.FloorMonitorCountsWindows : Prop :=
  (∀ (s : State) (p : Fin 72) (cycles : Nat), s.fab.perch[p].powered = true →
      inState [.commit, .run, .hold, .repair] s = true → 105000 ≤ cycles →
        ∃ t, exec (.floorWindow p cycles) s = .next t ∧ t.fab.perch[p].belowFloor = false ∧ t.fab.perch[p].belowRun = 0 ∧
          t.fab.perch[p].freq = min 2047 (cycles / 100) ∧ t.flt = s.flt ∧ (∀ q : Fin 72, q ≠ p → t.fab.perch[q] = s.fab.perch[q])) ∧
  (∀ (s : State) (p : Fin 72) (cycles : Nat), s.fab.perch[p].powered = true →
      inState [.commit, .run, .hold, .repair] s = true → cycles < 105000 → s.fab.perch[p].belowRun < 9 →
        ∃ t, exec (.floorWindow p cycles) s = .next t ∧ t.fab.perch[p].belowFloor = true ∧
          t.fab.perch[p].belowRun = s.fab.perch[p].belowRun + 1 ∧ t.fab.perch[p].freq = cycles / 100 ∧ t.flt = s.flt ∧ (∀ q : Fin 72, q ≠ p → t.fab.perch[q] = s.fab.perch[q])) ∧
  (∀ (s : State) (p : Fin 72) (cycles : Nat), s.fab.perch[p].powered = true →
      inState [.commit, .run, .hold, .repair] s = true → cycles < 105000 → s.fab.perch[p].belowRun = 9 →
        ∃ t, exec (.floorWindow p cycles) s = .next t ∧ t.fab.perch[p].belowFloor = true ∧ t.fab.perch[p].belowRun = 10 ∧
          classCount t 0x70 = satInc 32 (classCount s 0x70)) ∧
  (∀ (s : State) (p : Fin 72) (cycles : Nat), s.fab.perch[p].powered = true →
      inState [.commit, .run, .hold, .repair] s = true → cycles < 105000 → 10 ≤ s.fab.perch[p].belowRun →
        ∃ t, exec (.floorWindow p cycles) s = .next t ∧ t.fab.perch[p].belowFloor = true ∧ t.fab.perch[p].belowRun = 10 ∧ t.flt = s.flt) ∧
  (∀ (s : State) (p : Fin 72) (cycles : Nat),
      (s.fab.perch[p].powered = false ∨ inState [.commit, .run, .hold, .repair] s = false) →
        exec (.floorWindow p cycles) s = .next s)

/-- The active perches are those of 8 logical rows and 8 logical columns around the bypass. Basis: stated; cites R206. -/
def Obligations.ColumnMapFindsTheActivePerches : Prop :=
  (∀ (s : State) (c : Nat), s.fab.bypass = none →
        physCol s c = c) ∧
  (∀ (s : State) (b c : Nat), s.fab.bypass = some b →
        physCol s c = if c < b then c else c + 1) ∧
  (∀ (s : State) (r c : Fin 8),
        (perchAt s r c).val = 9 * r.val + physCol s c ∧ rowOf (perchAt s r c) = r.val ∧
          logCol s (perchAt s r c) = some c.val) ∧
  (∀ (s : State) (b : Nat) (p : Fin 72), s.fab.bypass = some b → p.val % 9 = b →
        logCol s p = none)

/-- Beats and moulds start, an overrun holds the token, and slices are snapshotted. Where the spec leaves room the clauses follow the model's choices of log entries 1, 25, 42. Basis: derived; cites 06_perch_fabric.md, R219, R221, R223, R232 to R234; 03_promises.md, R115. Says that these complete: beatStart, lagTimeout, mouldStart, titheSnapshot. -/
def Obligations.BeatsMouldsAndSnapshots : Prop :=
  (∀ (s : State) (p : Fin 72) (l : LineRec) (late : Nat) (slip : Bool), beatDue s p = some l → beatsRun s p = true →
      s.fab.perch[p].wren.ingQ = [] → (finchOf s p).blocked = false →
        ∃ t, exec (.beatStart p late slip) s = .next t ∧ t.fab.perch[p].finch.running = true ∧
          t.fab.perch[p].finch.beat = l.line ∧ t.fab.perch[p].finch.mould = 0 ∧
          t.fab.perch[p].finch.agUse = Vector.replicate 8 0 ∧ t.fab.perch[p].finch.lag = late ∧
          t.fab.perch[p].finch.lagBeats = (if late = 0 then 0 else s.fab.perch[p].finch.lagBeats + 1) ∧
          t.fab.perch[p].finch.held = none ∧ t.fab.perch[p].finch.snapCount = 0 ∧ t.fab.perch[p].wren = s.fab.perch[p].wren ∧
          t.fab.cnt.overrun = (if 0 < late ∧ (finchOf s p).held = none then satInc 32 s.fab.cnt.overrun else s.fab.cnt.overrun) ∧
          classCount t 0x22 = (if 0 < late ∧ (finchOf s p).held = none then satInc 32 (classCount s 0x22) else classCount s 0x22) ∧
          t.fab.cnt.stallOver = (if slip = true ∧ (finchOf s p).running = true then satInc 32 s.fab.cnt.stallOver else s.fab.cnt.stallOver) ∧
          (∀ x ∈ t.spr.lines, x.line = l.line → x.beatRan = true ∧ p.val ∈ x.ranOn) ∧
          (∀ q : Fin 72, q ≠ p → t.fab.perch[q] = s.fab.perch[q])) ∧
  (∀ (s : State) (p : Fin 72) (l : LineRec) (late : Nat) (slip : Bool), beatDue s p = some l → beatsRun s p = true →
      s.fab.perch[p].wren.ingQ = [] → (finchOf s p).blocked = true → (finchOf s p).held = none →
        ∃ t, exec (.beatStart p late slip) s = .next t ∧ t.fab.perch[p].finch.held = some l.line ∧
          t.fab.perch[p].finch.stalled = s.fab.perch[p].finch.stalled ∧
          t.fab.perch[p].finch.stall.beats = min 3 (s.fab.perch[p].finch.stall.beats + 1) ∧
          t.fab.cnt.overrun = satInc 32 s.fab.cnt.overrun ∧ classCount t 0x22 = satInc 32 (classCount s 0x22) ∧
          t.spr.lines = s.spr.lines ∧ (∀ q : Fin 72, q ≠ p → t.fab.perch[q] = s.fab.perch[q])) ∧
  (∀ (s : State) (p : Fin 72) (l : LineRec) (late n : Nat) (slip : Bool), beatDue s p = some l →
      beatsRun s p = true → s.fab.perch[p].wren.ingQ = [] → (finchOf s p).blocked = true →
      (finchOf s p).held = some n → laterDue s p n = true →
        ∃ t, exec (.beatStart p late slip) s = .next t ∧ t.fab.perch[p].finch.held = some n ∧ t.fab.perch[p].finch.twoHeld = true ∧
          t.fab.perch[p].finch.stall.beats = min 3 (s.fab.perch[p].finch.stall.beats + 1) ∧ t.fab.cnt = s.fab.cnt ∧
          t.flt = s.flt ∧ t.spr = s.spr ∧ (∀ q : Fin 72, q ≠ p → t.fab.perch[q] = s.fab.perch[q])) ∧
  (∀ (s : State) (p : Fin 72) (late : Nat) (slip : Bool),
      (beatDue s p = none ∨ beatsRun s p = false ∨ s.fab.perch[p].wren.ingQ ≠ []) →
        exec (.beatStart p late slip) s = .next s) ∧
  (∀ (s : State) (p : Fin 72) (late n : Nat) (slip : Bool), (finchOf s p).blocked = true →
      (finchOf s p).held = some n → laterDue s p n = false →
        exec (.beatStart p late slip) s = .next s) ∧
  (∀ (s : State) (p : Fin 72), beatsRun s p = true → s.fab.perch[p].failed = false →
      ((finchOf s p).twoHeld = true ∨ 17 ≤ (finchOf s p).lagBeats) →
        ∃ t, exec (.lagTimeout p) s = .next t ∧ t.fab.perch[p] = { s.fab.perch[p] with failed := true } ∧
          classCount t 0x70 = satInc 32 (classCount s 0x70) ∧ t.log.snapPending = true ∧ (∀ q : Fin 72, q ≠ p → t.fab.perch[q] = s.fab.perch[q])) ∧
  (∀ (s : State) (p : Fin 72),
      (beatsRun s p = false ∨ s.fab.perch[p].failed = true ∨ ((finchOf s p).twoHeld = false ∧ (finchOf s p).lagBeats < 17)) →
        exec (.lagTimeout p) s = .next s) ∧
  (∀ (s : State) (p : Fin 72) (ex : Bool), issues s p = true → (finchOf s p).mould + 1 < foldOf s p →
        ∃ t, exec (.mouldStart p ex) s = .next t ∧ t.fab.perch[p].finch =
            { s.fab.perch[p].finch with mould := s.fab.perch[p].finch.mould + 1, agUse := Vector.replicate 8 0 } ∧
          t.fab.perch[p].iss = { s.fab.perch[p].iss with bun := 0, slots := [] } ∧
          t.fab.cnt = (if ex then { s.fab.cnt with stallOver := satInc 32 s.fab.cnt.stallOver } else s.fab.cnt) ∧
          t.spr = s.spr ∧ (∀ q : Fin 72, q ≠ p → t.fab.perch[q] = s.fab.perch[q])) ∧
  (∀ (s : State) (p : Fin 72) (ex : Bool), (issues s p = false ∨ foldOf s p ≤ (finchOf s p).mould + 1) →
        exec (.mouldStart p ex) s = .next s) ∧
  (∀ (s : State) (p : Fin 72) (j : Nat), issues s p = true → titheOn s p = true →
      (finchOf s p).snapCount < (snapSlices s p).length → j = (snapSlices s p).getD (finchOf s p).snapCount 0 →
      beforeSlice s p j = true →
        ∃ t q, exec (.titheSnapshot p) s = .next t ∧ t.fab.perch[p] = { s.fab.perch[p] with
            finch := { s.fab.perch[p].finch with
              snapCount := s.fab.perch[p].finch.snapCount + 1, snaps := (q :: s.fab.perch[p].finch.snaps).take 4 } } ∧
          q.slice = j ∧ q.beat = (finchOf s p).beat ∧ q.regs = regsOf (finchOf s p) ∧ q.mould = (finchOf s p).mould ∧
          q.agUse = (finchOf s p).agUse ∧ (∀ q : Fin 72, q ≠ p → t.fab.perch[q] = s.fab.perch[q])) ∧
  (∀ (s : State) (p : Fin 72),
      (issues s p = false ∨ titheOn s p = false ∨ (snapSlices s p).length ≤ (finchOf s p).snapCount) →
        exec (.titheSnapshot p) s = .next s) ∧
  (∀ (s : State) (p : Fin 72), beforeSlice s p ((snapSlices s p).getD (finchOf s p).snapCount 0) = false →
        exec (.titheSnapshot p) s = .next s)

/-- The check tithe agrees, arbitrates or skips, and the spare tests itself. Where the spec leaves room the clauses follow the model's choices of log entries 25, 26, 42. Basis: derived; cites 03_promises.md, R108 to R112, R119, R120; 06_perch_fabric.md, R225, R228, R245. Says that these complete: titheSlot, spareSelfTest. -/
def Obligations.CheckTitheAndSpare : Prop :=
  (∀ (s u : State) (p : Fin 72) (own re arb a b c : BitVec 32) (j : Nat) (ecc eccArb : List Ecc), issues s p = true →
      (finchOf s p).titheDone = false → titheOn s p = true → foldOf s p ≤ (finchOf s p).mould + 1 →
      ((finchOf s p).arb = none ∧ (finchOf s p).serves = false ∧ j = sliceOf s p) →
      titheSigs p j (own, re, arb) ecc eccArb s = (some (a, b, c), u) → a = b →
        ∃ t, exec (.titheSlot p own re arb .clean ecc eccArb) s = .next t ∧ t.fab.perch[p].finch.titheDone = true ∧ t.fab.perch[p].finch.arb = u.fab.perch[p].finch.arb ∧
          t.fab.perch[p].finch.slice = some ((sliceOf u p + 1) % max 1 (sliceCount u.img (rowOf p))) ∧ t.fab.cnt = u.fab.cnt) ∧
  (∀ (s u : State) (p : Fin 72) (own re arb a b c : BitVec 32) (j : Nat) (ecc eccArb : List Ecc), issues s p = true →
      (finchOf s p).titheDone = false → titheOn s p = true → foldOf s p ≤ (finchOf s p).mould + 1 →
      ((finchOf s p).arb = none ∧ (finchOf s p).serves = false ∧ j = sliceOf s p) →
      titheSigs p j (own, re, arb) ecc eccArb s = (some (a, b, c), u) → b ≠ a →
        ∃ t, exec (.titheSlot p own re arb .clean ecc eccArb) s = .next t ∧ t.fab.perch[p].finch =
            { u.fab.perch[p].finch with titheDone := true, arb := some j, slice := some j } ∧
          t.fab.cnt = { u.fab.cnt with titheMismatch := satInc 32 u.fab.cnt.titheMismatch } ∧ t.flt = u.flt ∧ t.spr = u.spr) ∧
  (∀ (s u : State) (p : Fin 72) (own re arb a b c : BitVec 32) (j : Nat) (ecc eccArb : List Ecc), issues s p = true →
      (finchOf s p).titheDone = false → titheOn s p = true → foldOf s p ≤ (finchOf s p).mould + 1 →
      (finchOf s p).arb = some j → titheSigs p j (own, re, arb) ecc eccArb s = (some (a, b, c), u) → a = b → b = c →
        ∃ t, exec (.titheSlot p own re arb .clean ecc eccArb) s = .next t ∧ t.fab.perch[p].finch.titheDone = true ∧ t.fab.perch[p].finch.arb = none ∧ t.flt = u.flt ∧
          t.fab.cnt = u.fab.cnt) ∧
  (∀ (s u : State) (p : Fin 72) (own re arb a b c : BitVec 32) (j : Nat) (ecc eccArb : List Ecc), issues s p = true →
      (finchOf s p).titheDone = false → titheOn s p = true → foldOf s p ≤ (finchOf s p).mould + 1 →
      (finchOf s p).arb = some j → titheSigs p j (own, re, arb) ecc eccArb s = (some (a, b, c), u) → b = c → a ≠ b →
        ∃ t, exec (.titheSlot p own re arb .clean ecc eccArb) s = .next t ∧ t.fab.perch[p].finch.titheDone = true ∧ t.fab.perch[p].finch.arb = none ∧
          classCount t 0x10 = satInc 32 (classCount u 0x10) ∧ t.fab.cnt = u.fab.cnt ∧
          (besides u p 7).val ∈ t.flt.titheFound.map (·.1)) ∧
  (∀ (s u : State) (p : Fin 72) (own re arb a b c : BitVec 32) (j : Nat) (ecc eccArb : List Ecc), issues s p = true →
      (finchOf s p).titheDone = false → titheOn s p = true → foldOf s p ≤ (finchOf s p).mould + 1 →
      (finchOf s p).arb = some j → titheSigs p j (own, re, arb) ecc eccArb s = (some (a, b, c), u) → a = c → a ≠ b →
        ∃ t, exec (.titheSlot p own re arb .clean ecc eccArb) s = .next t ∧ t.fab.perch[p].finch.titheDone = true ∧ t.fab.perch[p].finch.arb = none ∧
          classCount t 0x10 = satInc 32 (classCount u 0x10) ∧ t.fab.cnt = u.fab.cnt ∧ p.val ∈ t.flt.titheFound.map (·.1)) ∧
  (∀ (s u : State) (p : Fin 72) (own re arb a b c : BitVec 32) (j : Nat) (ecc eccArb : List Ecc), issues s p = true →
      (finchOf s p).titheDone = false → titheOn s p = true → foldOf s p ≤ (finchOf s p).mould + 1 →
      (finchOf s p).arb = some j → titheSigs p j (own, re, arb) ecc eccArb s = (some (a, b, c), u) → a = b → b ≠ c →
        ∃ t, exec (.titheSlot p own re arb .clean ecc eccArb) s = .next t ∧ t.fab.perch[p].finch.titheDone = true ∧ t.fab.perch[p].finch.arb = none ∧
          classCount t 0x10 = satInc 32 (classCount u 0x10) ∧ t.fab.cnt = u.fab.cnt ∧
          (besides u p 1).val ∈ t.flt.titheFound.map (·.1)) ∧
  (∀ (s u : State) (p : Fin 72) (own re arb a b c : BitVec 32) (j : Nat) (ecc eccArb : List Ecc), issues s p = true →
      (finchOf s p).titheDone = false → titheOn s p = true → foldOf s p ≤ (finchOf s p).mould + 1 →
      (finchOf s p).arb = some j → titheSigs p j (own, re, arb) ecc eccArb s = (some (a, b, c), u) → a ≠ b → b ≠ c →
      a ≠ c →
        ∃ t, exec (.titheSlot p own re arb .clean ecc eccArb) s = .next t ∧ t.fab.perch[p].finch.titheDone = true ∧ t.fab.perch[p].finch.arb = none ∧
          classCount t 0x10 = satInc 32 (satInc 32 (classCount u 0x10)) ∧ t.fab.cnt = u.fab.cnt ∧
          (besides u p 7).val ∈ t.flt.titheFound.map (·.1) ∧ p.val ∈ t.flt.titheFound.map (·.1)) ∧
  (∀ (s u : State) (p : Fin 72) (own re arb : BitVec 32) (j : Nat) (ecc eccArb : List Ecc), issues s p = true →
      (finchOf s p).titheDone = false → titheOn s p = true → foldOf s p ≤ (finchOf s p).mould + 1 →
      ((finchOf s p).serves = false ∨ (finchOf s p).arb ≠ none) → j = (finchOf s p).arb.getD (sliceOf s p) →
      titheSigs p j (own, re, arb) ecc eccArb s = (none, u) →
        ∃ t, exec (.titheSlot p own re arb .clean ecc eccArb) s = .next t ∧ t.fab.perch[p].finch.titheDone = true ∧
          t.fab.perch[p].finch.arb = none ∧
          t.fab.cnt = { u.fab.cnt with titheSkip := satInc 32 u.fab.cnt.titheSkip } ∧ t.flt = u.flt) ∧
  (∀ (s : State) (p : Fin 72) (own re arb : BitVec 32) (ecc eccArb : List Ecc), issues s p = true →
      (finchOf s p).titheDone = false → titheOn s p = true → foldOf s p ≤ (finchOf s p).mould + 1 →
      ((finchOf s p).serves = false ∨ (finchOf s p).arb ≠ none) →
        ∃ t, exec (.titheSlot p own re arb .uncorrectable ecc eccArb) s = .next t ∧ t.fab.perch[p].finch.titheDone = true ∧
          t.fab.perch[p].finch.arb = none ∧ classCount t 0x12 = satInc 32 (classCount s 0x12) ∧
          t.fab.cnt = { s.fab.cnt with titheSkip := satInc 32 s.fab.cnt.titheSkip } ∧ (∀ q : Fin 72, q ≠ p → t.fab.perch[q] = s.fab.perch[q])) ∧
  (∀ (s : State) (p : Fin 72) (j : Nat) (masks : BitVec 32 × BitVec 32 × BitVec 32) (ecc eccArb : List Ecc),
      lastBeat s p = none →
        titheSigs p j masks ecc eccArb s = (none, s)) ∧
  (∀ (s : State) (p : Fin 72) (q : Snapshot) (w : Work) (j : Nat) (es : List Ecc),
        (reexecute p q w j es s).2.fab.cnt = s.fab.cnt ∧
          (reexecute p q w j es s).2.fab.perch[p].finch = s.fab.perch[p].finch ∧
          (reexecute p q w j es s).2.fab.perch[p].iss = s.fab.perch[p].iss ∧
          (reexecute p q w j es s).2.fab.perch[p].run = s.fab.perch[p].run) ∧
  (∀ (s : State) (p : Fin 72) (own re arb : BitVec 32) (store : Ecc) (ecc eccArb : List Ecc), issues s p = true →
      (finchOf s p).titheDone = false → titheOn s p = true → foldOf s p ≤ (finchOf s p).mould + 1 →
      (finchOf s p).serves = true → (finchOf s p).arb = none →
        ∃ t, exec (.titheSlot p own re arb store ecc eccArb) s = .next t ∧
          t.fab.perch[p] = { s.fab.perch[p] with finch := { s.fab.perch[p].finch with titheDone := true } } ∧
          t.flt = s.flt ∧ t.fab.cnt = s.fab.cnt ∧ (∀ q : Fin 72, q ≠ p → t.fab.perch[q] = s.fab.perch[q])) ∧
  (∀ (s : State) (p : Fin 72) (own re arb : BitVec 32) (store : Ecc) (ecc eccArb : List Ecc),
      (issues s p = false ∨ (finchOf s p).titheDone = true ∨ titheOn s p = false ∨ (finchOf s p).mould + 1 < foldOf s p) →
        exec (.titheSlot p own re arb store ecc eccArb) s = .next s) ∧
  (∀ (s : State), s.fab.bypass = none → inState [.boot, .commit, .run, .repair] s = true →
        ∃ t, exec (.spareSelfTest []) s = .next t ∧ t.fab.spareOk = true ∧ t.fab.repairAvail = true ∧
          t.fab.repair = (s.fab.repair.map fun r => { r with tested := true }) ∧ t.fab.perch = s.fab.perch ∧ t.flt = s.flt ∧
          t.sys = s.sys ∧ t.spr = s.spr) ∧
  (∀ (s : State) (r : Fin 8), s.fab.bypass = none → inState [.boot, .commit, .run, .repair] s = true →
      s.fab.repair = none →
        ∃ t, exec (.spareSelfTest [r]) s = .next t ∧ t.fab = { s.fab with spareOk := false, repairAvail := false } ∧
          classCount t 0x70 = satInc 32 (classCount s 0x70) ∧ t.spr = s.spr) ∧
  (∀ (s : State) (r : Fin 8) (x : Repair), s.fab.bypass = none → inState [.boot, .commit, .run, .repair] s = true →
      s.fab.repair = some x → x.loaded = false →
        ∃ t, exec (.spareSelfTest [r]) s = .next t ∧ t.fab.spareOk = false ∧ t.fab.repairAvail = false ∧
          t.fab.repair = some { x with aborted := true } ∧ t.fab.unmasked = true ∧
          (∀ l ∈ t.spr.lines, l.degraded = true) ∧ classCount t 0x70 = satInc 32 (classCount s 0x70)) ∧
  (∀ (s : State) (failed : List (Fin 8)), (s.fab.bypass ≠ none ∨ inState [.boot, .commit, .run, .repair] s = false) →
        exec (.spareSelfTest failed) s = .next s)

/-- A column repair starts, loads the spare, applies the map and ends its gap. Where the spec leaves room the clauses follow the model's choices of log entries 11, 26. Basis: derived; cites 06_perch_fabric.md, R245 to R248; 03_promises.md, R115 to R119; 18_power_reset.md, R679, R680. Says that these complete: repairStart, repairReloadDone, repairMapApply, repairGapEnd. -/
def Obligations.ColumnRepairFollowsItsSteps : Prop :=
  (∀ (s : State) (n : Nat) (rest : List Nat), s.fab.findings = n :: rest → (s.sys.code = .run ∨ s.sys.code = .hold) →
      supRuns s = true → s.fab.repair = none →
        ∃ t, exec .repairStart s = .next t ∧ t.sys.code = .repair ∧ t.sys.prev = s.sys.code ∧ t.fab.repairLine = s.lt.line ∧
          t.fab.repair = some { Repair.reset with column := n % 9, perch := n, started := s.now } ∧
          (∀ p : Fin 72, t.fab.perch[p].finch.running = false) ∧
          (∀ p : Fin 72, p.val % 9 = n % 9 → n % 9 < 8 → t.fab.perch[p].powered = false) ∧ t.pix.ingress = [] ∧
          t.lt = s.lt ∧ t.fab.bypass = s.fab.bypass) ∧
  (∀ (s : State),
      (s.fab.findings = [] ∨ (s.sys.code ≠ .run ∧ s.sys.code ≠ .hold) ∨ supRuns s = false ∨ s.fab.repair ≠ none) →
        exec .repairStart s = .next s) ∧
  (∀ (s t : State) (r : Repair) (flashOk : Bool), s.fab.repair = some r → s.sys.code = .repair → supRuns s = true →
      r.tested = true → r.aborted = false → r.loaded = false →
      (t = countRetention ((spares s).foldl (fun t p => loadWren s.img s.boot.slot p t) s)) →
      (flashOk = false ∨ rowSumsOk s = false ∨ ((spares s).all fun p => retentionOk s.img p (onWCnt (fun c => { c with reloading := anyRewriting s }) t)) = false) →
        ∃ v, exec (.repairReloadDone flashOk) s = .next v ∧ v.sys.code = .boot ∧ v.sys.cause = 5 ∧ v.sys.bySup = false ∧
          v.sys.resetFault = 0xA003 ∧ v.boot.safeLatch = true ∧ v.boot.stage = 2) ∧
  (∀ (s t : State) (r : Repair), s.fab.repair = some r → s.sys.code = .repair → supRuns s = true → r.tested = true →
      r.aborted = false → r.loaded = false →
      (t = countRetention ((spares s).foldl (fun t p => loadWren s.img s.boot.slot p t) s)) → rowSumsOk s = true →
      (((spares s).all fun p => retentionOk s.img p (onWCnt (fun c => { c with reloading := anyRewriting s }) t)) = true) →
        ∃ v, exec (.repairReloadDone true) s = .next v ∧ v.sys.code = .repair ∧ v.fab.repair = some { r with loaded := true } ∧
          v.log.snapPending = true ∧ v.fab.bypass = s.fab.bypass ∧ v.spr = s.spr ∧ v.lt = s.lt) ∧
  (∀ (s : State) (flashOk : Bool), (s.fab.repair = none ∨ s.sys.code ≠ .repair ∨ supRuns s = false) →
        exec (.repairReloadDone flashOk) s = .next s ∧ exec .repairMapApply s = .next s ∧ exec .repairGapEnd s = .next s) ∧
  (∀ (s : State) (r : Repair) (flashOk : Bool), s.fab.repair = some r →
      (r.tested = false ∨ r.aborted = true ∨ r.loaded = true) →
        exec (.repairReloadDone flashOk) s = .next s) ∧
  (∀ (s : State) (r : Repair), s.fab.repair = some r → s.sys.code = .repair → supRuns s = true → r.loaded = true →
      r.applied = false → repairCommitted s = true →
        ∃ t, exec .repairMapApply s = .next t ∧ t.fab.bypass = some r.column ∧ t.fab.repairAvail = false ∧
          t.fab.findings = [] ∧ t.fab.repair = some { r with applied := true } ∧ t.flt.titheFound = [] ∧ t.sys = s.sys ∧
          (∀ p : Fin 72, t.fab.perch[p].finch = { Finch.reset with slice := s.fab.perch[p].finch.slice } ∧
            ∀ i : Fin 16, t.fab.perch[p].run.rxQ[i] = [])) ∧
  (∀ (s : State) (r : Repair), s.fab.repair = some r →
      (r.loaded = false ∨ r.applied = true ∨ repairCommitted s = false) →
        exec .repairMapApply s = .next s) ∧
  (∀ (s : State) (r : Repair), s.fab.repair = some r → s.sys.code = .repair → supRuns s = true →
      (r.applied = true ∨ r.aborted = true) →
        ∃ t, exec .repairGapEnd s = .next t ∧ t.fab.repair = none ∧ t.fab.findings = [] ∧ t.fab.bypass = s.fab.bypass ∧
          t.sys.code = (if holdDue s then .hold else .run) ∧ (holdDue s = true → t.lt.stb = 0 ∧ t.lt.gates = 0) ∧
          t.sys.prev = .repair ∧ (∀ p : Fin 72, t.fab.perch[p].finch = { Finch.reset with slice := s.fab.perch[p].finch.slice } ∧
            ∀ i : Fin 16, t.fab.perch[p].run.rxQ[i] = [])) ∧
  (∀ (s : State) (r : Repair), s.fab.repair = some r → r.applied = false → r.aborted = false →
        exec .repairGapEnd s = .next s)

/-- MVM, OPA and LMAC add their products to the accumulators. Where the spec leaves room the clauses follow the model's choices of log entries 6, 8, 42. Basis: derived; cites 06_perch_fabric.md, R212, R214, Table 6.1; 09_precision.md, R335, R337, R338, R347 to R351; 03_promises.md, R102. Says that these complete: mvm, opa, lmac. -/
def Obligations.MultiplyAccumulateFinchOps : Prop :=
  (∀ (s : State) (p : Fin 72) (v : Fin 4) (g : PredSel) (f : Fmt) (acc : Fin 16) (x : VSrc), issues s p = true →
      f ∈ macFormats → predValue (opView s p (.mvm p v g f acc x)) g = true →
      (qMode s p v = 0 ∨ qMode s p v = 2 ∨ (readVec (opView s p (.mvm p v g f acc x)) v f (f == .int4) x).poison = true ∨ (readVec (opView s p (.mvm p v g f acc x)) v f (f == .int4) x).lanes.any (notFinite f) = true ∨ (readVec (opView s p (.mvm p v g f acc x)) v f (f == .int4) x).lanes.all (belowTheta f (qTheta s p v)) = false) →
        ∃ t, exec (.mvm p v g f acc x) s = .next t ∧
          (∀ i : Fin 16, t.fab.perch[p].finch.stages[v].acc[acc][i] =
            (accumulate f true (opView s p (.mvm p v g f acc x)).stages[v].acc[acc][i]
              (mvmPairs (opView s p (.mvm p v g f acc x)).stages[v] f (readVec (opView s p (.mvm p v g f acc x)) v f (f == .int4) x) i)).1) ∧
          t.fab.perch[p].finch.stages[v].accPoison.getLsbD acc =
            ((readVec (opView s p (.mvm p v g f acc x)) v f (f == .int4) x).poison || tileMark (opView s p (.mvm p v g f acc x)).stages[v] f ||
              (opView s p (.mvm p v g f acc x)).stages[v].accPoison.getLsbD acc || predMark (opView s p (.mvm p v g f acc x)) g) ∧
          (∀ a : Fin 16, a ≠ acc → t.fab.perch[p].finch.stages[v].acc[a] = (finchOf s p).stages[v].acc[a]) ∧
          t.fab.perch[p].finch.stages[v].tile = (finchOf s p).stages[v].tile) ∧
  (∀ (s : State) (p : Fin 72) (v : Fin 4) (g : PredSel) (f : Fmt) (acc : Fin 16) (x : VSrc), issues s p = true →
      f ∈ macFormats → predValue (opView s p (.mvm p v g f acc x)) g = true → qMode s p v = 1 →
      (readVec (opView s p (.mvm p v g f acc x)) v f (f == .int4) x).poison = false →
      (readVec (opView s p (.mvm p v g f acc x)) v f (f == .int4) x).lanes.any (notFinite f) = false →
      (readVec (opView s p (.mvm p v g f acc x)) v f (f == .int4) x).lanes.all (belowTheta f (qTheta s p v)) = true →
        ∃ t, exec (.mvm p v g f acc x) s = .next t ∧ t.fab.perch[p].finch = s.fab.perch[p].finch ∧ (s.now, false, true) ∈ t.fab.cnt.qIssues) ∧
  (∀ (s : State) (p : Fin 72) (v : Fin 4) (g : PredSel) (f : Fmt) (a b : VSrc), issues s p = true → f ∈ macFormats →
      predValue (opView s p (.opa p v g f a b)) g = true →
        ∃ t, exec (.opa p v g f a b) s = .next t ∧
          (∀ i j : Fin 16, t.fab.perch[p].finch.stages[v].acc[i][j] =
            (accumulate f true (opView s p (.opa p v g f a b)).stages[v].acc[i][j]
              [((readVec (opView s p (.opa p v g f a b)) v f false a).at i, (readVec (opView s p (.opa p v g f a b)) v f false b).at j)]).1) ∧
          (∀ i : Fin 16, t.fab.perch[p].finch.stages[v].accPoison.getLsbD i =
            ((readVec (opView s p (.opa p v g f a b)) v f false a).poison || (readVec (opView s p (.opa p v g f a b)) v f false b).poison || predMark (opView s p (.opa p v g f a b)) g ||
              (finchOf s p).stages[v].accPoison.getLsbD i))) ∧
  (∀ (s : State) (p : Fin 72) (v : Fin 4) (g : PredSel) (f : Fmt) (acc : Fin 16) (a b : VSrc), issues s p = true →
      f ∈ lmacFormats → predValue (opView s p (.lmac p v g f acc a b)) g = true →
        ∃ t, exec (.lmac p v g f acc a b) s = .next t ∧
          (∀ i : Fin 16, t.fab.perch[p].finch.stages[v].acc[acc][i] =
            (accumulate f false (opView s p (.lmac p v g f acc a b)).stages[v].acc[acc][i]
              [((readVec (opView s p (.lmac p v g f acc a b)) v f false a).at i, (readVec (opView s p (.lmac p v g f acc a b)) v f false b).at i)]).1) ∧
          t.fab.perch[p].finch.stages[v].accPoison.getLsbD acc =
            ((readVec (opView s p (.lmac p v g f acc a b)) v f false a).poison || (readVec (opView s p (.lmac p v g f acc a b)) v f false b).poison ||
              (opView s p (.lmac p v g f acc a b)).stages[v].accPoison.getLsbD acc || predMark (opView s p (.lmac p v g f acc a b)) g) ∧
          (∀ c : Fin 16, c ≠ acc → t.fab.perch[p].finch.stages[v].acc[c] = (finchOf s p).stages[v].acc[c])) ∧
  (∀ (f : Fmt) (trunc : Bool) (acc : BitVec 32) (xs : List (BitVec 32 × BitVec 32)), fmtInt f = true →
        (accumulate f trunc acc xs).1.toInt =
          max (-2147483648) (min 2147483647 (acc.toInt + (xs.map fun q => intOf f q.1 * intOf f q.2).sum)))

/-- ADD, SUB, MUL, MAX and MIN work lane by lane. Where the spec leaves room the clauses follow the model's choices of log entries 6, 8, 42. Basis: derived; cites 06_perch_fabric.md, R212, R214, Table 6.1; 09_precision.md, R334, R342; 03_promises.md, R102. Says that these complete: add, sub, mul, max, min. -/
def Obligations.LaneArithmeticFinchOps : Prop :=
  (∀ (s : State) (p : Fin 72) (v : Fin 4) (g : PredSel) (f : Fmt) (a b : VSrc) (d : VDst), issues s p = true →
      f ∈ arithFormats → predValue (opView s p (.add p v g f a b d)) g = true →
        ∃ t, exec (.add p v g f a b d) s = .next t ∧
          (∀ i : Fin 16, (dstVec (finchOf t p) v d).at i = arithLane f (· + ·) fadd
            ((readVec (opView s p (.add p v g f a b d)) v f false a).at i)
            ((readVec (opView s p (.add p v g f a b d)) v f false b).at i)) ∧
          (dstVec (finchOf t p) v d).poison = ((readVec (opView s p (.add p v g f a b d)) v f false a).poison ||
            (readVec (opView s p (.add p v g f a b d)) v f false b).poison || predMark (opView s p (.add p v g f a b d)) g)) ∧
  (∀ (s : State) (p : Fin 72) (v : Fin 4) (g : PredSel) (f : Fmt) (a b : VSrc) (d : VDst), issues s p = true →
      f ∈ arithFormats → predValue (opView s p (.sub p v g f a b d)) g = true →
        ∃ t, exec (.sub p v g f a b d) s = .next t ∧
          (∀ i : Fin 16, (dstVec (finchOf t p) v d).at i = arithLane f (· - ·) (fun x y => fadd x y.neg)
            ((readVec (opView s p (.sub p v g f a b d)) v f false a).at i)
            ((readVec (opView s p (.sub p v g f a b d)) v f false b).at i)) ∧
          (dstVec (finchOf t p) v d).poison = ((readVec (opView s p (.sub p v g f a b d)) v f false a).poison ||
            (readVec (opView s p (.sub p v g f a b d)) v f false b).poison || predMark (opView s p (.sub p v g f a b d)) g)) ∧
  (∀ (s : State) (p : Fin 72) (v : Fin 4) (g : PredSel) (f : Fmt) (a b : VSrc) (d : VDst), issues s p = true →
      f ∈ arithFormats → predValue (opView s p (.mul p v g f a b d)) g = true →
        ∃ t, exec (.mul p v g f a b d) s = .next t ∧
          (∀ i : Fin 16, (dstVec (finchOf t p) v d).at i = arithLane f (· * ·) fmul
            ((readVec (opView s p (.mul p v g f a b d)) v f false a).at i)
            ((readVec (opView s p (.mul p v g f a b d)) v f false b).at i)) ∧
          (dstVec (finchOf t p) v d).poison = ((readVec (opView s p (.mul p v g f a b d)) v f false a).poison ||
            (readVec (opView s p (.mul p v g f a b d)) v f false b).poison || predMark (opView s p (.mul p v g f a b d)) g)) ∧
  (∀ (s : State) (p : Fin 72) (v : Fin 4) (g : PredSel) (f : Fmt) (a b : VSrc) (d : VDst), issues s p = true →
      f ∈ orderFormats → predValue (opView s p (.max p v g f a b d)) g = true →
        ∃ t, exec (.max p v g f a b d) s = .next t ∧
          (∀ i : Fin 16, (dstVec (finchOf t p) v d).at i = extreme f .gt
            ((readVec (opView s p (.max p v g f a b d)) v f false a).at i)
            ((readVec (opView s p (.max p v g f a b d)) v f false b).at i)) ∧
          (dstVec (finchOf t p) v d).poison = ((readVec (opView s p (.max p v g f a b d)) v f false a).poison ||
            (readVec (opView s p (.max p v g f a b d)) v f false b).poison || predMark (opView s p (.max p v g f a b d)) g)) ∧
  (∀ (s : State) (p : Fin 72) (v : Fin 4) (g : PredSel) (f : Fmt) (a b : VSrc) (d : VDst), issues s p = true →
      f ∈ orderFormats → predValue (opView s p (.min p v g f a b d)) g = true →
        ∃ t, exec (.min p v g f a b d) s = .next t ∧
          (∀ i : Fin 16, (dstVec (finchOf t p) v d).at i = extreme f .lt
            ((readVec (opView s p (.min p v g f a b d)) v f false a).at i)
            ((readVec (opView s p (.min p v g f a b d)) v f false b).at i)) ∧
          (dstVec (finchOf t p) v d).poison = ((readVec (opView s p (.min p v g f a b d)) v f false a).poison ||
            (readVec (opView s p (.min p v g f a b d)) v f false b).poison || predMark (opView s p (.min p v g f a b d)) g)) ∧
  (∀ (f : Fmt) (o : Int → Int → Int) (h : FVal → FVal → FVal) (a b : BitVec 32), fmtInt f = true →
        (arithLane f o h a b).toInt = satInt (fmtWidth f) (o (intOf f a) (intOf f b))) ∧
  (∀ (f : Fmt) (a b : BitVec 32), fmtInt f = true →
        intOf f (extreme f .gt a b) = max (intOf f a) (intOf f b) ∧
          intOf f (extreme f .lt a b) = min (intOf f a) (intOf f b)) ∧
  (∀ (a b : BitVec 32), laneCmp .bf16 a b = some .gt →
        extreme .bf16 .gt a b = laneOf .bf16 (asRead .bf16 (codeOf .bf16 a)) ∧ extreme .bf16 .lt a b = laneOf .bf16 (asRead .bf16 (codeOf .bf16 b)))

/-- RQ, LUT and RED produce their lanes. Where the spec leaves room the clauses follow the model's choices of log entries 6, 8, 42. Basis: derived; cites 06_perch_fabric.md, R212, R214, Table 6.1; 09_precision.md, R342, R344 to R346; 03_promises.md, R102. Says that these complete: rq, lut, red. -/
def Obligations.RequantiseTableAndReduceFinchOps : Prop :=
  (∀ (s : State) (p : Fin 72) (v : Fin 4) (g : PredSel) (f : Fmt) (acc : Fin 16) (d : Fin 8), issues s p = true →
      f ∈ rqFormats → predValue (opView s p (.rq p v g f acc d)) g = true → fmtInt f = true →
        ∃ t, exec (.rq p v g f acc d) s = .next t ∧ t.fab.perch[p].finch.stages[v].acc = (finchOf s p).stages[v].acc ∧
          t.fab.perch[p].finch.stages[v].outPoison = ((opView s p (.rq p v g f acc d)).stages[v].accPoison.getLsbD acc || predMark (opView s p (.rq p v g f acc d)) g) ∧
          ∀ i : Fin 16, t.fab.perch[p].finch.stages[v].outv.getD i 0 = laneInt (satInt (fmtWidth f)
            (divNearestEven ((opView s p (.rq p v g f acc d)).stages[v].acc[acc][i].toInt * s.img.int Fld.rqM [rowOf p, (opView s p (.rq p v g f acc d)).mould, v, d])
              (2 ^ s.img.nat Fld.rqS [rowOf p, (opView s p (.rq p v g f acc d)).mould, v, d]) + s.img.int Fld.rqZ [rowOf p, (opView s p (.rq p v g f acc d)).mould, v, d]))) ∧
  (∀ (s : State) (p : Fin 72) (v : Fin 4) (g : PredSel) (f : Fmt) (acc : Fin 16) (d : Fin 8), issues s p = true →
      f ∈ rqFormats → predValue (opView s p (.rq p v g f acc d)) g = true → fmtInt f = false →
        ∃ t, exec (.rq p v g f acc d) s = .next t ∧ t.fab.perch[p].finch.stages[v].acc = (finchOf s p).stages[v].acc ∧
          t.fab.perch[p].finch.stages[v].outPoison = ((opView s p (.rq p v g f acc d)).stages[v].accPoison.getLsbD acc || predMark (opView s p (.rq p v g f acc d)) g) ∧
          ∀ i : Fin 16, t.fab.perch[p].finch.stages[v].outv.getD i 0 =
            (rqFloat f (s.img.int Fld.rqK [rowOf p, (opView s p (.rq p v g f acc d)).mould, v, d]) (opView s p (.rq p v g f acc d)).stages[v].acc[acc][i]).1) ∧
  (∀ (s : State) (p : Fin 72) (v : Fin 4) (g : PredSel) (wide : Bool) (x : VSrc), issues s p = true →
      predValue (opView s p (.lut p v g wide x)) g = true →
        ∃ t, exec (.lut p v g wide x) s = .next t ∧ t.fab.perch[p].finch.stages[v].acc = (finchOf s p).stages[v].acc ∧
          t.fab.perch[p].finch.stages[v].outPoison = ((readVec (opView s p (.lut p v g wide x)) v .int8 false x).poison || predMark (opView s p (.lut p v g wide x)) g) ∧
          ∀ i : Fin 16, t.fab.perch[p].finch.stages[v].outv.getD i 0 = laneInt (if wide
            then lutEntry s [rowOf p, (opView s p (.lut p v g wide x)).mould, v] (intOf .int8 ((readVec (opView s p (.lut p v g wide x)) v .int8 false x).at i))
            else signed 8 (unsign 8 (lutEntry s [rowOf p, (opView s p (.lut p v g wide x)).mould, v] (intOf .int8 ((readVec (opView s p (.lut p v g wide x)) v .int8 false x).at i)))))) ∧
  (∀ (s : State) (p : Fin 72) (v : Fin 4) (g : PredSel) (f : Fmt) (mx : Bool) (x : VSrc) (d : VDst),
      issues s p = true → (f = .int32 ∨ f = .fp32) → predValue (opView s p (.red p v g f mx x d)) g = true →
        ∃ t, exec (.red p v g f mx x d) s = .next t ∧
          (dstVec (finchOf t p) v d).at 0 = reduce f mx ((List.range 16).map (readVec (opView s p (.red p v g f mx x d)) v f false x).at) ∧
          (dstVec (finchOf t p) v d).poison = ((readVec (opView s p (.red p v g f mx x d)) v f false x).poison || (dstVec (opView s p (.red p v g f mx x d)) v d).poison || predMark (opView s p (.red p v g f mx x d)) g) ∧
          ∀ i : Fin 16, i ≠ 0 → (dstVec (finchOf t p) v d).at i = (dstVec (opView s p (.red p v g f mx x d)) v d).at i)

/-- CMP, PLOG, SEL, SHF, ACLR and AMOV write their masks, predicates and vectors. Where the spec leaves room the clauses follow the model's choices of log entries 6, 42. Basis: derived; cites 06_perch_fabric.md, R212 to R214, Table 6.1; 08_dataflow_rules.md, R324; 09_precision.md, R332. Says that these complete: cmp, plog, sel, shf, aclr, amov. -/
def Obligations.MaskAndMoveFinchOps : Prop :=
  (∀ (s : State) (p : Fin 72) (v : Fin 4) (g : PredSel) (f : Fmt) (op : CmpOp) (a b : VSrc) (m : Fin 8),
      issues s p = true → f ∈ orderFormats → predValue (opView s p (.cmp p v g f op a b m)) g = true →
        ∃ t, exec (.cmp p v g f op a b m) s = .next t ∧ t.fab.perch[p].finch.stages = (finchOf s p).stages ∧
          (∀ i : Fin 16, t.fab.perch[p].finch.masks[m].getLsbD i = cmpHolds op (laneCmp f
            ((readVec (opView s p (.cmp p v g f op a b m)) v f false a).at i)
            ((readVec (opView s p (.cmp p v g f op a b m)) v f false b).at i))) ∧
          t.fab.perch[p].finch.maskPoison.getLsbD m = ((readVec (opView s p (.cmp p v g f op a b m)) v f false a).poison ||
            (readVec (opView s p (.cmp p v g f op a b m)) v f false b).poison || predMark (opView s p (.cmp p v g f op a b m)) g)) ∧
  (∀ (s : State) (p : Fin 72) (v : Fin 4) (g : PredSel) (a b d : Fin 8), issues s p = true →
      predValue (opView s p (.plog p v g (.and a b d))) g = true →
        ∃ t, exec (.plog p v g (.and a b d)) s = .next t ∧ t.fab.perch[p].finch.masks[d] = (opView s p (.plog p v g (.and a b d))).masks[a] &&& (opView s p (.plog p v g (.and a b d))).masks[b] ∧
          t.fab.perch[p].finch.maskPoison.getLsbD d =
            ((opView s p (.plog p v g (.and a b d))).maskPoison.getLsbD a || (opView s p (.plog p v g (.and a b d))).maskPoison.getLsbD b || predMark (opView s p (.plog p v g (.and a b d))) g) ∧
          (∀ k : Fin 8, k ≠ d → t.fab.perch[p].finch.masks[k] = (finchOf s p).masks[k]) ∧
          t.fab.perch[p].finch.stages = (finchOf s p).stages) ∧
  (∀ (s : State) (p : Fin 72) (v : Fin 4) (g : PredSel) (a b d : Fin 8), issues s p = true →
      predValue (opView s p (.plog p v g (.or a b d))) g = true →
        ∃ t, exec (.plog p v g (.or a b d)) s = .next t ∧ t.fab.perch[p].finch.masks[d] = (opView s p (.plog p v g (.or a b d))).masks[a] ||| (opView s p (.plog p v g (.or a b d))).masks[b] ∧
          t.fab.perch[p].finch.maskPoison.getLsbD d =
            ((opView s p (.plog p v g (.or a b d))).maskPoison.getLsbD a || (opView s p (.plog p v g (.or a b d))).maskPoison.getLsbD b || predMark (opView s p (.plog p v g (.or a b d))) g) ∧
          (∀ k : Fin 8, k ≠ d → t.fab.perch[p].finch.masks[k] = (finchOf s p).masks[k]) ∧
          t.fab.perch[p].finch.stages = (finchOf s p).stages) ∧
  (∀ (s : State) (p : Fin 72) (v : Fin 4) (g : PredSel) (a d : Fin 8), issues s p = true →
      predValue (opView s p (.plog p v g (.not a d))) g = true →
        ∃ t, exec (.plog p v g (.not a d)) s = .next t ∧ t.fab.perch[p].finch.masks[d] = ~~~(opView s p (.plog p v g (.not a d))).masks[a] ∧
          t.fab.perch[p].finch.maskPoison.getLsbD d =
            ((opView s p (.plog p v g (.not a d))).maskPoison.getLsbD a || predMark (opView s p (.plog p v g (.not a d))) g) ∧
          (∀ k : Fin 8, k ≠ d → t.fab.perch[p].finch.masks[k] = (finchOf s p).masks[k]) ∧
          t.fab.perch[p].finch.stages = (finchOf s p).stages) ∧
  (∀ (s : State) (p : Fin 72) (v : Fin 4) (g : PredSel) (a d : Fin 8), issues s p = true →
      predValue (opView s p (.plog p v g (.any a d))) g = true →
        ∃ t, exec (.plog p v g (.any a d)) s = .next t ∧ t.fab.perch[p].finch.preds.getLsbD d = ((opView s p (.plog p v g (.any a d))).masks[a] != 0) ∧
          t.fab.perch[p].finch.predPoison.getLsbD d = ((opView s p (.plog p v g (.any a d))).maskPoison.getLsbD a || predMark (opView s p (.plog p v g (.any a d))) g) ∧
          (∀ k : Fin 8, k ≠ d → t.fab.perch[p].finch.preds.getLsbD k = (finchOf s p).preds.getLsbD k) ∧
          t.fab.perch[p].finch.masks = (finchOf s p).masks ∧ t.fab.perch[p].finch.stages = (finchOf s p).stages) ∧
  (∀ (s : State) (p : Fin 72) (v : Fin 4) (g : PredSel) (a d : Fin 8), issues s p = true →
      predValue (opView s p (.plog p v g (.all a d))) g = true →
        ∃ t, exec (.plog p v g (.all a d)) s = .next t ∧ t.fab.perch[p].finch.preds.getLsbD d = ((opView s p (.plog p v g (.all a d))).masks[a] == 0xFFFF) ∧
          t.fab.perch[p].finch.predPoison.getLsbD d = ((opView s p (.plog p v g (.all a d))).maskPoison.getLsbD a || predMark (opView s p (.plog p v g (.all a d))) g) ∧
          (∀ k : Fin 8, k ≠ d → t.fab.perch[p].finch.preds.getLsbD k = (finchOf s p).preds.getLsbD k) ∧
          t.fab.perch[p].finch.masks = (finchOf s p).masks ∧ t.fab.perch[p].finch.stages = (finchOf s p).stages) ∧
  (∀ (s : State) (p : Fin 72) (v : Fin 4) (g : PredSel) (f : Fmt) (m : Fin 8) (a b : VSrc) (d : VDst),
      issues s p = true → predValue (opView s p (.sel p v g m a b d f)) g = true →
        ∃ t, exec (.sel p v g m a b d f) s = .next t ∧
          (∀ i : Fin 16, (dstVec (finchOf t p) v d).at i = if (opView s p (.sel p v g m a b d f)).masks[m].getLsbD i
            then (readVec (opView s p (.sel p v g m a b d f)) v f false a).at i else (readVec (opView s p (.sel p v g m a b d f)) v f false b).at i) ∧
          (dstVec (finchOf t p) v d).poison = ((opView s p (.sel p v g m a b d f)).maskPoison.getLsbD m ||
            ((readVec (opView s p (.sel p v g m a b d f)) v f false a).poison && (opView s p (.sel p v g m a b d f)).masks[m] != 0) ||
            ((readVec (opView s p (.sel p v g m a b d f)) v f false b).poison && (opView s p (.sel p v g m a b d f)).masks[m] != 0xFFFF) || predMark (opView s p (.sel p v g m a b d f)) g)) ∧
  (∀ (s : State) (p : Fin 72) (v : Fin 4) (g : PredSel) (f : Fmt) (k : Fin 16) (x : VSrc) (d : VDst),
      issues s p = true → predValue (opView s p (.shf p v g k x d f)) g = true →
        ∃ t, exec (.shf p v g k x d f) s = .next t ∧
          (∀ i : Fin 16, (dstVec (finchOf t p) v d).at i =
            (readVec (opView s p (.shf p v g k x d f)) v f false x).at (permEntry s [rowOf p, (opView s p (.shf p v g k x d f)).mould, v] k i)) ∧
          (dstVec (finchOf t p) v d).poison = ((readVec (opView s p (.shf p v g k x d f)) v f false x).poison || predMark (opView s p (.shf p v g k x d f)) g)) ∧
  (∀ (s : State) (p : Fin 72) (v : Fin 4) (g : PredSel) (accs : BitVec 16), issues s p = true →
      predValue (opView s p (.aclr p v g accs)) g = true →
        ∃ t, exec (.aclr p v g accs) s = .next t ∧ ∀ j : Fin 16,
            t.fab.perch[p].finch.stages[v].acc[j] =
              (if accs.getLsbD j then Vector.replicate 16 0 else (finchOf s p).stages[v].acc[j]) ∧
            t.fab.perch[p].finch.stages[v].accPoison.getLsbD j =
              (if accs.getLsbD j then predMark (opView s p (.aclr p v g accs)) g else (finchOf s p).stages[v].accPoison.getLsbD j)) ∧
  (∀ (s : State) (p : Fin 72) (v : Fin 4) (g : PredSel) (src dst : Fin 16), issues s p = true →
      predValue (opView s p (.amov p v g src dst)) g = true →
        ∃ t, exec (.amov p v g src dst) s = .next t ∧ t.fab.perch[p].finch.stages[v].acc[dst] = (opView s p (.amov p v g src dst)).stages[v].acc[src] ∧
          (∀ j : Fin 16, j ≠ dst → t.fab.perch[p].finch.stages[v].acc[j] = (finchOf s p).stages[v].acc[j]) ∧
          t.fab.perch[p].finch.stages[v].accPoison.getLsbD dst = ((opView s p (.amov p v g src dst)).stages[v].accPoison.getLsbD src || predMark (opView s p (.amov p v g src dst)) g))

/-- A stage operation under a false predicate changes nothing but its bundle slot, and one that does not issue nothing. Where the spec leaves room the clauses follow the model's choices of log entries 6, 42. Basis: derived; cites 08_dataflow_rules.md, R320, R324, Table 8.3; 06_perch_fabric.md, R212. Says that these complete: mvm, opa, lmac, add, sub, mul, max, min, rq, lut, cmp, plog, sel, shf, red, aclr, amov. -/
def Obligations.StageOpsUnderAFalsePredicate : Prop :=
  (∀ (s : State) (p : Fin 72) (v : Fin 4) (g : PredSel) (f : Fmt) (acc : Fin 16) (x : VSrc),
      predValue (opView s p (.mvm p v g f acc x)) g = false →
        ∃ t, exec (.mvm p v g f acc x) s = .next t ∧ OnlySlot p s t) ∧
  (∀ (s : State) (p : Fin 72) (v : Fin 4) (g : PredSel) (f : Fmt) (a b : VSrc),
      predValue (opView s p (.opa p v g f a b)) g = false →
        ∃ t, exec (.opa p v g f a b) s = .next t ∧ OnlySlot p s t) ∧
  (∀ (s : State) (p : Fin 72) (v : Fin 4) (g : PredSel) (f : Fmt) (acc : Fin 16) (a b : VSrc),
      predValue (opView s p (.lmac p v g f acc a b)) g = false →
        ∃ t, exec (.lmac p v g f acc a b) s = .next t ∧ OnlySlot p s t) ∧
  (∀ (s : State) (p : Fin 72) (v : Fin 4) (g : PredSel) (f : Fmt) (a b : VSrc) (d : VDst),
      predValue (opView s p (.add p v g f a b d)) g = false →
        ∃ t, exec (.add p v g f a b d) s = .next t ∧ OnlySlot p s t) ∧
  (∀ (s : State) (p : Fin 72) (v : Fin 4) (g : PredSel) (f : Fmt) (a b : VSrc) (d : VDst),
      predValue (opView s p (.sub p v g f a b d)) g = false →
        ∃ t, exec (.sub p v g f a b d) s = .next t ∧ OnlySlot p s t) ∧
  (∀ (s : State) (p : Fin 72) (v : Fin 4) (g : PredSel) (f : Fmt) (a b : VSrc) (d : VDst),
      predValue (opView s p (.mul p v g f a b d)) g = false →
        ∃ t, exec (.mul p v g f a b d) s = .next t ∧ OnlySlot p s t) ∧
  (∀ (s : State) (p : Fin 72) (v : Fin 4) (g : PredSel) (f : Fmt) (a b : VSrc) (d : VDst),
      predValue (opView s p (.max p v g f a b d)) g = false →
        ∃ t, exec (.max p v g f a b d) s = .next t ∧ OnlySlot p s t) ∧
  (∀ (s : State) (p : Fin 72) (v : Fin 4) (g : PredSel) (f : Fmt) (a b : VSrc) (d : VDst),
      predValue (opView s p (.min p v g f a b d)) g = false →
        ∃ t, exec (.min p v g f a b d) s = .next t ∧ OnlySlot p s t) ∧
  (∀ (s : State) (p : Fin 72) (v : Fin 4) (g : PredSel) (f : Fmt) (acc : Fin 16) (d : Fin 8),
      predValue (opView s p (.rq p v g f acc d)) g = false →
        ∃ t, exec (.rq p v g f acc d) s = .next t ∧ OnlySlot p s t) ∧
  (∀ (s : State) (p : Fin 72) (v : Fin 4) (g : PredSel) (w : Bool) (x : VSrc),
      predValue (opView s p (.lut p v g w x)) g = false →
        ∃ t, exec (.lut p v g w x) s = .next t ∧ OnlySlot p s t) ∧
  (∀ (s : State) (p : Fin 72) (v : Fin 4) (g : PredSel) (f : Fmt) (o : CmpOp) (a b : VSrc) (m : Fin 8),
      predValue (opView s p (.cmp p v g f o a b m)) g = false →
        ∃ t, exec (.cmp p v g f o a b m) s = .next t ∧ OnlySlot p s t) ∧
  (∀ (s : State) (p : Fin 72) (v : Fin 4) (g : PredSel) (o : PlogOp),
      predValue (opView s p (.plog p v g o)) g = false →
        ∃ t, exec (.plog p v g o) s = .next t ∧ OnlySlot p s t) ∧
  (∀ (s : State) (p : Fin 72) (v : Fin 4) (g : PredSel) (f : Fmt) (m : Fin 8) (a b : VSrc) (d : VDst),
      predValue (opView s p (.sel p v g m a b d f)) g = false →
        ∃ t, exec (.sel p v g m a b d f) s = .next t ∧ OnlySlot p s t) ∧
  (∀ (s : State) (p : Fin 72) (v : Fin 4) (g : PredSel) (f : Fmt) (k : Fin 16) (x : VSrc) (d : VDst),
      predValue (opView s p (.shf p v g k x d f)) g = false →
        ∃ t, exec (.shf p v g k x d f) s = .next t ∧ OnlySlot p s t) ∧
  (∀ (s : State) (p : Fin 72) (v : Fin 4) (g : PredSel) (f : Fmt) (mx : Bool) (x : VSrc) (d : VDst),
      predValue (opView s p (.red p v g f mx x d)) g = false →
        ∃ t, exec (.red p v g f mx x d) s = .next t ∧ OnlySlot p s t) ∧
  (∀ (s : State) (p : Fin 72) (v : Fin 4) (g : PredSel) (accs : BitVec 16),
      predValue (opView s p (.aclr p v g accs)) g = false →
        ∃ t, exec (.aclr p v g accs) s = .next t ∧ OnlySlot p s t) ∧
  (∀ (s : State) (p : Fin 72) (v : Fin 4) (g : PredSel) (a b : Fin 16),
      predValue (opView s p (.amov p v g a b)) g = false →
        ∃ t, exec (.amov p v g a b) s = .next t ∧ OnlySlot p s t) ∧
  (∀ (s : State) (p : Fin 72) (c : Instr), StageOn p c → issues s p = false →
        exec c s = .next s)

/-- A stage operation touches its own Finch, its schedule and the FAB counters only. Where the spec leaves room the clauses follow the model's choices of log entries 6, 42. Basis: derived; cites 06_perch_fabric.md, R212 to R214; 08_dataflow_rules.md, R324. -/
def Obligations.StageOpsStayInTheirFinch : Prop :=
  ∀ (c : Instr) (s t : State) (p : Fin 72), StageOn p c → exec c s = .next t →
        t = { s with fab := { s.fab with perch := t.fab.perch, cnt := t.fab.cnt } } ∧
          (∀ q : Fin 72, q ≠ p → t.fab.perch[q] = s.fab.perch[q]) ∧
          t.fab.perch[p] = { s.fab.perch[p] with
            iss := t.fab.perch[p].iss
            finch := { s.fab.perch[p].finch with
              stages := t.fab.perch[p].finch.stages
              masks := t.fab.perch[p].finch.masks
              maskPoison := t.fab.perch[p].finch.maskPoison
              preds := t.fab.perch[p].finch.preds
              predPoison := t.fab.perch[p].finch.predPoison } }

/-- LDW, LDN, LDT, STW and STN on the unit their generator gives. Where the spec leaves room the clauses follow the model's choices of log entries 6, 8, 14, 42. Basis: derived; cites 07_wren.md, R253 to R259, R273 to R277, R280 to R283; 06_perch_fabric.md, R214, Table 6.1; 08_dataflow_rules.md, R320, R324, Table 8.3. Says that these complete: ldw, ldn, ldt, stw, stn. -/
def Obligations.MemoryOpsReadAndWriteTheirUnits : Prop :=
  (∀ (s u : State) (p : Fin 72) (g : PredSel) (ag : Fin 8) (ecc : List Ecc) (ws : List WWord),
      memIssues s p ag true = true →
      readWords p (agWords s p ag (agCount s p ag)) ecc (beginOp p (.ldw p g ag ecc) s) = (ws, u) →
        ∃ t, exec (.ldw p g ag ecc) s = .next t ∧
          (predValue (opView s p (.ldw p g ag ecc)) g = true → t.fab.perch[p].finch.inReg = ws.map (·.data) ∧
            t.fab.perch[p].finch.inPoison = (ws.any (·.poison) || predMark (opView s p (.ldw p g ag ecc)) g)) ∧
          (predValue (opView s p (.ldw p g ag ecc)) g = false → t.fab.perch[p].finch.inReg = u.fab.perch[p].finch.inReg ∧
            t.fab.perch[p].finch.inPoison = u.fab.perch[p].finch.inPoison) ∧
          t.fab.perch[p].finch.agUse = vmod u.fab.perch[p].finch.agUse ag (· + 1) ∧ t.fab.perch[p].wren = u.fab.perch[p].wren ∧ t.flt = u.flt) ∧
  (∀ (s : State) (p : Fin 72) (g : PredSel) (ag : Fin 8), memIssues s p ag true = true →
      predValue (opView s p (.ldw p g ag [])) g = true →
        ∃ t, exec (.ldw p g ag []) s = .next t ∧
          t.fab.perch[p].finch = { s.fab.perch[p].finch with
            inReg := (agWords s p ag (agCount s p ag)).map fun a => (wordAt s p a).data
            inPoison := (agWords s p ag (agCount s p ag)).any (fun a => (wordAt s p a).poison) || predMark (opView s p (.ldw p g ag [])) g
            agUse := vmod s.fab.perch[p].finch.agUse ag (· + 1) } ∧
          t.fab.perch[p].wren = s.fab.perch[p].wren ∧ t.flt = s.flt ∧ (∀ q : Fin 72, q ≠ p → t.fab.perch[q] = s.fab.perch[q])) ∧
  (∀ (s : State) (p : Fin 72) (g : PredSel) (ag : Fin 8), memIssues s p ag true = true →
      predValue (opView s p (.ldw p g ag [])) g = false →
        ∃ t, exec (.ldw p g ag []) s = .next t ∧ t.fab.perch[p].finch = { s.fab.perch[p].finch with agUse := vmod s.fab.perch[p].finch.agUse ag (· + 1) } ∧
          t.fab.perch[p].wren = s.fab.perch[p].wren ∧ t.flt = s.flt ∧ (∀ q : Fin 72, q ≠ p → t.fab.perch[q] = s.fab.perch[q])) ∧
  (∀ (s : State) (p : Fin 72) (g : PredSel) (ag : Fin 8), memIssues s p ag false = true →
      predValue (opView s p (.ldn p g ag .clean)) g = true →
        ∃ t, exec (.ldn p g ag .clean) s = .next t ∧ t.fab.perch[p].finch.inReg.head? = some (wordAt s p (agUnit s p ag (agCount s p ag))).data ∧
          t.fab.perch[p].finch.inPoison = ((wordAt s p (agUnit s p ag (agCount s p ag))).poison || predMark (opView s p (.ldn p g ag .clean)) g) ∧
          (∀ i : Nat, 0 < i → i < 16 → t.fab.perch[p].finch.inReg.getD i 0 = s.fab.perch[p].finch.inReg.getD i 0) ∧
          t.fab.perch[p].finch.agUse = vmod s.fab.perch[p].finch.agUse ag (· + 1) ∧ t.fab.perch[p].wren = s.fab.perch[p].wren ∧ t.flt = s.flt ∧
          (∀ q : Fin 72, q ≠ p → t.fab.perch[q] = s.fab.perch[q])) ∧
  (∀ (s : State) (p : Fin 72) (g : PredSel) (ag : Fin 8), memIssues s p ag false = true →
      predValue (opView s p (.ldn p g ag .clean)) g = false →
        ∃ t, exec (.ldn p g ag .clean) s = .next t ∧ t.fab.perch[p].finch = { s.fab.perch[p].finch with agUse := vmod s.fab.perch[p].finch.agUse ag (· + 1) } ∧
          t.fab.perch[p].wren = s.fab.perch[p].wren ∧ t.flt = s.flt ∧ (∀ q : Fin 72, q ≠ p → t.fab.perch[q] = s.fab.perch[q])) ∧
  (∀ (s : State) (p : Fin 72) (g : PredSel) (ag : Fin 8), memIssues s p ag false = true →
      predValue (opView s p (.ldn p g ag .corrected)) g = true →
      (wordAt s p (agUnit s p ag (agCount s p ag))).poison = false →
        ∃ t, exec (.ldn p g ag .corrected) s = .next t ∧ t.fab.perch[p].finch.inReg.head? = some (wordAt s p (agUnit s p ag (agCount s p ag))).data ∧
          t.fab.perch[p].finch.inPoison = predMark (opView s p (.ldn p g ag .corrected)) g ∧ t.fab.perch[p].wren.words = s.fab.perch[p].wren.words ∧
          t.fab.perch[p].wren.corr = satInc 8 s.fab.perch[p].wren.corr ∧
          (s.fab.perch[p].wren.wbQ.length < 4 → t.fab.perch[p].wren.wbQ = s.fab.perch[p].wren.wbQ ++ [((agUnit s p ag (agCount s p ag)), wordAt s p (agUnit s p ag (agCount s p ag)))]) ∧
          (4 ≤ s.fab.perch[p].wren.wbQ.length → t.fab.wcnt.wbDropped = satInc 32 s.fab.wcnt.wbDropped) ∧
          classCount t 0x11 = satInc 32 (classCount s 0x11) ∧ t.fab.wcnt.corr = satInc 32 s.fab.wcnt.corr) ∧
  (∀ (s : State) (p : Fin 72) (g : PredSel) (ag : Fin 8), memIssues s p ag false = true →
      predValue (opView s p (.ldn p g ag .uncorrectable)) g = true →
        ∃ t, exec (.ldn p g ag .uncorrectable) s = .next t ∧ t.fab.perch[p].finch.inPoison = true ∧ t.fab.perch[p].wren.uncorr = satInc 8 s.fab.perch[p].wren.uncorr ∧
          (CanonicalWren s p → (agUnit s p ag (agCount s p ag)) < 49152 → wordAt t p (agUnit s p ag (agCount s p ag)) = ⟨0, true⟩) ∧
          classCount t 0x12 = satInc 32 (classCount s 0x12) ∧ t.fab.wcnt.uncorr = satInc 32 s.fab.wcnt.uncorr) ∧
  (∀ (s u : State) (p : Fin 72) (v : Fin 4) (g : PredSel) (ag : Fin 8) (half : Bool) (ecc : List Ecc) (ws : List WWord),
      memIssues s p ag true = true →
      readWords p (tileWords s p ag) ecc (beginOp p (.ldt p v g ag half ecc) s) = (ws, u) →
        ∃ t, exec (.ldt p v g ag half ecc) s = .next t ∧
          (predValue (opView s p (.ldt p v g ag half ecc)) g = true → (∀ i : Fin 256,
              t.fab.perch[p].finch.stages[v].tile[i.val + (if half then 256 else 0)]'(by split <;> omega) = (wordBytes ws).getD i 0) ∧
            (∀ i : Fin 256, t.fab.perch[p].finch.stages[v].tile[i.val + (if half then 0 else 256)]'(by split <;> omega) =
              u.fab.perch[p].finch.stages[v].tile[i.val + (if half then 0 else 256)]'(by split <;> omega)) ∧
            t.fab.perch[p].finch.stages[v].tilePoison.getLsbD (if half then 1 else 0) =
              (ws.any (·.poison) || predMark (opView s p (.ldt p v g ag half ecc)) g)) ∧
          (predValue (opView s p (.ldt p v g ag half ecc)) g = false → t.fab.perch[p].finch.stages = u.fab.perch[p].finch.stages) ∧
          t.fab.perch[p].finch.inReg = u.fab.perch[p].finch.inReg ∧
          t.fab.perch[p].finch.agUse = vmod u.fab.perch[p].finch.agUse ag (· + 2) ∧ t.fab.perch[p].wren = u.fab.perch[p].wren ∧ t.flt = u.flt) ∧
  (∀ (s : State) (p : Fin 72) (v : Fin 4) (g : PredSel) (ag : Fin 8) (half : Bool), memIssues s p ag true = true →
      predValue (opView s p (.ldt p v g ag half [])) g = true →
        ∃ t, exec (.ldt p v g ag half []) s = .next t ∧ t.fab.perch[p].wren = s.fab.perch[p].wren ∧ t.fab.perch[p].finch.inReg = s.fab.perch[p].finch.inReg ∧
          t.fab.perch[p].finch.agUse = vmod s.fab.perch[p].finch.agUse ag (· + 2) ∧
          (∀ i : Fin 256, t.fab.perch[p].finch.stages[v].tile[i.val + (if half then 256 else 0)]'(by split <;> omega) =
            ((tileWords s p ag).flatMap fun a => le 8 (wordAt s p a).data.toNat).getD i 0) ∧ t.flt = s.flt ∧
          (∀ q : Fin 72, q ≠ p → t.fab.perch[q] = s.fab.perch[q])) ∧
  (∀ (s : State) (p : Fin 72) (g : PredSel) (ag : Fin 8) (src : StSrc) (ws : List WWord), CanonicalWren s p →
      memIssues s p ag true = true → storeData (opView s p (.stw p g ag src)) g src 16 = some ws →
      (agWords s p ag (agCount s p ag)).all (storeAllowed s p) = true →
      (∀ a ∈ (agWords s p ag (agCount s p ag)), a < 49152) →
        ∃ t, exec (.stw p g ag src) s = .next t ∧
          (∀ a w, (a, w) ∈ (agWords s p ag (agCount s p ag)).zip ws → wordAt t p a = (if w.poison then ⟨0, true⟩ else w)) ∧
          (∀ a, a ∉ (agWords s p ag (agCount s p ag)) → wordAt t p a = wordAt s p a) ∧
          t.fab.perch[p].finch = { s.fab.perch[p].finch with agUse := vmod s.fab.perch[p].finch.agUse ag (· + 1) } ∧ t.flt = s.flt ∧
          (∀ q : Fin 72, q ≠ p → t.fab.perch[q] = s.fab.perch[q])) ∧
  (∀ (s : State) (p : Fin 72) (g : PredSel) (ag : Fin 8) (src : StSrc) (w : WWord), CanonicalWren s p →
      memIssues s p ag false = true → storeData (opView s p (.stn p g ag src)) g src 1 = some [w] →
      storeAllowed s p (agUnit s p ag (agCount s p ag)) = true → (agUnit s p ag (agCount s p ag)) < 49152 →
        ∃ t, exec (.stn p g ag src) s = .next t ∧ wordAt t p (agUnit s p ag (agCount s p ag)) = (if w.poison then ⟨0, true⟩ else w) ∧
          (∀ a, a ≠ (agUnit s p ag (agCount s p ag)) → wordAt t p a = wordAt s p a) ∧
          t.fab.perch[p].finch = { s.fab.perch[p].finch with agUse := vmod s.fab.perch[p].finch.agUse ag (· + 1) } ∧ t.flt = s.flt ∧
          (∀ q : Fin 72, q ≠ p → t.fab.perch[q] = s.fab.perch[q])) ∧
  (∀ (s : State) (p : Fin 72) (g : PredSel) (ag : Fin 8) (src : StSrc) (ws : List WWord),
      memIssues s p ag true = true → storeData (opView s p (.stw p g ag src)) g src 16 = some ws →
      (agWords s p ag (agCount s p ag)).all (storeAllowed s p) = false →
        ∃ t, exec (.stw p g ag src) s = .next t ∧ t.fab.perch[p].wren = s.fab.perch[p].wren ∧ t.fab.wcnt.blocked = satInc 32 s.fab.wcnt.blocked ∧
          t.fab.perch[p].finch = { s.fab.perch[p].finch with agUse := vmod s.fab.perch[p].finch.agUse ag (· + 1) } ∧
          classCount t 0x13 = satInc 32 (classCount s 0x13) ∧ (∀ q : Fin 72, q ≠ p → t.fab.perch[q] = s.fab.perch[q])) ∧
  (∀ (s : State) (p : Fin 72) (g : PredSel) (ag : Fin 8) (src : StSrc), memIssues s p ag true = true →
      storeData (opView s p (.stw p g ag src)) g src 16 = none →
        ∃ t, exec (.stw p g ag src) s = .next t ∧ t.fab.perch[p].wren = s.fab.perch[p].wren ∧ t.flt = s.flt ∧
          t.fab.perch[p].finch = { s.fab.perch[p].finch with agUse := vmod s.fab.perch[p].finch.agUse ag (· + 1) } ∧ (∀ q : Fin 72, q ≠ p → t.fab.perch[q] = s.fab.perch[q])) ∧
  (∀ (s : State) (p : Fin 72) (g : PredSel) (ag : Fin 8) (src : StSrc) (ws : List WWord),
      memIssues s p ag false = true → storeData (opView s p (.stn p g ag src)) g src 1 = some ws →
      (agWords s p ag (agCount s p ag)).all (storeAllowed s p) = false →
        ∃ t, exec (.stn p g ag src) s = .next t ∧ t.fab.perch[p].wren = s.fab.perch[p].wren ∧ t.fab.wcnt.blocked = satInc 32 s.fab.wcnt.blocked ∧
          t.fab.perch[p].finch = { s.fab.perch[p].finch with agUse := vmod s.fab.perch[p].finch.agUse ag (· + 1) } ∧
          classCount t 0x13 = satInc 32 (classCount s 0x13) ∧ (∀ q : Fin 72, q ≠ p → t.fab.perch[q] = s.fab.perch[q])) ∧
  (∀ (s : State) (p : Fin 72) (g : PredSel) (ag : Fin 8) (src : StSrc), memIssues s p ag false = true →
      storeData (opView s p (.stn p g ag src)) g src 1 = none →
        ∃ t, exec (.stn p g ag src) s = .next t ∧ t.fab.perch[p].wren = s.fab.perch[p].wren ∧ t.flt = s.flt ∧
          t.fab.perch[p].finch = { s.fab.perch[p].finch with agUse := vmod s.fab.perch[p].finch.agUse ag (· + 1) } ∧ (∀ q : Fin 72, q ≠ p → t.fab.perch[q] = s.fab.perch[q])) ∧
  (∀ (fi : Finch) (g : PredSel) (src : StSrc) (n : Nat), predValue fi g = false →
        storeData fi g src n = if predMark fi g then some (List.replicate n ⟨0, true⟩) else none) ∧
  (∀ (s : State) (p : Fin 72) (v : Fin 4) (g : PredSel) (ag : Fin 8) (src : StSrc) (ecc : List Ecc) (half : Bool),
      memIssues s p ag true = false →
        exec (.ldw p g ag ecc) s = .next s ∧ exec (.ldt p v g ag half ecc) s = .next s ∧ exec (.stw p g ag src) s = .next s) ∧
  (∀ (s : State) (p : Fin 72) (g : PredSel) (ag : Fin 8) (src : StSrc) (e : Ecc), memIssues s p ag false = false →
        exec (.ldn p g ag e) s = .next s ∧ exec (.stn p g ag src) s = .next s)

/-- PUT, its request, its acceptance and its landing. Where the spec leaves room the clauses follow the model's choices of log entries 14, 27, 41, 42. Basis: derived; cites 07_wren.md, R260 to R262, R267 to R271, R274, R279; 08_dataflow_rules.md, R297, R320; 02_architecture.md, R67. Says that these complete: put, nbwRequest, nbwAccept, nbwLand. -/
def Obligations.NeighbourWritesArriveAndCount : Prop :=
  (∀ (s : State) (p o : Fin 72) (g : PredSel) (dir : Dir) (or : Orient) (u : Nat) (ac : Fin 16) (src : StSrc),
      issues s p = true → neighbour s p dir = some o →
        ∃ t q, exec (.put p g dir or u ac src) s = .next t ∧ t.fab.perch[p].run.putOut[dirIx dir] = s.fab.perch[p].run.putOut[dirIx dir] ++ [q] ∧ q.from_ = p.val ∧ q.ac = ac.val ∧
          q.beat = (finchOf s p).beat % 32 ∧ q.addr = unitWords (orientIx or) u ∧
          q.void = (storeData (opView s p (.put p g dir or u ac src)) g src (if or = .narrow then 1 else 16)).isNone ∧
          q.data = (storeData (opView s p (.put p g dir or u ac src)) g src (if or = .narrow then 1 else 16)).getD [] ∧
          t.fab.perch[p].finch = { s.fab.perch[p].finch with putWait :=
              (if s.fab.perch[o].wren.portQ[dirIx (opposite dir)].length < 4 then s.fab.perch[p].finch.putWait else putBit s.fab.perch[p].finch.putWait (dirIx dir).val true) } ∧
          t.fab.perch[p].wren = s.fab.perch[p].wren ∧ t.flt = s.flt ∧ (∀ q : Fin 72, q ≠ p → t.fab.perch[q] = s.fab.perch[q])) ∧
  (∀ (s : State) (p : Fin 72) (g : PredSel) (dir : Dir) (or : Orient) (u : Nat) (ac : Fin 16) (src : StSrc),
      (issues s p = false ∨ neighbour s p dir = none) →
        exec (.put p g dir or u ac src) s = .next s) ∧
  (∀ (s : State) (p o : Fin 72) (dir : Dir) (q : NbReq) (rest : List NbReq), neighbour s p dir = some o → o ≠ p →
      s.fab.perch[p].run.putOut[dirIx dir] = q :: rest → s.fab.perch[o].wren.portQ[dirIx (opposite dir)].length < 4 →
        ∃ t u v, exec (.nbwRequest p dir none) s = .next t ∧ exec (.nbwRequest p dir (some true)) s = .next u ∧
          exec (.nbwRequest p dir (some false)) s = .next v ∧ t.fab.perch[p].run.putOut[dirIx dir] = rest ∧ t.fab.perch[o].wren.portQ[dirIx (opposite dir)] = s.fab.perch[o].wren.portQ[dirIx (opposite dir)] ++ [q] ∧
          t.fab.perch[p].finch = { s.fab.perch[p].finch with putWait := putBit s.fab.perch[p].finch.putWait (dirIx dir).val false } ∧
          t.flt = s.flt ∧ t.fab.cnt = s.fab.cnt ∧
          u = { t with fab := { t.fab with cnt := { s.fab.cnt with parityResend := satInc 32 s.fab.cnt.parityResend } } } ∧
          v.fab.perch[p].run.putOut[dirIx dir] = rest ∧
          v.fab.perch[o].wren.portQ[dirIx (opposite dir)] =
            s.fab.perch[o].wren.portQ[dirIx (opposite dir)] ++ [{ q with data := q.data.map fun w => { w with poison := true } }] ∧
          classCount v 0x20 = satInc 32 (classCount s 0x20)) ∧
  (∀ (s : State) (p o : Fin 72) (dir : Dir) (q : NbReq) (rest : List NbReq) (parity : Option Bool),
      neighbour s p dir = some o → s.fab.perch[p].run.putOut[dirIx dir] = q :: rest →
      4 ≤ s.fab.perch[o].wren.portQ[dirIx (opposite dir)].length →
        ∃ t, exec (.nbwRequest p dir parity) s = .next t ∧
          t.fab.perch[p] = { s.fab.perch[p] with finch := { s.fab.perch[p].finch with putWait := putBit s.fab.perch[p].finch.putWait (dirIx dir).val true } } ∧
          t.flt = s.flt ∧ (∀ q : Fin 72, q ≠ p → t.fab.perch[q] = s.fab.perch[q])) ∧
  (∀ (s : State) (p : Fin 72) (dir : Dir) (parity : Option Bool),
      (neighbour s p dir = none ∨ s.fab.perch[p].run.putOut[dirIx dir] = []) →
        exec (.nbwRequest p dir parity) s = .next s) ∧
  (∀ (s : State) (p : Fin 72) (port : Dir) (q : NbReq) (rest : List NbReq),
      s.fab.perch[p].wren.portQ[dirIx port] = q :: rest → s.sys.code = .run → q.beat = (finchOf s p).beat % 32 →
      outranked s p (dirIx port) q = false →
        ∃ t, exec (.nbwAccept p port .clean) s = .next t ∧ t.fab.perch[p].wren.landing = s.fab.perch[p].wren.landing ++ [q] ∧
          t.fab.perch[p].wren.rot = (dirIx port).val ∧ t.fab.perch[p].wren.words = s.fab.perch[p].wren.words ∧ t.fab.perch[p].wren.ac = s.fab.perch[p].wren.ac ∧
          (t.fab.perch[p].wren.portQ[dirIx port] = rest ∨ ∃ x, t.fab.perch[p].wren.portQ[dirIx port] = rest ++ [x]) ∧ t.flt = s.flt) ∧
  (∀ (s : State) (p : Fin 72) (port : Dir) (q : NbReq) (rest : List NbReq),
      s.fab.perch[p].wren.portQ[dirIx port] = q :: rest → s.sys.code = .run → q.beat = (finchOf s p).beat % 32 →
      outranked s p (dirIx port) q = false →
        ∃ t, exec (.nbwAccept p port .corrected) s = .next t ∧ t.fab.perch[p].wren.landing = s.fab.perch[p].wren.landing ++ [q] ∧
          classCount t 0x11 = satInc 32 (classCount s 0x11) ∧ t.fab.wcnt.corr = satInc 32 s.fab.wcnt.corr) ∧
  (∀ (s : State) (p : Fin 72) (port : Dir) (q : NbReq) (rest : List NbReq),
      s.fab.perch[p].wren.portQ[dirIx port] = q :: rest → s.sys.code = .run → q.beat = (finchOf s p).beat % 32 →
      outranked s p (dirIx port) q = false →
        ∃ t x, exec (.nbwAccept p port .uncorrectable) s = .next t ∧ t.fab.perch[p].wren.landing = s.fab.perch[p].wren.landing ++ [x] ∧
          x.void = q.void ∧ x.data = (q.data.map fun w => { w with poison := true }) ∧
          classCount t 0x12 = satInc 32 (classCount s 0x12) ∧ t.fab.wcnt.uncorr = satInc 32 s.fab.wcnt.uncorr) ∧
  (∀ (s : State) (p : Fin 72) (port : Dir) (q : NbReq) (rest : List NbReq) (ecc : Ecc),
      s.fab.perch[p].wren.portQ[dirIx port] = q :: rest → s.sys.code = .run → q.beat ≠ (finchOf s p).beat % 32 →
      q.held = false →
        ∃ t, exec (.nbwAccept p port ecc) s = .next t ∧ t.fab.perch[p].wren.portQ = s.fab.perch[p].wren.portQ.set (dirIx port) ({ q with held := true } :: rest) ∧
          t.fab.perch[p].wren.landing = s.fab.perch[p].wren.landing ∧ t.fab.cnt.nbwHeld = satInc 32 s.fab.cnt.nbwHeld ∧ t.flt = s.flt ∧
          (∀ q : Fin 72, q ≠ p → t.fab.perch[q] = s.fab.perch[q])) ∧
  (∀ (s : State) (p : Fin 72) (port : Dir) (q : NbReq) (rest : List NbReq) (ecc : Ecc),
      s.fab.perch[p].wren.portQ[dirIx port] = q :: rest →
      (s.sys.code ≠ .run ∨ (q.beat ≠ (finchOf s p).beat % 32 ∧ q.held = true) ∨ outranked s p (dirIx port) q = true) →
      (q.beat ≠ (finchOf s p).beat % 32 → q.held = true) →
        exec (.nbwAccept p port ecc) s = .next s) ∧
  (∀ (s : State) (p : Fin 72) (port : Dir) (other : Fin 4) (q x : NbReq) (rest : List NbReq) (ecc : Ecc),
      s.fab.perch[p].wren.portQ[dirIx port] = q :: rest → q.beat = (finchOf s p).beat % 32 → q.addr.length = 1 →
      other ≠ dirIx port → readyHead s p other = some x → x.addr.length ≠ 1 →
        exec (.nbwAccept p port ecc) s = .next s) ∧
  (∀ (s : State) (p : Fin 72) (port : Dir) (ecc : Ecc), s.fab.perch[p].wren.portQ[dirIx port] = [] →
        exec (.nbwAccept p port ecc) s = .next s) ∧
  (∀ (s : State) (p : Fin 72) (q : NbReq) (rest : List NbReq) (k : Fin 16), s.fab.perch[p].wren.landing = q :: rest →
      ((finchOf s p).stalled = false ∨ (finchOf s p).stall.kind ≠ .wait ∨ (vmod s.fab.perch[p].wren.ac k (· + 1))[Fin.ofNat 16 (finchOf s p).stall.chan] < (finchOf s p).stall.n) →
      q.ac = k.val → s.fab.perch[p].wren.ac[k] < 1048575 → (q.void = true ∨ q.addr.all (nbwAllowed s p) = true) →
        ∃ t, exec (.nbwLand p) s = .next t ∧ t.fab.perch[p].wren.landing = rest ∧ t.fab.perch[p].wren.ac = vmod s.fab.perch[p].wren.ac k (· + 1) ∧
          (q.void = true → t.fab.perch[p].wren.words = s.fab.perch[p].wren.words) ∧ (∀ a, a ∉ q.addr → wordAt t p a = wordAt s p a) ∧
          t.fab.perch[p].finch = s.fab.perch[p].finch ∧ t.flt = s.flt ∧ (∀ q : Fin 72, q ≠ p → t.fab.perch[q] = s.fab.perch[q])) ∧
  (∀ (s : State) (p : Fin 72) (q : NbReq) (rest : List NbReq) (a : Nat) (w : WWord), CanonicalWren s p →
      s.fab.perch[p].wren.landing = q :: rest → q.void = false → q.addr = [a] → q.data = [w] →
      nbwAllowed s p a = true → a < 49152 →
        ∃ t, exec (.nbwLand p) s = .next t ∧ t.fab.perch[p].wren.landing = rest ∧ wordAt t p a = (if w.poison then ⟨0, true⟩ else w)) ∧
  (∀ (s : State) (p : Fin 72) (q : NbReq) (rest : List NbReq) (k : Fin 16), s.fab.perch[p].wren.landing = q :: rest →
      ((finchOf s p).stalled = false ∨ (finchOf s p).stall.kind ≠ .wait ∨ (vmod s.fab.perch[p].wren.ac k (· + 1))[Fin.ofNat 16 (finchOf s p).stall.chan] < (finchOf s p).stall.n) →
      q.ac = k.val → s.fab.perch[p].wren.ac[k] < 1048575 → q.void = false → q.addr.all (nbwAllowed s p) = false →
        ∃ t, exec (.nbwLand p) s = .next t ∧ t.fab.perch[p].wren.landing = rest ∧ t.fab.perch[p].wren.words = s.fab.perch[p].wren.words ∧
          t.fab.perch[p].wren.ac = vmod s.fab.perch[p].wren.ac k (· + 1) ∧ classCount t 0x13 = satInc 32 (classCount s 0x13) ∧
          t.fab.wcnt.blocked = satInc 32 s.fab.wcnt.blocked) ∧
  (∀ (s : State) (p : Fin 72) (q : NbReq) (rest : List NbReq) (k : Fin 16), s.fab.perch[p].wren.landing = q :: rest →
      (finchOf s p).stalled = false → q.ac = k.val → 1048575 ≤ s.fab.perch[p].wren.ac[k] → q.void = true →
        ∃ t, exec (.nbwLand p) s = .next t ∧ t.fab.perch[p].wren.landing = rest ∧ t.fab.perch[p].wren.ac = s.fab.perch[p].wren.ac ∧
          t.fab.wcnt.acSat = satInc 32 s.fab.wcnt.acSat ∧ classCount t 0x20 = satInc 32 (classCount s 0x20)) ∧
  (∀ (s : State) (p : Fin 72) (q : NbReq) (rest : List NbReq) (k : Fin 16), s.fab.perch[p].wren.landing = q :: rest →
      (finchOf s p).stalled = true → (finchOf s p).stall.kind = .wait → (finchOf s p).stall.chan = k.val →
      (finchOf s p).stall.n ≤ s.fab.perch[p].wren.ac[k] + 1 → q.ac = k.val → s.fab.perch[p].wren.ac[k] < 1048575 →
      q.void = true →
        ∃ t, exec (.nbwLand p) s = .next t ∧ t.fab.perch[p].wren.landing = rest ∧ t.fab.perch[p].finch.stalled = false ∧
          t.fab.perch[p].wren.ac = vmod s.fab.perch[p].wren.ac k (fun n => n + 1 - (finchOf s p).stall.n) ∧ t.flt = s.flt) ∧
  (∀ (s : State) (p : Fin 72), s.fab.perch[p].wren.landing = [] →
        exec (.nbwLand p) s = .next s)

/-- Write-backs, spill writes, the loader, the scrub and the resident rewrite. Where the spec leaves room the clauses follow the model's choices of log entries 8, 14, 27, 43. Basis: derived; cites 07_wren.md, R257, R264, R281, R284, R285, R292; 08_dataflow_rules.md, R316. Says that these complete: correctionWriteback, forcedSlot, spillWrite, loaderWrite, wrenScrubRow, residentRewriteDone. -/
def Obligations.WrenBackgroundWork : Prop :=
  (∀ (s : State) (p : Fin 72) (a : Nat) (w : WWord) (rest : List (Nat × WWord)), CanonicalWren s p →
      s.fab.perch[p].wren.wbQ = (a, w) :: rest → a < 49152 →
        ∃ t, exec (.correctionWriteback p) s = .next t ∧ wordAt t p a = (if w.poison then ⟨0, true⟩ else w) ∧
          (∀ b, b ≠ a → wordAt t p b = wordAt s p b) ∧ t.fab.perch[p].wren.wbQ = rest.filter (fun q => q.1 != a) ∧ t.flt = s.flt ∧
          (∀ q : Fin 72, q ≠ p → t.fab.perch[q] = s.fab.perch[q]) ∧
          (spillWaits s p = false → loaderDue s p = none → exec (.forcedSlot p) s = .next t)) ∧
  (∀ (s : State) (p : Fin 72), s.fab.perch[p].wren.wbQ = [] →
        exec (.correctionWriteback p) s = .next s ∧
          (spillWaits s p = false → exec (.spillWrite p) s = .next s ∧ (loaderDue s p = none → exec (.forcedSlot p) s = .next s))) ∧
  (∀ (s : State) (p : Fin 72) (i : Fin 16) (k : Token), CanonicalWren s p → nextUnwritten s p = some (i, k) →
      s.fab.perch[p].run.backlog[i] = [(k, none)] → (∀ j : Fin 16, j ≠ i → s.fab.perch[p].run.backlog[j] = []) →
      0 < riserEntries s p → riserWord s p 0 + 1 < 49152 →
        ∃ t, exec (.spillWrite p) s = .next t ∧ exec (.forcedSlot p) s = .next t ∧ t.fab.perch[p].run.backlog[i] = [(k, some 0)] ∧
          wordAt t p (riserWord s p 0) = (riserPair k).getD 0 WWord.reset ∧
          wordAt t p (riserWord s p 0 + 1) = (riserPair k).getD 1 WWord.reset ∧
          (∀ a, a ≠ riserWord s p 0 → a ≠ riserWord s p 0 + 1 → wordAt t p a = wordAt s p a) ∧ t.flt = s.flt ∧ t.fab.perch[p].finch = s.fab.perch[p].finch ∧
          (∀ q : Fin 72, q ≠ p → t.fab.perch[q] = s.fab.perch[q])) ∧
  (∀ (s : State) (p : Fin 72), spillWaits s p = true →
        ∃ t, exec (.spillWrite p) s = .next t ∧ exec (.forcedSlot p) s = .next t ∧ t.fab.perch[p].finch = s.fab.perch[p].finch ∧ t.flt = s.flt ∧
          t.fab.perch[p].run.outBuf = s.fab.perch[p].run.outBuf ∧ t.fab.perch[p].run.credit = s.fab.perch[p].run.credit ∧ (∀ q : Fin 72, q ≠ p → t.fab.perch[q] = s.fab.perch[q])) ∧
  (∀ (s : State) (p : Fin 72) (rgn : Fin 16) (row : Nat) (r : Region), CanonicalWren s p →
      (residents s.img (rowOf p)).find? (·.ix = rgn.val) = some r → rewriting s p r.ix = true → row < 16 * r.len →
      256 * r.base + 16 * row + 15 < 49152 →
        ∃ t, exec (.loaderWrite p rgn row) s = .next t ∧ (∀ i : Fin 16, wordAt t p (256 * r.base + 16 * row + i) = (contentRow s (rowOf p) r.ix row).getD i WWord.reset) ∧
          (∀ a, a < 256 * r.base + 16 * row ∨ 256 * r.base + 16 * row + 15 < a → wordAt t p a = wordAt s p a) ∧
          t.fab.perch[p].wren.rewriting = (s.fab.perch[p].wren.rewriting.map fun y => if y.1 = r.ix then (r.ix, row + 1) else y) ∧ t.flt = s.flt ∧
          (∀ q : Fin 72, q ≠ p → t.fab.perch[q] = s.fab.perch[q])) ∧
  (∀ (s : State) (p : Fin 72) (row : Nat) (r : Region), CanonicalWren s p → spillWaits s p = false →
      loaderDue s p = some (r, row) → 256 * r.base + 16 * row + 15 < 49152 →
        ∃ t, exec (.forcedSlot p) s = .next t ∧ (∀ i : Fin 16, wordAt t p (256 * r.base + 16 * row + i) = (contentRow s (rowOf p) r.ix row).getD i WWord.reset) ∧
          (∀ a, a < 256 * r.base + 16 * row ∨ 256 * r.base + 16 * row + 15 < a → wordAt t p a = wordAt s p a) ∧
          t.fab.perch[p].wren.rewriting = (s.fab.perch[p].wren.rewriting.map fun y => if y.1 = r.ix then (r.ix, row + 1) else y) ∧ t.flt = s.flt ∧
          (∀ q : Fin 72, q ≠ p → t.fab.perch[q] = s.fab.perch[q])) ∧
  (∀ (s : State) (p : Fin 72) (rgn : Fin 16) (row : Nat),
      ((residents s.img (rowOf p)).find? (·.ix = rgn.val) = none ∨ rewriting s p rgn.val = false) →
        exec (.loaderWrite p rgn row) s = .next s) ∧
  (∀ (s : State) (p : Fin 72) (rgn : Fin 16) (row : Nat) (r : Region),
      (residents s.img (rowOf p)).find? (·.ix = rgn.val) = some r → 16 * r.len ≤ row →
        exec (.loaderWrite p rgn row) s = .next s) ∧
  (∀ (s : State) (p : Fin 72), live s = true → s.fab.perch[p].powered = true → s.fab.perch[p].wren.scrubRow < 3071 →
        ∃ t, exec (.wrenScrubRow p []) s = .next t ∧ t.fab.perch[p] = { s.fab.perch[p] with wren := { s.fab.perch[p].wren with scrubRow := s.fab.perch[p].wren.scrubRow + 1 } } ∧
          t.flt = s.flt ∧ (∀ q : Fin 72, q ≠ p → t.fab.perch[q] = s.fab.perch[q])) ∧
  (∀ (s : State) (p : Fin 72), live s = true → s.fab.perch[p].powered = true → 3071 ≤ s.fab.perch[p].wren.scrubRow →
        ∃ t, exec (.wrenScrubRow p []) s = .next t ∧ t.fab.perch[p] = { s.fab.perch[p] with wren := { s.fab.perch[p].wren with
            scrubRow := 0
            passes := satInc 32 s.fab.perch[p].wren.passes
            lastUs := min ((s.now - s.fab.perch[p].wren.passStart) / 200) 65535
            passStart := s.now } } ∧ t.flt = s.flt ∧ (∀ q : Fin 72, q ≠ p → t.fab.perch[q] = s.fab.perch[q])) ∧
  (∀ (s : State) (p : Fin 72), live s = true → s.fab.perch[p].powered = true →
      (wordAt s p (16 * s.fab.perch[p].wren.scrubRow)).poison = false →
        ∃ t, exec (.wrenScrubRow p [.corrected]) s = .next t ∧ t.fab.perch[p].wren.words = s.fab.perch[p].wren.words ∧
          (s.fab.perch[p].wren.wbQ.length < 4 → t.fab.perch[p].wren.wbQ =
            s.fab.perch[p].wren.wbQ ++ [(16 * s.fab.perch[p].wren.scrubRow, wordAt s p (16 * s.fab.perch[p].wren.scrubRow))]) ∧
          classCount t 0x11 = satInc 32 (classCount s 0x11)) ∧
  (∀ (s : State) (p : Fin 72), live s = true → s.fab.perch[p].powered = true → s.fab.perch[p].wren.scrubRow < 3072 →
      CanonicalWren s p →
        ∃ t, exec (.wrenScrubRow p [.uncorrectable]) s = .next t ∧ wordAt t p (16 * s.fab.perch[p].wren.scrubRow) = ⟨0, true⟩ ∧
          (∀ a, a ≠ 16 * s.fab.perch[p].wren.scrubRow → wordAt t p a = wordAt s p a) ∧
          classCount t 0x12 = satInc 32 (classCount s 0x12)) ∧
  (∀ (s : State) (p : Fin 72) (ecc : List Ecc), (live s = false ∨ s.fab.perch[p].powered = false) →
        exec (.wrenScrubRow p ecc) s = .next s) ∧
  (∀ (s : State) (p : Fin 72) (j n : Nat) (rest : List (Nat × Nat)) (r : Region),
      s.fab.perch[p].wren.rewriting = (j, n) :: rest → (residents s.img (rowOf p)).find? (·.ix = j) = some r →
      regionOk s.img (loadRegion s.img s.boot.slot p r s) p r = true →
        ∃ t, exec (.residentRewriteDone p) s = .next t ∧ t.fab.perch[p].wren.rewriting = rest ∧
          t.fab.wcnt.resReloads = satInc 32 s.fab.wcnt.resReloads ∧ (p.val, r.ix) ∈ t.flt.reloadedRgn ∧
          (∀ q : Fin 72, q ≠ p → t.fab.perch[q] = s.fab.perch[q])) ∧
  (∀ (s : State) (p : Fin 72) (j n : Nat) (rest : List (Nat × Nat)) (r : Region),
      s.fab.perch[p].wren.rewriting = (j, n) :: rest → (residents s.img (rowOf p)).find? (·.ix = j) = some r →
      regionOk s.img (loadRegion s.img s.boot.slot p r s) p r = false →
        ∃ t, exec (.residentRewriteDone p) s = .next t ∧ t.fab.perch[p].wren.rewriting = s.fab.perch[p].wren.rewriting ∧
          t.fab.wcnt.resReloads = satInc 32 s.fab.wcnt.resReloads ∧ t.flt = s.flt ∧ (∀ q : Fin 72, q ≠ p → t.fab.perch[q] = s.fab.perch[q])) ∧
  (∀ (s : State) (p : Fin 72) (j n : Nat) (rest : List (Nat × Nat)), s.fab.perch[p].wren.rewriting = (j, n) :: rest →
      (residents s.img (rowOf p)).find? (·.ix = j) = none →
        ∃ t, exec (.residentRewriteDone p) s = .next t ∧ t.fab.perch[p] = { s.fab.perch[p] with wren := { s.fab.perch[p].wren with rewriting := rest } } ∧
          t.flt = s.flt ∧ t.fab.wcnt = s.fab.wcnt ∧ (∀ q : Fin 72, q ≠ p → t.fab.perch[q] = s.fab.perch[q])) ∧
  (∀ (s : State) (p : Fin 72), s.fab.perch[p].wren.rewriting = [] →
        exec (.residentRewriteDone p) s = .next s)

/-- SEND, RECV, EGR and WAIT. Where the spec leaves room the clauses follow the model's choices of log entries 6, 42, 43. Basis: derived; cites 06_perch_fabric.md, R235, R240, R243; 07_wren.md, R270; 08_dataflow_rules.md, R312, R314, R317, R320 to R322, R324. Says that these complete: send, recv, egr, wait. -/
def Obligations.RunnerOpsMoveTokens : Prop :=
  (∀ (s : State) (p q : Fin 72) (g : PredSel) (dir : Dir) (ch : Fin 4) (tag : BitVec 4) (src : StSrc),
      issues s p = true → neighbour s p dir = some q → chanKind s q (opposite dir) ch = 1 →
      0 < s.fab.perch[p].run.credit[chanIx dir ch] →
        ∃ t, exec (.send p g dir ch tag src) s = .next t ∧
          t.fab.perch[p].run = { s.fab.perch[p].run with
            credit := vmod s.fab.perch[p].run.credit (chanIx dir ch) (· - 1)
            waitTx := vmod s.fab.perch[p].run.waitTx (dirIx dir) (· ++ [(tokenFor (opView s p (.send p g dir ch tag src)) g (BitVec.ofNat 2 ch) tag src)])
            sentLater := vmod s.fab.perch[p].run.sentLater (chanIx dir ch) (· + 1) } ∧
          t.fab.perch[p].finch = s.fab.perch[p].finch ∧ t.fab.perch[p].wren = s.fab.perch[p].wren ∧ t.flt = s.flt ∧ t.spr = s.spr ∧ (∀ q : Fin 72, q ≠ p → t.fab.perch[q] = s.fab.perch[q])) ∧
  (∀ (s : State) (p q : Fin 72) (g : PredSel) (dir : Dir) (ch : Fin 4) (tag : BitVec 4) (src : StSrc),
      issues s p = true → neighbour s p dir = some q → chanKind s q (opposite dir) ch = 1 →
      s.fab.perch[p].run.credit[chanIx dir ch] = 0 →
        ∃ t, exec (.send p g dir ch tag src) s = .next t ∧
          t.fab.perch[p].finch = { s.fab.perch[p].finch with
            stalled := true
            stall := { Stall.reset with kind := .send, chan := (chanIx dir ch).val, tok := (tokenFor (opView s p (.send p g dir ch tag src)) g (BitVec.ofNat 2 ch) tag src) } } ∧
          t.fab.perch[p].run = s.fab.perch[p].run ∧ t.fab.perch[p].wren = s.fab.perch[p].wren ∧ t.flt = s.flt ∧ t.spr = s.spr ∧ (∀ q : Fin 72, q ≠ p → t.fab.perch[q] = s.fab.perch[q])) ∧
  (∀ (s : State) (p q : Fin 72) (g : PredSel) (dir : Dir) (ch : Fin 4) (tag : BitVec 4) (src : StSrc),
      issues s p = true → neighbour s p dir = some q → chanKind s q (opposite dir) ch = 2 →
      predValue (opView s p (.send p g dir ch tag src)) g = true → s.fab.perch[p].run.backlog[chanIx dir ch] = [] →
      s.fab.perch[p].run.outBuf[dirIx dir].length < 16 →
        ∃ t, exec (.send p g dir ch tag src) s = .next t ∧
          t.fab.perch[p].run = { s.fab.perch[p].run with outBuf := vmod s.fab.perch[p].run.outBuf (dirIx dir) (· ++ [(tokenFor (opView s p (.send p g dir ch tag src)) g (BitVec.ofNat 2 ch) tag src)]) } ∧
          t.fab.perch[p].finch = s.fab.perch[p].finch ∧ t.fab.perch[p].wren = s.fab.perch[p].wren ∧ t.flt = s.flt ∧ t.spr = s.spr ∧ t.fab.cnt = s.fab.cnt ∧ (∀ q : Fin 72, q ≠ p → t.fab.perch[q] = s.fab.perch[q])) ∧
  (∀ (s : State) (p q : Fin 72) (g : PredSel) (dir : Dir) (ch : Fin 4) (tag : BitVec 4) (src : StSrc),
      issues s p = true → neighbour s p dir = some q → chanKind s q (opposite dir) ch = 2 →
      predValue (opView s p (.send p g dir ch tag src)) g = true →
      (s.fab.perch[p].run.backlog[chanIx dir ch] ≠ [] ∨ 16 ≤ s.fab.perch[p].run.outBuf[dirIx dir].length) →
      0 < riserFree s p →
        ∃ t, exec (.send p g dir ch tag src) s = .next t ∧
          t.fab.perch[p].run = { s.fab.perch[p].run with backlog := vmod s.fab.perch[p].run.backlog (chanIx dir ch) (· ++ [((tokenFor (opView s p (.send p g dir ch tag src)) g (BitVec.ofNat 2 ch) tag src), none)]) } ∧
          t.fab.cnt.spillTokens = satInc 32 s.fab.cnt.spillTokens ∧
          t.fab.perch[p].finch = s.fab.perch[p].finch ∧ t.fab.perch[p].wren = s.fab.perch[p].wren ∧ t.flt = s.flt ∧ t.spr = s.spr ∧ (∀ q : Fin 72, q ≠ p → t.fab.perch[q] = s.fab.perch[q])) ∧
  (∀ (s : State) (p q : Fin 72) (g : PredSel) (dir : Dir) (ch : Fin 4) (tag : BitVec 4) (src : StSrc),
      issues s p = true → neighbour s p dir = some q → chanKind s q (opposite dir) ch = 2 →
      predValue (opView s p (.send p g dir ch tag src)) g = true →
      (s.fab.perch[p].run.backlog[chanIx dir ch] ≠ [] ∨ 16 ≤ s.fab.perch[p].run.outBuf[dirIx dir].length) →
      riserFree s p = 0 →
        ∃ t, exec (.send p g dir ch tag src) s = .next t ∧ t.fab.perch[p].run = s.fab.perch[p].run ∧ t.fab.perch[p].finch = s.fab.perch[p].finch ∧ t.fab.perch[p].wren = s.fab.perch[p].wren ∧
          t.fab.cnt.riserDrops = satInc 32 s.fab.cnt.riserDrops ∧ classCount t 0x21 = satInc 32 (classCount s 0x21) ∧
          (∀ l ∈ t.spr.lines, l.line = (finchOf s p).beat → rowOf p ∈ l.degRows) ∧ (∀ q : Fin 72, q ≠ p → t.fab.perch[q] = s.fab.perch[q])) ∧
  (∀ (s : State) (p q : Fin 72) (g : PredSel) (dir : Dir) (ch : Fin 4) (tag : BitVec 4) (src : StSrc),
      issues s p = true → neighbour s p dir = some q → chanKind s q (opposite dir) ch = 2 →
      predValue (opView s p (.send p g dir ch tag src)) g = false →
        ∃ t, exec (.send p g dir ch tag src) s = .next t ∧ t.fab.perch[p].run = s.fab.perch[p].run ∧ t.fab.perch[p].finch = s.fab.perch[p].finch ∧ t.fab.perch[p].wren = s.fab.perch[p].wren ∧
          t.flt = s.flt ∧ t.spr = s.spr ∧ t.fab.cnt = s.fab.cnt ∧ (∀ q : Fin 72, q ≠ p → t.fab.perch[q] = s.fab.perch[q])) ∧
  (∀ (s : State) (p : Fin 72) (g : PredSel) (dir : Dir) (ch : Fin 4) (tag : BitVec 4) (src : StSrc),
      (issues s p = false ∨ neighbour s p dir = none) →
        exec (.send p g dir ch tag src) s = .next s) ∧
  (∀ (s : State) (p q : Fin 72) (g : PredSel) (dir : Dir) (ch : Fin 4) (tag : BitVec 4) (src : StSrc),
      neighbour s p dir = some q → chanKind s q (opposite dir) ch ≠ 1 → chanKind s q (opposite dir) ch ≠ 2 →
        exec (.send p g dir ch tag src) s = .next s) ∧
  (∀ (s : State) (p q : Fin 72) (g : PredSel) (link : Dir) (ch : Fin 4) (pd : Fin 8) (n : Nat) (k : Token) (rest : List (Nat × Token)),
      issues s p = true → neighbour s p link = some q → q ≠ p → chanKind s p link ch = 1 →
      predValue (opView s p (.recv p g link ch (some pd))) g = true →
      s.fab.perch[p].run.rxQ[chanIx link ch] = (n, k) :: rest →
        ∃ t, exec (.recv p g link ch (some pd)) s = .next t ∧ t.fab.perch[p].run = { s.fab.perch[p].run with rxQ := s.fab.perch[p].run.rxQ.set (chanIx link ch) rest } ∧
          t.fab.perch[p].finch = { s.fab.perch[p].finch with
            inReg := ((List.range 16).map fun i => s.fab.perch[p].finch.inReg.getD i 0).set 0 k.data
            inPoison := (k.poison || predMark (opView s p (.recv p g link ch (some pd))) g)
            preds := putBit s.fab.perch[p].finch.preds pd (!k.void)
            predPoison := putBit s.fab.perch[p].finch.predPoison pd (k.poison || predMark (opView s p (.recv p g link ch (some pd))) g) } ∧
          t.fab.perch[q].run.creditOnLink = vmod s.fab.perch[q].run.creditOnLink (chanIx (opposite link) ch) (· + 1) ∧
          t.fab.perch[q].finch = s.fab.perch[q].finch ∧ t.flt = s.flt ∧ t.fab.cnt = s.fab.cnt ∧ (∀ x : Fin 72, x ≠ p → x ≠ q → t.fab.perch[x] = s.fab.perch[x])) ∧
  (∀ (s : State) (p q : Fin 72) (g : PredSel) (link : Dir) (ch : Fin 4) (n : Nat) (k : Token) (rest : List (Nat × Token)),
      issues s p = true → neighbour s p link = some q → q ≠ p → chanKind s p link ch = 1 →
      predValue (opView s p (.recv p g link ch none)) g = true →
      s.fab.perch[p].run.rxQ[chanIx link ch] = (n, k) :: rest →
        ∃ t, exec (.recv p g link ch none) s = .next t ∧ t.fab.perch[p].run = { s.fab.perch[p].run with rxQ := s.fab.perch[p].run.rxQ.set (chanIx link ch) rest } ∧
          t.fab.perch[p].finch = { s.fab.perch[p].finch with
            inReg := ((List.range 16).map fun i => s.fab.perch[p].finch.inReg.getD i 0).set 0 k.data
            inPoison := (k.poison || predMark (opView s p (.recv p g link ch none)) g) } ∧
          t.fab.perch[q].run.creditOnLink = vmod s.fab.perch[q].run.creditOnLink (chanIx (opposite link) ch) (· + 1) ∧
          t.fab.perch[q].finch = s.fab.perch[q].finch ∧ t.flt = s.flt ∧ t.fab.cnt = s.fab.cnt ∧ (∀ x : Fin 72, x ≠ p → x ≠ q → t.fab.perch[x] = s.fab.perch[x])) ∧
  (∀ (s : State) (p q : Fin 72) (g : PredSel) (link : Dir) (ch : Fin 4) (pd : Fin 8) (n : Nat) (k : Token) (rest : List (Nat × Token)),
      issues s p = true → neighbour s p link = some q → q ≠ p → chanKind s p link ch = 2 →
      predValue (opView s p (.recv p g link ch (some pd))) g = true →
      s.fab.perch[p].run.rxQ[chanIx link ch] = (n, k) :: rest →
        ∃ t, exec (.recv p g link ch (some pd)) s = .next t ∧ t.fab.perch[p].run = { s.fab.perch[p].run with rxQ := s.fab.perch[p].run.rxQ.set (chanIx link ch) rest } ∧
          t.fab.perch[p].finch = { s.fab.perch[p].finch with
            inReg := ((List.range 16).map fun i => s.fab.perch[p].finch.inReg.getD i 0).set 0 k.data
            inPoison := (k.poison || predMark (opView s p (.recv p g link ch (some pd))) g)
            preds := putBit s.fab.perch[p].finch.preds pd true
            predPoison := putBit s.fab.perch[p].finch.predPoison pd (k.poison || predMark (opView s p (.recv p g link ch (some pd))) g) } ∧
          t.fab.perch[q].run.creditOnLink = vmod s.fab.perch[q].run.creditOnLink (chanIx (opposite link) ch) (· + 1) ∧
          t.fab.perch[q].finch = s.fab.perch[q].finch ∧ t.flt = s.flt ∧ t.fab.cnt = s.fab.cnt ∧ (∀ x : Fin 72, x ≠ p → x ≠ q → t.fab.perch[x] = s.fab.perch[x])) ∧
  (∀ (s : State) (p q : Fin 72) (g : PredSel) (link : Dir) (ch : Fin 4) (n : Nat) (k : Token) (rest : List (Nat × Token)),
      issues s p = true → neighbour s p link = some q → q ≠ p → chanKind s p link ch = 2 →
      predValue (opView s p (.recv p g link ch none)) g = true →
      s.fab.perch[p].run.rxQ[chanIx link ch] = (n, k) :: rest →
        ∃ t, exec (.recv p g link ch none) s = .next t ∧ t.fab.perch[p].run = { s.fab.perch[p].run with rxQ := s.fab.perch[p].run.rxQ.set (chanIx link ch) rest } ∧
          t.fab.perch[p].finch = { s.fab.perch[p].finch with
            inReg := ((List.range 16).map fun i => s.fab.perch[p].finch.inReg.getD i 0).set 0 k.data
            inPoison := (k.poison || predMark (opView s p (.recv p g link ch none)) g) } ∧
          t.fab.perch[q].run.creditOnLink = vmod s.fab.perch[q].run.creditOnLink (chanIx (opposite link) ch) (· + 1) ∧
          t.fab.perch[q].finch = s.fab.perch[q].finch ∧ t.flt = s.flt ∧ t.fab.cnt = s.fab.cnt ∧ (∀ x : Fin 72, x ≠ p → x ≠ q → t.fab.perch[x] = s.fab.perch[x])) ∧
  (∀ (s : State) (p q : Fin 72) (g : PredSel) (link : Dir) (ch : Fin 4) (pd : Option (Fin 8)) (n : Nat) (k : Token) (rest : List (Nat × Token)),
      issues s p = true → neighbour s p link = some q → q ≠ p → chanKind s p link ch = 1 →
      predValue (opView s p (.recv p g link ch pd)) g = false →
      s.fab.perch[p].run.rxQ[chanIx link ch] = (n, k) :: rest →
        ∃ t, exec (.recv p g link ch pd) s = .next t ∧ t.fab.perch[p].run = { s.fab.perch[p].run with rxQ := s.fab.perch[p].run.rxQ.set (chanIx link ch) rest } ∧ t.fab.perch[p].finch = s.fab.perch[p].finch ∧
          t.fab.perch[q].run.creditOnLink = vmod s.fab.perch[q].run.creditOnLink (chanIx (opposite link) ch) (· + 1) ∧
          t.fab.perch[q].finch = s.fab.perch[q].finch ∧ t.flt = s.flt ∧ t.fab.cnt = s.fab.cnt ∧ (∀ x : Fin 72, x ≠ p → x ≠ q → t.fab.perch[x] = s.fab.perch[x])) ∧
  (∀ (s : State) (p q : Fin 72) (g : PredSel) (link : Dir) (ch : Fin 4) (pd : Option (Fin 8)), issues s p = true →
      neighbour s p link = some q → chanKind s p link ch = 1 → s.fab.perch[p].run.rxQ[chanIx link ch] = [] →
        ∃ t, exec (.recv p g link ch pd) s = .next t ∧
          t.fab.perch[p].finch = { s.fab.perch[p].finch with
            stalled := true
            stall := { Stall.reset with
              kind := .recv
              chan := (chanIx link ch).val
              predDst := pd
              write := predValue (opView s p (.recv p g link ch pd)) g
              mark := predMark (opView s p (.recv p g link ch pd)) g } } ∧
          t.fab.perch[p].run = s.fab.perch[p].run ∧ t.fab.perch[p].wren = s.fab.perch[p].wren ∧ t.flt = s.flt ∧ t.fab.cnt = s.fab.cnt ∧ (∀ q : Fin 72, q ≠ p → t.fab.perch[q] = s.fab.perch[q])) ∧
  (∀ (s : State) (p q : Fin 72) (g : PredSel) (link : Dir) (ch : Fin 4) (pd : Fin 8), issues s p = true →
      neighbour s p link = some q → chanKind s p link ch = 2 →
      predValue (opView s p (.recv p g link ch (some pd))) g = true → s.fab.perch[p].run.rxQ[chanIx link ch] = [] →
        ∃ t, exec (.recv p g link ch (some pd)) s = .next t ∧
          t.fab.perch[p].finch = { s.fab.perch[p].finch with
            inReg := ((List.range 16).map fun i => s.fab.perch[p].finch.inReg.getD i 0).set 0 0
            inPoison := (predMark (opView s p (.recv p g link ch (some pd))) g)
            preds := putBit s.fab.perch[p].finch.preds pd false
            predPoison := putBit s.fab.perch[p].finch.predPoison pd (predMark (opView s p (.recv p g link ch (some pd))) g) } ∧
          t.fab.perch[p].run = s.fab.perch[p].run ∧ t.fab.perch[p].wren = s.fab.perch[p].wren ∧ t.flt = s.flt ∧ t.fab.cnt = s.fab.cnt ∧ (∀ q : Fin 72, q ≠ p → t.fab.perch[q] = s.fab.perch[q])) ∧
  (∀ (s : State) (p q : Fin 72) (g : PredSel) (link : Dir) (ch : Fin 4), issues s p = true →
      neighbour s p link = some q → chanKind s p link ch = 2 →
      predValue (opView s p (.recv p g link ch none)) g = true → s.fab.perch[p].run.rxQ[chanIx link ch] = [] →
        ∃ t, exec (.recv p g link ch none) s = .next t ∧
          t.fab.perch[p].finch = { s.fab.perch[p].finch with
            inReg := ((List.range 16).map fun i => s.fab.perch[p].finch.inReg.getD i 0).set 0 0
            inPoison := (predMark (opView s p (.recv p g link ch none)) g) } ∧
          t.fab.perch[p].run = s.fab.perch[p].run ∧ t.fab.perch[p].wren = s.fab.perch[p].wren ∧ t.flt = s.flt ∧ t.fab.cnt = s.fab.cnt ∧ (∀ q : Fin 72, q ≠ p → t.fab.perch[q] = s.fab.perch[q])) ∧
  (∀ (s : State) (p q : Fin 72) (g : PredSel) (link : Dir) (ch : Fin 4) (pd : Option (Fin 8)), issues s p = true →
      neighbour s p link = some q → chanKind s p link ch = 2 →
      predValue (opView s p (.recv p g link ch pd)) g = false →
        ∃ t, exec (.recv p g link ch pd) s = .next t ∧ t.fab.perch[p].run = s.fab.perch[p].run ∧ t.fab.perch[p].finch = s.fab.perch[p].finch ∧ t.fab.perch[p].wren = s.fab.perch[p].wren ∧
          t.flt = s.flt ∧ t.fab.cnt = s.fab.cnt ∧ (∀ q : Fin 72, q ≠ p → t.fab.perch[q] = s.fab.perch[q])) ∧
  (∀ (s : State) (p : Fin 72) (g : PredSel) (link : Dir) (ch : Fin 4) (pd : Option (Fin 8)),
      (issues s p = false ∨ neighbour s p link = none) →
        exec (.recv p g link ch pd) s = .next s) ∧
  (∀ (s : State) (p : Fin 72) (g : PredSel) (link : Dir) (ch : Fin 4) (pd : Option (Fin 8)),
      chanKind s p link ch ≠ 1 → chanKind s p link ch ≠ 2 →
        exec (.recv p g link ch pd) s = .next s) ∧
  (∀ (s : State) (p : Fin 72) (g : PredSel) (tag : BitVec 4) (src : StSrc), issues s p = true →
      s.fab.perch[p].run.egr.length < 96 →
        ∃ t, exec (.egr p g tag src) s = .next t ∧
          t.fab.perch[p].run = { s.fab.perch[p].run with egr := s.fab.perch[p].run.egr ++ [((finchOf s p).beat, tokenFor (opView s p (.egr p g tag src)) g 0 tag src)] } ∧
          t.fab.perch[p].finch = s.fab.perch[p].finch ∧ t.fab.perch[p].wren = s.fab.perch[p].wren ∧ t.flt = s.flt ∧ t.spr = s.spr ∧ (∀ q : Fin 72, q ≠ p → t.fab.perch[q] = s.fab.perch[q])) ∧
  (∀ (s : State) (p : Fin 72) (g : PredSel) (tag : BitVec 4) (src : StSrc),
      (issues s p = false ∨ 96 ≤ s.fab.perch[p].run.egr.length) →
        exec (.egr p g tag src) s = .next s) ∧
  (∀ (s : State) (p : Fin 72) (k : Fin 16) (n : Nat), issues s p = true → 1 ≤ n → n ≤ 1048575 →
      n ≤ s.fab.perch[p].wren.ac[k] →
        ∃ t, exec (.wait p k n) s = .next t ∧ t.fab.perch[p].wren = { s.fab.perch[p].wren with ac := vmod s.fab.perch[p].wren.ac k (· - n) } ∧
          t.fab.perch[p].finch = { s.fab.perch[p].finch with stalled := false, stall := Stall.reset } ∧ t.fab.perch[p].run = s.fab.perch[p].run ∧
          t.flt = s.flt ∧ (∀ q : Fin 72, q ≠ p → t.fab.perch[q] = s.fab.perch[q])) ∧
  (∀ (s : State) (p : Fin 72) (k : Fin 16) (n : Nat), issues s p = true → 1 ≤ n → n ≤ 1048575 →
      s.fab.perch[p].wren.ac[k] < n →
        ∃ t, exec (.wait p k n) s = .next t ∧ t.fab.perch[p].wren = s.fab.perch[p].wren ∧ t.fab.perch[p].run = s.fab.perch[p].run ∧
          t.fab.perch[p].finch = { s.fab.perch[p].finch with
            stalled := true
            stall := { Stall.reset with kind := .wait, chan := k.val, n := n } } ∧ t.flt = s.flt ∧ (∀ q : Fin 72, q ≠ p → t.fab.perch[q] = s.fab.perch[q])) ∧
  (∀ (s : State) (p : Fin 72) (k : Fin 16) (n : Nat), (issues s p = false ∨ n = 0 ∨ 1048575 < n) →
        exec (.wait p k n) s = .next s)

/-- A void token carries DATA 0, VOID 1, the TAG of its operation and no poison of its own. Basis: stated; cites R321. Says that these complete: egr, send. -/
def Obligations.VoidTokensCarryTheTagAlone : Prop :=
  (∀ (fi : Finch) (g : PredSel) (ch : BitVec 2) (tag : BitVec 4) (src : StSrc), predValue fi g = false →
        (tokenFor fi g ch tag src).data = 0 ∧ (tokenFor fi g ch tag src).void = true ∧
          (tokenFor fi g ch tag src).tag = tag ∧ (tokenFor fi g ch tag src).poison = predMark fi g) ∧
  (∀ (s : State) (p : Fin 72) (g : PredSel) (tag : BitVec 4) (src : StSrc), issues s p = true →
      s.fab.perch[p].run.egr.length < 96 → predValue (opView s p (.egr p g tag src)) g = false →
        ∃ t, exec (.egr p g tag src) s = .next t ∧
          t.fab.perch[p].run.egr = s.fab.perch[p].run.egr ++ [((finchOf s p).beat, ⟨0, 0, true, predMark (opView s p (.egr p g tag src)) g, tag⟩)]) ∧
  (∀ (s : State) (p q : Fin 72) (g : PredSel) (dir : Dir) (ch : Fin 4) (tag : BitVec 4) (src : StSrc),
      issues s p = true → neighbour s p dir = some q → chanKind s q (opposite dir) ch = 1 →
      0 < s.fab.perch[p].run.credit[chanIx dir ch] → predValue (opView s p (.send p g dir ch tag src)) g = false →
        ∃ t, exec (.send p g dir ch tag src) s = .next t ∧
          t.fab.perch[p].run.waitTx = vmod s.fab.perch[p].run.waitTx (dirIx dir)
            (· ++ [⟨0, BitVec.ofNat 2 ch, true, predMark (opView s p (.send p g dir ch tag src)) g, tag⟩]))

/-- Transfers, parity resends, credits and their resynchronisation. Where the spec leaves room the clauses follow the model's choices of log entries 6, 23. Basis: derived; cites 06_perch_fabric.md, R235 to R240; 08_dataflow_rules.md, R296, R309, R313. Says that these complete: linkTransfer, tokenReceive, tokenResend, creditReturn, creditResync. -/
def Obligations.LinksCarryTokensAndCredits : Prop :=
  (∀ (s : State) (p q : Fin 72) (dir : Dir) (k : Token) (rest : List Token), neighbour s p dir = some q →
      s.fab.perch[p].run.onLink[dirIx dir] = none → s.fab.perch[p].run.waitTx[dirIx dir] = k :: rest →
        ∃ t, exec (.linkTransfer p dir) s = .next t ∧
          t.fab.perch[p].run = { s.fab.perch[p].run with
            waitTx := s.fab.perch[p].run.waitTx.set (dirIx dir) rest
            onLink := s.fab.perch[p].run.onLink.set (dirIx dir) (some (k, false)) } ∧
          t.fab.perch[p].finch = s.fab.perch[p].finch ∧ t.flt = s.flt ∧ (∀ q : Fin 72, q ≠ p → t.fab.perch[q] = s.fab.perch[q])) ∧
  (∀ (s : State) (p q : Fin 72) (dir : Dir) (k : Token) (pre post : List Token), neighbour s p dir = some q →
      s.fab.perch[p].run.onLink[dirIx dir] = none → s.fab.perch[p].run.waitTx[dirIx dir] = [] →
      s.fab.perch[p].run.outBuf[dirIx dir] = pre ++ k :: post →
      (∀ x ∈ pre, s.fab.perch[p].run.credit[chanIx dir (tokenCh x)] = 0) →
      0 < s.fab.perch[p].run.credit[chanIx dir (tokenCh k)] →
        ∃ t, exec (.linkTransfer p dir) s = .next t ∧
          t.fab.perch[p].run = { s.fab.perch[p].run with
            outBuf := s.fab.perch[p].run.outBuf.set (dirIx dir) (pre ++ post)
            credit := vmod s.fab.perch[p].run.credit (chanIx dir (tokenCh k)) (· - 1)
            onLink := s.fab.perch[p].run.onLink.set (dirIx dir) (some (k, false)) } ∧
          t.fab.perch[p].finch = s.fab.perch[p].finch ∧ t.flt = s.flt ∧ (∀ q : Fin 72, q ≠ p → t.fab.perch[q] = s.fab.perch[q])) ∧
  (∀ (s : State) (p : Fin 72) (dir : Dir), (neighbour s p dir = none ∨ s.fab.perch[p].run.onLink[dirIx dir] ≠ none) →
        exec (.linkTransfer p dir) s = .next s) ∧
  (∀ (s : State) (p : Fin 72) (dir : Dir), s.fab.perch[p].run.waitTx[dirIx dir] = [] →
      (∀ x ∈ s.fab.perch[p].run.outBuf[dirIx dir], s.fab.perch[p].run.credit[chanIx dir (tokenCh x)] = 0) →
        exec (.linkTransfer p dir) s = .next s) ∧
  (∀ (s : State) (p q : Fin 72) (dir : Dir) (k : Token), incoming s p dir = some (q, k, false) → q ≠ p →
      s.fab.perch[p].run.rxQ[chanIx dir (tokenCh k)].length < 16 →
      (s.fab.perch[p].finch.stalled = false ∨ s.fab.perch[p].finch.stall.kind ≠ .recv ∨ s.fab.perch[p].finch.stall.chan ≠ (chanIx dir (tokenCh k)).val) →
        ∃ t, exec (.tokenReceive p dir true) s = .next t ∧
          t.fab.perch[q].run = { s.fab.perch[q].run with onLink := s.fab.perch[q].run.onLink.set (dirIx (opposite dir)) none } ∧
          t.fab.perch[p].run = { s.fab.perch[p].run with rxQ := vmod s.fab.perch[p].run.rxQ (chanIx dir (tokenCh k)) (· ++ [(s.fab.tokSeq, k)]) } ∧
          t.fab.perch[p].finch = s.fab.perch[p].finch ∧ t.fab.tokSeq = s.fab.tokSeq + 1 ∧
          t.flt = s.flt ∧ t.fab.cnt = s.fab.cnt ∧ (∀ x : Fin 72, x ≠ p → x ≠ q → t.fab.perch[x] = s.fab.perch[x])) ∧
  (∀ (s : State) (p q : Fin 72) (dir : Dir) (k : Token), incoming s p dir = some (q, k, false) → q ≠ p →
      s.fab.perch[p].run.rxQ[chanIx dir (tokenCh k)] = [] → s.fab.perch[p].finch.stalled = true →
      s.fab.perch[p].finch.stall.kind = .recv → s.fab.perch[p].finch.stall.chan = (chanIx dir (tokenCh k)).val →
        ∃ t, exec (.tokenReceive p dir true) s = .next t ∧
          t.fab.perch[q].run = { s.fab.perch[q].run with
            onLink := s.fab.perch[q].run.onLink.set (dirIx (opposite dir)) none
            creditOnLink := vmod s.fab.perch[q].run.creditOnLink (chanIx (opposite dir) (tokenCh k)) (· + 1) } ∧
          t.fab.perch[p].run.rxQ[chanIx dir (tokenCh k)] = [] ∧
          t.fab.perch[p].finch = recvGoesOn s.fab.perch[p].finch k (k.poison) ∧
          t.flt = s.flt ∧ t.fab.cnt = s.fab.cnt ∧ (∀ x : Fin 72, x ≠ p → x ≠ q → t.fab.perch[x] = s.fab.perch[x])) ∧
  (∀ (s : State) (p q : Fin 72) (dir : Dir) (k : Token), incoming s p dir = some (q, k, false) → q ≠ p →
      16 ≤ s.fab.perch[p].run.rxQ[chanIx dir (tokenCh k)].length →
        ∃ t, exec (.tokenReceive p dir true) s = .next t ∧
          t.fab.perch[q].run = { s.fab.perch[q].run with onLink := s.fab.perch[q].run.onLink.set (dirIx (opposite dir)) none } ∧ t.fab.perch[p].run = s.fab.perch[p].run ∧ t.fab.tokSeq = s.fab.tokSeq ∧
          classCount t 0x20 = satInc 32 (classCount s 0x20) ∧
          t.fab.cnt.parityResend = s.fab.cnt.parityResend) ∧
  (∀ (s : State) (p q : Fin 72) (dir : Dir) (k : Token), incoming s p dir = some (q, k, true) → q ≠ p →
      s.fab.perch[p].run.rxQ[chanIx dir (tokenCh k)].length < 16 →
      (s.fab.perch[p].finch.stalled = false ∨ s.fab.perch[p].finch.stall.kind ≠ .recv ∨ s.fab.perch[p].finch.stall.chan ≠ (chanIx dir (tokenCh k)).val) →
        ∃ t, exec (.tokenResend p dir true) s = .next t ∧
          t.fab.perch[q].run = { s.fab.perch[q].run with onLink := s.fab.perch[q].run.onLink.set (dirIx (opposite dir)) none } ∧
          t.fab.perch[p].run = { s.fab.perch[p].run with rxQ := vmod s.fab.perch[p].run.rxQ (chanIx dir (tokenCh k)) (· ++ [(s.fab.tokSeq, k)]) } ∧
          t.fab.perch[p].finch = s.fab.perch[p].finch ∧ t.fab.tokSeq = s.fab.tokSeq + 1 ∧
          t.flt = s.flt ∧ t.fab.cnt = { s.fab.cnt with parityResend := satInc 32 s.fab.cnt.parityResend } ∧ (∀ x : Fin 72, x ≠ p → x ≠ q → t.fab.perch[x] = s.fab.perch[x])) ∧
  (∀ (s : State) (p q : Fin 72) (dir : Dir) (k : Token), incoming s p dir = some (q, k, true) → q ≠ p →
      s.fab.perch[p].run.rxQ[chanIx dir (tokenCh k)] = [] → s.fab.perch[p].finch.stalled = true →
      s.fab.perch[p].finch.stall.kind = .recv → s.fab.perch[p].finch.stall.chan = (chanIx dir (tokenCh k)).val →
        ∃ t, exec (.tokenResend p dir true) s = .next t ∧
          t.fab.perch[q].run = { s.fab.perch[q].run with
            onLink := s.fab.perch[q].run.onLink.set (dirIx (opposite dir)) none
            creditOnLink := vmod s.fab.perch[q].run.creditOnLink (chanIx (opposite dir) (tokenCh k)) (· + 1) } ∧
          t.fab.perch[p].run.rxQ[chanIx dir (tokenCh k)] = [] ∧
          t.fab.perch[p].finch = recvGoesOn s.fab.perch[p].finch k (k.poison) ∧
          t.flt = s.flt ∧ t.fab.cnt = { s.fab.cnt with parityResend := satInc 32 s.fab.cnt.parityResend } ∧ (∀ x : Fin 72, x ≠ p → x ≠ q → t.fab.perch[x] = s.fab.perch[x])) ∧
  (∀ (s : State) (p q : Fin 72) (dir : Dir) (k : Token), incoming s p dir = some (q, k, true) → q ≠ p →
      16 ≤ s.fab.perch[p].run.rxQ[chanIx dir (tokenCh k)].length →
        ∃ t, exec (.tokenResend p dir true) s = .next t ∧
          t.fab.perch[q].run = { s.fab.perch[q].run with onLink := s.fab.perch[q].run.onLink.set (dirIx (opposite dir)) none } ∧ t.fab.perch[p].run = s.fab.perch[p].run ∧ t.fab.tokSeq = s.fab.tokSeq ∧
          classCount t 0x20 = satInc 32 (classCount s 0x20) ∧
          t.fab.cnt.parityResend = satInc 32 s.fab.cnt.parityResend) ∧
  (∀ (s : State) (p q : Fin 72) (dir : Dir) (k : Token), incoming s p dir = some (q, k, true) → q ≠ p →
      s.fab.perch[p].run.rxQ[chanIx dir (tokenCh k)].length < 16 →
      (s.fab.perch[p].finch.stalled = false ∨ s.fab.perch[p].finch.stall.kind ≠ .recv ∨ s.fab.perch[p].finch.stall.chan ≠ (chanIx dir (tokenCh k)).val) →
        ∃ t, exec (.tokenResend p dir false) s = .next t ∧
          t.fab.perch[q].run = { s.fab.perch[q].run with onLink := s.fab.perch[q].run.onLink.set (dirIx (opposite dir)) none } ∧
          t.fab.perch[p].run = { s.fab.perch[p].run with rxQ := vmod s.fab.perch[p].run.rxQ (chanIx dir (tokenCh k)) (· ++ [(s.fab.tokSeq, { k with poison := true })]) } ∧
          t.fab.perch[p].finch = s.fab.perch[p].finch ∧ t.fab.tokSeq = s.fab.tokSeq + 1 ∧
          classCount t 0x20 = satInc 32 (classCount s 0x20) ∧ t.fab.cnt = s.fab.cnt ∧ (∀ x : Fin 72, x ≠ p → x ≠ q → t.fab.perch[x] = s.fab.perch[x])) ∧
  (∀ (s : State) (p q : Fin 72) (dir : Dir) (k : Token), incoming s p dir = some (q, k, true) → q ≠ p →
      s.fab.perch[p].run.rxQ[chanIx dir (tokenCh k)] = [] → s.fab.perch[p].finch.stalled = true →
      s.fab.perch[p].finch.stall.kind = .recv → s.fab.perch[p].finch.stall.chan = (chanIx dir (tokenCh k)).val →
        ∃ t, exec (.tokenResend p dir false) s = .next t ∧
          t.fab.perch[q].run = { s.fab.perch[q].run with
            onLink := s.fab.perch[q].run.onLink.set (dirIx (opposite dir)) none
            creditOnLink := vmod s.fab.perch[q].run.creditOnLink (chanIx (opposite dir) (tokenCh k)) (· + 1) } ∧
          t.fab.perch[p].run.rxQ[chanIx dir (tokenCh k)] = [] ∧
          t.fab.perch[p].finch = recvGoesOn s.fab.perch[p].finch k (true) ∧
          classCount t 0x20 = satInc 32 (classCount s 0x20) ∧ t.fab.cnt = s.fab.cnt ∧ (∀ x : Fin 72, x ≠ p → x ≠ q → t.fab.perch[x] = s.fab.perch[x])) ∧
  (∀ (s : State) (p q : Fin 72) (dir : Dir) (k : Token), incoming s p dir = some (q, k, true) → q ≠ p →
      16 ≤ s.fab.perch[p].run.rxQ[chanIx dir (tokenCh k)].length →
        ∃ t, exec (.tokenResend p dir false) s = .next t ∧
          t.fab.perch[q].run = { s.fab.perch[q].run with onLink := s.fab.perch[q].run.onLink.set (dirIx (opposite dir)) none } ∧ t.fab.perch[p].run = s.fab.perch[p].run ∧ t.fab.tokSeq = s.fab.tokSeq ∧
          classCount t 0x20 = satInc 32 (satInc 32 (classCount s 0x20)) ∧
          t.fab.cnt.parityResend = s.fab.cnt.parityResend) ∧
  (∀ (s : State) (p q : Fin 72) (dir : Dir) (k : Token), incoming s p dir = some (q, k, false) →
        ∃ t, exec (.tokenReceive p dir false) s = .next t ∧
          t.fab.perch[q].run = { s.fab.perch[q].run with onLink := s.fab.perch[q].run.onLink.set (dirIx (opposite dir)) (some (k, true)) } ∧
          t.fab.tokSeq = s.fab.tokSeq ∧ t.fab.cnt = s.fab.cnt ∧ t.flt = s.flt ∧
          (∀ x : Fin 72, x ≠ q → t.fab.perch[x] = s.fab.perch[x])) ∧
  (∀ (s : State) (p : Fin 72) (dir : Dir) (ok : Bool), (incoming s p dir).all (·.2.2) = true →
        exec (.tokenReceive p dir ok) s = .next s) ∧
  (∀ (s : State) (p : Fin 72) (dir : Dir) (ok : Bool), (incoming s p dir).any (·.2.2) = false →
        exec (.tokenResend p dir ok) s = .next s) ∧
  (∀ (s : State) (p : Fin 72) (dir : Dir) (ch : Fin 4), 0 < s.fab.perch[p].run.creditOnLink[chanIx dir ch] →
      (s.fab.perch[p].finch.stalled = false ∨ s.fab.perch[p].finch.stall.kind ≠ .send ∨ (vmod s.fab.perch[p].run.credit (chanIx dir ch) fun c => min (c + 1) (creditCap s p dir ch))[Fin.ofNat 16 s.fab.perch[p].finch.stall.chan] = 0) →
        ∃ t, exec (.creditReturn p dir ch true) s = .next t ∧
          t.fab.perch[p].run = { s.fab.perch[p].run with
            creditOnLink := vmod s.fab.perch[p].run.creditOnLink (chanIx dir ch) (· - 1)
            creditBad := putBit s.fab.perch[p].run.creditBad (chanIx dir ch).val false
            credit := vmod s.fab.perch[p].run.credit (chanIx dir ch) fun c => min (c + 1) (creditCap s p dir ch) } ∧
          t.fab.perch[p].finch = s.fab.perch[p].finch ∧ t.flt = s.flt ∧ t.fab.cnt.parityResend =
            (if s.fab.perch[p].run.creditBad.getLsbD (chanIx dir ch).val then satInc 32 s.fab.cnt.parityResend else s.fab.cnt.parityResend) ∧ (∀ q : Fin 72, q ≠ p → t.fab.perch[q] = s.fab.perch[q])) ∧
  (∀ (s : State) (p : Fin 72) (dir : Dir) (ch : Fin 4), 0 < s.fab.perch[p].run.creditOnLink[chanIx dir ch] →
      s.fab.perch[p].finch.stalled = true → s.fab.perch[p].finch.stall.kind = .send →
      (0 < (vmod s.fab.perch[p].run.credit (chanIx dir ch) fun c => min (c + 1) (creditCap s p dir ch))[Fin.ofNat 16 s.fab.perch[p].finch.stall.chan]) →
        ∃ t, exec (.creditReturn p dir ch true) s = .next t ∧
          t.fab.perch[p].run = sendGoesOn { s.fab.perch[p].run with
            creditOnLink := vmod s.fab.perch[p].run.creditOnLink (chanIx dir ch) (· - 1)
            creditBad := putBit s.fab.perch[p].run.creditBad (chanIx dir ch).val false
            credit := vmod s.fab.perch[p].run.credit (chanIx dir ch) fun c => min (c + 1) (creditCap s p dir ch) } s.fab.perch[p].finch.stall ∧
          t.fab.perch[p].finch = { s.fab.perch[p].finch with stalled := false, stall := Stall.reset } ∧ t.flt = s.flt ∧ t.fab.cnt.parityResend =
            (if s.fab.perch[p].run.creditBad.getLsbD (chanIx dir ch).val then satInc 32 s.fab.cnt.parityResend else s.fab.cnt.parityResend) ∧ (∀ q : Fin 72, q ≠ p → t.fab.perch[q] = s.fab.perch[q])) ∧
  (∀ (s : State) (p : Fin 72) (dir : Dir) (ch : Fin 4), 0 < s.fab.perch[p].run.creditOnLink[chanIx dir ch] →
      s.fab.perch[p].run.creditBad.getLsbD (chanIx dir ch) = false →
        ∃ t, exec (.creditReturn p dir ch false) s = .next t ∧
          t.fab.perch[p].run = { s.fab.perch[p].run with creditBad := putBit s.fab.perch[p].run.creditBad (chanIx dir ch).val true } ∧
          t.fab.perch[p].finch = s.fab.perch[p].finch ∧ t.flt = s.flt ∧ t.fab.cnt = s.fab.cnt ∧ (∀ q : Fin 72, q ≠ p → t.fab.perch[q] = s.fab.perch[q])) ∧
  (∀ (s : State) (p : Fin 72) (dir : Dir) (ch : Fin 4), 0 < s.fab.perch[p].run.creditOnLink[chanIx dir ch] →
      s.fab.perch[p].run.creditBad.getLsbD (chanIx dir ch) = true →
        ∃ t, exec (.creditReturn p dir ch false) s = .next t ∧
          t.fab.perch[p].run = { s.fab.perch[p].run with
            creditOnLink := vmod s.fab.perch[p].run.creditOnLink (chanIx dir ch) (· - 1)
            creditBad := putBit s.fab.perch[p].run.creditBad (chanIx dir ch).val false } ∧
          classCount t 0x20 = satInc 32 (classCount s 0x20) ∧ t.fab.perch[p].finch = s.fab.perch[p].finch ∧ (∀ q : Fin 72, q ≠ p → t.fab.perch[q] = s.fab.perch[q])) ∧
  (∀ (s : State) (p : Fin 72) (dir : Dir) (ch : Fin 4) (ok : Bool),
      s.fab.perch[p].run.creditOnLink[chanIx dir ch] = 0 →
        exec (.creditReturn p dir ch ok) s = .next s) ∧
  (∀ (s : State) (p q : Fin 72) (link : Dir) (ch : Fin 4) (c : Nat), neighbour s p link = some q →
      chanKind s p link ch = 1 → s.sys.code = .run → c = creditAfterResync s p q link ch →
      (s.fab.perch[q].finch.stalled = false ∨ s.fab.perch[q].finch.stall.kind ≠ .send ∨ (s.fab.perch[q].run.credit.set (chanIx (opposite link) ch) c)[Fin.ofNat 16 s.fab.perch[q].finch.stall.chan] = 0) →
        ∃ t, exec (.creditResync p link ch) s = .next t ∧
          t.fab.perch[q].run = { s.fab.perch[q].run with
            credit := s.fab.perch[q].run.credit.set (chanIx (opposite link) ch) c
            creditOnLink := s.fab.perch[q].run.creditOnLink.set (chanIx (opposite link) ch) 0 } ∧
          t.fab.perch[q].finch = s.fab.perch[q].finch ∧ t.fab.cnt.creditResync = (if c = s.fab.perch[q].run.credit[chanIx (opposite link) ch] then s.fab.cnt.creditResync else satInc 32 s.fab.cnt.creditResync) ∧ t.flt = s.flt ∧ (∀ x : Fin 72, x ≠ q → t.fab.perch[x] = s.fab.perch[x])) ∧
  (∀ (s : State) (p q : Fin 72) (link : Dir) (ch : Fin 4) (c : Nat), neighbour s p link = some q →
      chanKind s p link ch = 1 → s.sys.code = .run → c = creditAfterResync s p q link ch →
      s.fab.perch[q].finch.stalled = true → s.fab.perch[q].finch.stall.kind = .send →
      0 < (s.fab.perch[q].run.credit.set (chanIx (opposite link) ch) c)[Fin.ofNat 16 s.fab.perch[q].finch.stall.chan] →
        ∃ t, exec (.creditResync p link ch) s = .next t ∧
          t.fab.perch[q].run = sendGoesOn { s.fab.perch[q].run with
            credit := s.fab.perch[q].run.credit.set (chanIx (opposite link) ch) c
            creditOnLink := s.fab.perch[q].run.creditOnLink.set (chanIx (opposite link) ch) 0 } s.fab.perch[q].finch.stall ∧
          t.fab.perch[q].finch = { s.fab.perch[q].finch with stalled := false, stall := Stall.reset } ∧ t.fab.cnt.creditResync = (if c = s.fab.perch[q].run.credit[chanIx (opposite link) ch] then s.fab.cnt.creditResync else satInc 32 s.fab.cnt.creditResync) ∧ t.flt = s.flt ∧ (∀ x : Fin 72, x ≠ q → t.fab.perch[x] = s.fab.perch[x])) ∧
  (∀ (s : State) (p : Fin 72) (link : Dir) (ch : Fin 4),
      (neighbour s p link = none ∨ chanKind s p link ch ≠ 1 ∨ s.sys.code ≠ .run) →
        exec (.creditResync p link ch) s = .next s)

/-- Timeouts of SEND and WAIT, the elastic watch and riser reads. Where the spec leaves room the clauses follow the model's choices of log entries 23, 43. Basis: derived; cites 06_perch_fabric.md, R241; 07_wren.md, R272, R280 to R282; 08_dataflow_rules.md, R313, R315, R316; 03_promises.md, R115. Says that these complete: sendCreditTimeout, waitTimeout, elasticWatchFire, riserRead. -/
def Obligations.StalledWaitsAndElasticChannels : Prop :=
  (∀ (s : State) (p q : Fin 72), s.fab.perch[p].finch.stalled = true → s.fab.perch[p].finch.stall.kind = .send →
      2 ≤ s.fab.perch[p].finch.stall.beats → neighbour s p (chanDir s.fab.perch[p].finch.stall.chan) = some q →
        ∃ t, exec (.sendCreditTimeout p) s = .next t ∧
          t.fab.perch[p].finch = { s.fab.perch[p].finch with stall := { s.fab.perch[p].finch.stall with beats := 0 } } ∧ t.fab.perch[p].run = s.fab.perch[p].run ∧
          classCount t 0x20 = satInc 32 (classCount s 0x20) ∧ (q.val, s.lt.line) ∈ t.flt.creditSeen) ∧
  (∀ (s : State) (p : Fin 72),
      (s.fab.perch[p].finch.stalled = false ∨ s.fab.perch[p].finch.stall.kind ≠ .send ∨ s.fab.perch[p].finch.stall.beats < 2 ∨ neighbour s p (chanDir s.fab.perch[p].finch.stall.chan) = none) →
        exec (.sendCreditTimeout p) s = .next s) ∧
  (∀ (s : State) (p : Fin 72), s.fab.perch[p].finch.stalled = true → s.fab.perch[p].finch.stall.kind = .wait →
      2 ≤ s.fab.perch[p].finch.stall.beats →
        ∃ t, exec (.waitTimeout p) s = .next t ∧
          t.fab.perch[p].finch = { s.fab.perch[p].finch with stall := { s.fab.perch[p].finch.stall with beats := 0 } } ∧ t.fab.perch[p].run = s.fab.perch[p].run ∧
          classCount t 0x20 = satInc 32 (classCount s 0x20) ∧ (p.val, s.lt.line) ∈ t.flt.creditSeen) ∧
  (∀ (s : State) (p : Fin 72) (n : Nat), s.fab.perch[p].finch.stalled = true →
      s.fab.perch[p].finch.stall.kind = .wait → 2 ≤ s.fab.perch[p].finch.stall.beats →
      (p.val, n) ∈ s.flt.creditSeen → linePast (lineAdd n 64) s.lt.line = true → activePerch s p = true →
        ∃ t, exec (.waitTimeout p) s = .next t ∧ t.fab.perch[p].failed = true) ∧
  (∀ (s : State) (p : Fin 72),
      (s.fab.perch[p].finch.stalled = false ∨ s.fab.perch[p].finch.stall.kind ≠ .wait ∨ s.fab.perch[p].finch.stall.beats < 2) →
        exec (.waitTimeout p) s = .next s) ∧
  (∀ (s : State) (grp : Fin 16), s.fab.watch[grp].due = true →
        ∃ t, exec (.elasticWatchFire grp) s = .next t ∧ t.fab.watch = vmod s.fab.watch grp (fun w => { w with due := false }) ∧
          t.fab.cnt.watchSpills = satInc 32 s.fab.cnt.watchSpills ∧ t.sys = s.sys ∧ t.lt = s.lt) ∧
  (∀ (s : State) (grp : Fin 16) (p : Fin 72), s.fab.watch[grp].due = true → buffersOf s grp = [] →
      oldestIn (queuedOf s grp) = some p →
        ∃ t, exec (.elasticWatchFire grp) s = .next t ∧ t.fab.perch = s.fab.perch ∧
          classCount t 0x21 = satInc 32 (classCount s 0x21)) ∧
  (∀ (s : State) (grp : Fin 16) (p : Fin 72) (dir : Dir) (ch : Fin 4), s.fab.watch[grp].due = true →
      buffersOf s grp = [(p, dir)] → s.fab.perch[p].run.outBuf[dirIx dir].length ≤ riserFree s p →
        ∃ t, exec (.elasticWatchFire grp) s = .next t ∧ t.fab.perch[p].run.outBuf = s.fab.perch[p].run.outBuf.set (dirIx dir) [] ∧
          t.fab.perch[p].run.backlog[chanIx dir ch] =
            ((s.fab.perch[p].run.outBuf[dirIx dir].filter fun u => tokenCh u == ch).map fun u => (u, none)) ++
              s.fab.perch[p].run.backlog[chanIx dir ch] ∧
          t.fab.perch[p].finch = s.fab.perch[p].finch ∧ (∀ q : Fin 72, q ≠ p → t.fab.perch[q] = s.fab.perch[q]) ∧ classCount t 0x21 = satInc 32 (classCount s 0x21)) ∧
  (∀ (s : State) (grp : Fin 16), s.fab.watch[grp].due = false →
        exec (.elasticWatchFire grp) s = .next s) ∧
  (∀ (s u : State) (p q : Fin 72) (dir : Dir) (ch : Fin 4) (k : Token) (e : Nat) (rest : List (Token × Option Nat)) (ecc : List Ecc) (ws : List WWord),
      s.fab.perch[p].run.backlog[chanIx dir ch] = (k, some e) :: rest → s.fab.perch[p].run.onLink[dirIx dir] = none →
      0 < s.fab.perch[p].run.credit[chanIx dir ch] → (∀ x ∈ s.fab.perch[p].run.outBuf[dirIx dir], tokenCh x ≠ ch) →
      neighbour s p dir = some q → readWords p [riserWord s p e, riserWord s p e + 1] ecc s = (ws, u) →
        ∃ t, exec (.riserRead p dir ch ecc) s = .next t ∧
          t.fab.perch[p].run = { u.fab.perch[p].run with
            backlog := u.fab.perch[p].run.backlog.set (chanIx dir ch) rest
            credit := vmod u.fab.perch[p].run.credit (chanIx dir ch) (· - 1)
            onLink := u.fab.perch[p].run.onLink.set (dirIx dir) (some (riserToken ch ws, false)) } ∧
          t.fab.perch[p].wren = u.fab.perch[p].wren ∧ t.flt = u.flt) ∧
  (∀ (s : State) (p q : Fin 72) (dir : Dir) (ch : Fin 4) (k : Token) (e : Nat) (rest : List (Token × Option Nat)),
      s.fab.perch[p].run.backlog[chanIx dir ch] = (k, some e) :: rest → s.fab.perch[p].run.onLink[dirIx dir] = none →
      0 < s.fab.perch[p].run.credit[chanIx dir ch] → (∀ x ∈ s.fab.perch[p].run.outBuf[dirIx dir], tokenCh x ≠ ch) →
      neighbour s p dir = some q →
        ∃ t, exec (.riserRead p dir ch []) s = .next t ∧
          t.fab.perch[p].run = { s.fab.perch[p].run with
            backlog := s.fab.perch[p].run.backlog.set (chanIx dir ch) rest
            credit := vmod s.fab.perch[p].run.credit (chanIx dir ch) (· - 1)
            onLink := s.fab.perch[p].run.onLink.set (dirIx dir)
              (some (riserToken ch [wordAt s p (riserWord s p e), wordAt s p (riserWord s p e + 1)], false)) } ∧
          t.fab.perch[p].finch = s.fab.perch[p].finch ∧ t.fab.perch[p].wren = s.fab.perch[p].wren ∧ t.flt = s.flt ∧ (∀ q : Fin 72, q ≠ p → t.fab.perch[q] = s.fab.perch[q])) ∧
  (∀ (s : State) (p : Fin 72) (dir : Dir) (ch : Fin 4) (ecc : List Ecc),
      ((s.fab.perch[p].run.backlog[chanIx dir ch].head?).all (·.2.isNone) = true ∨ s.fab.perch[p].run.onLink[dirIx dir] ≠ none ∨ s.fab.perch[p].run.credit[chanIx dir ch] = 0 ∨ (∃ x ∈ s.fab.perch[p].run.outBuf[dirIx dir], tokenCh x = ch) ∨ neighbour s p dir = none) →
        exec (.riserRead p dir ch ecc) s = .next s) ∧
  (∀ (k : Token),
        entryToken (riserPair k) = k) ∧
  (∀ (ws : List WWord), (∃ w ∈ ws, w.poison = true) →
        (entryToken ws).poison = true)

/-- The Sprue takes egress tokens, copies crops, releases events and forms lines. Where the spec leaves room the clauses follow the model's choices of log entries 1, 24, 28, 42. Basis: derived; cites 10_results_seams.md, R362 to R372, R375 to R380, R397; 08_dataflow_rules.md, R326, R327; 06_perch_fabric.md, R238, R242; 14_pins.md, R539, R540, R542, R543. Says that these complete: sprueToken, cropCopy, eventRelease, sprueFormRecords. -/
def Obligations.SprueTakesTokensAndFormsLines : Prop :=
  (∀ (s : State) (row col : Fin 8) (beat : Nat) (t : Token) (rest : List (Nat × Token)) (parity : Option Bool),
      working s = true → rowUsed s (perchAt s row.val col.val) = true → egressTurn s row = some col →
      s.fab.perch[(perchAt s row.val col.val)].run.egr = (beat, t) :: rest →
        ∃ u, exec (.sprueToken row col parity) s = .next u ∧ u.fab.perch[(perchAt s row.val col.val)].run = { s.fab.perch[(perchAt s row.val col.val)].run with egr := rest } ∧ u.spr.egrNext = s.spr.egrNext.set row (col + 1) ∧
          (∀ q : Fin 72, q ≠ (perchAt s row.val col.val) → u.fab.perch[q] = s.fab.perch[q]) ∧
          (parity = none → u.flt = s.flt ∧ u.fab.cnt = s.fab.cnt) ∧
          (parity = some true → u.flt = s.flt ∧
            u.fab.cnt = { s.fab.cnt with parityResend := satInc 32 s.fab.cnt.parityResend }) ∧
          (parity = some false → classCount u 0x20 = satInc 32 (classCount s 0x20) ∧ u.fab.cnt = s.fab.cnt)) ∧
  (∀ (s : State) (row col : Fin 8) (beat : Nat) (t : Token) (rest : List (Nat × Token)) (box : Bool),
      working s = true → rowUsed s (perchAt s row.val col.val) = true → egressTurn s row = some col →
      s.fab.perch[(perchAt s row.val col.val)].run.egr = (beat, t) :: rest →
      s.img.nat Fld.tagKind [t.tag.toNat] = 1 + bit box → (t.void = false ∨ t.poison = false) →
        ∃ u, exec (.sprueToken row col none) s = .next u ∧
          u.spr = { s.spr with
            egrNext := s.spr.egrNext.set row (col + 1)
            toks := s.spr.toks ++ [tokenRecord s row.val col.val beat box t] }) ∧
  (∀ (s : State) (row col : Fin 8) (beat : Nat) (t : Token) (rest : List (Nat × Token)) (box : Bool) (parity : Option Bool),
      working s = true → rowUsed s (perchAt s row.val col.val) = true → egressTurn s row = some col →
      s.fab.perch[(perchAt s row.val col.val)].run.egr = (beat, t) :: rest →
      s.img.nat Fld.tagKind [t.tag.toNat] = 1 + bit box →
        ∃ u, exec (.sprueToken row col parity) s = .next u ∧
          u.spr.toks = s.spr.toks ++ [tokenRecord s row.val col.val beat box
            (if parity = some false then { t with poison := true } else t)]) ∧
  (∀ (s : State) (row col : Fin 8) (beat : Nat) (t : Token) (rest : List (Nat × Token)) (parity : Option Bool),
      working s = true → rowUsed s (perchAt s row.val col.val) = true → egressTurn s row = some col →
      s.fab.perch[(perchAt s row.val col.val)].run.egr = (beat, t) :: rest → t.void = true →
      (t.poison = true ∨ parity = some false) →
        ∃ u, exec (.sprueToken row col parity) s = .next u ∧ ∀ l ∈ u.spr.lines, l.line = beat → row.val ∈ l.degRows) ∧
  (∀ (s : State) (row col : Fin 8) (beat : Nat) (t : Token) (rest : List (Nat × Token)) (pre post : List TokRec) (x : TokRec),
      working s = true → rowUsed s (perchAt s row.val col.val) = true → egressTurn s row = some col →
      s.fab.perch[(perchAt s row.val col.val)].run.egr = (beat, t) :: rest →
      s.img.nat Fld.tagKind [t.tag.toNat] = 3 → t.void = false → s.spr.toks = pre ++ x :: post →
      (x.row = row.val ∧ x.col = col.val ∧ x.beat = beat) →
      (∀ y ∈ post, ¬(y.row = row.val ∧ y.col = col.val ∧ y.beat = beat)) → x.void = false → x.attr = none →
        ∃ u, exec (.sprueToken row col none) s = .next u ∧
          u.spr = { s.spr with
            egrNext := s.spr.egrNext.set row (col + 1)
            toks := pre ++ { x with
              attr := some (t.data.truncate 32, (t.data >>> 32).truncate 32)
              poison := x.poison || t.poison } :: post }) ∧
  (∀ (s : State) (row col : Fin 8) (beat : Nat) (t : Token) (rest : List (Nat × Token)) (pre post : List TokRec) (x : TokRec),
      working s = true → rowUsed s (perchAt s row.val col.val) = true → egressTurn s row = some col →
      s.fab.perch[(perchAt s row.val col.val)].run.egr = (beat, t) :: rest →
      s.img.nat Fld.tagKind [t.tag.toNat] = 3 → t.void = false → s.spr.toks = pre ++ x :: post →
      (x.row = row.val ∧ x.col = col.val ∧ x.beat = beat) →
      (∀ y ∈ post, ¬(y.row = row.val ∧ y.col = col.val ∧ y.beat = beat)) → (x.void = true ∨ x.attr ≠ none) →
        ∃ u, exec (.sprueToken row col none) s = .next u ∧
          u.spr = { s.spr with egrNext := s.spr.egrNext.set row (col + 1), attrDiscard := satInc 32 s.spr.attrDiscard }) ∧
  (∀ (s : State) (row col : Fin 8) (beat : Nat) (t : Token) (rest : List (Nat × Token)), working s = true →
      rowUsed s (perchAt s row.val col.val) = true → egressTurn s row = some col →
      s.fab.perch[(perchAt s row.val col.val)].run.egr = (beat, t) :: rest →
      s.img.nat Fld.tagKind [t.tag.toNat] = 3 → t.void = false →
      (∀ y ∈ s.spr.toks, ¬(y.row = row.val ∧ y.col = col.val ∧ y.beat = beat)) →
        ∃ u, exec (.sprueToken row col none) s = .next u ∧
          u.spr = { s.spr with egrNext := s.spr.egrNext.set row (col + 1), attrDiscard := satInc 32 s.spr.attrDiscard }) ∧
  (∀ (s : State) (row col : Fin 8) (beat : Nat) (t : Token) (rest : List (Nat × Token)), working s = true →
      rowUsed s (perchAt s row.val col.val) = true → egressTurn s row = some col →
      s.fab.perch[(perchAt s row.val col.val)].run.egr = (beat, t) :: rest →
      s.img.nat Fld.tagKind [t.tag.toNat] = 4 → t.void = false → s.img.nat Fld.evpMode [bits t.data.toNat 0 4] ≠ 0 →
        ∃ u, exec (.sprueToken row col none) s = .next u ∧
          u.spr = { s.spr with
            egrNext := s.spr.egrNext.set row (col + 1)
            events := s.spr.events ++ [⟨decisionLine s beat, bits t.data.toNat 0 4⟩] }) ∧
  (∀ (s : State) (row col : Fin 8) (beat : Nat) (t : Token) (rest : List (Nat × Token)), working s = true →
      rowUsed s (perchAt s row.val col.val) = true → egressTurn s row = some col →
      s.fab.perch[(perchAt s row.val col.val)].run.egr = (beat, t) :: rest →
      (s.img.nat Fld.tagKind [t.tag.toNat] = 0 ∨ 4 < s.img.nat Fld.tagKind [t.tag.toNat] ∨ (s.img.nat Fld.tagKind [t.tag.toNat] = 3 ∧ t.void = true) ∨ (s.img.nat Fld.tagKind [t.tag.toNat] = 4 ∧ (t.void = true ∨ s.img.nat Fld.evpMode [bits t.data.toNat 0 4] = 0))) →
      (t.void = false ∨ t.poison = false) →
        ∃ u, exec (.sprueToken row col none) s = .next u ∧ u.spr = { s.spr with egrNext := s.spr.egrNext.set row (col + 1) }) ∧
  (∀ (s : State) (row col : Fin 8) (parity : Option Bool),
      (s.fab.perch[(perchAt s row.val col.val)].run.egr = [] ∨ working s = false ∨ rowUsed s (perchAt s row.val col.val) = false ∨ egressTurn s row ≠ some col) →
        exec (.sprueToken row col parity) s = .next s) ∧
  (∀ (s : State) (c : Crop) (rest : List Crop), working s = true → s.spr.crops = c :: rest →
        ∃ u v w, exec (.cropCopy .clean) s = .next u ∧ exec (.cropCopy .corrected) s = .next v ∧
          exec (.cropCopy .uncorrectable) s = .next w ∧ u.flt = s.flt ∧
          u.spr = { s.spr with
            crops := rest, cropUsed := s.spr.cropUsed - c.bytes.length, cropsSent := satInc 32 s.spr.cropsSent } ∧
          v.spr.crops = rest ∧ v.spr.cropUsed = s.spr.cropUsed - c.bytes.length ∧
          v.spr.cropsSent = satInc 32 s.spr.cropsSent ∧ classCount v 0x11 = satInc 32 (classCount s 0x11) ∧
          w.spr.crops = rest ∧ w.spr.cropUsed = s.spr.cropUsed - c.bytes.length ∧
          w.spr.cropsSent = satInc 32 s.spr.cropsSent ∧ classCount w 0x12 = satInc 32 (classCount s 0x12)) ∧
  (∀ (s : State) (c : Crop) (rest : List Crop), working s = true → s.spr.crops = c :: rest →
      s.net.queue.length + 1 + cropRecords c.bytes.length < 45 →
        ∃ u w, exec (.cropCopy .clean) s = .next u ∧ exec (.cropCopy .uncorrectable) s = .next w ∧
          u.net.queue = s.net.queue ++ roiHeader s c c.bytes ::
            (List.range (cropRecords c.bytes.length)).map (roiPayload c (cropFlags s c) c.bytes) ∧
          w.net.queue = s.net.queue ++ roiHeader s c c.bytes ::
            (List.range (cropRecords c.bytes.length)).map (roiPayload c (cropFlags s c ||| 8#16)
              (openBytes s.freeCtr c.bytes.length))) ∧
  (∀ (s : State) (store : Ecc), (working s = false ∨ s.spr.crops = []) →
        exec (.cropCopy store) s = .next s) ∧
  (∀ (s : State) (e : Evt) (rest : List Evt), working s = true → dueEvent s s.spr.events = some (e, rest) →
        ∃ u, exec (.eventRelease false) s = .next u ∧ u.spr = { s.spr with events := rest } ∧
          u.flt = { s.flt with evtDrop := satAdd 32 1 s.flt.evtDrop } ∧ u.gpio = s.gpio) ∧
  (∀ (s : State) (e : Evt) (rest : List Evt) (k : Fin 16), working s = true →
      dueEvent s s.spr.events = some (e, rest) → k = Fin.ofNat 16 e.port → s.img.nat Fld.evpMode [k.val] ≠ 0 →
      s.gpio.evpOn = true → s.img.nat Fld.evpDelay [k.val] ≠ 0 → s.gpio.evp[k].held.length < 64 →
        ∃ u, exec (.eventRelease true) s = .next u ∧ u.spr = { s.spr with events := rest } ∧ u.flt = s.flt ∧
          u.gpio = { s.gpio with evp := vmod s.gpio.evp k fun x => { x with
            held := x.held ++ [if linePast s.lt.line (lineAdd e.line (s.img.nat Fld.d [] + s.img.nat Fld.evpDelay [k.val] : Nat))
              then lineAdd s.lt.line 1 else lineAdd e.line (s.img.nat Fld.d [] + s.img.nat Fld.evpDelay [k.val] : Nat)] } }) ∧
  (∀ (s : State) (e : Evt) (rest : List Evt) (k : Fin 16), working s = true →
      dueEvent s s.spr.events = some (e, rest) → k = Fin.ofNat 16 e.port → s.img.nat Fld.evpMode [k.val] ≠ 0 →
      s.gpio.evpOn = true → s.img.nat Fld.evpDelay [k.val] ≠ 0 → 64 ≤ s.gpio.evp[k].held.length →
        ∃ u, exec (.eventRelease true) s = .next u ∧ u.spr = { s.spr with events := rest } ∧ u.gpio = s.gpio ∧
          u.flt = { s.flt with evtDrop := satAdd 32 1 s.flt.evtDrop }) ∧
  (∀ (s : State) (e : Evt) (rest : List Evt) (k : Fin 16), working s = true →
      dueEvent s s.spr.events = some (e, rest) → k = Fin.ofNat 16 e.port → s.img.nat Fld.evpMode [k.val] ≠ 0 →
      s.gpio.evpOn = true → s.img.nat Fld.evpDelay [k.val] = 0 →
        ∃ u, exec (.eventRelease true) s = .next u ∧ u.spr.events = rest ∧
          u.gpio.evp[k].count = satInc 32 s.gpio.evp[k].count ∧
          (s.img.nat Fld.evpMode [k.val] = 1 → u.gpio.evp[k].active = true ∧ u.gpio.evp[k].startLine = s.lt.line)) ∧
  (∀ (s : State) (e : Evt) (rest : List Evt) (k : Fin 16), working s = true →
      dueEvent s s.spr.events = some (e, rest) → k = Fin.ofNat 16 e.port →
      (s.img.nat Fld.evpMode [k.val] = 0 ∨ s.gpio.evpOn = false) →
        exec (.eventRelease true) s = .next { s with spr := { s.spr with events := rest } }) ∧
  (∀ (s : State) (b : Bool), (working s = false ∨ dueEvent s s.spr.events = none) →
        exec (.eventRelease b) s = .next s) ∧
  (∀ (s : State) (l : LineRec) (rest : List LineRec) (hist : List (Fin 256 × Ecc)), working s = true →
      s.spr.lines = l :: rest → l.exposed = true → beatEnded s l rest = true → tokensDue s l.line = false →
        ∃ u, exec (.sprueFormRecords hist) s = .next u ∧ u.spr.lines.map (·.line) = (s.spr.lines.map (·.line)).filter (· != l.line) ∧
          u.spr.lastLine = l.line ∧ u.spr.anySummary = true ∧ u.spr.cropBeat ≤ 65536 ∧
          ∀ x ∈ u.spr.toks, linePast l.line x.beat = false) ∧
  (∀ (s : State) (l : LineRec) (rest : List LineRec) (hist : List (Fin 256 × Ecc)), working s = true →
      s.spr.lines = l :: rest → l.exposed = true → beatEnded s l rest = true → tokensDue s l.line = false →
      l.beatRan = true → l.noBeat = false → l.withheld = false → l.anchor = false → (∀ x ∈ rest, x.line ≠ l.line) →
      s.lt.stopped = false → beatRecords s l.line = [] → s.net.queue.length < 44 →
        ∃ u, exec (.sprueFormRecords hist) s = .next u ∧ u.flt = { s.flt with sumQueue := s.flt.sumQueue.drop 1 } ∧
          u.spr.lines = rest ∧ u.spr.recCredit = s.spr.recCredit ∧
          u.net.queue = s.net.queue ++ [summaryBytes { l with uninsp := l.uninsp || segments s l == 0 } (lineFlags s { l with uninsp := l.uninsp || segments s l == 0 })
            (s.flt.sumQueue.head?.getD 0) (segments s l) false]) ∧
  (∀ (s : State) (l : LineRec) (rest : List LineRec) (hist : List (Fin 256 × Ecc)) (t : TokRec), working s = true →
      s.spr.lines = l :: rest → l.exposed = true → beatEnded s l rest = true → tokensDue s l.line = false →
      l.beatRan = true → l.noBeat = false → l.withheld = false → l.anchor = false → (∀ x ∈ rest, x.line ≠ l.line) →
      s.lt.stopped = false → beatRecords s l.line = [t] → t.box = false → 256 ≤ s.spr.recCredit →
      s.net.queue.length < 43 →
        ∃ u, exec (.sprueFormRecords hist) s = .next u ∧ u.spr.recCredit = s.spr.recCredit - 256 ∧
          u.net.queue = s.net.queue ++
            [labelBytes t (decisionLine s t.beat)
              (recordFlags u l t.beat (decisionLine s t.beat) t.h t.row t.poison), summaryBytes { l with uninsp := l.uninsp || segments s l == 0 } (lineFlags s { l with uninsp := l.uninsp || segments s l == 0 })
            (s.flt.sumQueue.head?.getD 0) (segments s l) false]) ∧
  (∀ (s : State) (l : LineRec) (rest : List LineRec) (hist : List (Fin 256 × Ecc)) (t : TokRec), working s = true →
      s.spr.lines = l :: rest → l.exposed = true → beatEnded s l rest = true → tokensDue s l.line = false →
      l.beatRan = true → l.noBeat = false → l.withheld = false → l.anchor = false → (∀ x ∈ rest, x.line ≠ l.line) →
      s.lt.stopped = false → beatRecords s l.line = [t] → t.box = true → t.crop = false → seamOf s t.x0 t.x1 = 0 →
      256 ≤ s.spr.recCredit → s.net.queue.length < 43 →
        ∃ u, exec (.sprueFormRecords hist) s = .next u ∧ u.spr.recCredit = s.spr.recCredit - 256 ∧
          u.spr.boxId = (s.spr.boxId + 1) % 65536 ∧ u.spr.own = s.spr.own ∧
          u.net.queue = s.net.queue ++
            [boxBytes t (decisionLine s t.beat)
              (recordFlags u l t.beat (decisionLine s t.beat) t.h t.row t.poison) 0 0 s.spr.boxId 0xFFFF,
            summaryBytes { l with uninsp := l.uninsp || segments s l == 0 } (lineFlags s { l with uninsp := l.uninsp || segments s l == 0 })
            (s.flt.sumQueue.head?.getD 0) (segments s l) false]) ∧
  (∀ (s : State) (hist : List (Fin 256 × Ecc)), (working s = false ∨ s.spr.lines = []) →
        exec (.sprueFormRecords hist) s = .next s) ∧
  (∀ (s : State) (l : LineRec) (rest : List LineRec) (hist : List (Fin 256 × Ecc)), s.spr.lines = l :: rest →
      (l.exposed = false ∨ beatEnded s l rest = false ∨ tokensDue s l.line = true) →
        exec (.sprueFormRecords hist) s = .next s)

/-- Fragments are held, paired at their resolve point and resolved at their release. Where the spec leaves room the clauses follow the model's choices of log entries 28, 29. Basis: derived; cites 10_results_seams.md, R372, R381 to R388, Tables 10.8, 10.9, 10.12. Says that these complete: seamFragReceive, seamResolveReceive, seamResolvePoint, seamRelease. -/
def Obligations.SeamsPairAndResolve : Prop :=
  (∀ (s : State) (side : Side) (hd : FrameHead) (f : FragPay), working s = true → portLive s side = true →
      hopTaken hd = true →
        exec (.seamFragReceive side hd f) s = .next { s with spr := { s.spr with
          theirs := s.spr.theirs.filter (fun x => !isFrag (seamIx side) f.boxId.toNat x) ++ [fragOf side hd f] } }) ∧
  (∀ (s : State) (side : Side) (hd : FrameHead) (boxId partner : BitVec 16), working s = true →
      portLive s side = true → hopTaken hd = true →
        exec (.seamResolveReceive side hd boxId partner) s = .next { s with spr := { s.spr with
          theirs := s.spr.theirs.map fun x =>
            if isFrag (seamIx side) boxId.toNat x then
              { x with partner := some (if partner = 0xFFFF then none else some partner.toNat) }
            else x } }) ∧
  (∀ (s : State) (side : Side) (hd : FrameHead) (f : FragPay) (boxId partner : BitVec 16),
      (working s = false ∨ portLive s side = false ∨ hopTaken hd = false) →
        exec (.seamFragReceive side hd f) s = .next s ∧ exec (.seamResolveReceive side hd boxId partner) s = .next s) ∧
  (∀ (s : State) (o : Frag) (boxId : BitVec 16), working s = true →
      (s.spr.own.find? (fun f => f.boxId == boxId.toNat && !f.resolved) = some o) →
      (∀ g ∈ s.spr.own, g.boxId = boxId.toNat → g = o) → exposedPast s (releaseLine s o) = true →
      seamBar s o.side ≠ 0 → o.pair = none →
        ∃ t, exec (.seamResolvePoint boxId) s = .next t ∧ t.spr = { s.spr with own := s.spr.own.map fun g =>
            if g.boxId == boxId.toNat then { g with resolved := true, why := seamBar s o.side } else g } ∧
          t.out = (if portLive s (seamSide o.side) then
            starOut (seamSide o.side) (ownHead s) (.seamResolve boxId 0xFFFF) :: s.out else s.out)) ∧
  (∀ (s : State) (o : Frag) (boxId : BitVec 16) (b : Nat), working s = true →
      (s.spr.own.find? (fun f => f.boxId == boxId.toNat && !f.resolved) = some o) →
      (∀ g ∈ s.spr.own, g.boxId = boxId.toNat → g = o) → exposedPast s (releaseLine s o) = true →
      seamBar s o.side ≠ 0 → o.pair = some b →
        ∃ t, exec (.seamResolvePoint boxId) s = .next t ∧ t.spr = { s.spr with own := s.spr.own.map fun g =>
            if g.boxId == boxId.toNat then { g with resolved := true, why := 0 } else g } ∧
          t.out = (if portLive s (seamSide o.side) then
            starOut (seamSide o.side) (ownHead s) (.seamResolve boxId (BitVec.ofNat 16 b)) :: s.out else s.out)) ∧
  (∀ (s : State) (o : Frag) (boxId : BitVec 16), working s = true →
      (s.spr.own.find? (fun f => f.boxId == boxId.toNat && !f.resolved) = some o) →
      (∀ g ∈ s.spr.own, g.boxId = boxId.toNat → g = o) → exposedPast s (releaseLine s o) = true →
      seamBar s o.side = 0 → o.pair = none → freePairs s o.side = [] →
        ∃ t, exec (.seamResolvePoint boxId) s = .next t ∧ t.spr = { s.spr with own := s.spr.own.map fun g =>
            if g.boxId == boxId.toNat then { g with resolved := true, why := if staleCandidate s o then 3 else 1 } else g } ∧
          t.out = (if portLive s (seamSide o.side) then
            starOut (seamSide o.side) (ownHead s) (.seamResolve boxId 0xFFFF) :: s.out else s.out)) ∧
  (∀ (s : State) (o : Frag) (boxId : BitVec 16) (b : Frag), working s = true →
      (s.spr.own.find? (fun f => f.boxId == boxId.toNat && !f.resolved) = some o) →
      (∀ g ∈ s.spr.own, g.boxId = boxId.toNat → g = o) → exposedPast s (releaseLine s o) = true →
      seamBar s o.side = 0 → freePairs s o.side = [(o, b)] →
        ∃ t, exec (.seamResolvePoint boxId) s = .next t ∧
          (∀ g ∈ t.spr.own, g.boxId = boxId.toNat → g.pair = some b.boxId ∧ g.resolved = true ∧ g.why = 0) ∧
          (∀ g ∈ t.spr.theirs, isFrag o.side b.boxId g = true → g.pair = some o.boxId) ∧
          t.out = (if portLive s (seamSide o.side) then
            starOut (seamSide o.side) (ownHead s) (.seamResolve boxId (BitVec.ofNat 16 b.boxId)) :: s.out else s.out)) ∧
  (∀ (s : State) (o : Frag) (boxId : BitVec 16) (x y : Frag), working s = true →
      (s.spr.own.find? (fun f => f.boxId == boxId.toNat && !f.resolved) = some o) →
      (∀ g ∈ s.spr.own, g.boxId = boxId.toNat → g = o) → exposedPast s (releaseLine s o) = true →
      seamBar s o.side = 0 → firstPair (freePairs s o.side) = some (x, y) →
        ∃ t, exec (.seamResolvePoint boxId) s = .next t ∧ freePairs t o.side = [] ∧
          (∀ g ∈ t.spr.own, isFrag o.side x.boxId g = true → g.pair = some y.boxId) ∧
          (∀ g ∈ t.spr.theirs, isFrag o.side y.boxId g = true → g.pair = some x.boxId)) ∧
  (∀ (s : State) (boxId : BitVec 16),
      (working s = false ∨ s.spr.own.find? (fun f => f.boxId == boxId.toNat && !f.resolved) = none) →
        exec (.seamResolvePoint boxId) s = .next s) ∧
  (∀ (s : State) (o : Frag) (boxId : BitVec 16),
      (s.spr.own.find? (fun f => f.boxId == boxId.toNat && !f.resolved) = some o) →
      exposedPast s (releaseLine s o) = false →
        exec (.seamResolvePoint boxId) s = .next s) ∧
  (∀ (l : List (Frag × Frag)) (p q : Frag × Frag), firstPair l = some p → q ∈ l →
        keyBefore (pairKey q.1 q.2) (pairKey p.1 p.2) = false) ∧
  (∀ (s : State) (o : Frag) (boxId : BitVec 16), working s = true →
      (s.spr.own.find? (fun f => f.boxId == boxId.toNat && f.resolved) = some o) → 256 ≤ s.spr.recCredit →
      s.net.queue.length < 44 →
        ∃ t, exec (.seamRelease boxId) s = .next t ∧ t.spr.own = s.spr.own.filter (fun f => f.boxId != o.boxId) ∧
          t.spr.theirs = s.spr.theirs.filter (fun f => !(f.side == o.side && o.pair == some f.boxId)) ∧
          t.spr.seamUnmerged = (if (seamOutcome s o).1.outcome = 3 then satInc 32 s.spr.seamUnmerged else s.spr.seamUnmerged) ∧
          t.spr.seamMerged = (if (seamOutcome s o).1.outcome = 3 then s.spr.seamMerged else satInc 32 s.spr.seamMerged) ∧
          t.spr.recCredit = s.spr.recCredit - 256 ∧ t.spr.recDrops = s.spr.recDrops ∧
          t.net.queue = s.net.queue ++ [resolutionBytes s o (seamOutcome s o).1 (seamOutcome s o).2]) ∧
  (∀ (s : State) (o : Frag) (boxId : BitVec 16), working s = true →
      (s.spr.own.find? (fun f => f.boxId == boxId.toNat && f.resolved) = some o) → 256 ≤ s.spr.recCredit →
      44 ≤ s.net.queue.length →
        ∃ t, exec (.seamRelease boxId) s = .next t ∧ t.spr.own = s.spr.own.filter (fun f => f.boxId != o.boxId) ∧
          t.spr.theirs = s.spr.theirs.filter (fun f => !(f.side == o.side && o.pair == some f.boxId)) ∧
          t.spr.seamUnmerged = (if (seamOutcome s o).1.outcome = 3 then satInc 32 s.spr.seamUnmerged else s.spr.seamUnmerged) ∧
          t.spr.seamMerged = (if (seamOutcome s o).1.outcome = 3 then s.spr.seamMerged else satInc 32 s.spr.seamMerged) ∧
          t.spr.recCredit = s.spr.recCredit - 256 ∧ t.net.queue = [] ∧ t.net.seq = (s.net.seq + 1) % 2 ^ 48) ∧
  (∀ (s : State) (o : Frag) (boxId : BitVec 16), working s = true →
      (s.spr.own.find? (fun f => f.boxId == boxId.toNat && f.resolved) = some o) → s.spr.recCredit < 256 →
        ∃ t, exec (.seamRelease boxId) s = .next t ∧ t.spr.own = s.spr.own.filter (fun f => f.boxId != o.boxId) ∧
          t.spr.theirs = s.spr.theirs.filter (fun f => !(f.side == o.side && o.pair == some f.boxId)) ∧
          t.spr.seamUnmerged = (if (seamOutcome s o).1.outcome = 3 then satInc 32 s.spr.seamUnmerged else s.spr.seamUnmerged) ∧
          t.spr.seamMerged = (if (seamOutcome s o).1.outcome = 3 then s.spr.seamMerged else satInc 32 s.spr.seamMerged) ∧
          t.spr.recCredit = s.spr.recCredit ∧ t.spr.recDrops = satInc 32 s.spr.recDrops ∧ t.net = s.net) ∧
  (∀ (s : State) (boxId : BitVec 16),
      (working s = false ∨ s.spr.own.find? (fun f => f.boxId == boxId.toNat && f.resolved) = none) →
        exec (.seamRelease boxId) s = .next s) ∧
  (∀ (s : State) (o : Frag), o.pair = none →
        seamOutcome s o = (ownBox o 3 o.why, none)) ∧
  (∀ (s : State) (o : Frag) (b : Nat), o.pair = some b → s.spr.theirs.find? (isFrag o.side b) = none →
        seamOutcome s o = (ownBox o 3 2, none)) ∧
  (∀ (s : State) (o x : Frag) (b : Nat), o.pair = some b → s.spr.theirs.find? (isFrag o.side b) = some x →
        (∀ m, mergedBox s o x = some m → seamOutcome s o = (m, some x)) ∧
        (mergedBox s o x = none → x.partner = some (some o.boxId) → seamOutcome s o = (ownBox o 2 0, some x)) ∧
        (mergedBox s o x = none → x.partner ≠ some (some o.boxId) → seamOutcome s o = (ownBox o 3 2, some x)))

/-- Datagrams close, leave, age out and are retried. Where the spec leaves room the clauses follow the model's choices of log entry 30. Basis: derived; cites 11_egress.md, R400 to R402, R407 to R415, R417 to R420, Tables 11.1 to 11.3. Says that these complete: flushTimeout, keepalive, ringAgeOut, datagramTx, retryRequest, retransmit, receivedFrameDrop. -/
def Obligations.DatagramsRingAndRetries : Prop :=
  (∀ (s : State), working s = true → s.net.queue ≠ [] →
        ∃ t, exec .flushTimeout s = .next t ∧ t.net.seq = (s.net.seq + 1) % 2 ^ 48 ∧ t.net.queue = [] ∧
          t.net.ring = ringFit (ringNow s ++ [{ Datagram.reset with
            seq := s.net.seq
            recs := s.net.queue
            state := stateCode s.sys.code
            source := BitVec.ofNat 16 (ownId s)
            stream := s.net.stream
            closed := s.now }]) ∧
          (∀ l, egLane t l = if laneUsable s l then { egLane s l with txq := (egLane s l).txq ++ [s.net.seq] }
            else { egLane s l with skipped := satInc 32 (egLane s l).skipped }) ∧
          t.flt = s.flt ∧ t.ptp = s.ptp ∧ t.spr = s.spr) ∧
  (∀ (s : State), working s = true → s.net.queue = [] →
        ∃ t, exec .keepalive s = .next t ∧ t.net.seq = (s.net.seq + 1) % 2 ^ 48 ∧ t.net.queue = [] ∧
          t.net.ring = ringFit (ringNow s ++ [{ Datagram.reset with
            seq := s.net.seq
            recs := s.net.queue
            state := stateCode s.sys.code
            source := BitVec.ofNat 16 (ownId s)
            stream := s.net.stream
            closed := s.now }]) ∧
          (∀ l, egLane t l = if laneUsable s l then { egLane s l with txq := (egLane s l).txq ++ [s.net.seq] }
            else { egLane s l with skipped := satInc 32 (egLane s l).skipped }) ∧
          t.flt = s.flt ∧ t.ptp = s.ptp ∧ t.spr = s.spr) ∧
  (∀ (s : State), working s = false →
        exec .flushTimeout s = .next s ∧ exec .keepalive s = .next s) ∧
  (∀ (s : State),
        (s.net.queue = [] → exec .flushTimeout s = .next s) ∧ (s.net.queue ≠ [] → exec .keepalive s = .next s)) ∧
  (∀ (r : List Datagram),
        ringSize (ringFit r) ≤ 33554432 ∧ ∃ n, ringFit r = r.drop n) ∧
  (∀ (s : State) (n : Nat) (d : Datagram), ringFind s n = some d →
        d ∈ s.net.ring ∧ d.seq = n ∧ s.now ≤ d.closed + ms 128) ∧
  (∀ (s : State) (d : Datagram) (rest : List Datagram), s.net.ring = d :: rest → d.closed + ms 64 ≤ s.now →
        exec .ringAgeOut s = .next { s with net := { s.net with ring := rest } }) ∧
  (∀ (s : State), (s.net.ring.all (fun d => decide (s.now < d.closed + ms 64)) = true) →
        exec .ringAgeOut s = .next s) ∧
  (∀ (s : State) (l : LaneId) (n : Nat) (rest : List Nat) (d : Datagram), live s = true → laneUsable s l = true →
      (egLane s l).txq = n :: rest → ringFind s n = some d →
        exec (.datagramTx l) s = .next { onLane l (fun x => { x with txq := rest, txLive := satInc 32 x.txLive }) s with
            out := .frame l (hostFrame s l (datagramBytes 1 d)) :: s.out }) ∧
  (∀ (s : State) (l : LaneId) (n : Nat) (rest : List Nat), live s = true → laneUsable s l = true →
      (egLane s l).txq = n :: rest → ringFind s n = none →
        exec (.datagramTx l) s = .next (onLane l (fun x => { x with txq := rest }) s)) ∧
  (∀ (s : State) (l : LaneId), (live s = false ∨ laneUsable s l = false ∨ (egLane s l).txq = []) →
        exec (.datagramTx l) s = .next s) ∧
  (∀ (c : LaneCfg) (ip : BitVec 32) (b : List Byte),
        retryOk c ip b = true ↔ ip = c.host ∧ b.length = 24 ∧ b.take 4 = [0x47, 0x5A, 0x01, 0x10] ∧ 1 ≤ field b 10 2 ∧
          field b 10 2 ≤ 1024 ∧ field b 20 4 = (crc32c (b.take 20)).toNat) ∧
  (∀ (s : State) (l : LaneId) (ip : BitVec 32) (b : List Byte), live s = true → laneHears s l = true →
      retryOk (egLane s l).cfg ip b = true → ((egLane s l).serve.filter (·.last)).length < 16 →
      BitVec.ofNat 32 (field b 16 4) = s.net.stream → retryCount b = 1 →
        exec (.retryRequest l ip b) s = .next (onLane l (fun x => { x with
          retryOk := satInc 32 x.retryOk, serve := x.serve ++ [⟨field b 4 6 % 2 ^ 48, nakReason s (field b 4 6 % 2 ^ 48), 1, true⟩] }) s)) ∧
  (∀ (s : State) (l : LaneId) (ip : BitVec 32) (b : List Byte), live s = true → laneHears s l = true →
      retryOk (egLane s l).cfg ip b = true → ((egLane s l).serve.filter (·.last)).length < 16 →
      BitVec.ofNat 32 (field b 16 4) = s.net.stream →
        exec (.retryRequest l ip b) s = .next (onLane l (fun x => { x with
          retryOk := satInc 32 x.retryOk, serve := x.serve ++ servesOf s (field b 4 6) (retryCount b) (field b 16 4) }) s)) ∧
  (∀ (s : State) (l : LaneId) (ip : BitVec 32) (b : List Byte), live s = true → laneHears s l = true →
      retryOk (egLane s l).cfg ip b = true → ((egLane s l).serve.filter (·.last)).length < 16 →
      BitVec.ofNat 32 (field b 16 4) ≠ s.net.stream →
        exec (.retryRequest l ip b) s = .next (onLane l (fun x => { x with
          retryOk := satInc 32 x.retryOk, serve := x.serve ++ [⟨field b 4 6, 3, retryCount b, true⟩] }) s)) ∧
  (∀ (s : State) (l : LaneId) (ip : BitVec 32) (b : List Byte), live s = true → laneHears s l = true →
      retryOk (egLane s l).cfg ip b = true → 16 ≤ ((egLane s l).serve.filter (·.last)).length →
        exec (.retryRequest l ip b) s = .next (onLane l (fun x => { x with retryDropped := satInc 32 x.retryDropped }) s)) ∧
  (∀ (s : State) (l : LaneId) (ip : BitVec 32) (b : List Byte), live s = true → laneHears s l = true →
      retryOk (egLane s l).cfg ip b = false →
        exec (.retryRequest l ip b) s = .next (onLane l (fun x => { x with retryBad := satInc 32 x.retryBad }) s)) ∧
  (∀ (s : State) (l : LaneId) (ip : BitVec 32) (b : List Byte), (live s = false ∨ laneHears s l = false) →
        exec (.retryRequest l ip b) s = .next s) ∧
  (∀ (s : State) (first n : Nat),
        ((servesOf s first n s.net.stream.toNat).map (·.count)).sum = n ∧
        ∀ x ∈ servesOf s first n s.net.stream.toNat, x.nak = nakReason s x.seq ∧ (x.nak = 0 → x.count = 1)) ∧
  (∀ (s : State) (l : LaneId) (x : Serve) (rest : List Serve) (d : Datagram), live s = true → laneUsable s l = true →
      (egLane s l).txq = [] → (egLane s l).serve = x :: rest → x.nak = 0 → ringFind s x.seq = some d →
        ∃ u v, exec (.retransmit l .clean) s = .next { onLane l (fun y => { y with serve := rest, txRetrans := satInc 32 y.txRetrans }) s with
              out := .frame l (hostFrame s l (datagramBytes 2 d)) :: s.out } ∧
          exec (.retransmit l .corrected) s = .next u ∧ exec (.retransmit l .uncorrectable) s = .next v ∧
          u.out = .frame l (hostFrame s l (datagramBytes 2 d)) :: s.out ∧ u.net.ring = s.net.ring ∧
          egLane u l = { egLane s l with serve := rest, txRetrans := satInc 32 (egLane s l).txRetrans } ∧
          classCount u 0x11 = satInc 32 (classCount s 0x11) ∧
          v.out = .frame l (hostFrame s l (nakBytes s x.seq 1 1)) :: s.out ∧ v.net.ring = s.net.ring ∧
          egLane v l = { egLane s l with serve := rest, txNak := satInc 32 (egLane s l).txNak } ∧
          classCount v 0x12 = satInc 32 (classCount s 0x12)) ∧
  (∀ (s : State) (l : LaneId) (x : Serve) (rest : List Serve) (e : Ecc), live s = true → laneUsable s l = true →
      (egLane s l).txq = [] → (egLane s l).serve = x :: rest → x.nak ≠ 0 →
        exec (.retransmit l e) s = .next { onLane l (fun y => { y with serve := rest, txNak := satInc 32 y.txNak }) s with
            out := .frame l (hostFrame s l (nakBytes s x.seq x.count x.nak)) :: s.out }) ∧
  (∀ (s : State) (l : LaneId) (x : Serve) (rest : List Serve) (e : Ecc), live s = true → laneUsable s l = true →
      (egLane s l).txq = [] → (egLane s l).serve = x :: rest → x.nak = 0 → ringFind s x.seq = none →
        exec (.retransmit l e) s = .next { onLane l (fun y => { y with serve := rest, txNak := satInc 32 y.txNak }) s with
            out := .frame l (hostFrame s l (nakBytes s x.seq 1 1)) :: s.out }) ∧
  (∀ (s : State) (l : LaneId) (e : Ecc),
      (live s = false ∨ laneUsable s l = false ∨ (egLane s l).txq ≠ [] ∨ (egLane s l).serve = []) →
        exec (.retransmit l e) s = .next s) ∧
  (∀ (s : State) (l : LaneId) (f : List Byte), laneHears s l = true → frameOk s l f = false →
        exec (.receivedFrameDrop l f) s = .next (onLane l (fun x => { x with rxDrop := satInc 32 x.rxDrop }) s)) ∧
  (∀ (s : State) (l : LaneId) (f : List Byte), (laneHears s l = false ∨ frameOk s l f = true) →
        exec (.receivedFrameDrop l f) s = .next s) ∧
  (∀ (dscp ttl n : Nat) (src dst : BitVec 32),
        (ipHeader dscp ttl n src dst).length = 20 ∧ (ipHeader dscp ttl n src dst).take 2 = [0x45, BitVec.ofNat 8 (4 * dscp)] ∧
        slice (ipHeader dscp ttl n src dst) 4 4 = [0, 0, 0x40, 0] ∧
        slice (ipHeader dscp ttl n src dst) 8 2 = [BitVec.ofNat 8 ttl, 17])

/-- Block lock and ARP make a lane usable, a lost lock or a fault of the sublayer ends it. Where the spec leaves room the clauses follow the model's choices of log entries 12, 30. Basis: derived; cites 11_egress.md, R402 to R406, R411, Table 11.1; 15_power_states.md, Table 15.8; 17_maintenance_recovery.md, R637. Says that these complete: blockLockGain, blockLockLoss, arpRequestReceive, arpPacketReceive, arpResolveTimer. -/
def Obligations.LocksAndArpMakeLanesUsable : Prop :=
  (∀ (s : State) (l : LaneId) (m : BitVec 48), (egLane s l).up = true →
      ((egLane s l).lock = false ∨ (egLane s l).rsFault = true) → clocked s = true → reinitBusy .egress s = false →
      (egLane s l).cfg.hopMac = some m →
        ∃ t, exec (.blockLockGain l) s = .next t ∧
          (egLane t l) = { egLane s l with lock := true, rsFault := false, nextMac := some m, announced := true } ∧
          laneUsable t l = true ∧ t.out = .frame l (arpFrame s l 1 0 (egLane s l).cfg.ip) :: s.out ∧ egLane t (otherLane l) = egLane s (otherLane l) ∧ t.flt = s.flt) ∧
  (∀ (s : State) (l : LaneId), (egLane s l).up = true → ((egLane s l).lock = false ∨ (egLane s l).rsFault = true) →
      clocked s = true → reinitBusy .egress s = false → (egLane s l).cfg.hopMac = none →
        ∃ t, exec (.blockLockGain l) s = .next t ∧
          (egLane t l) = { egLane s l with
            lock := true
            rsFault := false
            announced := (egLane s l).nextMac.isSome || !(egLane s l).cfg.fromImage } ∧
          laneUsable t l = (egLane s l).nextMac.isSome ∧
          t.out = (if (egLane s l).nextMac.isSome || !(egLane s l).cfg.fromImage then [.frame l (arpFrame s l 1 0 (egLane s l).cfg.ip)] else []) ++
            (if nextHop (egLane s l).cfg ≠ 0 then [.frame l (arpFrame s l 1 0 (nextHop (egLane s l).cfg))] else []) ++ s.out ∧ egLane t (otherLane l) = egLane s (otherLane l) ∧ t.flt = s.flt) ∧
  (∀ (s : State) (l : LaneId),
      ((egLane s l).up = false ∨ ((egLane s l).lock = true ∧ (egLane s l).rsFault = false) ∨ clocked s = false ∨ reinitBusy .egress s = true) →
        ∃ t, exec (.blockLockGain l) s = .next t ∧ t.net = s.net ∧ t.out = s.out ∧ t.flt = s.flt ∧ t.nvm = s.nvm) ∧
  (∀ (s : State) (l : LaneId), (egLane s l).lock = true →
        ∃ t, exec (.blockLockLoss l false) s = .next t ∧ laneUsable t l = false ∧
          (egLane t l) = { egLane s l with
            lock := false
            rsFault := false
            nextMac := none
            announced := false
            lockLoss := satInc 32 (egLane s l).lockLoss
            skipped := satAdd 32 (egLane s l).txq.length (egLane s l).skipped
            txq := []
            serve := [] } ∧
          egLane t (otherLane l) = egLane s (otherLane l) ∧ (heldOn l s = true → t.nvm.locked = false) ∧ (heldOn l s = false → t.nvm = s.nvm) ∧
          classCount t 0x40 = satInc 32 (classCount s 0x40)) ∧
  (∀ (s : State) (l : LaneId), (egLane s l).lock = true → (egLane s l).rsFault = false →
        ∃ t, exec (.blockLockLoss l true) s = .next t ∧ laneUsable t l = false ∧
          (egLane t l) = { egLane s l with
            rsFault := true
            nextMac := none
            announced := false
            skipped := satAdd 32 (egLane s l).txq.length (egLane s l).skipped
            txq := []
            serve := [] } ∧
          egLane t (otherLane l) = egLane s (otherLane l) ∧ (heldOn l s = true → t.nvm.locked = false) ∧ (heldOn l s = false → t.nvm = s.nvm) ∧
          classCount t 0x40 = satInc 32 (classCount s 0x40)) ∧
  (∀ (s : State) (l : LaneId) (rs : Bool), ((egLane s l).lock = false ∨ (rs = true ∧ (egLane s l).rsFault = true)) →
        ∃ t, exec (.blockLockLoss l rs) s = .next t ∧ t.net = s.net ∧ t.out = s.out ∧ t.flt = s.flt ∧ t.nvm = s.nvm) ∧
  (∀ (s : State) (l : LaneId) (mac : BitVec 48) (ip target : BitVec 32), laneHears s l = true →
      (ip ≠ nextHop (egLane s l).cfg ∨ ip = 0) →
        ∃ t, exec (.arpRequestReceive l mac ip target) s = .next t ∧
          (egLane t l) = { egLane s l with
            arpConflict := if ip = (egLane s l).cfg.ip ∧ mac ≠ ownMac s l then satInc 32 (egLane s l).arpConflict else (egLane s l).arpConflict } ∧
          t.out = (if target = (egLane s l).cfg.ip then [.frame l (arpFrame s l 2 mac ip)] else []) ++ s.out ∧ egLane t (otherLane l) = egLane s (otherLane l) ∧ t.flt = s.flt ∧ t.nvm = s.nvm) ∧
  (∀ (s : State) (l : LaneId) (mac : BitVec 48) (ip target : BitVec 32), laneHears s l = true →
      ip = nextHop (egLane s l).cfg → ip ≠ 0 →
        ∃ t, exec (.arpRequestReceive l mac ip target) s = .next t ∧ laneUsable t l = true ∧
          (egLane t l) = { egLane s l with
            arpConflict := if ip = (egLane s l).cfg.ip ∧ mac ≠ ownMac s l then satInc 32 (egLane s l).arpConflict else (egLane s l).arpConflict
            nextMac := some mac
            announced := true } ∧
          t.out = (if target = (egLane s l).cfg.ip then [.frame l (arpFrame s l 2 mac ip)] else []) ++ (if (egLane s l).announced then [] else [.frame l (arpFrame s l 1 0 (egLane s l).cfg.ip)]) ++ s.out ∧
          egLane t (otherLane l) = egLane s (otherLane l) ∧ t.flt = s.flt ∧ t.nvm = s.nvm) ∧
  (∀ (s : State) (l : LaneId) (mac : BitVec 48) (ip target : BitVec 32), laneHears s l = false →
        ∃ t, exec (.arpRequestReceive l mac ip target) s = .next t ∧ t.net = s.net ∧ t.out = s.out ∧ t.flt = s.flt ∧ t.nvm = s.nvm) ∧
  (∀ (s : State) (l : LaneId) (mac : BitVec 48) (ip : BitVec 32), laneHears s l = true →
      (ip ≠ nextHop (egLane s l).cfg ∨ ip = 0) →
        ∃ t, exec (.arpPacketReceive l mac ip) s = .next t ∧
          (egLane t l) = { egLane s l with
            arpConflict := if ip = (egLane s l).cfg.ip ∧ mac ≠ ownMac s l then satInc 32 (egLane s l).arpConflict else (egLane s l).arpConflict } ∧
          t.out = s.out ∧ egLane t (otherLane l) = egLane s (otherLane l) ∧ t.flt = s.flt ∧ t.nvm = s.nvm) ∧
  (∀ (s : State) (l : LaneId) (mac : BitVec 48) (ip : BitVec 32), laneHears s l = true →
      ip = nextHop (egLane s l).cfg → ip ≠ 0 →
        ∃ t, exec (.arpPacketReceive l mac ip) s = .next t ∧ laneUsable t l = true ∧
          (egLane t l) = { egLane s l with
            arpConflict := if ip = (egLane s l).cfg.ip ∧ mac ≠ ownMac s l then satInc 32 (egLane s l).arpConflict else (egLane s l).arpConflict
            nextMac := some mac
            announced := true } ∧
          t.out = (if (egLane s l).announced then [] else [.frame l (arpFrame s l 1 0 (egLane s l).cfg.ip)]) ++ s.out ∧
          egLane t (otherLane l) = egLane s (otherLane l) ∧ t.flt = s.flt ∧ t.nvm = s.nvm) ∧
  (∀ (s : State) (l : LaneId) (mac : BitVec 48) (ip : BitVec 32), laneHears s l = false →
        ∃ t, exec (.arpPacketReceive l mac ip) s = .next t ∧ t.net = s.net ∧ t.out = s.out ∧ t.flt = s.flt ∧ t.nvm = s.nvm) ∧
  (∀ (s : State) (l : LaneId), laneHears s l = true → (egLane s l).cfg.hopMac = none → nextHop (egLane s l).cfg ≠ 0 →
        exec (.arpResolveTimer l) s = .next { s with out := .frame l (arpFrame s l 1 0 (nextHop (egLane s l).cfg)) :: s.out }) ∧
  (∀ (s : State) (l : LaneId),
      (laneHears s l = false ∨ (egLane s l).cfg.hopMac ≠ none ∨ nextHop (egLane s l).cfg = 0) →
        exec (.arpResolveTimer l) s = .next s)

/-- Announce, Sync, Follow_Up and the delay exchange of a lane. Where the spec leaves room the clauses follow the model's choices of log entries 8, 31. Basis: derived; cites 11_egress.md, R423 to R427, R429, R430, R432 to R434. Says that these complete: announceReceive, announceTimeout, syncReceive, followUpReceive, followUpTimeout, delayReqTimer, delayRespReceive. -/
def Obligations.PtpExchangeOfALane : Prop :=
  (∀ (s : State) (l : LaneId) (event : Bool) (h : PtpHead),
        ptpTakes s l event h = true ↔ laneHears s l = true ∧ s.ptp.running = true ∧ h.dst = 0xE0000181 ∧
          h.port = (if event then 319 else 320) ∧ h.domain = BitVec.ofNat 8 (s.img.nat Fld.ptpDomain [])) ∧
  (∀ (s : State) (l : LaneId) (h : PtpHead) (a : AnnData) (c : List Candidate), ptpTakes s l false h = true →
      (c = ((ptpLane s l).candidates.filter (fun x : Candidate => x.ann.source != a.source) ++ [(⟨a, s.now⟩ : Candidate)]).filter (announced s)) →
        ∃ t, exec (.announceReceive l a h) s = .next t ∧ (ptpLane t l).candidates = c ∧ (ptpLane t l).master = bestMaster (c.map (·.ann)) ∧
          ((ptpLane s l).master = none → t.ptp.state ≠ 2) ∧ ptpLane t (otherLane l) = ptpLane s (otherLane l) ∧ t.net = s.net ∧ t.out = s.out ∧ t.flt = s.flt) ∧
  (∀ (a b : AnnData),
        bestMaster [a] = some a ∧ bestMaster [a, b] = some (if better b a then b else a)) ∧
  (∀ (a b : AnnData), a.gm ≠ b.gm → a.prio1 < b.prio1 →
        better a b = true ∧ better b a = false) ∧
  (∀ (a b : AnnData), a.gm = b.gm → a.steps < b.steps →
        better a b = true ∧ better b a = false) ∧
  (∀ (s : State) (l : LaneId) (m : AnnData) (c : List Candidate), (ptpLane s l).master = some m →
      (c = ((ptpLane s l).candidates.filter (fun x : Candidate => x.ann.source != m.source)).filter (announced s)) →
        ∃ t, exec (.announceTimeout l) s = .next t ∧ (ptpLane t l).candidates = c ∧ (ptpLane t l).master = bestMaster (c.map (·.ann)) ∧
          (l = servoLane s → (ptpLane s (otherLane l)).master = none →
            classCount t 0x41 = satInc 32 (classCount s 0x41)) ∧
          ((ptpLane s (otherLane l)).master ≠ none → t.flt = s.flt) ∧
          ((ptpLane s (otherLane l)).master = none → c = [] → s.ptp.state = 1 → t.ptp.state = 2) ∧ ptpLane t (otherLane l) = ptpLane s (otherLane l)) ∧
  (∀ (s : State) (l : LaneId) (h : PtpHead) (a : AnnData),
        (ptpTakes s l false h = false → exec (.announceReceive l a h) s = .next s) ∧
        ((ptpLane s l).master = none → exec (.announceTimeout l) s = .next s)) ∧
  (∀ (s : State) (l : LaneId) (h : PtpHead) (m : SyncData) (quanta : Int), ptpTakes s l true h = true →
      (ptpLane s l).master.map (·.source) = some m.source → (lastSecond s (ptpLane s l).syncs).length < 128 →
      (∀ x ∈ lastSecond s (ptpLane s l).syncs, x + 1560000 ≤ s.now) → m.twoStep = false →
        ∃ t, exec (.syncReceive l m h quanta) s = .next t ∧
          (ptpLane t l) = { ptpLane s l with
            syncs := s.now :: lastSecond s (ptpLane s l).syncs
            t1 := stampTicks m.origin + corrTicks m.corr + asymTicks s l
            t2 := stampNow s quanta
            twoStep := none } ∧
          (servoLane s ≠ l ∨ pathUsable s l = false → t.ptp.offset = s.ptp.offset ∧ t.ptp.state = s.ptp.state ∧
            t.flt = s.flt) ∧ ptpLane t (otherLane l) = ptpLane s (otherLane l) ∧ t.net = s.net ∧ t.out = s.out) ∧
  (∀ (s : State) (l : LaneId) (h : PtpHead) (m : SyncData) (quanta : Int) (off : Int), ptpTakes s l true h = true →
      (ptpLane s l).master.map (·.source) = some m.source → (lastSecond s (ptpLane s l).syncs).length < 128 →
      (∀ x ∈ lastSecond s (ptpLane s l).syncs, x + 1560000 ≤ s.now) → m.twoStep = false → servoLane s = l →
      pathUsable s l = true →
      off = timeDiff (stampNow s quanta) (stampTicks m.origin + corrTicks m.corr + asymTicks s l) - (ptpLane s l).mpd →
        ∃ t, exec (.syncReceive l m h quanta) s = .next t ∧ t.ptp.offset = off ∧
          ((s.img.nat Fld.ptpStep [] * 655360 : Int) < off.natAbs → t.ptp.steps = satInc 32 s.ptp.steps ∧
            t.ptp.tBase = (ptpTicks s - off) % timeSpan ∧ t.ptp.goodRun ≤ 1 ∧
            classCount t 0x41 = satInc 32 (classCount s 0x41)) ∧
          ((off.natAbs : Int) ≤ s.img.nat Fld.ptpStep [] * 655360 → t.ptp.steps = s.ptp.steps ∧ t.flt = s.flt ∧
            -13107200 ≤ t.ptp.freq ∧ t.ptp.freq ≤ 13107200 ∧ t.ptp.slew.natAbs ≤ 32768000 ∧
            (0 < off → t.ptp.slew ≤ 0) ∧ (off < 0 → 0 ≤ t.ptp.slew)) ∧
          (1000 * 655360 < off.natAbs → t.ptp.goodRun = 0 ∧ (s.ptp.state = 1 → t.ptp.state = 0)) ∧
          (off.natAbs ≤ 1000 * 655360 → (off.natAbs : Int) ≤ s.img.nat Fld.ptpStep [] * 655360 →
            t.ptp.goodRun = min 16 (s.ptp.goodRun + 1) ∧ (15 ≤ s.ptp.goodRun → t.ptp.state = 1))) ∧
  (∀ (s : State) (l : LaneId) (h : PtpHead) (m : SyncData) (quanta : Int), ptpTakes s l true h = true →
      (ptpLane s l).master.map (·.source) = some m.source → (lastSecond s (ptpLane s l).syncs).length < 128 →
      (∀ x ∈ lastSecond s (ptpLane s l).syncs, x + 1560000 ≤ s.now) → m.twoStep = true →
        ∃ t, exec (.syncReceive l m h quanta) s = .next t ∧
          (ptpLane t l) = { ptpLane s l with
            syncs := s.now :: lastSecond s (ptpLane s l).syncs
            twoStep := some ⟨m, stampNow s quanta, s.now⟩ } ∧
          t.ptp.offset = s.ptp.offset ∧ t.ptp.state = s.ptp.state ∧ t.flt = s.flt ∧ ptpLane t (otherLane l) = ptpLane s (otherLane l) ∧ t.net = s.net ∧ t.out = s.out) ∧
  (∀ (s : State) (l : LaneId) (h : PtpHead) (m : SyncData) (quanta : Int),
      (ptpTakes s l true h = false ∨ (ptpLane s l).master.map (·.source) ≠ some m.source ∨ 128 ≤ (lastSecond s (ptpLane s l).syncs).length ∨ (∃ x ∈ lastSecond s (ptpLane s l).syncs, s.now < x + 1560000)) →
        exec (.syncReceive l m h quanta) s = .next s) ∧
  (∀ (s : State) (l : LaneId) (h : PtpHead) (source : BitVec 80) (seqId : BitVec 16) (origin : PtpStamp) (corr : BitVec 64) (p : HeldSync) (t1 : Int),
      ptpTakes s l false h = true → (ptpLane s l).twoStep = some p → p.msg.source = source → p.msg.seqId = seqId →
      s.now ≤ p.since + sec 1 → t1 = stampTicks origin + corrTicks p.msg.corr + corrTicks corr + asymTicks s l →
        ∃ t, exec (.followUpReceive l source seqId origin corr h) s = .next t ∧
          (ptpLane t l) = { ptpLane s l with t1 := t1, t2 := p.rx, twoStep := none } ∧
          t.ptp.offset = (if servoLane s = l ∧ pathUsable s l = true then timeDiff p.rx t1 - (ptpLane s l).mpd
            else s.ptp.offset) ∧ ptpLane t (otherLane l) = ptpLane s (otherLane l) ∧ t.net = s.net ∧ t.out = s.out) ∧
  (∀ (s : State) (l : LaneId) (h : PtpHead) (source : BitVec 80) (seqId : BitVec 16) (origin : PtpStamp) (corr : BitVec 64) (p : HeldSync),
      (ptpLane s l).twoStep = some p →
      (ptpTakes s l false h = false ∨ p.msg.source ≠ source ∨ p.msg.seqId ≠ seqId ∨ p.since + sec 1 < s.now) →
        exec (.followUpReceive l source seqId origin corr h) s = .next s) ∧
  (∀ (s : State) (l : LaneId) (h : PtpHead) (source : BitVec 80) (seqId : BitVec 16) (origin : PtpStamp) (corr : BitVec 64),
      (ptpLane s l).twoStep = none →
        exec (.followUpReceive l source seqId origin corr h) s = .next s) ∧
  (∀ (s : State) (l : LaneId),
        exec (.followUpTimeout l) s = .next (onPtp l (fun x => { x with twoStep := none }) s)) ∧
  (∀ (s : State) (l : LaneId) (quanta : Int) (n : Nat), ptpHears s l = true → (ptpLane s l).master.isSome = true →
      (ptpLane s l).reqDue ≤ s.now → (lastSecond s (ptpLane s l).reqs).length < 16 →
      n = ((ptpLane s l).reqId + 1) % 65536 →
        ∃ t g, exec (.delayReqTimer l quanta) s = .next t ∧ g ≤ 2 * logSec (ptpLane s l).reqLog ∧
          (ptpLane t l) = { ptpLane s l with
            t3 := some (stampNow s quanta)
            reqId := n
            reqs := s.now :: lastSecond s (ptpLane s l).reqs
            reqDue := s.now + g } ∧
          t.out = .frame l (delayReqFrame s l n) :: s.out ∧ t.net = s.net ∧ t.ptp.offset = s.ptp.offset ∧ ptpLane t (otherLane l) = ptpLane s (otherLane l)) ∧
  (∀ (s : State) (l : LaneId) (quanta : Int),
      (ptpHears s l = false ∨ (ptpLane s l).master = none ∨ s.now < (ptpLane s l).reqDue ∨ 16 ≤ (lastSecond s (ptpLane s l).reqs).length) →
        exec (.delayReqTimer l quanta) s = .next s) ∧
  (∀ (s : State) (l : LaneId) (h : PtpHead) (source : BitVec 80) (seqId : BitVec 16) (rx : PtpStamp) (corr : BitVec 64) (logInterval : BitVec 8) (requesting : List Byte) (t3 m : Int),
      ptpTakes s l false h = true → (ptpLane s l).t3 = some t3 → (ptpLane s l).master.map (·.source) = some source →
      seqId.toNat = (ptpLane s l).reqId → requesting = portIdentity s →
      m = (timeDiff (ptpLane s l).t2 (ptpLane s l).t1 + timeDiff (stampTicks rx - corrTicks corr) t3) / 2 →
        ∃ t, exec (.delayRespReceive l source seqId rx corr h logInterval requesting) s = .next t ∧
          (ptpLane t l) = { ptpLane s l with mpd := m, t3 := none, reqLog := logInterval.toInt } ∧
          t.ptp.mpd = (if servoLane s = l then m else s.ptp.mpd) ∧ t.ptp.offset = s.ptp.offset ∧ t.flt = s.flt ∧ ptpLane t (otherLane l) = ptpLane s (otherLane l) ∧ t.net = s.net ∧ t.out = s.out) ∧
  (∀ (s : State) (l : LaneId) (h : PtpHead) (source : BitVec 80) (seqId : BitVec 16) (rx : PtpStamp) (corr : BitVec 64) (logInterval : BitVec 8) (requesting : List Byte),
      ((ptpLane s l).t3 = none ∨ ptpTakes s l false h = false ∨ (ptpLane s l).master.map (·.source) ≠ some source ∨ seqId.toNat ≠ (ptpLane s l).reqId ∨ requesting ≠ portIdentity s) →
        exec (.delayRespReceive l source seqId rx corr h logInterval requesting) s = .next s)

/-- Markers judge a time path, the servo changes its lane, t_LC follows, PPS pulses. Where the spec leaves room the clauses follow the model's choices of log entries 1, 31. Basis: derived; cites 11_egress.md, R427, R428, R430, R431, R433, R434, R438; 03_promises.md, Table 3.1. Says that these complete: timePathMarker, blockLockLoss, ptpFailback, tlcResync, ppsSecond, ppsWidthEnd. -/
def Obligations.TimePathsClockAndPps : Prop :=
  (∀ (s : State) (l : LaneId) (tx rx : Int), (egLane s l).up = true → s.ptp.running = true → clocked s = true →
      reinitBusy .egress s = false → (ptpLane s l).markerBad = 0 → (ptpLane s l).pathFault = false →
      (3 ≤ tx.natAbs ∨ 3 ≤ rx.natAbs) →
        exec (.timePathMarker l tx rx) s = .next (onPtp l (fun x => { x with markerBad := 1 }) s)) ∧
  (∀ (s : State) (l : LaneId) (tx rx : Int), (egLane s l).up = true → s.ptp.running = true → clocked s = true →
      reinitBusy .egress s = false → 1 ≤ (ptpLane s l).markerBad → (ptpLane s l).pathFault = false →
      (3 ≤ tx.natAbs ∨ 3 ≤ rx.natAbs) →
        ∃ t, exec (.timePathMarker l tx rx) s = .next t ∧ (ptpLane t l) = { ptpLane s l with markerBad := 2, pathFault := true } ∧
          classCount t 0x41 = satInc 32 (classCount s 0x41) ∧ pathUsable t l = false ∧ ptpLane t (otherLane l) = ptpLane s (otherLane l)) ∧
  (∀ (s : State) (l : LaneId) (tx rx : Int), (egLane s l).up = true → s.ptp.running = true → clocked s = true →
      reinitBusy .egress s = false → (ptpLane s l).pathFault = true → (3 ≤ tx.natAbs ∨ 3 ≤ rx.natAbs) →
        ∃ t, exec (.timePathMarker l tx rx) s = .next t ∧ (ptpLane t l).pathFault = true ∧ t.flt = s.flt ∧ t.ptp.state = s.ptp.state ∧ ptpLane t (otherLane l) = ptpLane s (otherLane l)) ∧
  (∀ (s : State) (l : LaneId) (tx rx : Int), (egLane s l).up = true → s.ptp.running = true → clocked s = true →
      reinitBusy .egress s = false → tx.natAbs < 3 → rx.natAbs < 3 →
        ∃ t, exec (.timePathMarker l tx rx) s = .next t ∧ (ptpLane t l) = { ptpLane s l with markerBad := 0, pathFault := false } ∧
          t.flt.classCount = s.flt.classCount ∧ ptpLane t (otherLane l) = ptpLane s (otherLane l)) ∧
  (∀ (s : State) (l : LaneId) (tx rx : Int),
      ((egLane s l).up = false ∨ s.ptp.running = false ∨ clocked s = false ∨ reinitBusy .egress s = true) →
        exec (.timePathMarker l tx rx) s = .next s) ∧
  (∀ (s : State), (egLane s .a).lock = true → s.ptp.lane = 0 → pathUsable s .b = true →
        ∃ t, exec (.blockLockLoss .a false) s = .next t ∧ t.ptp.lane = 1 ∧ t.ptp.failover = satInc 32 s.ptp.failover ∧
          t.ptp.mpd = (ptpLane s .b).mpd ∧ (s.ptp.state = 1 → t.ptp.state = 1)) ∧
  (∀ (s : State) (l : LaneId), (egLane s l).lock = true → s.ptp.state = 1 → pathUsable s (otherLane l) = false →
        ∃ t, exec (.blockLockLoss l false) s = .next t ∧ t.ptp.state = 2 ∧ t.ptp.freq = s.ptp.freq) ∧
  (∀ (s : State) (t0 : Nat), pathUsable s .a = true → s.ptp.aSince = some t0 → t0 + sec 60 ≤ s.now → s.ptp.lane ≠ 0 →
        exec .ptpFailback s = .next { s with ptp := { s.ptp with
          lane := 0, failover := satInc 32 s.ptp.failover, goodRun := 0, mpd := (ptpLane s .a).mpd } }) ∧
  (∀ (s : State),
      (pathUsable s .a = false ∨ s.ptp.aSince = none ∨ s.ptp.aSince.any (fun x => decide (s.now < x + sec 60)) = true ∨ s.ptp.lane = 0) →
        exec .ptpFailback s = .next s) ∧
  (∀ (s : State) (x : Int), tlcTicks s = some x → s.ptp.state = 1 →
      (timeDiff (ptpTicks s) x).natAbs ≤ 5000 * 655360 →
        ∃ t, exec .tlcResync s = .next t ∧ t.ptp.tlc = some (ptpTicks s) ∧ t.ptp.tBase = ptpTicks s ∧ t.ptp.tAt = s.now) ∧
  (∀ (s : State),
      (tlcTicks s = none ∨ s.ptp.state ≠ 1 ∨ (tlcTicks s).any (fun x => decide (5000 * 655360 < (timeDiff (ptpTicks s) x).natAbs)) = true) →
        exec .tlcResync s = .next s) ∧
  (∀ (s : State), ppsOn s = true →
        ∃ t, exec .ppsSecond s = .next t ∧ t.ptp = { s.ptp with pps := true } ∧ t.spr = s.spr ∧ t.net = s.net) ∧
  (∀ (s : State), ppsOn s = false →
        exec .ppsSecond s = .next s) ∧
  (∀ (s : State),
        ∃ t, exec .ppsWidthEnd s = .next t ∧ t.ptp = { s.ptp with pps := false } ∧ t.spr = s.spr ∧ t.net = s.net)

/-- Links come up and go down, frames are relayed or taken, ECHO measures, HELLO and MEMBER leave and are taken. Where the spec leaves room the clauses follow the model's choices of log entry 32. Basis: derived; cites 12_starling.md, R447 to R449, R454, R455, R458, R465, R474, R480 to R482, Tables 12.2, 12.4. Says that these complete: linkSync, linkDown, portModeChange, echoTimer, neighbourLost, echoReceive, helloReceive, memberReceive, claimReceive, agreeReceive, roleReceive, starlingEventReceive, helloTimer, memberTimer. -/
def Obligations.LinksFramesAndMeasuredDelays : Prop :=
  (∀ (s : State) (side : Side), (portAt s side).up = false → s.sys.code ≠ .off →
      ((portAt s side).broke = false ∨ portActive s side = false ∨ hasIdentity s = false) →
        exec (.linkSync side) s = .next { s with star := { s.star with port := vmod s.star.port (sideIx side) fun p => { p with up := true, broke := false } } }) ∧
  (∀ (s : State) (side : Side), (portAt s side).up = false → (portAt s side).broke = true →
      portActive s side = true → hasIdentity s = true →
        ∃ t, exec (.linkSync side) s = .next t ∧ (portAt t side) = { portAt s side with up := true, broke := false } ∧
          t.star.breaks = s.star.breaks.filter (fun x => x != (ownId s, (sideIx side).val)) ∧
          starOut side (ownHead s) (.event .heal side (BitVec.ofNat 16 (ownId s))) ∈ t.out ∧
          (s.star.groupMaster = true → t.star.detour = none) ∧ portAt t (otherSide side) = portAt s (otherSide side)) ∧
  (∀ (s : State) (side : Side),
        ((portAt s side).up = true ∨ s.sys.code = .off → exec (.linkSync side) s = .next s) ∧
        ((portAt s side).up = false ∨ s.sys.code = .off → exec (.linkDown side) s = .next s) ∧
        ((portAt s side).want = none → exec (.portModeChange side) s = .next s) ∧
        (portLive s side = false → exec (.echoTimer side) s = .next s) ∧
        ((portAt s side).neigh = none ∨ portActive s side = false ∨ (portAt s side).lost = true → exec (.neighbourLost side) s = .next s)) ∧
  (∀ (s : State) (side : Side), (portAt s side).up = true → s.sys.code ≠ .off →
        ∃ t, exec (.linkDown side) s = .next t ∧
          (portAt t side) = { portAt s side with
            up := false
            broke := (portAt s side).broke || portActive s side
            linkDown := satInc 32 (portAt s side).linkDown } ∧
          classCount t 0x50 = satInc 32 (classCount s 0x50) ∧ portAt t (otherSide side) = portAt s (otherSide side)) ∧
  (∀ (s : State) (side : Side), (portAt s side).up = true → portActive s side = true → hasIdentity s = true →
        ∃ t, exec (.linkDown side) s = .next t ∧ (ownId s, (sideIx side).val) ∈ t.star.breaks ∧
          (portLive s (otherSide side) = true →
            starOut (otherSide side) (ownHead s) (.event .brk side (BitVec.ofNat 16 (ownId s))) ∈ t.out)) ∧
  (∀ (s : State) (side : Side) (b : Bool), (portAt s side).want = some b →
        exec (.portModeChange side) s = .next { s with star := { s.star with
          port := vmod s.star.port (sideIx side) fun p => { p with passive := b, want := none } } }) ∧
  (∀ (s : State) (side : Side), portLive s side = true →
        exec (.echoTimer side) s = .next { s with
          star := { s.star with port := vmod s.star.port (sideIx side) fun p => { p with echoSeq := (p.echoSeq + 1) % 256 } }
          out := starOut side (ownHead s) (.echo (((portAt s side).echoSeq + 1) % 256) false) :: s.out }) ∧
  (∀ (s : State) (side : Side) (hd : FrameHead) (q : BitVec 8) (delay : Nat), (portAt s side).up = true →
      portActive s side = true → frameGood hd = true → hd.hop = 0 → q.toNat = (portAt s side).echoSeq →
        exec (.echoReceive side hd q true delay) s = .next { s with star := { s.star with
          port := vmod s.star.port (sideIx side) fun p => { p with
            delay := Nat.min delay 65535
            relayDelay := Nat.min delay 65535
            oot := neighOfBar s side (ownBar s) && cableOut (Nat.min delay 65535) } } }) ∧
  (∀ (s : State) (side : Side) (hd : FrameHead) (q : BitVec 8) (delay : Nat), (portAt s side).up = true →
      portActive s side = true → frameGood hd = true →
        exec (.echoReceive side hd q false delay) s = .next (if hd.hop = 0 then
          { s with out := starOut side (ownHead s) (.echo q.toNat true) :: s.out } else s)) ∧
  (∀ (s : State) (side : Side) (hd : FrameHead) (q : BitVec 8) (delay : Nat), (portAt s side).up = true →
      portActive s side = true → frameGood hd = true → (hd.hop ≠ 0 ∨ q.toNat ≠ (portAt s side).echoSeq) →
        exec (.echoReceive side hd q true delay) s = .next s) ∧
  (∀ (s : State) (side : Side) (hd : FrameHead) (q : BitVec 8) (delay : Nat) (ret : Bool),
      (portAt s side).up = true → portActive s side = false → (portAt s (otherSide side)).up = true →
        exec (.echoReceive side hd q ret delay) s = .next { s with
          out := starOut (otherSide side) { hd with crcOk := true, eof := frameGood hd, hop := hd.hop + 1 } (.echo q.toNat ret) ::
            (if ret = false ∧ frameGood hd = true ∧ hd.hop = 0 then [starOut side (ownHead s) (.echo q.toNat true)] else []) ++ s.out }) ∧
  (∀ (s : State) (side : Side) (hd : FrameHead) (q : BitVec 8) (delay : Nat) (ret : Bool),
      (portAt s side).up = false → (hd.crcOk = true ∨ portActive s side = false) →
        exec (.echoReceive side hd q ret delay) s = .next s) ∧
  (∀ (s : State) (side port : Side) (hd : FrameHead) (h : Hello) (m : MemberPay) (a : AgreePay) (k : StarEvent) (n e : BitVec 32) (bar holder subj : BitVec 16),
      (portAt s side).up = false → (hd.crcOk = true ∨ portActive s side = false) →
        exec (.helloReceive side hd h) s = .next s ∧
          exec (.memberReceive side hd m) s = .next s ∧
          exec (.claimReceive side hd n e) s = .next s ∧
          exec (.agreeReceive side hd a) s = .next s ∧
          exec (.roleReceive side hd e bar holder) s = .next s ∧
          exec (.starlingEventReceive side hd k port subj) s = .next s) ∧
  (∀ (s : State) (side port : Side) (hd : FrameHead) (h : Hello) (m : MemberPay) (a : AgreePay) (k : StarEvent) (n e : BitVec 32) (bar holder subj : BitVec 16),
      (portAt s side).up = true → portActive s side = false → (portAt s (otherSide side)).up = true →
        exec (.helloReceive side hd h) s = .next { s with out := starOut (otherSide side) { hd with crcOk := true, eof := frameGood hd, hop := hd.hop + 1 } (.hello h) :: s.out } ∧
          exec (.memberReceive side hd m) s = .next { s with out := starOut (otherSide side) { hd with crcOk := true, eof := frameGood hd, hop := hd.hop + 1 } (.member m) :: s.out } ∧
          exec (.claimReceive side hd n e) s = .next { s with out := starOut (otherSide side) { hd with crcOk := true, eof := frameGood hd, hop := hd.hop + 1 } (.claim n e) :: s.out } ∧
          exec (.agreeReceive side hd a) s = .next { s with out := starOut (otherSide side) { hd with crcOk := true, eof := frameGood hd, hop := hd.hop + 1 } (.agree a) :: s.out } ∧
          exec (.roleReceive side hd e bar holder) s = .next { s with out := starOut (otherSide side) { hd with crcOk := true, eof := frameGood hd, hop := hd.hop + 1 } (.role e bar holder) :: s.out } ∧
          exec (.starlingEventReceive side hd k port subj) s = .next { s with out := starOut (otherSide side) { hd with crcOk := true, eof := frameGood hd, hop := hd.hop + 1 } (.event k port subj) :: s.out }) ∧
  (∀ (s : State) (side port : Side) (hd : FrameHead) (h : Hello) (m : MemberPay) (a : AgreePay) (k : StarEvent) (n e : BitVec 32) (bar holder subj : BitVec 16),
      (portAt s side).up = true → portActive s side = true → hd.crcOk = true →
      (hd.hop = 4095 ∨ isOwn s hd.src = true ∨ (portAt s (otherSide side)).up = false) → hd.eof = false →
        exec (.helloReceive side hd h) s = .next s ∧
          exec (.memberReceive side hd m) s = .next s ∧
          exec (.claimReceive side hd n e) s = .next s ∧
          exec (.agreeReceive side hd a) s = .next s ∧
          exec (.roleReceive side hd e bar holder) s = .next s ∧
          exec (.starlingEventReceive side hd k port subj) s = .next s) ∧
  (∀ (s : State) (side port : Side) (hd : FrameHead) (m : MemberPay) (a : AgreePay) (k : StarEvent) (n e : BitVec 32) (bar holder subj : BitVec 16),
      (portAt s side).up = true → portActive s side = true → isOwn s hd.src = false → hd.hop ≠ 4095 →
      (portAt s (otherSide side)).up = true →
        ∃ t u v w x, exec (.memberReceive side hd m) s = .next t ∧ exec (.claimReceive side hd n e) s = .next u ∧ exec (.agreeReceive side hd a) s = .next v ∧
          exec (.roleReceive side hd e bar holder) s = .next w ∧ exec (.starlingEventReceive side hd k port subj) s = .next x ∧
          starOut (otherSide side) { hd with crcOk := true, eof := frameGood hd, hop := hd.hop + 1 } (.member m) ∈ t.out ∧
          starOut (otherSide side) { hd with crcOk := true, eof := frameGood hd, hop := hd.hop + 1 } (.claim n e) ∈ u.out ∧
          starOut (otherSide side) { hd with crcOk := true, eof := frameGood hd, hop := hd.hop + 1 } (.agree a) ∈ v.out ∧
          starOut (otherSide side) { hd with crcOk := true, eof := frameGood hd, hop := hd.hop + 1 } (.role e bar holder) ∈ w.out ∧
          starOut (otherSide side) { hd with crcOk := true, eof := frameGood hd, hop := hd.hop + 1 } (.event k port subj) ∈ x.out) ∧
  (∀ (s : State) (side port : Side) (hd : FrameHead) (h : Hello) (m : MemberPay) (a : AgreePay) (k : StarEvent) (n e : BitVec 32) (bar holder subj : BitVec 16),
      portActive s side = true → hd.crcOk = false →
        ∃ t y u v w x, exec (.helloReceive side hd h) s = .next y ∧ exec (.memberReceive side hd m) s = .next t ∧ exec (.claimReceive side hd n e) s = .next u ∧ exec (.agreeReceive side hd a) s = .next v ∧
          exec (.roleReceive side hd e bar holder) s = .next w ∧ exec (.starlingEventReceive side hd k port subj) s = .next x ∧
          (portAt y side).crcErr = satInc 32 (portAt s side).crcErr ∧ y.star = { s.star with port := y.star.port } ∧
          (portAt t side).crcErr = satInc 32 (portAt s side).crcErr ∧ t.star = { s.star with port := t.star.port } ∧
          (portAt u side).crcErr = satInc 32 (portAt s side).crcErr ∧ u.star = { s.star with port := u.star.port } ∧
          (portAt v side).crcErr = satInc 32 (portAt s side).crcErr ∧ v.star = { s.star with port := v.star.port } ∧
          (portAt w side).crcErr = satInc 32 (portAt s side).crcErr ∧ w.star = { s.star with port := w.star.port } ∧
          (portAt x side).crcErr = satInc 32 (portAt s side).crcErr ∧ x.star = { s.star with port := x.star.port }) ∧
  (∀ (s : State) (side : Side) (hd : FrameHead) (h : Hello), (portAt s side).up = true → portActive s side = true →
      frameGood hd = true → (hd.hop ≠ 0 ∨ hd.pv ≠ 1) →
        exec (.helloReceive side hd h) s = .next s) ∧
  (∀ (s : State) (side : Side) (hd : FrameHead) (h : Hello), (portAt s side).up = true → portActive s side = true →
      frameGood hd = true → hd.hop = 0 → hd.pv = 1 →
        ∃ t, exec (.helloReceive side hd h) s = .next t ∧ (portAt t side).lost = false ∧
          (portAt t side).neigh = some ⟨hd.src, h.nonce, h.state.toNat, h.bar.toNat, h.pos.toNat, h.offset.toNat, h.hash,
            h.flags.toNat⟩ ∧
          (isOwn s hd.src = false ∨ h.nonce = s.star.nonce → t.star.dupId = s.star.dupId) ∧
          (isOwn s hd.src = false → idNone hd.src = false → ∃ m ∈ t.star.members, m.id = hd.src.toNat % 4096 ∧
            m.state = h.state.toNat ∧ m.bar = h.bar.toNat ∧ m.dup = h.flags.getLsbD 0 ∧ m.lost = false)) ∧
  (∀ (s : State) (side : Side) (hd : FrameHead) (h : Hello), (portAt s side).up = true → portActive s side = true →
      frameGood hd = true → hd.hop = 0 → hd.pv = 1 → isOwn s hd.src = true → h.nonce ≠ s.star.nonce →
        ∃ t, exec (.helloReceive side hd h) s = .next t ∧ t.star.dupId = true ∧ t.star.encMaster = false ∧
          t.star.claiming = false ∧ t.star.granted = false ∧ t.star.groupMaster = false ∧
          (s.star.groupMaster = false → classCount t 0x50 =
            if s.star.dupId then classCount s 0x50 else satInc 32 (classCount s 0x50))) ∧
  (∀ (s : State), (portLive s .west = true ∨ portLive s .east = true) →
        ∃ t, exec .helloTimer s = .next t ∧ t.star = s.star ∧
          t.out = (if portLive s .east then [starOut .east (ownHead s) (.hello (ownHello s.sys.code s))] else []) ++
            (if portLive s .west then [starOut .west (ownHead s) (.hello (ownHello s.sys.code s))] else []) ++ s.out) ∧
  (∀ (s : State), portLive s .west = false → portLive s .east = false →
        exec .helloTimer s = .next s) ∧
  (∀ (s : State) (side : Side) (n : Neigh), (portAt s side).neigh = some n → (portAt s side).lost = false →
      portActive s side = true → hasIdentity s = true →
        ∃ t, exec (.neighbourLost side) s = .next t ∧ (portAt t side) = { portAt s side with lost := true } ∧ portAt t (otherSide side) = portAt s (otherSide side) ∧
          (idNone n.id = false → ∃ m ∈ t.star.members, m.id = n.id.toNat % 4096 ∧ m.lost = true) ∧
          (portLive s side = true → starOut side (ownHead s) (.event .lost side n.id) ∈ t.out)) ∧
  (∀ (s : State) (side : Side) (n : Neigh), (portAt s side).neigh = some n → (portAt s side).lost = false →
      portActive s side = true → hasIdentity s = false →
        exec (.neighbourLost side) s = .next { s with star := { s.star with
          port := vmod s.star.port (sideIx side) fun p => { p with lost := true } } }) ∧
  (∀ (s : State) (m : MemberPay), hasIdentity s = true → m.nonce = s.star.nonce →
      m.state = BitVec.ofNat 4 (stateCode s.sys.code) → m.bar = BitVec.ofNat 12 (ownBar s) →
      m.pos = BitVec.ofNat 8 (s.img.nat Fld.barPos []) →
      m.roles = BitVec.ofNat 8 (bit (s.img.on Fld.masterElig []) + 2 * bit (s.img.on Fld.encElig []) + 16 * s.img.nat Fld.encPrio []) →
      m.hash = hashHead s.img.groupHash →
      (m.lastLine = BitVec.ofNat 48 (if s.spr.anySummary then s.spr.lastLine else Config.value s.freeCtr)) →
      m.wDelay = BitVec.ofNat 16 (portAt s .west).delay → m.eDelay = BitVec.ofNat 16 (portAt s .east).delay →
        ∃ t, exec .memberTimer s = .next t ∧
          t.out = (if portLive s .east then [starOut .east (ownHead s) (.member m)] else []) ++
            (if portLive s .west then [starOut .west (ownHead s) (.member m)] else []) ++ s.out) ∧
  (∀ (s : State), hasIdentity s = false →
        exec .memberTimer s = .next s)

/-- Claims, AGREE and the group master's role; members and events are noted. Where the spec leaves room the clauses follow the model's choices of log entries 32, 33. Basis: derived; cites 12_starling.md, R455, R458 to R462, R464, R465, R474, R475, R477, R482. Says that these complete: claimTimer, claimWon, agreeTimer, roleTimer, agreeTimeout, claimReceive, agreeReceive, memberReceive, starlingEventReceive, dupIdClear. -/
def Obligations.ElectionOfTheGroupMaster : Prop :=
  (∀ (s : State), s.star.claiming = true → mayClaim s = true →
        ∃ t, exec .claimTimer s = .next t ∧ t.star = s.star ∧
          t.out = (if portLive s .east then [starOut .east (ownHead s) (.claim s.star.nonce (BitVec.ofNat 32 (nextEpoch s)))] else []) ++
            (if portLive s .west then [starOut .west (ownHead s) (.claim s.star.nonce (BitVec.ofNat 32 (nextEpoch s)))] else []) ++ s.out) ∧
  (∀ (s : State),
        (s.star.claiming = false ∨ mayClaim s = false → exec .claimTimer s = .next s ∧ exec .claimWon s = .next s) ∧
        (s.star.groupMaster = false ∨ mayHold s = false → exec .agreeTimer s = .next s ∧ exec .roleTimer s = .next s) ∧
        (hasIdentity s = false ∨ s.star.groupMaster = true → exec .agreeTimeout s = .next s) ∧
        (mayClaim s = true ↔ mayHold s = true ∧ s.img.on Fld.masterElig [] = true ∧ s.star.dupId = false ∧
          s.star.groupMaster = false)) ∧
  (∀ (s : State) (side : Side) (hd : FrameHead) (n e : BitVec 32), (portAt s side).up = true →
      portActive s side = true → frameGood hd = true → hd.pv = 1 → idNone hd.src = false → isOwn s hd.src = false →
      hd.src.toNat % 4096 < ownId s → hasIdentity s = true →
        ∃ t, exec (.claimReceive side hd n e) s = .next t ∧ t.star.claiming = false ∧ t.star.groupMaster = false ∧
          t.star.maxEpoch = some (Nat.max e.toNat (s.star.maxEpoch.getD e.toNat))) ∧
  (∀ (s : State) (side : Side) (hd : FrameHead) (n e : BitVec 32), (portAt s side).up = true →
      portActive s side = true → frameGood hd = true → hd.pv = 1 → idNone hd.src = false → isOwn s hd.src = false →
      (ownId s ≤ hd.src.toNat % 4096 ∨ hasIdentity s = false) →
        ∃ t, exec (.claimReceive side hd n e) s = .next t ∧ t.flt = s.flt ∧
          t.star = { s.star with maxEpoch := some (Nat.max e.toNat (s.star.maxEpoch.getD e.toNat)) }) ∧
  (∀ (s : State), s.star.groupMaster = true → mayHold s = true →
        ∃ t, exec .agreeTimer s = .next t ∧ t.star.returned = false ∧ t.star.groupMaster = true ∧
          t.star.detour = s.star.detour ∧
          t.star.epoch = (if s.star.returned = false ∧ s.star.ringN ≠ 0 then (s.star.epoch + 1) % 2 ^ 32 else s.star.epoch) ∧
          t.star.ringN = (if s.star.returned = false then 0 else s.star.ringN) ∧
          (portLive s .east = true → starOut .east (ownHead s) (.agree ⟨s.star.nonce, BitVec.ofNat 32 t.star.epoch, s.img.groupHash, BitVec.ofNat 16 t.star.ringN,
              BitVec.ofNat 16 (t.star.detour.getD (0, 0, 0)).1, BitVec.ofNat 8 (t.star.detour.getD (0, 0, 0)).2.1,
              BitVec.ofNat 16 (t.star.detour.getD (0, 0, 0)).2.2⟩) ∈ t.out) ∧
          (portLive s .west = true → starOut .west (ownHead s) (.agree ⟨s.star.nonce, BitVec.ofNat 32 t.star.epoch, s.img.groupHash, BitVec.ofNat 16 t.star.ringN,
              BitVec.ofNat 16 (t.star.detour.getD (0, 0, 0)).1, BitVec.ofNat 8 (t.star.detour.getD (0, 0, 0)).2.1,
              BitVec.ofNat 16 (t.star.detour.getD (0, 0, 0)).2.2⟩) ∈ t.out)) ∧
  (∀ (s : State) (side : Side) (hd : FrameHead) (a : AgreePay) (x : Agree), (portAt s side).up = true →
      portActive s side = true → frameGood hd = true → hd.pv = 1 → idNone hd.src = false → isOwn s hd.src = false →
      s.star.groupMaster = false →
      x = ⟨hd.src.toNat % 4096, 1, a.epoch.toNat, a.hash, a.ringN.toNat, a.dBar.toNat, a.dDir.toNat, a.dP.toNat, s.now⟩ →
        ∃ t, exec (.agreeReceive side hd a) s = .next t ∧
          t.star.heard = (insertAgree x s.star.heard).filter (fun y => decide (s.now ≤ y.time + ms 5)) ∧
          t.star.heard.head? = some t.star.last ∧ t.star.foreign = decide (t.star.last.hash ≠ s.img.groupHash) ∧
          t.star.maxEpoch = some (Nat.max a.epoch.toNat (s.star.maxEpoch.getD a.epoch.toNat)) ∧
          (hd.src.toNat % 4096 < ownId s → hasIdentity s = true → t.star.claiming = false)) ∧
  (∀ (s : State) (side : Side) (hd : FrameHead) (a : AgreePay), (portAt s side).up = true →
      portActive s side = true → frameGood hd = true → hd.pv = 1 → idNone hd.src = false → isOwn s hd.src = false →
      s.star.groupMaster = true →
        ∃ t, exec (.agreeReceive side hd a) s = .next t ∧
          t.star.groupMaster = !(hd.src.toNat % 4096 < ownId s && hasIdentity s) ∧
          ∃ y ∈ t.star.heard, y.src = hd.src.toNat % 4096 ∧ y.hash = a.hash ∧ y.epoch = a.epoch.toNat ∧ y.time = s.now) ∧
  (∀ (a b : Agree) (l : List Agree), b ∈ l → b.src ≠ a.src →
        a ∈ insertAgree a l ∧ b ∈ insertAgree a l) ∧
  (∀ (a x : Agree) (l : List Agree), (l.Pairwise (fun y z => y.src < z.src)) → (insertAgree a l).head? = some x →
        ∀ y ∈ insertAgree a l, x.src ≤ y.src) ∧
  (∀ (s : State) (side : Side) (hd : FrameHead) (a : AgreePay), (portAt s side).up = true →
      portActive s side = true → frameGood hd = true → hd.pv = 1 → idNone hd.src = false → isOwn s hd.src = true →
      s.star.groupMaster = true → a.nonce = s.star.nonce →
        ∃ t, exec (.agreeReceive side hd a) s = .next t ∧ t.star.ringN = hd.hop.toNat + 1 ∧
          (s.star.ringN = hd.hop.toNat + 1 → t.star.returned = true ∧ t.star.epoch = s.star.epoch) ∧
          (s.star.ringN ≠ hd.hop.toNat + 1 → t.star.epoch = (s.star.epoch + 1) % 2 ^ 32)) ∧
  (∀ (s : State) (side : Side) (hd : FrameHead) (a : AgreePay) (y : Agree), (portAt s side).up = true →
      portActive s side = true → frameGood hd = true → hd.pv ≠ 1 → idNone hd.src = false → isOwn s hd.src = false →
      followed s = some y → hd.src.toNat % 4096 < y.src →
        ∃ t, exec (.agreeReceive side hd a) s = .next t ∧ t.star.pvMismatch = true ∧ t.star.groupMaster = false ∧
          t.star.claiming = false ∧ t.star.granted = false ∧ t.star.encMaster = false ∧
          (∀ l, (portAt t l).passive = true ∨ (portAt t l).want = some true) ∧
          classCount t 0x50 = satInc 32 (classCount s 0x50)) ∧
  (∀ (s : State) (side : Side) (hd : FrameHead) (a : AgreePay), (portAt s side).up = true →
      portActive s side = true → frameGood hd = true → hd.pv ≠ 1 →
      ((followed s).all (fun y => decide (y.src ≤ hd.src.toNat % 4096)) = true) →
        ∃ t, exec (.agreeReceive side hd a) s = .next t ∧ t.star = s.star ∧ t.flt = s.flt) ∧
  (∀ (s : State), hasIdentity s = true → s.star.groupMaster = false →
        ∃ t, exec .agreeTimeout s = .next t ∧ t.star.groupMaster = false ∧
          t.star.heard = (s.star.heard.drop 1).filter (fun a => decide (s.now ≤ a.time + ms 5)) ∧
          t.star.claiming = (s.star.claiming || (t.star.heard.isEmpty && mayClaim s))) ∧
  (∀ (s : State), s.star.claiming = true → mayClaim s = true →
        ∃ t, exec .claimWon s = .next t ∧ t.star.claiming = false ∧ t.star.groupMaster = true ∧ t.star.ringN = 0 ∧
          (s.star.members = [] → s.star.holders = [] → s.star.breaks = [] → isCandidate (ownBar s) (selfMember s) = false →
            t.star.epoch = (nextEpoch s + 1) % 2 ^ 32)) ∧
  (∀ (s : State) (bar h : Nat), holderOf s bar = some (some h) →
      ((allMembers s).any (fun m => isCandidate bar m && m.id == h) = true) →
        grantOf s bar = some h) ∧
  (∀ (s : State) (bar : Nat), (holderOf s bar).getD none = none →
        grantOf s bar = (bestOf ((allMembers s).filter (isCandidate bar))).map (·.id)) ∧
  (∀ (l : List Member) (m x : Member), bestOf l = some m → x ∈ l →
        m ∈ l ∧ preferred x m = false) ∧
  (∀ (s : State) (side : Side) (hd : FrameHead) (m : MemberPay), (portAt s side).up = true →
      portActive s side = true → frameGood hd = true → hd.pv = 1 → idNone hd.src = false → isOwn s hd.src = false →
        ∃ t, exec (.memberReceive side hd m) s = .next t ∧
          (∃ x ∈ t.star.members, x.id = hd.src.toNat % 4096 ∧ x.state = m.state.toNat ∧ x.bar = m.bar.toNat ∧
            x.roles = m.roles.toNat ∧ x.lost = false) ∧
          (s.star.groupMaster = false → s.star.await = .member → m.bar.toNat = ownBar s →
            t.star.bestLast = some (Nat.max m.lastLine.toNat (s.star.bestLast.getD m.lastLine.toNat)))) ∧
  (∀ (s : State) (side : Side) (hd : FrameHead) (m : MemberPay), (portAt s side).up = true →
      portActive s side = true → frameGood hd = true →
      (hd.pv ≠ 1 ∨ idNone hd.src = true ∨ (isOwn s hd.src = true ∧ m.nonce = s.star.nonce)) →
        ∃ t, exec (.memberReceive side hd m) s = .next t ∧ t.star = s.star ∧ t.flt = s.flt) ∧
  (∀ (s : State) (side : Side) (hd : FrameHead) (n e : BitVec 32), (portAt s side).up = true →
      portActive s side = true → frameGood hd = true →
      (hd.pv ≠ 1 ∨ idNone hd.src = true ∨ (isOwn s hd.src = true ∧ n = s.star.nonce)) →
        ∃ t, exec (.claimReceive side hd n e) s = .next t ∧ t.star = s.star ∧ t.flt = s.flt) ∧
  (∀ (s : State) (side : Side) (hd : FrameHead) (port : Side) (subj : BitVec 16), (portAt s side).up = true →
      portActive s side = true → frameGood hd = true → idNone hd.src = false → isOwn s hd.src = false →
        ∃ t u v, exec (.starlingEventReceive side hd .brk port subj) s = .next t ∧
          exec (.starlingEventReceive side hd .heal port subj) s = .next u ∧
          exec (.starlingEventReceive side hd .lost port subj) s = .next v ∧
          (hd.src.toNat % 4096, (sideIx port).val) ∈ t.star.breaks ∧
          u.star.breaks = s.star.breaks.filter (fun x => x != (hd.src.toNat % 4096, (sideIx port).val)) ∧
          (s.star.groupMaster = true → u.star.detour = none) ∧
          (idNone subj = false → ∃ m ∈ v.star.members, m.id = subj.toNat % 4096 ∧ m.lost = true) ∧
          (idNone subj = true → v.star = s.star)) ∧
  (∀ (s : State) (side : Side) (hd : FrameHead) (k : StarEvent) (port : Side) (subj : BitVec 16),
      (portAt s side).up = true → portActive s side = true → frameGood hd = true →
      (idNone hd.src = true ∨ isOwn s hd.src = true) →
        ∃ t, exec (.starlingEventReceive side hd k port subj) s = .next t ∧ t.star = s.star ∧ t.flt = s.flt) ∧
  (∀ (s : State),
        exec .dupIdClear s = .next { s with star := { s.star with dupId := false } })

/-- ROLE starts and ends the encoder master role, ticks are relayed and taken. Where the spec leaves room the clauses follow the model's choices of log entries 8, 32, 33. Basis: derived; cites 12_starling.md, R454, R461 to R464, R466 to R469, R475, R476, R480; 04_line_timing.md, R136. Says that these complete: roleTimer, roleReceive, handoverTimeout, memberLineWait, tickReceive. -/
def Obligations.RolesTicksAndHandover : Prop :=
  (∀ (s : State), s.star.groupMaster = true → mayHold s = true → s.star.holders = [(ownBar s, none)] →
      ((knownBars s).all (fun b => holderOf s b == some (grantOf s b)) = true) →
        ∃ t, exec .roleTimer s = .next t ∧ t.star.epoch = s.star.epoch ∧ t.star.holders = [(ownBar s, none)] ∧
          t.star.handover = s.star.encMaster ∧
          t.out = (if portLive s .east then [starOut .east (ownHead s) (.role (BitVec.ofNat 32 s.star.epoch) (BitVec.ofNat 16 (ownBar s)) (idField none))] else []) ++
            (if portLive s .west then [starOut .west (ownHead s) (.role (BitVec.ofNat 32 s.star.epoch) (BitVec.ofNat 16 (ownBar s)) (idField none))] else []) ++ s.out) ∧
  (∀ (s : State), s.star.groupMaster = true → mayHold s = true →
        ∃ t, exec .roleTimer s = .next t ∧ t.star.groupMaster = true ∧
          (∀ b ∈ knownBars s, holderOf t b = some (grantOf s b)) ∧
          ((∃ b ∈ knownBars s, holderOf s b ≠ some (grantOf s b)) → t.star.epoch = (s.star.epoch + 1) % 2 ^ 32)) ∧
  (∀ (s : State) (side : Side) (hd : FrameHead) (e : BitVec 32) (bar holder : BitVec 16) (a : Agree),
      (portAt s side).up = true → portActive s side = true → frameGood hd = true → hd.pv = 1 →
      idNone hd.src = false → isOwn s hd.src = false → followed s = some a → a.src = hd.src.toNat % 4096 →
      bar.toNat % 4096 = ownBar s → mayHold s = true → idNone holder = false → holder.toNat % 4096 = ownId s →
      s.star.encMaster = false → s.star.granted = false → s.star.dupId = false →
        ∃ t, exec (.roleReceive side hd e bar holder) s = .next t ∧
          t.star = { s.star with
            maxEpoch := some (Nat.max e.toNat (s.star.maxEpoch.getD e.toNat))
            holders := t.star.holders
            holder := some (ownId s)
            granted := true
            await := .tick
            bestLast := none } ∧
          t.star.holders = s.star.holders.filter (fun x => x.1 != bar.toNat % 4096) ++ [(bar.toNat % 4096, (if idNone holder then none else some (holder.toNat % 4096)))] ∧ t.lt = s.lt) ∧
  (∀ (s : State) (side : Side) (hd : FrameHead) (e : BitVec 32) (bar holder : BitVec 16) (a : Agree),
      (portAt s side).up = true → portActive s side = true → frameGood hd = true → hd.pv = 1 →
      idNone hd.src = false → isOwn s hd.src = false → followed s = some a → a.src = hd.src.toNat % 4096 →
      bar.toNat % 4096 = ownBar s → mayHold s = true → idNone holder = false → holder.toNat % 4096 = ownId s →
      (s.star.encMaster = true ∨ s.star.granted = true ∨ s.star.dupId = true) →
        ∃ t, exec (.roleReceive side hd e bar holder) s = .next t ∧ t.star.handover = false ∧ t.star.granted = s.star.granted ∧
          t.star.encMaster = s.star.encMaster ∧ t.star.holder = some (ownId s) ∧ t.star.holders = s.star.holders.filter (fun x => x.1 != bar.toNat % 4096) ++ [(bar.toNat % 4096, (if idNone holder then none else some (holder.toNat % 4096)))] ∧ t.lt = s.lt) ∧
  (∀ (s : State) (side : Side) (hd : FrameHead) (e : BitVec 32) (bar holder : BitVec 16) (a : Agree),
      (portAt s side).up = true → portActive s side = true → frameGood hd = true → hd.pv = 1 →
      idNone hd.src = false → isOwn s hd.src = false → followed s = some a → a.src = hd.src.toNat % 4096 →
      bar.toNat % 4096 = ownBar s → mayHold s = true → (idNone holder = true ∨ holder.toNat % 4096 ≠ ownId s) →
        ∃ t, exec (.roleReceive side hd e bar holder) s = .next t ∧ t.star.granted = false ∧ t.star.await = .none ∧
          t.star.holder = (if idNone holder then none else some (holder.toNat % 4096)) ∧ t.star.handover = s.star.encMaster ∧
          t.star.encMaster = s.star.encMaster ∧ t.star.holders = s.star.holders.filter (fun x => x.1 != bar.toNat % 4096) ++ [(bar.toNat % 4096, (if idNone holder then none else some (holder.toNat % 4096)))] ∧ t.lt = s.lt) ∧
  (∀ (s : State) (side : Side) (hd : FrameHead) (e : BitVec 32) (bar holder : BitVec 16) (a : Agree),
      (portAt s side).up = true → portActive s side = true → frameGood hd = true → hd.pv = 1 →
      idNone hd.src = false → isOwn s hd.src = false → followed s = some a → a.src = hd.src.toNat % 4096 →
      (bar.toNat % 4096 ≠ ownBar s ∨ mayHold s = false) →
        ∃ t, exec (.roleReceive side hd e bar holder) s = .next t ∧
          t.star = { s.star with
            maxEpoch := some (Nat.max e.toNat (s.star.maxEpoch.getD e.toNat)), holders := t.star.holders } ∧
          t.star.holders = s.star.holders.filter (fun x => x.1 != bar.toNat % 4096) ++ [(bar.toNat % 4096, (if idNone holder then none else some (holder.toNat % 4096)))] ∧ t.lt = s.lt) ∧
  (∀ (s : State) (side : Side) (hd : FrameHead) (e : BitVec 32) (bar holder : BitVec 16), (portAt s side).up = true →
      portActive s side = true → frameGood hd = true → hd.pv = 1 → idNone hd.src = false → isOwn s hd.src = false →
      ((followed s).all (fun a => a.src != hd.src.toNat % 4096) = true) →
        ∃ t, exec (.roleReceive side hd e bar holder) s = .next t ∧
          t.star = { s.star with maxEpoch := some (Nat.max e.toNat (s.star.maxEpoch.getD e.toNat)) } ∧ t.lt = s.lt) ∧
  (∀ (s : State) (side : Side) (hd : FrameHead) (e : BitVec 32) (bar holder : BitVec 16), (portAt s side).up = true →
      portActive s side = true → frameGood hd = true → (hd.pv ≠ 1 ∨ idNone hd.src = true ∨ isOwn s hd.src = true) →
        ∃ t, exec (.roleReceive side hd e bar holder) s = .next t ∧ t.star = s.star ∧ t.lt = s.lt) ∧
  (∀ (s : State) (n : Nat), s.star.granted = true → s.star.await = .tick → s.star.lastTick = some n →
        ∃ t, exec .handoverTimeout s = .next t ∧ t.star.startLine = some (lineAdd n 1) ∧ t.star.encMaster = true ∧ t.star.granted = false ∧ t.star.await = .none ∧ t.star.handover = false ∧
          t.star.hop = 0 ∧ t.lt = { s.lt with acc := 0, deficit := 0, request := none, clampDefer := false, drainDefer := false }) ∧
  (∀ (s : State), s.star.granted = true → s.star.await = .tick → s.star.lastTick = none →
        exec .handoverTimeout s = .next { s with star := { s.star with await := .member, bestLast := none } }) ∧
  (∀ (s : State), s.star.granted = true → s.star.await = .member →
        ∃ t, exec .memberLineWait s = .next t ∧
          t.star.startLine = (match s.star.bestLast with | some n => some (lineAdd n 1) | none => some 0) ∧ t.star.encMaster = true ∧ t.star.granted = false ∧ t.star.await = .none ∧ t.star.handover = false ∧
          t.star.hop = 0 ∧ t.lt = { s.lt with acc := 0, deficit := 0, request := none, clampDefer := false, drainDefer := false }) ∧
  (∀ (s : State),
        (s.star.granted = false ∨ s.star.await ≠ .tick → exec .handoverTimeout s = .next s) ∧
        (s.star.granted = false ∨ s.star.await ≠ .member → exec .memberLineWait s = .next s)) ∧
  (∀ (s : State) (side : Side) (t : TickFrame), (portAt s side).up = true → portActive s side = false →
      (portAt s (otherSide side)).up = true →
        ∃ u x, exec (.tickReceive side t) s = .next u ∧ u.out = tickOn (otherSide side) x :: s.out ∧ x.hop = t.hop + 1 ∧ x.line = t.line ∧ x.bar = t.bar ∧ x.eof = (t.crcOk && t.eof) ∧ x.merge = t.merge ∧
          x.deferred = t.deferred ∧ x.encz = t.encz ∧ x.handover = t.handover ∧ x.pv = t.pv ∧
          x.detour = t.detour ∧ satInt 24 (t.excess + (portAt s side).relayDelay - 11) ≤ x.excess ∧
          x.excess ≤ satInt 24 (t.excess + (portAt s side).relayDelay - 9) ∧ u.lt = s.lt ∧ u.star = s.star) ∧
  (∀ (s : State) (side : Side) (t : TickFrame) (d : Bool), (portAt s side).up = true → portActive s side = true →
      tickOut side t s = some d → (portAt s (otherSide side)).up = true →
        ∃ u x, exec (.tickReceive side t) s = .next u ∧ u.out = tickOn (otherSide side) x :: s.out ∧ x.hop = t.hop + 1 ∧ x.line = t.line ∧ x.bar = t.bar ∧ x.eof = (t.crcOk && t.eof) ∧ x.merge = t.merge ∧
          x.deferred = t.deferred ∧ x.encz = t.encz ∧ x.handover = t.handover ∧ x.pv = t.pv ∧
          x.detour = d ∧ satInt 24 (t.excess + (portAt s side).delay - 96) ≤ x.excess) ∧
  (∀ (s : State) (side : Side) (t : TickFrame),
        tickOut side t s = if (s.star.encMaster = true ∧ t.bar.toNat = ownBar s) ∨ t.hop = 4095 then none
          else if t.detour then some true
          else if neighOfBar s (otherSide side) t.bar.toNat then some false
          else if mayHold s = true ∧ t.bar.toNat = ownBar s ∧ detourSide s t.bar.toNat = some (otherSide side) then some true
          else none) ∧
  (∀ (s : State) (side : Side) (t : TickFrame), (portAt s side).up = true → t.crcOk = true →
      portActive s side = true → tickOut side t s = none → t.eof = true → t.bar.toNat = ownBar s → mayHold s = true →
      s.star.encMaster = false → ((lastTaken s).all (fun n => linePast t.line.toNat n && t.line.toNat != n) = true) →
      (t.handover = false ∨ s.star.granted = false) → t.detour = false →
        ∃ u, exec (.tickReceive side t) s = .next u ∧
          u.lt = { s.lt with
            ticks := s.lt.ticks ++ [⟨t.line.toNat, t.deferred, t.encz, t.merge.toNat, t.hop.toNat + 1,
              ((10 * s.now + max 0 (-t.excess) + 9) / 10).toNat⟩]
            drainDefer := s.lt.drain } ∧
          u.star = { s.star with
            hop := t.hop.toNat + 1
            lastTick := if s.star.lastTick.all (fun n => linePast t.line.toNat n) then some t.line.toNat
              else s.star.lastTick } ∧
          u.out = s.out) ∧
  (∀ (s : State) (side : Side) (t : TickFrame), (portAt s side).up = true → t.crcOk = true →
      portActive s side = true → tickOut side t s = none → t.eof = true → t.bar.toNat = ownBar s → mayHold s = true →
      s.star.encMaster = false → ((lastTaken s).all (fun n => linePast t.line.toNat n && t.line.toNat != n) = true) →
      t.handover = true → s.star.granted = true →
        ∃ u, exec (.tickReceive side t) s = .next u ∧ u.star.encMaster = true ∧ u.star.granted = false ∧ u.star.hop = 0 ∧
          u.star.startLine = some (lineAdd t.line.toNat 1) ∧ u.lt.ticks.map (·.line) = s.lt.ticks.map (·.line) ++ [t.line.toNat]) ∧
  (∀ (s : State) (side : Side) (t : TickFrame) (n : Nat), (portAt s side).up = true → t.crcOk = true →
      portActive s side = true → tickOut side t s = none → (s.star.encMaster = true ∨ lastTaken s = some n) →
      (lastTaken s = some n → linePast t.line.toNat n = false ∨ t.line.toNat = n) →
        ∃ u, exec (.tickReceive side t) s = .next u ∧ u.lt = s.lt ∧ u.out = s.out ∧ u.star = { s.star with lastTick := u.star.lastTick }) ∧
  (∀ (s : State) (side : Side) (t : TickFrame), (portAt s side).up = true → t.crcOk = true →
      portActive s side = true → tickOut side t s = none →
      (t.eof = false ∨ t.bar.toNat ≠ ownBar s ∨ mayHold s = false) →
        exec (.tickReceive side t) s = .next s) ∧
  (∀ (s : State) (side : Side) (t : TickFrame), (portAt s side).up = true → t.crcOk = false →
      portActive s side = true →
        ∃ u, exec (.tickReceive side t) s = .next u ∧ (portAt u side).crcErr = satInc 32 (portAt s side).crcErr ∧ u.lt = s.lt ∧
          u.star = { s.star with port := u.star.port }) ∧
  (∀ (s : State) (side : Side) (t : TickFrame), (portAt s side).up = false →
      (t.crcOk = true ∨ portActive s side = false) →
        exec (.tickReceive side t) s = .next s)

/-- Conversions are written and consumed; rails, sensors and the reference are judged. Where the spec leaves room the clauses follow the model's choices of log entries 8, 34, 35. Basis: derived; cites 13_housekeeping_converter.md, R488, R494, R497 to R506, R517 to R522; 03_promises.md, Tables 3.1, 3.2; 18_power_resets_states.md, R672, Table 18.7. Says that these complete: scanConversion, hkcResultConsume, railOutOfWindow, sensorExclude, refCheckFail, refSettled, injectRequest, injectedResult, sleepScan. -/
def Obligations.ScanChecksReferenceAndInjection : Prop :=
  (∀ (s : State) (raw : Int) (n : Nat), s.hkc.scanOn = true → s.hkc.roleP ≠ 3 → s.hkc.refEn = true →
      nextEnabled s.hkc.scanMask (31 - s.hkc.nextChan) (s.hkc.nextChan + 1) = some n →
        exec (.scanConversion raw) s = .next { s with hkc := { s.hkc with
          data := ⟨hkcResult (sliceAt s s.hkc.roleP) (isDiff s s.hkc.nextChan) raw, s.hkc.nextChan, false,
            !refReady s, s.hkc.data.valid, s.hkc.roleP, true⟩
          ovr := (if s.hkc.data.valid then satInc 32 s.hkc.ovr else s.hkc.ovr)
          nextChan := n } }) ∧
  (∀ (s : State) (raw : Int), s.hkc.scanOn = true → s.hkc.roleP ≠ 3 → s.hkc.refEn = true →
      nextEnabled s.hkc.scanMask (31 - s.hkc.nextChan) (s.hkc.nextChan + 1) = none →
        exec (.scanConversion raw) s = .next { s with hkc := { s.hkc with
          data := ⟨hkcResult (sliceAt s s.hkc.roleP) (isDiff s s.hkc.nextChan) raw, s.hkc.nextChan, false,
            !refReady s, s.hkc.data.valid, s.hkc.roleP, true⟩
          ovr := (if s.hkc.data.valid then satInc 32 s.hkc.ovr else s.hkc.ovr)
          passCount := satInc 32 s.hkc.passCount
          passMax := Nat.min (Nat.max s.hkc.passMax (5 * (s.now - s.hkc.passStart))) (2 ^ 24 - 1)
          passStart := s.now
          nextChan := firstChan s.hkc.scanMask } }) ∧
  (∀ (s : State) (raw : Int), (s.hkc.scanOn = false ∨ s.hkc.roleP = 3 ∨ s.hkc.refEn = false) →
        exec (.scanConversion raw) s = .next s) ∧
  (∀ (x : Slice) (raw : Int) (diff : Bool), x.offset = 0 → x.gain = 0 →
        hkcResult x diff raw = if diff then clampInt (-2048) 2047 raw else clampInt 0 4095 raw) ∧
  (∀ (s : State), (s.hkc.data.valid = false ∨ s.sys.supResetting = true ∨ s.sys.supHalted = true) →
        exec .hkcResultConsume s = .next s) ∧
  (∀ (s : State), s.hkc.data.valid = true → s.sys.supResetting = false → s.sys.supHalted = false →
      (s.hkc.data.chan < 12 ∨ 27 < s.hkc.data.chan ∨ (s.hkc.data.inj = true ∧ 20 < s.hkc.data.chan)) →
        ∃ t, exec .hkcResultConsume s = .next t ∧ t.hkc = { s.hkc with data := { s.hkc.data with valid := false } } ∧ t.flt = s.flt ∧ t.log = s.log) ∧
  (∀ (s : State) (i : Fin 8), s.hkc.data.valid = true → s.sys.supResetting = false → s.sys.supHalted = false →
      s.hkc.data.chan = 13 + i.val → (s.hkc.data.unsettled = true ∨ railOn i s = false) →
        ∃ t, exec .hkcResultConsume s = .next t ∧ t.hkc.data = { s.hkc.data with valid := false } ∧
          t.hkc.rail = vmod s.hkc.rail i (fun r => { r with mv := t.hkc.rail[i].mv }) ∧ t.flt = s.flt) ∧
  (∀ (s : State) (i : Fin 8), s.hkc.data.valid = true → s.sys.supResetting = false → s.sys.supHalted = false →
      s.hkc.data.chan = 13 + i.val → s.hkc.data.unsettled = false → railOn i s = true →
      (2 * s.hkc.data.result.toNat * vref s ≤ s.img.nat Fld.railLo [i.val] * 4096 ∨ s.img.nat Fld.railHi [i.val] * 4096 ≤ 2 * s.hkc.data.result.toNat * vref s) →
        ∃ t, exec .hkcResultConsume s = .next t ∧ t.hkc.data = { s.hkc.data with valid := false } ∧ t.flt = s.flt ∧
          t.hkc.rail = vmod s.hkc.rail i (fun r => { r with
            mv := t.hkc.rail[i].mv, outRun := satInc 5 r.outRun, inRun := 0 }) ∧
          (t.hkc.rail[i].mv = 2 * s.hkc.data.result.toNat * vref s / 4096 ∨ t.hkc.rail[i].mv = 2 * s.hkc.data.result.toNat * vref s / 4096 + 1)) ∧
  (∀ (s : State) (i : Fin 8), s.hkc.data.valid = true → s.sys.supResetting = false → s.sys.supHalted = false →
      s.hkc.data.chan = 13 + i.val → s.hkc.data.unsettled = false → railOn i s = true →
      s.img.nat Fld.railLo [i.val] * 4096 < 2 * s.hkc.data.result.toNat * vref s →
      2 * s.hkc.data.result.toNat * vref s < s.img.nat Fld.railHi [i.val] * 4096 →
        ∃ t, exec .hkcResultConsume s = .next t ∧ t.hkc.rail[i].outRun = 0 ∧ t.hkc.rail[i].inRun = satInc 5 s.hkc.rail[i].inRun ∧
          t.hkc.rail[i].out = (s.hkc.rail[i].out && !decide (16 ≤ satInc 5 s.hkc.rail[i].inRun)) ∧
          (s.hkc.rail[i].out = true → 16 ≤ satInc 5 s.hkc.rail[i].inRun → faultCode 0x31 i.val ∉ t.flt.standing) ∧
          (∀ j : Fin 8, j ≠ i → t.hkc.rail[j] = s.hkc.rail[j]) ∧ t.flt.classCount = s.flt.classCount) ∧
  (∀ (s : State) (i : Fin 8),
        railOn i s = match i.val with
          | 1 | 2 => !inState [.boot, .sleep, .safe] s
          | 3 | 4 => !inState [.sleep, .safe] s
          | 6 => !inState [.sleep] s
          | _ => true) ∧
  (∀ (s : State), s.hkc.data.valid = true → s.sys.supResetting = false → s.sys.supHalted = false →
      s.hkc.data.chan = 12 →
        ∃ t, exec .hkcResultConsume s = .next t ∧ t.hkc.refch = s.hkc.data.result.toNat ∧ t.hkc.data = { s.hkc.data with valid := false } ∧
          (s.hkc.settled = false → t.hkc = { s.hkc with data := { s.hkc.data with valid := false }, refch := s.hkc.data.result.toNat }) ∧
          (s.hkc.settled = true → s.img.nat Fld.refchTol [] * vref s ≤ (((s.hkc.data.result.toNat * vref s : Nat) : Int) - 1200 * 4096).natAbs →
            t.hkc.refOutRun = satInc 5 s.hkc.refOutRun ∧ t.hkc.refInRun = 0 ∧ t.hkc.refFail = s.hkc.refFail) ∧
          (s.hkc.settled = true → (((s.hkc.data.result.toNat * vref s : Nat) : Int) - 1200 * 4096).natAbs < s.img.nat Fld.refchTol [] * vref s →
            t.hkc.refOutRun = 0 ∧ t.hkc.refInRun = satInc 5 s.hkc.refInRun ∧
            t.hkc.refFail = (s.hkc.refFail && !decide (16 ≤ satInc 5 s.hkc.refInRun)))) ∧
  (∀ (s : State), s.hkc.data.valid = true → s.sys.supResetting = false → s.sys.supHalted = false →
      s.hkc.data.chan = 27 → s.hkc.data.inj = false →
        ∃ t, exec .hkcResultConsume s = .next t ∧ t.flt = s.flt ∧ t.hkc = { s.hkc with
          data := { s.hkc.data with valid := false }
          gndRun := if s.img.nat Fld.gndTol [] < s.hkc.data.result.natAbs then satInc 5 s.hkc.gndRun else 0 }) ∧
  (∀ (s : State) (j : Fin 6), s.hkc.data.valid = true → s.sys.supResetting = false → s.sys.supHalted = false →
      s.hkc.data.chan = 21 + j.val → s.hkc.data.inj = false →
        ∃ t, exec .hkcResultConsume s = .next t ∧ t.hkc.temp[j].seen = true ∧ t.hkc.temp[j].excluded = s.hkc.temp[j].excluded ∧
          (t.hkc.temp[j].value = (5 * s.hkc.data.result.toNat * vref s - 11188224) / 2560 ∨
            t.hkc.temp[j].value = (5 * s.hkc.data.result.toNat * vref s - 11188224) / 2560 + 1) ∧
          (∀ k : Fin 6, k ≠ j → t.hkc.temp[k] = s.hkc.temp[k]) ∧ t.hkc.stack = stackTemp t ∧
          t.hkc.temp[j].devRun = (if (∀ k : Fin 6, t.hkc.temp[k].seen = true) ∧
            128 < (t.hkc.temp[j].value - medianOthers t j).natAbs then satInc 5 s.hkc.temp[j].devRun else 0)) ∧
  (∀ (s : State), s.hkc.data.valid = true → s.sys.supResetting = false → s.sys.supHalted = false →
      s.hkc.data.chan = 26 → s.hkc.data.inj = false →
        ∃ t, exec .hkcResultConsume s = .next t ∧ t.sys.tripRun = (if 95 * 16 ≤ t.hkc.stack then satInc 3 s.sys.tripRun else 0) ∧
          (s.sys.warned = false → t.sys.warned = decide (80 * 16 ≤ t.hkc.stack)) ∧
          (s.sys.warned = false → 80 * 16 ≤ t.hkc.stack → classCount t 0x80 = satInc 32 (classCount s 0x80)) ∧
          (s.sys.warned = true → t.sys.warned = decide (77 * 16 ≤ t.hkc.stack) ∧ t.flt.classCount = s.flt.classCount) ∧
          (s.sys.ratedOver = false → t.sys.ratedOver = decide (55 * 16 < t.hkc.stack)) ∧
          (s.sys.ratedOver = true → t.sys.ratedOver = decide (53 * 16 < t.hkc.stack))) ∧
  (∀ (s : State) (i : Fin 8), 16 ≤ s.hkc.rail[i].outRun → s.hkc.rail[i].out = false →
        ∃ t, exec (.railOutOfWindow i) s = .next t ∧
          t.hkc = { s.hkc with rail := vmod s.hkc.rail i fun r => { r with out := true } } ∧
          classCount t 0x31 = satInc 32 (classCount s 0x31) ∧ faultCode 0x31 i.val ∈ t.flt.standing) ∧
  (∀ (s : State) (j : Fin 6), 16 ≤ s.hkc.temp[j].devRun → s.hkc.temp[j].excluded = false →
        ∃ t, exec (.sensorExclude j) s = .next t ∧
          t.hkc = { s.hkc with
            temp := vmod s.hkc.temp j fun x => { x with excluded := true }
            stack := stackTemp t } ∧
          classCount t 0x32 = satInc 32 (classCount s 0x32)) ∧
  (∀ (s : State), 16 ≤ s.hkc.refOutRun → s.hkc.refFail = false →
        ∃ t, exec .refCheckFail s = .next t ∧ t.hkc = { s.hkc with refFail := true, refInRun := 0 } ∧ refReady t = false ∧
          classCount t 0x30 = satInc 32 (classCount s 0x30) ∧
          (s.hkc.integEn = true → ∀ l ∈ t.spr.lines, l.line = s.lt.line → l.refUnsettled = true)) ∧
  (∀ (s : State), s.hkc.refEn = true →
        exec .refSettled s = .next { s with hkc := { s.hkc with settled := true } }) ∧
  (∀ (s : State) (i : Fin 8) (j : Fin 6) (codes : List Int) (raw : Int),
        (s.hkc.rail[i].outRun < 16 ∨ s.hkc.rail[i].out = true → exec (.railOutOfWindow i) s = .next s) ∧
        (s.hkc.temp[j].devRun < 16 ∨ s.hkc.temp[j].excluded = true → exec (.sensorExclude j) s = .next s) ∧
        (s.hkc.refOutRun < 16 ∨ s.hkc.refFail = true → exec .refCheckFail s = .next s) ∧
        (s.hkc.refEn = false → exec .refSettled s = .next s) ∧
        (s.lt.injWait = false → exec (.injectRequest .line) s = .next s) ∧
        (s.hkc.pinReq = false → exec (.injectRequest .pin) s = .next s) ∧
        (s.hkc.injPending = none ∨ s.hkc.scanOn = false ∨ s.hkc.roleP = 3 → exec (.injectedResult raw) s = .next s) ∧
        (s.hkc.sleepScan = false → exec (.sleepScan codes) s = .next s)) ∧
  (∀ (s : State), s.lt.injWait = true →
        exec (.injectRequest .line) s = .next { s with
          lt := { s.lt with injWait := false }
          hkc := if s.hkc.injPending.isSome then { s.hkc with injDrop := satInc 32 s.hkc.injDrop }
            else { s.hkc with injPending := some (s.lt.line % 256) } }) ∧
  (∀ (s : State), s.hkc.pinReq = true →
        exec (.injectRequest .pin) s = .next { s with hkc :=
          (if s.hkc.injPending.isSome = true ∨ Option.any (fun x => decide (s.now < x + us 10)) s.hkc.injPinAt = true then
            { s.hkc with pinReq := false, injDrop := satInc 32 s.hkc.injDrop }
          else { s.hkc with pinReq := false, injPending := some (s.lt.line % 256), injPinAt := some s.now }) }) ∧
  (∀ (s : State) (raw : Int) (n : Nat), s.hkc.injPending = some n → s.hkc.scanOn = true → s.hkc.roleP ≠ 3 →
        ∃ t, exec (.injectedResult raw) s = .next t ∧ t.hkc.injPending = none ∧ t.hkc.injLine = n ∧
          t.hkc.injChan = s.img.nat Fld.injCh [] ∧
          t.hkc.injResult = hkcResult (sliceAt s s.hkc.roleP) (isDiff s (s.img.nat Fld.injCh [])) raw ∧
          t.hkc.data = { s.hkc.data with
            result := t.hkc.injResult
            chan := t.hkc.injChan
            inj := true
            unsettled := !refReady s
            ovr := s.hkc.data.valid
            slice := s.hkc.roleP
            valid := true } ∧ t.hkc.nextChan = s.hkc.nextChan ∧ t.hkc.ovr = (if s.hkc.data.valid then satInc 32 s.hkc.ovr else s.hkc.ovr)) ∧
  (∀ (s : State) (codes : List Int), s.hkc.sleepScan = true → codes.length = 6 →
        ∃ t, exec (.sleepScan codes) s = .next t ∧ (∀ j : Fin 6, t.hkc.temp[j].seen = true) ∧
          t.sys.tripRun = (if 95 * 16 ≤ t.hkc.stack then 4 else 0) ∧ t.hkc.data = s.hkc.data ∧ t.flt = s.flt)

/-- Slices calibrate, rotate and leave service; the integrator measures and judges a slot. Where the spec leaves room the clauses follow the model's choices of log entry 35. Basis: derived; cites 13_housekeeping_converter.md, R485 to R491, R507 to R514, R524, Tables 13.1, 13.2; 03_promises.md, Table 3.1. Says that these complete: calibrationDone, rotationTick, sliceRoleRotate, groundCheckFail, integWindowOpen, integWindowClose, integOutOfWindow, integSaturated. -/
def Obligations.SlicesAndStrobeIntegrator : Prop :=
  (∀ (s : State) (c : CalRes), (reinitBusy .hkc s = true ∨ s.hkc.sleepScan = true ∨ s.hkc.refEn = false) →
        exec (.calibrationDone c) s = .next s) ∧
  (∀ (s : State) (c : CalRes), reinitBusy .hkc s = false → s.hkc.sleepScan = false → s.hkc.refEn = true →
      s.hkc.calDone < 2 → calPasses c = true →
        exec (.calibrationDone c) s = .next { s with hkc := { s.hkc with
          calDone := s.hkc.calDone + 1
          calPass := satInc 32 s.hkc.calPass
          slice := vmod s.hkc.slice (Fin.ofNat 3 s.hkc.calDone) fun _ => ⟨c.offTrim, c.gainTrim, c.skewTrim, true, true⟩ } }) ∧
  (∀ (s : State) (c : CalRes), reinitBusy .hkc s = false → s.hkc.sleepScan = false → s.hkc.refEn = true →
      s.hkc.calDone < 2 → calPasses c = false →
        exec (.calibrationDone c) s = .next (onHkc (fun h => { h with calDone := s.hkc.calDone + 1 })
          (leaveService s.hkc.calDone { s with hkc := { s.hkc with calFail := satInc 32 s.hkc.calFail } }))) ∧
  (∀ (s : State) (c : CalRes), reinitBusy .hkc s = false → s.hkc.sleepScan = false → s.hkc.refEn = true →
      s.hkc.calDone = 2 →
        ∃ t, exec (.calibrationDone c) s = .next t ∧ t.hkc.calDone = 3 ∧ t.hkc.scanOn = true ∧
          t.hkc.nextChan = firstChan s.hkc.scanMask ∧ t.hkc.passStart = s.now ∧ t.hkc.gndRun = 0 ∧
          (sliceAt t 2).inService = calPasses c ∧
          (t.hkc.roleP, t.hkc.roleQ, t.hkc.roleC) = (match inService t with
            | [0, 1, 2] => (0, 1, 2)
            | [a, b] => (a, 3, b)
            | [a] => (a, 3, 3)
            | _ => (3, 3, 3)) ∧
          (calPasses c = true → t.hkc.calPass = satInc 32 s.hkc.calPass ∧ t.hkc.calFail = s.hkc.calFail ∧
            t.flt = s.flt ∧ ((sliceAt t 2).offset, (sliceAt t 2).gain, (sliceAt t 2).skew) = (c.offTrim, c.gainTrim, c.skewTrim)) ∧
          (calPasses c = false → t.hkc.calFail = satInc 32 s.hkc.calFail ∧ t.hkc.calPass = s.hkc.calPass ∧
            classCount t 0x30 = satInc 32 (classCount s 0x30))) ∧
  (∀ (s : State) (c : CalRes) (k : Nat), reinitBusy .hkc s = false → s.hkc.sleepScan = false → s.hkc.refEn = true →
      3 ≤ s.hkc.calDone → (k = if s.hkc.roleC = 3 then s.hkc.roleP else s.hkc.roleC) →
      (k = 3 ∨ (s.hkc.roleC ≠ 3 ∧ (sliceAt s k).calibrated = true)) →
        exec (.calibrationDone c) s = .next s) ∧
  (∀ (s : State) (c : CalRes) (k : Nat), reinitBusy .hkc s = false → s.hkc.sleepScan = false → s.hkc.refEn = true →
      3 ≤ s.hkc.calDone → (k = if s.hkc.roleC = 3 then s.hkc.roleP else s.hkc.roleC) → k ≠ 3 →
      (s.hkc.roleC = 3 ∨ (sliceAt s k).calibrated = false) → calPasses c = true →
        exec (.calibrationDone c) s = .next { s with hkc := { s.hkc with
          calPass := satInc 32 s.hkc.calPass
          slice := vmod s.hkc.slice (Fin.ofNat 3 k) fun _ => ⟨c.offTrim, c.gainTrim, c.skewTrim, true, true⟩ } }) ∧
  (∀ (s : State) (c : CalRes) (k : Nat), reinitBusy .hkc s = false → s.hkc.sleepScan = false → s.hkc.refEn = true →
      3 ≤ s.hkc.calDone → (k = if s.hkc.roleC = 3 then s.hkc.roleP else s.hkc.roleC) → k ≠ 3 →
      (s.hkc.roleC = 3 ∨ (sliceAt s k).calibrated = false) → calPasses c = false →
        exec (.calibrationDone c) s = .next (leaveService k
          { s with hkc := { s.hkc with calFail := satInc 32 s.hkc.calFail } })) ∧
  (∀ (c : CalRes),
        calPasses c = true ↔ (c.finished = true ∧ c.offRes.natAbs ≤ 32 ∧ c.gainRes.natAbs ≤ 100 ∧ c.skewRes.natAbs ≤ 50 ∧
          c.offTrim.natAbs < 128 ∧ c.gainTrim.natAbs < 120 ∧ c.skewTrim.natAbs < 100)) ∧
  (∀ (s : State) (k : Fin 3),
        (leaveService k.val s).hkc.slice[k].inService = false ∧ (leaveService k.val s).hkc.slice[k].calibrated = false ∧
          ((leaveService k.val s).hkc.roleP, (leaveService k.val s).hkc.roleQ, (leaveService k.val s).hkc.roleC) =
            (if s.hkc.roleP = k.val then (s.hkc.roleC, 3, s.hkc.roleQ)
            else if s.hkc.roleC = k.val then (s.hkc.roleP, 3, s.hkc.roleQ)
            else if s.hkc.roleQ = k.val then (s.hkc.roleP, 3, s.hkc.roleC)
            else (s.hkc.roleP, s.hkc.roleQ, s.hkc.roleC)) ∧
          classCount (leaveService k.val s) 0x30 = satInc 32 (classCount s 0x30) ∧
          classCount (leaveService k.val s) 0x03 =
            (if slicesLeft s = 2 then satInc 32 (classCount s 0x03) else classCount s 0x03) ∧
          (slicesLeft s = 2 → (leaveService k.val s).hkc.oneSlice = true ∧ (leaveService k.val s).hkc.integOn = false ∧
            (leaveService k.val s).hkc.window = none ∧ 0x0380 ∈ (leaveService k.val s).flt.standing) ∧
          (slicesLeft s ≠ 2 → (leaveService k.val s).hkc.oneSlice = s.hkc.oneSlice ∧
            (leaveService k.val s).hkc.integOn = s.hkc.integOn ∧ (leaveService k.val s).hkc.window = s.hkc.window)) ∧
  (∀ (s : State), s.hkc.scanOn = true → s.hkc.roleC ≠ 3 →
        exec .rotationTick s = .next { s with hkc := { s.hkc with rotDue := true } }) ∧
  (∀ (s : State), (s.hkc.scanOn = false ∨ s.hkc.roleC = 3) →
        exec .rotationTick s = .next s) ∧
  (∀ (s : State), (s.hkc.rotDue = false ∨ s.hkc.window.isSome = true) →
        exec .sliceRoleRotate s = .next s) ∧
  (∀ (s : State), s.hkc.rotDue = true → s.hkc.window = none → s.hkc.roleC = 3 →
        exec .sliceRoleRotate s = .next { s with hkc := { s.hkc with rotDue := false } }) ∧
  (∀ (s : State), s.hkc.rotDue = true → s.hkc.window = none → s.hkc.roleC ≠ 3 →
      (sliceAt s s.hkc.roleC).calibrated = true →
        exec .sliceRoleRotate s = .next { s with hkc := { s.hkc with
          rotDue := false
          roleP := if s.hkc.roleQ = 3 then s.hkc.roleC else s.hkc.roleQ
          roleQ := if s.hkc.roleQ = 3 then 3 else s.hkc.roleC
          roleC := s.hkc.roleP
          gndRun := 0
          slice := vmod s.hkc.slice (Fin.ofNat 3 s.hkc.roleP) fun x => { x with calibrated := false } } }) ∧
  (∀ (s : State), s.hkc.rotDue = true → s.hkc.window = none → s.hkc.roleC ≠ 3 →
      (sliceAt s s.hkc.roleC).calibrated = false →
        exec .sliceRoleRotate s = .next (leaveService s.hkc.roleC
          { s with hkc := { s.hkc with rotDue := false, calFail := satInc 32 s.hkc.calFail } })) ∧
  (∀ (s : State), 16 ≤ s.hkc.gndRun → s.hkc.roleP ≠ 3 →
        exec .groundCheckFail s = .next (leaveService s.hkc.roleP { s with hkc := { s.hkc with gndRun := 0 } })) ∧
  (∀ (s : State), (s.hkc.gndRun < 16 ∨ s.hkc.roleP = 3) →
        exec .groundCheckFail s = .next s) ∧
  (∀ (s : State) (k : Fin 4), measuredSlot s s.lt.line = some k → s.hkc.integOn = true → s.hkc.integEn = true →
      inState [.commit, .run, .repair] s = true → s.lt.stb.getLsbD k.val = true → s.hkc.window = none →
        exec .integWindowOpen s = .next { s with hkc := { s.hkc with window := some (k.val, s.now) } }) ∧
  (∀ (s : State),
      (measuredSlot s s.lt.line = none ∨ s.hkc.integOn = false ∨ s.hkc.integEn = false ∨ inState [.commit, .run, .repair] s = false ∨ s.hkc.window.isSome = true) →
        exec .integWindowOpen s = .next s) ∧
  (∀ (s : State) (k : Fin 4), measuredSlot s s.lt.line = some k → s.lt.stb.getLsbD k.val = false →
        exec .integWindowOpen s = .next s) ∧
  (∀ (s : State) (samples : List (Nat × Int)) (close : Nat), s.hkc.window = none →
        exec (.integWindowClose samples close) s = .next s) ∧
  (∀ (s : State) (close : Nat), s.hkc.window.isSome = true →
        exec (.integWindowClose [] close) s = .next { s with hkc := { s.hkc with window := none } }) ∧
  (∀ (s : State) (k : Fin 4) (start close : Nat) (samples : List (Nat × Int)) (e : Int),
      s.hkc.window = some (k.val, start) → samples ≠ [] →
      (e = energyOf close start (samples.map fun x => (x.1, hkcResult (tapSlice s start x.1) true x.2))) →
      refReady s = false →
        exec (.integWindowClose samples close) s = .next { s with hkc := { s.hkc with
          window := none, slot := vmod s.hkc.slot k fun m => { m with energy := satInt 32 e } } }) ∧
  (∀ (s : State) (k : Fin 4) (start close : Nat) (samples : List (Nat × Int)) (e : Int),
      s.hkc.window = some (k.val, start) → samples ≠ [] →
      (e = energyOf close start (samples.map fun x => (x.1, hkcResult (tapSlice s start x.1) true x.2))) →
      refReady s = true → (e ≤ s.img.int Fld.eLo [k.val] ∨ s.img.int Fld.eHi [k.val] ≤ e) →
        ∃ t, exec (.integWindowClose samples close) s = .next t ∧ t.hkc.window = none ∧ t.hkc.slot[k].energy = satInt 32 e ∧
          t.hkc.outCount = satInc 32 s.hkc.outCount ∧ t.hkc.slot[k].outRun = satInc 3 s.hkc.slot[k].outRun ∧
          t.hkc.slot[k].inRun = 0 ∧ t.hkc.slot[k].out = s.hkc.slot[k].out ∧
          t.hkc.slot[k].high = decide (s.img.int Fld.eHi [k.val] ≤ e) ∧ t.flt.classCount = s.flt.classCount ∧
          ∀ j : Fin 4, j ≠ k → t.hkc.slot[j] = s.hkc.slot[j]) ∧
  (∀ (s : State) (k : Fin 4) (start close : Nat) (samples : List (Nat × Int)) (e : Int),
      s.hkc.window = some (k.val, start) → samples ≠ [] →
      (e = energyOf close start (samples.map fun x => (x.1, hkcResult (tapSlice s start x.1) true x.2))) →
      refReady s = true → s.img.int Fld.eLo [k.val] < e → e < s.img.int Fld.eHi [k.val] →
        ∃ t, exec (.integWindowClose samples close) s = .next t ∧ t.hkc.window = none ∧ t.hkc.slot[k].energy = satInt 32 e ∧
          t.hkc.outCount = s.hkc.outCount ∧ t.hkc.slot[k].outRun = 0 ∧
          t.hkc.slot[k].inRun = satInc 3 s.hkc.slot[k].inRun ∧ t.hkc.slot[k].high = s.hkc.slot[k].high ∧
          t.hkc.slot[k].out = (s.hkc.slot[k].out && !decide (4 ≤ satInc 3 s.hkc.slot[k].inRun)) ∧
          (s.hkc.slot[k].out = true → 4 ≤ satInc 3 s.hkc.slot[k].inRun →
            faultCode 3 k.val ∉ t.flt.standing ∧ faultCode 3 (k.val + 4) ∉ t.flt.standing) ∧
          t.flt.classCount = s.flt.classCount ∧ ∀ j : Fin 4, j ≠ k → t.hkc.slot[j] = s.hkc.slot[j]) ∧
  (∀ (s : State) (k : Fin 4) (start close : Nat) (samples : List (Nat × Int)) (e : Int),
      s.hkc.window = some (k.val, start) → samples ≠ [] →
      (e = energyOf close start (samples.map fun x => (x.1, hkcResult (tapSlice s start x.1) true x.2))) →
      refReady s = true →
        ∃ t, exec (.integWindowClose samples close) s = .next t ∧
          t.hkc.slot[k].satRun = (if samples.any (fun x => hkcResult (tapSlice s start x.1) true x.2 == -2048 || hkcResult (tapSlice s start x.1) true x.2 == 2047) then satInc 3 s.hkc.slot[k].satRun else 0) ∧
          t.hkc.slot[k].unsatRun = (if samples.any (fun x => hkcResult (tapSlice s start x.1) true x.2 == -2048 || hkcResult (tapSlice s start x.1) true x.2 == 2047) then 0 else satInc 3 s.hkc.slot[k].unsatRun) ∧
          t.hkc.slot[k].sat = (s.hkc.slot[k].sat && (samples.any (fun x => hkcResult (tapSlice s start x.1) true x.2 == -2048 || hkcResult (tapSlice s start x.1) true x.2 == 2047) || !decide (4 ≤ satInc 3 s.hkc.slot[k].unsatRun))) ∧
          (s.hkc.slot[k].sat = true → t.hkc.slot[k].sat = false → (k.val ≠ 0 ∨ s.hkc.oneSlice = false) →
            faultCode 3 (0x80 + k.val) ∉ t.flt.standing)) ∧
  (∀ (s : State) (k : Fin 4), 4 ≤ s.hkc.slot[k].outRun → s.hkc.slot[k].out = false →
        ∃ t, exec (.integOutOfWindow k) s = .next t ∧
          t.hkc = { s.hkc with slot := vmod s.hkc.slot k fun m => { m with out := true } } ∧
          classCount t 3 = satInc 32 (classCount s 3) ∧ faultCode 3 (k.val + 4 * bit s.hkc.slot[k].high) ∈ t.flt.standing) ∧
  (∀ (s : State) (k : Fin 4), (s.hkc.slot[k].outRun < 4 ∨ s.hkc.slot[k].out = true) →
        exec (.integOutOfWindow k) s = .next s) ∧
  (∀ (s : State) (k : Fin 4), 4 ≤ s.hkc.slot[k].satRun → s.hkc.slot[k].sat = false →
        ∃ t, exec (.integSaturated k) s = .next t ∧
          t.hkc = { s.hkc with slot := vmod s.hkc.slot k fun m => { m with sat := true } } ∧
          classCount t 3 = satInc 32 (classCount s 3) ∧ faultCode 3 (0x80 + k.val) ∈ t.flt.standing) ∧
  (∀ (s : State) (k : Fin 4), (s.hkc.slot[k].satRun < 4 ∨ s.hkc.slot[k].sat = true) →
        exec (.integSaturated k) s = .next s)

/-- A write changes the pins its agent owns and no other. Where the spec leaves room the clauses follow the model's choices of log entry 36. Basis: derived; cites 14_pins.md, R532 to R535, R537, R538, Tables 14.2, 14.7. Says that these complete: gpioCfgWrite, gpioDataWrite, gpioSet, gpioClr, gpioTgl, supActUpdate. -/
def Obligations.PinOwnersWriteTheirPins : Prop :=
  (∀ (s : State) (who : Agent) (p : Fin 48) (v : BitVec 32), mayWrite who s.gpio.pin[p] = true →
        ∃ t, exec (.gpioCfgWrite who p v) s = .next t ∧
          t.gpio = { s.gpio with pin := vmod s.gpio.pin p fun x => { x with
            oe := v.getLsbD 6, od := v.getLsbD 7, pull := (v.extractLsb' 8 2).toNat, drive := (v.extractLsb' 10 2).toNat,
            slew := v.getLsbD 12 } } ∧ (∀ q : Fin 48, padOut s q ≠ padOut t q → Out.pin q.val (padOut t q) ∈ t.out)) ∧
  (∀ (s : State) (who : Agent) (p : Fin 48) (v : BitVec 32), s.gpio.pin[p].owner ≠ agentCode who →
      cfgPin v.toNat s.gpio.pin[p] ≠ s.gpio.pin[p] →
        exec (.gpioCfgWrite who p v) s = .next { s with gpio := { s.gpio with
          foreignCount := satInc 32 s.gpio.foreignCount, foreignPin := p.val, foreignAgent := agentCode who } }) ∧
  (∀ (s : State) (who : Agent) (p : Fin 48) (v : BitVec 32), mayWrite who s.gpio.pin[p] = false →
      (s.gpio.pin[p].owner = agentCode who ∨ cfgPin v.toNat s.gpio.pin[p] = s.gpio.pin[p]) →
        exec (.gpioCfgWrite who p v) s = .next s) ∧
  (∀ (who : Agent) (x : Pin),
        mayWrite who x = true ↔ who ≠ .sec ∧ x.owner = agentCode who) ∧
  (∀ (s : State) (who : Agent) (b : Fin 2) (v : BitVec 24) (l : List (Fin 24)),
      (l = (List.finRange 24).filter fun i => decide (s.gpio.pin[bankPin b i].data ≠ v.getLsbD i.val) && decide (s.gpio.pin[bankPin b i].owner ≠ agentCode who)) →
        ∃ t, exec (.gpioDataWrite who b v) s = .next t ∧
          (∀ i : Fin 24, t.gpio.pin[bankPin b i] =
            if s.gpio.pin[bankPin b i].data ≠ v.getLsbD i.val ∧ mayWrite who s.gpio.pin[bankPin b i] = true then { s.gpio.pin[bankPin b i] with data := v.getLsbD i.val }
            else s.gpio.pin[bankPin b i]) ∧
          (∀ q : Fin 48, bankOf q ≠ b → t.gpio.pin[q] = s.gpio.pin[q]) ∧
          t.gpio.foreignCount = l.foldl (fun n _ => satInc 32 n) s.gpio.foreignCount ∧
          t.gpio.foreignPin = (l.getLast?.map fun i => (bankPin b i).val).getD s.gpio.foreignPin ∧
          t.gpio.foreignAgent = (if l = [] then s.gpio.foreignAgent else agentCode who) ∧ (∀ q : Fin 48, padOut s q ≠ padOut t q → Out.pin q.val (padOut t q) ∈ t.out)) ∧
  (∀ (s : State) (who : Agent) (b : Fin 2) (v : BitVec 24) (l : List (Fin 24)),
      (l = (List.finRange 24).filter fun i => decide (v.getLsbD i.val = true) && decide (s.gpio.pin[bankPin b i].owner ≠ agentCode who)) →
        ∃ t, exec (.gpioSet who b v) s = .next t ∧
          (∀ i : Fin 24, t.gpio.pin[bankPin b i] =
            if v.getLsbD i.val = true ∧ mayWrite who s.gpio.pin[bankPin b i] = true then { s.gpio.pin[bankPin b i] with data := true }
            else s.gpio.pin[bankPin b i]) ∧
          (∀ q : Fin 48, bankOf q ≠ b → t.gpio.pin[q] = s.gpio.pin[q]) ∧
          t.gpio.foreignCount = l.foldl (fun n _ => satInc 32 n) s.gpio.foreignCount ∧
          t.gpio.foreignPin = (l.getLast?.map fun i => (bankPin b i).val).getD s.gpio.foreignPin ∧
          t.gpio.foreignAgent = (if l = [] then s.gpio.foreignAgent else agentCode who) ∧ (∀ q : Fin 48, padOut s q ≠ padOut t q → Out.pin q.val (padOut t q) ∈ t.out)) ∧
  (∀ (s : State) (who : Agent) (b : Fin 2) (v : BitVec 24) (l : List (Fin 24)),
      (l = (List.finRange 24).filter fun i => decide (v.getLsbD i.val = true) && decide (s.gpio.pin[bankPin b i].owner ≠ agentCode who)) →
        ∃ t, exec (.gpioClr who b v) s = .next t ∧
          (∀ i : Fin 24, t.gpio.pin[bankPin b i] =
            if v.getLsbD i.val = true ∧ mayWrite who s.gpio.pin[bankPin b i] = true then { s.gpio.pin[bankPin b i] with data := false }
            else s.gpio.pin[bankPin b i]) ∧
          (∀ q : Fin 48, bankOf q ≠ b → t.gpio.pin[q] = s.gpio.pin[q]) ∧
          t.gpio.foreignCount = l.foldl (fun n _ => satInc 32 n) s.gpio.foreignCount ∧
          t.gpio.foreignPin = (l.getLast?.map fun i => (bankPin b i).val).getD s.gpio.foreignPin ∧
          t.gpio.foreignAgent = (if l = [] then s.gpio.foreignAgent else agentCode who) ∧ (∀ q : Fin 48, padOut s q ≠ padOut t q → Out.pin q.val (padOut t q) ∈ t.out)) ∧
  (∀ (s : State) (who : Agent) (b : Fin 2) (v : BitVec 24) (l : List (Fin 24)),
      (l = (List.finRange 24).filter fun i => decide (v.getLsbD i.val = true) && decide (s.gpio.pin[bankPin b i].owner ≠ agentCode who)) →
        ∃ t, exec (.gpioTgl who b v) s = .next t ∧
          (∀ i : Fin 24, t.gpio.pin[bankPin b i] =
            if v.getLsbD i.val = true ∧ mayWrite who s.gpio.pin[bankPin b i] = true then { s.gpio.pin[bankPin b i] with data := !s.gpio.pin[bankPin b i].data }
            else s.gpio.pin[bankPin b i]) ∧
          (∀ q : Fin 48, bankOf q ≠ b → t.gpio.pin[q] = s.gpio.pin[q]) ∧
          t.gpio.foreignCount = l.foldl (fun n _ => satInc 32 n) s.gpio.foreignCount ∧
          t.gpio.foreignPin = (l.getLast?.map fun i => (bankPin b i).val).getD s.gpio.foreignPin ∧
          t.gpio.foreignAgent = (if l = [] then s.gpio.foreignAgent else agentCode who) ∧ (∀ q : Fin 48, padOut s q ≠ padOut t q → Out.pin q.val (padOut t q) ∈ t.out)) ∧
  (∀ (s : State) (p : Fin 48), s.gpio.active = true → s.gpio.pin[p].owner = 1 → s.gpio.pin[p].mux = 0 →
      s.gpio.pin[p].oe = true → s.sys.supResetting = false → s.sys.supHalted = false →
        ∃ t, exec (.supActUpdate p) s = .next t ∧
          t.gpio = { s.gpio with pin := vmod s.gpio.pin p fun x => { x with data := supActLevel s x } } ∧ (∀ q : Fin 48, padOut s q ≠ padOut t q → Out.pin q.val (padOut t q) ∈ t.out)) ∧
  (∀ (s : State) (p : Fin 48),
      (s.gpio.active = false ∨ s.gpio.pin[p].owner ≠ 1 ∨ s.gpio.pin[p].mux ≠ 0 ∨ s.gpio.pin[p].oe = false ∨ s.sys.supResetting = true ∨ s.sys.supHalted = true) →
        exec (.supActUpdate p) s = .next s) ∧
  (∀ (s : State) (x : Pin),
        (x.supAct = 1 → supActLevel s x = inState [.run, .repair] s) ∧
          (x.supAct = 2 → supActLevel s x = (s.spr.supBit || inState [.safe] s)) ∧
          (x.supAct = 3 → supActLevel s x = decide (80 * 16 ≤ s.hkc.stack)) ∧
          (x.supAct = 4 → supActLevel s x = inState [.safe] s) ∧
          (x.supAct = 0 ∨ 4 < x.supAct → supActLevel s x = x.data))

/-- Event ports act, interrupts are accepted, I2C answers, supplies and boundary scan act. Where the spec leaves room the clauses follow the model's choices of log entries 36, 40, 44. Basis: derived; cites 14_pins.md, R538, R540, R542 to R549, R552, R553, Tables 14.1, 14.3; 19_electrical_package.md, R692, R706, Table 19.2. Says that these complete: evpDelayedAct, pulseEnd, pinInterrupt, i2cPoll, i2cStretchTimeout, lineOutPulseEnd, bankSupplyRangeDetect, boundaryScanInstruction. -/
def Obligations.PortsInterruptsAndBoundary : Prop :=
  (∀ (s : State) (k : Fin 16), s.gpio.evp[k].held = [] →
        exec (.evpDelayedAct k) s = .next s) ∧
  (∀ (s : State) (k : Fin 16) (n : Nat) (rest : List Nat), s.gpio.evp[k].held = n :: rest →
      (live s = false ∨ s.lt.anyLine = false ∨ linePast s.lt.line n = false) →
        exec (.evpDelayedAct k) s = .next s) ∧
  (∀ (s : State) (k : Fin 16) (n : Nat) (rest : List Nat), s.gpio.evp[k].held = n :: rest → live s = true →
      s.lt.anyLine = true → linePast s.lt.line n = true →
      (s.img.nat Fld.evpMode [k.val] = 0 ∨ s.gpio.evpOn = false) →
        exec (.evpDelayedAct k) s = .next { s with gpio := { s.gpio with
          evp := vmod s.gpio.evp k fun e => { e with held := rest } } }) ∧
  (∀ (s : State) (k : Fin 16) (n : Nat) (rest : List Nat), s.gpio.evp[k].held = n :: rest → live s = true →
      s.lt.anyLine = true → linePast s.lt.line n = true → s.img.nat Fld.evpMode [k.val] = 1 → s.gpio.evpOn = true →
        ∃ t, exec (.evpDelayedAct k) s = .next t ∧ t.gpio = { s.gpio with
          evp := vmod s.gpio.evp k fun e =>
            ⟨rest, true, s.lt.line, satInc 32 e.count⟩
          retrig := if s.gpio.evp[k].active then satInc 32 s.gpio.retrig else s.gpio.retrig } ∧ (∀ q : Fin 48, padOut s q ≠ padOut t q → Out.pin q.val (padOut t q) ∈ t.out)) ∧
  (∀ (s : State) (k : Fin 16) (n : Nat) (rest : List Nat) (m : Nat) (base : Pin → Pin),
      s.gpio.evp[k].held = n :: rest → live s = true → s.lt.anyLine = true → linePast s.lt.line n = true →
      m = s.img.nat Fld.evpMode [k.val] → 2 ≤ m → s.gpio.evpOn = true →
      (base = if s.gpio.tie = some (true, s.lt.line) then id else fun x => { x with tieBase := x.data, tieSet := false, tieClr := false, tieOdd := false }) →
        ∃ t, exec (.evpDelayedAct k) s = .next t ∧
          (∀ p : Fin 48, t.gpio.pin[p] =
            if (s.img.nat Fld.evpPins [k.val]).testBit p.val = true then portOnPin m (base s.gpio.pin[p])
            else base s.gpio.pin[p]) ∧
          t.gpio.tie = some (true, s.lt.line) ∧
          t.gpio.evp = vmod s.gpio.evp k (fun e => { e with held := rest, count := satInc 32 e.count }) ∧ (∀ q : Fin 48, padOut s q ≠ padOut t q → Out.pin q.val (padOut t q) ∈ t.out)) ∧
  (∀ (x : Pin), x.tieSet = false → x.tieClr = false → x.tieOdd = false → x.tieBase = x.data →
        (portOnPin 2 x).data = true ∧ (portOnPin 3 x).data = false ∧ (portOnPin 4 x).data = (!x.data) ∧
          (portOnPin 3 (portOnPin 2 x)).data = true ∧ (portOnPin 4 (portOnPin 3 x)).data = false ∧
          (portOnPin 4 (portOnPin 4 x)).data = x.data) ∧
  (∀ (s : State) (k : Fin 16), s.gpio.evp[k].active = true →
      (s.img.on Fld.evpWunit [k.val] = false ∨ s.lt.stopped = true ∨ linePast s.lt.line (lineAdd s.gpio.evp[k].startLine (s.img.nat Fld.evpWidth [k.val])) = true) →
        ∃ t, exec (.pulseEnd k) s = .next t ∧
          t.gpio = { s.gpio with evp := vmod s.gpio.evp k fun e => { e with active := false } } ∧ (∀ q : Fin 48, padOut s q ≠ padOut t q → Out.pin q.val (padOut t q) ∈ t.out)) ∧
  (∀ (s : State) (k : Fin 16),
      (s.gpio.evp[k].active = false ∨ (s.img.on Fld.evpWunit [k.val] = true ∧ s.lt.stopped = false ∧ linePast s.lt.line (lineAdd s.gpio.evp[k].startLine (s.img.nat Fld.evpWidth [k.val])) = false)) →
        exec (.pulseEnd k) s = .next s) ∧
  (∀ (s : State) (p : Fin 48) (level : Bool) (n : Nat),
      (s.gpio.active = false ∨ s.gpio.bank[bankOf p] = .absent ∨ s.sys.code = .sleep ∨ n < s.gpio.pin[p].intFilt ∨ s.gpio.pin[p].accepted = level) →
        exec (.pinInterrupt p level n) s = .next { s with gpio := { s.gpio with
          pin := vmod s.gpio.pin p fun x => { x with pad := level, forced := padOut s p == some (!level) } } }) ∧
  (∀ (s : State) (p : Fin 48) (level : Bool) (n : Nat), s.gpio.active = true → s.gpio.bank[bankOf p] ≠ .absent →
      s.sys.code ≠ .sleep → s.gpio.pin[p].intFilt ≤ n → s.gpio.pin[p].accepted ≠ level →
      intCondition s.gpio.pin[p].intKind level = false →
        exec (.pinInterrupt p level n) s = .next { s with gpio := { s.gpio with
          pin := vmod s.gpio.pin p fun x => { x with
            pad := level, forced := padOut s p == some (!level), accepted := level } } }) ∧
  (∀ (s : State) (p : Fin 48) (level : Bool) (n : Nat), s.gpio.active = true → s.gpio.bank[bankOf p] ≠ .absent →
      s.sys.code ≠ .sleep → s.gpio.pin[p].intFilt ≤ n → s.gpio.pin[p].accepted ≠ level →
      intCondition s.gpio.pin[p].intKind level = true →
        exec (.pinInterrupt p level n) s = .next { s with
          hkc := { s.hkc with pinReq := s.hkc.pinReq || (decide (s.gpio.pin[p].intKind ≤ 3 ∧
            s.img.nat Fld.injSrc [] = 2 ∧ s.img.nat Fld.injPin [] = p.val) && s.hkc.injOn) }
          gpio := { s.gpio with
            intCount := satInc 32 s.gpio.intCount
            pin := vmod s.gpio.pin p fun x => { x with
              pad := level, forced := padOut s p == some (!level), accepted := level, intStatus := true,
              intAt := some s.now, evIn := x.evIn || decide (x.intKind ≤ 3) } } }) ∧
  (∀ (kind : Nat) (level : Bool),
        intCondition kind level = ((kind == 1 && level) || (kind == 2 && !level) || kind == 3 || (kind == 4 && level) ||
          (kind == 5 && !level))) ∧
  (∀ (s : State) (m : Fin 4) (v : BitVec 16), i2cPolled m s = true →
        ∃ a b c d, exec (.i2cPoll m (.data v)) s = .next a ∧ exec (.i2cPoll m .nack) s = .next b ∧
          exec (.i2cPoll m .stuck) s = .next c ∧ exec (.i2cStretchTimeout m) s = .next d ∧
          a = { s with gpio := { s.gpio with
            i2cOk := true, i2cStuck := false, boardTemp := vmod s.gpio.boardTemp m fun _ => (v.toInt / 16, true) } } ∧
          b = { s with gpio := { s.gpio with
            i2cOk := false, i2cStuck := false, i2cNack := satInc 32 s.gpio.i2cNack,
            boardTemp := vmod s.gpio.boardTemp m fun x => (x.1, false) } } ∧
          c = { s with gpio := { s.gpio with i2cOk := false, i2cStuck := true } } ∧
          d = { s with gpio := { s.gpio with i2cOk := false, i2cTimeout := satInc 32 s.gpio.i2cTimeout } }) ∧
  (∀ (s : State) (m : Fin 4) (a : I2cAnswer), i2cPolled m s = false →
        exec (.i2cPoll m a) s = .next s ∧ exec (.i2cStretchTimeout m) s = .next s) ∧
  (∀ (s : State) (m : Fin 4),
        i2cPolled m s = true ↔ s.gpio.active = true ∧ s.img.nat Fld.i2cMode [] ≠ 0 ∧ s.img.nat Fld.i2cAddr [m.val] ≠ 0 ∧
          s.sys.code ≠ .sleep ∧ s.sys.supResetting = false) ∧
  (∀ (s : State) (p : Fin 48),
        ∃ t, exec (.lineOutPulseEnd p) s = .next t ∧
          t.gpio = { s.gpio with pin := vmod s.gpio.pin p fun x => { x with lineOut := false } } ∧ (∀ q : Fin 48, padOut s q ≠ padOut t q → Out.pin q.val (padOut t q) ∈ t.out)) ∧
  (∀ (s : State) (b : Fin 2) (mv : Nat),
        ∃ t, exec (.bankSupplyRangeDetect b mv) s = .next t ∧
          t.gpio = { s.gpio with bank := vmod s.gpio.bank b fun r =>
            if mv < 1000 then .absent
            else if r ≠ .absent then r
            else if 1710 ≤ mv ∧ mv ≤ 1890 then .v18
            else if 3135 ≤ mv ∧ mv ≤ 3465 then .v33
            else r } ∧ (∀ q : Fin 48, padOut s q ≠ padOut t q → Out.pin q.val (padOut t q) ∈ t.out)) ∧
  (∀ (s : State) (cells : List Bool), s.sys.porActive = false →
        ∃ t u, exec (.boundaryScanInstruction true cells) s = .next t ∧ exec (.boundaryScanInstruction false cells) s = .next u ∧
          t.bscan = ⟨true, cells⟩ ∧ u.bscan = ⟨false, []⟩ ∧ t.gpio = s.gpio ∧ u.gpio = s.gpio ∧
          (∀ p : Fin 48, t.gpio.bank[bankOf p] ≠ .absent → padOut t p = some (cells.getD p.val false)) ∧
          (∀ q : Fin 48, padOut s q ≠ padOut t q → Out.pin q.val (padOut t q) ∈ t.out)) ∧
  (∀ (s : State) (drives : Bool) (cells : List Bool), s.sys.porActive = true →
        exec (.boundaryScanInstruction drives cells) s = .next s)

/-- Requests are checked and answered; reads, latched pairs, writes, clears and the log read. Where the spec leaves room the clauses follow the model's choices of log entries 12, 20, 44. Basis: derived; cites 17_maintenance_recovery.md, R624 to R626, R629 to R631, R633, R634, Tables 17.2, 17.3, 17.5; 14_pins.md, R546; 00_scope.md, R23. Says that these complete: read, latchedPairRead, write, clearEncErrSticky, clearLimitSticky, clearWoViolation, rearmFaultSummary, clearIntStatus, logRead. -/
def Obligations.RegistersReadLatchAndClear : Prop :=
  (∀ (s : State) (c : Instr) (x : Packet), packetOf s c = some x → hears s x.q = false →
        exec c s = .next s) ∧
  (∀ (s : State) (c : Instr) (x : Packet), packetOf s c = some x → hears s x.q = true →
      packetOk s x.op x.q x.payload = false →
        exec c s = .next { s with sys := { s.sys with mntBad := satInc 32 s.sys.mntBad } }) ∧
  (∀ (s : State) (c : Instr) (x : Packet), packetOf s c = some x → hears s x.q = true →
      packetOk s x.op x.q x.payload = true → s.sys.hseq < x.q.seq.toNat → s.log.sc + 65536 < x.q.seq.toNat →
        exec c s = .next (if s.mnt.waiting.length + s.mnt.sessWait.length < 4 then { s with
            mnt := { s.mnt with waiting := s.mnt.waiting ++ [c] }
            log := { s.log with scWant := Nat.max s.log.scWant x.q.seq.toNat, snapPending := true } }
          else { s with sys := { s.sys with mntDropped := satInc 32 s.sys.mntDropped } })) ∧
  (∀ (s : State) (c : Instr) (x : Packet), packetOf s c = some x → hears s x.q = true →
      packetOk s x.op x.q x.payload = true → x.q.seq.toNat ≤ s.sys.hseq → cachedSame x.op x.q x.payload s = none →
        ∃ t, exec c s = .next t ∧ AnsweredWith s t x.op x.q 8 [] ∧
          t = { s with sys := { s.sys with mntStale := satInc 32 s.sys.mntStale }, out := t.out }) ∧
  (∀ (s : State) (c : Instr) (x : Packet) (e : CacheEntry), packetOf s c = some x → hears s x.q = true →
      packetOk s x.op x.q x.payload = true → x.q.seq.toNat ≤ s.sys.hseq → cachedSame x.op x.q x.payload s = some e →
        exec c s = .next { s with out := .frame x.q.lane (answerFrame s (answerSession s x.op) x.op x.q
          (e.answer.getD (answerOf x.op 9 []))) :: s.out }) ∧
  (∀ (s : State) (c : Instr) (x : Packet), packetOf s c = some x → Arrives s x.op x.q x.payload →
      (x.fits = false ∨ inState x.states s = false) →
        ∃ t, exec c s = .next t ∧ AnsweredWith s t x.op x.q (if x.fits = false then 1 else 2) [] ∧
          t = { s with sys := t.sys, log := t.log, mnt := t.mnt, out := t.out } ∧
          t.sys = { s.sys with hseq := x.q.seq.toNat, mntAccepted := satInc 32 s.sys.mntAccepted } ∧
          t.mnt = { s.mnt with cache := t.mnt.cache } ∧
          t.log = (if s.log.sc + 32768 < x.q.seq.toNat then { s.log with scWant := x.q.seq.toNat, snapPending := true }
            else s.log)) ∧
  (∀ (s : State) (q : MntReq) (addr : BitVec 32) (count : BitVec 16),
      Arrives s 0x01 q (le 4 addr.toNat ++ le 2 count.toNat ++ [0, 0]) → readFits addr count = true →
        ∃ t, exec (.read q addr count) s = .next t ∧ t.sys.hseq = q.seq.toNat ∧
          t.sys.mntAccepted = satInc 32 s.sys.mntAccepted ∧ AnsweredWith s t 0x01 q 0 (regWords count.toNat addr.toNat (accept 0x01 q (le 4 addr.toNat ++ le 2 count.toNat ++ [0, 0]) s)).1 ∧
          t.sys = (regWords count.toNat addr.toNat (accept 0x01 q (le 4 addr.toNat ++ le 2 count.toNat ++ [0, 0]) s)).2.sys ∧ t.flt = (regWords count.toNat addr.toNat (accept 0x01 q (le 4 addr.toNat ++ le 2 count.toNat ++ [0, 0]) s)).2.flt ∧ t.spr = (regWords count.toNat addr.toNat (accept 0x01 q (le 4 addr.toNat ++ le 2 count.toNat ++ [0, 0]) s)).2.spr ∧ t.lt = (regWords count.toNat addr.toNat (accept 0x01 q (le 4 addr.toNat ++ le 2 count.toNat ++ [0, 0]) s)).2.lt ∧ t.fab = (regWords count.toNat addr.toNat (accept 0x01 q (le 4 addr.toNat ++ le 2 count.toNat ++ [0, 0]) s)).2.fab ∧ t.net = (regWords count.toNat addr.toNat (accept 0x01 q (le 4 addr.toNat ++ le 2 count.toNat ++ [0, 0]) s)).2.net) ∧
  (∀ (s : State) (n a : Nat),
        regWords 0 a s = ([], s) ∧
          regWords (n + 1) a s =
            (le 4 (regValue s a) ++ (regWords n (a + 4) (latchRead a s)).1, (regWords n (a + 4) (latchRead a s)).2)) ∧
  (∀ (s : State), inState answeringStates s = true →
        exec (.latchedPairRead 0x00030) s = .next { s with sys := { s.sys with hseqHi := bits s.sys.hseq 32 32 } } ∧
          exec (.latchedPairRead 0x01008) s = .next { s with flt := { s.flt with ldetHi := bits s.flt.ldet 32 16 } } ∧
          exec (.latchedPairRead 0x01010) s = .next { s with flt := { s.flt with lsusHi := bits s.flt.lsus 32 16 } } ∧
          exec (.latchedPairRead 0x02000) s = .next { s with spr := { s.spr with lastLineHi := bits s.spr.lastLine 32 16 } } ∧
          exec (.latchedPairRead 0x10818) s = .next { s with lt := { s.lt with enczHi := bits s.lt.enczLine 32 16 } } ∧
          exec (.latchedPairRead 0x20024) s = .next { s with fab := { s.fab with repairLineHi := bits s.fab.repairLine 32 16 } } ∧
          exec (.latchedPairRead 0x60004) s = .next { s with net := { s.net with seqHi := bits (seqShown s) 32 16 } } ∧
          exec (.latchedPairRead 0x60010) s = .next { s with net := { s.net with ringHi := bits (ringOldest s) 32 16 } }) ∧
  (∀ (s : State) (addr : BitVec 32),
      (inState answeringStates s = false ∨ addr ∉ [0x00030#32, 0x01008#32, 0x01010#32, 0x02000#32, 0x10818#32, 0x20024#32, 0x60004#32, 0x60010#32]) →
        exec (.latchedPairRead addr) s = .next s) ∧
  (∀ (s : State) (q : MntReq) (addr : BitVec 32) (words : List (BitVec 32)),
      (Arrives s 0x02 q (le 4 addr.toNat ++ le 2 words.length ++ [0, 0] ++ words.flatMap fun w => le 4 w.toNat)) →
      writeFits addr words = true → inState mostStates s = true →
      ((writeWords words addr.toNat (accept 0x02 q (le 4 addr.toNat ++ le 2 words.length ++ [0, 0] ++ words.flatMap fun w => le 4 w.toNat) s)).1.out = s.out) →
        ∃ t, exec (.write q addr words) s = .next t ∧ AnsweredWith s t 0x02 q 0 (le 2 (writeWords words addr.toNat (accept 0x02 q (le 4 addr.toNat ++ le 2 words.length ++ [0, 0] ++ words.flatMap fun w => le 4 w.toNat) s)).2) ∧
          t.lt = (writeWords words addr.toNat (accept 0x02 q (le 4 addr.toNat ++ le 2 words.length ++ [0, 0] ++ words.flatMap fun w => le 4 w.toNat) s)).1.lt ∧ t.gpio = (writeWords words addr.toNat (accept 0x02 q (le 4 addr.toNat ++ le 2 words.length ++ [0, 0] ++ words.flatMap fun w => le 4 w.toNat) s)).1.gpio ∧ t.flt = (writeWords words addr.toNat (accept 0x02 q (le 4 addr.toNat ++ le 2 words.length ++ [0, 0] ++ words.flatMap fun w => le 4 w.toNat) s)).1.flt ∧ t.pix = (writeWords words addr.toNat (accept 0x02 q (le 4 addr.toNat ++ le 2 words.length ++ [0, 0] ++ words.flatMap fun w => le 4 w.toNat) s)).1.pix ∧ t = { s with
            sys := t.sys, log := t.log, mnt := t.mnt, lt := t.lt, gpio := t.gpio, flt := t.flt, pix := t.pix, out := t.out }) ∧
  (∀ (s : State) (q : MntReq) (addr : BitVec 32) (words : List (BitVec 32)),
      (Arrives s 0x02 q (le 4 addr.toNat ++ le 2 words.length ++ [0, 0] ++ words.flatMap fun w => le 4 w.toNat)) →
      writeFits addr words = true → inState mostStates s = true →
        ∃ t, exec (.write q addr words) s = .next t ∧
          t.lt = (writeWords words addr.toNat (accept 0x02 q (le 4 addr.toNat ++ le 2 words.length ++ [0, 0] ++ words.flatMap fun w => le 4 w.toNat) s)).1.lt ∧ t.gpio = (writeWords words addr.toNat (accept 0x02 q (le 4 addr.toNat ++ le 2 words.length ++ [0, 0] ++ words.flatMap fun w => le 4 w.toNat) s)).1.gpio ∧ t.flt = (writeWords words addr.toNat (accept 0x02 q (le 4 addr.toNat ++ le 2 words.length ++ [0, 0] ++ words.flatMap fun w => le 4 w.toNat) s)).1.flt ∧ t.pix = (writeWords words addr.toNat (accept 0x02 q (le 4 addr.toNat ++ le 2 words.length ++ [0, 0] ++ words.flatMap fun w => le 4 w.toNat) s)).1.pix ∧
          t.out = (sendAnswer 0x02 q (answerOf 0x02 0 (le 2 (writeWords words addr.toNat (accept 0x02 q (le 4 addr.toNat ++ le 2 words.length ++ [0, 0] ++ words.flatMap fun w => le 4 w.toNat) s)).2)) (writeWords words addr.toNat (accept 0x02 q (le 4 addr.toNat ++ le 2 words.length ++ [0, 0] ++ words.flatMap fun w => le 4 w.toNat) s)).1).out) ∧
  (∀ (s : State) (v : BitVec 32) (vs : List (BitVec 32)) (a : Nat),
        writeWords [] a s = (s, 0) ∧
          (writeWords (v :: vs) a s).1 = (writeWords vs (a + 4) (writeWord a v.toNat s).1).1 ∧
          (writeWords (v :: vs) a s).2 = (writeWords vs (a + 4) (writeWord a v.toNat s).1).2 +
            (if (writeWord a v.toNat s).2 = true then 0 else 1)) ∧
  (∀ (s : State) (v : BitVec 32),
        writeWord 0x10800 v.toNat s = (clearEncErr (v.getLsbD 4) s, v.getLsbD 4) ∧
          writeWord 0x10030 v.toNat s = (clearLimit (v.getLsbD 2) s, v.getLsbD 2) ∧
          writeWord 0x01000 v.toNat s = (rearmSummary (v.getLsbD 1) (clearWo (v.getLsbD 0) s), v.getLsbD 0 || v.getLsbD 1)) ∧
  (∀ (s : State) (a v : Nat), a ∉ [0x10800, 0x10030, 0x01000] →
      (a < 0x50000 ∨ 0x50140 ≤ a ∨ (0x500C0 ≤ a ∧ a < 0x50100) ∨ a % 0x20 = 0x10 ∧ 0x50100 ≤ a) →
        writeWord a v s = (s, false)) ∧
  (∀ (s : State) (p : Fin 48) (b : Fin 2) (v : Nat),
        writeWord (0x50000 + 4 * p.val) v s = (writeCfg .mnt p v s, mayWrite .mnt s.gpio.pin[p]) ∧
          (writeWord (0x50100 + 0x20 * b.val) v s).1 = writeData .mnt b (v % 2 ^ 24) s ∧
          (writeWord (0x50104 + 0x20 * b.val) v s).1 = writeSet .mnt b (v % 2 ^ 24) s ∧
          (writeWord (0x50108 + 0x20 * b.val) v s).1 = writeClr .mnt b (v % 2 ^ 24) s ∧
          (writeWord (0x5010C + 0x20 * b.val) v s).1 = writeTgl .mnt b (v % 2 ^ 24) s ∧
          (writeWord (0x50114 + 0x20 * b.val) v s).1 = clearInt b (v % 2 ^ 24) s) ∧
  (∀ (s : State) (v : Bool),
        exec (.clearEncErrSticky v) s = .next { s with lt := { s.lt with
            encErrSticky := s.lt.encErrSticky && !(v && s.lt.encErrAt != some s.now) } } ∧
          exec (.clearLimitSticky v) s = .next { s with pix := { s.pix with aff := { s.pix.aff with
            limitSticky := s.pix.aff.limitSticky && !(v && s.pix.aff.limitAt != some s.now) } } } ∧
          exec (.clearWoViolation v) s = .next { s with flt := { s.flt with
            woViolation := s.flt.woViolation && !(v && s.flt.woAt != some s.now) } } ∧
          exec (.rearmFaultSummary v) s = .next { s with flt := { s.flt with
            summaryValid := s.flt.summaryValid && !(v && s.flt.summaryAt != some s.now) } }) ∧
  (∀ (s : State) (b : Fin 2) (v : BitVec 24),
        ∃ t, exec (.clearIntStatus b v) s = .next t ∧ t = { s with gpio := { s.gpio with pin := t.gpio.pin } } ∧
          (∀ i : Fin 24, t.gpio.pin[bankPin b i] =
            if v.getLsbD i.val = true then { s.gpio.pin[bankPin b i] with
              intStatus := levelHolds s.gpio.pin[bankPin b i] ||
                (s.gpio.pin[bankPin b i].intStatus && s.gpio.pin[bankPin b i].intAt == some s.now) }
            else s.gpio.pin[bankPin b i]) ∧
          ∀ q : Fin 48, bankOf q ≠ b → t.gpio.pin[q] = s.gpio.pin[q]) ∧
  (∀ (s : State) (q : MntReq) (first : BitVec 32) (count : BitVec 16),
      Arrives s 0x03 q (le 4 first.toNat ++ le 2 count.toNat ++ [0, 0]) → 1 ≤ count.toNat → count.toNat ≤ 32 →
        ∃ t, exec (.logRead q first count) s = .next t ∧
          AnsweredWith s t 0x03 q 0 (logRead s first.toNat count.toNat) ∧
          t = { s with sys := t.sys, log := t.log, mnt := t.mnt, out := t.out })

/-- The session lock, and the flash commands that run under it. Where the spec leaves room the clauses follow the model's choices of log entries 8, 12, 19. Basis: derived; cites 17_maintenance_recovery.md, R627, R635 to R641, Tables 17.2, 17.3; 16_image_format.md, R595; 18_power_reset.md, R681. Says that these complete: nvmLock, nvmRenew, nvmUnlock, nvmErase, nvmProgram, nvmVerify, nvmSwitch, flashOpDone, nvmVerifyDone, nvmLeaseExpire. -/
def Obligations.SessionLockAndFlashCommands : Prop :=
  (∀ (s : State) (c : Instr) (x : Packet), packetOf s c = some x → 0x11 ≤ x.op → x.op ≤ 0x23 →
      Arrives s x.op x.q x.payload → x.fits = true → inState x.states s = true →
      (usesFlash x = false ∨ s.nvm.busy = none) → ¬InSession s x.q →
        ∃ t, exec c s = .next t ∧ AnsweredWith s t x.op x.q (if s.nvm.locked then 3 else 4)
            (if s.nvm.locked then le 2 (leaseMs s) else []) ∧
          t = { s with sys := t.sys, log := t.log, mnt := t.mnt, out := t.out }) ∧
  (∀ (s : State) (c : Instr) (x : Packet), packetOf s c = some x → usesFlash x = true →
      Arrives s x.op x.q x.payload → x.fits = true → inState x.states s = true → s.nvm.busy.isSome = true →
        ∃ t, exec c s = .next t ∧ t.out = s.out ∧ t.nvm = s.nvm ∧ t.flash = s.flash ∧
          t.mnt = { s.mnt with
            cache := t.mnt.cache
            sessWait := if s.mnt.waiting.length + s.mnt.sessWait.length < 4 then s.mnt.sessWait ++ [c] else s.mnt.sessWait } ∧
          t.sys.mntDropped = (if s.mnt.waiting.length + s.mnt.sessWait.length < 4 then s.sys.mntDropped
            else satInc 32 s.sys.mntDropped)) ∧
  (∀ (s : State) (q : MntReq), Arrives s 0x10 q [] → inState mostStates s = true → s.nvm.locked = false →
        ∃ t, exec (.nvmLock q) s = .next t ∧ t.nvm.session ≠ 0 ∧
          t.nvm = { s.nvm with
            locked := true, lane := (laneIx q.lane).val, ownerIp := q.srcIp, ownerPort := q.srcPort,
            session := t.nvm.session, leaseEnd := s.now + 1000000000, frozen := 1000000000, reasonA := 255, reasonB := 255 } ∧
          AnsweredWith s t 0x10 q 0 (le 2 t.nvm.session.toNat ++ le 2 5000) ∧
          t = { s with sys := t.sys, log := t.log, mnt := t.mnt, nvm := t.nvm, out := t.out, freeCtr := s.freeCtr + 1 }) ∧
  (∀ (s : State) (q : MntReq), Arrives s 0x10 q [] → inState mostStates s = true → fromHolder s q = true →
        ∃ t, exec (.nvmLock q) s = .next t ∧
          t.nvm = { s.nvm with leaseEnd := s.now + 1000000000, frozen := 1000000000 } ∧
          AnsweredWith s t 0x10 q 0 (le 2 s.nvm.session.toNat ++ le 2 5000) ∧ t = { s with sys := t.sys, log := t.log, mnt := t.mnt, nvm := t.nvm, out := t.out }) ∧
  (∀ (s : State) (q : MntReq), Arrives s 0x10 q [] → inState mostStates s = true → s.nvm.locked = true →
      fromHolder s q = false →
        ∃ t, exec (.nvmLock q) s = .next t ∧ t.nvm = s.nvm ∧ AnsweredWith s t 0x10 q 3 (le 2 (leaseMs s)) ∧ t = { s with sys := t.sys, log := t.log, mnt := t.mnt, nvm := t.nvm, out := t.out }) ∧
  (∀ (s : State) (q : MntReq), Arrives s 0x11 q [] → inState mostStates s = true → InSession s q →
        ∃ t, exec (.nvmRenew q) s = .next t ∧
          t.nvm = { s.nvm with leaseEnd := s.now + 1000000000, frozen := 1000000000 } ∧
          AnsweredWith s t 0x11 q 0 (le 2 5000) ∧ t = { s with sys := t.sys, log := t.log, mnt := t.mnt, nvm := t.nvm, out := t.out }) ∧
  (∀ (s : State) (q : MntReq), Arrives s 0x12 q [] → inState mostStates s = true → InSession s q →
        ∃ t, exec (.nvmUnlock q) s = .next t ∧ t.nvm = { s.nvm with
            locked := false, lane := 0, ownerIp := 0, ownerPort := 0, session := 0, leaseEnd := 0, frozen := 0, busy := none,
            verifiedA := false, verifiedB := false } ∧
          t.mnt.sessWait = [] ∧ t.flash = (endFlashOp false s).flash ∧ AnsweredWith s t 0x12 q 0 [] ∧
          t = { s with sys := t.sys, log := t.log, mnt := t.mnt, nvm := t.nvm, out := t.out, flash := t.flash }) ∧
  (∀ (s : State) (c : SessCmd), s.nvm.busy = some c →
        endFlashOp false s = (match c.todo with
          | .erase slot sector _ => { s with flash := Memory.erase (slotBase slot + 4096 * sector) s.flash }
          | .program slot off d => { s with flash := Memory.program (slotBase slot + off) (d.take 256) s.flash }
          | .verify _ => s)) ∧
  (∀ (s : State), s.nvm.busy = none →
        endFlashOp false s = s) ∧
  (∀ (s : State) (q : MntReq) (slot : BitVec 8) (sector : BitVec 32) (n : BitVec 16),
      Arrives s 0x13 q (erasePayload slot sector n) → inState mostStates s = true → InSession s q →
      s.nvm.busy = none → eraseFits slot sector n = true → slotOpen s slot.toNat = true →
        ∃ t, exec (.nvmErase q slot sector n) s = .next t ∧ t.out = s.out ∧
          t.nvm = { s.nvm with
            leaseEnd := s.now + 1000000000, frozen := 1000000000
            busy := some ⟨0x13, q, erasePayload slot sector n, .erase slot.toNat sector.toNat n.toNat⟩
            verifiedA := if slot.toNat = 0 then false else s.nvm.verifiedA
            verifiedB := if slot.toNat = 0 then s.nvm.verifiedB else false } ∧ t = { s with sys := t.sys, log := t.log, mnt := t.mnt, nvm := t.nvm, out := t.out }) ∧
  (∀ (s : State) (q : MntReq) (slot : BitVec 8) (sector : BitVec 32) (n : BitVec 16),
      Arrives s 0x13 q (erasePayload slot sector n) → inState mostStates s = true → InSession s q →
      s.nvm.busy = none → eraseFits slot sector n = true → slotOpen s slot.toNat = false →
        ∃ t, exec (.nvmErase q slot sector n) s = .next t ∧ AnsweredWith s t 0x13 q 2 [] ∧
          t.nvm = { s.nvm with leaseEnd := s.now + 1000000000, frozen := 1000000000 } ∧ t = { s with sys := t.sys, log := t.log, mnt := t.mnt, nvm := t.nvm, out := t.out }) ∧
  (∀ (s : State) (q : MntReq) (slot : BitVec 8) (off : BitVec 32) (d : List Byte),
      Arrives s 0x14 q (programPayload slot off d) → inState mostStates s = true → InSession s q →
      s.nvm.busy = none → programFits slot off d = true → slotOpen s slot.toNat = true →
        ∃ t, exec (.nvmProgram q slot off d) s = .next t ∧ t.out = s.out ∧
          t.nvm = { s.nvm with
            leaseEnd := s.now + 1000000000, frozen := 1000000000
            busy := some ⟨0x14, q, programPayload slot off d, .program slot.toNat off.toNat d⟩
            verifiedA := if slot.toNat = 0 then false else s.nvm.verifiedA
            verifiedB := if slot.toNat = 0 then s.nvm.verifiedB else false } ∧ t = { s with sys := t.sys, log := t.log, mnt := t.mnt, nvm := t.nvm, out := t.out }) ∧
  (∀ (s : State) (q : MntReq) (slot : BitVec 8) (off : BitVec 32) (d : List Byte),
      Arrives s 0x14 q (programPayload slot off d) → inState mostStates s = true → InSession s q →
      s.nvm.busy = none → programFits slot off d = true → slotOpen s slot.toNat = false →
        ∃ t, exec (.nvmProgram q slot off d) s = .next t ∧ AnsweredWith s t 0x14 q 2 [] ∧
          t.nvm = { s.nvm with leaseEnd := s.now + 1000000000, frozen := 1000000000 } ∧ t = { s with sys := t.sys, log := t.log, mnt := t.mnt, nvm := t.nvm, out := t.out }) ∧
  (∀ (s : State) (slot : Nat),
        slotOpen s slot = true ↔ slot ≠ s.boot.slot ∨ (s.sys.code = .safe ∧ s.sys.safeKind = .refusal)) ∧
  (∀ (s : State) (q : MntReq) (slot : BitVec 8), Arrives s 0x15 q [slot, 0, 0, 0] → inState mostStates s = true →
      InSession s q → s.nvm.busy = none → slot.toNat < 2 →
        ∃ t, exec (.nvmVerify q slot) s = .next t ∧ t.out = s.out ∧ t.nvm = { s.nvm with
            leaseEnd := s.now + 1000000000, frozen := 1000000000
            busy := some ⟨0x15, q, [slot, 0, 0, 0], .verify slot.toNat⟩ } ∧ t = { s with sys := t.sys, log := t.log, mnt := t.mnt, nvm := t.nvm, out := t.out }) ∧
  (∀ (s : State) (q : MntReq) (slot : BitVec 8), Arrives s 0x16 q [slot, 0, 0, 0] → inState mostStates s = true →
      InSession s q → s.nvm.busy = none → slot.toNat < 2 →
      ((if slot.toNat = 0 then s.nvm.verifiedA else s.nvm.verifiedB) = true) →
        ∃ t, exec (.nvmSwitch q slot true) s = .next t ∧ t.flash = (writePointer s.flash slot.toNat).1 ∧
          AnsweredWith s t 0x16 q 0 (le 4 t.nvm.ptrSeq.toNat) ∧ t.flt = s.flt ∧
          (t.nvm.ptrValid = true → pointerInForce t.flash = some (t.nvm.ptrSector, t.nvm.ptrSlot, t.nvm.ptrSeq.toNat)) ∧
          t = { s with sys := t.sys, log := t.log, mnt := t.mnt, nvm := t.nvm, out := t.out, flash := t.flash }) ∧
  (∀ (s : State) (q : MntReq) (slot : BitVec 8), Arrives s 0x16 q [slot, 0, 0, 0] → inState mostStates s = true →
      InSession s q → s.nvm.busy = none → slot.toNat < 2 →
      ((if slot.toNat = 0 then s.nvm.verifiedA else s.nvm.verifiedB) = true) →
        ∃ t, exec (.nvmSwitch q slot false) s = .next t ∧ t.flash = (switchTorn slot.toNat s).flash ∧
          AnsweredWith s t 0x16 q 5 [] ∧ classCount t 0xA0 = satInc 32 (classCount s 0xA0)) ∧
  (∀ (s : State) (q : MntReq) (slot : BitVec 8) (ok : Bool), Arrives s 0x16 q [slot, 0, 0, 0] →
      inState mostStates s = true → InSession s q → s.nvm.busy = none → slot.toNat < 2 →
      ((if slot.toNat = 0 then s.nvm.verifiedA else s.nvm.verifiedB) = false) →
        ∃ t, exec (.nvmSwitch q slot ok) s = .next t ∧ AnsweredWith s t 0x16 q 2 [] ∧
          t.nvm = { s.nvm with leaseEnd := s.now + 1000000000, frozen := 1000000000 } ∧ t = { s with sys := t.sys, log := t.log, mnt := t.mnt, nvm := t.nvm, out := t.out }) ∧
  (∀ (s : State) (ok : Bool), s.nvm.busy = none →
        exec (.flashOpDone ok) s = .next s ∧ exec .nvmVerifyDone s = .next s) ∧
  (∀ (s : State) (c : SessCmd) (slot : Nat) (ok : Bool), s.nvm.busy = some c → c.todo = .verify slot →
        exec (.flashOpDone ok) s = .next s) ∧
  (∀ (s : State) (c : SessCmd) (slot sector n : Nat) (u : State), s.nvm.busy = some c →
      c.todo = .erase slot sector n →
      u = { s with flash := Memory.erase (slotBase slot + 4096 * sector) s.flash, nvm := { s.nvm with erased := satInc 32 s.nvm.erased } } →
        exec (.flashOpDone true) s = .next (if n ≤ 1 then endSession c 0 [] u
          else { u with nvm := { u.nvm with busy := some { c with todo := .erase slot (sector + 1) (n - 1) } } })) ∧
  (∀ (s : State) (c : SessCmd) (slot off : Nat) (d : List Byte) (u : State), s.nvm.busy = some c →
      c.todo = .program slot off d →
      u = { s with flash := Memory.program (slotBase slot + off) (d.take 256) s.flash, nvm := { s.nvm with programmed := satInc 32 s.nvm.programmed } } →
        exec (.flashOpDone true) s = .next (if d.length ≤ 256 then endSession c 0 [] u
          else { u with nvm := { u.nvm with busy := some { c with todo := .program slot (off + 256) (d.drop 256) } } })) ∧
  (∀ (s : State) (c : SessCmd), s.nvm.busy = some c → (∀ slot, c.todo ≠ .verify slot) →
        exec (.flashOpDone false) s = .next (endSession c 5 [] (report 0xA001 (endFlashOp true s)))) ∧
  (∀ (s : State) (c : SessCmd) (slot : Nat), s.nvm.busy = some c → c.todo = .verify slot → s.sec.resetting = false →
        exec .nvmVerifyDone s = .next (endSession c (if slotCode slot s = 0 then 0 else 6) (le 1 (slotCode slot s))
          { s with nvm :=
            if slot = 0 then { s.nvm with
              reasonA := BitVec.ofNat 8 (slotCode slot s), verifiedA := decide (slotCode slot s = 0) }
            else { s.nvm with
              reasonB := BitVec.ofNat 8 (slotCode slot s), verifiedB := decide (slotCode slot s = 0) } })) ∧
  (∀ (s : State) (c : SessCmd), s.nvm.busy = some c → (s.sec.resetting = true ∨ (∀ slot, c.todo ≠ .verify slot)) →
        exec .nvmVerifyDone s = .next s) ∧
  (∀ (s : State) (c : SessCmd) (status : Nat) (payload : List Byte), s.sec.resetting = false → s.mnt.sessWait = [] →
        AnsweredWith s (endSession c status payload s) c.op c.req status payload ∧
          (endSession c status payload s).nvm =
            { s.nvm with busy := none, leaseEnd := s.now + 1000000000, frozen := 1000000000 } ∧
          (endSession c status payload s).flash = s.flash ∧ (endSession c status payload s).flt = s.flt) ∧
  (∀ (s : State) (i : Instr) (rest : List Instr), s.nvm.busy.isSome = true →
        runWaiting (i :: rest) s = { s with mnt := { s.mnt with sessWait := i :: rest } }) ∧
  (∀ (s : State) (i : Instr) (rest : List Instr) (op : Nat) (q : MntReq) (body : State → Reply), s.nvm.busy = none →
      waitedBody i = some (op, q, body) →
        runWaiting (i :: rest) s = runWaiting rest (runAccepted op q true mostStates body s)) ∧
  (∀ (s : State), s.nvm.locked = true → s.nvm.busy = none →
        exec .nvmLeaseExpire s = .next { s with
          nvm := { s.nvm with
            locked := false, lane := 0, ownerIp := 0, ownerPort := 0, session := 0, leaseEnd := 0, frozen := 0, busy := none,
            verifiedA := false, verifiedB := false }
          mnt := { s.mnt with sessWait := [], cache := s.mnt.cache.filter fun e => e.answer.isSome } }) ∧
  (∀ (s : State), (s.nvm.locked = false ∨ s.nvm.busy.isSome = true) →
        exec .nvmLeaseExpire s = .next s)

/-- The OTP commands program the bits that take, and refuse written fields. Where the spec leaves room the clauses follow the model's choices of log entries 12, 21. Basis: derived; cites 17_maintenance_recovery.md, R643, Tables 17.2, 17.3; 18_power_reset.md, R671. Says that these complete: otpKey, otpRevoke, otpRollback, otpRecovery. -/
def Obligations.OtpCommandsProgramOnce : Prop :=
  (∀ (s : State) (q : MntReq) (slot : BitVec 8) (k : Fin 4) (d took : BitVec 256),
      Arrives s 0x20 q ([slot, 0, 0, 0] ++ digestBytes d) → inState otpStates s = true → InSession s q →
      slot.toNat = k.val → d ≠ 0 → (s.otp.keys[k] = 0 ∨ s.otp.keyTodo[k] = some (otpDigest d)) →
        ∃ t, exec (.otpKey q slot d took) s = .next t ∧
          AnsweredWith s t 0x20 q (if (s.otp.keys[k] ||| (otpDigest d &&& took)) = otpDigest d then 0 else 0x0B) [] ∧
          t.otp = { s.otp with
            keys := vmod s.otp.keys k fun _ => (s.otp.keys[k] ||| (otpDigest d &&& took))
            keyTodo := vmod s.otp.keyTodo k fun _ => if (s.otp.keys[k] ||| (otpDigest d &&& took)) = otpDigest d then none else some (otpDigest d) } ∧
          t.sys.otpFail = (if (s.otp.keys[k] ||| (otpDigest d &&& took)) = otpDigest d then s.sys.otpFail else satInc 32 s.sys.otpFail) ∧ t.nvm = { s.nvm with leaseEnd := s.now + 1000000000, frozen := 1000000000 } ∧
          t = { s with sys := t.sys, log := t.log, mnt := t.mnt, nvm := t.nvm, otp := t.otp, out := t.out }) ∧
  (∀ (s : State) (q : MntReq) (slot : BitVec 8) (k : Fin 4) (d took : BitVec 256),
      Arrives s 0x20 q ([slot, 0, 0, 0] ++ digestBytes d) → inState otpStates s = true → InSession s q →
      slot.toNat = k.val → d ≠ 0 → s.otp.keys[k] ≠ 0 → s.otp.keyTodo[k] ≠ some (otpDigest d) →
        ∃ t, exec (.otpKey q slot d took) s = .next t ∧ AnsweredWith s t 0x20 q 7 [] ∧ t.otp = s.otp ∧ t.flt.woViolation = true ∧
          t.flt.woCount = satInc 32 s.flt.woCount ∧ classCount t 0xB0 = satInc 32 (classCount s 0xB0)) ∧
  (∀ (s : State) (q : MntReq) (slot : BitVec 8) (k : Fin 4) (took : Bool), Arrives s 0x21 q [slot, 0, 0, 0] →
      inState otpStates s = true → InSession s q → slot.toNat = k.val →
      (s.img.valid = false ∨ s.img.keySlot ≠ slot.toNat) → s.otp.revoke.getLsbD k.val = false →
        ∃ t, exec (.otpRevoke q slot took) s = .next t ∧ AnsweredWith s t 0x21 q (if took then 0 else 0x0B) [] ∧
          t.otp = { s.otp with revoke := s.otp.revoke ||| (if took then (1 : BitVec 4) <<< k.val else 0) } ∧
          t.sys.otpFail = (if took then s.sys.otpFail else satInc 32 s.sys.otpFail) ∧ t.nvm = { s.nvm with leaseEnd := s.now + 1000000000, frozen := 1000000000 } ∧
          t = { s with sys := t.sys, log := t.log, mnt := t.mnt, nvm := t.nvm, otp := t.otp, out := t.out }) ∧
  (∀ (s : State) (q : MntReq) (slot : BitVec 8) (k : Fin 4) (took : Bool), Arrives s 0x21 q [slot, 0, 0, 0] →
      inState otpStates s = true → InSession s q → slot.toNat = k.val →
      (s.img.valid = false ∨ s.img.keySlot ≠ slot.toNat) → s.otp.revoke.getLsbD k.val = true →
        ∃ t, exec (.otpRevoke q slot took) s = .next t ∧ AnsweredWith s t 0x21 q 7 [] ∧ t.otp = s.otp ∧ t.flt.woViolation = true ∧
          t.flt.woCount = satInc 32 s.flt.woCount ∧ classCount t 0xB0 = satInc 32 (classCount s 0xB0)) ∧
  (∀ (s : State) (q : MntReq) (slot : BitVec 8) (took : Bool), Arrives s 0x21 q [slot, 0, 0, 0] →
      inState otpStates s = true → InSession s q → slot.toNat < 4 → s.img.valid = true → s.img.keySlot = slot.toNat →
        ∃ t, exec (.otpRevoke q slot took) s = .next t ∧ AnsweredWith s t 0x21 q 0x0A [] ∧ t.otp = s.otp ∧ t.nvm = { s.nvm with leaseEnd := s.now + 1000000000, frozen := 1000000000 } ∧
          t = { s with sys := t.sys, log := t.log, mnt := t.mnt, nvm := t.nvm, otp := t.otp, out := t.out }) ∧
  (∀ (s : State) (q : MntReq) (v : BitVec 32) (took : BitVec 64), Arrives s 0x22 q (le 4 v.toNat) →
      inState (rollbackStates s) s = true → InSession s q → 1 ≤ v.toNat → v.toNat ≤ 64 → v.toNat ≤ s.img.rollback →
      popcount 64 s.otp.rb < v.toNat →
        ∃ t, exec (.otpRollback q v took) s = .next t ∧
          t.otp = { s.otp with rb := s.otp.rb ||| (BitVec.ofNat 64 (2 ^ v.toNat - 1) &&& took) } ∧
          AnsweredWith s t 0x22 q (if (s.otp.rb ||| took) &&& BitVec.ofNat 64 (2 ^ v.toNat - 1) = BitVec.ofNat 64 (2 ^ v.toNat - 1) then 0 else 0x0B) (if (s.otp.rb ||| took) &&& BitVec.ofNat 64 (2 ^ v.toNat - 1) = BitVec.ofNat 64 (2 ^ v.toNat - 1) then le 1 (popcount 64 t.otp.rb) else []) ∧
          t.sys.otpFail = (if (s.otp.rb ||| took) &&& BitVec.ofNat 64 (2 ^ v.toNat - 1) = BitVec.ofNat 64 (2 ^ v.toNat - 1) then s.sys.otpFail else satInc 32 s.sys.otpFail) ∧ t.nvm = { s.nvm with leaseEnd := s.now + 1000000000, frozen := 1000000000 } ∧
          t = { s with sys := t.sys, log := t.log, mnt := t.mnt, nvm := t.nvm, otp := t.otp, out := t.out }) ∧
  (∀ (s : State) (q : MntReq) (v : BitVec 32) (took : BitVec 64), Arrives s 0x22 q (le 4 v.toNat) →
      inState (rollbackStates s) s = true → InSession s q → 1 ≤ v.toNat → v.toNat ≤ 64 → v.toNat ≤ s.img.rollback →
      v.toNat ≤ popcount 64 s.otp.rb →
        ∃ t, exec (.otpRollback q v took) s = .next t ∧ AnsweredWith s t 0x22 q 7 [] ∧ t.otp = s.otp ∧ t.flt.woViolation = true ∧
          t.flt.woCount = satInc 32 s.flt.woCount ∧ classCount t 0xB0 = satInc 32 (classCount s 0xB0)) ∧
  (∀ (s : State) (q : MntReq) (v : BitVec 32) (took : BitVec 64), Arrives s 0x22 q (le 4 v.toNat) →
      inState (rollbackStates s) s = true → InSession s q → 1 ≤ v.toNat → v.toNat ≤ 64 → s.img.rollback < v.toNat →
        ∃ t, exec (.otpRollback q v took) s = .next t ∧ AnsweredWith s t 0x22 q 0x0A [] ∧ t.otp = s.otp ∧ t.nvm = { s.nvm with leaseEnd := s.now + 1000000000, frozen := 1000000000 } ∧
          t = { s with sys := t.sys, log := t.log, mnt := t.mnt, nvm := t.nvm, otp := t.otp, out := t.out }) ∧
  (∀ (s : State) (q : MntReq) (lane pfx : BitVec 8) (ip : BitVec 32) (took : BitVec 38) (k : Fin 2),
      Arrives s 0x23 q ([lane, pfx, 0, 0] ++ be 4 ip.toNat) → inState otpStates s = true → InSession s q →
      lane.toNat = k.val → 8 ≤ pfx.toNat → pfx.toNat ≤ 30 → unicast ip.toNat pfx.toNat = true →
      s.otp.recov[k].written = false →
        ∃ t, exec (.otpRecovery q lane pfx ip took) s = .next t ∧
          t.otp.recov[k] = ⟨(s.otp.recov[k].ip ||| (ip &&& took.extractLsb' 0 32)), (s.otp.recov[k].pfx ||| (BitVec.ofNat 5 pfx.toNat &&& took.extractLsb' 32 5)),
            (s.otp.recov[k].ip ||| (ip &&& took.extractLsb' 0 32)) == ip && (s.otp.recov[k].pfx ||| (BitVec.ofNat 5 pfx.toNat &&& took.extractLsb' 32 5)) == BitVec.ofNat 5 pfx.toNat &&
              took.getLsbD 37⟩ ∧
          t.otp = { s.otp with recov := vmod s.otp.recov k fun _ => t.otp.recov[k] } ∧
          AnsweredWith s t 0x23 q (if t.otp.recov[k].written then 0 else 0x0B) [] ∧
          t.sys.otpFail = (if t.otp.recov[k].written then s.sys.otpFail else satInc 32 s.sys.otpFail) ∧ t.nvm = { s.nvm with leaseEnd := s.now + 1000000000, frozen := 1000000000 } ∧
          t = { s with sys := t.sys, log := t.log, mnt := t.mnt, nvm := t.nvm, otp := t.otp, out := t.out }) ∧
  (∀ (s : State) (q : MntReq) (lane pfx : BitVec 8) (ip : BitVec 32) (took : BitVec 38) (k : Fin 2),
      Arrives s 0x23 q ([lane, pfx, 0, 0] ++ be 4 ip.toNat) → inState otpStates s = true → InSession s q →
      lane.toNat = k.val → 8 ≤ pfx.toNat → pfx.toNat ≤ 30 → unicast ip.toNat pfx.toNat = true →
      s.otp.recov[k].written = true →
        ∃ t, exec (.otpRecovery q lane pfx ip took) s = .next t ∧ AnsweredWith s t 0x23 q 7 [] ∧ t.otp = s.otp ∧ t.flt.woViolation = true ∧
          t.flt.woCount = satInc 32 s.flt.woCount ∧ classCount t 0xB0 = satInc 32 (classCount s 0xB0)) ∧
  (∀ (ip : BitVec 32) (pfx : Nat),
        unicast ip.toNat pfx = true ↔ ip ≠ 0 ∧ ip.toNat / 2 ^ 24 ≠ 127 ∧ ip.toNat < 0xE0000000 ∧
          ip.toNat % 2 ^ (32 - pfx) ≠ 2 ^ (32 - pfx) - 1)

/-- Re-inits, watchdog rungs, warm resets and power cycles. Where the spec leaves room the clauses follow the model's choices of log entries 12, 19, 25, 38. Basis: derived; cites 17_maintenance_recovery.md, R644 to R647, Tables 17.10, 17.11; 18_power_reset.md, R664 to R666. Says that these complete: reinitEgress, reinitHkc, reinitStarling, reinitPixel, reinitFabric, reinitDone, funcWatchdogExpire, resetWarm, powerCycle, pwrcycTimeout. -/
def Obligations.RecoveryLadderRungs : Prop :=
  (∀ (s : State), inState (reinitStates .egress) s = true → reinitBusy .egress s = false →
        ∃ t, exec (.reinitEgress none) s = .next t ∧ t.sys = { s.sys with
            funcBusy := s.sys.funcBusy ||| (1#5 <<< (funcIx .egress).val)
            funcCount := satInc 16 s.sys.funcCount
            wd := vmod s.sys.wd (funcIx .egress) fun w => { w with expiries := 0, afterReinit := 0, reinitEnd := none } } ∧
          t.net.lane = s.net.lane.map laneReinit ∧ t.nvm.locked = false ∧ t.nvm.busy = none ∧
          t.flash = (endFlashOp false s).flash ∧ t.ptp.pl = Vector.replicate 2 PtpLane.reset ∧ t.ptp.slew = 0 ∧
          t.ptp.goodRun = 0 ∧ t.ptp.lockedAt = none ∧ t.ptp.state = (if s.ptp.state = 1 then 2 else s.ptp.state) ∧
          0x4101 ∉ t.flt.standing ∧ 0x4102 ∉ t.flt.standing ∧ t.hkc = s.hkc ∧ t.fab = s.fab ∧ t.pix = s.pix ∧ t.star = s.star) ∧
  (∀ (s : State), (inState (reinitStates .egress) s = false ∨ reinitBusy .egress s = true) →
        exec (.reinitEgress none) s = .next s) ∧
  (∀ (s : State) (q : MntReq), Arrives s 0x30 q (reinitPayload .egress) → inState (reinitStates .egress) s = true →
      reinitBusy .egress s = false →
        exec (.reinitEgress (some q)) s = .next (startReinit .egress
          (finish 0x30 q (answerOf 0x30 0 []) (accept 0x30 q (reinitPayload .egress) s))) ∧
          AnsweredWith s (finish 0x30 q (answerOf 0x30 0 []) (accept 0x30 q (reinitPayload .egress) s)) 0x30 q 0 []) ∧
  (∀ (s : State), inState (reinitStates .hkc) s = true → reinitBusy .hkc s = false →
        ∃ t, exec (.reinitHkc none) s = .next t ∧ t.sys = { s.sys with
            funcBusy := s.sys.funcBusy ||| (1#5 <<< (funcIx .hkc).val)
            funcCount := satInc 16 s.sys.funcCount
            wd := vmod s.sys.wd (funcIx .hkc) fun w => { w with expiries := 0, afterReinit := 0, reinitEnd := none } } ∧
          t = { s with sys := t.sys, hkc := t.hkc } ∧
          t.hkc = { quiet s.hkc with
            scanOn := false, refEn := false, settled := false, roleP := 3, roleQ := 3, roleC := 3, calDone := 0
            slice := s.hkc.slice.map fun x => { x with inService := false, calibrated := false } }) ∧
  (∀ (s : State), (inState (reinitStates .hkc) s = false ∨ reinitBusy .hkc s = true) →
        exec (.reinitHkc none) s = .next s) ∧
  (∀ (s : State) (q : MntReq), Arrives s 0x30 q (reinitPayload .hkc) → inState (reinitStates .hkc) s = true →
      reinitBusy .hkc s = false →
        exec (.reinitHkc (some q)) s = .next (startReinit .hkc
          (finish 0x30 q (answerOf 0x30 0 []) (accept 0x30 q (reinitPayload .hkc) s))) ∧
          AnsweredWith s (finish 0x30 q (answerOf 0x30 0 []) (accept 0x30 q (reinitPayload .hkc) s)) 0x30 q 0 []) ∧
  (∀ (s : State) (q : MntReq), Arrives s 0x30 q (reinitPayload .hkc) → inState (reinitStates .hkc) s = true →
      reinitBusy .hkc s = true →
        ∃ t, exec (.reinitHkc (some q)) s = .next t ∧ t.out = s.out ∧
          t.mnt = { s.mnt with
            cache := t.mnt.cache, reinitWait := s.mnt.reinitWait ++ [⟨0x30, q, reinitPayload .hkc, none⟩] } ∧
          t = { s with sys := t.sys, log := t.log, mnt := t.mnt } ∧
          t.sys = { s.sys with hseq := q.seq.toNat, mntAccepted := satInc 32 s.sys.mntAccepted }) ∧
  (∀ (s : State), inState (reinitStates .starling) s = true → reinitBusy .starling s = false →
        ∃ t, exec (.reinitStarling none) s = .next t ∧ t.sys = { s.sys with
            funcBusy := s.sys.funcBusy ||| (1#5 <<< (funcIx .starling).val)
            funcCount := satInc 16 s.sys.funcCount
            wd := vmod s.sys.wd (funcIx .starling) fun w => { w with expiries := 0, afterReinit := 0, reinitEnd := none } } ∧
          t.star.encMaster = false ∧ t.star.groupMaster = false ∧ t.star.claiming = false ∧ t.star.granted = false ∧
          t.star.detour = none ∧ t.star.holder = none ∧
          (∀ d : Side, (portAt t d).want = if (portAt s d).passive = true then none else some true) ∧
          (s.star.encMaster = true → t.lt.acc = 0 ∧ t.lt.deficit = 0) ∧
          t.hkc = s.hkc ∧ t.fab = s.fab ∧ t.pix = s.pix ∧ t.net = s.net) ∧
  (∀ (s : State), (inState (reinitStates .starling) s = false ∨ reinitBusy .starling s = true) →
        exec (.reinitStarling none) s = .next s) ∧
  (∀ (s : State) (q : MntReq), Arrives s 0x30 q (reinitPayload .starling) →
      inState (reinitStates .starling) s = true → reinitBusy .starling s = false →
        exec (.reinitStarling (some q)) s = .next (startReinit .starling
          (finish 0x30 q (answerOf 0x30 0 []) (accept 0x30 q (reinitPayload .starling) s))) ∧
          AnsweredWith s (finish 0x30 q (answerOf 0x30 0 []) (accept 0x30 q (reinitPayload .starling) s)) 0x30 q 0 []) ∧
  (∀ (s : State) (q : MntReq), Arrives s 0x30 q (reinitPayload .starling) →
      inState (reinitStates .starling) s = true → reinitBusy .starling s = true →
        ∃ t, exec (.reinitStarling (some q)) s = .next t ∧ t.out = s.out ∧
          t.mnt = { s.mnt with
            cache := t.mnt.cache, reinitWait := s.mnt.reinitWait ++ [⟨0x30, q, reinitPayload .starling, none⟩] } ∧
          t = { s with sys := t.sys, log := t.log, mnt := t.mnt } ∧
          t.sys = { s.sys with hseq := q.seq.toNat, mntAccepted := satInc 32 s.sys.mntAccepted }) ∧
  (∀ (s : State), inState (reinitStates .pixel) s = true → reinitBusy .pixel s = false →
        ∃ t, exec (.reinitPixel none) s = .next t ∧ t.sys = { s.sys with
            funcBusy := s.sys.funcBusy ||| (1#5 <<< (funcIx .pixel).val)
            funcCount := satInc 16 s.sys.funcCount
            wd := vmod s.sys.wd (funcIx .pixel) fun w => { w with expiries := 0, afterReinit := 0, reinitEnd := none } } ∧
          (∀ l ∈ t.spr.lines, l.ladleDone = false → l.uninsp = true) ∧ t.pix.regBuf = Vector.replicate 4 [] ∧
          t.pix.closed = Vector.replicate 4 none ∧ t.pix.settled = false ∧ t.pix.charge = Vector.replicate 128 0 ∧
          (s.img.on Fld.affEn [] = true → t.pix.aff.frozen = 15) ∧
          t.hkc = s.hkc ∧ t.fab = s.fab ∧ t.net = s.net ∧ t.star = s.star) ∧
  (∀ (s : State), (inState (reinitStates .pixel) s = false ∨ reinitBusy .pixel s = true) →
        exec (.reinitPixel none) s = .next s) ∧
  (∀ (s : State) (q : MntReq), Arrives s 0x30 q (reinitPayload .pixel) → inState (reinitStates .pixel) s = true →
      reinitBusy .pixel s = false →
        exec (.reinitPixel (some q)) s = .next (startReinit .pixel
          (finish 0x30 q (answerOf 0x30 0 []) (accept 0x30 q (reinitPayload .pixel) s))) ∧
          AnsweredWith s (finish 0x30 q (answerOf 0x30 0 []) (accept 0x30 q (reinitPayload .pixel) s)) 0x30 q 0 []) ∧
  (∀ (s : State) (q : MntReq), Arrives s 0x30 q (reinitPayload .pixel) → inState (reinitStates .pixel) s = true →
      reinitBusy .pixel s = true →
        ∃ t, exec (.reinitPixel (some q)) s = .next t ∧ t.out = s.out ∧
          t.mnt = { s.mnt with
            cache := t.mnt.cache, reinitWait := s.mnt.reinitWait ++ [⟨0x30, q, reinitPayload .pixel, none⟩] } ∧
          t = { s with sys := t.sys, log := t.log, mnt := t.mnt } ∧
          t.sys = { s.sys with hseq := q.seq.toNat, mntAccepted := satInc 32 s.sys.mntAccepted }) ∧
  (∀ (s : State), inState (reinitStates .fabric) s = true → reinitBusy .fabric s = false →
        ∃ t, exec (.reinitFabric none) s = .next t ∧ t.sys = { s.sys with
            funcBusy := s.sys.funcBusy ||| (1#5 <<< (funcIx .fabric).val)
            funcCount := satInc 16 s.sys.funcCount
            wd := vmod s.sys.wd (funcIx .fabric) fun w => { w with expiries := 0, afterReinit := 0, reinitEnd := none } } ∧
          t.fab.wcnt = { s.fab.wcnt with reloading := true, rtagValid := false } ∧
          (∀ p : Fin 72, t.fab.perch[p].finch = ({ Finch.reset with slice := s.fab.perch[p].finch.slice } : Finch) ∧
            t.fab.perch[p].run.rxQ = Vector.replicate 16 [] ∧ t.fab.perch[p].run.outBuf = Vector.replicate 4 [] ∧
            t.fab.perch[p].run.backlog = Vector.replicate 16 [] ∧ t.fab.perch[p].wren.ac = Vector.replicate 16 0) ∧
          (∀ (p : Fin 72) (w : Nat × WWord), w ∈ t.fab.perch[p].wren.words → ∃ g ∈ residents s.img (rowOf p),
            256 * g.base ≤ w.1 ∧ w.1 < 256 * (g.base + g.len)) ∧
          t.hkc = s.hkc ∧ t.pix = s.pix ∧ t.net = s.net ∧ t.star = s.star) ∧
  (∀ (s : State), (inState (reinitStates .fabric) s = false ∨ reinitBusy .fabric s = true) →
        exec (.reinitFabric none) s = .next s) ∧
  (∀ (s : State) (q : MntReq), Arrives s 0x30 q (reinitPayload .fabric) → inState (reinitStates .fabric) s = true →
      reinitBusy .fabric s = false →
        exec (.reinitFabric (some q)) s = .next (startReinit .fabric
          (finish 0x30 q (answerOf 0x30 0 []) (accept 0x30 q (reinitPayload .fabric) s))) ∧
          AnsweredWith s (finish 0x30 q (answerOf 0x30 0 []) (accept 0x30 q (reinitPayload .fabric) s)) 0x30 q 0 []) ∧
  (∀ (s : State) (q : MntReq), Arrives s 0x30 q (reinitPayload .fabric) → inState (reinitStates .fabric) s = true →
      reinitBusy .fabric s = true →
        ∃ t, exec (.reinitFabric (some q)) s = .next t ∧ t.out = s.out ∧
          t.mnt = { s.mnt with
            cache := t.mnt.cache, reinitWait := s.mnt.reinitWait ++ [⟨0x30, q, reinitPayload .fabric, none⟩] } ∧
          t = { s with sys := t.sys, log := t.log, mnt := t.mnt } ∧
          t.sys = { s.sys with hseq := q.seq.toNat, mntAccepted := satInc 32 s.sys.mntAccepted }) ∧
  (∀ (s : State) (f : Func), reinitBusy f s = false →
        startReinit f s = reinitStart f { s with sys := { s.sys with
          funcBusy := s.sys.funcBusy ||| (1#5 <<< (funcIx f).val)
          funcCount := satInc 16 s.sys.funcCount
          wd := vmod s.sys.wd (funcIx f) fun w => { w with expiries := 0, afterReinit := 0, reinitEnd := none } } }) ∧
  (∀ (s : State) (f : Func),
        reinitStart f s = (match f with
          | .egress => reinitStartEgress s
          | .hkc => reinitStartHkc s
          | .starling => reinitStartStarling s
          | .pixel => reinitStartPixel s
          | .fabric => reinitStartFabric s)) ∧
  (∀ (s : State) (f : Func) (cal : List CalRes), reinitBusy f s = true → s.sys.supResetting = false →
        ∃ t, exec (.reinitDone f cal) s = .next t ∧ t.sys = { s.sys with
            funcBusy := s.sys.funcBusy &&& ~~~(1#5 <<< (funcIx f).val)
            wd := vmod s.sys.wd (funcIx f) fun w => { w with
              reinitEnd := some s.now, expiries := 0, progress := false } } ∧
          t.mnt.reinitWait = s.mnt.reinitWait.filter (fun e => e.payload != reinitPayload f) ∧
          (f = .hkc → t.hkc.scanOn = true ∧ t.hkc.refEn = true ∧ t.hkc.calDone = 3 ∧ t.hkc.refSel = s.hkc.refSel) ∧
          (f = .pixel → t.pix.settled = true ∧ t.lt.restart = true) ∧
          (f = .fabric → t.fab.wcnt.reloading = false ∧ t.fab.wcnt.rtagValid = allVerified s.img t) ∧
          (f = .starling → ∀ d : Side, (portAt t d).want =
            if (portAt s d).passive = s.star.pvOut then none else some s.star.pvOut) ∧
          (s.mnt.reinitWait = [] → t.out = s.out)) ∧
  (∀ (s : State) (f : Func) (cal : List CalRes) (q : MntReq), reinitBusy f s = true → s.sys.supResetting = false →
      s.sec.resetting = false → s.mnt.reinitWait = [⟨0x30, q, reinitPayload f, none⟩] →
        ∃ t, exec (.reinitDone f cal) s = .next t ∧ AnsweredWith s t 0x30 q 0 []) ∧
  (∀ (s : State) (f : Func) (cal : List CalRes), (reinitBusy f s = false ∨ s.sys.supResetting = true) →
        exec (.reinitDone f cal) s = .next s) ∧
  (∀ (s : State) (f : Func), (watchRuns f s = false ∨ reinitBusy f s = true ∨ s.sys.supResetting = true) →
        exec (.funcWatchdogExpire f) s = .next s) ∧
  (∀ (s : State) (f : Func), watchRuns f s = true → reinitBusy f s = false → s.sys.supResetting = false →
      within (sec 60) s.sys.wd[funcIx f].reinitEnd s = false →
      (s.sys.wd[funcIx f].expiries = 0 ∨ s.sys.wd[funcIx f].progress = true) →
        ∃ t, exec (.funcWatchdogExpire f) s = .next t ∧
          t.sys.wd = vmod s.sys.wd (funcIx f) (fun w => { w with expiries := 1, progress := false }) ∧
          classCount t 0x61 = satInc 32 (classCount s 0x61) ∧ t.sys.funcBusy = s.sys.funcBusy ∧ t.sys.code = s.sys.code) ∧
  (∀ (s : State) (f : Func), watchRuns f s = true → reinitBusy f s = false → s.sys.supResetting = false →
      within (sec 60) s.sys.wd[funcIx f].reinitEnd s = false → 1 ≤ s.sys.wd[funcIx f].expiries →
      s.sys.wd[funcIx f].progress = false →
        exec (.funcWatchdogExpire f) s = .next (startReinit f s)) ∧
  (∀ (s : State) (f : Func), watchRuns f s = true → reinitBusy f s = false → s.sys.supResetting = false →
      within (sec 60) s.sys.wd[funcIx f].reinitEnd s = true → s.sys.wd[funcIx f].afterReinit = 0 →
        ∃ t, exec (.funcWatchdogExpire f) s = .next t ∧
          t.sys.wd = vmod s.sys.wd (funcIx f) (fun w => { w with afterReinit := 1, progress := false }) ∧
          classCount t 0x61 = satInc 32 (classCount s 0x61) ∧ t.sys.funcBusy = s.sys.funcBusy ∧ t.sys.code = s.sys.code) ∧
  (∀ (s : State) (f : Func), watchRuns f s = true → reinitBusy f s = false → s.sys.supResetting = false →
      within (sec 60) s.sys.wd[funcIx f].reinitEnd s = true → 1 ≤ s.sys.wd[funcIx f].afterReinit →
        ∃ t, exec (.funcWatchdogExpire f) s = .next t ∧ t.sys.code = .boot ∧ t.boot.stage = 2 ∧
          t.boot.safeLatch = within (sec 600) s.sys.wd[funcIx f].warmRun s ∧
          (inState [.boot, .commit] s = false → t.sys.resetFault = faultCode 0x61 (funcIx f).val ∧ t.sys.bySup = true ∧
            t.sys.cause = if within (sec 600) s.sys.wd[funcIx f].warmRun s then 5 else 3) ∧
          (within (sec 600) s.sys.wd[funcIx f].warmRun s = false → t.sys.wd[funcIx f].bySupWarm = true)) ∧
  (∀ (s : State), inState mostStates s = true →
        ∃ t, exec (.resetWarm none) s = .next t ∧ t.sys.code = .boot ∧ t.boot.stage = 2 ∧ t.boot.warm = true ∧
          t.boot.safeLatch = false ∧ t.img = Image.reset ∧ t.otp = s.otp ∧ t.nvm.locked = false ∧ t.sys.cause = 3 ∧
          t.sys.bySup = true ∧ t.now = s.now) ∧
  (∀ (s : State), inState mostStates s = false →
        exec (.resetWarm none) s = .next s) ∧
  (∀ (s : State) (q : MntReq), Arrives s 0x31 q [] → inState mostStates s = true →
        ∃ t, exec (.resetWarm (some q)) s = .next t ∧ t.sys.code = .boot ∧ t.boot.stage = 2 ∧ t.boot.warm = true ∧
          t.boot.safeLatch = false ∧ t.img = Image.reset ∧ t.otp = s.otp ∧ t.nvm.locked = false ∧ t.sys.cause = 3 ∧
          t.sys.bySup = false ∧ t.now = s.now ∧
          Out.frame q.lane (answerFrame s 0 0x31 q (answerOf 0x31 0 [])) ∈ t.out) ∧
  (∀ (s : State) (q : MntReq), Arrives s 0x32 q [] → inState mostStates s = true →
        ∃ t, exec (.powerCycle q) s = .next t ∧ AnsweredWith s t 0x32 q 0 [] ∧
          t = { s with sys := t.sys, log := t.log, mnt := t.mnt, out := t.out } ∧
          t.sys = { s.sys with
            hseq := q.seq.toNat, mntAccepted := satInc 32 s.sys.mntAccepted, pwrcycLow := true
            pwrcycRequests := satInc 16 s.sys.pwrcycRequests }) ∧
  (∀ (s : State), s.sys.pwrcycLow = true →
        exec .pwrcycTimeout s = .next { s with sys := { s.sys with
          pwrcycLow := false, pwrcycNotTaken := satInc 16 s.sys.pwrcycNotTaken } }) ∧
  (∀ (s : State), s.sys.pwrcycLow = false →
        exec .pwrcycTimeout s = .next s)

/-- Log records and map snapshots are programmed, and full sectors erased. Where the spec leaves room the clauses follow the model's choices of log entries 8, 9, 39. Basis: derived; cites 18_power_reset.md, R678 to R683, Tables 18.8, 18.9; 17_maintenance_recovery.md, R626; 02_architecture.md, R71. Says that these complete: logCommit, mapSnapshotCommit, logSectorErase. -/
def Obligations.LogAndSnapshotsReachTheFlash : Prop :=
  (∀ (s : State),
        canCommit s = true ↔ s.sys.supResetting = false ∧ s.sys.code ≠ .off ∧ s.sys.code ≠ .sleep ∧
          (s.sys.code = .boot → 5 ≤ s.boot.stage)) ∧
  (∀ (s : State) (ok : Bool), (s.log.queue = [] ∨ canCommit s = false ∨ s.log.snapPending = true) →
        exec (.logCommit ok) s = .next s) ∧
  (∀ (s : State) (r : LogRec) (rest : List LogRec), s.log.queue = r :: rest → canCommit s = true →
      s.log.snapPending = false →
        exec (.logCommit true) s = .next { s with
          flash := Memory.program (0x4000 + 64 * s.log.nextSlot) (recordBody (frontRecord s.log r) ++ [0]) s.flash
          log := { s.log with
            queue := rest
            dropped := if r.kind = 1 then 0 else s.log.dropped
            logNext := (s.log.logNext + 1) % 2 ^ 32
            nextSlot := (s.log.nextSlot + 1) % 65280 } }) ∧
  (∀ (s : State) (r : LogRec) (rest : List LogRec), s.log.queue = r :: rest → canCommit s = true →
      s.log.snapPending = false →
        ∃ t, exec (.logCommit false) s = .next t ∧ t.log.queue.head? = some r ∧ t.log.logNext = s.log.logNext ∧
          t.log.nextSlot = (s.log.nextSlot + 1) % 65280 ∧ classCount t 0xA0 = satInc 32 (classCount s 0xA0) ∧
          t.flash = Memory.program (0x4000 + 64 * s.log.nextSlot)
            (tornProgram s.freeCtr 0 (recordBody (frontRecord s.log r))) s.flash) ∧
  (∀ (s : State) (ok : Bool), (canCommit s = false ∨ s.log.snapPending = false) →
        exec (.mapSnapshotCommit ok) s = .next s) ∧
  (∀ (s : State) (m : List Host.Cell), canCommit s = true → s.log.snapPending = true →
      m = Memory.program (0x2000 + 512 * s.log.snapSlot) (snapshotBody (s.log.snapSeq + 1) s.log.scWant s ++ [0]) s.flash →
        exec (.mapSnapshotCommit true) s = .next (s.mnt.waiting.foldl (fun t i => runMnt i t) { s with
          flash := if s.log.snapSlot % 8 = 0 then Memory.erase (0x2000 + 512 * (8 - s.log.snapSlot)) m else m
          log := { s.log with
            snapPending := false
            snapSlot := (s.log.snapSlot + 1) % 16
            snapSeq := (s.log.snapSeq + 1) % 2 ^ 32
            sc := s.log.scWant }
          mnt := { s.mnt with waiting := [] } })) ∧
  (∀ (s t : State) (c : Instr) (x : Packet), packetOf s c = some x → exec c s = .next t →
        runMnt c s = t) ∧
  (∀ (s : State), canCommit s = true → s.log.snapPending = true →
        ∃ t, exec (.mapSnapshotCommit false) s = .next t ∧ t.log.snapPending = true ∧ t.log.sc = s.log.sc ∧
          t.log.snapSeq = s.log.snapSeq ∧ t.log.snapSlot = (s.log.snapSlot + 1) % 16 ∧
          classCount t 0xA0 = satInc 32 (classCount s 0xA0) ∧ t.mnt = s.mnt ∧
          t.flash = Memory.program (0x2000 + 512 * s.log.snapSlot)
            (tornProgram s.freeCtr 0 (snapshotBody (s.log.snapSeq + 1) s.log.scWant s)) s.flash) ∧
  (∀ (s : State) (sector : Nat), sector = (s.log.nextSlot / 64 + 1) % 1020 → canCommit s = true →
      usedSlots s.flash (0x4000 + 4096 * sector) 4096 1 ≠ [] →
        exec .logSectorErase s = .next { s with
          flash := Memory.erase (0x4000 + 4096 * sector) s.flash
          log := { s.log with logFirst :=
            ((newestRecord ((committedRecords s.flash).filter fun p => p.1 / 64 = sector)).map fun p =>
              (p.2 + 1) % 2 ^ 32).getD s.log.logFirst } }) ∧
  (∀ (s : State),
      (canCommit s = false ∨ usedSlots s.flash (0x4000 + 4096 * ((s.log.nextSlot / 64 + 1) % 1020)) 4096 1 = []) →
        exec .logSectorErase s = .next s)

/-- No command changes the queue of waiting commands. Where the spec leaves room the clauses follow the model's choices of log entry 4. Basis: derived; cites 00_scope.md, Conventions; 95_what_each_step_holds.md. -/
def Obligations.CommandsLeaveTheQueue : Prop :=
  ∀ (c : Instr) (s t : State), exec c s = .next t →
        t.pending = s.pending

/-- Every step keeps the flash contents in their canonical form. Where the spec leaves room the clauses follow the model's choices of log entries 4, 7. Basis: derived; cites 18_power_reset.md, R678, R681, R682; 17_maintenance_recovery.md, R639, R641. -/
def Obligations.StepsKeepTheFlashCanonical : Prop :=
  ∀ (s t : State), CanonicalFlash s → step s = .next t →
        CanonicalFlash t

/-- Every step keeps the words of every Wren in their canonical form. Where the spec leaves room the clauses follow the model's choices of log entries 4, 14. Basis: derived; cites 07_wren.md, R250, R259, R274, R281, R285. -/
def Obligations.StepsKeepEveryWrenCanonical : Prop :=
  ∀ (s t : State), (∀ p : Fin 72, CanonicalWren s p) → step s = .next t →
        ∀ p : Fin 72, CanonicalWren t p

/-- No step takes back a programmed OTP bit. Where the spec leaves room the clauses follow the model's choices of log entry 21. Basis: derived; cites 00_scope.md, R24; 17_maintenance_recovery.md, R623, R643; 18_power_reset.md, R670. -/
def Obligations.StepsOnlyProgramOtp : Prop :=
  ∀ (s t : State), step s = .next t →
        OtpGrew s.otp t.otp
end

