-- ==== Sys2Proof/Laws/Memory.lean ====
section
/-! SUPPORT. Sparse memory: every operation keeps the canonical form, a read after a write, what the other addresses
read as, and that canonical memories which read alike are equal. -/

namespace Sys2Proof.Machine

variable {α : Type} [DecidableEq α] {d v w : α} {a b lo lo' hi n : Nat} {m m' : List (Nat × α)}

/-! ### The canonical form -/

theorem wfAbove_nil : Sparse.wfAbove d lo [] = true := rfl

theorem wfAbove_cons : Sparse.wfAbove d lo ((a, v) :: m) = true ↔ lo ≤ a ∧ v ≠ d ∧ Sparse.wfAbove d (a + 1) m = true := by
  simp [Sparse.wfAbove, and_assoc]

theorem wfAbove_of_le (h : lo ≤ lo') (hm : Sparse.wfAbove d lo' m = true) : Sparse.wfAbove d lo m = true := by
  cases m with
  | nil => rfl
  | cons c r =>
    obtain ⟨h1, h2, h3⟩ := wfAbove_cons.mp hm
    exact wfAbove_cons.mpr ⟨Nat.le_trans h h1, h2, h3⟩

/-- Below the first address every address reads the unlisted value. -/
theorem read_below (hm : Sparse.wfAbove d lo m = true) (h : a < lo) : Sparse.read d m a = d := by
  induction m generalizing lo with
  | nil => rfl
  | cons c r ih =>
    obtain ⟨h1, -, h3⟩ := wfAbove_cons.mp hm
    have : c.1 ≠ a := by omega
    simp only [Sparse.read, this, if_false]
    exact ih h3 (by omega)

theorem wfAbove_write (hm : Sparse.wfAbove d lo m = true) (ha : lo ≤ a) :
    Sparse.wfAbove d lo (Sparse.write d a v m) = true := by
  induction m generalizing lo with
  | nil =>
    by_cases hv : v = d
    · simp [Sparse.write, hv, Sparse.wfAbove]
    · simp [Sparse.write, hv, Sparse.wfAbove, ha]
  | cons c r ih =>
    obtain ⟨x, y⟩ := c
    obtain ⟨h1, h2, h3⟩ := wfAbove_cons.mp hm
    unfold Sparse.write
    by_cases hv : v = d <;> rcases Nat.lt_trichotomy a x with hx | hx | hx
    · simp only [hx, hv, if_true]
      exact hm
    · subst hx
      simp only [Nat.lt_irrefl, hv, if_true, if_false]
      exact wfAbove_of_le (by omega) h3
    · simp only [Nat.not_lt.mpr hx.le, Nat.ne_of_gt hx, if_false]
      exact wfAbove_cons.mpr ⟨h1, h2, ih h3 hx⟩
    · simp only [hx, hv, if_true, if_false]
      exact wfAbove_cons.mpr ⟨ha, hv, wfAbove_cons.mpr ⟨hx, h2, h3⟩⟩
    · subst hx
      simp only [Nat.lt_irrefl, hv, if_true, if_false]
      exact wfAbove_cons.mpr ⟨h1, hv, h3⟩
    · simp only [Nat.not_lt.mpr hx.le, Nat.ne_of_gt hx, if_false]
      exact wfAbove_cons.mpr ⟨h1, h2, ih h3 hx⟩

/-- A write keeps the canonical form. -/
theorem sparse_write_wf (a : Nat) (v : α) (hm : Sparse.wf d m = true) : Sparse.wf d (Sparse.write d a v m) = true :=
  wfAbove_write hm (Nat.zero_le a)

theorem wfAbove_clear (hm : Sparse.wfAbove d n m = true) : Sparse.wfAbove d n (Sparse.clear lo hi m) = true := by
  induction m generalizing n with
  | nil => rfl
  | cons c r ih =>
    obtain ⟨h1, h2, h3⟩ := wfAbove_cons.mp hm
    simp only [Sparse.clear, List.filter_cons]
    split
    · exact wfAbove_cons.mpr ⟨h1, h2, ih h3⟩
    · exact wfAbove_of_le (by omega) (ih h3)

/-- Clearing a range keeps the canonical form. -/
theorem sparse_clear_wf (lo hi : Nat) (hm : Sparse.wf d m = true) : Sparse.wf d (Sparse.clear lo hi m) = true :=
  wfAbove_clear hm

/-! ### Reads -/

/-- A read after a write to the same address gives the value written. -/
theorem read_write_same (hm : Sparse.wf d m = true) : Sparse.read d (Sparse.write d a v m) a = v := by
  suffices h : ∀ lo, Sparse.wfAbove d lo m = true → Sparse.read d (Sparse.write d a v m) a = v from h 0 hm
  clear hm
  induction m with
  | nil => intro _ _; by_cases hv : v = d <;> simp [Sparse.write, Sparse.read, hv]
  | cons c r ih =>
    intro lo hm
    obtain ⟨x, y⟩ := c
    obtain ⟨h1, h2, h3⟩ := wfAbove_cons.mp hm
    unfold Sparse.write
    rcases Nat.lt_trichotomy a x with hx | hx | hx
    · by_cases hv : v = d
      · have : x ≠ a := by omega
        simp only [hx, hv, if_true, Sparse.read, this, if_false]
        exact read_below h3 (by omega)
      · simp [hx, hv, Sparse.read]
    · subst hx
      by_cases hv : v = d
      · simp only [Nat.lt_irrefl, hv, if_true, if_false]
        exact read_below h3 (by omega)
      · simp [hv, Sparse.read]
    · simp only [Nat.not_lt.mpr hx.le, Nat.ne_of_gt hx, if_false, Sparse.read, Nat.ne_of_lt hx]
      exact ih _ h3

/-- A write leaves every other address alone. -/
theorem read_write_other (hm : Sparse.wf d m = true) (h : b ≠ a) :
    Sparse.read d (Sparse.write d a v m) b = Sparse.read d m b := by
  suffices g : ∀ lo, Sparse.wfAbove d lo m = true → Sparse.read d (Sparse.write d a v m) b = Sparse.read d m b from g 0 hm
  clear hm
  induction m with
  | nil => intro _ _; by_cases hv : v = d <;> simp [Sparse.write, Sparse.read, hv, h.symm]
  | cons c r ih =>
    intro lo hm
    obtain ⟨x, y⟩ := c
    obtain ⟨-, -, h3⟩ := wfAbove_cons.mp hm
    unfold Sparse.write
    rcases Nat.lt_trichotomy a x with hx | hx | hx
    · by_cases hv : v = d <;> simp [hx, hv, Sparse.read, h.symm]
    · subst hx
      by_cases hv : v = d <;> simp [hv, Sparse.read, h.symm]
    · simp only [Nat.not_lt.mpr hx.le, Nat.ne_of_gt hx, if_false, Sparse.read]
      rw [ih _ h3]

omit [DecidableEq α] in
/-- The cleared range reads the unlisted value, every other address as before. -/
theorem read_clear : Sparse.read d (Sparse.clear lo hi m) a = if lo ≤ a ∧ a < hi then d else Sparse.read d m a := by
  induction m with
  | nil => simp [Sparse.clear, Sparse.read]
  | cons c r ih =>
    simp only [Sparse.clear, List.filter_cons] at ih ⊢
    split
    · rename_i hk
      simp only [Bool.or_eq_true, decide_eq_true_eq] at hk
      simp only [Sparse.read]
      rw [ih]
      by_cases hc : c.1 = a
      · have : ¬(lo ≤ a ∧ a < hi) := by omega
        simp [hc, this]
      · simp [hc]
    · rename_i hk
      simp only [Bool.or_eq_true, decide_eq_true_eq, not_or, Nat.not_lt, Nat.not_le] at hk
      rw [ih]
      by_cases hc : c.1 = a
      · have : lo ≤ a ∧ a < hi := by omega
        simp [this]
      · simp [Sparse.read, hc]

/-- Canonical memories that read alike are equal. -/
theorem sparse_ext (hm : Sparse.wfAbove d lo m = true) (hm' : Sparse.wfAbove d lo m' = true)
    (h : ∀ a, Sparse.read d m a = Sparse.read d m' a) : m = m' := by
  induction m generalizing m' lo with
  | nil =>
    cases m' with
    | nil => rfl
    | cons c r =>
      obtain ⟨-, h2, -⟩ := wfAbove_cons.mp hm'
      exact absurd (by simpa [Sparse.read] using (h c.1).symm) h2
  | cons c r ih =>
    obtain ⟨x, y⟩ := c
    obtain ⟨h1, h2, h3⟩ := wfAbove_cons.mp hm
    cases m' with
    | nil => exact absurd (by simpa [Sparse.read] using h x) h2
    | cons c' r' =>
      obtain ⟨x', y'⟩ := c'
      obtain ⟨h1', h2', h3'⟩ := wfAbove_cons.mp hm'
      rcases Nat.lt_trichotomy x x' with hx | hx | hx
      · have e := h x
        simp only [Sparse.read, if_true, Nat.ne_of_gt hx, if_false] at e
        exact absurd (e.trans (read_below h3' (by omega))) h2
      · subst hx
        have e := h x
        simp only [Sparse.read, if_true] at e
        subst e
        refine congrArg _ (ih h3 h3' fun a => ?_)
        by_cases ha : x = a
        · subst ha
          rw [read_below h3 (by omega), read_below h3' (by omega)]
        · simpa [Sparse.read, ha] using h a
      · have e := h x'
        simp only [Sparse.read, if_true, Nat.ne_of_gt hx, if_false] at e
        exact absurd (e.symm.trans (read_below h3 (by omega))) h2'

/-! ### The flash -/

variable {f : List Host.Cell}

/-- A byte write keeps the flash canonical. -/
theorem memory_write_wf (a : Nat) (v : Byte) (h : Memory.wf f = true) : Memory.wf (Memory.write a v f) = true :=
  sparse_write_wf a v h

/-- A program keeps the flash canonical. -/
theorem memory_program_wf (a : Nat) (bs : List Byte) (h : Memory.wf f = true) :
    Memory.wf (Memory.program a bs f) = true := by
  induction bs generalizing a f with
  | nil => exact h
  | cons b r ih => exact ih _ (memory_write_wf _ _ h)

/-- An erase keeps the flash canonical. -/
theorem memory_erase_wf (a : Nat) (h : Memory.wf f = true) : Memory.wf (Memory.erase a f) = true :=
  sparse_clear_wf _ _ h

/-- An erased sector reads 0xFF, every other byte as before. -/
theorem memory_read_erase (a b : Nat) :
    Memory.read (Memory.erase a f) b = if a ≤ b ∧ b < a + 4096 then 0xFF else Memory.read f b :=
  read_clear

/-- A program leaves every byte outside its range alone. -/
theorem memory_read_program_outside (bs : List Byte) (h : Memory.wf f = true) (hb : b < a ∨ a + bs.length ≤ b) :
    Memory.read (Memory.program a bs f) b = Memory.read f b := by
  induction bs generalizing a f with
  | nil => rfl
  | cons c r ih =>
    simp only [List.length_cons] at hb
    refine (ih (memory_write_wf _ _ h) (by omega)).trans ?_
    exact read_write_other h (by omega)

/-- A program only clears bits: each byte of its range becomes the AND of what it was and what is programmed. -/
theorem memory_read_program (bs : List Byte) (h : Memory.wf f = true) (i : Nat) (hi : i < bs.length) :
    Memory.read (Memory.program a bs f) (a + i) = Memory.read f (a + i) &&& bs[i] := by
  induction bs generalizing a f i with
  | nil => simp at hi
  | cons c r ih =>
    cases i with
    | zero =>
      refine (memory_read_program_outside r (memory_write_wf _ _ h) (by omega)).trans ?_
      exact read_write_same h
    | succ i =>
      have e : a + (i + 1) = a + 1 + i := by omega
      have hs : i < r.length := by simpa using hi
      refine (congrArg _ e).trans ((ih (memory_write_wf _ _ h) i hs).trans ?_)
      rw [e, List.getElem_cons_succ]
      exact congrArg (· &&& _) (read_write_other h (by omega))

/-- Bytes read off rising cells are the reads of their addresses. -/
theorem memory_run_reads (h : Sparse.wfAbove Memory.blank a f = true) :
    Memory.run n a f = (List.range' a n).map (Memory.read f) := by
  induction n generalizing a f with
  | zero => rfl
  | succ n ih =>
    cases f with
    | nil =>
      simp only [Memory.run, List.range'_succ, List.map_cons]
      rw [ih wfAbove_nil]
      rfl
    | cons c r =>
      obtain ⟨x, y⟩ := c
      obtain ⟨h1, h2, h3⟩ := wfAbove_cons.mp h
      simp only [Memory.run, List.range'_succ, List.map_cons]
      by_cases hx : x = a
      · subst hx
        simp only [if_true, Memory.read, Sparse.read]
        rw [ih h3]
        refine congrArg _ (List.map_congr_left fun b hb => ?_)
        have : x ≠ b := by have := (List.mem_range'_1.mp hb).1; omega
        simp [Memory.read, Sparse.read, this]
      · simp only [hx, if_false, Memory.read, Sparse.read]
        have h4 : Sparse.wfAbove Memory.blank (a + 1) ((x, y) :: r) = true :=
          wfAbove_cons.mpr ⟨by omega, h2, h3⟩
        rw [ih h4, read_below h3 (by omega)]

end Sys2Proof.Machine
end

