-- ==== Sys2Proof/Laws/State.lean ====
section
/-! SUPPORT. One lemma for each field of `State` and each named update of it: what the field holds afterwards. -/

namespace Sys2Proof.Machine

/-! ### emit -/

@[simp] theorem emit_now (o : Out) (s : State) : (emit o s).now = s.now := rfl
@[simp] theorem emit_freeCtr (o : Out) (s : State) : (emit o s).freeCtr = s.freeCtr := rfl
@[simp] theorem emit_sys (o : Out) (s : State) : (emit o s).sys = s.sys := rfl
@[simp] theorem emit_boot (o : Out) (s : State) : (emit o s).boot = s.boot := rfl
@[simp] theorem emit_img (o : Out) (s : State) : (emit o s).img = s.img := rfl
@[simp] theorem emit_flt (o : Out) (s : State) : (emit o s).flt = s.flt := rfl
@[simp] theorem emit_log (o : Out) (s : State) : (emit o s).log = s.log := rfl
@[simp] theorem emit_sec (o : Out) (s : State) : (emit o s).sec = s.sec := rfl
@[simp] theorem emit_otp (o : Out) (s : State) : (emit o s).otp = s.otp := rfl
@[simp] theorem emit_nvm (o : Out) (s : State) : (emit o s).nvm = s.nvm := rfl
@[simp] theorem emit_mnt (o : Out) (s : State) : (emit o s).mnt = s.mnt := rfl
@[simp] theorem emit_flash (o : Out) (s : State) : (emit o s).flash = s.flash := rfl
@[simp] theorem emit_lt (o : Out) (s : State) : (emit o s).lt = s.lt := rfl
@[simp] theorem emit_pix (o : Out) (s : State) : (emit o s).pix = s.pix := rfl
@[simp] theorem emit_fab (o : Out) (s : State) : (emit o s).fab = s.fab := rfl
@[simp] theorem emit_spr (o : Out) (s : State) : (emit o s).spr = s.spr := rfl
@[simp] theorem emit_net (o : Out) (s : State) : (emit o s).net = s.net := rfl
@[simp] theorem emit_ptp (o : Out) (s : State) : (emit o s).ptp = s.ptp := rfl
@[simp] theorem emit_star (o : Out) (s : State) : (emit o s).star = s.star := rfl
@[simp] theorem emit_hkc (o : Out) (s : State) : (emit o s).hkc = s.hkc := rfl
@[simp] theorem emit_gpio (o : Out) (s : State) : (emit o s).gpio = s.gpio := rfl
@[simp] theorem emit_bscan (o : Out) (s : State) : (emit o s).bscan = s.bscan := rfl
@[simp] theorem emit_out (o : Out) (s : State) : (emit o s).out = o :: s.out := rfl
@[simp] theorem emit_pending (o : Out) (s : State) : (emit o s).pending = s.pending := rfl

/-! ### idle -/

@[simp] theorem idle_now (s : State) : (idle s).now = s.now + 1 := rfl
@[simp] theorem idle_freeCtr (s : State) : (idle s).freeCtr = s.freeCtr := rfl
@[simp] theorem idle_sys (s : State) : (idle s).sys = s.sys := rfl
@[simp] theorem idle_boot (s : State) : (idle s).boot = s.boot := rfl
@[simp] theorem idle_img (s : State) : (idle s).img = s.img := rfl
@[simp] theorem idle_flt (s : State) : (idle s).flt = s.flt := rfl
@[simp] theorem idle_log (s : State) : (idle s).log = s.log := rfl
@[simp] theorem idle_sec (s : State) : (idle s).sec = s.sec := rfl
@[simp] theorem idle_otp (s : State) : (idle s).otp = s.otp := rfl
@[simp] theorem idle_nvm (s : State) : (idle s).nvm = s.nvm := rfl
@[simp] theorem idle_mnt (s : State) : (idle s).mnt = s.mnt := rfl
@[simp] theorem idle_flash (s : State) : (idle s).flash = s.flash := rfl
@[simp] theorem idle_lt (s : State) : (idle s).lt = s.lt := rfl
@[simp] theorem idle_pix (s : State) : (idle s).pix = s.pix := rfl
@[simp] theorem idle_fab (s : State) : (idle s).fab = s.fab := rfl
@[simp] theorem idle_spr (s : State) : (idle s).spr = s.spr := rfl
@[simp] theorem idle_net (s : State) : (idle s).net = s.net := rfl
@[simp] theorem idle_ptp (s : State) : (idle s).ptp = s.ptp := rfl
@[simp] theorem idle_star (s : State) : (idle s).star = s.star := rfl
@[simp] theorem idle_hkc (s : State) : (idle s).hkc = s.hkc := rfl
@[simp] theorem idle_gpio (s : State) : (idle s).gpio = s.gpio := rfl
@[simp] theorem idle_bscan (s : State) : (idle s).bscan = s.bscan := rfl
@[simp] theorem idle_out (s : State) : (idle s).out = s.out := rfl
@[simp] theorem idle_pending (s : State) : (idle s).pending = s.pending := rfl

/-! ### bump -/

@[simp] theorem bump_now (s : State) : (bump s).now = s.now := rfl
@[simp] theorem bump_freeCtr (s : State) : (bump s).freeCtr = s.freeCtr + 1 := rfl
@[simp] theorem bump_sys (s : State) : (bump s).sys = s.sys := rfl
@[simp] theorem bump_boot (s : State) : (bump s).boot = s.boot := rfl
@[simp] theorem bump_img (s : State) : (bump s).img = s.img := rfl
@[simp] theorem bump_flt (s : State) : (bump s).flt = s.flt := rfl
@[simp] theorem bump_log (s : State) : (bump s).log = s.log := rfl
@[simp] theorem bump_sec (s : State) : (bump s).sec = s.sec := rfl
@[simp] theorem bump_otp (s : State) : (bump s).otp = s.otp := rfl
@[simp] theorem bump_nvm (s : State) : (bump s).nvm = s.nvm := rfl
@[simp] theorem bump_mnt (s : State) : (bump s).mnt = s.mnt := rfl
@[simp] theorem bump_flash (s : State) : (bump s).flash = s.flash := rfl
@[simp] theorem bump_lt (s : State) : (bump s).lt = s.lt := rfl
@[simp] theorem bump_pix (s : State) : (bump s).pix = s.pix := rfl
@[simp] theorem bump_fab (s : State) : (bump s).fab = s.fab := rfl
@[simp] theorem bump_spr (s : State) : (bump s).spr = s.spr := rfl
@[simp] theorem bump_net (s : State) : (bump s).net = s.net := rfl
@[simp] theorem bump_ptp (s : State) : (bump s).ptp = s.ptp := rfl
@[simp] theorem bump_star (s : State) : (bump s).star = s.star := rfl
@[simp] theorem bump_hkc (s : State) : (bump s).hkc = s.hkc := rfl
@[simp] theorem bump_gpio (s : State) : (bump s).gpio = s.gpio := rfl
@[simp] theorem bump_bscan (s : State) : (bump s).bscan = s.bscan := rfl
@[simp] theorem bump_out (s : State) : (bump s).out = s.out := rfl
@[simp] theorem bump_pending (s : State) : (bump s).pending = s.pending := rfl

/-! ### enter -/

@[simp] theorem enter_now (c : DevState) (s : State) : (enter c s).now = s.now := rfl
@[simp] theorem enter_freeCtr (c : DevState) (s : State) : (enter c s).freeCtr = s.freeCtr := rfl
@[simp] theorem enter_sys (c : DevState) (s : State) : (enter c s).sys = { s.sys with code := c, prev := s.sys.code } := rfl
@[simp] theorem enter_boot (c : DevState) (s : State) : (enter c s).boot = s.boot := rfl
@[simp] theorem enter_img (c : DevState) (s : State) : (enter c s).img = s.img := rfl
@[simp] theorem enter_flt (c : DevState) (s : State) : (enter c s).flt = s.flt := rfl
@[simp] theorem enter_log (c : DevState) (s : State) : (enter c s).log = s.log := rfl
@[simp] theorem enter_sec (c : DevState) (s : State) : (enter c s).sec = s.sec := rfl
@[simp] theorem enter_otp (c : DevState) (s : State) : (enter c s).otp = s.otp := rfl
@[simp] theorem enter_nvm (c : DevState) (s : State) : (enter c s).nvm = s.nvm := rfl
@[simp] theorem enter_mnt (c : DevState) (s : State) : (enter c s).mnt = s.mnt := rfl
@[simp] theorem enter_flash (c : DevState) (s : State) : (enter c s).flash = s.flash := rfl
@[simp] theorem enter_lt (c : DevState) (s : State) : (enter c s).lt = s.lt := rfl
@[simp] theorem enter_pix (c : DevState) (s : State) : (enter c s).pix = s.pix := rfl
@[simp] theorem enter_fab (c : DevState) (s : State) : (enter c s).fab = s.fab := rfl
@[simp] theorem enter_spr (c : DevState) (s : State) : (enter c s).spr = s.spr := rfl
@[simp] theorem enter_net (c : DevState) (s : State) : (enter c s).net = s.net := rfl
@[simp] theorem enter_ptp (c : DevState) (s : State) : (enter c s).ptp = s.ptp := rfl
@[simp] theorem enter_star (c : DevState) (s : State) : (enter c s).star = s.star := rfl
@[simp] theorem enter_hkc (c : DevState) (s : State) : (enter c s).hkc = s.hkc := rfl
@[simp] theorem enter_gpio (c : DevState) (s : State) : (enter c s).gpio = s.gpio := rfl
@[simp] theorem enter_bscan (c : DevState) (s : State) : (enter c s).bscan = s.bscan := rfl
@[simp] theorem enter_out (c : DevState) (s : State) : (enter c s).out = s.out := rfl
@[simp] theorem enter_pending (c : DevState) (s : State) : (enter c s).pending = s.pending := rfl

/-! ### dropEvents -/

@[simp] theorem dropEvents_now (n : Nat) (s : State) : (dropEvents n s).now = s.now := rfl
@[simp] theorem dropEvents_freeCtr (n : Nat) (s : State) : (dropEvents n s).freeCtr = s.freeCtr := rfl
@[simp] theorem dropEvents_sys (n : Nat) (s : State) : (dropEvents n s).sys = s.sys := rfl
@[simp] theorem dropEvents_boot (n : Nat) (s : State) : (dropEvents n s).boot = s.boot := rfl
@[simp] theorem dropEvents_img (n : Nat) (s : State) : (dropEvents n s).img = s.img := rfl
@[simp] theorem dropEvents_flt (n : Nat) (s : State) : (dropEvents n s).flt = { s.flt with evtDrop := satAdd 32 n s.flt.evtDrop } := rfl
@[simp] theorem dropEvents_log (n : Nat) (s : State) : (dropEvents n s).log = s.log := rfl
@[simp] theorem dropEvents_sec (n : Nat) (s : State) : (dropEvents n s).sec = s.sec := rfl
@[simp] theorem dropEvents_otp (n : Nat) (s : State) : (dropEvents n s).otp = s.otp := rfl
@[simp] theorem dropEvents_nvm (n : Nat) (s : State) : (dropEvents n s).nvm = s.nvm := rfl
@[simp] theorem dropEvents_mnt (n : Nat) (s : State) : (dropEvents n s).mnt = s.mnt := rfl
@[simp] theorem dropEvents_flash (n : Nat) (s : State) : (dropEvents n s).flash = s.flash := rfl
@[simp] theorem dropEvents_lt (n : Nat) (s : State) : (dropEvents n s).lt = s.lt := rfl
@[simp] theorem dropEvents_pix (n : Nat) (s : State) : (dropEvents n s).pix = s.pix := rfl
@[simp] theorem dropEvents_fab (n : Nat) (s : State) : (dropEvents n s).fab = s.fab := rfl
@[simp] theorem dropEvents_spr (n : Nat) (s : State) : (dropEvents n s).spr = s.spr := rfl
@[simp] theorem dropEvents_net (n : Nat) (s : State) : (dropEvents n s).net = s.net := rfl
@[simp] theorem dropEvents_ptp (n : Nat) (s : State) : (dropEvents n s).ptp = s.ptp := rfl
@[simp] theorem dropEvents_star (n : Nat) (s : State) : (dropEvents n s).star = s.star := rfl
@[simp] theorem dropEvents_hkc (n : Nat) (s : State) : (dropEvents n s).hkc = s.hkc := rfl
@[simp] theorem dropEvents_gpio (n : Nat) (s : State) : (dropEvents n s).gpio = s.gpio := rfl
@[simp] theorem dropEvents_bscan (n : Nat) (s : State) : (dropEvents n s).bscan = s.bscan := rfl
@[simp] theorem dropEvents_out (n : Nat) (s : State) : (dropEvents n s).out = s.out := rfl
@[simp] theorem dropEvents_pending (n : Nat) (s : State) : (dropEvents n s).pending = s.pending := rfl

/-! ### logOther -/

@[simp] theorem logOther_now (kind : Nat) (code : BitVec 16) (data : List Byte) (s : State) : (logOther kind code data s).now = s.now := rfl
@[simp] theorem logOther_freeCtr (kind : Nat) (code : BitVec 16) (data : List Byte) (s : State) : (logOther kind code data s).freeCtr = s.freeCtr := rfl
@[simp] theorem logOther_sys (kind : Nat) (code : BitVec 16) (data : List Byte) (s : State) : (logOther kind code data s).sys = s.sys := rfl
@[simp] theorem logOther_boot (kind : Nat) (code : BitVec 16) (data : List Byte) (s : State) : (logOther kind code data s).boot = s.boot := rfl
@[simp] theorem logOther_img (kind : Nat) (code : BitVec 16) (data : List Byte) (s : State) : (logOther kind code data s).img = s.img := rfl
@[simp] theorem logOther_flt (kind : Nat) (code : BitVec 16) (data : List Byte) (s : State) : (logOther kind code data s).flt = s.flt := rfl
@[simp] theorem logOther_log (kind : Nat) (code : BitVec 16) (data : List Byte) (s : State) : (logOther kind code data s).log = queueOther (logRecord kind code s.lt.line s.lt.line data s) s.log := rfl
@[simp] theorem logOther_sec (kind : Nat) (code : BitVec 16) (data : List Byte) (s : State) : (logOther kind code data s).sec = s.sec := rfl
@[simp] theorem logOther_otp (kind : Nat) (code : BitVec 16) (data : List Byte) (s : State) : (logOther kind code data s).otp = s.otp := rfl
@[simp] theorem logOther_nvm (kind : Nat) (code : BitVec 16) (data : List Byte) (s : State) : (logOther kind code data s).nvm = s.nvm := rfl
@[simp] theorem logOther_mnt (kind : Nat) (code : BitVec 16) (data : List Byte) (s : State) : (logOther kind code data s).mnt = s.mnt := rfl
@[simp] theorem logOther_flash (kind : Nat) (code : BitVec 16) (data : List Byte) (s : State) : (logOther kind code data s).flash = s.flash := rfl
@[simp] theorem logOther_lt (kind : Nat) (code : BitVec 16) (data : List Byte) (s : State) : (logOther kind code data s).lt = s.lt := rfl
@[simp] theorem logOther_pix (kind : Nat) (code : BitVec 16) (data : List Byte) (s : State) : (logOther kind code data s).pix = s.pix := rfl
@[simp] theorem logOther_fab (kind : Nat) (code : BitVec 16) (data : List Byte) (s : State) : (logOther kind code data s).fab = s.fab := rfl
@[simp] theorem logOther_spr (kind : Nat) (code : BitVec 16) (data : List Byte) (s : State) : (logOther kind code data s).spr = s.spr := rfl
@[simp] theorem logOther_net (kind : Nat) (code : BitVec 16) (data : List Byte) (s : State) : (logOther kind code data s).net = s.net := rfl
@[simp] theorem logOther_ptp (kind : Nat) (code : BitVec 16) (data : List Byte) (s : State) : (logOther kind code data s).ptp = s.ptp := rfl
@[simp] theorem logOther_star (kind : Nat) (code : BitVec 16) (data : List Byte) (s : State) : (logOther kind code data s).star = s.star := rfl
@[simp] theorem logOther_hkc (kind : Nat) (code : BitVec 16) (data : List Byte) (s : State) : (logOther kind code data s).hkc = s.hkc := rfl
@[simp] theorem logOther_gpio (kind : Nat) (code : BitVec 16) (data : List Byte) (s : State) : (logOther kind code data s).gpio = s.gpio := rfl
@[simp] theorem logOther_bscan (kind : Nat) (code : BitVec 16) (data : List Byte) (s : State) : (logOther kind code data s).bscan = s.bscan := rfl
@[simp] theorem logOther_out (kind : Nat) (code : BitVec 16) (data : List Byte) (s : State) : (logOther kind code data s).out = s.out := rfl
@[simp] theorem logOther_pending (kind : Nat) (code : BitVec 16) (data : List Byte) (s : State) : (logOther kind code data s).pending = s.pending := rfl

/-! ### wantSnapshot -/

@[simp] theorem wantSnapshot_now (s : State) : (wantSnapshot s).now = s.now := rfl
@[simp] theorem wantSnapshot_freeCtr (s : State) : (wantSnapshot s).freeCtr = s.freeCtr := rfl
@[simp] theorem wantSnapshot_sys (s : State) : (wantSnapshot s).sys = s.sys := rfl
@[simp] theorem wantSnapshot_boot (s : State) : (wantSnapshot s).boot = s.boot := rfl
@[simp] theorem wantSnapshot_img (s : State) : (wantSnapshot s).img = s.img := rfl
@[simp] theorem wantSnapshot_flt (s : State) : (wantSnapshot s).flt = s.flt := rfl
@[simp] theorem wantSnapshot_log (s : State) : (wantSnapshot s).log = { s.log with snapPending := true } := rfl
@[simp] theorem wantSnapshot_sec (s : State) : (wantSnapshot s).sec = s.sec := rfl
@[simp] theorem wantSnapshot_otp (s : State) : (wantSnapshot s).otp = s.otp := rfl
@[simp] theorem wantSnapshot_nvm (s : State) : (wantSnapshot s).nvm = s.nvm := rfl
@[simp] theorem wantSnapshot_mnt (s : State) : (wantSnapshot s).mnt = s.mnt := rfl
@[simp] theorem wantSnapshot_flash (s : State) : (wantSnapshot s).flash = s.flash := rfl
@[simp] theorem wantSnapshot_lt (s : State) : (wantSnapshot s).lt = s.lt := rfl
@[simp] theorem wantSnapshot_pix (s : State) : (wantSnapshot s).pix = s.pix := rfl
@[simp] theorem wantSnapshot_fab (s : State) : (wantSnapshot s).fab = s.fab := rfl
@[simp] theorem wantSnapshot_spr (s : State) : (wantSnapshot s).spr = s.spr := rfl
@[simp] theorem wantSnapshot_net (s : State) : (wantSnapshot s).net = s.net := rfl
@[simp] theorem wantSnapshot_ptp (s : State) : (wantSnapshot s).ptp = s.ptp := rfl
@[simp] theorem wantSnapshot_star (s : State) : (wantSnapshot s).star = s.star := rfl
@[simp] theorem wantSnapshot_hkc (s : State) : (wantSnapshot s).hkc = s.hkc := rfl
@[simp] theorem wantSnapshot_gpio (s : State) : (wantSnapshot s).gpio = s.gpio := rfl
@[simp] theorem wantSnapshot_bscan (s : State) : (wantSnapshot s).bscan = s.bscan := rfl
@[simp] theorem wantSnapshot_out (s : State) : (wantSnapshot s).out = s.out := rfl
@[simp] theorem wantSnapshot_pending (s : State) : (wantSnapshot s).pending = s.pending := rfl

/-! ### countClass -/

@[simp] theorem countClass_now (n : Nat) (s : State) : (countClass n s).now = s.now := rfl
@[simp] theorem countClass_freeCtr (n : Nat) (s : State) : (countClass n s).freeCtr = s.freeCtr := rfl
@[simp] theorem countClass_sys (n : Nat) (s : State) : (countClass n s).sys = s.sys := rfl
@[simp] theorem countClass_boot (n : Nat) (s : State) : (countClass n s).boot = s.boot := rfl
@[simp] theorem countClass_img (n : Nat) (s : State) : (countClass n s).img = s.img := rfl
@[simp] theorem countClass_flt (n : Nat) (s : State) : (countClass n s).flt = { s.flt with classCount := Sparse.write 0 n (satInc 32 (classCount s n)) s.flt.classCount } := rfl
@[simp] theorem countClass_log (n : Nat) (s : State) : (countClass n s).log = s.log := rfl
@[simp] theorem countClass_sec (n : Nat) (s : State) : (countClass n s).sec = s.sec := rfl
@[simp] theorem countClass_otp (n : Nat) (s : State) : (countClass n s).otp = s.otp := rfl
@[simp] theorem countClass_nvm (n : Nat) (s : State) : (countClass n s).nvm = s.nvm := rfl
@[simp] theorem countClass_mnt (n : Nat) (s : State) : (countClass n s).mnt = s.mnt := rfl
@[simp] theorem countClass_flash (n : Nat) (s : State) : (countClass n s).flash = s.flash := rfl
@[simp] theorem countClass_lt (n : Nat) (s : State) : (countClass n s).lt = s.lt := rfl
@[simp] theorem countClass_pix (n : Nat) (s : State) : (countClass n s).pix = s.pix := rfl
@[simp] theorem countClass_fab (n : Nat) (s : State) : (countClass n s).fab = s.fab := rfl
@[simp] theorem countClass_spr (n : Nat) (s : State) : (countClass n s).spr = s.spr := rfl
@[simp] theorem countClass_net (n : Nat) (s : State) : (countClass n s).net = s.net := rfl
@[simp] theorem countClass_ptp (n : Nat) (s : State) : (countClass n s).ptp = s.ptp := rfl
@[simp] theorem countClass_star (n : Nat) (s : State) : (countClass n s).star = s.star := rfl
@[simp] theorem countClass_hkc (n : Nat) (s : State) : (countClass n s).hkc = s.hkc := rfl
@[simp] theorem countClass_gpio (n : Nat) (s : State) : (countClass n s).gpio = s.gpio := rfl
@[simp] theorem countClass_bscan (n : Nat) (s : State) : (countClass n s).bscan = s.bscan := rfl
@[simp] theorem countClass_out (n : Nat) (s : State) : (countClass n s).out = s.out := rfl
@[simp] theorem countClass_pending (n : Nat) (s : State) : (countClass n s).pending = s.pending := rfl

/-! ### markLines -/

@[simp] theorem markLines_now (f : LineRec → LineRec) (s : State) : (markLines f s).now = s.now := rfl
@[simp] theorem markLines_freeCtr (f : LineRec → LineRec) (s : State) : (markLines f s).freeCtr = s.freeCtr := rfl
@[simp] theorem markLines_sys (f : LineRec → LineRec) (s : State) : (markLines f s).sys = s.sys := rfl
@[simp] theorem markLines_boot (f : LineRec → LineRec) (s : State) : (markLines f s).boot = s.boot := rfl
@[simp] theorem markLines_img (f : LineRec → LineRec) (s : State) : (markLines f s).img = s.img := rfl
@[simp] theorem markLines_flt (f : LineRec → LineRec) (s : State) : (markLines f s).flt = s.flt := rfl
@[simp] theorem markLines_log (f : LineRec → LineRec) (s : State) : (markLines f s).log = s.log := rfl
@[simp] theorem markLines_sec (f : LineRec → LineRec) (s : State) : (markLines f s).sec = s.sec := rfl
@[simp] theorem markLines_otp (f : LineRec → LineRec) (s : State) : (markLines f s).otp = s.otp := rfl
@[simp] theorem markLines_nvm (f : LineRec → LineRec) (s : State) : (markLines f s).nvm = s.nvm := rfl
@[simp] theorem markLines_mnt (f : LineRec → LineRec) (s : State) : (markLines f s).mnt = s.mnt := rfl
@[simp] theorem markLines_flash (f : LineRec → LineRec) (s : State) : (markLines f s).flash = s.flash := rfl
@[simp] theorem markLines_lt (f : LineRec → LineRec) (s : State) : (markLines f s).lt = s.lt := rfl
@[simp] theorem markLines_pix (f : LineRec → LineRec) (s : State) : (markLines f s).pix = s.pix := rfl
@[simp] theorem markLines_fab (f : LineRec → LineRec) (s : State) : (markLines f s).fab = s.fab := rfl
@[simp] theorem markLines_spr (f : LineRec → LineRec) (s : State) : (markLines f s).spr = { s.spr with lines := s.spr.lines.map f } := rfl
@[simp] theorem markLines_net (f : LineRec → LineRec) (s : State) : (markLines f s).net = s.net := rfl
@[simp] theorem markLines_ptp (f : LineRec → LineRec) (s : State) : (markLines f s).ptp = s.ptp := rfl
@[simp] theorem markLines_star (f : LineRec → LineRec) (s : State) : (markLines f s).star = s.star := rfl
@[simp] theorem markLines_hkc (f : LineRec → LineRec) (s : State) : (markLines f s).hkc = s.hkc := rfl
@[simp] theorem markLines_gpio (f : LineRec → LineRec) (s : State) : (markLines f s).gpio = s.gpio := rfl
@[simp] theorem markLines_bscan (f : LineRec → LineRec) (s : State) : (markLines f s).bscan = s.bscan := rfl
@[simp] theorem markLines_out (f : LineRec → LineRec) (s : State) : (markLines f s).out = s.out := rfl
@[simp] theorem markLines_pending (f : LineRec → LineRec) (s : State) : (markLines f s).pending = s.pending := rfl

/-! ### unstand -/

@[simp] theorem unstand_now (code : BitVec 16) (s : State) : (unstand code s).now = s.now := rfl
@[simp] theorem unstand_freeCtr (code : BitVec 16) (s : State) : (unstand code s).freeCtr = s.freeCtr := rfl
@[simp] theorem unstand_sys (code : BitVec 16) (s : State) : (unstand code s).sys = s.sys := rfl
@[simp] theorem unstand_boot (code : BitVec 16) (s : State) : (unstand code s).boot = s.boot := rfl
@[simp] theorem unstand_img (code : BitVec 16) (s : State) : (unstand code s).img = s.img := rfl
@[simp] theorem unstand_flt (code : BitVec 16) (s : State) : (unstand code s).flt = { s.flt with standing := s.flt.standing.filter (· != code) } := rfl
@[simp] theorem unstand_log (code : BitVec 16) (s : State) : (unstand code s).log = s.log := rfl
@[simp] theorem unstand_sec (code : BitVec 16) (s : State) : (unstand code s).sec = s.sec := rfl
@[simp] theorem unstand_otp (code : BitVec 16) (s : State) : (unstand code s).otp = s.otp := rfl
@[simp] theorem unstand_nvm (code : BitVec 16) (s : State) : (unstand code s).nvm = s.nvm := rfl
@[simp] theorem unstand_mnt (code : BitVec 16) (s : State) : (unstand code s).mnt = s.mnt := rfl
@[simp] theorem unstand_flash (code : BitVec 16) (s : State) : (unstand code s).flash = s.flash := rfl
@[simp] theorem unstand_lt (code : BitVec 16) (s : State) : (unstand code s).lt = s.lt := rfl
@[simp] theorem unstand_pix (code : BitVec 16) (s : State) : (unstand code s).pix = s.pix := rfl
@[simp] theorem unstand_fab (code : BitVec 16) (s : State) : (unstand code s).fab = s.fab := rfl
@[simp] theorem unstand_spr (code : BitVec 16) (s : State) : (unstand code s).spr = s.spr := rfl
@[simp] theorem unstand_net (code : BitVec 16) (s : State) : (unstand code s).net = s.net := rfl
@[simp] theorem unstand_ptp (code : BitVec 16) (s : State) : (unstand code s).ptp = s.ptp := rfl
@[simp] theorem unstand_star (code : BitVec 16) (s : State) : (unstand code s).star = s.star := rfl
@[simp] theorem unstand_hkc (code : BitVec 16) (s : State) : (unstand code s).hkc = s.hkc := rfl
@[simp] theorem unstand_gpio (code : BitVec 16) (s : State) : (unstand code s).gpio = s.gpio := rfl
@[simp] theorem unstand_bscan (code : BitVec 16) (s : State) : (unstand code s).bscan = s.bscan := rfl
@[simp] theorem unstand_out (code : BitVec 16) (s : State) : (unstand code s).out = s.out := rfl
@[simp] theorem unstand_pending (code : BitVec 16) (s : State) : (unstand code s).pending = s.pending := rfl

/-! ### progressed -/

@[simp] theorem progressed_now (f : Func) (s : State) : (progressed f s).now = s.now := rfl
@[simp] theorem progressed_freeCtr (f : Func) (s : State) : (progressed f s).freeCtr = s.freeCtr := rfl
@[simp] theorem progressed_sys (f : Func) (s : State) : (progressed f s).sys = { s.sys with wd := vmod s.sys.wd (funcIx f) fun w => { w with progress := true } } := rfl
@[simp] theorem progressed_boot (f : Func) (s : State) : (progressed f s).boot = s.boot := rfl
@[simp] theorem progressed_img (f : Func) (s : State) : (progressed f s).img = s.img := rfl
@[simp] theorem progressed_flt (f : Func) (s : State) : (progressed f s).flt = s.flt := rfl
@[simp] theorem progressed_log (f : Func) (s : State) : (progressed f s).log = s.log := rfl
@[simp] theorem progressed_sec (f : Func) (s : State) : (progressed f s).sec = s.sec := rfl
@[simp] theorem progressed_otp (f : Func) (s : State) : (progressed f s).otp = s.otp := rfl
@[simp] theorem progressed_nvm (f : Func) (s : State) : (progressed f s).nvm = s.nvm := rfl
@[simp] theorem progressed_mnt (f : Func) (s : State) : (progressed f s).mnt = s.mnt := rfl
@[simp] theorem progressed_flash (f : Func) (s : State) : (progressed f s).flash = s.flash := rfl
@[simp] theorem progressed_lt (f : Func) (s : State) : (progressed f s).lt = s.lt := rfl
@[simp] theorem progressed_pix (f : Func) (s : State) : (progressed f s).pix = s.pix := rfl
@[simp] theorem progressed_fab (f : Func) (s : State) : (progressed f s).fab = s.fab := rfl
@[simp] theorem progressed_spr (f : Func) (s : State) : (progressed f s).spr = s.spr := rfl
@[simp] theorem progressed_net (f : Func) (s : State) : (progressed f s).net = s.net := rfl
@[simp] theorem progressed_ptp (f : Func) (s : State) : (progressed f s).ptp = s.ptp := rfl
@[simp] theorem progressed_star (f : Func) (s : State) : (progressed f s).star = s.star := rfl
@[simp] theorem progressed_hkc (f : Func) (s : State) : (progressed f s).hkc = s.hkc := rfl
@[simp] theorem progressed_gpio (f : Func) (s : State) : (progressed f s).gpio = s.gpio := rfl
@[simp] theorem progressed_bscan (f : Func) (s : State) : (progressed f s).bscan = s.bscan := rfl
@[simp] theorem progressed_out (f : Func) (s : State) : (progressed f s).out = s.out := rfl
@[simp] theorem progressed_pending (f : Func) (s : State) : (progressed f s).pending = s.pending := rfl

/-! ### onHkc -/

@[simp] theorem onHkc_now (f : Hkc → Hkc) (s : State) : (onHkc f s).now = s.now := rfl
@[simp] theorem onHkc_freeCtr (f : Hkc → Hkc) (s : State) : (onHkc f s).freeCtr = s.freeCtr := rfl
@[simp] theorem onHkc_sys (f : Hkc → Hkc) (s : State) : (onHkc f s).sys = s.sys := rfl
@[simp] theorem onHkc_boot (f : Hkc → Hkc) (s : State) : (onHkc f s).boot = s.boot := rfl
@[simp] theorem onHkc_img (f : Hkc → Hkc) (s : State) : (onHkc f s).img = s.img := rfl
@[simp] theorem onHkc_flt (f : Hkc → Hkc) (s : State) : (onHkc f s).flt = s.flt := rfl
@[simp] theorem onHkc_log (f : Hkc → Hkc) (s : State) : (onHkc f s).log = s.log := rfl
@[simp] theorem onHkc_sec (f : Hkc → Hkc) (s : State) : (onHkc f s).sec = s.sec := rfl
@[simp] theorem onHkc_otp (f : Hkc → Hkc) (s : State) : (onHkc f s).otp = s.otp := rfl
@[simp] theorem onHkc_nvm (f : Hkc → Hkc) (s : State) : (onHkc f s).nvm = s.nvm := rfl
@[simp] theorem onHkc_mnt (f : Hkc → Hkc) (s : State) : (onHkc f s).mnt = s.mnt := rfl
@[simp] theorem onHkc_flash (f : Hkc → Hkc) (s : State) : (onHkc f s).flash = s.flash := rfl
@[simp] theorem onHkc_lt (f : Hkc → Hkc) (s : State) : (onHkc f s).lt = s.lt := rfl
@[simp] theorem onHkc_pix (f : Hkc → Hkc) (s : State) : (onHkc f s).pix = s.pix := rfl
@[simp] theorem onHkc_fab (f : Hkc → Hkc) (s : State) : (onHkc f s).fab = s.fab := rfl
@[simp] theorem onHkc_spr (f : Hkc → Hkc) (s : State) : (onHkc f s).spr = s.spr := rfl
@[simp] theorem onHkc_net (f : Hkc → Hkc) (s : State) : (onHkc f s).net = s.net := rfl
@[simp] theorem onHkc_ptp (f : Hkc → Hkc) (s : State) : (onHkc f s).ptp = s.ptp := rfl
@[simp] theorem onHkc_star (f : Hkc → Hkc) (s : State) : (onHkc f s).star = s.star := rfl
@[simp] theorem onHkc_hkc (f : Hkc → Hkc) (s : State) : (onHkc f s).hkc = f s.hkc := rfl
@[simp] theorem onHkc_gpio (f : Hkc → Hkc) (s : State) : (onHkc f s).gpio = s.gpio := rfl
@[simp] theorem onHkc_bscan (f : Hkc → Hkc) (s : State) : (onHkc f s).bscan = s.bscan := rfl
@[simp] theorem onHkc_out (f : Hkc → Hkc) (s : State) : (onHkc f s).out = s.out := rfl
@[simp] theorem onHkc_pending (f : Hkc → Hkc) (s : State) : (onHkc f s).pending = s.pending := rfl

/-! ### onStar -/

@[simp] theorem onStar_now (f : Star → Star) (s : State) : (onStar f s).now = s.now := rfl
@[simp] theorem onStar_freeCtr (f : Star → Star) (s : State) : (onStar f s).freeCtr = s.freeCtr := rfl
@[simp] theorem onStar_sys (f : Star → Star) (s : State) : (onStar f s).sys = s.sys := rfl
@[simp] theorem onStar_boot (f : Star → Star) (s : State) : (onStar f s).boot = s.boot := rfl
@[simp] theorem onStar_img (f : Star → Star) (s : State) : (onStar f s).img = s.img := rfl
@[simp] theorem onStar_flt (f : Star → Star) (s : State) : (onStar f s).flt = s.flt := rfl
@[simp] theorem onStar_log (f : Star → Star) (s : State) : (onStar f s).log = s.log := rfl
@[simp] theorem onStar_sec (f : Star → Star) (s : State) : (onStar f s).sec = s.sec := rfl
@[simp] theorem onStar_otp (f : Star → Star) (s : State) : (onStar f s).otp = s.otp := rfl
@[simp] theorem onStar_nvm (f : Star → Star) (s : State) : (onStar f s).nvm = s.nvm := rfl
@[simp] theorem onStar_mnt (f : Star → Star) (s : State) : (onStar f s).mnt = s.mnt := rfl
@[simp] theorem onStar_flash (f : Star → Star) (s : State) : (onStar f s).flash = s.flash := rfl
@[simp] theorem onStar_lt (f : Star → Star) (s : State) : (onStar f s).lt = s.lt := rfl
@[simp] theorem onStar_pix (f : Star → Star) (s : State) : (onStar f s).pix = s.pix := rfl
@[simp] theorem onStar_fab (f : Star → Star) (s : State) : (onStar f s).fab = s.fab := rfl
@[simp] theorem onStar_spr (f : Star → Star) (s : State) : (onStar f s).spr = s.spr := rfl
@[simp] theorem onStar_net (f : Star → Star) (s : State) : (onStar f s).net = s.net := rfl
@[simp] theorem onStar_ptp (f : Star → Star) (s : State) : (onStar f s).ptp = s.ptp := rfl
@[simp] theorem onStar_star (f : Star → Star) (s : State) : (onStar f s).star = f s.star := rfl
@[simp] theorem onStar_hkc (f : Star → Star) (s : State) : (onStar f s).hkc = s.hkc := rfl
@[simp] theorem onStar_gpio (f : Star → Star) (s : State) : (onStar f s).gpio = s.gpio := rfl
@[simp] theorem onStar_bscan (f : Star → Star) (s : State) : (onStar f s).bscan = s.bscan := rfl
@[simp] theorem onStar_out (f : Star → Star) (s : State) : (onStar f s).out = s.out := rfl
@[simp] theorem onStar_pending (f : Star → Star) (s : State) : (onStar f s).pending = s.pending := rfl

/-! ### onPort -/

@[simp] theorem onPort_now (d : Side) (f : Port → Port) (s : State) : (onPort d f s).now = s.now := rfl
@[simp] theorem onPort_freeCtr (d : Side) (f : Port → Port) (s : State) : (onPort d f s).freeCtr = s.freeCtr := rfl
@[simp] theorem onPort_sys (d : Side) (f : Port → Port) (s : State) : (onPort d f s).sys = s.sys := rfl
@[simp] theorem onPort_boot (d : Side) (f : Port → Port) (s : State) : (onPort d f s).boot = s.boot := rfl
@[simp] theorem onPort_img (d : Side) (f : Port → Port) (s : State) : (onPort d f s).img = s.img := rfl
@[simp] theorem onPort_flt (d : Side) (f : Port → Port) (s : State) : (onPort d f s).flt = s.flt := rfl
@[simp] theorem onPort_log (d : Side) (f : Port → Port) (s : State) : (onPort d f s).log = s.log := rfl
@[simp] theorem onPort_sec (d : Side) (f : Port → Port) (s : State) : (onPort d f s).sec = s.sec := rfl
@[simp] theorem onPort_otp (d : Side) (f : Port → Port) (s : State) : (onPort d f s).otp = s.otp := rfl
@[simp] theorem onPort_nvm (d : Side) (f : Port → Port) (s : State) : (onPort d f s).nvm = s.nvm := rfl
@[simp] theorem onPort_mnt (d : Side) (f : Port → Port) (s : State) : (onPort d f s).mnt = s.mnt := rfl
@[simp] theorem onPort_flash (d : Side) (f : Port → Port) (s : State) : (onPort d f s).flash = s.flash := rfl
@[simp] theorem onPort_lt (d : Side) (f : Port → Port) (s : State) : (onPort d f s).lt = s.lt := rfl
@[simp] theorem onPort_pix (d : Side) (f : Port → Port) (s : State) : (onPort d f s).pix = s.pix := rfl
@[simp] theorem onPort_fab (d : Side) (f : Port → Port) (s : State) : (onPort d f s).fab = s.fab := rfl
@[simp] theorem onPort_spr (d : Side) (f : Port → Port) (s : State) : (onPort d f s).spr = s.spr := rfl
@[simp] theorem onPort_net (d : Side) (f : Port → Port) (s : State) : (onPort d f s).net = s.net := rfl
@[simp] theorem onPort_ptp (d : Side) (f : Port → Port) (s : State) : (onPort d f s).ptp = s.ptp := rfl
@[simp] theorem onPort_star (d : Side) (f : Port → Port) (s : State) : (onPort d f s).star = { s.star with port := vmod s.star.port (sideIx d) f } := rfl
@[simp] theorem onPort_hkc (d : Side) (f : Port → Port) (s : State) : (onPort d f s).hkc = s.hkc := rfl
@[simp] theorem onPort_gpio (d : Side) (f : Port → Port) (s : State) : (onPort d f s).gpio = s.gpio := rfl
@[simp] theorem onPort_bscan (d : Side) (f : Port → Port) (s : State) : (onPort d f s).bscan = s.bscan := rfl
@[simp] theorem onPort_out (d : Side) (f : Port → Port) (s : State) : (onPort d f s).out = s.out := rfl
@[simp] theorem onPort_pending (d : Side) (f : Port → Port) (s : State) : (onPort d f s).pending = s.pending := rfl

/-! ### onSprue -/

@[simp] theorem onSprue_now (f : Sprue → Sprue) (s : State) : (onSprue f s).now = s.now := rfl
@[simp] theorem onSprue_freeCtr (f : Sprue → Sprue) (s : State) : (onSprue f s).freeCtr = s.freeCtr := rfl
@[simp] theorem onSprue_sys (f : Sprue → Sprue) (s : State) : (onSprue f s).sys = s.sys := rfl
@[simp] theorem onSprue_boot (f : Sprue → Sprue) (s : State) : (onSprue f s).boot = s.boot := rfl
@[simp] theorem onSprue_img (f : Sprue → Sprue) (s : State) : (onSprue f s).img = s.img := rfl
@[simp] theorem onSprue_flt (f : Sprue → Sprue) (s : State) : (onSprue f s).flt = s.flt := rfl
@[simp] theorem onSprue_log (f : Sprue → Sprue) (s : State) : (onSprue f s).log = s.log := rfl
@[simp] theorem onSprue_sec (f : Sprue → Sprue) (s : State) : (onSprue f s).sec = s.sec := rfl
@[simp] theorem onSprue_otp (f : Sprue → Sprue) (s : State) : (onSprue f s).otp = s.otp := rfl
@[simp] theorem onSprue_nvm (f : Sprue → Sprue) (s : State) : (onSprue f s).nvm = s.nvm := rfl
@[simp] theorem onSprue_mnt (f : Sprue → Sprue) (s : State) : (onSprue f s).mnt = s.mnt := rfl
@[simp] theorem onSprue_flash (f : Sprue → Sprue) (s : State) : (onSprue f s).flash = s.flash := rfl
@[simp] theorem onSprue_lt (f : Sprue → Sprue) (s : State) : (onSprue f s).lt = s.lt := rfl
@[simp] theorem onSprue_pix (f : Sprue → Sprue) (s : State) : (onSprue f s).pix = s.pix := rfl
@[simp] theorem onSprue_fab (f : Sprue → Sprue) (s : State) : (onSprue f s).fab = s.fab := rfl
@[simp] theorem onSprue_spr (f : Sprue → Sprue) (s : State) : (onSprue f s).spr = f s.spr := rfl
@[simp] theorem onSprue_net (f : Sprue → Sprue) (s : State) : (onSprue f s).net = s.net := rfl
@[simp] theorem onSprue_ptp (f : Sprue → Sprue) (s : State) : (onSprue f s).ptp = s.ptp := rfl
@[simp] theorem onSprue_star (f : Sprue → Sprue) (s : State) : (onSprue f s).star = s.star := rfl
@[simp] theorem onSprue_hkc (f : Sprue → Sprue) (s : State) : (onSprue f s).hkc = s.hkc := rfl
@[simp] theorem onSprue_gpio (f : Sprue → Sprue) (s : State) : (onSprue f s).gpio = s.gpio := rfl
@[simp] theorem onSprue_bscan (f : Sprue → Sprue) (s : State) : (onSprue f s).bscan = s.bscan := rfl
@[simp] theorem onSprue_out (f : Sprue → Sprue) (s : State) : (onSprue f s).out = s.out := rfl
@[simp] theorem onSprue_pending (f : Sprue → Sprue) (s : State) : (onSprue f s).pending = s.pending := rfl

/-! ### onLane -/

@[simp] theorem onLane_now (l : LaneId) (f : Lane → Lane) (s : State) : (onLane l f s).now = s.now := rfl
@[simp] theorem onLane_freeCtr (l : LaneId) (f : Lane → Lane) (s : State) : (onLane l f s).freeCtr = s.freeCtr := rfl
@[simp] theorem onLane_sys (l : LaneId) (f : Lane → Lane) (s : State) : (onLane l f s).sys = s.sys := rfl
@[simp] theorem onLane_boot (l : LaneId) (f : Lane → Lane) (s : State) : (onLane l f s).boot = s.boot := rfl
@[simp] theorem onLane_img (l : LaneId) (f : Lane → Lane) (s : State) : (onLane l f s).img = s.img := rfl
@[simp] theorem onLane_flt (l : LaneId) (f : Lane → Lane) (s : State) : (onLane l f s).flt = s.flt := rfl
@[simp] theorem onLane_log (l : LaneId) (f : Lane → Lane) (s : State) : (onLane l f s).log = s.log := rfl
@[simp] theorem onLane_sec (l : LaneId) (f : Lane → Lane) (s : State) : (onLane l f s).sec = s.sec := rfl
@[simp] theorem onLane_otp (l : LaneId) (f : Lane → Lane) (s : State) : (onLane l f s).otp = s.otp := rfl
@[simp] theorem onLane_nvm (l : LaneId) (f : Lane → Lane) (s : State) : (onLane l f s).nvm = s.nvm := rfl
@[simp] theorem onLane_mnt (l : LaneId) (f : Lane → Lane) (s : State) : (onLane l f s).mnt = s.mnt := rfl
@[simp] theorem onLane_flash (l : LaneId) (f : Lane → Lane) (s : State) : (onLane l f s).flash = s.flash := rfl
@[simp] theorem onLane_lt (l : LaneId) (f : Lane → Lane) (s : State) : (onLane l f s).lt = s.lt := rfl
@[simp] theorem onLane_pix (l : LaneId) (f : Lane → Lane) (s : State) : (onLane l f s).pix = s.pix := rfl
@[simp] theorem onLane_fab (l : LaneId) (f : Lane → Lane) (s : State) : (onLane l f s).fab = s.fab := rfl
@[simp] theorem onLane_spr (l : LaneId) (f : Lane → Lane) (s : State) : (onLane l f s).spr = s.spr := rfl
@[simp] theorem onLane_net (l : LaneId) (f : Lane → Lane) (s : State) : (onLane l f s).net = { s.net with lane := vmod s.net.lane (laneIx l) f } := rfl
@[simp] theorem onLane_ptp (l : LaneId) (f : Lane → Lane) (s : State) : (onLane l f s).ptp = s.ptp := rfl
@[simp] theorem onLane_star (l : LaneId) (f : Lane → Lane) (s : State) : (onLane l f s).star = s.star := rfl
@[simp] theorem onLane_hkc (l : LaneId) (f : Lane → Lane) (s : State) : (onLane l f s).hkc = s.hkc := rfl
@[simp] theorem onLane_gpio (l : LaneId) (f : Lane → Lane) (s : State) : (onLane l f s).gpio = s.gpio := rfl
@[simp] theorem onLane_bscan (l : LaneId) (f : Lane → Lane) (s : State) : (onLane l f s).bscan = s.bscan := rfl
@[simp] theorem onLane_out (l : LaneId) (f : Lane → Lane) (s : State) : (onLane l f s).out = s.out := rfl
@[simp] theorem onLane_pending (l : LaneId) (f : Lane → Lane) (s : State) : (onLane l f s).pending = s.pending := rfl

/-! ### onPtp -/

@[simp] theorem onPtp_now (l : LaneId) (f : PtpLane → PtpLane) (s : State) : (onPtp l f s).now = s.now := rfl
@[simp] theorem onPtp_freeCtr (l : LaneId) (f : PtpLane → PtpLane) (s : State) : (onPtp l f s).freeCtr = s.freeCtr := rfl
@[simp] theorem onPtp_sys (l : LaneId) (f : PtpLane → PtpLane) (s : State) : (onPtp l f s).sys = s.sys := rfl
@[simp] theorem onPtp_boot (l : LaneId) (f : PtpLane → PtpLane) (s : State) : (onPtp l f s).boot = s.boot := rfl
@[simp] theorem onPtp_img (l : LaneId) (f : PtpLane → PtpLane) (s : State) : (onPtp l f s).img = s.img := rfl
@[simp] theorem onPtp_flt (l : LaneId) (f : PtpLane → PtpLane) (s : State) : (onPtp l f s).flt = s.flt := rfl
@[simp] theorem onPtp_log (l : LaneId) (f : PtpLane → PtpLane) (s : State) : (onPtp l f s).log = s.log := rfl
@[simp] theorem onPtp_sec (l : LaneId) (f : PtpLane → PtpLane) (s : State) : (onPtp l f s).sec = s.sec := rfl
@[simp] theorem onPtp_otp (l : LaneId) (f : PtpLane → PtpLane) (s : State) : (onPtp l f s).otp = s.otp := rfl
@[simp] theorem onPtp_nvm (l : LaneId) (f : PtpLane → PtpLane) (s : State) : (onPtp l f s).nvm = s.nvm := rfl
@[simp] theorem onPtp_mnt (l : LaneId) (f : PtpLane → PtpLane) (s : State) : (onPtp l f s).mnt = s.mnt := rfl
@[simp] theorem onPtp_flash (l : LaneId) (f : PtpLane → PtpLane) (s : State) : (onPtp l f s).flash = s.flash := rfl
@[simp] theorem onPtp_lt (l : LaneId) (f : PtpLane → PtpLane) (s : State) : (onPtp l f s).lt = s.lt := rfl
@[simp] theorem onPtp_pix (l : LaneId) (f : PtpLane → PtpLane) (s : State) : (onPtp l f s).pix = s.pix := rfl
@[simp] theorem onPtp_fab (l : LaneId) (f : PtpLane → PtpLane) (s : State) : (onPtp l f s).fab = s.fab := rfl
@[simp] theorem onPtp_spr (l : LaneId) (f : PtpLane → PtpLane) (s : State) : (onPtp l f s).spr = s.spr := rfl
@[simp] theorem onPtp_net (l : LaneId) (f : PtpLane → PtpLane) (s : State) : (onPtp l f s).net = s.net := rfl
@[simp] theorem onPtp_ptp (l : LaneId) (f : PtpLane → PtpLane) (s : State) : (onPtp l f s).ptp = { s.ptp with pl := vmod s.ptp.pl (laneIx l) f } := rfl
@[simp] theorem onPtp_star (l : LaneId) (f : PtpLane → PtpLane) (s : State) : (onPtp l f s).star = s.star := rfl
@[simp] theorem onPtp_hkc (l : LaneId) (f : PtpLane → PtpLane) (s : State) : (onPtp l f s).hkc = s.hkc := rfl
@[simp] theorem onPtp_gpio (l : LaneId) (f : PtpLane → PtpLane) (s : State) : (onPtp l f s).gpio = s.gpio := rfl
@[simp] theorem onPtp_bscan (l : LaneId) (f : PtpLane → PtpLane) (s : State) : (onPtp l f s).bscan = s.bscan := rfl
@[simp] theorem onPtp_out (l : LaneId) (f : PtpLane → PtpLane) (s : State) : (onPtp l f s).out = s.out := rfl
@[simp] theorem onPtp_pending (l : LaneId) (f : PtpLane → PtpLane) (s : State) : (onPtp l f s).pending = s.pending := rfl

/-! ### onPerch -/

@[simp] theorem onPerch_now (p : Fin 72) (f : Perch → Perch) (s : State) : (onPerch p f s).now = s.now := rfl
@[simp] theorem onPerch_freeCtr (p : Fin 72) (f : Perch → Perch) (s : State) : (onPerch p f s).freeCtr = s.freeCtr := rfl
@[simp] theorem onPerch_sys (p : Fin 72) (f : Perch → Perch) (s : State) : (onPerch p f s).sys = s.sys := rfl
@[simp] theorem onPerch_boot (p : Fin 72) (f : Perch → Perch) (s : State) : (onPerch p f s).boot = s.boot := rfl
@[simp] theorem onPerch_img (p : Fin 72) (f : Perch → Perch) (s : State) : (onPerch p f s).img = s.img := rfl
@[simp] theorem onPerch_flt (p : Fin 72) (f : Perch → Perch) (s : State) : (onPerch p f s).flt = s.flt := rfl
@[simp] theorem onPerch_log (p : Fin 72) (f : Perch → Perch) (s : State) : (onPerch p f s).log = s.log := rfl
@[simp] theorem onPerch_sec (p : Fin 72) (f : Perch → Perch) (s : State) : (onPerch p f s).sec = s.sec := rfl
@[simp] theorem onPerch_otp (p : Fin 72) (f : Perch → Perch) (s : State) : (onPerch p f s).otp = s.otp := rfl
@[simp] theorem onPerch_nvm (p : Fin 72) (f : Perch → Perch) (s : State) : (onPerch p f s).nvm = s.nvm := rfl
@[simp] theorem onPerch_mnt (p : Fin 72) (f : Perch → Perch) (s : State) : (onPerch p f s).mnt = s.mnt := rfl
@[simp] theorem onPerch_flash (p : Fin 72) (f : Perch → Perch) (s : State) : (onPerch p f s).flash = s.flash := rfl
@[simp] theorem onPerch_lt (p : Fin 72) (f : Perch → Perch) (s : State) : (onPerch p f s).lt = s.lt := rfl
@[simp] theorem onPerch_pix (p : Fin 72) (f : Perch → Perch) (s : State) : (onPerch p f s).pix = s.pix := rfl
@[simp] theorem onPerch_fab (p : Fin 72) (f : Perch → Perch) (s : State) : (onPerch p f s).fab = { s.fab with perch := vmod s.fab.perch p f } := rfl
@[simp] theorem onPerch_spr (p : Fin 72) (f : Perch → Perch) (s : State) : (onPerch p f s).spr = s.spr := rfl
@[simp] theorem onPerch_net (p : Fin 72) (f : Perch → Perch) (s : State) : (onPerch p f s).net = s.net := rfl
@[simp] theorem onPerch_ptp (p : Fin 72) (f : Perch → Perch) (s : State) : (onPerch p f s).ptp = s.ptp := rfl
@[simp] theorem onPerch_star (p : Fin 72) (f : Perch → Perch) (s : State) : (onPerch p f s).star = s.star := rfl
@[simp] theorem onPerch_hkc (p : Fin 72) (f : Perch → Perch) (s : State) : (onPerch p f s).hkc = s.hkc := rfl
@[simp] theorem onPerch_gpio (p : Fin 72) (f : Perch → Perch) (s : State) : (onPerch p f s).gpio = s.gpio := rfl
@[simp] theorem onPerch_bscan (p : Fin 72) (f : Perch → Perch) (s : State) : (onPerch p f s).bscan = s.bscan := rfl
@[simp] theorem onPerch_out (p : Fin 72) (f : Perch → Perch) (s : State) : (onPerch p f s).out = s.out := rfl
@[simp] theorem onPerch_pending (p : Fin 72) (f : Perch → Perch) (s : State) : (onPerch p f s).pending = s.pending := rfl

/-! ### onFinch -/

@[simp] theorem onFinch_now (p : Fin 72) (f : Finch → Finch) (s : State) : (onFinch p f s).now = s.now := rfl
@[simp] theorem onFinch_freeCtr (p : Fin 72) (f : Finch → Finch) (s : State) : (onFinch p f s).freeCtr = s.freeCtr := rfl
@[simp] theorem onFinch_sys (p : Fin 72) (f : Finch → Finch) (s : State) : (onFinch p f s).sys = s.sys := rfl
@[simp] theorem onFinch_boot (p : Fin 72) (f : Finch → Finch) (s : State) : (onFinch p f s).boot = s.boot := rfl
@[simp] theorem onFinch_img (p : Fin 72) (f : Finch → Finch) (s : State) : (onFinch p f s).img = s.img := rfl
@[simp] theorem onFinch_flt (p : Fin 72) (f : Finch → Finch) (s : State) : (onFinch p f s).flt = s.flt := rfl
@[simp] theorem onFinch_log (p : Fin 72) (f : Finch → Finch) (s : State) : (onFinch p f s).log = s.log := rfl
@[simp] theorem onFinch_sec (p : Fin 72) (f : Finch → Finch) (s : State) : (onFinch p f s).sec = s.sec := rfl
@[simp] theorem onFinch_otp (p : Fin 72) (f : Finch → Finch) (s : State) : (onFinch p f s).otp = s.otp := rfl
@[simp] theorem onFinch_nvm (p : Fin 72) (f : Finch → Finch) (s : State) : (onFinch p f s).nvm = s.nvm := rfl
@[simp] theorem onFinch_mnt (p : Fin 72) (f : Finch → Finch) (s : State) : (onFinch p f s).mnt = s.mnt := rfl
@[simp] theorem onFinch_flash (p : Fin 72) (f : Finch → Finch) (s : State) : (onFinch p f s).flash = s.flash := rfl
@[simp] theorem onFinch_lt (p : Fin 72) (f : Finch → Finch) (s : State) : (onFinch p f s).lt = s.lt := rfl
@[simp] theorem onFinch_pix (p : Fin 72) (f : Finch → Finch) (s : State) : (onFinch p f s).pix = s.pix := rfl
@[simp] theorem onFinch_fab (p : Fin 72) (f : Finch → Finch) (s : State) : (onFinch p f s).fab = { s.fab with perch := vmod s.fab.perch p fun x => { x with finch := f x.finch } } := rfl
@[simp] theorem onFinch_spr (p : Fin 72) (f : Finch → Finch) (s : State) : (onFinch p f s).spr = s.spr := rfl
@[simp] theorem onFinch_net (p : Fin 72) (f : Finch → Finch) (s : State) : (onFinch p f s).net = s.net := rfl
@[simp] theorem onFinch_ptp (p : Fin 72) (f : Finch → Finch) (s : State) : (onFinch p f s).ptp = s.ptp := rfl
@[simp] theorem onFinch_star (p : Fin 72) (f : Finch → Finch) (s : State) : (onFinch p f s).star = s.star := rfl
@[simp] theorem onFinch_hkc (p : Fin 72) (f : Finch → Finch) (s : State) : (onFinch p f s).hkc = s.hkc := rfl
@[simp] theorem onFinch_gpio (p : Fin 72) (f : Finch → Finch) (s : State) : (onFinch p f s).gpio = s.gpio := rfl
@[simp] theorem onFinch_bscan (p : Fin 72) (f : Finch → Finch) (s : State) : (onFinch p f s).bscan = s.bscan := rfl
@[simp] theorem onFinch_out (p : Fin 72) (f : Finch → Finch) (s : State) : (onFinch p f s).out = s.out := rfl
@[simp] theorem onFinch_pending (p : Fin 72) (f : Finch → Finch) (s : State) : (onFinch p f s).pending = s.pending := rfl

/-! ### onWren -/

@[simp] theorem onWren_now (p : Fin 72) (f : Wren → Wren) (s : State) : (onWren p f s).now = s.now := rfl
@[simp] theorem onWren_freeCtr (p : Fin 72) (f : Wren → Wren) (s : State) : (onWren p f s).freeCtr = s.freeCtr := rfl
@[simp] theorem onWren_sys (p : Fin 72) (f : Wren → Wren) (s : State) : (onWren p f s).sys = s.sys := rfl
@[simp] theorem onWren_boot (p : Fin 72) (f : Wren → Wren) (s : State) : (onWren p f s).boot = s.boot := rfl
@[simp] theorem onWren_img (p : Fin 72) (f : Wren → Wren) (s : State) : (onWren p f s).img = s.img := rfl
@[simp] theorem onWren_flt (p : Fin 72) (f : Wren → Wren) (s : State) : (onWren p f s).flt = s.flt := rfl
@[simp] theorem onWren_log (p : Fin 72) (f : Wren → Wren) (s : State) : (onWren p f s).log = s.log := rfl
@[simp] theorem onWren_sec (p : Fin 72) (f : Wren → Wren) (s : State) : (onWren p f s).sec = s.sec := rfl
@[simp] theorem onWren_otp (p : Fin 72) (f : Wren → Wren) (s : State) : (onWren p f s).otp = s.otp := rfl
@[simp] theorem onWren_nvm (p : Fin 72) (f : Wren → Wren) (s : State) : (onWren p f s).nvm = s.nvm := rfl
@[simp] theorem onWren_mnt (p : Fin 72) (f : Wren → Wren) (s : State) : (onWren p f s).mnt = s.mnt := rfl
@[simp] theorem onWren_flash (p : Fin 72) (f : Wren → Wren) (s : State) : (onWren p f s).flash = s.flash := rfl
@[simp] theorem onWren_lt (p : Fin 72) (f : Wren → Wren) (s : State) : (onWren p f s).lt = s.lt := rfl
@[simp] theorem onWren_pix (p : Fin 72) (f : Wren → Wren) (s : State) : (onWren p f s).pix = s.pix := rfl
@[simp] theorem onWren_fab (p : Fin 72) (f : Wren → Wren) (s : State) : (onWren p f s).fab = { s.fab with perch := vmod s.fab.perch p fun x => { x with wren := f x.wren } } := rfl
@[simp] theorem onWren_spr (p : Fin 72) (f : Wren → Wren) (s : State) : (onWren p f s).spr = s.spr := rfl
@[simp] theorem onWren_net (p : Fin 72) (f : Wren → Wren) (s : State) : (onWren p f s).net = s.net := rfl
@[simp] theorem onWren_ptp (p : Fin 72) (f : Wren → Wren) (s : State) : (onWren p f s).ptp = s.ptp := rfl
@[simp] theorem onWren_star (p : Fin 72) (f : Wren → Wren) (s : State) : (onWren p f s).star = s.star := rfl
@[simp] theorem onWren_hkc (p : Fin 72) (f : Wren → Wren) (s : State) : (onWren p f s).hkc = s.hkc := rfl
@[simp] theorem onWren_gpio (p : Fin 72) (f : Wren → Wren) (s : State) : (onWren p f s).gpio = s.gpio := rfl
@[simp] theorem onWren_bscan (p : Fin 72) (f : Wren → Wren) (s : State) : (onWren p f s).bscan = s.bscan := rfl
@[simp] theorem onWren_out (p : Fin 72) (f : Wren → Wren) (s : State) : (onWren p f s).out = s.out := rfl
@[simp] theorem onWren_pending (p : Fin 72) (f : Wren → Wren) (s : State) : (onWren p f s).pending = s.pending := rfl

/-! ### onRun -/

@[simp] theorem onRun_now (p : Fin 72) (f : Runners → Runners) (s : State) : (onRun p f s).now = s.now := rfl
@[simp] theorem onRun_freeCtr (p : Fin 72) (f : Runners → Runners) (s : State) : (onRun p f s).freeCtr = s.freeCtr := rfl
@[simp] theorem onRun_sys (p : Fin 72) (f : Runners → Runners) (s : State) : (onRun p f s).sys = s.sys := rfl
@[simp] theorem onRun_boot (p : Fin 72) (f : Runners → Runners) (s : State) : (onRun p f s).boot = s.boot := rfl
@[simp] theorem onRun_img (p : Fin 72) (f : Runners → Runners) (s : State) : (onRun p f s).img = s.img := rfl
@[simp] theorem onRun_flt (p : Fin 72) (f : Runners → Runners) (s : State) : (onRun p f s).flt = s.flt := rfl
@[simp] theorem onRun_log (p : Fin 72) (f : Runners → Runners) (s : State) : (onRun p f s).log = s.log := rfl
@[simp] theorem onRun_sec (p : Fin 72) (f : Runners → Runners) (s : State) : (onRun p f s).sec = s.sec := rfl
@[simp] theorem onRun_otp (p : Fin 72) (f : Runners → Runners) (s : State) : (onRun p f s).otp = s.otp := rfl
@[simp] theorem onRun_nvm (p : Fin 72) (f : Runners → Runners) (s : State) : (onRun p f s).nvm = s.nvm := rfl
@[simp] theorem onRun_mnt (p : Fin 72) (f : Runners → Runners) (s : State) : (onRun p f s).mnt = s.mnt := rfl
@[simp] theorem onRun_flash (p : Fin 72) (f : Runners → Runners) (s : State) : (onRun p f s).flash = s.flash := rfl
@[simp] theorem onRun_lt (p : Fin 72) (f : Runners → Runners) (s : State) : (onRun p f s).lt = s.lt := rfl
@[simp] theorem onRun_pix (p : Fin 72) (f : Runners → Runners) (s : State) : (onRun p f s).pix = s.pix := rfl
@[simp] theorem onRun_fab (p : Fin 72) (f : Runners → Runners) (s : State) : (onRun p f s).fab = { s.fab with perch := vmod s.fab.perch p fun x => { x with run := f x.run } } := rfl
@[simp] theorem onRun_spr (p : Fin 72) (f : Runners → Runners) (s : State) : (onRun p f s).spr = s.spr := rfl
@[simp] theorem onRun_net (p : Fin 72) (f : Runners → Runners) (s : State) : (onRun p f s).net = s.net := rfl
@[simp] theorem onRun_ptp (p : Fin 72) (f : Runners → Runners) (s : State) : (onRun p f s).ptp = s.ptp := rfl
@[simp] theorem onRun_star (p : Fin 72) (f : Runners → Runners) (s : State) : (onRun p f s).star = s.star := rfl
@[simp] theorem onRun_hkc (p : Fin 72) (f : Runners → Runners) (s : State) : (onRun p f s).hkc = s.hkc := rfl
@[simp] theorem onRun_gpio (p : Fin 72) (f : Runners → Runners) (s : State) : (onRun p f s).gpio = s.gpio := rfl
@[simp] theorem onRun_bscan (p : Fin 72) (f : Runners → Runners) (s : State) : (onRun p f s).bscan = s.bscan := rfl
@[simp] theorem onRun_out (p : Fin 72) (f : Runners → Runners) (s : State) : (onRun p f s).out = s.out := rfl
@[simp] theorem onRun_pending (p : Fin 72) (f : Runners → Runners) (s : State) : (onRun p f s).pending = s.pending := rfl

/-! ### onCnt -/

@[simp] theorem onCnt_now (f : FabCnt → FabCnt) (s : State) : (onCnt f s).now = s.now := rfl
@[simp] theorem onCnt_freeCtr (f : FabCnt → FabCnt) (s : State) : (onCnt f s).freeCtr = s.freeCtr := rfl
@[simp] theorem onCnt_sys (f : FabCnt → FabCnt) (s : State) : (onCnt f s).sys = s.sys := rfl
@[simp] theorem onCnt_boot (f : FabCnt → FabCnt) (s : State) : (onCnt f s).boot = s.boot := rfl
@[simp] theorem onCnt_img (f : FabCnt → FabCnt) (s : State) : (onCnt f s).img = s.img := rfl
@[simp] theorem onCnt_flt (f : FabCnt → FabCnt) (s : State) : (onCnt f s).flt = s.flt := rfl
@[simp] theorem onCnt_log (f : FabCnt → FabCnt) (s : State) : (onCnt f s).log = s.log := rfl
@[simp] theorem onCnt_sec (f : FabCnt → FabCnt) (s : State) : (onCnt f s).sec = s.sec := rfl
@[simp] theorem onCnt_otp (f : FabCnt → FabCnt) (s : State) : (onCnt f s).otp = s.otp := rfl
@[simp] theorem onCnt_nvm (f : FabCnt → FabCnt) (s : State) : (onCnt f s).nvm = s.nvm := rfl
@[simp] theorem onCnt_mnt (f : FabCnt → FabCnt) (s : State) : (onCnt f s).mnt = s.mnt := rfl
@[simp] theorem onCnt_flash (f : FabCnt → FabCnt) (s : State) : (onCnt f s).flash = s.flash := rfl
@[simp] theorem onCnt_lt (f : FabCnt → FabCnt) (s : State) : (onCnt f s).lt = s.lt := rfl
@[simp] theorem onCnt_pix (f : FabCnt → FabCnt) (s : State) : (onCnt f s).pix = s.pix := rfl
@[simp] theorem onCnt_fab (f : FabCnt → FabCnt) (s : State) : (onCnt f s).fab = { s.fab with cnt := f s.fab.cnt } := rfl
@[simp] theorem onCnt_spr (f : FabCnt → FabCnt) (s : State) : (onCnt f s).spr = s.spr := rfl
@[simp] theorem onCnt_net (f : FabCnt → FabCnt) (s : State) : (onCnt f s).net = s.net := rfl
@[simp] theorem onCnt_ptp (f : FabCnt → FabCnt) (s : State) : (onCnt f s).ptp = s.ptp := rfl
@[simp] theorem onCnt_star (f : FabCnt → FabCnt) (s : State) : (onCnt f s).star = s.star := rfl
@[simp] theorem onCnt_hkc (f : FabCnt → FabCnt) (s : State) : (onCnt f s).hkc = s.hkc := rfl
@[simp] theorem onCnt_gpio (f : FabCnt → FabCnt) (s : State) : (onCnt f s).gpio = s.gpio := rfl
@[simp] theorem onCnt_bscan (f : FabCnt → FabCnt) (s : State) : (onCnt f s).bscan = s.bscan := rfl
@[simp] theorem onCnt_out (f : FabCnt → FabCnt) (s : State) : (onCnt f s).out = s.out := rfl
@[simp] theorem onCnt_pending (f : FabCnt → FabCnt) (s : State) : (onCnt f s).pending = s.pending := rfl

/-! ### onWCnt -/

@[simp] theorem onWCnt_now (f : WrenCnt → WrenCnt) (s : State) : (onWCnt f s).now = s.now := rfl
@[simp] theorem onWCnt_freeCtr (f : WrenCnt → WrenCnt) (s : State) : (onWCnt f s).freeCtr = s.freeCtr := rfl
@[simp] theorem onWCnt_sys (f : WrenCnt → WrenCnt) (s : State) : (onWCnt f s).sys = s.sys := rfl
@[simp] theorem onWCnt_boot (f : WrenCnt → WrenCnt) (s : State) : (onWCnt f s).boot = s.boot := rfl
@[simp] theorem onWCnt_img (f : WrenCnt → WrenCnt) (s : State) : (onWCnt f s).img = s.img := rfl
@[simp] theorem onWCnt_flt (f : WrenCnt → WrenCnt) (s : State) : (onWCnt f s).flt = s.flt := rfl
@[simp] theorem onWCnt_log (f : WrenCnt → WrenCnt) (s : State) : (onWCnt f s).log = s.log := rfl
@[simp] theorem onWCnt_sec (f : WrenCnt → WrenCnt) (s : State) : (onWCnt f s).sec = s.sec := rfl
@[simp] theorem onWCnt_otp (f : WrenCnt → WrenCnt) (s : State) : (onWCnt f s).otp = s.otp := rfl
@[simp] theorem onWCnt_nvm (f : WrenCnt → WrenCnt) (s : State) : (onWCnt f s).nvm = s.nvm := rfl
@[simp] theorem onWCnt_mnt (f : WrenCnt → WrenCnt) (s : State) : (onWCnt f s).mnt = s.mnt := rfl
@[simp] theorem onWCnt_flash (f : WrenCnt → WrenCnt) (s : State) : (onWCnt f s).flash = s.flash := rfl
@[simp] theorem onWCnt_lt (f : WrenCnt → WrenCnt) (s : State) : (onWCnt f s).lt = s.lt := rfl
@[simp] theorem onWCnt_pix (f : WrenCnt → WrenCnt) (s : State) : (onWCnt f s).pix = s.pix := rfl
@[simp] theorem onWCnt_fab (f : WrenCnt → WrenCnt) (s : State) : (onWCnt f s).fab = { s.fab with wcnt := f s.fab.wcnt } := rfl
@[simp] theorem onWCnt_spr (f : WrenCnt → WrenCnt) (s : State) : (onWCnt f s).spr = s.spr := rfl
@[simp] theorem onWCnt_net (f : WrenCnt → WrenCnt) (s : State) : (onWCnt f s).net = s.net := rfl
@[simp] theorem onWCnt_ptp (f : WrenCnt → WrenCnt) (s : State) : (onWCnt f s).ptp = s.ptp := rfl
@[simp] theorem onWCnt_star (f : WrenCnt → WrenCnt) (s : State) : (onWCnt f s).star = s.star := rfl
@[simp] theorem onWCnt_hkc (f : WrenCnt → WrenCnt) (s : State) : (onWCnt f s).hkc = s.hkc := rfl
@[simp] theorem onWCnt_gpio (f : WrenCnt → WrenCnt) (s : State) : (onWCnt f s).gpio = s.gpio := rfl
@[simp] theorem onWCnt_bscan (f : WrenCnt → WrenCnt) (s : State) : (onWCnt f s).bscan = s.bscan := rfl
@[simp] theorem onWCnt_out (f : WrenCnt → WrenCnt) (s : State) : (onWCnt f s).out = s.out := rfl
@[simp] theorem onWCnt_pending (f : WrenCnt → WrenCnt) (s : State) : (onWCnt f s).pending = s.pending := rfl

/-! ### onPin -/

@[simp] theorem onPin_now (p : Fin 48) (f : Pin → Pin) (s : State) : (onPin p f s).now = s.now := rfl
@[simp] theorem onPin_freeCtr (p : Fin 48) (f : Pin → Pin) (s : State) : (onPin p f s).freeCtr = s.freeCtr := rfl
@[simp] theorem onPin_sys (p : Fin 48) (f : Pin → Pin) (s : State) : (onPin p f s).sys = s.sys := rfl
@[simp] theorem onPin_boot (p : Fin 48) (f : Pin → Pin) (s : State) : (onPin p f s).boot = s.boot := rfl
@[simp] theorem onPin_img (p : Fin 48) (f : Pin → Pin) (s : State) : (onPin p f s).img = s.img := rfl
@[simp] theorem onPin_flt (p : Fin 48) (f : Pin → Pin) (s : State) : (onPin p f s).flt = s.flt := rfl
@[simp] theorem onPin_log (p : Fin 48) (f : Pin → Pin) (s : State) : (onPin p f s).log = s.log := rfl
@[simp] theorem onPin_sec (p : Fin 48) (f : Pin → Pin) (s : State) : (onPin p f s).sec = s.sec := rfl
@[simp] theorem onPin_otp (p : Fin 48) (f : Pin → Pin) (s : State) : (onPin p f s).otp = s.otp := rfl
@[simp] theorem onPin_nvm (p : Fin 48) (f : Pin → Pin) (s : State) : (onPin p f s).nvm = s.nvm := rfl
@[simp] theorem onPin_mnt (p : Fin 48) (f : Pin → Pin) (s : State) : (onPin p f s).mnt = s.mnt := rfl
@[simp] theorem onPin_flash (p : Fin 48) (f : Pin → Pin) (s : State) : (onPin p f s).flash = s.flash := rfl
@[simp] theorem onPin_lt (p : Fin 48) (f : Pin → Pin) (s : State) : (onPin p f s).lt = s.lt := rfl
@[simp] theorem onPin_pix (p : Fin 48) (f : Pin → Pin) (s : State) : (onPin p f s).pix = s.pix := rfl
@[simp] theorem onPin_fab (p : Fin 48) (f : Pin → Pin) (s : State) : (onPin p f s).fab = s.fab := rfl
@[simp] theorem onPin_spr (p : Fin 48) (f : Pin → Pin) (s : State) : (onPin p f s).spr = s.spr := rfl
@[simp] theorem onPin_net (p : Fin 48) (f : Pin → Pin) (s : State) : (onPin p f s).net = s.net := rfl
@[simp] theorem onPin_ptp (p : Fin 48) (f : Pin → Pin) (s : State) : (onPin p f s).ptp = s.ptp := rfl
@[simp] theorem onPin_star (p : Fin 48) (f : Pin → Pin) (s : State) : (onPin p f s).star = s.star := rfl
@[simp] theorem onPin_hkc (p : Fin 48) (f : Pin → Pin) (s : State) : (onPin p f s).hkc = s.hkc := rfl
@[simp] theorem onPin_gpio (p : Fin 48) (f : Pin → Pin) (s : State) : (onPin p f s).gpio = { s.gpio with pin := vmod s.gpio.pin p f } := rfl
@[simp] theorem onPin_bscan (p : Fin 48) (f : Pin → Pin) (s : State) : (onPin p f s).bscan = s.bscan := rfl
@[simp] theorem onPin_out (p : Fin 48) (f : Pin → Pin) (s : State) : (onPin p f s).out = s.out := rfl
@[simp] theorem onPin_pending (p : Fin 48) (f : Pin → Pin) (s : State) : (onPin p f s).pending = s.pending := rfl

/-! ### onPins -/

@[simp] theorem onPins_now (f : Fin 48 → Pin → Pin) (s : State) : (onPins f s).now = s.now := by simp only [onPins]
@[simp] theorem onPins_freeCtr (f : Fin 48 → Pin → Pin) (s : State) : (onPins f s).freeCtr = s.freeCtr := by simp only [onPins]
@[simp] theorem onPins_sys (f : Fin 48 → Pin → Pin) (s : State) : (onPins f s).sys = s.sys := by simp only [onPins]
@[simp] theorem onPins_boot (f : Fin 48 → Pin → Pin) (s : State) : (onPins f s).boot = s.boot := by simp only [onPins]
@[simp] theorem onPins_img (f : Fin 48 → Pin → Pin) (s : State) : (onPins f s).img = s.img := by simp only [onPins]
@[simp] theorem onPins_flt (f : Fin 48 → Pin → Pin) (s : State) : (onPins f s).flt = s.flt := by simp only [onPins]
@[simp] theorem onPins_log (f : Fin 48 → Pin → Pin) (s : State) : (onPins f s).log = s.log := by simp only [onPins]
@[simp] theorem onPins_sec (f : Fin 48 → Pin → Pin) (s : State) : (onPins f s).sec = s.sec := by simp only [onPins]
@[simp] theorem onPins_otp (f : Fin 48 → Pin → Pin) (s : State) : (onPins f s).otp = s.otp := by simp only [onPins]
@[simp] theorem onPins_nvm (f : Fin 48 → Pin → Pin) (s : State) : (onPins f s).nvm = s.nvm := by simp only [onPins]
@[simp] theorem onPins_mnt (f : Fin 48 → Pin → Pin) (s : State) : (onPins f s).mnt = s.mnt := by simp only [onPins]
@[simp] theorem onPins_flash (f : Fin 48 → Pin → Pin) (s : State) : (onPins f s).flash = s.flash := by simp only [onPins]
@[simp] theorem onPins_lt (f : Fin 48 → Pin → Pin) (s : State) : (onPins f s).lt = s.lt := by simp only [onPins]
@[simp] theorem onPins_pix (f : Fin 48 → Pin → Pin) (s : State) : (onPins f s).pix = s.pix := by simp only [onPins]
@[simp] theorem onPins_fab (f : Fin 48 → Pin → Pin) (s : State) : (onPins f s).fab = s.fab := by simp only [onPins]
@[simp] theorem onPins_spr (f : Fin 48 → Pin → Pin) (s : State) : (onPins f s).spr = s.spr := by simp only [onPins]
@[simp] theorem onPins_net (f : Fin 48 → Pin → Pin) (s : State) : (onPins f s).net = s.net := by simp only [onPins]
@[simp] theorem onPins_ptp (f : Fin 48 → Pin → Pin) (s : State) : (onPins f s).ptp = s.ptp := by simp only [onPins]
@[simp] theorem onPins_star (f : Fin 48 → Pin → Pin) (s : State) : (onPins f s).star = s.star := by simp only [onPins]
@[simp] theorem onPins_hkc (f : Fin 48 → Pin → Pin) (s : State) : (onPins f s).hkc = s.hkc := by simp only [onPins]
@[simp] theorem onPins_gpio (f : Fin 48 → Pin → Pin) (s : State) : (onPins f s).gpio = { s.gpio with pin := Vector.ofFn fun p => f p s.gpio.pin[p] } := by simp only [onPins]
@[simp] theorem onPins_bscan (f : Fin 48 → Pin → Pin) (s : State) : (onPins f s).bscan = s.bscan := by simp only [onPins]
@[simp] theorem onPins_out (f : Fin 48 → Pin → Pin) (s : State) : (onPins f s).out = s.out := by simp only [onPins]
@[simp] theorem onPins_pending (f : Fin 48 → Pin → Pin) (s : State) : (onPins f s).pending = s.pending := by simp only [onPins]

/-! ### renew -/

@[simp] theorem renew_now (s : State) : (renew s).now = s.now := rfl
@[simp] theorem renew_freeCtr (s : State) : (renew s).freeCtr = s.freeCtr := rfl
@[simp] theorem renew_sys (s : State) : (renew s).sys = s.sys := rfl
@[simp] theorem renew_boot (s : State) : (renew s).boot = s.boot := rfl
@[simp] theorem renew_img (s : State) : (renew s).img = s.img := rfl
@[simp] theorem renew_flt (s : State) : (renew s).flt = s.flt := rfl
@[simp] theorem renew_log (s : State) : (renew s).log = s.log := rfl
@[simp] theorem renew_sec (s : State) : (renew s).sec = s.sec := rfl
@[simp] theorem renew_otp (s : State) : (renew s).otp = s.otp := rfl
@[simp] theorem renew_nvm (s : State) : (renew s).nvm = { s.nvm with leaseEnd := s.now + sec 5, frozen := sec 5 } := rfl
@[simp] theorem renew_mnt (s : State) : (renew s).mnt = s.mnt := rfl
@[simp] theorem renew_flash (s : State) : (renew s).flash = s.flash := rfl
@[simp] theorem renew_lt (s : State) : (renew s).lt = s.lt := rfl
@[simp] theorem renew_pix (s : State) : (renew s).pix = s.pix := rfl
@[simp] theorem renew_fab (s : State) : (renew s).fab = s.fab := rfl
@[simp] theorem renew_spr (s : State) : (renew s).spr = s.spr := rfl
@[simp] theorem renew_net (s : State) : (renew s).net = s.net := rfl
@[simp] theorem renew_ptp (s : State) : (renew s).ptp = s.ptp := rfl
@[simp] theorem renew_star (s : State) : (renew s).star = s.star := rfl
@[simp] theorem renew_hkc (s : State) : (renew s).hkc = s.hkc := rfl
@[simp] theorem renew_gpio (s : State) : (renew s).gpio = s.gpio := rfl
@[simp] theorem renew_bscan (s : State) : (renew s).bscan = s.bscan := rfl
@[simp] theorem renew_out (s : State) : (renew s).out = s.out := rfl
@[simp] theorem renew_pending (s : State) : (renew s).pending = s.pending := rfl

end Sys2Proof.Machine
end

