-- ==== Sys2Proof/Laws/Shared.lean ====
section
/-! SUPPORT. What each shared operation can do, said once: vectors, reports, frames, requests, stage operations, Wren
words. -/

namespace Sys2Proof.Machine

/-! ### Vectors -/

@[simp] theorem vmod_same {α : Type} {n : Nat} (v : Vector α n) (i : Fin n) (f : α → α) : (vmod v i f)[i] = f v[i] := by
  simp [vmod]

theorem vmod_other {α : Type} {n : Nat} (v : Vector α n) (i j : Fin n) (f : α → α) (h : j ≠ i) :
    (vmod v i f)[j] = v[j] := by
  have : i.val ≠ j.val := fun e => h (Fin.ext e.symm)
  simp [vmod, this]

/-! ### Reports -/

@[simp] theorem summarise_now (code : BitVec 16) (s : State) : (summarise code s).now = s.now := by unfold summarise; split <;> rfl
@[simp] theorem summarise_freeCtr (code : BitVec 16) (s : State) : (summarise code s).freeCtr = s.freeCtr := by unfold summarise; split <;> rfl
@[simp] theorem summarise_sys (code : BitVec 16) (s : State) : (summarise code s).sys = s.sys := by unfold summarise; split <;> rfl
@[simp] theorem summarise_boot (code : BitVec 16) (s : State) : (summarise code s).boot = s.boot := by unfold summarise; split <;> rfl
@[simp] theorem summarise_img (code : BitVec 16) (s : State) : (summarise code s).img = s.img := by unfold summarise; split <;> rfl
@[simp] theorem summarise_log (code : BitVec 16) (s : State) : (summarise code s).log = s.log := by unfold summarise; split <;> rfl
@[simp] theorem summarise_sec (code : BitVec 16) (s : State) : (summarise code s).sec = s.sec := by unfold summarise; split <;> rfl
@[simp] theorem summarise_otp (code : BitVec 16) (s : State) : (summarise code s).otp = s.otp := by unfold summarise; split <;> rfl
@[simp] theorem summarise_nvm (code : BitVec 16) (s : State) : (summarise code s).nvm = s.nvm := by unfold summarise; split <;> rfl
@[simp] theorem summarise_mnt (code : BitVec 16) (s : State) : (summarise code s).mnt = s.mnt := by unfold summarise; split <;> rfl
@[simp] theorem summarise_flash (code : BitVec 16) (s : State) : (summarise code s).flash = s.flash := by unfold summarise; split <;> rfl
@[simp] theorem summarise_lt (code : BitVec 16) (s : State) : (summarise code s).lt = s.lt := by unfold summarise; split <;> rfl
@[simp] theorem summarise_pix (code : BitVec 16) (s : State) : (summarise code s).pix = s.pix := by unfold summarise; split <;> rfl
@[simp] theorem summarise_fab (code : BitVec 16) (s : State) : (summarise code s).fab = s.fab := by unfold summarise; split <;> rfl
@[simp] theorem summarise_spr (code : BitVec 16) (s : State) : (summarise code s).spr = s.spr := by unfold summarise; split <;> rfl
@[simp] theorem summarise_net (code : BitVec 16) (s : State) : (summarise code s).net = s.net := by unfold summarise; split <;> rfl
@[simp] theorem summarise_ptp (code : BitVec 16) (s : State) : (summarise code s).ptp = s.ptp := by unfold summarise; split <;> rfl
@[simp] theorem summarise_star (code : BitVec 16) (s : State) : (summarise code s).star = s.star := by unfold summarise; split <;> rfl
@[simp] theorem summarise_hkc (code : BitVec 16) (s : State) : (summarise code s).hkc = s.hkc := by unfold summarise; split <;> rfl
@[simp] theorem summarise_gpio (code : BitVec 16) (s : State) : (summarise code s).gpio = s.gpio := by unfold summarise; split <;> rfl
@[simp] theorem summarise_bscan (code : BitVec 16) (s : State) : (summarise code s).bscan = s.bscan := by unfold summarise; split <;> rfl
@[simp] theorem summarise_out (code : BitVec 16) (s : State) : (summarise code s).out = s.out := by unfold summarise; split <;> rfl
@[simp] theorem summarise_pending (code : BitVec 16) (s : State) : (summarise code s).pending = s.pending := by unfold summarise; split <;> rfl

@[simp] theorem queueSummary_now (code : BitVec 16) (s : State) : (queueSummary code s).now = s.now := by unfold queueSummary; split <;> rfl
@[simp] theorem queueSummary_freeCtr (code : BitVec 16) (s : State) : (queueSummary code s).freeCtr = s.freeCtr := by unfold queueSummary; split <;> rfl
@[simp] theorem queueSummary_sys (code : BitVec 16) (s : State) : (queueSummary code s).sys = s.sys := by unfold queueSummary; split <;> rfl
@[simp] theorem queueSummary_boot (code : BitVec 16) (s : State) : (queueSummary code s).boot = s.boot := by unfold queueSummary; split <;> rfl
@[simp] theorem queueSummary_img (code : BitVec 16) (s : State) : (queueSummary code s).img = s.img := by unfold queueSummary; split <;> rfl
@[simp] theorem queueSummary_log (code : BitVec 16) (s : State) : (queueSummary code s).log = s.log := by unfold queueSummary; split <;> rfl
@[simp] theorem queueSummary_sec (code : BitVec 16) (s : State) : (queueSummary code s).sec = s.sec := by unfold queueSummary; split <;> rfl
@[simp] theorem queueSummary_otp (code : BitVec 16) (s : State) : (queueSummary code s).otp = s.otp := by unfold queueSummary; split <;> rfl
@[simp] theorem queueSummary_nvm (code : BitVec 16) (s : State) : (queueSummary code s).nvm = s.nvm := by unfold queueSummary; split <;> rfl
@[simp] theorem queueSummary_mnt (code : BitVec 16) (s : State) : (queueSummary code s).mnt = s.mnt := by unfold queueSummary; split <;> rfl
@[simp] theorem queueSummary_flash (code : BitVec 16) (s : State) : (queueSummary code s).flash = s.flash := by unfold queueSummary; split <;> rfl
@[simp] theorem queueSummary_lt (code : BitVec 16) (s : State) : (queueSummary code s).lt = s.lt := by unfold queueSummary; split <;> rfl
@[simp] theorem queueSummary_pix (code : BitVec 16) (s : State) : (queueSummary code s).pix = s.pix := by unfold queueSummary; split <;> rfl
@[simp] theorem queueSummary_fab (code : BitVec 16) (s : State) : (queueSummary code s).fab = s.fab := by unfold queueSummary; split <;> rfl
@[simp] theorem queueSummary_spr (code : BitVec 16) (s : State) : (queueSummary code s).spr = s.spr := by unfold queueSummary; split <;> rfl
@[simp] theorem queueSummary_net (code : BitVec 16) (s : State) : (queueSummary code s).net = s.net := by unfold queueSummary; split <;> rfl
@[simp] theorem queueSummary_ptp (code : BitVec 16) (s : State) : (queueSummary code s).ptp = s.ptp := by unfold queueSummary; split <;> rfl
@[simp] theorem queueSummary_star (code : BitVec 16) (s : State) : (queueSummary code s).star = s.star := by unfold queueSummary; split <;> rfl
@[simp] theorem queueSummary_hkc (code : BitVec 16) (s : State) : (queueSummary code s).hkc = s.hkc := by unfold queueSummary; split <;> rfl
@[simp] theorem queueSummary_gpio (code : BitVec 16) (s : State) : (queueSummary code s).gpio = s.gpio := by unfold queueSummary; split <;> rfl
@[simp] theorem queueSummary_bscan (code : BitVec 16) (s : State) : (queueSummary code s).bscan = s.bscan := by unfold queueSummary; split <;> rfl
@[simp] theorem queueSummary_out (code : BitVec 16) (s : State) : (queueSummary code s).out = s.out := by unfold queueSummary; split <;> rfl
@[simp] theorem queueSummary_pending (code : BitVec 16) (s : State) : (queueSummary code s).pending = s.pending := by unfold queueSummary; split <;> rfl

@[simp] theorem logFault_now (code : BitVec 16) (s : State) : (logFault code s).now = s.now := rfl
@[simp] theorem logFault_freeCtr (code : BitVec 16) (s : State) : (logFault code s).freeCtr = s.freeCtr := rfl
@[simp] theorem logFault_sys (code : BitVec 16) (s : State) : (logFault code s).sys = s.sys := rfl
@[simp] theorem logFault_boot (code : BitVec 16) (s : State) : (logFault code s).boot = s.boot := rfl
@[simp] theorem logFault_img (code : BitVec 16) (s : State) : (logFault code s).img = s.img := rfl
@[simp] theorem logFault_flt (code : BitVec 16) (s : State) : (logFault code s).flt = s.flt := rfl
@[simp] theorem logFault_sec (code : BitVec 16) (s : State) : (logFault code s).sec = s.sec := rfl
@[simp] theorem logFault_otp (code : BitVec 16) (s : State) : (logFault code s).otp = s.otp := rfl
@[simp] theorem logFault_nvm (code : BitVec 16) (s : State) : (logFault code s).nvm = s.nvm := rfl
@[simp] theorem logFault_mnt (code : BitVec 16) (s : State) : (logFault code s).mnt = s.mnt := rfl
@[simp] theorem logFault_flash (code : BitVec 16) (s : State) : (logFault code s).flash = s.flash := rfl
@[simp] theorem logFault_lt (code : BitVec 16) (s : State) : (logFault code s).lt = s.lt := rfl
@[simp] theorem logFault_pix (code : BitVec 16) (s : State) : (logFault code s).pix = s.pix := rfl
@[simp] theorem logFault_fab (code : BitVec 16) (s : State) : (logFault code s).fab = s.fab := rfl
@[simp] theorem logFault_spr (code : BitVec 16) (s : State) : (logFault code s).spr = s.spr := rfl
@[simp] theorem logFault_net (code : BitVec 16) (s : State) : (logFault code s).net = s.net := rfl
@[simp] theorem logFault_ptp (code : BitVec 16) (s : State) : (logFault code s).ptp = s.ptp := rfl
@[simp] theorem logFault_star (code : BitVec 16) (s : State) : (logFault code s).star = s.star := rfl
@[simp] theorem logFault_hkc (code : BitVec 16) (s : State) : (logFault code s).hkc = s.hkc := rfl
@[simp] theorem logFault_gpio (code : BitVec 16) (s : State) : (logFault code s).gpio = s.gpio := rfl
@[simp] theorem logFault_bscan (code : BitVec 16) (s : State) : (logFault code s).bscan = s.bscan := rfl
@[simp] theorem logFault_out (code : BitVec 16) (s : State) : (logFault code s).out = s.out := rfl
@[simp] theorem logFault_pending (code : BitVec 16) (s : State) : (logFault code s).pending = s.pending := rfl

@[simp] theorem report_now (code : BitVec 16) (s : State) : (report code s).now = s.now := by simp [report]
@[simp] theorem report_freeCtr (code : BitVec 16) (s : State) : (report code s).freeCtr = s.freeCtr := by simp [report]
@[simp] theorem report_sys (code : BitVec 16) (s : State) : (report code s).sys = s.sys := by simp [report]
@[simp] theorem report_boot (code : BitVec 16) (s : State) : (report code s).boot = s.boot := by simp [report]
@[simp] theorem report_img (code : BitVec 16) (s : State) : (report code s).img = s.img := by simp [report]
@[simp] theorem report_sec (code : BitVec 16) (s : State) : (report code s).sec = s.sec := by simp [report]
@[simp] theorem report_otp (code : BitVec 16) (s : State) : (report code s).otp = s.otp := by simp [report]
@[simp] theorem report_nvm (code : BitVec 16) (s : State) : (report code s).nvm = s.nvm := by simp [report]
@[simp] theorem report_mnt (code : BitVec 16) (s : State) : (report code s).mnt = s.mnt := by simp [report]
@[simp] theorem report_flash (code : BitVec 16) (s : State) : (report code s).flash = s.flash := by simp [report]
@[simp] theorem report_lt (code : BitVec 16) (s : State) : (report code s).lt = s.lt := by simp [report]
@[simp] theorem report_pix (code : BitVec 16) (s : State) : (report code s).pix = s.pix := by simp [report]
@[simp] theorem report_fab (code : BitVec 16) (s : State) : (report code s).fab = s.fab := by simp [report]
@[simp] theorem report_spr (code : BitVec 16) (s : State) : (report code s).spr = s.spr := by simp [report]
@[simp] theorem report_net (code : BitVec 16) (s : State) : (report code s).net = s.net := by simp [report]
@[simp] theorem report_ptp (code : BitVec 16) (s : State) : (report code s).ptp = s.ptp := by simp [report]
@[simp] theorem report_star (code : BitVec 16) (s : State) : (report code s).star = s.star := by simp [report]
@[simp] theorem report_hkc (code : BitVec 16) (s : State) : (report code s).hkc = s.hkc := by simp [report]
@[simp] theorem report_gpio (code : BitVec 16) (s : State) : (report code s).gpio = s.gpio := by simp [report]
@[simp] theorem report_bscan (code : BitVec 16) (s : State) : (report code s).bscan = s.bscan := by simp [report]
@[simp] theorem report_out (code : BitVec 16) (s : State) : (report code s).out = s.out := by simp [report]
@[simp] theorem report_pending (code : BitVec 16) (s : State) : (report code s).pending = s.pending := by simp [report]

/-- A report counts its class once. -/
theorem report_classCount_same (code : BitVec 16) (s : State) (h : Sparse.wf 0 s.flt.classCount = true) :
    classCount (report code s) (faultClass code) = satInc 32 (classCount s (faultClass code)) := by
  have e : (report code s).flt.classCount = (countClass (faultClass code) s).flt.classCount := by
    simp only [report]
    have h1 : ∀ t, (logFault code t).flt = t.flt := fun _ => rfl
    have h2 : ∀ t, (queueSummary code t).flt.classCount = t.flt.classCount := by
      intro t; unfold queueSummary; split <;> rfl
    have h3 : ∀ t, (summarise code t).flt.classCount = t.flt.classCount := by
      intro t; unfold summarise; split <;> rfl
    rw [h1, h2, h3]
  unfold classCount
  rw [e]
  exact read_write_same h

/-- A fault that stands changes nothing but the FLT bookkeeping and the lines that are not formed. -/
theorem stand_changes (code : BitVec 16) (s : State) :
    stand code s = { s with flt := (stand code s).flt, spr := (stand code s).spr } := by
  unfold stand
  split <;> split <;> rfl

/-! ### Starling frames -/

/-- A frame leaves on a live port, and nothing happens on another. -/
theorem sendFrame_eq (d : Side) (f : StarFrame) (s : State) :
    sendFrame d f s = if portLive s d = true then emit (starOut d (ownHead s) f) s else s := rfl

theorem sendFrame_changes (d : Side) (f : StarFrame) (s : State) :
    sendFrame d f s = { s with out := (sendFrame d f s).out } := by
  unfold sendFrame
  split <;> rfl

/-- A ring frame changes nothing but what has left the package. -/
theorem sendRing_changes (f : StarFrame) (s : State) : sendRing f s = { s with out := (sendRing f s).out } := by
  unfold sendRing sides
  simp only [List.foldl_cons, List.foldl_nil]
  rw [sendFrame_changes, sendFrame_changes]

/-! ### Maintenance requests -/

/-- A request that arrives is accepted and run (R624, R625). -/
theorem request_arrives {s : State} {op : Nat} {q : MntReq} {payload : List Byte} (h : Arrives s op q payload)
    (i : Instr) (fits : Bool) (states : List DevState) (body : State → Reply) :
    request i op q payload fits states body s = runAccepted op q fits states body (accept op q payload s) := by
  obtain ⟨h1, h2, h3, h4⟩ := h
  unfold request
  simp [h1, h2, h3, Nat.not_lt.mpr h4]

/-- A request that is not heard changes nothing. -/
theorem request_unheard {s : State} {op : Nat} {q : MntReq} {payload : List Byte} (h : hears s q = false) (i : Instr)
    (fits : Bool) (states : List DevState) (body : State → Reply) :
    request i op q payload fits states body s = s := by
  unfold request
  simp [h]

/-- An accepted request whose payload does not fit gets FORMAT. -/
theorem runAccepted_format (op : Nat) (q : MntReq) (states : List DevState) (body : State → Reply) (s : State) :
    runAccepted op q false states body s = finish op q (answerOf op 1 []) s := rfl

/-- An accepted request of the holder's session renews the lease and runs (R636). -/
theorem session_held {s : State} {q : MntReq} (h : InSession s q) (body : State → Reply) :
    session q body s = body (renew s) := by
  unfold session
  simp [h.1, h.2]

/-! ### Stage operations -/

/-- A stage operation answers a next state. -/
theorem stageOp_next (p : Fin 72) (v : Fin 4) (i : Instr) (g : PredSel) (formats : Bool)
    (body : Finch → Bool → State → State) (s : State) : ∃ t, stageOp p v i g formats body s = .next t := by
  simp only [stageOp]
  split
  · split <;> exact ⟨_, rfl⟩
  · exact ⟨_, rfl⟩

/-- Where it issues with its predicate true, a stage operation takes its slot, does its body and joins the signature of
its slice. -/
theorem stageOp_runs {s : State} {p : Fin 72} {v : Fin 4} {i : Instr} {g : PredSel} {formats : Bool}
    (hi : issues s p = true) (hf : formats = true) (hp : predValue (opView s p i) g = true)
    (body : Finch → Bool → State → State) :
    stageOp p v i g formats body s =
      .next (noteOp p i
        (accBytes (finchOf (body (opView s p i) (predMark (opView s p i) g) (beginOp p i s)) p).stages[v] (accsOf i))
        (body (opView s p i) (predMark (opView s p i) g) (beginOp p i s))) := by
  unfold stageOp
  simp [hi, hf, hp]

/-- Under a false predicate it takes its slot and has no effect of its own (R320). -/
theorem stageOp_false {s : State} {p : Fin 72} {v : Fin 4} {i : Instr} {g : PredSel} {formats : Bool}
    (hi : issues s p = true) (hf : formats = true) (hp : predValue (opView s p i) g = false)
    (body : Finch → Bool → State → State) :
    stageOp p v i g formats body s = .next (noteOp p i [] (beginOp p i s)) := by
  unfold stageOp
  simp [hi, hf, hp]

/-- Where it does not issue or has no format of its own, it changes nothing. -/
theorem stageOp_idle {s : State} {p : Fin 72} {g : PredSel} {formats : Bool}
    (h : (issues s p && formats) = false) (v : Fin 4) (i : Instr) (body : Finch → Bool → State → State) :
    stageOp p v i g formats body s = .next s := by
  unfold stageOp
  simp [h]

/-! ### Wren words -/

/-- A word outside the Wren is not written. -/
theorem putWord_outside {a : Nat} (h : ¬a < 49152) (p : Fin 72) (w : WWord) (s : State) : putWord p a w s = s := by
  simp [putWord, h]

/-- A written word reads as written, poisoned data as the poison pattern. -/
theorem putWord_same {s : State} {p : Fin 72} {a : Nat} (h : a < 49152) (hc : CanonicalWren s p) (w : WWord) :
    wordAt (putWord p a w s) p a = if w.poison then ⟨0, true⟩ else w := by
  simp only [putWord, h, if_true, wordAt, onWren_fab, vmod_same]
  exact read_write_same hc

/-- Every other word of the Wren reads as before. -/
theorem putWord_other {s : State} {p : Fin 72} {a b : Nat} (hb : b ≠ a) (hc : CanonicalWren s p) (w : WWord) :
    wordAt (putWord p a w s) p b = wordAt s p b := by
  unfold putWord
  split
  · simp only [wordAt, onWren_fab, vmod_same]
    exact read_write_other hc hb
  · rfl

/-- Every other Wren keeps its words. -/
theorem putWord_elsewhere {s : State} {p q : Fin 72} (hq : q ≠ p) (a : Nat) (w : WWord) :
    (putWord p a w s).fab.perch[q] = s.fab.perch[q] := by
  unfold putWord
  split
  · simp only [onWren_fab]
    exact vmod_other _ _ _ _ hq
  · rfl

/-- A written word keeps every Wren canonical. -/
theorem putWord_canonical {s : State} {p q : Fin 72} (hc : CanonicalWren s q) (a : Nat) (w : WWord) :
    CanonicalWren (putWord p a w s) q := by
  by_cases hq : q = p
  · subst hq
    unfold putWord
    split
    · simp only [CanonicalWren, onWren_fab, vmod_same]
      exact sparse_write_wf _ _ hc
    · exact hc
  · simp only [CanonicalWren, putWord_elsewhere hq]
    exact hc

/-- Words written in order keep every Wren canonical. -/
theorem putWords_canonical {p q : Fin 72} (as : List Nat) (ws : List WWord) {s : State} (hc : CanonicalWren s q) :
    CanonicalWren (putWords p as ws s) q := by
  induction as generalizing ws s with
  | nil => exact hc
  | cons a r ih =>
    cases ws with
    | nil => exact hc
    | cons w ws => exact ih ws (putWord_canonical hc a w)

/-- Words written in order leave every other perch alone. -/
theorem putWords_elsewhere {p q : Fin 72} (hq : q ≠ p) (as : List Nat) (ws : List WWord) (s : State) :
    (putWords p as ws s).fab.perch[q] = s.fab.perch[q] := by
  induction as generalizing ws s with
  | nil => rfl
  | cons a r ih =>
    cases ws with
    | nil => rfl
    | cons w ws => exact (ih ws _).trans (putWord_elsewhere hq a w)

/-! ### Pins -/

theorem foldl_emit_changes {β : Type} (l : List β) (g : β → Prop) [DecidablePred g] (o : β → Out) (s : State) :
    l.foldl (fun u x => if g x then u else emit (o x) u) s =
      { s with out := (l.foldl (fun u x => if g x then u else emit (o x) u) s).out } := by
  induction l generalizing s with
  | nil => rfl
  | cons x r ih =>
    simp only [List.foldl_cons]
    split
    · exact ih s
    · exact ih (emit (o x) s)

/-- A change seen at the pins is the change, and edges that leave the package (R538). -/
theorem withPins_changes (f : State → State) (s : State) :
    withPins f s = { f s with out := (withPins f s).out } :=
  foldl_emit_changes (List.finRange 48) (fun p => padOut s p = padOut (f s) p)
    (fun p => .pin p.val (padOut (f s) p)) (f s)

end Sys2Proof.Machine
end

