-- ==== Sys2Proof/WellFormed.lean ====
section
/-! DEFINITION. Which commands an outside world can send: operands within the widths and counts the spec gives them. The
meanings answer on every command; well-formedness says which of them stand for an event of the spec. -/

namespace Sys2Proof

/-- How many units of an orientation a Wren has: 49,152 words, 3,072 rows or columns of 16 words (R251, R253). -/
def unitCount : Orient → Nat
  | .narrow => 49152
  | _ => 3072

/-- A raw housekeeping code: 12 bits, signed for a pair (R497). -/
def rawCodeOk (x : Int) : Bool :=
  decide (-2048 ≤ x) && decide (x ≤ 4095)

/-- The trims of a calibration fit their registers (Table 13.7). -/
def calOk (c : CalRes) : Bool :=
  [c.offTrim, c.gainTrim, c.skewTrim].all fun x => decide (-128 ≤ x) && decide (x ≤ 127)

/-- The fields of an Announce fit the message (R426). -/
def annOk (a : AnnData) : Bool :=
  [a.prio1, a.clockClass, a.accuracy, a.prio2].all (fun x => decide (x < 256)) &&
    [a.variance, a.steps].all fun x => decide (x < 2 ^ 16)

/-- A command an outside world can send. -/
def WellFormed (i : Instr) : Bool :=
  match i with
  | .pgoodLow _ => true
  | .aonUndervoltage => true
  | .porEnd => true
  | .resetNAssert _ => true
  | .resetNRelease => true
  | .supervisorWatchdogExpire => true
  | .selfTestDone => true
  | .spllLock => true
  | .spllLockRetry => true
  | .flashIdle => true
  | .flashBusyTimeout => true
  | .sfdpChecked _ => true
  | .logMapsRestored => true
  | .pointerRead => true
  | .headerChecked => true
  | .signatureVerified => true
  | .sectionStreamed => true
  | .fitChecksDone _ => true
  | .commitEdge => true
  | .commitDone => true
  | .lockstepFault => true
  | .supervisorResume => true
  | .secHalvesDisagree => true
  | .ladleHalvesDisagree => true
  | .sprueHalvesDisagree => true
  | .lineTimingHalvesDisagree => true
  | .refclkLoss => true
  | .floorWindow _ _ => true
  | .encEdge _ _ => true
  | .lineTrigger => true
  | .deferredTrigger => true
  | .enczEdge _ => true
  | .stbAssert _ => true
  | .fieldGateOpen _ => true
  | .stbDeassert _ => true
  | .fieldGateClose _ badRows => decide badRows.Nodup
  | .stopDetect => true
  | .drainComplete => true
  | .holdEntry => true
  | .sleepEntry => true
  | .wakeEvent _ => true
  | .wakeComplete found => found.all fun e => decide (e.2.1 < 49152) && decide (e.2.2 ≠ .clean)
  | .conversionComplete _ px shadow => px.length == 8256 && shadow.length == 128
  | .ladleLineComplete reg => reg.all fun e => decide (e.2 ≠ .clean)
  | .darkColumnExclude _ _ => true
  | .affWindowEnd => true
  | .affThaw => true
  | .ingressLine parity => (parity.map fun e => (e.1, e.2.1)).Nodup
  | .ingressWordWrite _ => true
  | .historyScrub _ bad => decide bad.Nodup
  | .beatStart _ _ _ => true
  | .lagTimeout _ => true
  | .mouldStart _ _ => true
  | .titheSnapshot _ => true
  | .titheSlot _ _ _ _ _ _ _ => true
  | .mvm _ _ _ f _ _ => Machine.macFormats.contains f
  | .opa _ _ _ f _ _ => Machine.macFormats.contains f
  | .lmac _ _ _ f _ _ _ => Machine.lmacFormats.contains f
  | .add _ _ _ f _ _ _ => Machine.arithFormats.contains f
  | .sub _ _ _ f _ _ _ => Machine.arithFormats.contains f
  | .mul _ _ _ f _ _ _ => Machine.arithFormats.contains f
  | .max _ _ _ f _ _ _ => Machine.orderFormats.contains f
  | .min _ _ _ f _ _ _ => Machine.orderFormats.contains f
  | .rq _ _ _ f _ _ => Machine.rqFormats.contains f
  | .lut _ _ _ _ _ => true
  | .cmp _ _ _ f _ _ _ _ => Machine.orderFormats.contains f
  | .plog _ _ _ _ => true
  | .sel _ _ _ _ _ _ _ _ => true
  | .shf _ _ _ _ _ _ _ => true
  | .red _ _ _ f _ _ _ => f == .int32 || f == .fp32
  | .aclr _ _ _ _ => true
  | .amov _ _ _ _ _ => true
  | .ldw _ _ _ ecc => ecc.length == 16
  | .stw _ _ _ _ => true
  | .ldn _ _ _ _ => true
  | .stn _ _ _ _ => true
  | .ldt _ _ _ _ _ ecc => ecc.length == 32
  | .put _ _ _ o unit _ _ => decide (unit < unitCount o)
  | .send _ _ _ _ _ _ => true
  | .recv _ _ _ _ _ => true
  | .egr _ _ _ _ => true
  | .wait _ _ n => decide (1 ≤ n) && decide (n < 2 ^ 20)
  | .linkTransfer _ _ => true
  | .tokenReceive _ _ _ => true
  | .tokenResend _ _ _ => true
  | .creditReturn _ _ _ _ => true
  | .creditResync _ _ _ => true
  | .sendCreditTimeout _ => true
  | .waitTimeout _ => true
  | .elasticWatchFire _ => true
  | .spillWrite _ => true
  | .riserRead _ _ _ ecc => ecc.length == 2
  | .nbwRequest _ _ _ => true
  | .nbwAccept _ _ _ => true
  | .nbwLand _ => true
  | .forcedSlot _ => true
  | .loaderWrite _ _ row => decide (row < 3072)
  | .correctionWriteback _ => true
  | .wrenScrubRow _ ecc => ecc.length == 16
  | .residentRewriteDone _ => true
  | .retentionCheckDone _ found => found.all fun e => decide (e.1 < 49152) && decide (e.2 ≠ .clean)
  | .spareSelfTest failed => decide failed.Nodup
  | .repairStart => true
  | .repairReloadDone _ => true
  | .repairMapApply => true
  | .repairGapEnd => true
  | .sprueFormRecords _ => true
  | .sprueToken _ _ _ => true
  | .cropCopy _ => true
  | .eventRelease _ => true
  | .evpDelayedAct _ => true
  | .pulseEnd _ => true
  | .seamFragReceive _ _ _ => true
  | .seamResolvePoint _ => true
  | .seamResolveReceive _ _ _ _ => true
  | .seamRelease _ => true
  | .flushTimeout => true
  | .keepalive => true
  | .datagramTx _ => true
  | .ringAgeOut => true
  | .retryRequest _ _ _ => true
  | .retransmit _ _ => true
  | .blockLockGain _ => true
  | .blockLockLoss _ _ => true
  | .arpRequestReceive _ _ _ _ => true
  | .arpPacketReceive _ _ _ => true
  | .arpResolveTimer _ => true
  | .announceReceive _ a _ => annOk a
  | .announceTimeout _ => true
  | .syncReceive _ m _ _ => decide (m.origin.ns.toNat < 1000000000)
  | .followUpReceive _ _ _ origin _ _ => decide (origin.ns.toNat < 1000000000)
  | .followUpTimeout _ => true
  | .delayReqTimer _ _ => true
  | .delayRespReceive _ _ _ rx _ _ _ requesting => decide (rx.ns.toNat < 1000000000) && requesting.length == 10
  | .timePathMarker _ _ _ => true
  | .ptpFailback => true
  | .tlcResync => true
  | .ppsSecond => true
  | .ppsWidthEnd => true
  | .linkSync _ => true
  | .linkDown _ => true
  | .tickReceive _ t => decide (-(2 ^ 23) ≤ t.excess) && decide (t.excess < 2 ^ 23)
  | .helloTimer => true
  | .helloReceive _ _ _ => true
  | .echoTimer _ => true
  | .echoReceive _ _ _ _ delay => decide (delay < 2 ^ 16)
  | .memberTimer => true
  | .memberReceive _ _ _ => true
  | .claimTimer => true
  | .claimReceive _ _ _ _ => true
  | .agreeTimer => true
  | .agreeReceive _ _ _ => true
  | .agreeTimeout => true
  | .claimWon => true
  | .roleTimer => true
  | .roleReceive _ _ _ _ _ => true
  | .handoverTimeout => true
  | .memberLineWait => true
  | .dupIdClear => true
  | .neighbourLost _ => true
  | .starlingEventReceive _ _ _ _ _ => true
  | .portModeChange _ => true
  | .scanConversion raw => rawCodeOk raw
  | .hkcResultConsume => true
  | .rotationTick => true
  | .sliceRoleRotate => true
  | .calibrationDone c => calOk c
  | .groundCheckFail => true
  | .refSettled => true
  | .refCheckFail => true
  | .railOutOfWindow _ => true
  | .sensorExclude _ => true
  | .integWindowOpen => true
  | .integWindowClose samples close => samples.all fun x => decide (x.1 ≤ close) && decide (-2048 ≤ x.2) && decide (x.2 ≤ 2047)
  | .integOutOfWindow _ => true
  | .integSaturated _ => true
  | .injectRequest _ => true
  | .injectedResult raw => rawCodeOk raw
  | .sleepScan codes => codes.length == 6 && codes.all rawCodeOk
  | .thermalTrip => true
  | .pinInterrupt _ _ _ => true
  | .supActUpdate _ => true
  | .i2cPoll _ _ => true
  | .i2cStretchTimeout _ => true
  | .read _ _ _ => true
  | .latchedPairRead _ => true
  | .write _ _ words => decide (words.length < 2 ^ 16)
  | .clearEncErrSticky _ => true
  | .clearLimitSticky _ => true
  | .clearWoViolation _ => true
  | .rearmFaultSummary _ => true
  | .clearIntStatus _ _ => true
  | .gpioCfgWrite _ _ _ => true
  | .gpioDataWrite _ _ _ => true
  | .gpioSet _ _ _ => true
  | .gpioClr _ _ _ => true
  | .gpioTgl _ _ _ => true
  | .logRead _ _ _ => true
  | .nvmLock _ => true
  | .nvmRenew _ => true
  | .nvmUnlock _ => true
  | .nvmErase _ _ _ _ => true
  | .nvmProgram _ _ _ data => decide (data.length < 2 ^ 16)
  | .nvmVerify _ _ => true
  | .nvmSwitch _ _ _ => true
  | .flashOpDone _ => true
  | .nvmLeaseExpire => true
  | .otpKey _ _ _ _ => true
  | .otpRevoke _ _ _ => true
  | .otpRollback _ _ _ => true
  | .otpRecovery _ _ _ _ _ => true
  | .reinitEgress _ => true
  | .reinitHkc _ => true
  | .reinitStarling _ => true
  | .reinitPixel _ => true
  | .reinitFabric _ => true
  | .reinitDone _ cal => decide (cal.length ≤ 3) && cal.all calOk
  | .funcWatchdogExpire _ => true
  | .resetWarm _ => true
  | .powerCycle _ => true
  | .pwrcycTimeout => true
  | .logCommit _ => true
  | .mapSnapshotCommit _ => true
  | .logSectorErase => true
  | .boundaryScanInstruction _ cells => cells.length == 48
  | .secContextResume => true
  | .nvmVerifyDone => true
  | .receivedFrameDrop _ _ => true
  | .lineOutPulseEnd _ => true
  | .bankSupplyRangeDetect _ _ => true

end Sys2Proof
end

