-- ==== Sys2Proof/Tests/Slice0.lean ====
section
/-! SUPPORT. The model's own tests: ill-formed commands refused, steps on small states, and for every statement with
hypotheses a state that meets them. -/

namespace Sys2Proof.Tests

open Sys2Proof Sys2Proof.Machine

set_option Elab.async false
set_option linter.unusedVariables false

/-! ### Small states that the witnesses and tests start from -/

/-- One value of a field, written with its subscripts. -/
def wItem (f : FieldSpec) (subs : List Nat) (v : Nat) : Item :=
  ⟨f.id, 8, packIndex f.subs subs, [v]⟩

/-- An image of the items given. -/
def wImg (l : List Item) : Image :=
  { Image.reset with valid := true, items := l }

/-- RUN with nothing configured. -/
def wRun : State :=
  { State.reset with sys := { Sys.reset with code := .run, spllLocked := true } }

/-- A valid pointer record: slot 1, sequence number 5 (R594). -/
def WPTR : State :=
  { State.reset with
    boot := { Boot.reset with stage := 6 }
    flash := [0x42, 0x50, 0x54, 0x52, 1, 0, 0, 0, 5, 0, 0, 0, 0x1B, 0xC3, 0xCE, 0x36].zipIdx.map fun x =>
      (x.2, x.1) }

/-- Stage 0x5 with one committed map snapshot: bypass 3 and checkpoint 7. -/
def wSnap : State :=
  let b := snapshotBody 1 7 { State.reset with fab := { Fab.reset with bypass := some 3 } } ++ [0]
  { State.reset with
    boot := { Boot.reset with stage := 5 }
    flash := (b.zipIdx.map fun x => (0x2000 + x.2, x.1)).filter fun c => c.2 != 0xFF }

/-- A wake from SLEEP over empty sections: CRC 0 and the SHA-256 of no bytes. -/
def WWAKE : State :=
  { State.reset with
    sys := { Sys.reset with code := .sleep, waking := true }
    img := { Image.reset with
      table := List.replicate 13 { SectEntry.reset with
        sha := 0xE3B0C44298FC1C149AFBF4C8996FB92427AE41E4649B934CA495991B7852B855 } } }

/-- The encoder master in RUN, ENC_RATIO 3.0 edges a line, ENCZ in use. -/
def WMASTER : State :=
  { wRun with
    img := wImg [wItem Fld.encRatio [] 0x300000, wItem Fld.enczEn [] 1]
    star := { Star.reset with encMaster := true } }

/-- A line of one slot has been triggered. -/
def WSLOT : State :=
  { wRun with
    img := wImg [wItem Fld.slotEn [0] 1]
    lt := { Lt.reset with lastTrig := some 0 } }

/-- The streaming region 0 of row 0: words 0 to 2,047, writable by mould 0 and by neighbours. -/
def wRegion : List Item :=
  [wItem Fld.rgnN [0] 1, wItem Fld.rgnBase [0, 0] 0, wItem Fld.rgnLen [0, 0] 8, wItem Fld.rgnNbw [0, 0] 1,
   wItem Fld.wmask [0, 0] 1, wItem Fld.wmask [0, 1] 1]

/-- Row 0 in use with two moulds of 20 cycles and a tithe. -/
def wFabItems : List Item :=
  [wItem Fld.rowmask [] 1, wItem Fld.fold [0] 2, wItem Fld.mlen [0, 0] 20, wItem Fld.mlen [0, 1] 20,
   wItem Fld.tlMin [] 2000]

/-- RUN with an image; perch 0 runs a beat, and every perch is powered. -/
def wFabOf (l : List Item) : State :=
  { wRun with
    img := wImg l
    fab := { Fab.reset with
      repairAvail := true
      perch := (Vector.replicate 72 { Perch.reset with powered := true }).set 0
        { Perch.reset with powered := true, finch := { Finch.reset with running := true } } } }

/-- `wFabOf` with the region of `wRegion`. -/
def WFAB : State :=
  wFabOf (wFabItems ++ wRegion)

/-- `WFAB` with every perch changed alike. -/
def wfab (f : Perch → Perch) : State :=
  { WFAB with fab := { WFAB.fab with perch := WFAB.fab.perch.map f } }

/-- A line whose beat is due at every perch; `stalled` and `stall` are the Finches'. -/
def wbeat (stall : Stall) (stalled : Bool) : State :=
  { wfab (fun x => { x with finch := { x.finch with stall := stall, stalled := stalled } }) with
    spr := { Sprue.reset with lines := [{ LineRec.reset with exposed := true, ingressed := true }] } }

/-- The same line with every Finch stalled and holding the token of an earlier one. -/
def wHeldBeat : State :=
  let s := wbeat Stall.reset true
  { s with
    fab := { s.fab with perch := s.fab.perch.map fun x => { x with finch := { x.finch with held := some 0 } } }
    spr := { s.spr with lines := s.spr.lines ++ [{ LineRec.reset with line := 1, exposed := true, ingressed := true }] } }

/-- Every perch is past its last mould and keeps an empty beat 0 with the snapshot of slice 0; an arbitration may be due. -/
def wTithe (arb : Option Nat) : State :=
  wfab (fun x => { x with
    finch := { x.finch with mould := 1, titheDone := false, slice := some 0, arb := arb, snaps := [Snapshot.reset] }
    iss := { x.iss with work := [{ Work.reset with beat := 1 }, Work.reset] } })

/-- A repair whose spare has passed its test. -/
def wRepair : State :=
  { State.reset with
    sys := { Sys.reset with code := .repair }
    fab := { Fab.reset with repair := some { Repair.reset with tested := true } } }

/-- QMODE 1 with QTHETA 1 at stage 0. -/
def WQSKIP : State :=
  wFabOf (wFabItems ++ [wItem Fld.qmode [0, 0, 0] 1])

/-- Generator 0 gives row units. -/
def WWIDE : State :=
  wFabOf (wFabItems ++ wRegion ++ [wItem Fld.agOrient [0, 0, 0] 1])

/-- No region at all. -/
def WNORGN : State :=
  wFabOf wFabItems

/-- The resident region 1 of row 0 is being rewritten, `len` times 256 words from word 2,048. -/
def wResident (len : Nat) : State :=
  let s := wFabOf [wItem Fld.rowmask [] 1, wItem Fld.rgnN [0] 2, wItem Fld.rgnBase [0, 1] 8, wItem Fld.rgnLen [0, 1] len,
    wItem Fld.rgnKind [0, 1] 1]
  { s with fab := { s.fab with
    perch := s.fab.perch.map fun x => { x with wren := { x.wren with rewriting := [(1, 0)] } } } }

/-- One row of words to rewrite at a time. -/
def WRES : State :=
  wResident 1

/-- Nothing left to rewrite. -/
def WRES0 : State :=
  wResident 0

/-- Perches 0 and 1 issue; the channels from 0 to 1 are static, static without credit, and elastic. -/
def WCHAN : State :=
  let s := wFabOf (wFabItems ++ [wItem Fld.chKind [0, 3, 0] 1, wItem Fld.chKind [0, 3, 1] 1, wItem Fld.chKind [0, 3, 2] 2])
  { s with fab := { s.fab with
    perch := s.fab.perch.map fun x => { x with
      finch := { x.finch with running := true }
      run := { x.run with
        credit := (Vector.replicate 16 1).set 5 0
        rxQ := (Vector.replicate 16 []).set 12 [(0, ⟨7, 0, false, false, 1⟩)] } } } }

/-- Row 0 with a riser of one block, and one unwritten backlog token of channel East 0 at perch 0. -/
def wRiser : State :=
  let s := wFabOf (wFabItems ++ [wItem Fld.rgnN [0] 1, wItem Fld.rgnBase [0, 0] 3, wItem Fld.rgnLen [0, 0] 1, wItem Fld.rgnKind [0, 0] 2])
  { s with fab := { s.fab with perch := s.fab.perch.map fun x => { x with
    run := { x.run with backlog := (Vector.replicate 16 []).set 4 [(⟨7, 0, false, false, 1⟩, none)], credit := Vector.replicate 16 1 } } } }

/-- The channels of `WCHAN` with an elastic token queued from the West. -/
def wElastic : State :=
  { WCHAN with fab := { WCHAN.fab with perch := WCHAN.fab.perch.map fun x => { x with
    run := { x.run with rxQ := (Vector.replicate 16 []).set 14 [(0, ⟨7, 0, false, false, 1⟩)] } } } }

/-- The channels of `WCHAN` with every elastic output buffer full and no riser. -/
def wNoRiser : State :=
  { WCHAN with fab := { WCHAN.fab with perch := WCHAN.fab.perch.map fun x => { x with
    run := { x.run with outBuf := Vector.replicate 4 (List.replicate 16 ⟨7, 2, false, false, 1⟩) } } } }

/-- Row 0 with a riser and channel 0 from the West elastic; every output buffer is full. -/
def wRiserCh : State :=
  let s := wFabOf (wFabItems ++ [wItem Fld.rgnN [0] 1, wItem Fld.rgnBase [0, 0] 3, wItem Fld.rgnLen [0, 0] 1,
    wItem Fld.rgnKind [0, 0] 2, wItem Fld.chKind [0, 3, 0] 2])
  { s with fab := { s.fab with perch := s.fab.perch.map fun x => { x with
    finch := { x.finch with running := true }
    run := { x.run with outBuf := Vector.replicate 4 (List.replicate 16 ⟨7, 0, false, false, 1⟩) } } } }

/-- A token on the link East of every perch; `again` says that it is the repeat. -/
def WLINK (again : Bool) : State :=
  wfab (fun x => { x with run := { x.run with onLink := Vector.replicate 4 (some (⟨1, 0, false, false, 0⟩, again)) } })

/-- Elastic group 0 holds a token and has not moved for four beats. -/
def WWATCH : State :=
  let s := wFabOf (wFabItems ++ [wItem Fld.chKind [0, 3, 0] 2, wItem Fld.elc [0, 3, 0] 0])
  { s with fab := { s.fab with
    watch := Vector.replicate 16 ⟨5, true⟩
    perch := s.fab.perch.map fun x => { x with
      run := { x.run with rxQ := (Vector.replicate 16 []).set 12 [(0, ⟨7, 0, false, false, 1⟩)] } } } }

/-- The token of `WLINK` on its way to Finches that wait for it in a RECV. -/
def wStallRecv (again : Bool) : State :=
  let s := WLINK again
  { s with fab := { s.fab with perch := s.fab.perch.map fun x => { x with
    finch := { x.finch with
      stalled := true
      stall := { Stall.reset with kind := .recv, chan := 12, predDst := some 3, write := true } } } } }

/-- The token of `WLINK` on its way to full receive queues. -/
def wFullRecv (again : Bool) : State :=
  let s := WLINK again
  { s with fab := { s.fab with perch := s.fab.perch.map fun x => { x with
    run := { x.run with rxQ := Vector.replicate 16 (List.replicate 16 (0, ⟨7, 0, false, false, 1⟩)) } } } }

/-- Every Finch waits in a SEND to the East on channel 1, whose credit travels back. -/
def wStallSend : State :=
  let s := wFabOf (wFabItems ++ [wItem Fld.chKind [0, 3, 1] 1, wItem Fld.credit [0, 3, 1] 3])
  { s with fab := { s.fab with perch := s.fab.perch.map fun x => { x with
    finch := { x.finch with
      stalled := true
      stall := { Stall.reset with kind := .send, chan := 5, tok := ⟨7, 1, false, false, 1⟩ } }
    run := { x.run with creditOnLink := Vector.replicate 16 1 } } } }

/-- Elastic group 0 is due with two tokens in one output buffer, over a riser of one block. -/
def wWatchBuf : State :=
  let s := wFabOf (wFabItems ++ [wItem Fld.rgnN [0] 1, wItem Fld.rgnBase [0, 0] 3, wItem Fld.rgnLen [0, 0] 1,
    wItem Fld.rgnKind [0, 0] 2, wItem Fld.chKind [0, 3, 0] 2, wItem Fld.elc [0, 3, 0] 0])
  { s with fab := { s.fab with
    watch := Vector.replicate 16 ⟨5, true⟩
    perch := vmod s.fab.perch 0 fun x => { x with run := { x.run with
      outBuf := (Vector.replicate 4 []).set 1 [⟨7, 0, false, false, 1⟩, ⟨8, 0, false, false, 1⟩] } } } }

/-- The riser of `wRiser` after its token is written. -/
def wRiserUp : State :=
  { wRiser with fab := { wRiser.fab with perch := wRiser.fab.perch.map fun x => { x with
    run := { x.run with backlog := (Vector.replicate 16 []).set 4 [(⟨7, 0, false, false, 1⟩, some 0)] } } } }

/-- The words of a riser entry of `wRiserUp`. -/
def riserAt (e : Nat) : List Nat :=
  [riserWord wRiserUp 0 e, riserWord wRiserUp 0 e + 1]

/-! ### The image of the worked example of chapter 16, written in slot A -/

/-- The bytes of the image; its signature is made under a key of ours. -/
def specBytes : List Byte :=
  be 48 0x41445453010040008403B10D00000000E00400004000000014C4061D0000000000000000000000000000000000000000 ++
  be 48 0x0000000000000000000000000ACA2FFD0F000000B0020000900000000000000000000000000000000000000000000000 ++
  be 48 0x00000000000000000000000000000000010000004003000010000000830CA4DF261EA5199ADCCBF400A66674C00B175E ++
  be 48 0x83F4EC97154E9C0D07B7D08C52B833590200000050030000500000003B6FFE9C64099CB2399A7EF389D9975BB39E79EF ++
  be 48 0xCF8D1B4CC2CB33D6478C221DBCF1D22103000000A0030000300000003CEFFDA8CBD7ADD75F7C3873C9503EC2E6C04038 ++
  be 48 0x79195BC487A451C601EFF533DBF9BFF604000000D00300005C000000BDEEDA598A421789ED23B109264427C131A20AEF ++
  be 48 0xD28E4A67A0739511DB24B15D1F42237D0500000030040000300000006D9EEFF37DFDDAE5E95F6AB7C1A988BC018A7588 ++
  be 48 0xC958ABD5F17EDB238A7AF0BCDF6AEB0205010000600400000000000000000000E3B0C44298FC1C149AFBF4C8996FB924 ++
  be 48 0x27AE41E4649B934CA495991B7852B85506000000600400000000000000000000E3B0C44298FC1C149AFBF4C8996FB924 ++
  be 48 0x27AE41E4649B934CA495991B7852B855070000006004000028000000998AEFA60ED3368A9204E593CECF3089E6F30BE6 ++
  be 48 0x18FA4C9197A2F2D817832E643B509DE508000000900400005000000004276F2ADDFFD786303C4FD91559E88D1D40BEB9 ++
  be 48 0x9FC8E3B344F5BD9487C30A900F9B280009000000E00400000000000000000000E3B0C44298FC1C149AFBF4C8996FB924 ++
  be 48 0x27AE41E4649B934CA495991B7852B8550A000000E00400000000000000000000E3B0C44298FC1C149AFBF4C8996FB924 ++
  be 48 0x27AE41E4649B934CA495991B7852B8550B000000E00400000000000000000000E3B0C44298FC1C149AFBF4C8996FB924 ++
  be 48 0x27AE41E4649B934CA495991B7852B85500000000DEB742C55F770BEFECB05F794901BED8D63CE84F1B4DB12981BF01D6 ++
  be 48 0x4301F4A1196E01B347A031428E28A7428453260DA75BDFD4490B20F93E8A2B28C21D4CCF5247311C57090236C2E8DBD1 ++
  be 48 0x79DFA95681261C70C7726032A3D820C28EA59CFB5247311C57090236C2E8DBD179DFA95681261C70C7726032A3D820C2 ++
  be 48 0x8EA59CFB0000000000000000F9B6C92B0101020000000000010000001000000001020400000000000100000000002000 ++
  be 48 0x050202000000000001000000D0070000080201000000000001000000010000000902020000000000010000000A000000 ++
  be 48 0x0A0202000000000001000000200300001103040000000000010000001027000012030100000000000400000001000000 ++
  be 48 0x130302000000000001000000000000000104010000000000010000000100000002040100000000000100000001000000 ++
  be 48 0x030402000000000001000000140000000404010000000000010000000100000005041000000000000100000000000000 ++
  be 48 0x000000000000000000000000000000000105010000000000010000000100000002050100000000000100000000000000 ++
  be 48 0x030501000000000001000000050000000107040000000000020000000A14010B0A14020B040704000000000002000000 ++
  be 48 0x0A1401020A14020200000000000000000108020000000000010000000500000002080200000000000100000001000000 ++
  be 48 0x030801000000000001000000000000000508010000000000010000000100000006080100000000000100000001000000

/-- Slot A holds the image. -/
def specFlash : List Host.Cell :=
  (specBytes.zipIdx.map fun x => (0x400000 + x.2, x.1)).filter fun c => c.2 != 0xFF

/-- Key slot 0 holds the digest of the key. -/
def specOtp : Otp :=
  { Otp.reset with keys := #v[0xb88550b4dee88660e8a9de048ccc8fbe2373ae64cb828eaa56fe2371aeb11558, 0, 0, 0] }

/-- The image with every section streamed. -/
def specStaged : Image :=
  let m := headerImage specFlash 0
  m.table.foldl (fun a e => stageSection specFlash 0 e a) m

/-- The boot at a stage, with the image in slot A. -/
def wSlotA (n : Nat) : State :=
  { State.reset with boot := { Boot.reset with stage := n }, flash := specFlash, otp := specOtp }

/-- The boot at a stage, with the image staged. -/
def wStaged (n : Nat) : State :=
  { wSlotA n with boot := { Boot.reset with stage := n, staged := specStaged } }

/-- Stage 0x8 with row 0 in use and its Wrens' contents kept. -/
def wKeep : State :=
  { State.reset with boot := { Boot.reset with
      stage := 8, sigOk := true, tagged := true, keeping := true, nextSect := 6, staged := wImg [wItem Fld.rowmask [] 1] } }

/-- The same with a resident region whose CRC the Wrens do not meet. -/
def wKeepNot : State :=
  { wKeep with boot := { wKeep.boot with staged := wImg [wItem Fld.rowmask [] 1, wItem Fld.rgnN [0] 1,
      wItem Fld.rgnLen [0, 0] 0, wItem Fld.rgnKind [0, 0] 1, wItem Fld.rgnCrc [0, 0] 1] } }

/-- The first section of the image. -/
def wSection : SectEntry :=
  specStaged.table.getD 0 SectEntry.reset

/-! ### Results and egress -/

/-- The token the Sprue takes next: tag 5. -/
def wTk : Token :=
  ⟨0, 0, false, false, 5⟩

/-- Perch 0 has put one token of tag 5 out, of the kind given (R366). -/
def wTok (kind : Nat) : State :=
  let s := wFabOf [wItem Fld.rowmask [] 1, wItem Fld.tagKind [5] kind, wItem Fld.evpMode [0] 1]
  { s with fab := { s.fab with perch := s.fab.perch.map fun x => { x with run := { x.run with egr := [(5, wTk)] } } } }

/-- A crop waits; of no line, or of one line the history does not hold. -/
def wCrop (held : Bool) : State :=
  { wRun with spr := { Sprue.reset with crops := [if held then Crop.reset else { Crop.reset with height := 1 }] } }

/-- The token of `wTok` void and poisoned. -/
def wTokVoid : State :=
  { wTok 1 with
    fab := { (wTok 1).fab with perch := (wTok 1).fab.perch.map fun x => { x with
      run := { x.run with egr := [(5, ⟨0, 0, true, true, 5⟩)] } } }
    spr := { Sprue.reset with lines := [{ LineRec.reset with line := 5 }] } }

/-- The token of `wTok` as ATTR words of a waiting label. -/
def wTokAttr : State :=
  { wTok 3 with spr := { Sprue.reset with toks := [{ TokRec.reset with beat := 5 }] } }

/-- A crop of three bytes waits in the crop store. -/
def wCropData : State :=
  { wRun with spr := { Sprue.reset with cropUsed := 3, crops := [{ Crop.reset with bytes := [1, 2, 3], width := 3 }] } }

/-- A line whose beat has run, and the next one. -/
def wLine0 : LineRec :=
  { LineRec.reset with exposed := true, beatRan := true }

/-- The line after `wLine0`, whose beat runs. -/
def wLine1 : LineRec :=
  { wLine0 with line := 1 }

/-- The two lines, with records that wait, record credit and one fault code to show. -/
def wTwoLines (toks : List TokRec) : State :=
  { wRun with
    flt := { Flt.reset with sumQueue := [0x1042] }
    spr := { Sprue.reset with lines := [wLine0, wLine1], toks := toks, recCredit := 256 } }

/-- A box inside the device's columns. -/
def wBoxTok : TokRec :=
  { TokRec.reset with box := true, x0 := 4000, x1 := 4010 }

/-- An event of port 2 is due for its release. -/
def wEvt : State :=
  { wRun with
    img := wImg [wItem Fld.evpMode [2] 1, wItem Fld.evpDelay [2] 4]
    lt := { Lt.reset with anyLine := true, line := 100 }
    spr := { Sprue.reset with events := [⟨3, 2⟩] }
    gpio := { Gpio.reset with evpOn := true } }

/-- A line without a beat is exposed. -/
def wLine : State :=
  { wRun with spr := { Sprue.reset with lines := [{ LineRec.reset with exposed := true, noBeat := true }] } }

/-- Both Starling links are up and active, with a few changes. -/
def wStar (f : Star → Star) : State :=
  { wRun with
    img := wImg []
    star := f { Star.reset with port := Vector.replicate 2 { Port.reset with up := true, passive := false } } }

/-- Fragments can arrive. -/
def wSeam : State :=
  wStar id

/-- An own fragment at the West seam. -/
def wFrag : Frag :=
  { Frag.reset with side := 1, boxId := 7, x1 := 10 }

/-- An own fragment past its resolve point, without seam pairing. -/
def wOwn : State :=
  { wRun with
    img := wImg [wItem Fld.seamEn [] 0]
    lt := { Lt.reset with anyLine := true, line := 100 }
    spr := { Sprue.reset with own := [wFrag] } }

/-- The same with a neighbour of the bar in RUN on the West port, and its fragments. -/
def wOwnUp (theirs : List Frag) : State :=
  { wOwn with
    img := wImg [wItem Fld.seamEn [] 1, wItem Fld.barPos [] 1]
    spr := { Sprue.reset with own := [wFrag], theirs := theirs }
    star := { Star.reset with port := Vector.replicate 2 { Port.reset with
      up := true, passive := false, neigh := some { Neigh.reset with id := 3, state := 3 } } } }

/-- The neighbour's fragment beside it. -/
def wTheirs : Frag :=
  { Frag.reset with side := 1, boxId := 9, x0 := 8060, x1 := 8080 }

/-- A resolved own fragment, and `n` of record credit. -/
def wRes (n : Nat) : State :=
  { wRun with spr := { Sprue.reset with own := [{ wFrag with resolved := true, why := 1 }], recCredit := n } }

/-- One record of one byte waits. -/
def wNet : State :=
  { wRun with net := { Net.reset with queue := [[1]] } }

/-- A locked lane that is up, with the MAC of its next hop. -/
def wLaneUp : Lane :=
  { Lane.reset with up := true, lock := true, nextMac := some 5 }

/-- RUN with both lanes usable, SEQ 0 in the ring, and things to send. -/
def wLanes (txq : List Nat) (serve : List Serve) : State :=
  { wRun with net := { Net.reset with
    lane := Vector.replicate 2 { wLaneUp with txq := txq, serve := serve }
    ring := [Datagram.reset] } }

/-- Lane addresses of one subnet. -/
def wCfg : LaneCfg :=
  { LaneCfg.reset with ip := 0x0A000001, host := 0x0A000002, pfx := 24, fromImage := true }

/-- A lane that is up and not locked; `fixed` says that its next hop has a fixed MAC. -/
def wMac (fixed : Bool) : State :=
  { wRun with
    net := { Net.reset with lane := Vector.replicate 2 { Lane.reset with
      up := true, cfg := { wCfg with hopMac := if fixed then some 5 else none } } } }

/-- A retry request from SEQ 0 with its COUNT and STREAM (Table 11.3). -/
def wRetry (count stream : Nat) : List Byte :=
  let h : List Byte := [0x47, 0x5A, 0x01, 0x10] ++ le 6 0 ++ le 2 count ++ [0, 0, 0, 0] ++ le 4 stream
  h ++ le 4 (crc32c h).toNat

/-- A locked lane with addresses of one subnet. -/
def wHop : State :=
  { wRun with net := { Net.reset with lane := Vector.replicate 2 { wLaneUp with cfg := wCfg } } }

/-! ### Precision time -/

/-- A master. -/
def wAnn : AnnData :=
  ⟨1, 0, 128, 6, 0x20, 0, 128, 77, 0⟩

/-- Usable lanes, the clock running on lane A, and lane A's master. -/
def wPtp (m : Option AnnData) (st : Nat) : State :=
  { wLanes [] [] with ptp := { Ptp.reset with
    running := true
    lane := 0
    state := st
    pl := (Vector.replicate 2 PtpLane.reset).set 0 { PtpLane.reset with master := m, candidates := m.toList.map fun a => ⟨a, 0⟩ } } }

/-- Both lanes have a master and the clock is locked on lane A. -/
def wBoth : State :=
  { wPtp none 1 with ptp := { (wPtp none 1).ptp with
    pl := Vector.replicate 2 { PtpLane.reset with master := some wAnn } } }

/-- A two-step Sync waits for its Follow_Up. -/
def wTwo : State :=
  { wPtp none 0 with ptp := { (wPtp none 0).ptp with
    pl := Vector.replicate 2 { PtpLane.reset with twoStep := some ⟨⟨1, 4, true, ⟨0, 0⟩, 0⟩, 107, 0⟩ } } }

/-- A Delay_Req has left at time 5. -/
def wT3 : State :=
  { wPtp none 0 with ptp := { (wPtp none 0).ptp with
    pl := Vector.replicate 2 { PtpLane.reset with master := some wAnn, t3 := some 5, reqId := 0 } } }

/-- One marker has been out of place. -/
def wMark : State :=
  { wPtp none 0 with ptp := { (wPtp none 0).ptp with
    pl := Vector.replicate 2 { PtpLane.reset with markerBad := 1 } } }

/-- The line clock time is set and the clock at 0 does not run. -/
def wTlc (n : Int) : State :=
  { wRun with ptp := { Ptp.reset with tlc := some n, state := 1, tBase := 0 } }

/-- PPS pulses leave. -/
def wPps : State :=
  wPtp none 1

/-! ### The Starling ring -/

/-- A device that claims. -/
def wClaim : State :=
  let s := wStar (fun x => { x with claiming := true })
  { s with img := wImg [wItem Fld.masterElig [] 1] }

/-- A group master of DEV_ID 9. -/
def wMaster : State :=
  let s := wStar (fun x => { x with groupMaster := true })
  { s with img := wImg [wItem Fld.masterElig [] 1, wItem Fld.devId [] 9] }

/-- A group master that has granted no device of its bar. -/
def wRoles : State :=
  let s := wMaster
  { s with star := { s.star with holders := [(0, none)] } }

/-- The device follows device 3. -/
def wHeard : State :=
  wStar (fun x => { x with heard := [{ Agree.reset with src := 3 }] })

/-- A tick of bar 0, line 0. -/
def wTick : TickFrame :=
  ⟨1, false, true, true, 0, false, false, false, 0, 0, 0, 0⟩

/-! ### The converter and the pins -/

/-- The scan runs on slice 0. -/
def wHkc (f : Hkc → Hkc) : State :=
  { wRun with hkc := f { Hkc.reset with scanOn := true, roleP := 0 } }

/-- A result of rail 0 inside its window, the sixteenth in a row, with the rail out. -/
def wRailIn : State :=
  let s := wHkc (fun h => { h with
    rail := Vector.replicate 8 { RailMon.reset with out := true, inRun := 15 }
    data := { HkcData.reset with valid := true, chan := 13, result := 1000 } })
  { s with img := wImg [wItem Fld.railLo [0] 500, wItem Fld.railHi [0] 1500] }

/-- The strobe integrator measures slot 2. -/
def wInteg (window : Option (Nat × Nat)) : State :=
  let s := wHkc (fun h => { h with integOn := true, integEn := true, integSlots := 4, settled := true, window := window })
  { s with lt := { Lt.reset with stb := 4 } }

/-- The window of slot 2 takes energies from 1 to 19,999, and the third good one in a row has come. -/
def wIntegIn : State :=
  let s := wInteg (some (2, 0))
  { s with
    img := wImg [wItem Fld.eHi [2] 20000]
    hkc := { s.hkc with slot := Vector.replicate 4 { SlotMon.reset with out := true, inRun := 3, sat := true, unsatRun := 3 } } }

/-- The image's pin settings are in force and every pin is the supervisor's. -/
def wGpio (f : Pin → Pin) : State :=
  { wRun with gpio := { Gpio.reset with
    active := true
    bank := Vector.replicate 2 .v18
    pin := Vector.replicate 48 (f { Pin.reset with owner := 1 }) } }

/-- Event port 0 holds an event of line 0, and pulses. -/
def wEvp : State :=
  { wRun with
    img := wImg [wItem Fld.evpMode [0] 1]
    lt := { Lt.reset with anyLine := true }
    gpio := { Gpio.reset with
      active := true
      evpOn := true
      evp := Vector.replicate 16 { Evp.reset with held := [0], active := true } } }

/-- Board sensor 0 is polled. -/
def wI2c : State :=
  { wGpio id with img := wImg [wItem Fld.i2cMode [] 1, wItem Fld.i2cAddr [0] 0x48] }

/-! ### Maintenance -/

/-- Lanes that answer, in RUN. -/
def wMnt : State :=
  { wRun with net := { Net.reset with
    lane := Vector.replicate 2 { Lane.reset with up := true, lock := true, cfg := wCfg } } }

/-- A request on lane A to any device, with sequence number `n + 1` and no MAC yet. -/
def wReq (n : Nat) : MntReq :=
  { lane := .a, srcMac := 0, srcIp := 0, srcPort := 0, magic := 0x4D47, version := 1, seq := BitVec.ofNat 64 (n + 1)
    status := 0, target := 0x8000, session := 0, reserved := 0, mac := 0 }

/-- The request with the MAC its sender computes (Table 17.1). -/
def signed (s : State) (op : Nat) (q : MntReq) (payload : List Byte) : MntReq :=
  { q with mac := packetMac s (requestBytes op q payload) }

/-- A signed request arrives when everything but its MAC holds. -/
theorem arrives_signed (s : State) (op : Nat) (q : MntReq) (pl : List Byte)
    (h : (hears s q && decide (pl.length ≤ 1432) && q.magic == 0x4D47 && q.version == 1 && q.reserved == 0
      && targetOk s q.target && decide (s.sys.hseq < q.seq.toNat) && decide (q.seq.toNat ≤ s.log.sc + 65536)) = true) :
    Arrives s op (signed s op q pl) pl := by
  simp only [Bool.and_eq_true, decide_eq_true_eq] at h
  obtain ⟨⟨⟨⟨⟨⟨⟨h1, h2⟩, h3⟩, h4⟩, h5⟩, h6⟩, h7⟩, h8⟩ := h
  refine ⟨h1, ?_, h7, h8⟩
  have e : packetMac s (requestBytes op (signed s op q pl) pl) = (signed s op q pl).mac := rfl
  simp only [packetOk, e, Bool.and_eq_true, decide_eq_true_eq, beq_self_eq_true, and_true]
  exact ⟨⟨⟨⟨h2, h3⟩, h4⟩, h5⟩, h6⟩

/-- Re-inits of every function but EGRESS run. -/
def wReBusy : State :=
  { wMnt with sys := { wMnt.sys with funcBusy := 30 } }

/-- A host's HKC re-init waits for the one that runs. -/
def wReWait : State :=
  { wReBusy with mnt := { Mnt.reset with reinitWait := [⟨0x30, wReq 0, reinitPayload .hkc, none⟩] } }

/-- Sequence number 1 is no longer fresh. -/
def wStale : State :=
  { wMnt with sys := { wMnt.sys with hseq := 10 } }

/-- The NVM_LOCK of `wReq` has been accepted and runs. -/
def wAgain : State :=
  { wMnt with
    sys := { wMnt.sys with hseq := 10 }
    mnt := { Mnt.reset with cache := [⟨0x10, signed wMnt 0x10 (wReq 0) [], [], none⟩] } }

/-- The session lock belongs to the sender of `wReq`. -/
def wHeld : State :=
  { wMnt with nvm := { Nvm.reset with locked := true, leaseEnd := 1000000000 } }

/-- The session lock belongs to a sender on the other lane. -/
def wOther : State :=
  { wHeld with nvm := { wHeld.nvm with lane := 1 } }

/-- Slot B has been verified. -/
def wVer : State :=
  { wHeld with nvm := { wHeld.nvm with verifiedB := true } }

/-- Every key slot is programmed, and the image in force is signed with key slot 0. -/
def wKeyed : State :=
  { wHeld with
    otp := { Otp.reset with keys := Vector.replicate 4 (BitVec.allOnes 256) }
    img := { Image.reset with valid := true, rollback := 5 } }

/-- Every OTP field is written, rollback value 5, and the image in force is not of key slot 3. -/
def wRevoked : State :=
  { wKeyed with otp := { wKeyed.otp with
      revoke := 0xF
      rb := 31
      recov := Vector.replicate 2 { Recov.reset with written := true } } }

/-- A session command runs. -/
def wBusy (todo : SessOp) : State :=
  { wHeld with nvm := { wHeld.nvm with busy := some ⟨0x13, wReq 0, [], todo⟩ } }

/-- One log record waits for its commit. -/
def wLog : State :=
  { wRun with log := { Log.reset with queue := [LogRec.reset] } }

/-! ### Commands no outside world sends -/

theorem wf_accepts_selfTestDone : WellFormed .selfTestDone = true := by decide
theorem wf_refuses_short_line : WellFormed (.conversionComplete 0 [] []) = false := by decide
theorem wf_refuses_row_twice : WellFormed (.fieldGateClose 0 [3, 3]) = false := by decide
theorem wf_refuses_clean_find : WellFormed (.ladleLineComplete [(1, .clean)]) = false := by decide
theorem wf_refuses_word_outside : WellFormed (.wakeComplete [(71, 49152, .corrected)]) = false := by decide
theorem wf_refuses_slot_twice : WellFormed (.historyScrub 0 [9, 9]) = false := by decide
theorem wf_refuses_spare_twice : WellFormed (.spareSelfTest [2, 2]) = false := by decide
theorem wf_refuses_bus_word_twice : WellFormed (.ingressLine [(3, 1, true), (3, 1, false)]) = false := by decide
theorem wf_refuses_retention_word : WellFormed (.retentionCheckDone 3 [(49152, .corrected)]) = false := by decide
theorem wf_refuses_riser_words : WellFormed (.riserRead 0 .n 0 [.clean]) = false := by decide
theorem wf_refuses_mvm_format : WellFormed (.mvm 0 0 .always .int32 0 .prev) = false := by decide
theorem wf_refuses_opa_format : WellFormed (.opa 0 0 .always .fp32 .prev .own) = false := by decide
theorem wf_refuses_lmac_format : WellFormed (.lmac 0 0 .always .int4 0 .prev .own) = false := by decide
theorem wf_refuses_add_format : WellFormed (.add 0 0 .always .int8 .prev .own .out) = false := by decide
theorem wf_refuses_sub_format : WellFormed (.sub 0 0 .always .e4m3 .prev .own .out) = false := by decide
theorem wf_refuses_mul_format : WellFormed (.mul 0 0 .always .int4 .prev .own .out) = false := by decide
theorem wf_refuses_max_format : WellFormed (.max 0 0 .always .int4 .prev .own .out) = false := by decide
theorem wf_refuses_min_format : WellFormed (.min 0 0 .always .fp32 .prev .own .out) = false := by decide
theorem wf_refuses_cmp_format : WellFormed (.cmp 0 0 .always .e5m2 .lt .prev .own 0) = false := by decide
theorem wf_refuses_rq_format : WellFormed (.rq 0 0 .always .int32 0 0) = false := by decide
theorem wf_refuses_red_format : WellFormed (.red 0 0 .always .bf16 false .prev .out) = false := by decide
theorem wf_refuses_ldw_words : WellFormed (.ldw 0 .always 0 [.clean]) = false := by decide
theorem wf_refuses_ldt_words : WellFormed (.ldt 0 0 .always 0 false [.clean]) = false := by decide
theorem wf_refuses_scrub_words : WellFormed (.wrenScrubRow 0 [.clean]) = false := by decide
theorem wf_refuses_put_unit : WellFormed (.put 0 .always .n .row 3072 0 .inp) = false := by decide
theorem wf_refuses_wait_zero : WellFormed (.wait 0 0 0) = false := by decide
theorem wf_refuses_loader_row : WellFormed (.loaderWrite 0 0 3072) = false := by decide
theorem wf_refuses_scan_code : WellFormed (.scanConversion 4096) = false := by decide
theorem wf_refuses_injected_code : WellFormed (.injectedResult (-2049)) = false := by decide
theorem wf_refuses_sleep_codes : WellFormed (.sleepScan [0]) = false := by decide
theorem wf_refuses_late_sample : WellFormed (.integWindowClose [(6, 0)] 5) = false := by decide
theorem wf_refuses_wide_trim : WellFormed (.calibrationDone ⟨0, 0, 0, 128, 0, 0, true⟩) = false := by decide
theorem wf_refuses_four_slices :
    WellFormed (.reinitDone .hkc (List.replicate 4 ⟨0, 0, 0, 0, 0, 0, true⟩)) = false := by decide
theorem wf_refuses_wide_priority : WellFormed (.announceReceive .a { wAnn with prio1 := 256 }) = false := by decide
theorem wf_refuses_late_nanosecond :
    WellFormed (.syncReceive .a ⟨1, 4, false, ⟨0, 1000000000⟩, 0⟩) = false := by decide
theorem wf_refuses_follow_nanosecond :
    WellFormed (.followUpReceive .a 1 4 ⟨0, 1000000000⟩ 0) = false := by decide
theorem wf_refuses_short_identity :
    WellFormed (.delayRespReceive .a 1 4 ⟨0, 0⟩ 0 (requesting := [1])) = false := by decide
theorem wf_refuses_wide_excess : WellFormed (.tickReceive .west { wTick with excess := 8388608 }) = false := by decide
theorem wf_refuses_long_cable : WellFormed (.echoReceive .west ⟨true, true, 1, 0, 0⟩ 0 true 65536) = false := by decide
theorem wf_refuses_few_cells : WellFormed (.boundaryScanInstruction true []) = false := by decide
theorem wf_refuses_long_write : WellFormed (.write (wReq 0) 0 (List.replicate 65536 0)) = false := by decide +kernel
theorem wf_refuses_long_program :
    WellFormed (.nvmProgram (wReq 0) 0 0 (List.replicate 65536 0)) = false := by decide +kernel

/-! ### The table has no bits, and the queue is first in, first out -/

theorem test_decode_none : decodeTableWord 8 0x41 = none := rfl

theorem test_step_takes_the_front :
    step { State.reset with pending := [.refSettled, .selfTestDone] } =
      .next { State.reset with hkc := { Hkc.reset with settled := true }, pending := [.selfTestDone] } := rfl

/-! ### Values of the spec -/

/-- R601: the CRC-32C of the bytes "123456789". -/
theorem test_crc32c : crc32c [0x31, 0x32, 0x33, 0x34, 0x35, 0x36, 0x37, 0x38, 0x39] = 0xE3069283 := by decide +kernel

/-- Worked example of "Image format": what the first-light image declares. -/
theorem test_first_light_image :
    specStaged.nat Fld.tlMin [] = 2000 ∧ specStaged.on Fld.slotEn [0] = true ∧ specStaged.nat Fld.slotWidth [0] = 800 ∧
      specStaged.nat Fld.slotOpen [0] = 10 ∧ specStaged.nat Fld.devId [] = 5 ∧ specStaged.bad = [] := by
  decide +kernel

/-- A lane's input of a flat-field example. -/
def wFlat : State :=
  { State.reset with img := wImg [wItem Fld.ffGain [1, 3000] 0x5000, wItem Fld.ffOffset [1, 3000] 0x38,
    wItem Fld.zero [1] 2048, wItem Fld.shift [1] 3] }

/-- Worked example of "Correction": dark level, corrected value, history value and fabric value at column 3,000. -/
theorem test_flat_field :
    darkAt 1029 1041 3000 = 1033 ∧ correctOne wFlat 1 16 1029 1041 3000 1873 = 36099 ∧ histValue 4 36099 = 141 ∧
      fabricValue wFlat 1 36099 = 26 := by
  decide +kernel

/-- Worked example of "Requantisation": 41,472 and 3,413 by M = 3, S = 12, and a tie. -/
theorem test_requantise :
    rqInt .int8 3 0 12 41472 = (30, false) ∧ rqInt .int8 3 0 12 3413 = (2, false) ∧
      rqInt .int8 1 0 12 10240 = (2, false) := by
  decide +kernel

/-- Worked example of "QSKIP": −3 is not below a theta of 3; ±2 is. -/
theorem test_qskip_magnitude :
    belowTheta .int8 3 (laneInt (-3)) = false ∧ belowTheta .int8 3 (laneInt (-2)) = true ∧
      belowTheta .int8 3 (laneInt 2) = true := by
  decide +kernel

/-- The six moulds of the cold mill at TL_MIN = 250. -/
def wMill : Image :=
  wImg ([wItem Fld.tlMin [] 250, wItem Fld.fold [0] 6] ++
    [212, 212, 212, 204, 196, 182].zipIdx.map fun x => wItem Fld.mlen [0, x.2] x.1)

/-- Worked example of "Moulds and beats": C = 1,312, t = 82, W = 1,218 and S = 15. -/
theorem test_tithe_numbers :
    floorCycles wMill = 1312 ∧ titheCycles wMill = 82 ∧ workOf wMill 0 = 1218 ∧ sliceCount wMill 0 = 15 := by
  decide +kernel

/-- The ring of plane 1 of the cold mill: base 2,560, depth 16, halo 1. -/
def wRing : State :=
  { State.reset with img := wImg [wItem Fld.ingBase [1] 2560, wItem Fld.ingDepth [] 16] }

/-- Worked example of "Ingress": line 1,000,003 starts at word 3,040, ten bus words, the third at 3,072. -/
theorem test_ingress_window :
    ((captured wRing { LadleLine.reset with line := 1000003 } 1 0).map (·.addr)) = (List.range 10).map (3040 + 16 * ·) := by
  decide +kernel

/-- Worked example of "Orientations": row unit 190 and column unit 181. -/
theorem test_units :
    (unitWords 1 190).head? = some 3040 ∧ (unitWords 2 181).take 2 = [2821, 2837] ∧
      (unitWords 2 181).getLast? = some 3061 := by
  decide +kernel

/-- Worked example of "Seams": the East fragment of the sliver in the West frame, W_s = 640. -/
theorem test_seam_frame :
    inWestFrame { State.reset with img := wImg [wItem Fld.seamW [] 640] } true
      { Frag.reset with side := 1, x0 := 296, x1 := 350 } = (7848, 7902) := by
  decide +kernel

/-- Worked example of "Time anchors": the anchor's bytes carry hop 7, BAR_POS 7 and the time. -/
theorem test_anchor_bytes :
    (anchorBytes { State.reset with img := wImg [wItem Fld.barPos [] 7] }
      { LineRec.reset with line := 5000192, time := 1800000000123456789, hop := 7 }).drop 4 =
      le 6 5000192 ++ le 6 1800000000 ++ le 4 123456789 ++ le 2 7 ++ [0, 0, 0, 0, 0, 0, 7, 2, 0, 0] := by
  decide +kernel

/-- The state a command leaves. -/
def after (c : Instr) (s : State) : State :=
  match exec c s with
  | .next t => t
  | _ => s

/-- R133, R134: a forward edge adds 1.0 of 12.20 to the encoder master's accumulator. -/
theorem test_forward_edge :
    (after (.encEdge .b 4) { WMASTER with lt := { Lt.reset with encA := true } }).lt.acc = 1048576 := by
  decide +kernel

/-- R134: a reverse edge goes to the deficit. -/
theorem test_reverse_edge :
    (after (.encEdge .b 4) WMASTER).lt.deficit = 1 ∧ (after (.encEdge .b 4) WMASTER).lt.acc = 0 := by
  decide +kernel

/-! ### Witnesses of the statements -/

set_option maxRecDepth 20000

/-- The hypotheses of StepRunsTheFrontCommand can be met. -/
theorem witness_StepRunsTheFrontCommand :
    ∃ (s : State) (c : Instr) (q : List Instr), s.pending = c :: q :=
  ⟨{ State.reset with pending := [.selfTestDone] }, .selfTestDone, [], by decide +kernel⟩

/-- The hypotheses of EmptyQueueLetsTimePass can be met. -/
theorem witness_EmptyQueueLetsTimePass :
    ∃ (s : State), s.pending = [] :=
  ⟨State.reset, by decide +kernel⟩

/-- The hypotheses of PorEndsWhateverRan can be met. -/
theorem witness_PorEndsWhateverRan :
    (∃ (s : State) (ns : Nat), s.sys.porActive = false ∧ 1000 ≤ ns) ∧
    (∃ (s : State) (ns : Nat), (s.sys.porActive = true ∨ ns < 100)) ∧
    (∃ (s : State) (ns : Nat), s.sys.porActive = false ∧ 100 ≤ ns ∧ ns < 1000) ∧
    (∃ (s : State), s.sys.porActive = false) ∧
    (∃ (s : State), s.sys.porActive = true) ∧
    (∃ (s : State), s.sys.porActive = false) :=
  ⟨⟨State.reset, 1000, by decide +kernel⟩,
    ⟨State.reset, 99, by decide +kernel⟩,
    ⟨State.reset, 100, by decide +kernel⟩,
    ⟨State.reset, by decide +kernel⟩,
    ⟨{ State.reset with sys := { Sys.reset with porActive := true } }, by decide +kernel⟩,
    ⟨State.reset, by decide +kernel⟩⟩

/-- The hypotheses of ResetPinStartsAndHoldsTheBoot can be met. -/
theorem witness_ResetPinStartsAndHoldsTheBoot :
    (∃ (s : State) (ns : Nat), 100 ≤ ns ∧ s.sys.resetNLow = false ∧ s.sys.porActive = false) ∧
    (∃ (s : State) (ns : Nat), (ns < 20 ∨ s.sys.resetNLow = true)) ∧
    (∃ (s : State) (ns : Nat), 20 ≤ ns ∧ s.sys.resetNLow = false ∧ s.sys.porActive = true) ∧
    (∃ (s : State) (ns : Nat), 20 ≤ ns ∧ ns < 100 ∧ s.sys.resetNLow = false ∧ s.sys.porActive = false) ∧
    (∃ (s : State), s.sys.resetNLow = true) ∧
    (∃ (s : State), s.sys.resetNLow = false) :=
  ⟨⟨State.reset, 100, by decide +kernel⟩,
    ⟨State.reset, 19, by decide +kernel⟩,
    ⟨{ State.reset with sys := { Sys.reset with porActive := true } }, 20, by decide +kernel⟩,
    ⟨State.reset, 20, by decide +kernel⟩,
    ⟨{ State.reset with sys := { Sys.reset with resetNLow := true } }, by decide +kernel⟩,
    ⟨State.reset, by decide +kernel⟩⟩

/-- The hypotheses of FaultsThatEndInAReset can be met, part 1. -/
theorem witness_FaultsThatEndInAReset_1 :
    (∃ (s : State), awake s = true) ∧
    (∃ (s : State), awake s = true) ∧
    (∃ (s : State), awake s = false) ∧
    (∃ (s : State), s.sys.code = .run) ∧
    (∃ (s : State), s.sys.code ≠ .run) ∧
    (∃ (s : State), 4 ≤ s.sys.tripRun ∧ s.sys.resetNLow = false ∧ s.sys.code ≠ .off) :=
  ⟨⟨State.reset, by decide +kernel⟩,
    ⟨State.reset, by decide +kernel⟩,
    ⟨{ State.reset with sys := { Sys.reset with code := .sleep, supHalted := true } }, by decide +kernel⟩,
    ⟨wRun, by decide +kernel⟩,
    ⟨State.reset, by decide +kernel⟩,
    ⟨{ wRun with sys := { wRun.sys with tripRun := 4 } }, by decide +kernel⟩⟩

/-- The hypotheses of FaultsThatEndInAReset can be met, part 2. -/
theorem witness_FaultsThatEndInAReset_2 :
    ∃ (s : State), (s.sys.tripRun < 4 ∨ s.sys.code = .off ∨ s.sys.resetNLow = true) :=
  ⟨State.reset, by decide +kernel⟩

/-- The hypotheses of SecondLockstepFaultEscalates can be met. -/
theorem witness_SecondLockstepFaultEscalates :
    ∃ (s : State) (first : Nat), awake s = true ∧ s.sys.lastLockstep = some first ∧ s.now ≤ first + sec 1 :=
  ⟨{ State.reset with sys := { Sys.reset with code := .run, lastLockstep := some 0 } }, 0, by decide +kernel⟩

/-- The hypotheses of LockstepFaultFreesEveryMutex can be met. -/
theorem witness_LockstepFaultFreesEveryMutex :
    ∃ (s : State), awake s = true :=
  ⟨{ State.reset with sys := { Sys.reset with code := .run, mutexes := [3] } }, by decide +kernel⟩

/-- The hypotheses of HalvesAndContextsRecover can be met, part 1. -/
theorem witness_HalvesAndContextsRecover_1 :
    (∃ (s : State), awake s = true ∧ within (sec 1) s.sys.lastLockstep s = false) ∧
    (∃ (s : State), awake s = true ∧ within (sec 1) s.sec.lastFault s = false) ∧
    (∃ (s : State), awake s = true ∧ within (sec 1) s.sec.lastFault s = true) ∧
    (∃ (s : State), awake s = false) ∧
    (∃ (s : State), s.sec.resetting = true) ∧
    (∃ (s : State) (e : CacheEntry) (a : Answer), s.sec.resetting = true ∧ s.mnt.unsent = [e] ∧ e.answer = some a) :=
  ⟨⟨wRun, by decide +kernel⟩,
    ⟨wRun, by decide +kernel⟩,
    ⟨{ wRun with sec := ⟨false, some 0⟩ }, by decide +kernel⟩,
    ⟨{ State.reset with sys := { Sys.reset with code := .sleep, supHalted := true } }, by decide +kernel⟩,
    ⟨{ wRun with sec := ⟨true, none⟩ }, by decide +kernel⟩,
    ⟨{ wRun with sec := ⟨true, none⟩, mnt := { Mnt.reset with unsent := [⟨0x30, wReq 0, [], some ⟨0xB0, 0, []⟩⟩] } }, ⟨0x30, wReq 0, [], some ⟨0xB0, 0, []⟩⟩, ⟨0xB0, 0, []⟩, by decide +kernel⟩⟩

/-- The hypotheses of HalvesAndContextsRecover can be met, part 2. -/
theorem witness_HalvesAndContextsRecover_2 :
    (∃ (s : State), s.sec.resetting = false) ∧
    (∃ (s : State), working s = true) ∧
    (∃ (s : State) (l : LineRec) (rest : List LineRec), working s = true ∧ s.spr.lines = l :: rest) ∧
    (∃ (s : State), working s = true ∧ s.spr.lines = []) ∧
    (∃ (s : State), working s = false) :=
  ⟨⟨State.reset, by decide +kernel⟩,
    ⟨{ wRun with sys := { wRun.sys with spllLocked := true } }, by decide +kernel⟩,
    ⟨{ wRun with sys := { wRun.sys with spllLocked := true }, spr := { Sprue.reset with lines := [LineRec.reset] } }, LineRec.reset, [], by decide +kernel⟩,
    ⟨{ wRun with sys := { wRun.sys with spllLocked := true } }, by decide +kernel⟩,
    ⟨State.reset, by decide +kernel⟩⟩

/-- The hypotheses of BootStagesBeforeTheImage can be met, part 1. -/
theorem witness_BootStagesBeforeTheImage_1 :
    (∃ (s : State), booting s = true ∧ s.boot.stage ≤ 2) ∧
    (∃ (s : State), (booting s = false ∨ 2 < s.boot.stage)) ∧
    (∃ (s : State), s.sys.code ≠ .off ∧ s.sys.supHalted = false) ∧
    (∃ (s : State), (s.sys.code = .off ∨ s.sys.supHalted = true)) ∧
    (∃ (s : State), atStage 3 s = true ∧ s.sys.spllLocked = false) ∧
    (∃ (s : State), (atStage 3 s = false ∨ s.sys.spllLocked = true)) :=
  ⟨⟨{ State.reset with boot := { Boot.reset with stage := 2 } }, by decide +kernel⟩,
    ⟨wRun, by decide +kernel⟩,
    ⟨{ State.reset with boot := { Boot.reset with stage := 3 } }, by decide +kernel⟩,
    ⟨{ State.reset with sys := { Sys.reset with code := .sleep, supHalted := true } }, by decide +kernel⟩,
    ⟨{ State.reset with boot := { Boot.reset with stage := 3 } }, by decide +kernel⟩,
    ⟨wRun, by decide +kernel⟩⟩

/-- The hypotheses of BootStagesBeforeTheImage can be met, part 2. -/
theorem witness_BootStagesBeforeTheImage_2 :
    (∃ (s : State), atStage 4 s = true) ∧
    (∃ (s : State) (f : Sfdp), atStage 4 s = false) ∧
    (∃ (s : State), atStage 4 s = true ∧ s.boot.flashReady = false) ∧
    (∃ (s : State), atStage 4 s = true ∧ s.boot.flashReady = true) ∧
    (∃ (s : State) (f : Sfdp), atStage 4 s = true ∧ s.boot.flashReady = true ∧ sfdpOk f = true) ∧
    (∃ (s : State) (f : Sfdp), atStage 4 s = true ∧ s.boot.flashReady = true ∧ sfdpOk f = false) :=
  ⟨⟨{ State.reset with boot := { Boot.reset with stage := 4 } }, by decide +kernel⟩,
    ⟨wRun, ⟨true, 512, true, true, true, true⟩, by decide +kernel⟩,
    ⟨{ State.reset with boot := { Boot.reset with stage := 4 } }, by decide +kernel⟩,
    ⟨{ State.reset with boot := { Boot.reset with stage := 4, flashReady := true } }, by decide +kernel⟩,
    ⟨{ State.reset with boot := { Boot.reset with stage := 4, flashReady := true } }, ⟨true, 512, true, true, true, true⟩, by decide +kernel⟩,
    ⟨{ State.reset with boot := { Boot.reset with stage := 4, flashReady := true } }, ⟨true, 511, true, true, true, true⟩, by decide +kernel⟩⟩

/-- The hypotheses of BootStagesBeforeTheImage can be met, part 3. -/
theorem witness_BootStagesBeforeTheImage_3 :
    (∃ (s : State) (f : Sfdp), atStage 4 s = true ∧ s.boot.flashReady = false) ∧
    (∃ (s : State), atStage 5 s = true ∧ (∀ k ∈ usedSlots s.flash 0x2000 512 16, snapshotCommitted (Memory.bytes s.flash (snapAddr k) 512) = false)) ∧
    (∃ (s : State) (k : Nat) (bs : List Byte), atStage 5 s = true ∧ usedSlots s.flash 0x2000 512 16 = [k] ∧ bs = Memory.bytes s.flash (snapAddr k) 512 ∧ snapshotCommitted bs = true) ∧
    (∃ (s : State), atStage 5 s = false) ∧
    (∃ (s : State), atStage 6 s = true ∧ pointerInForce s.flash = none) ∧
    (∃ (s : State) (sector slot seq : Nat), atStage 6 s = true ∧ pointerInForce s.flash = some (sector, slot, seq)) :=
  ⟨⟨{ State.reset with boot := { Boot.reset with stage := 4 } }, ⟨true, 512, true, true, true, true⟩, by decide +kernel⟩,
    ⟨{ State.reset with boot := { Boot.reset with stage := 5 } }, by decide +kernel⟩,
    ⟨wSnap, 0, Memory.bytes wSnap.flash 0x2000 512, by decide +kernel, by decide +kernel, rfl, by decide +kernel⟩,
    ⟨wRun, by decide +kernel⟩,
    ⟨{ State.reset with boot := { Boot.reset with stage := 6 } }, by decide +kernel⟩,
    ⟨WPTR, 0, 1, 5, by decide +kernel⟩⟩

/-- The hypotheses of BootStagesBeforeTheImage can be met, part 4. -/
theorem witness_BootStagesBeforeTheImage_4 :
    ∃ (s : State), atStage 6 s = false :=
  ⟨wRun, by decide +kernel⟩

/-- The hypotheses of BootChecksOfTheSlot can be met, part 1. -/
theorem witness_BootChecksOfTheSlot_1 :
    (∃ (s : State), atStage 7 s = true ∧ headerCode s.flash s.otp s.boot.slot = 0) ∧
    (∃ (s : State), atStage 7 s = true ∧ headerCode s.flash s.otp s.boot.slot ≠ 0 ∧ s.boot.tried = false) ∧
    (∃ (s : State), atStage 7 s = true ∧ headerCode s.flash s.otp s.boot.slot ≠ 0 ∧ s.boot.tried = true) ∧
    (∃ (s : State), atStage 7 s = false) ∧
    (∃ (s : State), atStage 8 s = true ∧ s.boot.sigOk = false ∧ signatureCode s.flash s.otp s.boot.slot = 0) ∧
    (∃ (s : State), atStage 8 s = true ∧ s.boot.sigOk = false ∧ signatureCode s.flash s.otp s.boot.slot ≠ 0 ∧ s.boot.tried = false) :=
  ⟨⟨wSlotA 7, by decide +kernel⟩,
    ⟨{ State.reset with boot := { Boot.reset with stage := 7 } }, by decide +kernel⟩,
    ⟨{ State.reset with boot := { Boot.reset with stage := 7, tried := true } }, by decide +kernel⟩,
    ⟨wRun, by decide +kernel⟩,
    ⟨wSlotA 8, by decide +kernel⟩,
    ⟨{ State.reset with boot := { Boot.reset with stage := 8 } }, by decide +kernel⟩⟩

/-- The hypotheses of BootChecksOfTheSlot can be met, part 2. -/
theorem witness_BootChecksOfTheSlot_2 :
    (∃ (s : State), atStage 8 s = true ∧ s.boot.sigOk = false ∧ signatureCode s.flash s.otp s.boot.slot ≠ 0 ∧ s.boot.tried = true) ∧
    (∃ (s : State), (atStage 8 s = false ∨ s.boot.sigOk = true)) ∧
    (∃ (s : State) (k : Nat) (e : SectEntry), atStage 8 s = true ∧ dueSection s = k ∧ k < 13 ∧ k ≠ 6 ∧ e = s.boot.staged.table.getD k SectEntry.reset ∧ sectionCode s.flash s.boot.slot e = 0) ∧
    (∃ (s : State) (e : SectEntry), atStage 8 s = true ∧ dueSection s = 6 ∧ s.boot.keeping = true ∧ e = s.boot.staged.table.getD 6 SectEntry.reset) ∧
    (∃ (s : State) (e : SectEntry) (m : Image), atStage 8 s = true ∧ dueSection s = 6 ∧ s.boot.keeping = false ∧ e = s.boot.staged.table.getD 6 SectEntry.reset ∧ sectionCode s.flash s.boot.slot e = 0 ∧ m = stageSection s.flash s.boot.slot e s.boot.staged) ∧
    (∃ (s : State) (k : Nat), atStage 8 s = true ∧ dueSection s = k ∧ k < 13 ∧ (k = 6 → s.boot.keeping = false) ∧ sectionCode s.flash s.boot.slot (s.boot.staged.table.getD k SectEntry.reset) ≠ 0) :=
  ⟨⟨{ State.reset with boot := { Boot.reset with stage := 8, tried := true } }, by decide +kernel⟩,
    ⟨wRun, by decide +kernel⟩,
    ⟨wStaged 8, 0, wSection, by decide +kernel⟩,
    ⟨{ wStaged 8 with boot := { (wStaged 8).boot with nextSect := 6, keeping := true } }, specStaged.table.getD 6 SectEntry.reset, by decide +kernel⟩,
    ⟨{ wStaged 8 with boot := { (wStaged 8).boot with nextSect := 6 } }, specStaged.table.getD 6 SectEntry.reset, stageSection specFlash 0 (specStaged.table.getD 6 SectEntry.reset) specStaged, by decide +kernel, by decide +kernel, by decide +kernel, by decide +kernel, by decide +kernel, rfl⟩,
    ⟨{ wStaged 8 with flash := [], boot := { (wStaged 8).boot with nextSect := 1 } }, 1, by decide +kernel⟩⟩

/-- The hypotheses of BootChecksOfTheSlot can be met, part 3. -/
theorem witness_BootChecksOfTheSlot_3 :
    (∃ (s : State), (atStage 8 s = false ∨ 13 ≤ dueSection s)) ∧
    (∃ (s : State) (p : Fin 72) (found : List (Nat × Ecc)), retentionDue p s = true ∧ retentionOk s.boot.staged p (retentionReads s.boot.staged p found s) = true) ∧
    (∃ (s : State) (p : Fin 72) (found : List (Nat × Ecc)), retentionDue p s = true ∧ retentionOk s.boot.staged p (retentionReads s.boot.staged p found s) = false) ∧
    (∃ (s : State) (p : Fin 72) (found : List (Nat × Ecc)), retentionDue p s = false) ∧
    (∃ (s : State), atStage 9 s = true ∧ s.boot.edgeReady = false ∧ (fitCode s.boot.staged s.boot.slot s.boot.keeping s).1 = 0) ∧
    (∃ (s : State), atStage 9 s = true ∧ s.boot.edgeReady = false ∧ 0x10 ≤ (fitCode s.boot.staged s.boot.slot s.boot.keeping s).1) :=
  ⟨⟨wRun, by decide +kernel⟩,
    ⟨wKeep, 0, [], by decide +kernel⟩,
    ⟨wKeepNot, 0, [], by decide +kernel⟩,
    ⟨wRun, 0, [], by decide +kernel⟩,
    ⟨wStaged 9, by decide +kernel⟩,
    ⟨{ State.reset with boot := { Boot.reset with stage := 9 } }, by decide +kernel⟩⟩

/-- The hypotheses of BootChecksOfTheSlot can be met, part 4. -/
theorem witness_BootChecksOfTheSlot_4 :
    (∃ (s : State), atStage 9 s = true ∧ s.boot.edgeReady = false) ∧
    (∃ (s : State) (upset : Bool), (atStage 9 s = false ∨ s.boot.edgeReady = true)) :=
  ⟨⟨{ State.reset with boot := { Boot.reset with stage := 9 } }, by decide +kernel⟩,
    ⟨wRun, true, by decide +kernel⟩⟩

/-- The hypotheses of CommitAppliesTheWholeImage can be met. -/
theorem witness_CommitAppliesTheWholeImage :
    (∃ (s : State), atStage 9 s = true ∧ s.boot.edgeReady = true ∧ s.boot.safeLatch = false) ∧
    (∃ (s : State), atStage 9 s = true ∧ s.boot.edgeReady = true ∧ s.boot.safeLatch = true) ∧
    (∃ (s : State), (atStage 9 s = false ∨ s.boot.edgeReady = false)) ∧
    (∃ (s : State), s.sys.code = .commit ∧ supRuns s = true) ∧
    (∃ (s : State), (s.sys.code ≠ .commit ∨ supRuns s = false)) :=
  ⟨⟨{ State.reset with boot := { Boot.reset with stage := 9, edgeReady := true } }, by decide +kernel⟩,
    ⟨{ State.reset with boot := { Boot.reset with stage := 9, edgeReady := true, safeLatch := true } }, by decide +kernel⟩,
    ⟨wRun, by decide +kernel⟩,
    ⟨{ State.reset with sys := { Sys.reset with code := .commit } }, by decide +kernel⟩,
    ⟨wRun, by decide +kernel⟩⟩

/-- The hypotheses of HoldSleepAndWake can be met, part 1. -/
theorem witness_HoldSleepAndWake_1 :
    (∃ (s : State), s.sys.code = .run ∧ supRuns s = true) ∧
    (∃ (s : State), (s.sys.code ≠ .run ∨ supRuns s = false)) ∧
    (∃ (s : State), maySleep s = true) ∧
    (∃ (s : State), maySleep s = false) ∧
    (∃ (s : State) (w : WakeSrc), s.sys.code = .sleep ∧ s.sys.waking = false ∧ wakes w s = true) ∧
    (∃ (s : State) (w : WakeSrc), (s.sys.code ≠ .sleep ∨ s.sys.waking = true ∨ wakes w s = false)) :=
  ⟨⟨wRun, by decide +kernel⟩,
    ⟨State.reset, by decide +kernel⟩,
    ⟨{ State.reset with sys := { Sys.reset with code := .hold }, img := { Image.reset with items := [⟨Fld.sleepDelay.id, 4, 0, [1000]⟩] } }, by decide +kernel⟩,
    ⟨wRun, by decide +kernel⟩,
    ⟨{ State.reset with sys := { Sys.reset with code := .sleep } }, .encA, by decide +kernel⟩,
    ⟨wRun, .encA, by decide +kernel⟩⟩

/-- The hypotheses of HoldSleepAndWake can be met, part 2. -/
theorem witness_HoldSleepAndWake_2 :
    (∃ (s : State) (found : List (Fin 72 × Nat × Ecc)), s.sys.code = .sleep ∧ s.sys.waking = true ∧ s.sys.refclk = true ∧ supRuns s = true ∧ s.sec.resetting = false ∧ wakeSectionsOk s = true) ∧
    (∃ (s : State) (found : List (Fin 72 × Nat × Ecc)), s.sys.code = .sleep ∧ s.sys.waking = true ∧ s.sys.refclk = true ∧ supRuns s = true ∧ s.sec.resetting = false ∧ wakeSectionsOk s = false) ∧
    (∃ (s : State) (found : List (Fin 72 × Nat × Ecc)), (s.sys.code ≠ .sleep ∨ s.sys.waking = false ∨ s.sys.refclk = false ∨ supRuns s = false ∨ s.sec.resetting = true)) :=
  ⟨⟨WWAKE, [], by decide +kernel⟩,
    ⟨{ State.reset with sys := { Sys.reset with code := .sleep, waking := true } }, [], by decide +kernel⟩,
    ⟨wRun, [], by decide +kernel⟩⟩

/-- The hypotheses of BothInputsAtOnceCountNoEdge can be met. -/
theorem witness_BothInputsAtOnceCountNoEdge :
    ∃ (s : State) (samples : Nat), filterAccepts samples s = true ∧ isMaster s = true :=
  ⟨WMASTER, 4, by decide +kernel⟩

/-- The hypotheses of EncoderEdgesFeedTheAccumulator can be met, part 1. -/
theorem witness_EncoderEdgesFeedTheAccumulator_1 :
    (∃ (s : State) (e : EncInput) (samples : Nat), filterAccepts samples s = false) ∧
    (∃ (s : State) (e : EncInput) (samples : Nat), filterAccepts samples s = true ∧ isMaster s = false) ∧
    (∃ (s : State) (e : EncInput) (samples : Nat) (a b : Bool), filterAccepts samples s = true ∧ isMaster s = true ∧ e ≠ .both ∧ (a = (if e = .b then s.lt.encA else !s.lt.encA)) ∧ (b = (if e = .a then s.lt.encB else !s.lt.encB)) ∧ forward (s.img.on Fld.encDir []) (decide (e = .a)) a b = false) ∧
    (∃ (s : State) (e : EncInput) (samples : Nat) (a b : Bool), filterAccepts samples s = true ∧ isMaster s = true ∧ e ≠ .both ∧ (a = (if e = .b then s.lt.encA else !s.lt.encA)) ∧ (b = (if e = .a then s.lt.encB else !s.lt.encB)) ∧ forward (s.img.on Fld.encDir []) (decide (e = .a)) a b = true ∧ 0 < s.lt.deficit) ∧
    (∃ (s : State) (e : EncInput) (samples : Nat) (a b : Bool), filterAccepts samples s = true ∧ isMaster s = true ∧ e ≠ .both ∧ (a = (if e = .b then s.lt.encA else !s.lt.encA)) ∧ (b = (if e = .a then s.lt.encB else !s.lt.encB)) ∧ forward (s.img.on Fld.encDir []) (decide (e = .a)) a b = true ∧ s.lt.deficit = 0 ∧ s.lt.acc + 2 ^ 20 < s.img.nat Fld.encRatio []) ∧
    (∃ (s : State) (e : EncInput) (samples n : Nat) (a b : Bool), filterAccepts samples s = true ∧ isMaster s = true ∧ e ≠ .both ∧ (a = (if e = .b then s.lt.encA else !s.lt.encA)) ∧ (b = (if e = .a then s.lt.encB else !s.lt.encB)) ∧ forward (s.img.on Fld.encDir []) (decide (e = .a)) a b = true ∧ s.lt.deficit = 0 ∧ s.img.nat Fld.encRatio [] ≤ s.lt.acc + 2 ^ 20 ∧ s.lt.request = some n) :=
  ⟨⟨State.reset, .a, 0, by decide +kernel⟩,
    ⟨{ WMASTER with star := Star.reset }, .both, 4, by decide +kernel⟩,
    ⟨{ WMASTER with lt := { Lt.reset with encB := true } }, .a, 4, true, true, by decide +kernel⟩,
    ⟨{ WMASTER with lt := { Lt.reset with deficit := 1 } }, .a, 4, true, false, by decide +kernel⟩,
    ⟨{ WMASTER with lt := { Lt.reset with encA := true, encB := false } }, .b, 4, true, true, by decide +kernel⟩,
    ⟨{ WMASTER with lt := { Lt.reset with acc := 2097152, request := some 0 } }, .a, 4, 0, true, false, by decide +kernel⟩⟩

/-- The hypotheses of EncoderEdgesFeedTheAccumulator can be met, part 2. -/
theorem witness_EncoderEdgesFeedTheAccumulator_2 :
    (∃ (s : State) (e : EncInput) (samples : Nat) (a b : Bool), filterAccepts samples s = true ∧ isMaster s = true ∧ e ≠ .both ∧ (a = (if e = .b then s.lt.encA else !s.lt.encA)) ∧ (b = (if e = .a then s.lt.encB else !s.lt.encB)) ∧ forward (s.img.on Fld.encDir []) (decide (e = .a)) a b = true ∧ s.lt.deficit = 0 ∧ s.img.nat Fld.encRatio [] ≤ s.lt.acc + 2 ^ 20 ∧ s.lt.request = none ∧ (∀ t, s.lt.lastTrig = some t → t + s.img.nat Fld.tlMin [] ≤ s.now + 2)) ∧
    (∃ (s : State) (e : EncInput) (samples t : Nat) (a b : Bool), filterAccepts samples s = true ∧ isMaster s = true ∧ e ≠ .both ∧ (a = (if e = .b then s.lt.encA else !s.lt.encA)) ∧ (b = (if e = .a then s.lt.encB else !s.lt.encB)) ∧ forward (s.img.on Fld.encDir []) (decide (e = .a)) a b = true ∧ s.lt.deficit = 0 ∧ s.img.nat Fld.encRatio [] ≤ s.lt.acc + 2 ^ 20 ∧ s.lt.request = none ∧ s.lt.lastTrig = some t ∧ s.now + 2 < t + s.img.nat Fld.tlMin []) ∧
    (∃ (s : State) (samples : Nat), filterAccepts samples s = true ∧ (s.lt.encZ = true ∨ s.img.on Fld.enczEn [] = false ∨ isMaster s = false)) ∧
    (∃ (s : State) (samples : Nat), filterAccepts samples s = true ∧ isMaster s = true ∧ s.lt.encZ = false ∧ s.img.on Fld.enczEn [] = true ∧ s.lt.enczMark = false) ∧
    (∃ (s : State) (samples : Nat), filterAccepts samples s = true ∧ isMaster s = true ∧ s.lt.encZ = false ∧ s.img.on Fld.enczEn [] = true ∧ s.lt.enczMark = true) :=
  ⟨⟨{ WMASTER with lt := { Lt.reset with acc := 2097152 } }, .a, 4, true, false, by decide +kernel⟩,
    ⟨{ WMASTER with img := wImg [wItem Fld.encRatio [] 0x300000, wItem Fld.tlMin [] 2000], lt := { Lt.reset with acc := 2097152, lastTrig := some 0 } }, .a, 4, 0, true, false, by decide +kernel⟩,
    ⟨{ WMASTER with lt := { Lt.reset with encZ := true } }, 4, by decide +kernel⟩,
    ⟨WMASTER, 4, by decide +kernel⟩,
    ⟨{ WMASTER with lt := { Lt.reset with enczMark := true } }, 4, by decide +kernel⟩⟩

/-- The hypotheses of TriggersBeginTheirLines can be met, part 1. -/
theorem witness_TriggersBeginTheirLines_1 :
    (∃ (s : State) (n : Nat), isMaster s = true ∧ ltRuns s = true ∧ s.lt.drain = false ∧ s.lt.ticks = [] ∧ s.lt.request = some n ∧ s.lt.clampDefer = false ∧ s.lt.drainDefer = false) ∧
    (∃ (s : State) (n : Nat), isMaster s = true ∧ ltRuns s = true ∧ s.lt.drain = false ∧ s.lt.ticks = [] ∧ s.lt.request = some n ∧ (s.lt.clampDefer = true ∨ s.lt.drainDefer = true)) ∧
    (∃ (s : State) (k : TickInfo) (rest : List TickInfo), live s = true ∧ ltRuns s = true ∧ s.lt.drain = false ∧ s.lt.ticks = k :: rest) ∧
    (∃ (s : State), (live s = false ∨ ltRuns s = false ∨ s.lt.drain = true ∨ (s.lt.ticks = [] ∧ s.lt.request = none) ∨ (s.lt.ticks = [] ∧ isMaster s = false))) ∧
    (∃ (s : State), s.lt.ticks = [] ∧ (s.lt.clampDefer = true ∨ s.lt.drainDefer = true)) ∧
    (∃ (s : State), s.lt.ticks = [] ∧ s.lt.clampDefer = false ∧ s.lt.drainDefer = false) :=
  ⟨⟨{ WMASTER with lt := { Lt.reset with request := some 0 } }, 0, by decide +kernel⟩,
    ⟨{ WMASTER with lt := { Lt.reset with request := some 300, clampDefer := true } }, 300, by decide +kernel⟩,
    ⟨{ State.reset with sys := { Sys.reset with code := .hold, spllLocked := true }, lt := { Lt.reset with ticks := [⟨7, true, false, 2, 1, 0⟩] } }, ⟨7, true, false, 2, 1, 0⟩, [], by decide +kernel⟩,
    ⟨wRun, by decide +kernel⟩,
    ⟨{ WMASTER with lt := { Lt.reset with request := some 300, clampDefer := true } }, by decide +kernel⟩,
    ⟨{ WMASTER with lt := { Lt.reset with request := some 300 } }, by decide +kernel⟩⟩

/-- The hypotheses of TriggersBeginTheirLines can be met, part 2. -/
theorem witness_TriggersBeginTheirLines_2 :
    (∃ (s : State), live s = true ∧ ltRuns s = true ∧ s.lt.lastTrig ≠ none ∧ s.lt.stopped = false) ∧
    (∃ (s : State), (live s = false ∨ ltRuns s = false ∨ s.lt.lastTrig = none ∨ s.lt.stopped = true)) ∧
    (∃ (s : State), s.lt.drain = true ∧ ltRuns s = true) ∧
    (∃ (s : State), (s.lt.drain = false ∨ ltRuns s = false)) :=
  ⟨⟨{ wRun with lt := { Lt.reset with lastTrig := some 0 } }, by decide +kernel⟩,
    ⟨wRun, by decide +kernel⟩,
    ⟨{ wRun with lt := { Lt.reset with drain := true } }, by decide +kernel⟩,
    ⟨wRun, by decide +kernel⟩⟩

/-- The hypotheses of StrobesAndGatesOfALine can be met, part 1. -/
theorem witness_StrobesAndGatesOfALine_1 :
    (∃ (s : State) (k : Fin 4), slotDue k s = true ∧ s.lt.pulsed.getLsbD k = false) ∧
    (∃ (s : State) (k : Fin 4), (slotDue k s = false ∨ s.lt.pulsed.getLsbD k = true)) ∧
    (∃ (s : State) (k : Fin 4), slotDue k s = true) ∧
    (∃ (s : State) (k : Fin 4), slotDue k s = false) ∧
    (∃ (s : State) (k : Fin 4) (rows : List (Fin 32)), s.lt.gates.getLsbD k = true ∧ ltRuns s = true) ∧
    (∃ (s : State) (k : Fin 4), s.lt.gates.getLsbD k = true ∧ ltRuns s = true) :=
  ⟨⟨WSLOT, 0, by decide +kernel⟩,
    ⟨{ WSLOT with lt := { WSLOT.lt with pulsed := 1 } }, 0, by decide +kernel⟩,
    ⟨WSLOT, 0, by decide +kernel⟩,
    ⟨WSLOT, 3, by decide +kernel⟩,
    ⟨{ WSLOT with lt := { WSLOT.lt with gates := 1 } }, 0, [], by decide +kernel⟩,
    ⟨{ WSLOT with lt := { WSLOT.lt with gates := 1 } }, 0, by decide +kernel⟩⟩

/-- The hypotheses of StrobesAndGatesOfALine can be met, part 2. -/
theorem witness_StrobesAndGatesOfALine_2 :
    (∃ (s : State) (k : Fin 4) (r : Fin 32), s.lt.gates.getLsbD k = true ∧ ltRuns s = true ∧ s.pix.badRows.contains (32 * k.val + r.val) = false ∧ r.val < s.pix.stages[k]) ∧
    (∃ (s : State) (k : Fin 4) (r : Fin 32), s.lt.gates.getLsbD k = true ∧ ltRuns s = true ∧ s.pix.badRows.contains (32 * k.val + r.val) = false ∧ s.pix.stages[k] ≤ r.val) ∧
    (∃ (s : State) (k : Fin 4) (rows : List (Fin 32)), (s.lt.gates.getLsbD k = false ∨ ltRuns s = false)) :=
  ⟨⟨{ WSLOT with lt := { WSLOT.lt with gates := 1 }, pix := { Pix.reset with stages := Vector.replicate 4 32 } }, 0, 0, by decide +kernel⟩,
    ⟨{ WSLOT with lt := { WSLOT.lt with gates := 1 } }, 0, 31, by decide +kernel⟩,
    ⟨WSLOT, 0, [1], by decide +kernel⟩⟩

/-- The hypotheses of ConversionsReachTheLadle can be met, part 1. -/
theorem witness_ConversionsReachTheLadle_1 :
    (∃ (s : State) (k : Fin 4) (px shadow : List (BitVec 12)) (n : Nat), s.pix.closed[k] = some n ∧ clocked s = true ∧ reinitBusy .pixel s = false) ∧
    (∃ (s : State) (px shadow : List Nat), (∀ g : Fin 128, s.pix.subst[g].valid = false)) ∧
    (∃ (s : State) (k : Fin 4) (px shadow : List (BitVec 12)) (n : Nat), s.pix.closed[k] = some n ∧ clocked s = true ∧ reinitBusy .pixel s = true) ∧
    (∃ (s : State) (k : Fin 4) (px shadow : List (BitVec 12)), (s.pix.closed[k] = none ∨ clocked s = false)) ∧
    (∃ (s : State) (l : LineRec) (reg : List (Fin 4 × Ecc)), live s = true ∧ clocked s = true ∧ ladleDue s = some l) ∧
    (∃ (s : State) (l : LineRec) (k : Fin 4), live s = true ∧ clocked s = true ∧ ladleDue s = some l) :=
  ⟨⟨{ wRun with pix := { Pix.reset with closed := Vector.replicate 4 (some 5) } }, 3, [], [], 5, by decide +kernel⟩,
    ⟨wRun, [7], [8], by decide +kernel⟩,
    ⟨{ State.reset with sys := { Sys.reset with funcBusy := 8, spllLocked := true }, pix := { Pix.reset with closed := Vector.replicate 4 (some 5) } }, 0, [], [], 5, by decide +kernel⟩,
    ⟨wRun, 0, [], [], by decide +kernel⟩,
    ⟨{ WSLOT with spr := { Sprue.reset with lines := [{ LineRec.reset with exposed := true }] } }, { LineRec.reset with exposed := true }, [], by decide +kernel⟩,
    ⟨{ WSLOT with spr := { Sprue.reset with lines := [{ LineRec.reset with exposed := true }] } }, { LineRec.reset with exposed := true }, 1, by decide +kernel⟩⟩

/-- The hypotheses of ConversionsReachTheLadle can be met, part 2. -/
theorem witness_ConversionsReachTheLadle_2 :
    (∃ (s : State) (reg : List (Fin 4 × Ecc)), (live s = false ∨ clocked s = false ∨ ladleDue s = none)) ∧
    (∃ (s : State) (i : Fin 32), clocked s = true ∧ 64 ≤ s.pix.runL[i]) ∧
    (∃ (s : State) (i : Fin 32), clocked s = true ∧ 64 ≤ s.pix.runR[i]) ∧
    (∃ (s : State) (left : Bool) (i : Fin 32), (clocked s = false ∨ (if left then s.pix.runL[i] else s.pix.runR[i]) < 64)) ∧
    (∃ (s : State), s.img.on Fld.affEn [] = true ∧ clocked s = true) ∧
    (∃ (s : State), (s.img.on Fld.affEn [] = false ∨ clocked s = false)) :=
  ⟨⟨wRun, [], by decide +kernel⟩,
    ⟨{ wRun with pix := { Pix.reset with runL := Vector.replicate 32 64 } }, 31, by decide +kernel⟩,
    ⟨{ wRun with pix := { Pix.reset with runR := Vector.replicate 32 64 } }, 0, by decide +kernel⟩,
    ⟨wRun, true, 0, by decide +kernel⟩,
    ⟨{ wRun with img := { Image.reset with items := [⟨Fld.affEn.id, 1, 0, [1]⟩] } }, by decide +kernel⟩,
    ⟨wRun, by decide +kernel⟩⟩

/-- The hypotheses of ConversionsReachTheLadle can be met, part 3. -/
theorem witness_ConversionsReachTheLadle_3 :
    (∃ (s : State), clocked s = true) ∧
    (∃ (s : State), clocked s = false) :=
  ⟨⟨{ wRun with pix := { Pix.reset with aff := { Aff.reset with thawing := 5 } } }, by decide +kernel⟩,
    ⟨State.reset, by decide +kernel⟩⟩

/-- The hypotheses of IngressAndHistory can be met, part 1. -/
theorem witness_IngressAndHistory_1 :
    (∃ (s : State) (o : LadleLine) (rest : List LadleLine) (parity : List (Fin 72 × Nat × Bool)), (s.sys.code = .run ∨ s.sys.code = .hold) ∧ clocked s = true ∧ s.pix.ingress = o :: rest) ∧
    (∃ (s : State) (l : LineRec) (parity : List (Fin 72 × Nat × Bool)), (s.sys.code = .run ∨ s.sys.code = .hold) ∧ clocked s = true ∧ s.pix.ingress = [] ∧ ladleDue s = some l ∧ l.ingressed = false) ∧
    (∃ (s : State) (o : LadleLine) (rest : List LadleLine) (p : Fin 72) (i : Nat), (s.sys.code = .run ∨ s.sys.code = .hold) ∧ clocked s = true ∧ s.pix.ingress = o :: rest) ∧
    (∃ (s : State) (parity : List (Fin 72 × Nat × Bool)), ((s.sys.code ≠ .run ∧ s.sys.code ≠ .hold) ∨ clocked s = false ∨ (s.pix.ingress = [] ∧ ladleDue s = none))) ∧
    (∃ (s : State) (parity : List (Fin 72 × Nat × Bool)) (l : LineRec), s.pix.ingress = [] ∧ ladleDue s = some l ∧ l.ingressed = true) ∧
    (∃ (s : State) (p : Fin 72) (w : IngWord) (rest : List IngWord), s.fab.perch[p].wren.ingQ = w :: rest) :=
  ⟨⟨{ wRun with pix := { Pix.reset with ingress := [⟨3, [], 0, 0⟩] } }, ⟨3, [], 0, 0⟩, [], [], by decide +kernel⟩,
    ⟨{ wRun with spr := { Sprue.reset with lines := [{ LineRec.reset with exposed := true }] } }, { LineRec.reset with exposed := true }, [], by decide +kernel⟩,
    ⟨{ wRun with pix := { Pix.reset with ingress := [⟨3, [], 0, 0⟩] } }, ⟨3, [], 0, 0⟩, [], 5, 2, by decide +kernel⟩,
    ⟨wRun, [], by decide +kernel⟩,
    ⟨{ wRun with spr := { Sprue.reset with lines := [{ LineRec.reset with exposed := true, ingressed := true }] } }, [], { LineRec.reset with exposed := true, ingressed := true }, by decide +kernel⟩,
    ⟨wfab (fun x => { x with wren := { x.wren with ingQ := [⟨16, [⟨5, false⟩]⟩] } }), 0, ⟨16, [⟨5, false⟩]⟩, [], by decide +kernel⟩⟩

/-- The hypotheses of IngressAndHistory can be met, part 2. -/
theorem witness_IngressAndHistory_2 :
    (∃ (s : State) (p : Fin 72) (a : Nat) (d : WWord) (rest : List IngWord), s.fab.perch[p].wren.ingQ = ⟨a, [d]⟩ :: rest ∧ CanonicalWren s p ∧ a < 49152) ∧
    (∃ (s : State) (p : Fin 72), s.fab.perch[p].wren.ingQ = []) ∧
    (∃ (s : State) (corrected : Nat) (bad : List (Fin 256)), (s.sys.code = .run ∨ s.sys.code = .repair) ∧ clocked s = true) ∧
    (∃ (s : State) (corrected : Nat) (bad : List (Fin 256)), ((s.sys.code ≠ .run ∧ s.sys.code ≠ .repair) ∨ clocked s = false)) :=
  ⟨⟨wfab (fun x => { x with wren := { x.wren with ingQ := [⟨16, [⟨5, false⟩]⟩] } }), 0, 16, ⟨5, false⟩, [], by decide +kernel⟩,
    ⟨wRun, 3, by decide +kernel⟩,
    ⟨wRun, 2, [255], by decide +kernel⟩,
    ⟨State.reset, 2, [255], by decide +kernel⟩⟩

/-- The hypotheses of FloorMonitorCountsWindows can be met. -/
theorem witness_FloorMonitorCountsWindows :
    (∃ (s : State) (p : Fin 72) (cycles : Nat), s.fab.perch[p].powered = true ∧ inState [.commit, .run, .hold, .repair] s = true ∧ 105000 ≤ cycles) ∧
    (∃ (s : State) (p : Fin 72) (cycles : Nat), s.fab.perch[p].powered = true ∧ inState [.commit, .run, .hold, .repair] s = true ∧ cycles < 105000 ∧ s.fab.perch[p].belowRun < 9) ∧
    (∃ (s : State) (p : Fin 72) (cycles : Nat), s.fab.perch[p].powered = true ∧ inState [.commit, .run, .hold, .repair] s = true ∧ cycles < 105000 ∧ s.fab.perch[p].belowRun = 9) ∧
    (∃ (s : State) (p : Fin 72) (cycles : Nat), s.fab.perch[p].powered = true ∧ inState [.commit, .run, .hold, .repair] s = true ∧ cycles < 105000 ∧ 10 ≤ s.fab.perch[p].belowRun) ∧
    (∃ (s : State) (p : Fin 72) (cycles : Nat), (s.fab.perch[p].powered = false ∨ inState [.commit, .run, .hold, .repair] s = false)) :=
  ⟨⟨WFAB, 0, 105000, by decide +kernel⟩,
    ⟨WFAB, 0, 104999, by decide +kernel⟩,
    ⟨wfab (fun x => { x with belowRun := 9 }), 0, 104999, by decide +kernel⟩,
    ⟨wfab (fun x => { x with belowRun := 10 }), 0, 0, by decide +kernel⟩,
    ⟨wRun, 0, 0, by decide +kernel⟩⟩

/-- The hypotheses of ColumnMapFindsTheActivePerches can be met. -/
theorem witness_ColumnMapFindsTheActivePerches :
    (∃ (s : State) (c : Nat), s.fab.bypass = none) ∧
    (∃ (s : State) (b c : Nat), s.fab.bypass = some b) ∧
    (∃ (s : State) (b : Nat) (p : Fin 72), s.fab.bypass = some b ∧ p.val % 9 = b) :=
  ⟨⟨State.reset, 7, by decide +kernel⟩,
    ⟨{ State.reset with fab := { Fab.reset with bypass := some 0 } }, 0, 0, by decide +kernel⟩,
    ⟨{ State.reset with fab := { Fab.reset with bypass := some 8 } }, 8, 71, by decide +kernel⟩⟩

/-- The hypotheses of BeatsMouldsAndSnapshots can be met, part 1. -/
theorem witness_BeatsMouldsAndSnapshots_1 :
    (∃ (s : State) (p : Fin 72) (l : LineRec) (late : Nat) (slip : Bool), beatDue s p = some l ∧ beatsRun s p = true ∧ s.fab.perch[p].wren.ingQ = [] ∧ (finchOf s p).blocked = false) ∧
    (∃ (s : State) (p : Fin 72) (l : LineRec) (late : Nat) (slip : Bool), beatDue s p = some l ∧ beatsRun s p = true ∧ s.fab.perch[p].wren.ingQ = [] ∧ (finchOf s p).blocked = true ∧ (finchOf s p).held = none) ∧
    (∃ (s : State) (p : Fin 72) (l : LineRec) (late n : Nat) (slip : Bool), beatDue s p = some l ∧ beatsRun s p = true ∧ s.fab.perch[p].wren.ingQ = [] ∧ (finchOf s p).blocked = true ∧ (finchOf s p).held = some n ∧ laterDue s p n = true) ∧
    (∃ (s : State) (p : Fin 72) (late : Nat) (slip : Bool), (beatDue s p = none ∨ beatsRun s p = false ∨ s.fab.perch[p].wren.ingQ ≠ [])) ∧
    (∃ (s : State) (p : Fin 72) (late n : Nat) (slip : Bool), (finchOf s p).blocked = true ∧ (finchOf s p).held = some n ∧ laterDue s p n = false) ∧
    (∃ (s : State) (p : Fin 72), beatsRun s p = true ∧ s.fab.perch[p].failed = false ∧ ((finchOf s p).twoHeld = true ∨ 17 ≤ (finchOf s p).lagBeats)) :=
  ⟨⟨wbeat Stall.reset false, 0, { LineRec.reset with exposed := true, ingressed := true }, 0, false, by decide +kernel⟩,
    ⟨wbeat Stall.reset true, 0, { LineRec.reset with exposed := true, ingressed := true }, 0, false, by decide +kernel⟩,
    ⟨wHeldBeat, 0, { LineRec.reset with exposed := true, ingressed := true }, 0, 0, false, by decide +kernel⟩,
    ⟨WFAB, 0, 0, false, by decide +kernel⟩,
    ⟨wfab (fun x => { x with finch := { x.finch with stalled := true, held := some 3 } }), 0, 0, 3, false, by decide +kernel⟩,
    ⟨wfab (fun x => { x with finch := { x.finch with lagBeats := 17 } }), 0, by decide +kernel⟩⟩

/-- The hypotheses of BeatsMouldsAndSnapshots can be met, part 2. -/
theorem witness_BeatsMouldsAndSnapshots_2 :
    (∃ (s : State) (p : Fin 72), (beatsRun s p = false ∨ s.fab.perch[p].failed = true ∨ ((finchOf s p).twoHeld = false ∧ (finchOf s p).lagBeats < 17))) ∧
    (∃ (s : State) (p : Fin 72) (ex : Bool), issues s p = true ∧ (finchOf s p).mould + 1 < foldOf s p) ∧
    (∃ (s : State) (p : Fin 72) (ex : Bool), (issues s p = false ∨ foldOf s p ≤ (finchOf s p).mould + 1)) ∧
    (∃ (s : State) (p : Fin 72) (j : Nat), issues s p = true ∧ titheOn s p = true ∧ (finchOf s p).snapCount < (snapSlices s p).length ∧ j = (snapSlices s p).getD (finchOf s p).snapCount 0 ∧ beforeSlice s p j = true) ∧
    (∃ (s : State) (p : Fin 72), (issues s p = false ∨ titheOn s p = false ∨ (snapSlices s p).length ≤ (finchOf s p).snapCount)) ∧
    (∃ (s : State) (p : Fin 72), beforeSlice s p ((snapSlices s p).getD (finchOf s p).snapCount 0) = false) :=
  ⟨⟨wfab (fun x => { x with finch := { x.finch with lagBeats := 16 } }), 0, by decide +kernel⟩,
    ⟨WFAB, 0, true, by decide +kernel⟩,
    ⟨wRun, 0, true, by decide +kernel⟩,
    ⟨WFAB, 0, 0, by decide +kernel⟩,
    ⟨wRun, 0, by decide +kernel⟩,
    ⟨{ WFAB with fab := { WFAB.fab with perch := WFAB.fab.perch.map fun x => { x with iss := { x.iss with slots := [4] } } } }, 0, by decide +kernel⟩⟩

/-- The hypotheses of CheckTitheAndSpare can be met, part 1. -/
theorem witness_CheckTitheAndSpare_1 :
    (∃ (s u : State) (p : Fin 72) (own re arb a b c : BitVec 32) (j : Nat) (ecc eccArb : List Ecc), issues s p = true ∧ (finchOf s p).titheDone = false ∧ titheOn s p = true ∧ foldOf s p ≤ (finchOf s p).mould + 1 ∧ ((finchOf s p).arb = none ∧ (finchOf s p).serves = false ∧ j = sliceOf s p) ∧ titheSigs p j (own, re, arb) ecc eccArb s = (some (a, b, c), u) ∧ a = b) ∧
    (∃ (s u : State) (p : Fin 72) (own re arb a b c : BitVec 32) (j : Nat) (ecc eccArb : List Ecc), issues s p = true ∧ (finchOf s p).titheDone = false ∧ titheOn s p = true ∧ foldOf s p ≤ (finchOf s p).mould + 1 ∧ ((finchOf s p).arb = none ∧ (finchOf s p).serves = false ∧ j = sliceOf s p) ∧ titheSigs p j (own, re, arb) ecc eccArb s = (some (a, b, c), u) ∧ b ≠ a) ∧
    (∃ (s u : State) (p : Fin 72) (own re arb a b c : BitVec 32) (j : Nat) (ecc eccArb : List Ecc), issues s p = true ∧ (finchOf s p).titheDone = false ∧ titheOn s p = true ∧ foldOf s p ≤ (finchOf s p).mould + 1 ∧ (finchOf s p).arb = some j ∧ titheSigs p j (own, re, arb) ecc eccArb s = (some (a, b, c), u) ∧ a = b ∧ b = c) ∧
    (∃ (s u : State) (p : Fin 72) (own re arb a b c : BitVec 32) (j : Nat) (ecc eccArb : List Ecc), issues s p = true ∧ (finchOf s p).titheDone = false ∧ titheOn s p = true ∧ foldOf s p ≤ (finchOf s p).mould + 1 ∧ (finchOf s p).arb = some j ∧ titheSigs p j (own, re, arb) ecc eccArb s = (some (a, b, c), u) ∧ b = c ∧ a ≠ b) ∧
    (∃ (s u : State) (p : Fin 72) (own re arb a b c : BitVec 32) (j : Nat) (ecc eccArb : List Ecc), issues s p = true ∧ (finchOf s p).titheDone = false ∧ titheOn s p = true ∧ foldOf s p ≤ (finchOf s p).mould + 1 ∧ (finchOf s p).arb = some j ∧ titheSigs p j (own, re, arb) ecc eccArb s = (some (a, b, c), u) ∧ a = c ∧ a ≠ b) ∧
    (∃ (s u : State) (p : Fin 72) (own re arb a b c : BitVec 32) (j : Nat) (ecc eccArb : List Ecc), issues s p = true ∧ (finchOf s p).titheDone = false ∧ titheOn s p = true ∧ foldOf s p ≤ (finchOf s p).mould + 1 ∧ (finchOf s p).arb = some j ∧ titheSigs p j (own, re, arb) ecc eccArb s = (some (a, b, c), u) ∧ a = b ∧ b ≠ c) :=
  ⟨⟨wTithe none, (titheSigs 0 0 (0, 0, 0) [] [] (wTithe none)).2, 0, 0, 0, 0, 0, 0, 0, 0, [], [], by decide +kernel, by decide +kernel, by decide +kernel, by decide +kernel, by decide +kernel, Prod.ext (by decide +kernel) rfl, by decide +kernel⟩,
    ⟨wTithe none, (titheSigs 0 0 (0, 3, 0) [] [] (wTithe none)).2, 0, 0, 3, 0, 0, 3, 0, 0, [], [], by decide +kernel, by decide +kernel, by decide +kernel, by decide +kernel, by decide +kernel, Prod.ext (by decide +kernel) rfl, by decide +kernel⟩,
    ⟨wTithe (some 0), (titheSigs 0 0 (0, 0, 0) [] [] (wTithe (some 0))).2, 0, 0, 0, 0, 0, 0, 0, 0, [], [], by decide +kernel, by decide +kernel, by decide +kernel, by decide +kernel, by decide +kernel, Prod.ext (by decide +kernel) rfl, by decide +kernel, by decide +kernel⟩,
    ⟨wTithe (some 0), (titheSigs 0 0 (9, 0, 0) [] [] (wTithe (some 0))).2, 0, 9, 0, 0, 9, 0, 0, 0, [], [], by decide +kernel, by decide +kernel, by decide +kernel, by decide +kernel, by decide +kernel, Prod.ext (by decide +kernel) rfl, by decide +kernel, by decide +kernel⟩,
    ⟨wTithe (some 0), (titheSigs 0 0 (0, 9, 0) [] [] (wTithe (some 0))).2, 0, 0, 9, 0, 0, 9, 0, 0, [], [], by decide +kernel, by decide +kernel, by decide +kernel, by decide +kernel, by decide +kernel, Prod.ext (by decide +kernel) rfl, by decide +kernel, by decide +kernel⟩,
    ⟨wTithe (some 0), (titheSigs 0 0 (0, 0, 9) [] [] (wTithe (some 0))).2, 0, 0, 0, 9, 0, 0, 9, 0, [], [], by decide +kernel, by decide +kernel, by decide +kernel, by decide +kernel, by decide +kernel, Prod.ext (by decide +kernel) rfl, by decide +kernel, by decide +kernel⟩⟩

/-- The hypotheses of CheckTitheAndSpare can be met, part 2. -/
theorem witness_CheckTitheAndSpare_2 :
    (∃ (s u : State) (p : Fin 72) (own re arb a b c : BitVec 32) (j : Nat) (ecc eccArb : List Ecc), issues s p = true ∧ (finchOf s p).titheDone = false ∧ titheOn s p = true ∧ foldOf s p ≤ (finchOf s p).mould + 1 ∧ (finchOf s p).arb = some j ∧ titheSigs p j (own, re, arb) ecc eccArb s = (some (a, b, c), u) ∧ a ≠ b ∧ b ≠ c ∧ a ≠ c) ∧
    (∃ (s u : State) (p : Fin 72) (own re arb : BitVec 32) (j : Nat) (ecc eccArb : List Ecc), issues s p = true ∧ (finchOf s p).titheDone = false ∧ titheOn s p = true ∧ foldOf s p ≤ (finchOf s p).mould + 1 ∧ ((finchOf s p).serves = false ∨ (finchOf s p).arb ≠ none) ∧ j = (finchOf s p).arb.getD (sliceOf s p) ∧ titheSigs p j (own, re, arb) ecc eccArb s = (none, u)) ∧
    (∃ (s : State) (p : Fin 72) (own re arb : BitVec 32) (ecc eccArb : List Ecc), issues s p = true ∧ (finchOf s p).titheDone = false ∧ titheOn s p = true ∧ foldOf s p ≤ (finchOf s p).mould + 1 ∧ ((finchOf s p).serves = false ∨ (finchOf s p).arb ≠ none)) ∧
    (∃ (s : State) (p : Fin 72) (j : Nat) (masks : BitVec 32 × BitVec 32 × BitVec 32) (ecc eccArb : List Ecc), lastBeat s p = none) ∧
    (∃ (s : State) (p : Fin 72) (own re arb : BitVec 32) (store : Ecc) (ecc eccArb : List Ecc), issues s p = true ∧ (finchOf s p).titheDone = false ∧ titheOn s p = true ∧ foldOf s p ≤ (finchOf s p).mould + 1 ∧ (finchOf s p).serves = true ∧ (finchOf s p).arb = none) ∧
    (∃ (s : State) (p : Fin 72) (own re arb : BitVec 32) (store : Ecc) (ecc eccArb : List Ecc), (issues s p = false ∨ (finchOf s p).titheDone = true ∨ titheOn s p = false ∨ (finchOf s p).mould + 1 < foldOf s p)) :=
  ⟨⟨wTithe (some 0), (titheSigs 0 0 (0, 5, 9) [] [] (wTithe (some 0))).2, 0, 0, 5, 9, 0, 5, 9, 0, [], [], by decide +kernel, by decide +kernel, by decide +kernel, by decide +kernel, by decide +kernel, Prod.ext (by decide +kernel) rfl, by decide +kernel, by decide +kernel, by decide +kernel⟩,
    ⟨wfab (fun x => { x with finch := { x.finch with mould := 1, titheDone := false } }), (titheSigs 0 0 (0, 0, 0) [] [] (wfab (fun x => { x with finch := { x.finch with mould := 1, titheDone := false } }))).2, 0, 0, 0, 0, 0, [], [], by decide +kernel, by decide +kernel, by decide +kernel, by decide +kernel, by decide +kernel, by decide +kernel, Prod.ext (by decide +kernel) rfl⟩,
    ⟨wTithe none, 0, 0, 0, 0, [], [], by decide +kernel⟩,
    ⟨WFAB, 0, 0, (0, 0, 0), [], [], by decide +kernel⟩,
    ⟨wfab (fun x => { x with finch := { x.finch with mould := 1, titheDone := false, serves := true } }), 0, 0, 0, 0, .clean, [], [], by decide +kernel⟩,
    ⟨wRun, 0, 0, 0, 0, .clean, [], [], by decide +kernel⟩⟩

/-- The hypotheses of CheckTitheAndSpare can be met, part 3. -/
theorem witness_CheckTitheAndSpare_3 :
    (∃ (s : State), s.fab.bypass = none ∧ inState [.boot, .commit, .run, .repair] s = true) ∧
    (∃ (s : State) (r : Fin 8), s.fab.bypass = none ∧ inState [.boot, .commit, .run, .repair] s = true ∧ s.fab.repair = none) ∧
    (∃ (s : State) (r : Fin 8) (x : Repair), s.fab.bypass = none ∧ inState [.boot, .commit, .run, .repair] s = true ∧ s.fab.repair = some x ∧ x.loaded = false) ∧
    (∃ (s : State) (failed : List (Fin 8)), (s.fab.bypass ≠ none ∨ inState [.boot, .commit, .run, .repair] s = false)) :=
  ⟨⟨WFAB, by decide +kernel⟩,
    ⟨WFAB, 7, by decide +kernel⟩,
    ⟨{ WFAB with fab := { WFAB.fab with repair := some Repair.reset } }, 7, Repair.reset, by decide +kernel⟩,
    ⟨{ WFAB with fab := { WFAB.fab with bypass := some 3 } }, [1], by decide +kernel⟩⟩

/-- The hypotheses of ColumnRepairFollowsItsSteps can be met, part 1. -/
theorem witness_ColumnRepairFollowsItsSteps_1 :
    (∃ (s : State) (n : Nat) (rest : List Nat), s.fab.findings = n :: rest ∧ (s.sys.code = .run ∨ s.sys.code = .hold) ∧ supRuns s = true ∧ s.fab.repair = none) ∧
    (∃ (s : State), (s.fab.findings = [] ∨ (s.sys.code ≠ .run ∧ s.sys.code ≠ .hold) ∨ supRuns s = false ∨ s.fab.repair ≠ none)) ∧
    (∃ (s t : State) (r : Repair) (flashOk : Bool), s.fab.repair = some r ∧ s.sys.code = .repair ∧ supRuns s = true ∧ r.tested = true ∧ r.aborted = false ∧ r.loaded = false ∧ (t = countRetention ((spares s).foldl (fun t p => loadWren s.img s.boot.slot p t) s)) ∧ (flashOk = false ∨ rowSumsOk s = false ∨ ((spares s).all fun p => retentionOk s.img p (onWCnt (fun c => { c with reloading := anyRewriting s }) t)) = false)) ∧
    (∃ (s t : State) (r : Repair), s.fab.repair = some r ∧ s.sys.code = .repair ∧ supRuns s = true ∧ r.tested = true ∧ r.aborted = false ∧ r.loaded = false ∧ (t = countRetention ((spares s).foldl (fun t p => loadWren s.img s.boot.slot p t) s)) ∧ rowSumsOk s = true ∧ (((spares s).all fun p => retentionOk s.img p (onWCnt (fun c => { c with reloading := anyRewriting s }) t)) = true)) ∧
    (∃ (s : State) (flashOk : Bool), (s.fab.repair = none ∨ s.sys.code ≠ .repair ∨ supRuns s = false)) ∧
    (∃ (s : State) (r : Repair) (flashOk : Bool), s.fab.repair = some r ∧ (r.tested = false ∨ r.aborted = true ∨ r.loaded = true)) :=
  ⟨⟨{ WFAB with fab := { WFAB.fab with findings := [10] } }, 10, [], by decide +kernel⟩,
    ⟨wRun, by decide +kernel⟩,
    ⟨wRepair, countRetention ((spares wRepair).foldl (fun t p => loadWren wRepair.img wRepair.boot.slot p t) wRepair), { Repair.reset with tested := true }, false, by decide +kernel, by decide +kernel, by decide +kernel, by decide +kernel, by decide +kernel, by decide +kernel, rfl, by decide +kernel⟩,
    ⟨wRepair, countRetention ((spares wRepair).foldl (fun t p => loadWren wRepair.img wRepair.boot.slot p t) wRepair), { Repair.reset with tested := true }, by decide +kernel, by decide +kernel, by decide +kernel, by decide +kernel, by decide +kernel, by decide +kernel, rfl, by decide +kernel, by decide +kernel⟩,
    ⟨wRun, true, by decide +kernel⟩,
    ⟨{ State.reset with sys := { Sys.reset with code := .repair }, fab := { Fab.reset with repair := some Repair.reset } }, Repair.reset, true, by decide +kernel⟩⟩

/-- The hypotheses of ColumnRepairFollowsItsSteps can be met, part 2. -/
theorem witness_ColumnRepairFollowsItsSteps_2 :
    (∃ (s : State) (r : Repair), s.fab.repair = some r ∧ s.sys.code = .repair ∧ supRuns s = true ∧ r.loaded = true ∧ r.applied = false ∧ repairCommitted s = true) ∧
    (∃ (s : State) (r : Repair), s.fab.repair = some r ∧ (r.loaded = false ∨ r.applied = true ∨ repairCommitted s = false)) ∧
    (∃ (s : State) (r : Repair), s.fab.repair = some r ∧ s.sys.code = .repair ∧ supRuns s = true ∧ (r.applied = true ∨ r.aborted = true)) ∧
    (∃ (s : State) (r : Repair), s.fab.repair = some r ∧ r.applied = false ∧ r.aborted = false) :=
  ⟨⟨{ State.reset with sys := { Sys.reset with code := .repair }, fab := { Fab.reset with repair := some { Repair.reset with loaded := true } } }, { Repair.reset with loaded := true }, by decide +kernel⟩,
    ⟨{ State.reset with sys := { Sys.reset with code := .repair }, fab := { Fab.reset with repair := some Repair.reset } }, Repair.reset, by decide +kernel⟩,
    ⟨{ State.reset with sys := { Sys.reset with code := .repair }, fab := { Fab.reset with repair := some { Repair.reset with applied := true } } }, { Repair.reset with applied := true }, by decide +kernel⟩,
    ⟨{ State.reset with sys := { Sys.reset with code := .repair }, fab := { Fab.reset with repair := some Repair.reset } }, Repair.reset, by decide +kernel⟩⟩

/-- The hypotheses of MultiplyAccumulateFinchOps can be met. -/
theorem witness_MultiplyAccumulateFinchOps :
    (∃ (s : State) (p : Fin 72) (v : Fin 4) (g : PredSel) (f : Fmt) (acc : Fin 16) (x : VSrc), issues s p = true ∧ f ∈ macFormats ∧ predValue (opView s p (.mvm p v g f acc x)) g = true ∧ (qMode s p v = 0 ∨ qMode s p v = 2 ∨ (readVec (opView s p (.mvm p v g f acc x)) v f (f == .int4) x).poison = true ∨ (readVec (opView s p (.mvm p v g f acc x)) v f (f == .int4) x).lanes.any (notFinite f) = true ∨ (readVec (opView s p (.mvm p v g f acc x)) v f (f == .int4) x).lanes.all (belowTheta f (qTheta s p v)) = false)) ∧
    (∃ (s : State) (p : Fin 72) (v : Fin 4) (g : PredSel) (f : Fmt) (acc : Fin 16) (x : VSrc), issues s p = true ∧ f ∈ macFormats ∧ predValue (opView s p (.mvm p v g f acc x)) g = true ∧ qMode s p v = 1 ∧ (readVec (opView s p (.mvm p v g f acc x)) v f (f == .int4) x).poison = false ∧ (readVec (opView s p (.mvm p v g f acc x)) v f (f == .int4) x).lanes.any (notFinite f) = false ∧ (readVec (opView s p (.mvm p v g f acc x)) v f (f == .int4) x).lanes.all (belowTheta f (qTheta s p v)) = true) ∧
    (∃ (s : State) (p : Fin 72) (v : Fin 4) (g : PredSel) (f : Fmt) (a b : VSrc), issues s p = true ∧ f ∈ macFormats ∧ predValue (opView s p (.opa p v g f a b)) g = true) ∧
    (∃ (s : State) (p : Fin 72) (v : Fin 4) (g : PredSel) (f : Fmt) (acc : Fin 16) (a b : VSrc), issues s p = true ∧ f ∈ lmacFormats ∧ predValue (opView s p (.lmac p v g f acc a b)) g = true) ∧
    (∃ (f : Fmt) (trunc : Bool) (acc : BitVec 32) (xs : List (BitVec 32 × BitVec 32)), fmtInt f = true) :=
  ⟨⟨WFAB, 0, 0, .always, .int8, 0, .prev, by decide +kernel⟩,
    ⟨WQSKIP, 0, 0, .always, .int8, 0, .prev, by decide +kernel⟩,
    ⟨WFAB, 0, 3, .always, .bf16, .own, .acc 15, by decide +kernel⟩,
    ⟨WFAB, 0, 3, .always, .int16, 15, .own, .scalar 1, by decide +kernel⟩,
    ⟨.int4, true, 0, [], by decide +kernel⟩⟩

/-- The hypotheses of LaneArithmeticFinchOps can be met, part 1. -/
theorem witness_LaneArithmeticFinchOps_1 :
    (∃ (s : State) (p : Fin 72) (v : Fin 4) (g : PredSel) (f : Fmt) (a b : VSrc) (d : VDst), issues s p = true ∧ f ∈ arithFormats ∧ predValue (opView s p (.add p v g f a b d)) g = true) ∧
    (∃ (s : State) (p : Fin 72) (v : Fin 4) (g : PredSel) (f : Fmt) (a b : VSrc) (d : VDst), issues s p = true ∧ f ∈ arithFormats ∧ predValue (opView s p (.sub p v g f a b d)) g = true) ∧
    (∃ (s : State) (p : Fin 72) (v : Fin 4) (g : PredSel) (f : Fmt) (a b : VSrc) (d : VDst), issues s p = true ∧ f ∈ arithFormats ∧ predValue (opView s p (.mul p v g f a b d)) g = true) ∧
    (∃ (s : State) (p : Fin 72) (v : Fin 4) (g : PredSel) (f : Fmt) (a b : VSrc) (d : VDst), issues s p = true ∧ f ∈ orderFormats ∧ predValue (opView s p (.max p v g f a b d)) g = true) ∧
    (∃ (s : State) (p : Fin 72) (v : Fin 4) (g : PredSel) (f : Fmt) (a b : VSrc) (d : VDst), issues s p = true ∧ f ∈ orderFormats ∧ predValue (opView s p (.min p v g f a b d)) g = true) ∧
    (∃ (f : Fmt) (o : Int → Int → Int) (h : FVal → FVal → FVal) (a b : BitVec 32), fmtInt f = true) :=
  ⟨⟨WFAB, 0, 1, .always, .int16, .prev, .own, .acc 2, by decide +kernel⟩,
    ⟨WFAB, 0, 1, .always, .int16, .prev, .own, .acc 2, by decide +kernel⟩,
    ⟨WFAB, 0, 1, .always, .int16, .prev, .own, .acc 2, by decide +kernel⟩,
    ⟨WFAB, 0, 1, .always, .int16, .prev, .own, .acc 2, by decide +kernel⟩,
    ⟨WFAB, 0, 1, .always, .int16, .prev, .own, .acc 2, by decide +kernel⟩,
    ⟨.int32, (· + ·), fadd, 0x7FFFFFFF, 1, by decide +kernel⟩⟩

/-- The hypotheses of LaneArithmeticFinchOps can be met, part 2. -/
theorem witness_LaneArithmeticFinchOps_2 :
    (∃ (f : Fmt) (a b : BitVec 32), fmtInt f = true) ∧
    (∃ (a b : BitVec 32), laneCmp .bf16 a b = some .gt) :=
  ⟨⟨.int8, 0x80, 0x7F, by decide +kernel⟩,
    ⟨0x3F80, 0xBF80, by decide +kernel⟩⟩

/-- The hypotheses of RequantiseTableAndReduceFinchOps can be met. -/
theorem witness_RequantiseTableAndReduceFinchOps :
    (∃ (s : State) (p : Fin 72) (v : Fin 4) (g : PredSel) (f : Fmt) (acc : Fin 16) (d : Fin 8), issues s p = true ∧ f ∈ rqFormats ∧ predValue (opView s p (.rq p v g f acc d)) g = true ∧ fmtInt f = true) ∧
    (∃ (s : State) (p : Fin 72) (v : Fin 4) (g : PredSel) (f : Fmt) (acc : Fin 16) (d : Fin 8), issues s p = true ∧ f ∈ rqFormats ∧ predValue (opView s p (.rq p v g f acc d)) g = true ∧ fmtInt f = false) ∧
    (∃ (s : State) (p : Fin 72) (v : Fin 4) (g : PredSel) (wide : Bool) (x : VSrc), issues s p = true ∧ predValue (opView s p (.lut p v g wide x)) g = true) ∧
    (∃ (s : State) (p : Fin 72) (v : Fin 4) (g : PredSel) (f : Fmt) (mx : Bool) (x : VSrc) (d : VDst), issues s p = true ∧ (f = .int32 ∨ f = .fp32) ∧ predValue (opView s p (.red p v g f mx x d)) g = true) :=
  ⟨⟨WFAB, 0, 0, .always, .int8, 0, 7, by decide +kernel⟩,
    ⟨WFAB, 0, 0, .always, .e4m3, 0, 7, by decide +kernel⟩,
    ⟨WFAB, 0, 0, .always, true, .prev, by decide +kernel⟩,
    ⟨WFAB, 0, 0, .always, .fp32, true, .own, .out, by decide +kernel⟩⟩

/-- The hypotheses of MaskAndMoveFinchOps can be met, part 1. -/
theorem witness_MaskAndMoveFinchOps_1 :
    (∃ (s : State) (p : Fin 72) (v : Fin 4) (g : PredSel) (f : Fmt) (op : CmpOp) (a b : VSrc) (m : Fin 8), issues s p = true ∧ f ∈ orderFormats ∧ predValue (opView s p (.cmp p v g f op a b m)) g = true) ∧
    (∃ (s : State) (p : Fin 72) (v : Fin 4) (g : PredSel) (a b d : Fin 8), issues s p = true ∧ predValue (opView s p (.plog p v g (.and a b d))) g = true) ∧
    (∃ (s : State) (p : Fin 72) (v : Fin 4) (g : PredSel) (a b d : Fin 8), issues s p = true ∧ predValue (opView s p (.plog p v g (.or a b d))) g = true) ∧
    (∃ (s : State) (p : Fin 72) (v : Fin 4) (g : PredSel) (a d : Fin 8), issues s p = true ∧ predValue (opView s p (.plog p v g (.not a d))) g = true) ∧
    (∃ (s : State) (p : Fin 72) (v : Fin 4) (g : PredSel) (a d : Fin 8), issues s p = true ∧ predValue (opView s p (.plog p v g (.any a d))) g = true) ∧
    (∃ (s : State) (p : Fin 72) (v : Fin 4) (g : PredSel) (a d : Fin 8), issues s p = true ∧ predValue (opView s p (.plog p v g (.all a d))) g = true) :=
  ⟨⟨WFAB, 0, 0, .always, .int8, .le, .prev, .own, 7, by decide +kernel⟩,
    ⟨WFAB, 0, 0, .always, 0, 0, 0, by decide +kernel⟩,
    ⟨WFAB, 0, 0, .always, 0, 0, 0, by decide +kernel⟩,
    ⟨WFAB, 0, 0, .always, 0, 0, by decide +kernel⟩,
    ⟨WFAB, 0, 0, .always, 0, 7, by decide +kernel⟩,
    ⟨WFAB, 0, 0, .always, 0, 7, by decide +kernel⟩⟩

/-- The hypotheses of MaskAndMoveFinchOps can be met, part 2. -/
theorem witness_MaskAndMoveFinchOps_2 :
    (∃ (s : State) (p : Fin 72) (v : Fin 4) (g : PredSel) (f : Fmt) (m : Fin 8) (a b : VSrc) (d : VDst), issues s p = true ∧ predValue (opView s p (.sel p v g m a b d f)) g = true) ∧
    (∃ (s : State) (p : Fin 72) (v : Fin 4) (g : PredSel) (f : Fmt) (k : Fin 16) (x : VSrc) (d : VDst), issues s p = true ∧ predValue (opView s p (.shf p v g k x d f)) g = true) ∧
    (∃ (s : State) (p : Fin 72) (v : Fin 4) (g : PredSel) (accs : BitVec 16), issues s p = true ∧ predValue (opView s p (.aclr p v g accs)) g = true) ∧
    (∃ (s : State) (p : Fin 72) (v : Fin 4) (g : PredSel) (src dst : Fin 16), issues s p = true ∧ predValue (opView s p (.amov p v g src dst)) g = true) :=
  ⟨⟨WFAB, 0, 0, .always, .int8, 0, .prev, .own, .out, by decide +kernel⟩,
    ⟨WFAB, 0, 0, .always, .int4, 15, .prev, .acc 0, by decide +kernel⟩,
    ⟨WFAB, 0, 0, .always, 0x8001, by decide +kernel⟩,
    ⟨WFAB, 0, 0, .always, 3, 3, by decide +kernel⟩⟩

/-- The hypotheses of StageOpsUnderAFalsePredicate can be met, part 1. -/
theorem witness_StageOpsUnderAFalsePredicate_1 :
    (∃ (s : State) (p : Fin 72) (v : Fin 4) (g : PredSel) (f : Fmt) (acc : Fin 16) (x : VSrc), predValue (opView s p (.mvm p v g f acc x)) g = false) ∧
    (∃ (s : State) (p : Fin 72) (v : Fin 4) (g : PredSel) (f : Fmt) (a b : VSrc), predValue (opView s p (.opa p v g f a b)) g = false) ∧
    (∃ (s : State) (p : Fin 72) (v : Fin 4) (g : PredSel) (f : Fmt) (acc : Fin 16) (a b : VSrc), predValue (opView s p (.lmac p v g f acc a b)) g = false) ∧
    (∃ (s : State) (p : Fin 72) (v : Fin 4) (g : PredSel) (f : Fmt) (a b : VSrc) (d : VDst), predValue (opView s p (.add p v g f a b d)) g = false) ∧
    (∃ (s : State) (p : Fin 72) (v : Fin 4) (g : PredSel) (f : Fmt) (a b : VSrc) (d : VDst), predValue (opView s p (.sub p v g f a b d)) g = false) ∧
    (∃ (s : State) (p : Fin 72) (v : Fin 4) (g : PredSel) (f : Fmt) (a b : VSrc) (d : VDst), predValue (opView s p (.mul p v g f a b d)) g = false) :=
  ⟨⟨WFAB, 0, 0, .p 0, .int8, 0, .prev, by decide +kernel⟩,
    ⟨WFAB, 0, 0, .p 0, .int8, .prev, .prev, by decide +kernel⟩,
    ⟨WFAB, 0, 0, .p 0, .int8, 0, .prev, .prev, by decide +kernel⟩,
    ⟨WFAB, 0, 0, .p 0, .int16, .prev, .prev, .out, by decide +kernel⟩,
    ⟨WFAB, 0, 0, .p 0, .int16, .prev, .prev, .out, by decide +kernel⟩,
    ⟨WFAB, 0, 0, .p 0, .int16, .prev, .prev, .out, by decide +kernel⟩⟩

/-- The hypotheses of StageOpsUnderAFalsePredicate can be met, part 2. -/
theorem witness_StageOpsUnderAFalsePredicate_2 :
    (∃ (s : State) (p : Fin 72) (v : Fin 4) (g : PredSel) (f : Fmt) (a b : VSrc) (d : VDst), predValue (opView s p (.max p v g f a b d)) g = false) ∧
    (∃ (s : State) (p : Fin 72) (v : Fin 4) (g : PredSel) (f : Fmt) (a b : VSrc) (d : VDst), predValue (opView s p (.min p v g f a b d)) g = false) ∧
    (∃ (s : State) (p : Fin 72) (v : Fin 4) (g : PredSel) (f : Fmt) (acc : Fin 16) (d : Fin 8), predValue (opView s p (.rq p v g f acc d)) g = false) ∧
    (∃ (s : State) (p : Fin 72) (v : Fin 4) (g : PredSel) (w : Bool) (x : VSrc), predValue (opView s p (.lut p v g w x)) g = false) ∧
    (∃ (s : State) (p : Fin 72) (v : Fin 4) (g : PredSel) (f : Fmt) (o : CmpOp) (a b : VSrc) (m : Fin 8), predValue (opView s p (.cmp p v g f o a b m)) g = false) ∧
    (∃ (s : State) (p : Fin 72) (v : Fin 4) (g : PredSel) (o : PlogOp), predValue (opView s p (.plog p v g o)) g = false) :=
  ⟨⟨WFAB, 0, 0, .p 0, .int16, .prev, .prev, .out, by decide +kernel⟩,
    ⟨WFAB, 0, 0, .p 0, .int16, .prev, .prev, .out, by decide +kernel⟩,
    ⟨WFAB, 0, 0, .p 0, .int8, 0, 0, by decide +kernel⟩,
    ⟨WFAB, 0, 0, .p 0, true, .prev, by decide +kernel⟩,
    ⟨WFAB, 0, 0, .p 0, .int8, .eq, .prev, .prev, 0, by decide +kernel⟩,
    ⟨WFAB, 0, 0, .p 0, .all 0 0, by decide +kernel⟩⟩

/-- The hypotheses of StageOpsUnderAFalsePredicate can be met, part 3. -/
theorem witness_StageOpsUnderAFalsePredicate_3 :
    (∃ (s : State) (p : Fin 72) (v : Fin 4) (g : PredSel) (f : Fmt) (m : Fin 8) (a b : VSrc) (d : VDst), predValue (opView s p (.sel p v g m a b d f)) g = false) ∧
    (∃ (s : State) (p : Fin 72) (v : Fin 4) (g : PredSel) (f : Fmt) (k : Fin 16) (x : VSrc) (d : VDst), predValue (opView s p (.shf p v g k x d f)) g = false) ∧
    (∃ (s : State) (p : Fin 72) (v : Fin 4) (g : PredSel) (f : Fmt) (mx : Bool) (x : VSrc) (d : VDst), predValue (opView s p (.red p v g f mx x d)) g = false) ∧
    (∃ (s : State) (p : Fin 72) (v : Fin 4) (g : PredSel) (accs : BitVec 16), predValue (opView s p (.aclr p v g accs)) g = false) ∧
    (∃ (s : State) (p : Fin 72) (v : Fin 4) (g : PredSel) (a b : Fin 16), predValue (opView s p (.amov p v g a b)) g = false) ∧
    (∃ (s : State) (p : Fin 72) (c : Instr), StageOn p c ∧ issues s p = false) :=
  ⟨⟨WFAB, 0, 0, .p 0, .int8, 0, .prev, .prev, .out, by decide +kernel⟩,
    ⟨WFAB, 0, 0, .p 0, .int8, 0, .prev, .out, by decide +kernel⟩,
    ⟨WFAB, 0, 0, .p 0, .int32, true, .prev, .out, by decide +kernel⟩,
    ⟨WFAB, 0, 0, .p 0, 1, by decide +kernel⟩,
    ⟨WFAB, 0, 0, .p 0, 0, 1, by decide +kernel⟩,
    ⟨State.reset, 0, Instr.aclr 0 0 .always 1, by simp [StageOn], by decide +kernel⟩⟩

/-- The hypotheses of StageOpsStayInTheirFinch can be met. -/
theorem witness_StageOpsStayInTheirFinch :
    ∃ (c : Instr) (s t : State) (p : Fin 72), StageOn p c ∧ exec c s = .next t :=
  ⟨Instr.aclr 0 0 .always 1, State.reset, State.reset, 0, by simp [StageOn], rfl⟩

/-- The hypotheses of MemoryOpsReadAndWriteTheirUnits can be met, part 1. -/
theorem witness_MemoryOpsReadAndWriteTheirUnits_1 :
    (∃ (s u : State) (p : Fin 72) (g : PredSel) (ag : Fin 8) (ecc : List Ecc) (ws : List WWord), memIssues s p ag true = true ∧ readWords p (agWords s p ag (agCount s p ag)) ecc (beginOp p (.ldw p g ag ecc) s) = (ws, u)) ∧
    (∃ (s : State) (p : Fin 72) (g : PredSel) (ag : Fin 8), memIssues s p ag true = true ∧ predValue (opView s p (.ldw p g ag [])) g = true) ∧
    (∃ (s : State) (p : Fin 72) (g : PredSel) (ag : Fin 8), memIssues s p ag true = true ∧ predValue (opView s p (.ldw p g ag [])) g = false) ∧
    (∃ (s : State) (p : Fin 72) (g : PredSel) (ag : Fin 8), memIssues s p ag false = true ∧ predValue (opView s p (.ldn p g ag .clean)) g = true) ∧
    (∃ (s : State) (p : Fin 72) (g : PredSel) (ag : Fin 8), memIssues s p ag false = true ∧ predValue (opView s p (.ldn p g ag .clean)) g = false) ∧
    (∃ (s : State) (p : Fin 72) (g : PredSel) (ag : Fin 8), memIssues s p ag false = true ∧ predValue (opView s p (.ldn p g ag .corrected)) g = true ∧ (wordAt s p (agUnit s p ag (agCount s p ag))).poison = false) :=
  ⟨⟨WWIDE, (readWords 0 (agWords WWIDE 0 0 (agCount WWIDE 0 0)) [.corrected] (beginOp 0 (.ldw 0 .always 0 [.corrected]) WWIDE)).2, 0, .always, 0, [.corrected], (readWords 0 (agWords WWIDE 0 0 (agCount WWIDE 0 0)) [.corrected] (beginOp 0 (.ldw 0 .always 0 [.corrected]) WWIDE)).1, by decide +kernel, Prod.ext rfl rfl⟩,
    ⟨WWIDE, 0, .always, 0, by decide +kernel⟩,
    ⟨WWIDE, 0, .p 0, 0, by decide +kernel⟩,
    ⟨WFAB, 0, .always, 0, by decide +kernel⟩,
    ⟨WFAB, 0, .p 0, 0, by decide +kernel⟩,
    ⟨WFAB, 0, .always, 0, by decide +kernel⟩⟩

/-- The hypotheses of MemoryOpsReadAndWriteTheirUnits can be met, part 2. -/
theorem witness_MemoryOpsReadAndWriteTheirUnits_2 :
    (∃ (s : State) (p : Fin 72) (g : PredSel) (ag : Fin 8), memIssues s p ag false = true ∧ predValue (opView s p (.ldn p g ag .uncorrectable)) g = true) ∧
    (∃ (s u : State) (p : Fin 72) (v : Fin 4) (g : PredSel) (ag : Fin 8) (half : Bool) (ecc : List Ecc) (ws : List WWord), memIssues s p ag true = true ∧ readWords p (tileWords s p ag) ecc (beginOp p (.ldt p v g ag half ecc) s) = (ws, u)) ∧
    (∃ (s : State) (p : Fin 72) (v : Fin 4) (g : PredSel) (ag : Fin 8) (half : Bool), memIssues s p ag true = true ∧ predValue (opView s p (.ldt p v g ag half [])) g = true) ∧
    (∃ (s : State) (p : Fin 72) (g : PredSel) (ag : Fin 8) (src : StSrc) (ws : List WWord), CanonicalWren s p ∧ memIssues s p ag true = true ∧ storeData (opView s p (.stw p g ag src)) g src 16 = some ws ∧ (agWords s p ag (agCount s p ag)).all (storeAllowed s p) = true ∧ (∀ a ∈ (agWords s p ag (agCount s p ag)), a < 49152)) ∧
    (∃ (s : State) (p : Fin 72) (g : PredSel) (ag : Fin 8) (src : StSrc) (w : WWord), CanonicalWren s p ∧ memIssues s p ag false = true ∧ storeData (opView s p (.stn p g ag src)) g src 1 = some [w] ∧ storeAllowed s p (agUnit s p ag (agCount s p ag)) = true ∧ (agUnit s p ag (agCount s p ag)) < 49152) ∧
    (∃ (s : State) (p : Fin 72) (g : PredSel) (ag : Fin 8) (src : StSrc) (ws : List WWord), memIssues s p ag true = true ∧ storeData (opView s p (.stw p g ag src)) g src 16 = some ws ∧ (agWords s p ag (agCount s p ag)).all (storeAllowed s p) = false) :=
  ⟨⟨WFAB, 0, .always, 0, by decide +kernel⟩,
    ⟨WWIDE, (readWords 0 (tileWords WWIDE 0 0) [.corrected] (beginOp 0 (.ldt 0 0 .always 0 true [.corrected]) WWIDE)).2, 0, 0, .always, 0, true, [.corrected], (readWords 0 (tileWords WWIDE 0 0) [.corrected] (beginOp 0 (.ldt 0 0 .always 0 true [.corrected]) WWIDE)).1, by decide +kernel, Prod.ext rfl rfl⟩,
    ⟨WWIDE, 0, 0, .always, 0, true, by decide +kernel⟩,
    ⟨WWIDE, 0, .always, 0, .inp, List.replicate 16 ⟨0, false⟩, by decide +kernel⟩,
    ⟨WFAB, 0, .always, 0, .inp, ⟨0, false⟩, by decide +kernel⟩,
    ⟨wFabOf (wFabItems ++ [wItem Fld.agOrient [0, 0, 0] 1]), 0, .always, 0, .inp, List.replicate 16 ⟨0, false⟩, by decide +kernel⟩⟩

/-- The hypotheses of MemoryOpsReadAndWriteTheirUnits can be met, part 3. -/
theorem witness_MemoryOpsReadAndWriteTheirUnits_3 :
    (∃ (s : State) (p : Fin 72) (g : PredSel) (ag : Fin 8) (src : StSrc), memIssues s p ag true = true ∧ storeData (opView s p (.stw p g ag src)) g src 16 = none) ∧
    (∃ (s : State) (p : Fin 72) (g : PredSel) (ag : Fin 8) (src : StSrc) (ws : List WWord), memIssues s p ag false = true ∧ storeData (opView s p (.stn p g ag src)) g src 1 = some ws ∧ (agWords s p ag (agCount s p ag)).all (storeAllowed s p) = false) ∧
    (∃ (s : State) (p : Fin 72) (g : PredSel) (ag : Fin 8) (src : StSrc), memIssues s p ag false = true ∧ storeData (opView s p (.stn p g ag src)) g src 1 = none) ∧
    (∃ (fi : Finch) (g : PredSel) (src : StSrc) (n : Nat), predValue fi g = false) ∧
    (∃ (s : State) (p : Fin 72) (v : Fin 4) (g : PredSel) (ag : Fin 8) (src : StSrc) (ecc : List Ecc) (half : Bool), memIssues s p ag true = false) ∧
    (∃ (s : State) (p : Fin 72) (g : PredSel) (ag : Fin 8) (src : StSrc) (e : Ecc), memIssues s p ag false = false) :=
  ⟨⟨WWIDE, 0, .p 0, 0, .inp, by decide +kernel⟩,
    ⟨WNORGN, 0, .always, 0, .inp, List.replicate 1 ⟨0, false⟩, by decide +kernel⟩,
    ⟨WFAB, 0, .p 0, 0, .inp, by decide +kernel⟩,
    ⟨Finch.reset, .p 7, .inp, 16, by decide +kernel⟩,
    ⟨WFAB, 0, 0, .always, 0, .inp, [], true, by decide +kernel⟩,
    ⟨WWIDE, 0, .always, 0, .inp, .clean, by decide +kernel⟩⟩

/-- The hypotheses of NeighbourWritesArriveAndCount can be met, part 1. -/
theorem witness_NeighbourWritesArriveAndCount_1 :
    (∃ (s : State) (p o : Fin 72) (g : PredSel) (dir : Dir) (or : Orient) (u : Nat) (ac : Fin 16) (src : StSrc), issues s p = true ∧ neighbour s p dir = some o) ∧
    (∃ (s : State) (p : Fin 72) (g : PredSel) (dir : Dir) (or : Orient) (u : Nat) (ac : Fin 16) (src : StSrc), (issues s p = false ∨ neighbour s p dir = none)) ∧
    (∃ (s : State) (p o : Fin 72) (dir : Dir) (q : NbReq) (rest : List NbReq), neighbour s p dir = some o ∧ o ≠ p ∧ s.fab.perch[p].run.putOut[dirIx dir] = q :: rest ∧ s.fab.perch[o].wren.portQ[dirIx (opposite dir)].length < 4) ∧
    (∃ (s : State) (p o : Fin 72) (dir : Dir) (q : NbReq) (rest : List NbReq) (parity : Option Bool), neighbour s p dir = some o ∧ s.fab.perch[p].run.putOut[dirIx dir] = q :: rest ∧ 4 ≤ s.fab.perch[o].wren.portQ[dirIx (opposite dir)].length) ∧
    (∃ (s : State) (p : Fin 72) (dir : Dir) (parity : Option Bool), (neighbour s p dir = none ∨ s.fab.perch[p].run.putOut[dirIx dir] = [])) ∧
    (∃ (s : State) (p : Fin 72) (port : Dir) (q : NbReq) (rest : List NbReq), s.fab.perch[p].wren.portQ[dirIx port] = q :: rest ∧ s.sys.code = .run ∧ q.beat = (finchOf s p).beat % 32 ∧ outranked s p (dirIx port) q = false) :=
  ⟨⟨WFAB, 0, 1, .always, .e, .row, 5, 3, .inp, by decide +kernel⟩,
    ⟨wRun, 0, .always, .e, .row, 5, 3, .inp, by decide +kernel⟩,
    ⟨wfab (fun x => { x with run := { x.run with putOut := Vector.replicate 4 [NbReq.reset] } }), 0, 1, .e, NbReq.reset, [], by decide +kernel⟩,
    ⟨wfab (fun x => { x with run := { x.run with putOut := Vector.replicate 4 [NbReq.reset] }, wren := { x.wren with portQ := Vector.replicate 4 (List.replicate 4 NbReq.reset) } }), 0, 1, .e, NbReq.reset, [], none, by decide +kernel⟩,
    ⟨wRun, 0, .e, none, by decide +kernel⟩,
    ⟨{ WFAB with fab := { WFAB.fab with perch := WFAB.fab.perch.map fun x => { x with wren := { x.wren with portQ := (Vector.replicate 4 []).set 1 [NbReq.reset] } } } }, 0, .e, NbReq.reset, [], by decide +kernel⟩⟩

/-- The hypotheses of NeighbourWritesArriveAndCount can be met, part 2. -/
theorem witness_NeighbourWritesArriveAndCount_2 :
    (∃ (s : State) (p : Fin 72) (port : Dir) (q : NbReq) (rest : List NbReq), s.fab.perch[p].wren.portQ[dirIx port] = q :: rest ∧ s.sys.code = .run ∧ q.beat = (finchOf s p).beat % 32 ∧ outranked s p (dirIx port) q = false) ∧
    (∃ (s : State) (p : Fin 72) (port : Dir) (q : NbReq) (rest : List NbReq), s.fab.perch[p].wren.portQ[dirIx port] = q :: rest ∧ s.sys.code = .run ∧ q.beat = (finchOf s p).beat % 32 ∧ outranked s p (dirIx port) q = false) ∧
    (∃ (s : State) (p : Fin 72) (port : Dir) (q : NbReq) (rest : List NbReq) (ecc : Ecc), s.fab.perch[p].wren.portQ[dirIx port] = q :: rest ∧ s.sys.code = .run ∧ q.beat ≠ (finchOf s p).beat % 32 ∧ q.held = false) ∧
    (∃ (s : State) (p : Fin 72) (port : Dir) (q : NbReq) (rest : List NbReq) (ecc : Ecc), s.fab.perch[p].wren.portQ[dirIx port] = q :: rest ∧ (s.sys.code ≠ .run ∨ (q.beat ≠ (finchOf s p).beat % 32 ∧ q.held = true) ∨ outranked s p (dirIx port) q = true) ∧ (q.beat ≠ (finchOf s p).beat % 32 → q.held = true)) ∧
    (∃ (s : State) (p : Fin 72) (port : Dir) (other : Fin 4) (q x : NbReq) (rest : List NbReq) (ecc : Ecc), s.fab.perch[p].wren.portQ[dirIx port] = q :: rest ∧ q.beat = (finchOf s p).beat % 32 ∧ q.addr.length = 1 ∧ other ≠ dirIx port ∧ readyHead s p other = some x ∧ x.addr.length ≠ 1) ∧
    (∃ (s : State) (p : Fin 72) (port : Dir) (ecc : Ecc), s.fab.perch[p].wren.portQ[dirIx port] = []) :=
  ⟨⟨{ WFAB with fab := { WFAB.fab with perch := WFAB.fab.perch.map fun x => { x with wren := { x.wren with portQ := (Vector.replicate 4 []).set 1 [NbReq.reset] } } } }, 0, .e, NbReq.reset, [], by decide +kernel⟩,
    ⟨{ WFAB with fab := { WFAB.fab with perch := WFAB.fab.perch.map fun x => { x with wren := { x.wren with portQ := (Vector.replicate 4 []).set 1 [NbReq.reset] } } } }, 0, .e, NbReq.reset, [], by decide +kernel⟩,
    ⟨wfab (fun x => { x with wren := { x.wren with portQ := Vector.replicate 4 [{ NbReq.reset with beat := 1 }] } }), 0, .e, { NbReq.reset with beat := 1 }, [], .clean, by decide +kernel⟩,
    ⟨{ wfab (fun x => { x with wren := { x.wren with portQ := Vector.replicate 4 [NbReq.reset] } }) with sys := { Sys.reset with code := .hold } }, 0, .e, NbReq.reset, [], .clean, by decide +kernel⟩,
    ⟨wfab (fun x => { x with wren := { x.wren with portQ := (Vector.replicate 4 [NbReq.reset]).set 1 [{ NbReq.reset with addr := [5] }] } }), 0, .e, 3, { NbReq.reset with addr := [5] }, NbReq.reset, [], .clean, by decide +kernel⟩,
    ⟨WFAB, 0, .e, .clean, by decide +kernel⟩⟩

/-- The hypotheses of NeighbourWritesArriveAndCount can be met, part 3. -/
theorem witness_NeighbourWritesArriveAndCount_3 :
    (∃ (s : State) (p : Fin 72) (q : NbReq) (rest : List NbReq) (k : Fin 16), s.fab.perch[p].wren.landing = q :: rest ∧ ((finchOf s p).stalled = false ∨ (finchOf s p).stall.kind ≠ .wait ∨ (vmod s.fab.perch[p].wren.ac k (· + 1))[Fin.ofNat 16 (finchOf s p).stall.chan] < (finchOf s p).stall.n) ∧ q.ac = k.val ∧ s.fab.perch[p].wren.ac[k] < 1048575 ∧ (q.void = true ∨ q.addr.all (nbwAllowed s p) = true)) ∧
    (∃ (s : State) (p : Fin 72) (q : NbReq) (rest : List NbReq) (a : Nat) (w : WWord), CanonicalWren s p ∧ s.fab.perch[p].wren.landing = q :: rest ∧ q.void = false ∧ q.addr = [a] ∧ q.data = [w] ∧ nbwAllowed s p a = true ∧ a < 49152) ∧
    (∃ (s : State) (p : Fin 72) (q : NbReq) (rest : List NbReq) (k : Fin 16), s.fab.perch[p].wren.landing = q :: rest ∧ ((finchOf s p).stalled = false ∨ (finchOf s p).stall.kind ≠ .wait ∨ (vmod s.fab.perch[p].wren.ac k (· + 1))[Fin.ofNat 16 (finchOf s p).stall.chan] < (finchOf s p).stall.n) ∧ q.ac = k.val ∧ s.fab.perch[p].wren.ac[k] < 1048575 ∧ q.void = false ∧ q.addr.all (nbwAllowed s p) = false) ∧
    (∃ (s : State) (p : Fin 72) (q : NbReq) (rest : List NbReq) (k : Fin 16), s.fab.perch[p].wren.landing = q :: rest ∧ (finchOf s p).stalled = false ∧ q.ac = k.val ∧ 1048575 ≤ s.fab.perch[p].wren.ac[k] ∧ q.void = true) ∧
    (∃ (s : State) (p : Fin 72) (q : NbReq) (rest : List NbReq) (k : Fin 16), s.fab.perch[p].wren.landing = q :: rest ∧ (finchOf s p).stalled = true ∧ (finchOf s p).stall.kind = .wait ∧ (finchOf s p).stall.chan = k.val ∧ (finchOf s p).stall.n ≤ s.fab.perch[p].wren.ac[k] + 1 ∧ q.ac = k.val ∧ s.fab.perch[p].wren.ac[k] < 1048575 ∧ q.void = true) ∧
    (∃ (s : State) (p : Fin 72), s.fab.perch[p].wren.landing = []) :=
  ⟨⟨wfab (fun x => { x with wren := { x.wren with landing := [{ NbReq.reset with void := true }] } }), 0, { NbReq.reset with void := true }, [], 0, by decide +kernel⟩,
    ⟨{ WFAB with fab := { WFAB.fab with perch := WFAB.fab.perch.map fun x => { x with wren := { x.wren with landing := [{ NbReq.reset with addr := [1], data := [⟨9, false⟩] }] } } } }, 0, { NbReq.reset with addr := [1], data := [⟨9, false⟩] }, [], 1, ⟨9, false⟩, by decide +kernel⟩,
    ⟨wfab (fun x => { x with wren := { x.wren with landing := [{ NbReq.reset with addr := [49151], data := [⟨9, false⟩] }] } }), 0, { NbReq.reset with addr := [49151], data := [⟨9, false⟩] }, [], 0, by decide +kernel⟩,
    ⟨wfab (fun x => { x with wren := { x.wren with ac := Vector.replicate 16 1048575, landing := [{ NbReq.reset with void := true }] } }), 0, { NbReq.reset with void := true }, [], 0, by decide +kernel⟩,
    ⟨wfab (fun x => { x with finch := { x.finch with stalled := true, stall := { Stall.reset with kind := .wait, n := 1 } }, wren := { x.wren with landing := [{ NbReq.reset with void := true }] } }), 0, { NbReq.reset with void := true }, [], 0, by decide +kernel⟩,
    ⟨WFAB, 0, by decide +kernel⟩⟩

/-- The hypotheses of WrenBackgroundWork can be met, part 1. -/
theorem witness_WrenBackgroundWork_1 :
    (∃ (s : State) (p : Fin 72) (a : Nat) (w : WWord) (rest : List (Nat × WWord)), CanonicalWren s p ∧ s.fab.perch[p].wren.wbQ = (a, w) :: rest ∧ a < 49152) ∧
    (∃ (s : State) (p : Fin 72), s.fab.perch[p].wren.wbQ = []) ∧
    (∃ (s : State) (p : Fin 72) (i : Fin 16) (k : Token), CanonicalWren s p ∧ nextUnwritten s p = some (i, k) ∧ s.fab.perch[p].run.backlog[i] = [(k, none)] ∧ (∀ j : Fin 16, j ≠ i → s.fab.perch[p].run.backlog[j] = []) ∧ 0 < riserEntries s p ∧ riserWord s p 0 + 1 < 49152) ∧
    (∃ (s : State) (p : Fin 72), spillWaits s p = true) ∧
    (∃ (s : State) (p : Fin 72) (rgn : Fin 16) (row : Nat) (r : Region), CanonicalWren s p ∧ (residents s.img (rowOf p)).find? (·.ix = rgn.val) = some r ∧ rewriting s p r.ix = true ∧ row < 16 * r.len ∧ 256 * r.base + 16 * row + 15 < 49152) ∧
    (∃ (s : State) (p : Fin 72) (row : Nat) (r : Region), CanonicalWren s p ∧ spillWaits s p = false ∧ loaderDue s p = some (r, row) ∧ 256 * r.base + 16 * row + 15 < 49152) :=
  ⟨⟨wfab (fun x => { x with wren := { x.wren with wbQ := [(49151, ⟨5, false⟩)] } }), 0, 49151, ⟨5, false⟩, [], by decide +kernel⟩,
    ⟨wRun, 0, by decide +kernel⟩,
    ⟨wRiser, 0, 4, ⟨7, 0, false, false, 1⟩, by decide +kernel⟩,
    ⟨wRiser, 0, by decide +kernel⟩,
    ⟨WRES, 0, 1, 15, ⟨1, 8, 1, 1, false⟩, by decide +kernel⟩,
    ⟨WRES, 0, 0, ⟨1, 8, 1, 1, false⟩, by decide +kernel⟩⟩

/-- The hypotheses of WrenBackgroundWork can be met, part 2. -/
theorem witness_WrenBackgroundWork_2 :
    (∃ (s : State) (p : Fin 72) (rgn : Fin 16) (row : Nat), ((residents s.img (rowOf p)).find? (·.ix = rgn.val) = none ∨ rewriting s p rgn.val = false)) ∧
    (∃ (s : State) (p : Fin 72) (rgn : Fin 16) (row : Nat) (r : Region), (residents s.img (rowOf p)).find? (·.ix = rgn.val) = some r ∧ 16 * r.len ≤ row) ∧
    (∃ (s : State) (p : Fin 72), live s = true ∧ s.fab.perch[p].powered = true ∧ s.fab.perch[p].wren.scrubRow < 3071) ∧
    (∃ (s : State) (p : Fin 72), live s = true ∧ s.fab.perch[p].powered = true ∧ 3071 ≤ s.fab.perch[p].wren.scrubRow) ∧
    (∃ (s : State) (p : Fin 72), live s = true ∧ s.fab.perch[p].powered = true ∧ (wordAt s p (16 * s.fab.perch[p].wren.scrubRow)).poison = false) ∧
    (∃ (s : State) (p : Fin 72), live s = true ∧ s.fab.perch[p].powered = true ∧ s.fab.perch[p].wren.scrubRow < 3072 ∧ CanonicalWren s p) :=
  ⟨⟨WFAB, 0, 1, 0, by decide +kernel⟩,
    ⟨WRES, 0, 1, 16, ⟨1, 8, 1, 1, false⟩, by decide +kernel⟩,
    ⟨wfab (fun x => { x with wren := { x.wren with scrubRow := 3070 } }), 0, by decide +kernel⟩,
    ⟨wfab (fun x => { x with wren := { x.wren with scrubRow := 3071 } }), 0, by decide +kernel⟩,
    ⟨wfab id, 0, by decide +kernel⟩,
    ⟨wfab id, 0, by decide +kernel⟩⟩

/-- The hypotheses of WrenBackgroundWork can be met, part 3. -/
theorem witness_WrenBackgroundWork_3 :
    (∃ (s : State) (p : Fin 72) (ecc : List Ecc), (live s = false ∨ s.fab.perch[p].powered = false)) ∧
    (∃ (s : State) (p : Fin 72) (j n : Nat) (rest : List (Nat × Nat)) (r : Region), s.fab.perch[p].wren.rewriting = (j, n) :: rest ∧ (residents s.img (rowOf p)).find? (·.ix = j) = some r ∧ regionOk s.img (loadRegion s.img s.boot.slot p r s) p r = true) ∧
    (∃ (s : State) (p : Fin 72) (j n : Nat) (rest : List (Nat × Nat)) (r : Region), s.fab.perch[p].wren.rewriting = (j, n) :: rest ∧ (residents s.img (rowOf p)).find? (·.ix = j) = some r ∧ regionOk s.img (loadRegion s.img s.boot.slot p r s) p r = false) ∧
    (∃ (s : State) (p : Fin 72) (j n : Nat) (rest : List (Nat × Nat)), s.fab.perch[p].wren.rewriting = (j, n) :: rest ∧ (residents s.img (rowOf p)).find? (·.ix = j) = none) ∧
    (∃ (s : State) (p : Fin 72), s.fab.perch[p].wren.rewriting = []) :=
  ⟨⟨wRun, 0, [.corrected], by decide +kernel⟩,
    ⟨WRES0, 0, 1, 0, [], ⟨1, 8, 0, 1, false⟩, by decide +kernel⟩,
    ⟨{ WRES0 with img := wImg [wItem Fld.rowmask [] 1, wItem Fld.rgnN [0] 2, wItem Fld.rgnBase [0, 1] 8, wItem Fld.rgnKind [0, 1] 1, wItem Fld.rgnCrc [0, 1] 1] }, 0, 1, 0, [], ⟨1, 8, 0, 1, false⟩, by decide +kernel⟩,
    ⟨wfab (fun x => { x with wren := { x.wren with rewriting := [(3, 0)] } }), 0, 3, 0, [], by decide +kernel⟩,
    ⟨WFAB, 0, by decide +kernel⟩⟩

/-- The hypotheses of RunnerOpsMoveTokens can be met, part 1. -/
theorem witness_RunnerOpsMoveTokens_1 :
    (∃ (s : State) (p q : Fin 72) (g : PredSel) (dir : Dir) (ch : Fin 4) (tag : BitVec 4) (src : StSrc), issues s p = true ∧ neighbour s p dir = some q ∧ chanKind s q (opposite dir) ch = 1 ∧ 0 < s.fab.perch[p].run.credit[chanIx dir ch]) ∧
    (∃ (s : State) (p q : Fin 72) (g : PredSel) (dir : Dir) (ch : Fin 4) (tag : BitVec 4) (src : StSrc), issues s p = true ∧ neighbour s p dir = some q ∧ chanKind s q (opposite dir) ch = 1 ∧ s.fab.perch[p].run.credit[chanIx dir ch] = 0) ∧
    (∃ (s : State) (p q : Fin 72) (g : PredSel) (dir : Dir) (ch : Fin 4) (tag : BitVec 4) (src : StSrc), issues s p = true ∧ neighbour s p dir = some q ∧ chanKind s q (opposite dir) ch = 2 ∧ predValue (opView s p (.send p g dir ch tag src)) g = true ∧ s.fab.perch[p].run.backlog[chanIx dir ch] = [] ∧ s.fab.perch[p].run.outBuf[dirIx dir].length < 16) ∧
    (∃ (s : State) (p q : Fin 72) (g : PredSel) (dir : Dir) (ch : Fin 4) (tag : BitVec 4) (src : StSrc), issues s p = true ∧ neighbour s p dir = some q ∧ chanKind s q (opposite dir) ch = 2 ∧ predValue (opView s p (.send p g dir ch tag src)) g = true ∧ (s.fab.perch[p].run.backlog[chanIx dir ch] ≠ [] ∨ 16 ≤ s.fab.perch[p].run.outBuf[dirIx dir].length) ∧ 0 < riserFree s p) ∧
    (∃ (s : State) (p q : Fin 72) (g : PredSel) (dir : Dir) (ch : Fin 4) (tag : BitVec 4) (src : StSrc), issues s p = true ∧ neighbour s p dir = some q ∧ chanKind s q (opposite dir) ch = 2 ∧ predValue (opView s p (.send p g dir ch tag src)) g = true ∧ (s.fab.perch[p].run.backlog[chanIx dir ch] ≠ [] ∨ 16 ≤ s.fab.perch[p].run.outBuf[dirIx dir].length) ∧ riserFree s p = 0) ∧
    (∃ (s : State) (p q : Fin 72) (g : PredSel) (dir : Dir) (ch : Fin 4) (tag : BitVec 4) (src : StSrc), issues s p = true ∧ neighbour s p dir = some q ∧ chanKind s q (opposite dir) ch = 2 ∧ predValue (opView s p (.send p g dir ch tag src)) g = false) :=
  ⟨⟨WCHAN, 0, 1, .always, .e, 0, 5, .inp, by decide +kernel⟩,
    ⟨WCHAN, 0, 1, .always, .e, 1, 5, .inp, by decide +kernel⟩,
    ⟨WCHAN, 0, 1, .always, .e, 2, 5, .inp, by decide +kernel⟩,
    ⟨wRiserCh, 0, 1, .always, .e, 0, 5, .inp, by decide +kernel⟩,
    ⟨wNoRiser, 0, 1, .always, .e, 2, 5, .inp, by decide +kernel⟩,
    ⟨WCHAN, 0, 1, .p 0, .e, 2, 5, .inp, by decide +kernel⟩⟩

/-- The hypotheses of RunnerOpsMoveTokens can be met, part 2. -/
theorem witness_RunnerOpsMoveTokens_2 :
    (∃ (s : State) (p : Fin 72) (g : PredSel) (dir : Dir) (ch : Fin 4) (tag : BitVec 4) (src : StSrc), (issues s p = false ∨ neighbour s p dir = none)) ∧
    (∃ (s : State) (p q : Fin 72) (g : PredSel) (dir : Dir) (ch : Fin 4) (tag : BitVec 4) (src : StSrc), neighbour s p dir = some q ∧ chanKind s q (opposite dir) ch ≠ 1 ∧ chanKind s q (opposite dir) ch ≠ 2) ∧
    (∃ (s : State) (p q : Fin 72) (g : PredSel) (link : Dir) (ch : Fin 4) (pd : Fin 8) (n : Nat) (k : Token) (rest : List (Nat × Token)), issues s p = true ∧ neighbour s p link = some q ∧ q ≠ p ∧ chanKind s p link ch = 1 ∧ predValue (opView s p (.recv p g link ch (some pd))) g = true ∧ s.fab.perch[p].run.rxQ[chanIx link ch] = (n, k) :: rest) ∧
    (∃ (s : State) (p q : Fin 72) (g : PredSel) (link : Dir) (ch : Fin 4) (n : Nat) (k : Token) (rest : List (Nat × Token)), issues s p = true ∧ neighbour s p link = some q ∧ q ≠ p ∧ chanKind s p link ch = 1 ∧ predValue (opView s p (.recv p g link ch none)) g = true ∧ s.fab.perch[p].run.rxQ[chanIx link ch] = (n, k) :: rest) ∧
    (∃ (s : State) (p q : Fin 72) (g : PredSel) (link : Dir) (ch : Fin 4) (pd : Fin 8) (n : Nat) (k : Token) (rest : List (Nat × Token)), issues s p = true ∧ neighbour s p link = some q ∧ q ≠ p ∧ chanKind s p link ch = 2 ∧ predValue (opView s p (.recv p g link ch (some pd))) g = true ∧ s.fab.perch[p].run.rxQ[chanIx link ch] = (n, k) :: rest) ∧
    (∃ (s : State) (p q : Fin 72) (g : PredSel) (link : Dir) (ch : Fin 4) (n : Nat) (k : Token) (rest : List (Nat × Token)), issues s p = true ∧ neighbour s p link = some q ∧ q ≠ p ∧ chanKind s p link ch = 2 ∧ predValue (opView s p (.recv p g link ch none)) g = true ∧ s.fab.perch[p].run.rxQ[chanIx link ch] = (n, k) :: rest) :=
  ⟨⟨wRun, 0, .always, .e, 2, 5, .inp, by decide +kernel⟩,
    ⟨WCHAN, 0, 1, .always, .e, 3, 5, .inp, by decide +kernel⟩,
    ⟨WCHAN, 1, 0, .always, .w, 0, 3, 0, ⟨7, 0, false, false, 1⟩, [], by decide +kernel⟩,
    ⟨WCHAN, 1, 0, .always, .w, 0, 0, ⟨7, 0, false, false, 1⟩, [], by decide +kernel⟩,
    ⟨wElastic, 1, 0, .always, .w, 2, 3, 0, ⟨7, 0, false, false, 1⟩, [], by decide +kernel⟩,
    ⟨wElastic, 1, 0, .always, .w, 2, 0, ⟨7, 0, false, false, 1⟩, [], by decide +kernel⟩⟩

/-- The hypotheses of RunnerOpsMoveTokens can be met, part 3. -/
theorem witness_RunnerOpsMoveTokens_3 :
    (∃ (s : State) (p q : Fin 72) (g : PredSel) (link : Dir) (ch : Fin 4) (pd : Option (Fin 8)) (n : Nat) (k : Token) (rest : List (Nat × Token)), issues s p = true ∧ neighbour s p link = some q ∧ q ≠ p ∧ chanKind s p link ch = 1 ∧ predValue (opView s p (.recv p g link ch pd)) g = false ∧ s.fab.perch[p].run.rxQ[chanIx link ch] = (n, k) :: rest) ∧
    (∃ (s : State) (p q : Fin 72) (g : PredSel) (link : Dir) (ch : Fin 4) (pd : Option (Fin 8)), issues s p = true ∧ neighbour s p link = some q ∧ chanKind s p link ch = 1 ∧ s.fab.perch[p].run.rxQ[chanIx link ch] = []) ∧
    (∃ (s : State) (p q : Fin 72) (g : PredSel) (link : Dir) (ch : Fin 4) (pd : Fin 8), issues s p = true ∧ neighbour s p link = some q ∧ chanKind s p link ch = 2 ∧ predValue (opView s p (.recv p g link ch (some pd))) g = true ∧ s.fab.perch[p].run.rxQ[chanIx link ch] = []) ∧
    (∃ (s : State) (p q : Fin 72) (g : PredSel) (link : Dir) (ch : Fin 4), issues s p = true ∧ neighbour s p link = some q ∧ chanKind s p link ch = 2 ∧ predValue (opView s p (.recv p g link ch none)) g = true ∧ s.fab.perch[p].run.rxQ[chanIx link ch] = []) ∧
    (∃ (s : State) (p q : Fin 72) (g : PredSel) (link : Dir) (ch : Fin 4) (pd : Option (Fin 8)), issues s p = true ∧ neighbour s p link = some q ∧ chanKind s p link ch = 2 ∧ predValue (opView s p (.recv p g link ch pd)) g = false) ∧
    (∃ (s : State) (p : Fin 72) (g : PredSel) (link : Dir) (ch : Fin 4) (pd : Option (Fin 8)), (issues s p = false ∨ neighbour s p link = none)) :=
  ⟨⟨WCHAN, 1, 0, .p 0, .w, 0, some 3, 0, ⟨7, 0, false, false, 1⟩, [], by decide +kernel⟩,
    ⟨WCHAN, 1, 0, .always, .w, 1, none, by decide +kernel⟩,
    ⟨WCHAN, 1, 0, .always, .w, 2, 0, by decide +kernel⟩,
    ⟨WCHAN, 1, 0, .always, .w, 2, by decide +kernel⟩,
    ⟨wElastic, 1, 0, .p 0, .w, 2, none, by decide +kernel⟩,
    ⟨wRun, 1, .always, .w, 2, none, by decide +kernel⟩⟩

/-- The hypotheses of RunnerOpsMoveTokens can be met, part 4. -/
theorem witness_RunnerOpsMoveTokens_4 :
    (∃ (s : State) (p : Fin 72) (g : PredSel) (link : Dir) (ch : Fin 4) (pd : Option (Fin 8)), chanKind s p link ch ≠ 1 ∧ chanKind s p link ch ≠ 2) ∧
    (∃ (s : State) (p : Fin 72) (g : PredSel) (tag : BitVec 4) (src : StSrc), issues s p = true ∧ s.fab.perch[p].run.egr.length < 96) ∧
    (∃ (s : State) (p : Fin 72) (g : PredSel) (tag : BitVec 4) (src : StSrc), (issues s p = false ∨ 96 ≤ s.fab.perch[p].run.egr.length)) ∧
    (∃ (s : State) (p : Fin 72) (k : Fin 16) (n : Nat), issues s p = true ∧ 1 ≤ n ∧ n ≤ 1048575 ∧ n ≤ s.fab.perch[p].wren.ac[k]) ∧
    (∃ (s : State) (p : Fin 72) (k : Fin 16) (n : Nat), issues s p = true ∧ 1 ≤ n ∧ n ≤ 1048575 ∧ s.fab.perch[p].wren.ac[k] < n) ∧
    (∃ (s : State) (p : Fin 72) (k : Fin 16) (n : Nat), (issues s p = false ∨ n = 0 ∨ 1048575 < n)) :=
  ⟨⟨WCHAN, 1, .always, .w, 3, none, by decide +kernel⟩,
    ⟨WFAB, 0, .always, 9, .v3 .int8, by decide +kernel⟩,
    ⟨wfab (fun x => { x with run := { x.run with egr := List.replicate 96 (0, ⟨1, 0, false, false, 0⟩) } }), 0, .always, 9, .v3 .int8, by decide +kernel⟩,
    ⟨wfab (fun x => { x with wren := { x.wren with ac := Vector.replicate 16 1048575 } }), 0, 15, 1048575, by decide +kernel⟩,
    ⟨WFAB, 0, 0, 1, by decide +kernel⟩,
    ⟨WFAB, 0, 0, 1048576, by decide +kernel⟩⟩

/-- The hypotheses of VoidTokensCarryTheTagAlone can be met. -/
theorem witness_VoidTokensCarryTheTagAlone :
    (∃ (fi : Finch) (g : PredSel) (ch : BitVec 2) (tag : BitVec 4) (src : StSrc), predValue fi g = false) ∧
    (∃ (s : State) (p : Fin 72) (g : PredSel) (tag : BitVec 4) (src : StSrc), issues s p = true ∧ s.fab.perch[p].run.egr.length < 96 ∧ predValue (opView s p (.egr p g tag src)) g = false) ∧
    (∃ (s : State) (p q : Fin 72) (g : PredSel) (dir : Dir) (ch : Fin 4) (tag : BitVec 4) (src : StSrc), issues s p = true ∧ neighbour s p dir = some q ∧ chanKind s q (opposite dir) ch = 1 ∧ 0 < s.fab.perch[p].run.credit[chanIx dir ch] ∧ predValue (opView s p (.send p g dir ch tag src)) g = false) :=
  ⟨⟨Finch.reset, .p 7, 3, 15, .inp, by decide +kernel⟩,
    ⟨WFAB, 0, .p 0, 9, .inp, by decide +kernel⟩,
    ⟨WCHAN, 0, 1, .p 0, .e, 0, 5, .inp, by decide +kernel⟩⟩

/-- The hypotheses of LinksCarryTokensAndCredits can be met, part 1. -/
theorem witness_LinksCarryTokensAndCredits_1 :
    (∃ (s : State) (p q : Fin 72) (dir : Dir) (k : Token) (rest : List Token), neighbour s p dir = some q ∧ s.fab.perch[p].run.onLink[dirIx dir] = none ∧ s.fab.perch[p].run.waitTx[dirIx dir] = k :: rest) ∧
    (∃ (s : State) (p q : Fin 72) (dir : Dir) (k : Token) (pre post : List Token), neighbour s p dir = some q ∧ s.fab.perch[p].run.onLink[dirIx dir] = none ∧ s.fab.perch[p].run.waitTx[dirIx dir] = [] ∧ s.fab.perch[p].run.outBuf[dirIx dir] = pre ++ k :: post ∧ (∀ x ∈ pre, s.fab.perch[p].run.credit[chanIx dir (tokenCh x)] = 0) ∧ 0 < s.fab.perch[p].run.credit[chanIx dir (tokenCh k)]) ∧
    (∃ (s : State) (p : Fin 72) (dir : Dir), (neighbour s p dir = none ∨ s.fab.perch[p].run.onLink[dirIx dir] ≠ none)) ∧
    (∃ (s : State) (p : Fin 72) (dir : Dir), s.fab.perch[p].run.waitTx[dirIx dir] = [] ∧ (∀ x ∈ s.fab.perch[p].run.outBuf[dirIx dir], s.fab.perch[p].run.credit[chanIx dir (tokenCh x)] = 0)) ∧
    (∃ (s : State) (p q : Fin 72) (dir : Dir) (k : Token), incoming s p dir = some (q, k, false) ∧ q ≠ p ∧ s.fab.perch[p].run.rxQ[chanIx dir (tokenCh k)].length < 16 ∧ (s.fab.perch[p].finch.stalled = false ∨ s.fab.perch[p].finch.stall.kind ≠ .recv ∨ s.fab.perch[p].finch.stall.chan ≠ (chanIx dir (tokenCh k)).val)) ∧
    (∃ (s : State) (p q : Fin 72) (dir : Dir) (k : Token), incoming s p dir = some (q, k, false) ∧ q ≠ p ∧ s.fab.perch[p].run.rxQ[chanIx dir (tokenCh k)] = [] ∧ s.fab.perch[p].finch.stalled = true ∧ s.fab.perch[p].finch.stall.kind = .recv ∧ s.fab.perch[p].finch.stall.chan = (chanIx dir (tokenCh k)).val) :=
  ⟨⟨wfab (fun x => { x with run := { x.run with waitTx := Vector.replicate 4 [⟨1, 0, false, false, 0⟩] } }), 0, 1, .e, ⟨1, 0, false, false, 0⟩, [], by decide +kernel⟩,
    ⟨wfab (fun x => { x with run := { x.run with outBuf := Vector.replicate 4 [⟨1, 1, false, false, 0⟩, ⟨1, 0, false, false, 0⟩], credit := (Vector.replicate 16 0).set 4 2 } }), 0, 1, .e, ⟨1, 0, false, false, 0⟩, [⟨1, 1, false, false, 0⟩], [], by decide +kernel⟩,
    ⟨WLINK false, 0, .e, by decide +kernel⟩,
    ⟨wfab (fun x => { x with run := { x.run with outBuf := Vector.replicate 4 [⟨1, 0, false, false, 0⟩], credit := Vector.replicate 16 0 } }), 0, .e, by decide +kernel⟩,
    ⟨WLINK false, 1, 0, .w, ⟨1, 0, false, false, 0⟩, by decide +kernel⟩,
    ⟨wStallRecv false, 1, 0, .w, ⟨1, 0, false, false, 0⟩, by decide +kernel⟩⟩

/-- The hypotheses of LinksCarryTokensAndCredits can be met, part 2. -/
theorem witness_LinksCarryTokensAndCredits_2 :
    (∃ (s : State) (p q : Fin 72) (dir : Dir) (k : Token), incoming s p dir = some (q, k, false) ∧ q ≠ p ∧ 16 ≤ s.fab.perch[p].run.rxQ[chanIx dir (tokenCh k)].length) ∧
    (∃ (s : State) (p q : Fin 72) (dir : Dir) (k : Token), incoming s p dir = some (q, k, true) ∧ q ≠ p ∧ s.fab.perch[p].run.rxQ[chanIx dir (tokenCh k)].length < 16 ∧ (s.fab.perch[p].finch.stalled = false ∨ s.fab.perch[p].finch.stall.kind ≠ .recv ∨ s.fab.perch[p].finch.stall.chan ≠ (chanIx dir (tokenCh k)).val)) ∧
    (∃ (s : State) (p q : Fin 72) (dir : Dir) (k : Token), incoming s p dir = some (q, k, true) ∧ q ≠ p ∧ s.fab.perch[p].run.rxQ[chanIx dir (tokenCh k)] = [] ∧ s.fab.perch[p].finch.stalled = true ∧ s.fab.perch[p].finch.stall.kind = .recv ∧ s.fab.perch[p].finch.stall.chan = (chanIx dir (tokenCh k)).val) ∧
    (∃ (s : State) (p q : Fin 72) (dir : Dir) (k : Token), incoming s p dir = some (q, k, true) ∧ q ≠ p ∧ 16 ≤ s.fab.perch[p].run.rxQ[chanIx dir (tokenCh k)].length) ∧
    (∃ (s : State) (p q : Fin 72) (dir : Dir) (k : Token), incoming s p dir = some (q, k, true) ∧ q ≠ p ∧ s.fab.perch[p].run.rxQ[chanIx dir (tokenCh k)].length < 16 ∧ (s.fab.perch[p].finch.stalled = false ∨ s.fab.perch[p].finch.stall.kind ≠ .recv ∨ s.fab.perch[p].finch.stall.chan ≠ (chanIx dir (tokenCh k)).val)) ∧
    (∃ (s : State) (p q : Fin 72) (dir : Dir) (k : Token), incoming s p dir = some (q, k, true) ∧ q ≠ p ∧ s.fab.perch[p].run.rxQ[chanIx dir (tokenCh k)] = [] ∧ s.fab.perch[p].finch.stalled = true ∧ s.fab.perch[p].finch.stall.kind = .recv ∧ s.fab.perch[p].finch.stall.chan = (chanIx dir (tokenCh k)).val) :=
  ⟨⟨wFullRecv false, 1, 0, .w, ⟨1, 0, false, false, 0⟩, by decide +kernel⟩,
    ⟨WLINK true, 1, 0, .w, ⟨1, 0, false, false, 0⟩, by decide +kernel⟩,
    ⟨wStallRecv true, 1, 0, .w, ⟨1, 0, false, false, 0⟩, by decide +kernel⟩,
    ⟨wFullRecv true, 1, 0, .w, ⟨1, 0, false, false, 0⟩, by decide +kernel⟩,
    ⟨WLINK true, 1, 0, .w, ⟨1, 0, false, false, 0⟩, by decide +kernel⟩,
    ⟨wStallRecv true, 1, 0, .w, ⟨1, 0, false, false, 0⟩, by decide +kernel⟩⟩

/-- The hypotheses of LinksCarryTokensAndCredits can be met, part 3. -/
theorem witness_LinksCarryTokensAndCredits_3 :
    (∃ (s : State) (p q : Fin 72) (dir : Dir) (k : Token), incoming s p dir = some (q, k, true) ∧ q ≠ p ∧ 16 ≤ s.fab.perch[p].run.rxQ[chanIx dir (tokenCh k)].length) ∧
    (∃ (s : State) (p q : Fin 72) (dir : Dir) (k : Token), incoming s p dir = some (q, k, false)) ∧
    (∃ (s : State) (p : Fin 72) (dir : Dir) (ok : Bool), (incoming s p dir).all (·.2.2) = true) ∧
    (∃ (s : State) (p : Fin 72) (dir : Dir) (ok : Bool), (incoming s p dir).any (·.2.2) = false) ∧
    (∃ (s : State) (p : Fin 72) (dir : Dir) (ch : Fin 4), 0 < s.fab.perch[p].run.creditOnLink[chanIx dir ch] ∧ (s.fab.perch[p].finch.stalled = false ∨ s.fab.perch[p].finch.stall.kind ≠ .send ∨ (vmod s.fab.perch[p].run.credit (chanIx dir ch) fun c => min (c + 1) (creditCap s p dir ch))[Fin.ofNat 16 s.fab.perch[p].finch.stall.chan] = 0)) ∧
    (∃ (s : State) (p : Fin 72) (dir : Dir) (ch : Fin 4), 0 < s.fab.perch[p].run.creditOnLink[chanIx dir ch] ∧ s.fab.perch[p].finch.stalled = true ∧ s.fab.perch[p].finch.stall.kind = .send ∧ (0 < (vmod s.fab.perch[p].run.credit (chanIx dir ch) fun c => min (c + 1) (creditCap s p dir ch))[Fin.ofNat 16 s.fab.perch[p].finch.stall.chan])) :=
  ⟨⟨wFullRecv true, 1, 0, .w, ⟨1, 0, false, false, 0⟩, by decide +kernel⟩,
    ⟨WLINK false, 1, 0, .w, ⟨1, 0, false, false, 0⟩, by decide +kernel⟩,
    ⟨WLINK true, 1, .w, true, by decide +kernel⟩,
    ⟨WLINK false, 1, .w, true, by decide +kernel⟩,
    ⟨wfab (fun x => { x with run := { x.run with creditOnLink := Vector.replicate 16 1 } }), 0, .e, 3, by decide +kernel⟩,
    ⟨wStallSend, 0, .e, 1, by decide +kernel⟩⟩

/-- The hypotheses of LinksCarryTokensAndCredits can be met, part 4. -/
theorem witness_LinksCarryTokensAndCredits_4 :
    (∃ (s : State) (p : Fin 72) (dir : Dir) (ch : Fin 4), 0 < s.fab.perch[p].run.creditOnLink[chanIx dir ch] ∧ s.fab.perch[p].run.creditBad.getLsbD (chanIx dir ch) = false) ∧
    (∃ (s : State) (p : Fin 72) (dir : Dir) (ch : Fin 4), 0 < s.fab.perch[p].run.creditOnLink[chanIx dir ch] ∧ s.fab.perch[p].run.creditBad.getLsbD (chanIx dir ch) = true) ∧
    (∃ (s : State) (p : Fin 72) (dir : Dir) (ch : Fin 4) (ok : Bool), s.fab.perch[p].run.creditOnLink[chanIx dir ch] = 0) ∧
    (∃ (s : State) (p q : Fin 72) (link : Dir) (ch : Fin 4) (c : Nat), neighbour s p link = some q ∧ chanKind s p link ch = 1 ∧ s.sys.code = .run ∧ c = creditAfterResync s p q link ch ∧ (s.fab.perch[q].finch.stalled = false ∨ s.fab.perch[q].finch.stall.kind ≠ .send ∨ (s.fab.perch[q].run.credit.set (chanIx (opposite link) ch) c)[Fin.ofNat 16 s.fab.perch[q].finch.stall.chan] = 0)) ∧
    (∃ (s : State) (p q : Fin 72) (link : Dir) (ch : Fin 4) (c : Nat), neighbour s p link = some q ∧ chanKind s p link ch = 1 ∧ s.sys.code = .run ∧ c = creditAfterResync s p q link ch ∧ s.fab.perch[q].finch.stalled = true ∧ s.fab.perch[q].finch.stall.kind = .send ∧ 0 < (s.fab.perch[q].run.credit.set (chanIx (opposite link) ch) c)[Fin.ofNat 16 s.fab.perch[q].finch.stall.chan]) ∧
    (∃ (s : State) (p : Fin 72) (link : Dir) (ch : Fin 4), (neighbour s p link = none ∨ chanKind s p link ch ≠ 1 ∨ s.sys.code ≠ .run)) :=
  ⟨⟨wfab (fun x => { x with run := { x.run with creditOnLink := Vector.replicate 16 1 } }), 0, .e, 3, by decide +kernel⟩,
    ⟨wfab (fun x => { x with run := { x.run with creditOnLink := Vector.replicate 16 1, creditBad := 0xFFFF } }), 0, .e, 3, by decide +kernel⟩,
    ⟨WFAB, 0, .e, 3, true, by decide +kernel⟩,
    ⟨WCHAN, 1, 0, .w, 0, 16, by decide +kernel⟩,
    ⟨wStallSend, 1, 0, .w, 1, 3, by decide +kernel⟩,
    ⟨WCHAN, 1, .w, 2, by decide +kernel⟩⟩

/-- The hypotheses of StalledWaitsAndElasticChannels can be met, part 1. -/
theorem witness_StalledWaitsAndElasticChannels_1 :
    (∃ (s : State) (p q : Fin 72), s.fab.perch[p].finch.stalled = true ∧ s.fab.perch[p].finch.stall.kind = .send ∧ 2 ≤ s.fab.perch[p].finch.stall.beats ∧ neighbour s p (chanDir s.fab.perch[p].finch.stall.chan) = some q) ∧
    (∃ (s : State) (p : Fin 72), (s.fab.perch[p].finch.stalled = false ∨ s.fab.perch[p].finch.stall.kind ≠ .send ∨ s.fab.perch[p].finch.stall.beats < 2 ∨ neighbour s p (chanDir s.fab.perch[p].finch.stall.chan) = none)) ∧
    (∃ (s : State) (p : Fin 72), s.fab.perch[p].finch.stalled = true ∧ s.fab.perch[p].finch.stall.kind = .wait ∧ 2 ≤ s.fab.perch[p].finch.stall.beats) ∧
    (∃ (s : State) (p : Fin 72) (n : Nat), s.fab.perch[p].finch.stalled = true ∧ s.fab.perch[p].finch.stall.kind = .wait ∧ 2 ≤ s.fab.perch[p].finch.stall.beats ∧ (p.val, n) ∈ s.flt.creditSeen ∧ linePast (lineAdd n 64) s.lt.line = true ∧ activePerch s p = true) ∧
    (∃ (s : State) (p : Fin 72), (s.fab.perch[p].finch.stalled = false ∨ s.fab.perch[p].finch.stall.kind ≠ .wait ∨ s.fab.perch[p].finch.stall.beats < 2)) ∧
    (∃ (s : State) (grp : Fin 16), s.fab.watch[grp].due = true) :=
  ⟨⟨wfab (fun x => { x with finch := { x.finch with stalled := true, stall := { Stall.reset with kind := .send, chan := 4, beats := 2 } } }), 0, 1, by decide +kernel⟩,
    ⟨WFAB, 0, by decide +kernel⟩,
    ⟨wfab (fun x => { x with finch := { x.finch with stalled := true, stall := { Stall.reset with kind := .wait, beats := 2 } } }), 0, by decide +kernel⟩,
    ⟨{ wfab (fun x => { x with finch := { x.finch with stalled := true, stall := { Stall.reset with kind := .wait, beats := 2 } } }) with flt := { Flt.reset with creditSeen := [(0, 0)] } }, 0, 0, by decide +kernel⟩,
    ⟨WFAB, 0, by decide +kernel⟩,
    ⟨WWATCH, 0, by decide +kernel⟩⟩

/-- The hypotheses of StalledWaitsAndElasticChannels can be met, part 2. -/
theorem witness_StalledWaitsAndElasticChannels_2 :
    (∃ (s : State) (grp : Fin 16) (p : Fin 72), s.fab.watch[grp].due = true ∧ buffersOf s grp = [] ∧ oldestIn (queuedOf s grp) = some p) ∧
    (∃ (s : State) (grp : Fin 16) (p : Fin 72) (dir : Dir) (ch : Fin 4), s.fab.watch[grp].due = true ∧ buffersOf s grp = [(p, dir)] ∧ s.fab.perch[p].run.outBuf[dirIx dir].length ≤ riserFree s p) ∧
    (∃ (s : State) (grp : Fin 16), s.fab.watch[grp].due = false) ∧
    (∃ (s u : State) (p q : Fin 72) (dir : Dir) (ch : Fin 4) (k : Token) (e : Nat) (rest : List (Token × Option Nat)) (ecc : List Ecc) (ws : List WWord), s.fab.perch[p].run.backlog[chanIx dir ch] = (k, some e) :: rest ∧ s.fab.perch[p].run.onLink[dirIx dir] = none ∧ 0 < s.fab.perch[p].run.credit[chanIx dir ch] ∧ (∀ x ∈ s.fab.perch[p].run.outBuf[dirIx dir], tokenCh x ≠ ch) ∧ neighbour s p dir = some q ∧ readWords p [riserWord s p e, riserWord s p e + 1] ecc s = (ws, u)) ∧
    (∃ (s : State) (p q : Fin 72) (dir : Dir) (ch : Fin 4) (k : Token) (e : Nat) (rest : List (Token × Option Nat)), s.fab.perch[p].run.backlog[chanIx dir ch] = (k, some e) :: rest ∧ s.fab.perch[p].run.onLink[dirIx dir] = none ∧ 0 < s.fab.perch[p].run.credit[chanIx dir ch] ∧ (∀ x ∈ s.fab.perch[p].run.outBuf[dirIx dir], tokenCh x ≠ ch) ∧ neighbour s p dir = some q) ∧
    (∃ (s : State) (p : Fin 72) (dir : Dir) (ch : Fin 4) (ecc : List Ecc), ((s.fab.perch[p].run.backlog[chanIx dir ch].head?).all (·.2.isNone) = true ∨ s.fab.perch[p].run.onLink[dirIx dir] ≠ none ∨ s.fab.perch[p].run.credit[chanIx dir ch] = 0 ∨ (∃ x ∈ s.fab.perch[p].run.outBuf[dirIx dir], tokenCh x = ch) ∨ neighbour s p dir = none)) :=
  ⟨⟨WWATCH, 0, 1, by decide +kernel⟩,
    ⟨wWatchBuf, 0, 0, .e, 0, by decide +kernel⟩,
    ⟨wRun, 0, by decide +kernel⟩,
    ⟨wRiserUp, (readWords 0 (riserAt 0) [.clean, .uncorrectable] wRiserUp).2, 0, 1, .e, 0, ⟨7, 0, false, false, 1⟩, 0, [], [.clean, .uncorrectable], (readWords 0 (riserAt 0) [.clean, .uncorrectable] wRiserUp).1, by decide +kernel, by decide +kernel, by decide +kernel, by decide +kernel, by decide +kernel, Prod.ext rfl rfl⟩,
    ⟨wRiserUp, 0, 1, .e, 0, ⟨7, 0, false, false, 1⟩, 0, [], by decide +kernel⟩,
    ⟨wRiser, 0, .e, 0, [], by decide +kernel⟩⟩

/-- The hypotheses of StalledWaitsAndElasticChannels can be met, part 3. -/
theorem witness_StalledWaitsAndElasticChannels_3 :
    ∃ (ws : List WWord), (∃ w ∈ ws, w.poison = true) :=
  ⟨[⟨0, true⟩, ⟨0, false⟩], by decide +kernel⟩

/-- The hypotheses of SprueTakesTokensAndFormsLines can be met, part 1. -/
theorem witness_SprueTakesTokensAndFormsLines_1 :
    (∃ (s : State) (row col : Fin 8) (beat : Nat) (t : Token) (rest : List (Nat × Token)) (parity : Option Bool), working s = true ∧ rowUsed s (perchAt s row.val col.val) = true ∧ egressTurn s row = some col ∧ s.fab.perch[(perchAt s row.val col.val)].run.egr = (beat, t) :: rest) ∧
    (∃ (s : State) (row col : Fin 8) (beat : Nat) (t : Token) (rest : List (Nat × Token)) (box : Bool), working s = true ∧ rowUsed s (perchAt s row.val col.val) = true ∧ egressTurn s row = some col ∧ s.fab.perch[(perchAt s row.val col.val)].run.egr = (beat, t) :: rest ∧ s.img.nat Fld.tagKind [t.tag.toNat] = 1 + bit box ∧ (t.void = false ∨ t.poison = false)) ∧
    (∃ (s : State) (row col : Fin 8) (beat : Nat) (t : Token) (rest : List (Nat × Token)) (box : Bool) (parity : Option Bool), working s = true ∧ rowUsed s (perchAt s row.val col.val) = true ∧ egressTurn s row = some col ∧ s.fab.perch[(perchAt s row.val col.val)].run.egr = (beat, t) :: rest ∧ s.img.nat Fld.tagKind [t.tag.toNat] = 1 + bit box) ∧
    (∃ (s : State) (row col : Fin 8) (beat : Nat) (t : Token) (rest : List (Nat × Token)) (parity : Option Bool), working s = true ∧ rowUsed s (perchAt s row.val col.val) = true ∧ egressTurn s row = some col ∧ s.fab.perch[(perchAt s row.val col.val)].run.egr = (beat, t) :: rest ∧ t.void = true ∧ (t.poison = true ∨ parity = some false)) ∧
    (∃ (s : State) (row col : Fin 8) (beat : Nat) (t : Token) (rest : List (Nat × Token)) (pre post : List TokRec) (x : TokRec), working s = true ∧ rowUsed s (perchAt s row.val col.val) = true ∧ egressTurn s row = some col ∧ s.fab.perch[(perchAt s row.val col.val)].run.egr = (beat, t) :: rest ∧ s.img.nat Fld.tagKind [t.tag.toNat] = 3 ∧ t.void = false ∧ s.spr.toks = pre ++ x :: post ∧ (x.row = row.val ∧ x.col = col.val ∧ x.beat = beat) ∧ (∀ y ∈ post, ¬(y.row = row.val ∧ y.col = col.val ∧ y.beat = beat)) ∧ x.void = false ∧ x.attr = none) ∧
    (∃ (s : State) (row col : Fin 8) (beat : Nat) (t : Token) (rest : List (Nat × Token)) (pre post : List TokRec) (x : TokRec), working s = true ∧ rowUsed s (perchAt s row.val col.val) = true ∧ egressTurn s row = some col ∧ s.fab.perch[(perchAt s row.val col.val)].run.egr = (beat, t) :: rest ∧ s.img.nat Fld.tagKind [t.tag.toNat] = 3 ∧ t.void = false ∧ s.spr.toks = pre ++ x :: post ∧ (x.row = row.val ∧ x.col = col.val ∧ x.beat = beat) ∧ (∀ y ∈ post, ¬(y.row = row.val ∧ y.col = col.val ∧ y.beat = beat)) ∧ (x.void = true ∨ x.attr ≠ none)) :=
  ⟨⟨wTok 1, 0, 0, 5, wTk, [], some false, by decide +kernel⟩,
    ⟨wTok 1, 0, 0, 5, wTk, [], false, by decide +kernel⟩,
    ⟨wTok 2, 0, 0, 5, wTk, [], true, some false, by decide +kernel⟩,
    ⟨wTokVoid, 0, 0, 5, ⟨0, 0, true, true, 5⟩, [], none, by decide +kernel⟩,
    ⟨wTokAttr, 0, 0, 5, wTk, [], [], [], { TokRec.reset with beat := 5 }, by decide +kernel⟩,
    ⟨{ wTokAttr with spr := { wTokAttr.spr with toks := [{ TokRec.reset with beat := 5, void := true }] } }, 0, 0, 5, wTk, [], [], [], { TokRec.reset with beat := 5, void := true }, by decide +kernel⟩⟩

/-- The hypotheses of SprueTakesTokensAndFormsLines can be met, part 2. -/
theorem witness_SprueTakesTokensAndFormsLines_2 :
    (∃ (s : State) (row col : Fin 8) (beat : Nat) (t : Token) (rest : List (Nat × Token)), working s = true ∧ rowUsed s (perchAt s row.val col.val) = true ∧ egressTurn s row = some col ∧ s.fab.perch[(perchAt s row.val col.val)].run.egr = (beat, t) :: rest ∧ s.img.nat Fld.tagKind [t.tag.toNat] = 3 ∧ t.void = false ∧ (∀ y ∈ s.spr.toks, ¬(y.row = row.val ∧ y.col = col.val ∧ y.beat = beat))) ∧
    (∃ (s : State) (row col : Fin 8) (beat : Nat) (t : Token) (rest : List (Nat × Token)), working s = true ∧ rowUsed s (perchAt s row.val col.val) = true ∧ egressTurn s row = some col ∧ s.fab.perch[(perchAt s row.val col.val)].run.egr = (beat, t) :: rest ∧ s.img.nat Fld.tagKind [t.tag.toNat] = 4 ∧ t.void = false ∧ s.img.nat Fld.evpMode [bits t.data.toNat 0 4] ≠ 0) ∧
    (∃ (s : State) (row col : Fin 8) (beat : Nat) (t : Token) (rest : List (Nat × Token)), working s = true ∧ rowUsed s (perchAt s row.val col.val) = true ∧ egressTurn s row = some col ∧ s.fab.perch[(perchAt s row.val col.val)].run.egr = (beat, t) :: rest ∧ (s.img.nat Fld.tagKind [t.tag.toNat] = 0 ∨ 4 < s.img.nat Fld.tagKind [t.tag.toNat] ∨ (s.img.nat Fld.tagKind [t.tag.toNat] = 3 ∧ t.void = true) ∨ (s.img.nat Fld.tagKind [t.tag.toNat] = 4 ∧ (t.void = true ∨ s.img.nat Fld.evpMode [bits t.data.toNat 0 4] = 0))) ∧ (t.void = false ∨ t.poison = false)) ∧
    (∃ (s : State) (row col : Fin 8) (parity : Option Bool), (s.fab.perch[(perchAt s row.val col.val)].run.egr = [] ∨ working s = false ∨ rowUsed s (perchAt s row.val col.val) = false ∨ egressTurn s row ≠ some col)) ∧
    (∃ (s : State) (c : Crop) (rest : List Crop), working s = true ∧ s.spr.crops = c :: rest) ∧
    (∃ (s : State) (c : Crop) (rest : List Crop), working s = true ∧ s.spr.crops = c :: rest ∧ s.net.queue.length + 1 + cropRecords c.bytes.length < 45) :=
  ⟨⟨wTok 3, 0, 0, 5, wTk, [], by decide +kernel⟩,
    ⟨wTok 4, 0, 0, 5, wTk, [], by decide +kernel⟩,
    ⟨wTok 0, 0, 0, 5, wTk, [], by decide +kernel⟩,
    ⟨wTok 1, 0, 1, none, by decide +kernel⟩,
    ⟨wCropData, { Crop.reset with bytes := [1, 2, 3], width := 3 }, [], by decide +kernel⟩,
    ⟨wCropData, { Crop.reset with bytes := [1, 2, 3], width := 3 }, [], by decide +kernel⟩⟩

/-- The hypotheses of SprueTakesTokensAndFormsLines can be met, part 3. -/
theorem witness_SprueTakesTokensAndFormsLines_3 :
    (∃ (s : State) (store : Ecc), (working s = false ∨ s.spr.crops = [])) ∧
    (∃ (s : State) (e : Evt) (rest : List Evt), working s = true ∧ dueEvent s s.spr.events = some (e, rest)) ∧
    (∃ (s : State) (e : Evt) (rest : List Evt) (k : Fin 16), working s = true ∧ dueEvent s s.spr.events = some (e, rest) ∧ k = Fin.ofNat 16 e.port ∧ s.img.nat Fld.evpMode [k.val] ≠ 0 ∧ s.gpio.evpOn = true ∧ s.img.nat Fld.evpDelay [k.val] ≠ 0 ∧ s.gpio.evp[k].held.length < 64) ∧
    (∃ (s : State) (e : Evt) (rest : List Evt) (k : Fin 16), working s = true ∧ dueEvent s s.spr.events = some (e, rest) ∧ k = Fin.ofNat 16 e.port ∧ s.img.nat Fld.evpMode [k.val] ≠ 0 ∧ s.gpio.evpOn = true ∧ s.img.nat Fld.evpDelay [k.val] ≠ 0 ∧ 64 ≤ s.gpio.evp[k].held.length) ∧
    (∃ (s : State) (e : Evt) (rest : List Evt) (k : Fin 16), working s = true ∧ dueEvent s s.spr.events = some (e, rest) ∧ k = Fin.ofNat 16 e.port ∧ s.img.nat Fld.evpMode [k.val] ≠ 0 ∧ s.gpio.evpOn = true ∧ s.img.nat Fld.evpDelay [k.val] = 0) ∧
    (∃ (s : State) (e : Evt) (rest : List Evt) (k : Fin 16), working s = true ∧ dueEvent s s.spr.events = some (e, rest) ∧ k = Fin.ofNat 16 e.port ∧ (s.img.nat Fld.evpMode [k.val] = 0 ∨ s.gpio.evpOn = false)) :=
  ⟨⟨wRun, .clean, by decide +kernel⟩,
    ⟨wEvt, ⟨3, 2⟩, [], by decide +kernel⟩,
    ⟨wEvt, ⟨3, 2⟩, [], 2, by decide +kernel⟩,
    ⟨{ wEvt with gpio := { wEvt.gpio with evp := vmod wEvt.gpio.evp 2 fun x => { x with held := List.replicate 64 0 } } }, ⟨3, 2⟩, [], 2, by decide +kernel⟩,
    ⟨{ wEvt with img := wImg [wItem Fld.evpMode [2] 1, wItem Fld.evpDelay [2] 0] }, ⟨3, 2⟩, [], 2, by decide +kernel⟩,
    ⟨{ wEvt with gpio := Gpio.reset }, ⟨3, 2⟩, [], 2, by decide +kernel⟩⟩

/-- The hypotheses of SprueTakesTokensAndFormsLines can be met, part 4. -/
theorem witness_SprueTakesTokensAndFormsLines_4 :
    (∃ (s : State) (b : Bool), (working s = false ∨ dueEvent s s.spr.events = none)) ∧
    (∃ (s : State) (l : LineRec) (rest : List LineRec) (hist : List (Fin 256 × Ecc)), working s = true ∧ s.spr.lines = l :: rest ∧ l.exposed = true ∧ beatEnded s l rest = true ∧ tokensDue s l.line = false) ∧
    (∃ (s : State) (l : LineRec) (rest : List LineRec) (hist : List (Fin 256 × Ecc)), working s = true ∧ s.spr.lines = l :: rest ∧ l.exposed = true ∧ beatEnded s l rest = true ∧ tokensDue s l.line = false ∧ l.beatRan = true ∧ l.noBeat = false ∧ l.withheld = false ∧ l.anchor = false ∧ (∀ x ∈ rest, x.line ≠ l.line) ∧ s.lt.stopped = false ∧ beatRecords s l.line = [] ∧ s.net.queue.length < 44) ∧
    (∃ (s : State) (l : LineRec) (rest : List LineRec) (hist : List (Fin 256 × Ecc)) (t : TokRec), working s = true ∧ s.spr.lines = l :: rest ∧ l.exposed = true ∧ beatEnded s l rest = true ∧ tokensDue s l.line = false ∧ l.beatRan = true ∧ l.noBeat = false ∧ l.withheld = false ∧ l.anchor = false ∧ (∀ x ∈ rest, x.line ≠ l.line) ∧ s.lt.stopped = false ∧ beatRecords s l.line = [t] ∧ t.box = false ∧ 256 ≤ s.spr.recCredit ∧ s.net.queue.length < 43) ∧
    (∃ (s : State) (l : LineRec) (rest : List LineRec) (hist : List (Fin 256 × Ecc)) (t : TokRec), working s = true ∧ s.spr.lines = l :: rest ∧ l.exposed = true ∧ beatEnded s l rest = true ∧ tokensDue s l.line = false ∧ l.beatRan = true ∧ l.noBeat = false ∧ l.withheld = false ∧ l.anchor = false ∧ (∀ x ∈ rest, x.line ≠ l.line) ∧ s.lt.stopped = false ∧ beatRecords s l.line = [t] ∧ t.box = true ∧ t.crop = false ∧ seamOf s t.x0 t.x1 = 0 ∧ 256 ≤ s.spr.recCredit ∧ s.net.queue.length < 43) ∧
    (∃ (s : State) (hist : List (Fin 256 × Ecc)), (working s = false ∨ s.spr.lines = [])) :=
  ⟨⟨wRun, true, by decide +kernel⟩,
    ⟨wLine, { LineRec.reset with exposed := true, noBeat := true }, [], [], by decide +kernel⟩,
    ⟨wTwoLines [], wLine0, [wLine1], [], by decide +kernel⟩,
    ⟨wTwoLines [TokRec.reset], wLine0, [wLine1], [], TokRec.reset, by decide +kernel⟩,
    ⟨wTwoLines [wBoxTok], wLine0, [wLine1], [], wBoxTok, by decide +kernel⟩,
    ⟨wRun, [], by decide +kernel⟩⟩

/-- The hypotheses of SprueTakesTokensAndFormsLines can be met, part 5. -/
theorem witness_SprueTakesTokensAndFormsLines_5 :
    ∃ (s : State) (l : LineRec) (rest : List LineRec) (hist : List (Fin 256 × Ecc)), s.spr.lines = l :: rest ∧ (l.exposed = false ∨ beatEnded s l rest = false ∨ tokensDue s l.line = true) :=
  ⟨{ wRun with spr := { Sprue.reset with lines := [LineRec.reset] } }, LineRec.reset, [], [], by decide +kernel⟩

/-- The hypotheses of SeamsPairAndResolve can be met, part 1. -/
theorem witness_SeamsPairAndResolve_1 :
    (∃ (s : State) (side : Side) (hd : FrameHead) (f : FragPay), working s = true ∧ portLive s side = true ∧ hopTaken hd = true) ∧
    (∃ (s : State) (side : Side) (hd : FrameHead) (boxId partner : BitVec 16), working s = true ∧ portLive s side = true ∧ hopTaken hd = true) ∧
    (∃ (s : State) (side : Side) (hd : FrameHead) (f : FragPay) (boxId partner : BitVec 16), (working s = false ∨ portLive s side = false ∨ hopTaken hd = false)) ∧
    (∃ (s : State) (o : Frag) (boxId : BitVec 16), working s = true ∧ (s.spr.own.find? (fun f => f.boxId == boxId.toNat && !f.resolved) = some o) ∧ (∀ g ∈ s.spr.own, g.boxId = boxId.toNat → g = o) ∧ exposedPast s (releaseLine s o) = true ∧ seamBar s o.side ≠ 0 ∧ o.pair = none) ∧
    (∃ (s : State) (o : Frag) (boxId : BitVec 16) (b : Nat), working s = true ∧ (s.spr.own.find? (fun f => f.boxId == boxId.toNat && !f.resolved) = some o) ∧ (∀ g ∈ s.spr.own, g.boxId = boxId.toNat → g = o) ∧ exposedPast s (releaseLine s o) = true ∧ seamBar s o.side ≠ 0 ∧ o.pair = some b) ∧
    (∃ (s : State) (o : Frag) (boxId : BitVec 16), working s = true ∧ (s.spr.own.find? (fun f => f.boxId == boxId.toNat && !f.resolved) = some o) ∧ (∀ g ∈ s.spr.own, g.boxId = boxId.toNat → g = o) ∧ exposedPast s (releaseLine s o) = true ∧ seamBar s o.side = 0 ∧ o.pair = none ∧ freePairs s o.side = []) :=
  ⟨⟨wSeam, .west, ⟨true, true, 1, 3, 0⟩, ⟨4, 1, 0, 9, 2, 100, 0, 7, 0⟩, by decide +kernel⟩,
    ⟨wSeam, .west, ⟨true, true, 1, 3, 0⟩, 7, 9, by decide +kernel⟩,
    ⟨wSeam, .west, ⟨true, true, 1, 3, 4⟩, ⟨4, 1, 0, 9, 2, 100, 0, 7, 0⟩, 7, 9, by decide +kernel⟩,
    ⟨wOwn, wFrag, 7, by decide +kernel⟩,
    ⟨{ wOwn with spr := { Sprue.reset with own := [{ wFrag with pair := some 3 }] } }, { wFrag with pair := some 3 }, 7, 3, by decide +kernel⟩,
    ⟨wOwnUp [], wFrag, 7, by decide +kernel⟩⟩

/-- The hypotheses of SeamsPairAndResolve can be met, part 2. -/
theorem witness_SeamsPairAndResolve_2 :
    (∃ (s : State) (o : Frag) (boxId : BitVec 16) (b : Frag), working s = true ∧ (s.spr.own.find? (fun f => f.boxId == boxId.toNat && !f.resolved) = some o) ∧ (∀ g ∈ s.spr.own, g.boxId = boxId.toNat → g = o) ∧ exposedPast s (releaseLine s o) = true ∧ seamBar s o.side = 0 ∧ freePairs s o.side = [(o, b)]) ∧
    (∃ (s : State) (o : Frag) (boxId : BitVec 16) (x y : Frag), working s = true ∧ (s.spr.own.find? (fun f => f.boxId == boxId.toNat && !f.resolved) = some o) ∧ (∀ g ∈ s.spr.own, g.boxId = boxId.toNat → g = o) ∧ exposedPast s (releaseLine s o) = true ∧ seamBar s o.side = 0 ∧ firstPair (freePairs s o.side) = some (x, y)) ∧
    (∃ (s : State) (boxId : BitVec 16), (working s = false ∨ s.spr.own.find? (fun f => f.boxId == boxId.toNat && !f.resolved) = none)) ∧
    (∃ (s : State) (o : Frag) (boxId : BitVec 16), (s.spr.own.find? (fun f => f.boxId == boxId.toNat && !f.resolved) = some o) ∧ exposedPast s (releaseLine s o) = false) ∧
    (∃ (l : List (Frag × Frag)) (p q : Frag × Frag), firstPair l = some p ∧ q ∈ l) ∧
    (∃ (s : State) (o : Frag) (boxId : BitVec 16), working s = true ∧ (s.spr.own.find? (fun f => f.boxId == boxId.toNat && f.resolved) = some o) ∧ 256 ≤ s.spr.recCredit ∧ s.net.queue.length < 44) :=
  ⟨⟨wOwnUp [wTheirs], wFrag, 7, wTheirs, by decide +kernel⟩,
    ⟨wOwnUp [wTheirs, { wTheirs with boxId := 10, line := 1 }], wFrag, 7, wFrag, wTheirs, by decide +kernel⟩,
    ⟨wOwn, 9, by decide +kernel⟩,
    ⟨{ wOwn with lt := Lt.reset }, wFrag, 7, by decide +kernel⟩,
    ⟨[(wFrag, { wTheirs with boxId := 10 }), (wFrag, wTheirs)], (wFrag, wTheirs), (wFrag, { wTheirs with boxId := 10 }), by decide +kernel⟩,
    ⟨wRes 256, { wFrag with resolved := true, why := 1 }, 7, by decide +kernel⟩⟩

/-- The hypotheses of SeamsPairAndResolve can be met, part 3. -/
theorem witness_SeamsPairAndResolve_3 :
    (∃ (s : State) (o : Frag) (boxId : BitVec 16), working s = true ∧ (s.spr.own.find? (fun f => f.boxId == boxId.toNat && f.resolved) = some o) ∧ 256 ≤ s.spr.recCredit ∧ 44 ≤ s.net.queue.length) ∧
    (∃ (s : State) (o : Frag) (boxId : BitVec 16), working s = true ∧ (s.spr.own.find? (fun f => f.boxId == boxId.toNat && f.resolved) = some o) ∧ s.spr.recCredit < 256) ∧
    (∃ (s : State) (boxId : BitVec 16), (working s = false ∨ s.spr.own.find? (fun f => f.boxId == boxId.toNat && f.resolved) = none)) ∧
    (∃ (s : State) (o : Frag), o.pair = none) ∧
    (∃ (s : State) (o : Frag) (b : Nat), o.pair = some b ∧ s.spr.theirs.find? (isFrag o.side b) = none) ∧
    (∃ (s : State) (o x : Frag) (b : Nat), o.pair = some b ∧ s.spr.theirs.find? (isFrag o.side b) = some x) :=
  ⟨⟨{ wRes 256 with net := { Net.reset with queue := List.replicate 44 [1] } }, { wFrag with resolved := true, why := 1 }, 7, by decide +kernel⟩,
    ⟨wRes 255, { wFrag with resolved := true, why := 1 }, 7, by decide +kernel⟩,
    ⟨wOwn, 7, by decide +kernel⟩,
    ⟨wOwn, wFrag, by decide +kernel⟩,
    ⟨wOwn, { wFrag with pair := some 9 }, 9, by decide +kernel⟩,
    ⟨wOwnUp [wTheirs], { wFrag with pair := some 9 }, wTheirs, 9, by decide +kernel⟩⟩

/-- The hypotheses of DatagramsRingAndRetries can be met, part 1. -/
theorem witness_DatagramsRingAndRetries_1 :
    (∃ (s : State), working s = true ∧ s.net.queue ≠ []) ∧
    (∃ (s : State), working s = true ∧ s.net.queue = []) ∧
    (∃ (s : State), working s = false) ∧
    (∃ (s : State) (n : Nat) (d : Datagram), ringFind s n = some d) ∧
    (∃ (s : State) (d : Datagram) (rest : List Datagram), s.net.ring = d :: rest ∧ d.closed + ms 64 ≤ s.now) ∧
    (∃ (s : State), (s.net.ring.all (fun d => decide (s.now < d.closed + ms 64)) = true)) :=
  ⟨⟨wNet, by decide +kernel⟩,
    ⟨wRun, by decide +kernel⟩,
    ⟨State.reset, by decide +kernel⟩,
    ⟨wLanes [0] [], 0, Datagram.reset, by decide +kernel⟩,
    ⟨{ wLanes [] [] with now := ms 64 }, Datagram.reset, [], by decide +kernel⟩,
    ⟨wLanes [] [], by decide +kernel⟩⟩

/-- The hypotheses of DatagramsRingAndRetries can be met, part 2. -/
theorem witness_DatagramsRingAndRetries_2 :
    (∃ (s : State) (l : LaneId) (n : Nat) (rest : List Nat) (d : Datagram), live s = true ∧ laneUsable s l = true ∧ (egLane s l).txq = n :: rest ∧ ringFind s n = some d) ∧
    (∃ (s : State) (l : LaneId) (n : Nat) (rest : List Nat), live s = true ∧ laneUsable s l = true ∧ (egLane s l).txq = n :: rest ∧ ringFind s n = none) ∧
    (∃ (s : State) (l : LaneId), (live s = false ∨ laneUsable s l = false ∨ (egLane s l).txq = [])) ∧
    (∃ (s : State) (l : LaneId) (ip : BitVec 32) (b : List Byte), live s = true ∧ laneHears s l = true ∧ retryOk (egLane s l).cfg ip b = true ∧ ((egLane s l).serve.filter (·.last)).length < 16 ∧ BitVec.ofNat 32 (field b 16 4) = s.net.stream ∧ retryCount b = 1) ∧
    (∃ (s : State) (l : LaneId) (ip : BitVec 32) (b : List Byte), live s = true ∧ laneHears s l = true ∧ retryOk (egLane s l).cfg ip b = true ∧ ((egLane s l).serve.filter (·.last)).length < 16 ∧ BitVec.ofNat 32 (field b 16 4) = s.net.stream) ∧
    (∃ (s : State) (l : LaneId) (ip : BitVec 32) (b : List Byte), live s = true ∧ laneHears s l = true ∧ retryOk (egLane s l).cfg ip b = true ∧ ((egLane s l).serve.filter (·.last)).length < 16 ∧ BitVec.ofNat 32 (field b 16 4) ≠ s.net.stream) :=
  ⟨⟨wLanes [0] [], .a, 0, [], Datagram.reset, by decide +kernel⟩,
    ⟨wLanes [1] [], .a, 1, [], by decide +kernel⟩,
    ⟨wLanes [] [], .a, by decide +kernel⟩,
    ⟨wLanes [] [], .a, 0, wRetry 1 0, by decide +kernel⟩,
    ⟨wLanes [] [], .a, 0, wRetry 9 0, by decide +kernel⟩,
    ⟨wLanes [] [], .a, 0, wRetry 1024 5, by decide +kernel⟩⟩

/-- The hypotheses of DatagramsRingAndRetries can be met, part 3. -/
theorem witness_DatagramsRingAndRetries_3 :
    (∃ (s : State) (l : LaneId) (ip : BitVec 32) (b : List Byte), live s = true ∧ laneHears s l = true ∧ retryOk (egLane s l).cfg ip b = true ∧ 16 ≤ ((egLane s l).serve.filter (·.last)).length) ∧
    (∃ (s : State) (l : LaneId) (ip : BitVec 32) (b : List Byte), live s = true ∧ laneHears s l = true ∧ retryOk (egLane s l).cfg ip b = false) ∧
    (∃ (s : State) (l : LaneId) (ip : BitVec 32) (b : List Byte), (live s = false ∨ laneHears s l = false)) ∧
    (∃ (s : State) (l : LaneId) (x : Serve) (rest : List Serve) (d : Datagram), live s = true ∧ laneUsable s l = true ∧ (egLane s l).txq = [] ∧ (egLane s l).serve = x :: rest ∧ x.nak = 0 ∧ ringFind s x.seq = some d) ∧
    (∃ (s : State) (l : LaneId) (x : Serve) (rest : List Serve) (e : Ecc), live s = true ∧ laneUsable s l = true ∧ (egLane s l).txq = [] ∧ (egLane s l).serve = x :: rest ∧ x.nak ≠ 0) ∧
    (∃ (s : State) (l : LaneId) (x : Serve) (rest : List Serve) (e : Ecc), live s = true ∧ laneUsable s l = true ∧ (egLane s l).txq = [] ∧ (egLane s l).serve = x :: rest ∧ x.nak = 0 ∧ ringFind s x.seq = none) :=
  ⟨⟨wLanes [] (List.replicate 16 ⟨0, 0, 1, true⟩), .a, 0, wRetry 1 0, by decide +kernel⟩,
    ⟨wLanes [] [], .a, 0, wRetry 1025 0, by decide +kernel⟩,
    ⟨State.reset, .a, 0, [], by decide +kernel⟩,
    ⟨wLanes [] [⟨0, 0, 1, true⟩], .a, ⟨0, 0, 1, true⟩, [], Datagram.reset, by decide +kernel⟩,
    ⟨wLanes [] [⟨0, 3, 9, true⟩], .a, ⟨0, 3, 9, true⟩, [], .clean, by decide +kernel⟩,
    ⟨wLanes [] [⟨9, 0, 1, true⟩], .a, ⟨9, 0, 1, true⟩, [], .clean, by decide +kernel⟩⟩

/-- The hypotheses of DatagramsRingAndRetries can be met, part 4. -/
theorem witness_DatagramsRingAndRetries_4 :
    (∃ (s : State) (l : LaneId) (e : Ecc), (live s = false ∨ laneUsable s l = false ∨ (egLane s l).txq ≠ [] ∨ (egLane s l).serve = [])) ∧
    (∃ (s : State) (l : LaneId) (f : List Byte), laneHears s l = true ∧ frameOk s l f = false) ∧
    (∃ (s : State) (l : LaneId) (f : List Byte), (laneHears s l = false ∨ frameOk s l f = true)) :=
  ⟨⟨wLanes [] [], .a, .clean, by decide +kernel⟩,
    ⟨wLanes [] [], .a, [], by decide +kernel⟩,
    ⟨State.reset, .a, [], by decide +kernel⟩⟩

/-- The hypotheses of LocksAndArpMakeLanesUsable can be met, part 1. -/
theorem witness_LocksAndArpMakeLanesUsable_1 :
    (∃ (s : State) (l : LaneId) (m : BitVec 48), (egLane s l).up = true ∧ ((egLane s l).lock = false ∨ (egLane s l).rsFault = true) ∧ clocked s = true ∧ reinitBusy .egress s = false ∧ (egLane s l).cfg.hopMac = some m) ∧
    (∃ (s : State) (l : LaneId), (egLane s l).up = true ∧ ((egLane s l).lock = false ∨ (egLane s l).rsFault = true) ∧ clocked s = true ∧ reinitBusy .egress s = false ∧ (egLane s l).cfg.hopMac = none) ∧
    (∃ (s : State) (l : LaneId), ((egLane s l).up = false ∨ ((egLane s l).lock = true ∧ (egLane s l).rsFault = false) ∨ clocked s = false ∨ reinitBusy .egress s = true)) ∧
    (∃ (s : State) (l : LaneId), (egLane s l).lock = true) ∧
    (∃ (s : State) (l : LaneId), (egLane s l).lock = true ∧ (egLane s l).rsFault = false) ∧
    (∃ (s : State) (l : LaneId) (rs : Bool), ((egLane s l).lock = false ∨ (rs = true ∧ (egLane s l).rsFault = true))) :=
  ⟨⟨wMac true, .a, 5, by decide +kernel⟩,
    ⟨wMac false, .a, by decide +kernel⟩,
    ⟨wLanes [] [], .a, by decide +kernel⟩,
    ⟨wLanes [] [], .a, by decide +kernel⟩,
    ⟨wLanes [] [], .a, by decide +kernel⟩,
    ⟨wMac true, .a, true, by decide +kernel⟩⟩

/-- The hypotheses of LocksAndArpMakeLanesUsable can be met, part 2. -/
theorem witness_LocksAndArpMakeLanesUsable_2 :
    (∃ (s : State) (l : LaneId) (mac : BitVec 48) (ip target : BitVec 32), laneHears s l = true ∧ (ip ≠ nextHop (egLane s l).cfg ∨ ip = 0)) ∧
    (∃ (s : State) (l : LaneId) (mac : BitVec 48) (ip target : BitVec 32), laneHears s l = true ∧ ip = nextHop (egLane s l).cfg ∧ ip ≠ 0) ∧
    (∃ (s : State) (l : LaneId) (mac : BitVec 48) (ip target : BitVec 32), laneHears s l = false) ∧
    (∃ (s : State) (l : LaneId) (mac : BitVec 48) (ip : BitVec 32), laneHears s l = true ∧ (ip ≠ nextHop (egLane s l).cfg ∨ ip = 0)) ∧
    (∃ (s : State) (l : LaneId) (mac : BitVec 48) (ip : BitVec 32), laneHears s l = true ∧ ip = nextHop (egLane s l).cfg ∧ ip ≠ 0) ∧
    (∃ (s : State) (l : LaneId) (mac : BitVec 48) (ip : BitVec 32), laneHears s l = false) :=
  ⟨⟨wHop, .a, 8, 0x0A000001, 0x0A000001, by decide +kernel⟩,
    ⟨wHop, .a, 8, 0x0A000002, 0x0A000001, by decide +kernel⟩,
    ⟨wMac true, .a, 8, 0x0A000002, 0x0A000001, by decide +kernel⟩,
    ⟨wHop, .a, 8, 0x0A000001, by decide +kernel⟩,
    ⟨wHop, .a, 8, 0x0A000002, by decide +kernel⟩,
    ⟨wMac true, .a, 8, 0x0A000002, by decide +kernel⟩⟩

/-- The hypotheses of LocksAndArpMakeLanesUsable can be met, part 3. -/
theorem witness_LocksAndArpMakeLanesUsable_3 :
    (∃ (s : State) (l : LaneId), laneHears s l = true ∧ (egLane s l).cfg.hopMac = none ∧ nextHop (egLane s l).cfg ≠ 0) ∧
    (∃ (s : State) (l : LaneId), (laneHears s l = false ∨ (egLane s l).cfg.hopMac ≠ none ∨ nextHop (egLane s l).cfg = 0)) :=
  ⟨⟨wHop, .a, by decide +kernel⟩,
    ⟨wMac true, .a, by decide +kernel⟩⟩

/-- The hypotheses of PtpExchangeOfALane can be met, part 1. -/
theorem witness_PtpExchangeOfALane_1 :
    (∃ (s : State) (l : LaneId) (h : PtpHead) (a : AnnData) (c : List Candidate), ptpTakes s l false h = true ∧ (c = ((ptpLane s l).candidates.filter (fun x : Candidate => x.ann.source != a.source) ++ [(⟨a, s.now⟩ : Candidate)]).filter (announced s))) ∧
    (∃ (a b : AnnData), a.gm ≠ b.gm ∧ a.prio1 < b.prio1) ∧
    (∃ (a b : AnnData), a.gm = b.gm ∧ a.steps < b.steps) ∧
    (∃ (s : State) (l : LaneId) (m : AnnData) (c : List Candidate), (ptpLane s l).master = some m ∧ (c = ((ptpLane s l).candidates.filter (fun x : Candidate => x.ann.source != m.source)).filter (announced s))) ∧
    (∃ (s : State) (l : LaneId) (h : PtpHead) (m : SyncData) (quanta : Int), ptpTakes s l true h = true ∧ (ptpLane s l).master.map (·.source) = some m.source ∧ (lastSecond s (ptpLane s l).syncs).length < 128 ∧ (∀ x ∈ lastSecond s (ptpLane s l).syncs, x + 1560000 ≤ s.now) ∧ m.twoStep = false) ∧
    (∃ (s : State) (l : LaneId) (h : PtpHead) (m : SyncData) (quanta : Int) (off : Int), ptpTakes s l true h = true ∧ (ptpLane s l).master.map (·.source) = some m.source ∧ (lastSecond s (ptpLane s l).syncs).length < 128 ∧ (∀ x ∈ lastSecond s (ptpLane s l).syncs, x + 1560000 ≤ s.now) ∧ m.twoStep = false ∧ servoLane s = l ∧ pathUsable s l = true ∧ off = timeDiff (stampNow s quanta) (stampTicks m.origin + corrTicks m.corr + asymTicks s l) - (ptpLane s l).mpd) :=
  ⟨⟨wPtp (some wAnn) 0, .a, ⟨ptpIp, 320, 0⟩, { wAnn with source := 2 }, [⟨wAnn, 0⟩, ⟨{ wAnn with source := 2 }, 0⟩], by decide +kernel⟩,
    ⟨{ wAnn with gm := 5, prio1 := 1 }, wAnn, by decide +kernel⟩,
    ⟨wAnn, { wAnn with steps := 1 }, by decide +kernel⟩,
    ⟨wPtp (some wAnn) 1, .a, wAnn, [], by decide +kernel⟩,
    ⟨wPtp (some wAnn) 0, .a, ⟨ptpIp, 319, 0⟩, ⟨1, 4, false, ⟨0, 100⟩, 0⟩, 0, by decide +kernel⟩,
    ⟨wPtp (some wAnn) 0, .a, ⟨ptpIp, 319, 0⟩, ⟨1, 4, false, ⟨0, 100⟩, 0⟩, 0, -65536000, by decide +kernel⟩⟩

/-- The hypotheses of PtpExchangeOfALane can be met, part 2. -/
theorem witness_PtpExchangeOfALane_2 :
    (∃ (s : State) (l : LaneId) (h : PtpHead) (m : SyncData) (quanta : Int), ptpTakes s l true h = true ∧ (ptpLane s l).master.map (·.source) = some m.source ∧ (lastSecond s (ptpLane s l).syncs).length < 128 ∧ (∀ x ∈ lastSecond s (ptpLane s l).syncs, x + 1560000 ≤ s.now) ∧ m.twoStep = true) ∧
    (∃ (s : State) (l : LaneId) (h : PtpHead) (m : SyncData) (quanta : Int), (ptpTakes s l true h = false ∨ (ptpLane s l).master.map (·.source) ≠ some m.source ∨ 128 ≤ (lastSecond s (ptpLane s l).syncs).length ∨ (∃ x ∈ lastSecond s (ptpLane s l).syncs, s.now < x + 1560000))) ∧
    (∃ (s : State) (l : LaneId) (h : PtpHead) (source : BitVec 80) (seqId : BitVec 16) (origin : PtpStamp) (corr : BitVec 64) (p : HeldSync) (t1 : Int), ptpTakes s l false h = true ∧ (ptpLane s l).twoStep = some p ∧ p.msg.source = source ∧ p.msg.seqId = seqId ∧ s.now ≤ p.since + sec 1 ∧ t1 = stampTicks origin + corrTicks p.msg.corr + corrTicks corr + asymTicks s l) ∧
    (∃ (s : State) (l : LaneId) (h : PtpHead) (source : BitVec 80) (seqId : BitVec 16) (origin : PtpStamp) (corr : BitVec 64) (p : HeldSync), (ptpLane s l).twoStep = some p ∧ (ptpTakes s l false h = false ∨ p.msg.source ≠ source ∨ p.msg.seqId ≠ seqId ∨ p.since + sec 1 < s.now)) ∧
    (∃ (s : State) (l : LaneId) (h : PtpHead) (source : BitVec 80) (seqId : BitVec 16) (origin : PtpStamp) (corr : BitVec 64), (ptpLane s l).twoStep = none) ∧
    (∃ (s : State) (l : LaneId) (quanta : Int) (n : Nat), ptpHears s l = true ∧ (ptpLane s l).master.isSome = true ∧ (ptpLane s l).reqDue ≤ s.now ∧ (lastSecond s (ptpLane s l).reqs).length < 16 ∧ n = ((ptpLane s l).reqId + 1) % 65536) :=
  ⟨⟨wPtp (some wAnn) 0, .a, ⟨ptpIp, 319, 0⟩, ⟨1, 4, true, ⟨0, 100⟩, 0⟩, 0, by decide +kernel⟩,
    ⟨wPtp none 0, .a, ⟨ptpIp, 319, 0⟩, ⟨1, 4, false, ⟨0, 100⟩, 0⟩, 0, by decide +kernel⟩,
    ⟨wTwo, .a, ⟨ptpIp, 320, 0⟩, 1, 4, ⟨0, 5⟩, 0, ⟨⟨1, 4, true, ⟨0, 0⟩, 0⟩, 107, 0⟩, 3276800, by decide +kernel⟩,
    ⟨wTwo, .a, ⟨ptpIp, 320, 0⟩, 1, 5, ⟨0, 5⟩, 0, ⟨⟨1, 4, true, ⟨0, 0⟩, 0⟩, 107, 0⟩, by decide +kernel⟩,
    ⟨wRun, .a, ⟨ptpIp, 320, 0⟩, 1, 5, ⟨0, 5⟩, 0, by decide +kernel⟩,
    ⟨wPtp (some wAnn) 0, .a, 3, 1, by decide +kernel⟩⟩

/-- The hypotheses of PtpExchangeOfALane can be met, part 3. -/
theorem witness_PtpExchangeOfALane_3 :
    (∃ (s : State) (l : LaneId) (quanta : Int), (ptpHears s l = false ∨ (ptpLane s l).master = none ∨ s.now < (ptpLane s l).reqDue ∨ 16 ≤ (lastSecond s (ptpLane s l).reqs).length)) ∧
    (∃ (s : State) (l : LaneId) (h : PtpHead) (source : BitVec 80) (seqId : BitVec 16) (rx : PtpStamp) (corr : BitVec 64) (logInterval : BitVec 8) (requesting : List Byte) (t3 m : Int), ptpTakes s l false h = true ∧ (ptpLane s l).t3 = some t3 ∧ (ptpLane s l).master.map (·.source) = some source ∧ seqId.toNat = (ptpLane s l).reqId ∧ requesting = portIdentity s ∧ m = (timeDiff (ptpLane s l).t2 (ptpLane s l).t1 + timeDiff (stampTicks rx - corrTicks corr) t3) / 2) ∧
    (∃ (s : State) (l : LaneId) (h : PtpHead) (source : BitVec 80) (seqId : BitVec 16) (rx : PtpStamp) (corr : BitVec 64) (logInterval : BitVec 8) (requesting : List Byte), ((ptpLane s l).t3 = none ∨ ptpTakes s l false h = false ∨ (ptpLane s l).master.map (·.source) ≠ some source ∨ seqId.toNat ≠ (ptpLane s l).reqId ∨ requesting ≠ portIdentity s)) :=
  ⟨⟨wPtp none 0, .a, 3, by decide +kernel⟩,
    ⟨wT3, .a, ⟨ptpIp, 320, 0⟩, 1, 0, ⟨0, 9⟩, 0, 0, portIdentity wT3, 5, 2949117, by decide +kernel, by decide +kernel, by decide +kernel, by decide +kernel, by decide +kernel, rfl⟩,
    ⟨wT3, .a, ⟨ptpIp, 320, 0⟩, 1, 1, ⟨0, 9⟩, 0, 0, portIdentity wT3, by decide +kernel⟩⟩

/-- The hypotheses of TimePathsClockAndPps can be met, part 1. -/
theorem witness_TimePathsClockAndPps_1 :
    (∃ (s : State) (l : LaneId) (tx rx : Int), (egLane s l).up = true ∧ s.ptp.running = true ∧ clocked s = true ∧ reinitBusy .egress s = false ∧ (ptpLane s l).markerBad = 0 ∧ (ptpLane s l).pathFault = false ∧ (3 ≤ tx.natAbs ∨ 3 ≤ rx.natAbs)) ∧
    (∃ (s : State) (l : LaneId) (tx rx : Int), (egLane s l).up = true ∧ s.ptp.running = true ∧ clocked s = true ∧ reinitBusy .egress s = false ∧ 1 ≤ (ptpLane s l).markerBad ∧ (ptpLane s l).pathFault = false ∧ (3 ≤ tx.natAbs ∨ 3 ≤ rx.natAbs)) ∧
    (∃ (s : State) (l : LaneId) (tx rx : Int), (egLane s l).up = true ∧ s.ptp.running = true ∧ clocked s = true ∧ reinitBusy .egress s = false ∧ (ptpLane s l).pathFault = true ∧ (3 ≤ tx.natAbs ∨ 3 ≤ rx.natAbs)) ∧
    (∃ (s : State) (l : LaneId) (tx rx : Int), (egLane s l).up = true ∧ s.ptp.running = true ∧ clocked s = true ∧ reinitBusy .egress s = false ∧ tx.natAbs < 3 ∧ rx.natAbs < 3) ∧
    (∃ (s : State) (l : LaneId) (tx rx : Int), ((egLane s l).up = false ∨ s.ptp.running = false ∨ clocked s = false ∨ reinitBusy .egress s = true)) ∧
    (∃ (s : State), (egLane s .a).lock = true ∧ s.ptp.lane = 0 ∧ pathUsable s .b = true) :=
  ⟨⟨wPtp none 0, .a, 0, -3, by decide +kernel⟩,
    ⟨wMark, .a, -3, 0, by decide +kernel⟩,
    ⟨{ wMark with ptp := { wMark.ptp with pl := Vector.replicate 2 { PtpLane.reset with markerBad := 2, pathFault := true } } }, .a, 3, 0, by decide +kernel⟩,
    ⟨wMark, .a, -2, 2, by decide +kernel⟩,
    ⟨wRun, .a, 9, 9, by decide +kernel⟩,
    ⟨wBoth, by decide +kernel⟩⟩

/-- The hypotheses of TimePathsClockAndPps can be met, part 2. -/
theorem witness_TimePathsClockAndPps_2 :
    (∃ (s : State) (l : LaneId), (egLane s l).lock = true ∧ s.ptp.state = 1 ∧ pathUsable s (otherLane l) = false) ∧
    (∃ (s : State) (t0 : Nat), pathUsable s .a = true ∧ s.ptp.aSince = some t0 ∧ t0 + sec 60 ≤ s.now ∧ s.ptp.lane ≠ 0) ∧
    (∃ (s : State), (pathUsable s .a = false ∨ s.ptp.aSince = none ∨ s.ptp.aSince.any (fun x => decide (s.now < x + sec 60)) = true ∨ s.ptp.lane = 0)) ∧
    (∃ (s : State) (x : Int), tlcTicks s = some x ∧ s.ptp.state = 1 ∧ (timeDiff (ptpTicks s) x).natAbs ≤ 5000 * 655360) ∧
    (∃ (s : State), (tlcTicks s = none ∨ s.ptp.state ≠ 1 ∨ (tlcTicks s).any (fun x => decide (5000 * 655360 < (timeDiff (ptpTicks s) x).natAbs)) = true)) ∧
    (∃ (s : State), ppsOn s = true) :=
  ⟨⟨wPtp (some wAnn) 1, .a, by decide +kernel⟩,
    ⟨{ wPtp (some wAnn) 0 with now := sec 60, ptp := { (wPtp (some wAnn) 0).ptp with lane := 1, aSince := some 0 } }, 0, by decide +kernel⟩,
    ⟨wPtp (some wAnn) 0, by decide +kernel⟩,
    ⟨wTlc 3276800000, 3276800000, by decide +kernel⟩,
    ⟨wTlc 3276800001, by decide +kernel⟩,
    ⟨wPps, by decide +kernel⟩⟩

/-- The hypotheses of TimePathsClockAndPps can be met, part 3. -/
theorem witness_TimePathsClockAndPps_3 :
    ∃ (s : State), ppsOn s = false :=
  ⟨wRun, by decide +kernel⟩

/-- The hypotheses of LinksFramesAndMeasuredDelays can be met, part 1. -/
theorem witness_LinksFramesAndMeasuredDelays_1 :
    (∃ (s : State) (side : Side), (portAt s side).up = false ∧ s.sys.code ≠ .off ∧ ((portAt s side).broke = false ∨ portActive s side = false ∨ hasIdentity s = false)) ∧
    (∃ (s : State) (side : Side), (portAt s side).up = false ∧ (portAt s side).broke = true ∧ portActive s side = true ∧ hasIdentity s = true) ∧
    (∃ (s : State) (side : Side), (portAt s side).up = true ∧ s.sys.code ≠ .off) ∧
    (∃ (s : State) (side : Side), (portAt s side).up = true ∧ portActive s side = true ∧ hasIdentity s = true) ∧
    (∃ (s : State) (side : Side) (b : Bool), (portAt s side).want = some b) ∧
    (∃ (s : State) (side : Side), portLive s side = true) :=
  ⟨⟨wRun, .west, by decide +kernel⟩,
    ⟨wStar (fun x => { x with port := x.port.map fun p => { p with up := false, broke := true } }), .east, by decide +kernel⟩,
    ⟨wStar id, .west, by decide +kernel⟩,
    ⟨wStar id, .west, by decide +kernel⟩,
    ⟨wStar (fun x => { x with port := x.port.map fun p => { p with want := some true } }), .west, true, by decide +kernel⟩,
    ⟨wStar id, .west, by decide +kernel⟩⟩

/-- The hypotheses of LinksFramesAndMeasuredDelays can be met, part 2. -/
theorem witness_LinksFramesAndMeasuredDelays_2 :
    (∃ (s : State) (side : Side) (hd : FrameHead) (q : BitVec 8) (delay : Nat), (portAt s side).up = true ∧ portActive s side = true ∧ frameGood hd = true ∧ hd.hop = 0 ∧ q.toNat = (portAt s side).echoSeq) ∧
    (∃ (s : State) (side : Side) (hd : FrameHead) (q : BitVec 8) (delay : Nat), (portAt s side).up = true ∧ portActive s side = true ∧ frameGood hd = true) ∧
    (∃ (s : State) (side : Side) (hd : FrameHead) (q : BitVec 8) (delay : Nat), (portAt s side).up = true ∧ portActive s side = true ∧ frameGood hd = true ∧ (hd.hop ≠ 0 ∨ q.toNat ≠ (portAt s side).echoSeq)) ∧
    (∃ (s : State) (side : Side) (hd : FrameHead) (q : BitVec 8) (delay : Nat) (ret : Bool), (portAt s side).up = true ∧ portActive s side = false ∧ (portAt s (otherSide side)).up = true) ∧
    (∃ (s : State) (side : Side) (hd : FrameHead) (q : BitVec 8) (delay : Nat) (ret : Bool), (portAt s side).up = false ∧ (hd.crcOk = true ∨ portActive s side = false)) ∧
    (∃ (s : State) (side port : Side) (hd : FrameHead) (h : Hello) (m : MemberPay) (a : AgreePay) (k : StarEvent) (n e : BitVec 32) (bar holder subj : BitVec 16), (portAt s side).up = false ∧ (hd.crcOk = true ∨ portActive s side = false)) :=
  ⟨⟨wStar id, .west, ⟨true, true, 1, 3, 0⟩, 0, 10, by decide +kernel⟩,
    ⟨wStar id, .west, ⟨true, true, 1, 3, 0⟩, 0, 10, by decide +kernel⟩,
    ⟨wStar id, .west, ⟨true, true, 1, 3, 0⟩, 7, 10, by decide +kernel⟩,
    ⟨wStar (fun x => { x with port := x.port.map fun p => { p with passive := true } }), .west, ⟨true, true, 1, 3, 0⟩, 7, 10, false, by decide +kernel⟩,
    ⟨wRun, .west, ⟨true, true, 1, 3, 0⟩, 7, 10, true, by decide +kernel⟩,
    ⟨wRun, .west, .west, ⟨true, true, 1, 3, 0⟩, ⟨1, 3, 0, 1, 0, 0, 0⟩, ⟨1, 3, 0, 1, 0, 0, 0, 0, 0⟩, ⟨1, 2, 3, 4, 0, 0, 0⟩, .brk, 1, 2, 0, 5, 7, by decide +kernel⟩⟩

/-- The hypotheses of LinksFramesAndMeasuredDelays can be met, part 3. -/
theorem witness_LinksFramesAndMeasuredDelays_3 :
    (∃ (s : State) (side port : Side) (hd : FrameHead) (h : Hello) (m : MemberPay) (a : AgreePay) (k : StarEvent) (n e : BitVec 32) (bar holder subj : BitVec 16), (portAt s side).up = true ∧ portActive s side = false ∧ (portAt s (otherSide side)).up = true) ∧
    (∃ (s : State) (side port : Side) (hd : FrameHead) (h : Hello) (m : MemberPay) (a : AgreePay) (k : StarEvent) (n e : BitVec 32) (bar holder subj : BitVec 16), (portAt s side).up = true ∧ portActive s side = true ∧ hd.crcOk = true ∧ (hd.hop = 4095 ∨ isOwn s hd.src = true ∨ (portAt s (otherSide side)).up = false) ∧ hd.eof = false) ∧
    (∃ (s : State) (side port : Side) (hd : FrameHead) (m : MemberPay) (a : AgreePay) (k : StarEvent) (n e : BitVec 32) (bar holder subj : BitVec 16), (portAt s side).up = true ∧ portActive s side = true ∧ isOwn s hd.src = false ∧ hd.hop ≠ 4095 ∧ (portAt s (otherSide side)).up = true) ∧
    (∃ (s : State) (side port : Side) (hd : FrameHead) (h : Hello) (m : MemberPay) (a : AgreePay) (k : StarEvent) (n e : BitVec 32) (bar holder subj : BitVec 16), portActive s side = true ∧ hd.crcOk = false) ∧
    (∃ (s : State) (side : Side) (hd : FrameHead) (h : Hello), (portAt s side).up = true ∧ portActive s side = true ∧ frameGood hd = true ∧ (hd.hop ≠ 0 ∨ hd.pv ≠ 1)) ∧
    (∃ (s : State) (side : Side) (hd : FrameHead) (h : Hello), (portAt s side).up = true ∧ portActive s side = true ∧ frameGood hd = true ∧ hd.hop = 0 ∧ hd.pv = 1) :=
  ⟨⟨wStar (fun x => { x with port := x.port.map fun p => { p with passive := true } }), .west, .west, ⟨false, true, 1, 3, 0⟩, ⟨1, 3, 0, 1, 0, 0, 0⟩, ⟨1, 3, 0, 1, 0, 0, 0, 0, 0⟩, ⟨1, 2, 3, 4, 0, 0, 0⟩, .brk, 1, 2, 0, 5, 7, by decide +kernel⟩,
    ⟨wStar id, .west, .west, ⟨true, false, 1, 3, 4095⟩, ⟨1, 3, 0, 1, 0, 0, 0⟩, ⟨1, 3, 0, 1, 0, 0, 0, 0, 0⟩, ⟨1, 2, 3, 4, 0, 0, 0⟩, .brk, 1, 2, 0, 5, 7, by decide +kernel⟩,
    ⟨wStar id, .west, .west, ⟨true, true, 1, 3, 0⟩, ⟨1, 3, 0, 1, 0, 0, 0, 0, 0⟩, ⟨1, 2, 3, 4, 0, 0, 0⟩, .brk, 1, 2, 0, 5, 7, by decide +kernel⟩,
    ⟨wStar id, .west, .west, ⟨false, true, 1, 3, 0⟩, ⟨1, 3, 0, 1, 0, 0, 0⟩, ⟨1, 3, 0, 1, 0, 0, 0, 0, 0⟩, ⟨1, 2, 3, 4, 0, 0, 0⟩, .brk, 1, 2, 0, 5, 7, by decide +kernel⟩,
    ⟨wStar id, .west, ⟨true, true, 2, 3, 0⟩, ⟨1, 3, 0, 1, 0, 0, 0⟩, by decide +kernel⟩,
    ⟨wStar id, .west, ⟨true, true, 1, 3, 0⟩, ⟨1, 3, 0, 1, 0, 0, 0⟩, by decide +kernel⟩⟩

/-- The hypotheses of LinksFramesAndMeasuredDelays can be met, part 4. -/
theorem witness_LinksFramesAndMeasuredDelays_4 :
    (∃ (s : State) (side : Side) (hd : FrameHead) (h : Hello), (portAt s side).up = true ∧ portActive s side = true ∧ frameGood hd = true ∧ hd.hop = 0 ∧ hd.pv = 1 ∧ isOwn s hd.src = true ∧ h.nonce ≠ s.star.nonce) ∧
    (∃ (s : State), (portLive s .west = true ∨ portLive s .east = true)) ∧
    (∃ (s : State), portLive s .west = false ∧ portLive s .east = false) ∧
    (∃ (s : State) (side : Side) (n : Neigh), (portAt s side).neigh = some n ∧ (portAt s side).lost = false ∧ portActive s side = true ∧ hasIdentity s = true) ∧
    (∃ (s : State) (side : Side) (n : Neigh), (portAt s side).neigh = some n ∧ (portAt s side).lost = false ∧ portActive s side = true ∧ hasIdentity s = false) ∧
    (∃ (s : State) (m : MemberPay), hasIdentity s = true ∧ m.nonce = s.star.nonce ∧ m.state = BitVec.ofNat 4 (stateCode s.sys.code) ∧ m.bar = BitVec.ofNat 12 (ownBar s) ∧ m.pos = BitVec.ofNat 8 (s.img.nat Fld.barPos []) ∧ m.roles = BitVec.ofNat 8 (bit (s.img.on Fld.masterElig []) + 2 * bit (s.img.on Fld.encElig []) + 16 * s.img.nat Fld.encPrio []) ∧ m.hash = hashHead s.img.groupHash ∧ (m.lastLine = BitVec.ofNat 48 (if s.spr.anySummary then s.spr.lastLine else Config.value s.freeCtr)) ∧ m.wDelay = BitVec.ofNat 16 (portAt s .west).delay ∧ m.eDelay = BitVec.ofNat 16 (portAt s .east).delay) :=
  ⟨⟨wStar id, .west, ⟨true, true, 1, 0, 0⟩, ⟨1, 3, 0, 1, 0, 0, 0⟩, by decide +kernel⟩,
    ⟨wStar id, by decide +kernel⟩,
    ⟨wRun, by decide +kernel⟩,
    ⟨wStar (fun x => { x with port := x.port.map fun p => { p with neigh := some { Neigh.reset with id := 5 } } }), .west, { Neigh.reset with id := 5 }, by decide +kernel⟩,
    ⟨{ wStar (fun x => { x with port := x.port.map fun p => { p with neigh := some Neigh.reset } }) with sys := { wRun.sys with code := .boot } }, .west, Neigh.reset, by decide +kernel⟩,
    ⟨{ wStar id with spr := { Sprue.reset with anySummary := true } }, ⟨0, 3, 0, 0, 0, hashHead (wStar id).img.groupHash, 0, 0, 0⟩, by decide +kernel⟩⟩

/-- The hypotheses of LinksFramesAndMeasuredDelays can be met, part 5. -/
theorem witness_LinksFramesAndMeasuredDelays_5 :
    ∃ (s : State), hasIdentity s = false :=
  ⟨State.reset, by decide +kernel⟩

/-- The hypotheses of ElectionOfTheGroupMaster can be met, part 1. -/
theorem witness_ElectionOfTheGroupMaster_1 :
    (∃ (s : State), s.star.claiming = true ∧ mayClaim s = true) ∧
    (∃ (s : State) (side : Side) (hd : FrameHead) (n e : BitVec 32), (portAt s side).up = true ∧ portActive s side = true ∧ frameGood hd = true ∧ hd.pv = 1 ∧ idNone hd.src = false ∧ isOwn s hd.src = false ∧ hd.src.toNat % 4096 < ownId s ∧ hasIdentity s = true) ∧
    (∃ (s : State) (side : Side) (hd : FrameHead) (n e : BitVec 32), (portAt s side).up = true ∧ portActive s side = true ∧ frameGood hd = true ∧ hd.pv = 1 ∧ idNone hd.src = false ∧ isOwn s hd.src = false ∧ (ownId s ≤ hd.src.toNat % 4096 ∨ hasIdentity s = false)) ∧
    (∃ (s : State), s.star.groupMaster = true ∧ mayHold s = true) ∧
    (∃ (s : State) (side : Side) (hd : FrameHead) (a : AgreePay) (x : Agree), (portAt s side).up = true ∧ portActive s side = true ∧ frameGood hd = true ∧ hd.pv = 1 ∧ idNone hd.src = false ∧ isOwn s hd.src = false ∧ s.star.groupMaster = false ∧ x = ⟨hd.src.toNat % 4096, 1, a.epoch.toNat, a.hash, a.ringN.toNat, a.dBar.toNat, a.dDir.toNat, a.dP.toNat, s.now⟩) ∧
    (∃ (s : State) (side : Side) (hd : FrameHead) (a : AgreePay), (portAt s side).up = true ∧ portActive s side = true ∧ frameGood hd = true ∧ hd.pv = 1 ∧ idNone hd.src = false ∧ isOwn s hd.src = false ∧ s.star.groupMaster = true) :=
  ⟨⟨wClaim, by decide +kernel⟩,
    ⟨wMaster, .west, ⟨true, true, 1, 3, 0⟩, 1, 9, by decide +kernel⟩,
    ⟨wMaster, .west, ⟨true, true, 1, 12, 0⟩, 1, 9, by decide +kernel⟩,
    ⟨{ wMaster with star := { wMaster.star with returned := false, ringN := 4 } }, by decide +kernel⟩,
    ⟨wStar id, .west, ⟨true, true, 1, 3, 0⟩, ⟨1, 2, 3, 4, 0, 0, 0⟩, ⟨3, 1, 2, 3, 4, 0, 0, 0, 0⟩, by decide +kernel⟩,
    ⟨wMaster, .west, ⟨true, true, 1, 3, 0⟩, ⟨1, 2, 3, 4, 0, 0, 0⟩, by decide +kernel⟩⟩

/-- The hypotheses of ElectionOfTheGroupMaster can be met, part 2. -/
theorem witness_ElectionOfTheGroupMaster_2 :
    (∃ (a b : Agree) (l : List Agree), b ∈ l ∧ b.src ≠ a.src) ∧
    (∃ (a x : Agree) (l : List Agree), (l.Pairwise (fun y z => y.src < z.src)) ∧ (insertAgree a l).head? = some x) ∧
    (∃ (s : State) (side : Side) (hd : FrameHead) (a : AgreePay), (portAt s side).up = true ∧ portActive s side = true ∧ frameGood hd = true ∧ hd.pv = 1 ∧ idNone hd.src = false ∧ isOwn s hd.src = true ∧ s.star.groupMaster = true ∧ a.nonce = s.star.nonce) ∧
    (∃ (s : State) (side : Side) (hd : FrameHead) (a : AgreePay) (y : Agree), (portAt s side).up = true ∧ portActive s side = true ∧ frameGood hd = true ∧ hd.pv ≠ 1 ∧ idNone hd.src = false ∧ isOwn s hd.src = false ∧ followed s = some y ∧ hd.src.toNat % 4096 < y.src) ∧
    (∃ (s : State) (side : Side) (hd : FrameHead) (a : AgreePay), (portAt s side).up = true ∧ portActive s side = true ∧ frameGood hd = true ∧ hd.pv ≠ 1 ∧ ((followed s).all (fun y => decide (y.src ≤ hd.src.toNat % 4096)) = true)) ∧
    (∃ (s : State), hasIdentity s = true ∧ s.star.groupMaster = false) :=
  ⟨⟨Agree.reset, { Agree.reset with src := 3 }, [{ Agree.reset with src := 3 }], by decide +kernel⟩,
    ⟨Agree.reset, Agree.reset, [{ Agree.reset with src := 3 }], by decide +kernel⟩,
    ⟨wMaster, .west, ⟨true, true, 1, 9, 5⟩, ⟨0, 2, 3, 4, 0, 0, 0⟩, by decide +kernel⟩,
    ⟨wHeard, .west, ⟨true, true, 2, 1, 0⟩, ⟨0, 2, 3, 4, 0, 0, 0⟩, { Agree.reset with src := 3 }, by decide +kernel⟩,
    ⟨wHeard, .west, ⟨true, true, 2, 5, 0⟩, ⟨0, 2, 3, 4, 0, 0, 0⟩, by decide +kernel⟩,
    ⟨wClaim, by decide +kernel⟩⟩

/-- The hypotheses of ElectionOfTheGroupMaster can be met, part 3. -/
theorem witness_ElectionOfTheGroupMaster_3 :
    (∃ (s : State), s.star.claiming = true ∧ mayClaim s = true) ∧
    (∃ (s : State) (bar h : Nat), holderOf s bar = some (some h) ∧ ((allMembers s).any (fun m => isCandidate bar m && m.id == h) = true)) ∧
    (∃ (s : State) (bar : Nat), (holderOf s bar).getD none = none) ∧
    (∃ (l : List Member) (m x : Member), bestOf l = some m ∧ x ∈ l) ∧
    (∃ (s : State) (side : Side) (hd : FrameHead) (m : MemberPay), (portAt s side).up = true ∧ portActive s side = true ∧ frameGood hd = true ∧ hd.pv = 1 ∧ idNone hd.src = false ∧ isOwn s hd.src = false) ∧
    (∃ (s : State) (side : Side) (hd : FrameHead) (m : MemberPay), (portAt s side).up = true ∧ portActive s side = true ∧ frameGood hd = true ∧ (hd.pv ≠ 1 ∨ idNone hd.src = true ∨ (isOwn s hd.src = true ∧ m.nonce = s.star.nonce))) :=
  ⟨⟨wClaim, by decide +kernel⟩,
    ⟨{ wMaster with img := wImg [wItem Fld.encElig [] 1], star := { wMaster.star with holders := [(0, some 0)] } }, 0, 0, by decide +kernel⟩,
    ⟨wRoles, 0, by decide +kernel⟩,
    ⟨[{ Member.reset with id := 4 }, Member.reset], Member.reset, { Member.reset with id := 4 }, by decide +kernel⟩,
    ⟨wStar id, .west, ⟨true, true, 1, 3, 0⟩, ⟨1, 3, 0, 1, 0, 0, 0, 0, 0⟩, by decide +kernel⟩,
    ⟨wStar id, .west, ⟨true, true, 1, 0, 0⟩, ⟨0, 3, 0, 1, 0, 0, 0, 0, 0⟩, by decide +kernel⟩⟩

/-- The hypotheses of ElectionOfTheGroupMaster can be met, part 4. -/
theorem witness_ElectionOfTheGroupMaster_4 :
    (∃ (s : State) (side : Side) (hd : FrameHead) (n e : BitVec 32), (portAt s side).up = true ∧ portActive s side = true ∧ frameGood hd = true ∧ (hd.pv ≠ 1 ∨ idNone hd.src = true ∨ (isOwn s hd.src = true ∧ n = s.star.nonce))) ∧
    (∃ (s : State) (side : Side) (hd : FrameHead) (port : Side) (subj : BitVec 16), (portAt s side).up = true ∧ portActive s side = true ∧ frameGood hd = true ∧ idNone hd.src = false ∧ isOwn s hd.src = false) ∧
    (∃ (s : State) (side : Side) (hd : FrameHead) (k : StarEvent) (port : Side) (subj : BitVec 16), (portAt s side).up = true ∧ portActive s side = true ∧ frameGood hd = true ∧ (idNone hd.src = true ∨ isOwn s hd.src = true)) :=
  ⟨⟨wStar id, .west, ⟨true, true, 1, 0, 0⟩, 0, 9, by decide +kernel⟩,
    ⟨wStar id, .west, ⟨true, true, 1, 3, 0⟩, .east, 7, by decide +kernel⟩,
    ⟨wStar id, .west, ⟨true, true, 1, 0, 0⟩, .brk, .east, 7, by decide +kernel⟩⟩

/-- The hypotheses of RolesTicksAndHandover can be met, part 1. -/
theorem witness_RolesTicksAndHandover_1 :
    (∃ (s : State), s.star.groupMaster = true ∧ mayHold s = true ∧ s.star.holders = [(ownBar s, none)] ∧ ((knownBars s).all (fun b => holderOf s b == some (grantOf s b)) = true)) ∧
    (∃ (s : State), s.star.groupMaster = true ∧ mayHold s = true) ∧
    (∃ (s : State) (side : Side) (hd : FrameHead) (e : BitVec 32) (bar holder : BitVec 16) (a : Agree), (portAt s side).up = true ∧ portActive s side = true ∧ frameGood hd = true ∧ hd.pv = 1 ∧ idNone hd.src = false ∧ isOwn s hd.src = false ∧ followed s = some a ∧ a.src = hd.src.toNat % 4096 ∧ bar.toNat % 4096 = ownBar s ∧ mayHold s = true ∧ idNone holder = false ∧ holder.toNat % 4096 = ownId s ∧ s.star.encMaster = false ∧ s.star.granted = false ∧ s.star.dupId = false) ∧
    (∃ (s : State) (side : Side) (hd : FrameHead) (e : BitVec 32) (bar holder : BitVec 16) (a : Agree), (portAt s side).up = true ∧ portActive s side = true ∧ frameGood hd = true ∧ hd.pv = 1 ∧ idNone hd.src = false ∧ isOwn s hd.src = false ∧ followed s = some a ∧ a.src = hd.src.toNat % 4096 ∧ bar.toNat % 4096 = ownBar s ∧ mayHold s = true ∧ idNone holder = false ∧ holder.toNat % 4096 = ownId s ∧ (s.star.encMaster = true ∨ s.star.granted = true ∨ s.star.dupId = true)) ∧
    (∃ (s : State) (side : Side) (hd : FrameHead) (e : BitVec 32) (bar holder : BitVec 16) (a : Agree), (portAt s side).up = true ∧ portActive s side = true ∧ frameGood hd = true ∧ hd.pv = 1 ∧ idNone hd.src = false ∧ isOwn s hd.src = false ∧ followed s = some a ∧ a.src = hd.src.toNat % 4096 ∧ bar.toNat % 4096 = ownBar s ∧ mayHold s = true ∧ (idNone holder = true ∨ holder.toNat % 4096 ≠ ownId s)) ∧
    (∃ (s : State) (side : Side) (hd : FrameHead) (e : BitVec 32) (bar holder : BitVec 16) (a : Agree), (portAt s side).up = true ∧ portActive s side = true ∧ frameGood hd = true ∧ hd.pv = 1 ∧ idNone hd.src = false ∧ isOwn s hd.src = false ∧ followed s = some a ∧ a.src = hd.src.toNat % 4096 ∧ (bar.toNat % 4096 ≠ ownBar s ∨ mayHold s = false)) :=
  ⟨⟨wRoles, by decide +kernel⟩,
    ⟨wMaster, by decide +kernel⟩,
    ⟨wHeard, .west, ⟨true, true, 1, 3, 0⟩, 1, 0, 0, { Agree.reset with src := 3 }, by decide +kernel⟩,
    ⟨wStar (fun x => { x with heard := [{ Agree.reset with src := 3 }], encMaster := true, handover := true }), .west, ⟨true, true, 1, 3, 0⟩, 1, 0, 0, { Agree.reset with src := 3 }, by decide +kernel⟩,
    ⟨wHeard, .west, ⟨true, true, 1, 3, 0⟩, 1, 0, 6, { Agree.reset with src := 3 }, by decide +kernel⟩,
    ⟨wHeard, .west, ⟨true, true, 1, 3, 0⟩, 1, 5, 6, { Agree.reset with src := 3 }, by decide +kernel⟩⟩

/-- The hypotheses of RolesTicksAndHandover can be met, part 2. -/
theorem witness_RolesTicksAndHandover_2 :
    (∃ (s : State) (side : Side) (hd : FrameHead) (e : BitVec 32) (bar holder : BitVec 16), (portAt s side).up = true ∧ portActive s side = true ∧ frameGood hd = true ∧ hd.pv = 1 ∧ idNone hd.src = false ∧ isOwn s hd.src = false ∧ ((followed s).all (fun a => a.src != hd.src.toNat % 4096) = true)) ∧
    (∃ (s : State) (side : Side) (hd : FrameHead) (e : BitVec 32) (bar holder : BitVec 16), (portAt s side).up = true ∧ portActive s side = true ∧ frameGood hd = true ∧ (hd.pv ≠ 1 ∨ idNone hd.src = true ∨ isOwn s hd.src = true)) ∧
    (∃ (s : State) (n : Nat), s.star.granted = true ∧ s.star.await = .tick ∧ s.star.lastTick = some n) ∧
    (∃ (s : State), s.star.granted = true ∧ s.star.await = .tick ∧ s.star.lastTick = none) ∧
    (∃ (s : State), s.star.granted = true ∧ s.star.await = .member) ∧
    (∃ (s : State) (side : Side) (t : TickFrame), (portAt s side).up = true ∧ portActive s side = false ∧ (portAt s (otherSide side)).up = true) :=
  ⟨⟨wStar id, .west, ⟨true, true, 1, 3, 0⟩, 1, 0, 6, by decide +kernel⟩,
    ⟨wStar id, .west, ⟨true, true, 1, 0, 0⟩, 1, 0, 6, by decide +kernel⟩,
    ⟨wStar (fun x => { x with granted := true, await := .tick, lastTick := some 4 }), 4, by decide +kernel⟩,
    ⟨wStar (fun x => { x with granted := true, await := .tick }), by decide +kernel⟩,
    ⟨wStar (fun x => { x with granted := true, await := .member, bestLast := some 4 }), by decide +kernel⟩,
    ⟨wStar (fun x => { x with port := x.port.map fun p => { p with passive := true } }), .west, wTick, by decide +kernel⟩⟩

/-- The hypotheses of RolesTicksAndHandover can be met, part 3. -/
theorem witness_RolesTicksAndHandover_3 :
    (∃ (s : State) (side : Side) (t : TickFrame) (d : Bool), (portAt s side).up = true ∧ portActive s side = true ∧ tickOut side t s = some d ∧ (portAt s (otherSide side)).up = true) ∧
    (∃ (s : State) (side : Side) (t : TickFrame), (portAt s side).up = true ∧ t.crcOk = true ∧ portActive s side = true ∧ tickOut side t s = none ∧ t.eof = true ∧ t.bar.toNat = ownBar s ∧ mayHold s = true ∧ s.star.encMaster = false ∧ ((lastTaken s).all (fun n => linePast t.line.toNat n && t.line.toNat != n) = true) ∧ (t.handover = false ∨ s.star.granted = false) ∧ t.detour = false) ∧
    (∃ (s : State) (side : Side) (t : TickFrame), (portAt s side).up = true ∧ t.crcOk = true ∧ portActive s side = true ∧ tickOut side t s = none ∧ t.eof = true ∧ t.bar.toNat = ownBar s ∧ mayHold s = true ∧ s.star.encMaster = false ∧ ((lastTaken s).all (fun n => linePast t.line.toNat n && t.line.toNat != n) = true) ∧ t.handover = true ∧ s.star.granted = true) ∧
    (∃ (s : State) (side : Side) (t : TickFrame) (n : Nat), (portAt s side).up = true ∧ t.crcOk = true ∧ portActive s side = true ∧ tickOut side t s = none ∧ (s.star.encMaster = true ∨ lastTaken s = some n) ∧ (lastTaken s = some n → linePast t.line.toNat n = false ∨ t.line.toNat = n)) ∧
    (∃ (s : State) (side : Side) (t : TickFrame), (portAt s side).up = true ∧ t.crcOk = true ∧ portActive s side = true ∧ tickOut side t s = none ∧ (t.eof = false ∨ t.bar.toNat ≠ ownBar s ∨ mayHold s = false)) ∧
    (∃ (s : State) (side : Side) (t : TickFrame), (portAt s side).up = true ∧ t.crcOk = false ∧ portActive s side = true) :=
  ⟨⟨wStar id, .west, { wTick with detour := true }, true, by decide +kernel⟩,
    ⟨wStar id, .west, wTick, by decide +kernel⟩,
    ⟨wStar (fun x => { x with granted := true, await := .tick }), .west, { wTick with handover := true }, by decide +kernel⟩,
    ⟨{ wStar id with lt := { Lt.reset with anyLine := true } }, .west, wTick, 0, by decide +kernel⟩,
    ⟨wStar id, .west, { wTick with bar := 5 }, by decide +kernel⟩,
    ⟨wStar id, .west, { wTick with crcOk := false }, by decide +kernel⟩⟩

/-- The hypotheses of RolesTicksAndHandover can be met, part 4. -/
theorem witness_RolesTicksAndHandover_4 :
    ∃ (s : State) (side : Side) (t : TickFrame), (portAt s side).up = false ∧ (t.crcOk = true ∨ portActive s side = false) :=
  ⟨wRun, .west, wTick, by decide +kernel⟩

/-- The hypotheses of ScanChecksReferenceAndInjection can be met, part 1. -/
theorem witness_ScanChecksReferenceAndInjection_1 :
    (∃ (s : State) (raw : Int) (n : Nat), s.hkc.scanOn = true ∧ s.hkc.roleP ≠ 3 ∧ s.hkc.refEn = true ∧ nextEnabled s.hkc.scanMask (31 - s.hkc.nextChan) (s.hkc.nextChan + 1) = some n) ∧
    (∃ (s : State) (raw : Int), s.hkc.scanOn = true ∧ s.hkc.roleP ≠ 3 ∧ s.hkc.refEn = true ∧ nextEnabled s.hkc.scanMask (31 - s.hkc.nextChan) (s.hkc.nextChan + 1) = none) ∧
    (∃ (s : State) (raw : Int), (s.hkc.scanOn = false ∨ s.hkc.roleP = 3 ∨ s.hkc.refEn = false)) ∧
    (∃ (x : Slice) (raw : Int) (diff : Bool), x.offset = 0 ∧ x.gain = 0) ∧
    (∃ (s : State), (s.hkc.data.valid = false ∨ s.sys.supResetting = true ∨ s.sys.supHalted = true)) ∧
    (∃ (s : State), s.hkc.data.valid = true ∧ s.sys.supResetting = false ∧ s.sys.supHalted = false ∧ (s.hkc.data.chan < 12 ∨ 27 < s.hkc.data.chan ∨ (s.hkc.data.inj = true ∧ 20 < s.hkc.data.chan))) :=
  ⟨⟨wHkc (fun h => { h with nextChan := 13 }), 2000, 14, by decide +kernel⟩,
    ⟨wHkc (fun h => { h with nextChan := 27 }), 2000, by decide +kernel⟩,
    ⟨State.reset, 2000, by decide +kernel⟩,
    ⟨Slice.reset, 5, true, by decide +kernel⟩,
    ⟨wHkc id, by decide +kernel⟩,
    ⟨wHkc (fun h => { h with data := { HkcData.reset with valid := true, chan := 3 } }), by decide +kernel⟩⟩

/-- The hypotheses of ScanChecksReferenceAndInjection can be met, part 2. -/
theorem witness_ScanChecksReferenceAndInjection_2 :
    (∃ (s : State) (i : Fin 8), s.hkc.data.valid = true ∧ s.sys.supResetting = false ∧ s.sys.supHalted = false ∧ s.hkc.data.chan = 13 + i.val ∧ (s.hkc.data.unsettled = true ∨ railOn i s = false)) ∧
    (∃ (s : State) (i : Fin 8), s.hkc.data.valid = true ∧ s.sys.supResetting = false ∧ s.sys.supHalted = false ∧ s.hkc.data.chan = 13 + i.val ∧ s.hkc.data.unsettled = false ∧ railOn i s = true ∧ (2 * s.hkc.data.result.toNat * vref s ≤ s.img.nat Fld.railLo [i.val] * 4096 ∨ s.img.nat Fld.railHi [i.val] * 4096 ≤ 2 * s.hkc.data.result.toNat * vref s)) ∧
    (∃ (s : State) (i : Fin 8), s.hkc.data.valid = true ∧ s.sys.supResetting = false ∧ s.sys.supHalted = false ∧ s.hkc.data.chan = 13 + i.val ∧ s.hkc.data.unsettled = false ∧ railOn i s = true ∧ s.img.nat Fld.railLo [i.val] * 4096 < 2 * s.hkc.data.result.toNat * vref s ∧ 2 * s.hkc.data.result.toNat * vref s < s.img.nat Fld.railHi [i.val] * 4096) ∧
    (∃ (s : State), s.hkc.data.valid = true ∧ s.sys.supResetting = false ∧ s.sys.supHalted = false ∧ s.hkc.data.chan = 12) ∧
    (∃ (s : State), s.hkc.data.valid = true ∧ s.sys.supResetting = false ∧ s.sys.supHalted = false ∧ s.hkc.data.chan = 27 ∧ s.hkc.data.inj = false) ∧
    (∃ (s : State) (j : Fin 6), s.hkc.data.valid = true ∧ s.sys.supResetting = false ∧ s.sys.supHalted = false ∧ s.hkc.data.chan = 21 + j.val ∧ s.hkc.data.inj = false) :=
  ⟨⟨wHkc (fun h => { h with data := { HkcData.reset with valid := true, chan := 14, unsettled := true } }), 1, by decide +kernel⟩,
    ⟨wHkc (fun h => { h with data := { HkcData.reset with valid := true, chan := 14 } }), 1, by decide +kernel⟩,
    ⟨wRailIn, 0, by decide +kernel⟩,
    ⟨wHkc (fun h => { h with settled := true, refFail := true, refInRun := 15, data := { HkcData.reset with valid := true, chan := 12, result := 2400 } }), by decide +kernel⟩,
    ⟨wHkc (fun h => { h with data := { HkcData.reset with valid := true, chan := 27, result := -9 } }), by decide +kernel⟩,
    ⟨wHkc (fun h => { h with data := { HkcData.reset with valid := true, chan := 22, result := 1000 } }), 1, by decide +kernel⟩⟩

/-- The hypotheses of ScanChecksReferenceAndInjection can be met, part 3. -/
theorem witness_ScanChecksReferenceAndInjection_3 :
    (∃ (s : State), s.hkc.data.valid = true ∧ s.sys.supResetting = false ∧ s.sys.supHalted = false ∧ s.hkc.data.chan = 26 ∧ s.hkc.data.inj = false) ∧
    (∃ (s : State) (i : Fin 8), 16 ≤ s.hkc.rail[i].outRun ∧ s.hkc.rail[i].out = false) ∧
    (∃ (s : State) (j : Fin 6), 16 ≤ s.hkc.temp[j].devRun ∧ s.hkc.temp[j].excluded = false) ∧
    (∃ (s : State), 16 ≤ s.hkc.refOutRun ∧ s.hkc.refFail = false) ∧
    (∃ (s : State), s.hkc.refEn = true) ∧
    (∃ (s : State), s.lt.injWait = true) :=
  ⟨⟨wHkc (fun h => { h with data := { HkcData.reset with valid := true, chan := 26, result := 1400 } }), by decide +kernel⟩,
    ⟨wHkc (fun h => { h with rail := Vector.replicate 8 { RailMon.reset with outRun := 16 } }), 7, by decide +kernel⟩,
    ⟨wHkc (fun h => { h with temp := Vector.replicate 6 { TempMon.reset with devRun := 16 } }), 5, by decide +kernel⟩,
    ⟨wHkc (fun h => { h with refOutRun := 16 }), by decide +kernel⟩,
    ⟨State.reset, by decide +kernel⟩,
    ⟨{ State.reset with lt := { Lt.reset with injWait := true } }, by decide +kernel⟩⟩

/-- The hypotheses of ScanChecksReferenceAndInjection can be met, part 4. -/
theorem witness_ScanChecksReferenceAndInjection_4 :
    (∃ (s : State), s.hkc.pinReq = true) ∧
    (∃ (s : State) (raw : Int) (n : Nat), s.hkc.injPending = some n ∧ s.hkc.scanOn = true ∧ s.hkc.roleP ≠ 3) ∧
    (∃ (s : State) (codes : List Int), s.hkc.sleepScan = true ∧ codes.length = 6) :=
  ⟨⟨wHkc (fun h => { h with pinReq := true }), by decide +kernel⟩,
    ⟨wHkc (fun h => { h with injPending := some 3 }), 100, 3, by decide +kernel⟩,
    ⟨wHkc (fun h => { h with sleepScan := true }), [1, 2, 3, 4, 5, 6], by decide +kernel⟩⟩

/-- The hypotheses of SlicesAndStrobeIntegrator can be met, part 1. -/
theorem witness_SlicesAndStrobeIntegrator_1 :
    (∃ (s : State) (c : CalRes), (reinitBusy .hkc s = true ∨ s.hkc.sleepScan = true ∨ s.hkc.refEn = false)) ∧
    (∃ (s : State) (c : CalRes), reinitBusy .hkc s = false ∧ s.hkc.sleepScan = false ∧ s.hkc.refEn = true ∧ s.hkc.calDone < 2 ∧ calPasses c = true) ∧
    (∃ (s : State) (c : CalRes), reinitBusy .hkc s = false ∧ s.hkc.sleepScan = false ∧ s.hkc.refEn = true ∧ s.hkc.calDone < 2 ∧ calPasses c = false) ∧
    (∃ (s : State) (c : CalRes), reinitBusy .hkc s = false ∧ s.hkc.sleepScan = false ∧ s.hkc.refEn = true ∧ s.hkc.calDone = 2) ∧
    (∃ (s : State) (c : CalRes) (k : Nat), reinitBusy .hkc s = false ∧ s.hkc.sleepScan = false ∧ s.hkc.refEn = true ∧ 3 ≤ s.hkc.calDone ∧ (k = if s.hkc.roleC = 3 then s.hkc.roleP else s.hkc.roleC) ∧ (k = 3 ∨ (s.hkc.roleC ≠ 3 ∧ (sliceAt s k).calibrated = true))) ∧
    (∃ (s : State) (c : CalRes) (k : Nat), reinitBusy .hkc s = false ∧ s.hkc.sleepScan = false ∧ s.hkc.refEn = true ∧ 3 ≤ s.hkc.calDone ∧ (k = if s.hkc.roleC = 3 then s.hkc.roleP else s.hkc.roleC) ∧ k ≠ 3 ∧ (s.hkc.roleC = 3 ∨ (sliceAt s k).calibrated = false) ∧ calPasses c = true) :=
  ⟨⟨wHkc (fun h => { h with sleepScan := true }), ⟨0, 0, 0, 1, 2, 3, true⟩, by decide +kernel⟩,
    ⟨State.reset, ⟨0, 0, 0, 1, 2, 3, true⟩, by decide +kernel⟩,
    ⟨State.reset, ⟨33, 0, 0, 1, 2, 3, true⟩, by decide +kernel⟩,
    ⟨wHkc (fun h => { h with calDone := 2 }), ⟨0, 0, 0, 1, 2, 3, true⟩, by decide +kernel⟩,
    ⟨wHkc (fun h => { h with calDone := 3, roleP := 3 }), ⟨0, 0, 0, 1, 2, 3, true⟩, 3, by decide +kernel⟩,
    ⟨wHkc (fun h => { h with calDone := 3, roleC := 2 }), ⟨0, 0, 0, 1, 2, 3, true⟩, 2, by decide +kernel⟩⟩

/-- The hypotheses of SlicesAndStrobeIntegrator can be met, part 2. -/
theorem witness_SlicesAndStrobeIntegrator_2 :
    (∃ (s : State) (c : CalRes) (k : Nat), reinitBusy .hkc s = false ∧ s.hkc.sleepScan = false ∧ s.hkc.refEn = true ∧ 3 ≤ s.hkc.calDone ∧ (k = if s.hkc.roleC = 3 then s.hkc.roleP else s.hkc.roleC) ∧ k ≠ 3 ∧ (s.hkc.roleC = 3 ∨ (sliceAt s k).calibrated = false) ∧ calPasses c = false) ∧
    (∃ (s : State), s.hkc.scanOn = true ∧ s.hkc.roleC ≠ 3) ∧
    (∃ (s : State), (s.hkc.scanOn = false ∨ s.hkc.roleC = 3)) ∧
    (∃ (s : State), (s.hkc.rotDue = false ∨ s.hkc.window.isSome = true)) ∧
    (∃ (s : State), s.hkc.rotDue = true ∧ s.hkc.window = none ∧ s.hkc.roleC = 3) ∧
    (∃ (s : State), s.hkc.rotDue = true ∧ s.hkc.window = none ∧ s.hkc.roleC ≠ 3 ∧ (sliceAt s s.hkc.roleC).calibrated = true) :=
  ⟨⟨wHkc (fun h => { h with calDone := 3, roleC := 2 }), ⟨0, 0, 51, 1, 2, 3, true⟩, 2, by decide +kernel⟩,
    ⟨wHkc (fun h => { h with roleC := 2 }), by decide +kernel⟩,
    ⟨State.reset, by decide +kernel⟩,
    ⟨State.reset, by decide +kernel⟩,
    ⟨wHkc (fun h => { h with rotDue := true }), by decide +kernel⟩,
    ⟨wHkc (fun h => { h with rotDue := true, roleP := 0, roleQ := 1, roleC := 2, slice := Vector.replicate 3 { Slice.reset with calibrated := true } }), by decide +kernel⟩⟩

/-- The hypotheses of SlicesAndStrobeIntegrator can be met, part 3. -/
theorem witness_SlicesAndStrobeIntegrator_3 :
    (∃ (s : State), s.hkc.rotDue = true ∧ s.hkc.window = none ∧ s.hkc.roleC ≠ 3 ∧ (sliceAt s s.hkc.roleC).calibrated = false) ∧
    (∃ (s : State), 16 ≤ s.hkc.gndRun ∧ s.hkc.roleP ≠ 3) ∧
    (∃ (s : State), (s.hkc.gndRun < 16 ∨ s.hkc.roleP = 3)) ∧
    (∃ (s : State) (k : Fin 4), measuredSlot s s.lt.line = some k ∧ s.hkc.integOn = true ∧ s.hkc.integEn = true ∧ inState [.commit, .run, .repair] s = true ∧ s.lt.stb.getLsbD k.val = true ∧ s.hkc.window = none) ∧
    (∃ (s : State), (measuredSlot s s.lt.line = none ∨ s.hkc.integOn = false ∨ s.hkc.integEn = false ∨ inState [.commit, .run, .repair] s = false ∨ s.hkc.window.isSome = true)) ∧
    (∃ (s : State) (k : Fin 4), measuredSlot s s.lt.line = some k ∧ s.lt.stb.getLsbD k.val = false) :=
  ⟨⟨wHkc (fun h => { h with rotDue := true, roleP := 0, roleQ := 1, roleC := 2 }), by decide +kernel⟩,
    ⟨wHkc (fun h => { h with gndRun := 16, roleP := 0, roleQ := 1, roleC := 2 }), by decide +kernel⟩,
    ⟨State.reset, by decide +kernel⟩,
    ⟨wInteg none, 2, by decide +kernel⟩,
    ⟨State.reset, by decide +kernel⟩,
    ⟨{ wInteg none with lt := Lt.reset }, 2, by decide +kernel⟩⟩

/-- The hypotheses of SlicesAndStrobeIntegrator can be met, part 4. -/
theorem witness_SlicesAndStrobeIntegrator_4 :
    (∃ (s : State) (samples : List (Nat × Int)) (close : Nat), s.hkc.window = none) ∧
    (∃ (s : State) (close : Nat), s.hkc.window.isSome = true) ∧
    (∃ (s : State) (k : Fin 4) (start close : Nat) (samples : List (Nat × Int)) (e : Int), s.hkc.window = some (k.val, start) ∧ samples ≠ [] ∧ (e = energyOf close start (samples.map fun x => (x.1, hkcResult (tapSlice s start x.1) true x.2))) ∧ refReady s = false) ∧
    (∃ (s : State) (k : Fin 4) (start close : Nat) (samples : List (Nat × Int)) (e : Int), s.hkc.window = some (k.val, start) ∧ samples ≠ [] ∧ (e = energyOf close start (samples.map fun x => (x.1, hkcResult (tapSlice s start x.1) true x.2))) ∧ refReady s = true ∧ (e ≤ s.img.int Fld.eLo [k.val] ∨ s.img.int Fld.eHi [k.val] ≤ e)) ∧
    (∃ (s : State) (k : Fin 4) (start close : Nat) (samples : List (Nat × Int)) (e : Int), s.hkc.window = some (k.val, start) ∧ samples ≠ [] ∧ (e = energyOf close start (samples.map fun x => (x.1, hkcResult (tapSlice s start x.1) true x.2))) ∧ refReady s = true ∧ s.img.int Fld.eLo [k.val] < e ∧ e < s.img.int Fld.eHi [k.val]) ∧
    (∃ (s : State) (k : Fin 4) (start close : Nat) (samples : List (Nat × Int)) (e : Int), s.hkc.window = some (k.val, start) ∧ samples ≠ [] ∧ (e = energyOf close start (samples.map fun x => (x.1, hkcResult (tapSlice s start x.1) true x.2))) ∧ refReady s = true) :=
  ⟨⟨wInteg none, [(0, 100)], 40, by decide +kernel⟩,
    ⟨wInteg (some (2, 0)), 40, by decide +kernel⟩,
    ⟨{ wInteg (some (2, 0)) with hkc := { (wInteg (some (2, 0))).hkc with settled := false } }, 2, 0, 40, [(0, 100), (20, 50)], 15000, by decide +kernel⟩,
    ⟨wInteg (some (2, 0)), 2, 0, 40, [(0, 100), (20, 50)], 15000, by decide +kernel⟩,
    ⟨wIntegIn, 2, 0, 40, [(0, 100), (20, 50)], 15000, by decide +kernel⟩,
    ⟨wIntegIn, 2, 0, 40, [(0, 100), (20, 50)], 15000, by decide +kernel⟩⟩

/-- The hypotheses of SlicesAndStrobeIntegrator can be met, part 5. -/
theorem witness_SlicesAndStrobeIntegrator_5 :
    (∃ (s : State) (k : Fin 4), 4 ≤ s.hkc.slot[k].outRun ∧ s.hkc.slot[k].out = false) ∧
    (∃ (s : State) (k : Fin 4), (s.hkc.slot[k].outRun < 4 ∨ s.hkc.slot[k].out = true)) ∧
    (∃ (s : State) (k : Fin 4), 4 ≤ s.hkc.slot[k].satRun ∧ s.hkc.slot[k].sat = false) ∧
    (∃ (s : State) (k : Fin 4), (s.hkc.slot[k].satRun < 4 ∨ s.hkc.slot[k].sat = true)) :=
  ⟨⟨wHkc (fun h => { h with slot := Vector.replicate 4 { SlotMon.reset with outRun := 4 } }), 3, by decide +kernel⟩,
    ⟨State.reset, 3, by decide +kernel⟩,
    ⟨wHkc (fun h => { h with slot := Vector.replicate 4 { SlotMon.reset with satRun := 4 } }), 3, by decide +kernel⟩,
    ⟨State.reset, 3, by decide +kernel⟩⟩

/-- The hypotheses of PinOwnersWriteTheirPins can be met, part 1. -/
theorem witness_PinOwnersWriteTheirPins_1 :
    (∃ (s : State) (who : Agent) (p : Fin 48) (v : BitVec 32), mayWrite who s.gpio.pin[p] = true) ∧
    (∃ (s : State) (who : Agent) (p : Fin 48) (v : BitVec 32), s.gpio.pin[p].owner ≠ agentCode who ∧ cfgPin v.toNat s.gpio.pin[p] ≠ s.gpio.pin[p]) ∧
    (∃ (s : State) (who : Agent) (p : Fin 48) (v : BitVec 32), mayWrite who s.gpio.pin[p] = false ∧ (s.gpio.pin[p].owner = agentCode who ∨ cfgPin v.toNat s.gpio.pin[p] = s.gpio.pin[p])) ∧
    (∃ (s : State) (who : Agent) (b : Fin 2) (v : BitVec 24) (l : List (Fin 24)), (l = (List.finRange 24).filter fun i => decide (s.gpio.pin[bankPin b i].data ≠ v.getLsbD i.val) && decide (s.gpio.pin[bankPin b i].owner ≠ agentCode who))) ∧
    (∃ (s : State) (who : Agent) (b : Fin 2) (v : BitVec 24) (l : List (Fin 24)), (l = (List.finRange 24).filter fun i => decide (v.getLsbD i.val = true) && decide (s.gpio.pin[bankPin b i].owner ≠ agentCode who))) ∧
    (∃ (s : State) (who : Agent) (b : Fin 2) (v : BitVec 24) (l : List (Fin 24)), (l = (List.finRange 24).filter fun i => decide (v.getLsbD i.val = true) && decide (s.gpio.pin[bankPin b i].owner ≠ agentCode who))) :=
  ⟨⟨wGpio id, .sup, 47, 0xFFFFFFFF, by decide +kernel⟩,
    ⟨wGpio id, .mnt, 0, 0xFFFFFFFF, by decide +kernel⟩,
    ⟨State.reset, .sec, 0, 0xFFFFFFFF, by decide +kernel⟩,
    ⟨wGpio id, .sup, 1, 5, [], by decide +kernel⟩,
    ⟨wGpio id, .sup, 1, 5, [], by decide +kernel⟩,
    ⟨wGpio id, .sup, 1, 5, [], by decide +kernel⟩⟩

/-- The hypotheses of PinOwnersWriteTheirPins can be met, part 2. -/
theorem witness_PinOwnersWriteTheirPins_2 :
    (∃ (s : State) (who : Agent) (b : Fin 2) (v : BitVec 24) (l : List (Fin 24)), (l = (List.finRange 24).filter fun i => decide (v.getLsbD i.val = true) && decide (s.gpio.pin[bankPin b i].owner ≠ agentCode who))) ∧
    (∃ (s : State) (p : Fin 48), s.gpio.active = true ∧ s.gpio.pin[p].owner = 1 ∧ s.gpio.pin[p].mux = 0 ∧ s.gpio.pin[p].oe = true ∧ s.sys.supResetting = false ∧ s.sys.supHalted = false) ∧
    (∃ (s : State) (p : Fin 48), (s.gpio.active = false ∨ s.gpio.pin[p].owner ≠ 1 ∨ s.gpio.pin[p].mux ≠ 0 ∨ s.gpio.pin[p].oe = false ∨ s.sys.supResetting = true ∨ s.sys.supHalted = true)) :=
  ⟨⟨wGpio id, .sup, 1, 5, [], by decide +kernel⟩,
    ⟨wGpio (fun x => { x with oe := true }), 0, by decide +kernel⟩,
    ⟨State.reset, 0, by decide +kernel⟩⟩

/-- The hypotheses of PortsInterruptsAndBoundary can be met, part 1. -/
theorem witness_PortsInterruptsAndBoundary_1 :
    (∃ (s : State) (k : Fin 16), s.gpio.evp[k].held = []) ∧
    (∃ (s : State) (k : Fin 16) (n : Nat) (rest : List Nat), s.gpio.evp[k].held = n :: rest ∧ (live s = false ∨ s.lt.anyLine = false ∨ linePast s.lt.line n = false)) ∧
    (∃ (s : State) (k : Fin 16) (n : Nat) (rest : List Nat), s.gpio.evp[k].held = n :: rest ∧ live s = true ∧ s.lt.anyLine = true ∧ linePast s.lt.line n = true ∧ (s.img.nat Fld.evpMode [k.val] = 0 ∨ s.gpio.evpOn = false)) ∧
    (∃ (s : State) (k : Fin 16) (n : Nat) (rest : List Nat), s.gpio.evp[k].held = n :: rest ∧ live s = true ∧ s.lt.anyLine = true ∧ linePast s.lt.line n = true ∧ s.img.nat Fld.evpMode [k.val] = 1 ∧ s.gpio.evpOn = true) ∧
    (∃ (s : State) (k : Fin 16) (n : Nat) (rest : List Nat) (m : Nat) (base : Pin → Pin), s.gpio.evp[k].held = n :: rest ∧ live s = true ∧ s.lt.anyLine = true ∧ linePast s.lt.line n = true ∧ m = s.img.nat Fld.evpMode [k.val] ∧ 2 ≤ m ∧ s.gpio.evpOn = true ∧ (base = if s.gpio.tie = some (true, s.lt.line) then id else fun x => { x with tieBase := x.data, tieSet := false, tieClr := false, tieOdd := false })) ∧
    (∃ (x : Pin), x.tieSet = false ∧ x.tieClr = false ∧ x.tieOdd = false ∧ x.tieBase = x.data) :=
  ⟨⟨State.reset, 0, by decide +kernel⟩,
    ⟨{ wEvp with lt := Lt.reset }, 0, 0, [], by decide +kernel⟩,
    ⟨{ wEvp with img := wImg [] }, 0, 0, [], by decide +kernel⟩,
    ⟨wEvp, 0, 0, [], by decide +kernel⟩,
    ⟨{ wEvp with img := wImg [wItem Fld.evpMode [0] 2, wItem Fld.evpPins [0] 1] }, 0, 0, [], 2, _, by decide +kernel, by decide +kernel, by decide +kernel, by decide +kernel, by decide +kernel, by decide, by decide +kernel, rfl⟩,
    ⟨Pin.reset, by decide +kernel⟩⟩

/-- The hypotheses of PortsInterruptsAndBoundary can be met, part 2. -/
theorem witness_PortsInterruptsAndBoundary_2 :
    (∃ (s : State) (k : Fin 16), s.gpio.evp[k].active = true ∧ (s.img.on Fld.evpWunit [k.val] = false ∨ s.lt.stopped = true ∨ linePast s.lt.line (lineAdd s.gpio.evp[k].startLine (s.img.nat Fld.evpWidth [k.val])) = true)) ∧
    (∃ (s : State) (k : Fin 16), (s.gpio.evp[k].active = false ∨ (s.img.on Fld.evpWunit [k.val] = true ∧ s.lt.stopped = false ∧ linePast s.lt.line (lineAdd s.gpio.evp[k].startLine (s.img.nat Fld.evpWidth [k.val])) = false))) ∧
    (∃ (s : State) (p : Fin 48) (level : Bool) (n : Nat), (s.gpio.active = false ∨ s.gpio.bank[bankOf p] = .absent ∨ s.sys.code = .sleep ∨ n < s.gpio.pin[p].intFilt ∨ s.gpio.pin[p].accepted = level)) ∧
    (∃ (s : State) (p : Fin 48) (level : Bool) (n : Nat), s.gpio.active = true ∧ s.gpio.bank[bankOf p] ≠ .absent ∧ s.sys.code ≠ .sleep ∧ s.gpio.pin[p].intFilt ≤ n ∧ s.gpio.pin[p].accepted ≠ level ∧ intCondition s.gpio.pin[p].intKind level = false) ∧
    (∃ (s : State) (p : Fin 48) (level : Bool) (n : Nat), s.gpio.active = true ∧ s.gpio.bank[bankOf p] ≠ .absent ∧ s.sys.code ≠ .sleep ∧ s.gpio.pin[p].intFilt ≤ n ∧ s.gpio.pin[p].accepted ≠ level ∧ intCondition s.gpio.pin[p].intKind level = true) ∧
    (∃ (s : State) (m : Fin 4) (v : BitVec 16), i2cPolled m s = true) :=
  ⟨⟨wEvp, 0, by decide +kernel⟩,
    ⟨State.reset, 0, by decide +kernel⟩,
    ⟨wGpio (fun x => { x with intKind := 1 }), 0, true, 1, by decide +kernel⟩,
    ⟨wGpio (fun x => { x with intKind := 2 }), 0, true, 2, by decide +kernel⟩,
    ⟨wGpio (fun x => { x with intKind := 1 }), 0, true, 2, by decide +kernel⟩,
    ⟨wI2c, 0, 0xF000, by decide +kernel⟩⟩

/-- The hypotheses of PortsInterruptsAndBoundary can be met, part 3. -/
theorem witness_PortsInterruptsAndBoundary_3 :
    (∃ (s : State) (m : Fin 4) (a : I2cAnswer), i2cPolled m s = false) ∧
    (∃ (s : State) (cells : List Bool), s.sys.porActive = false) ∧
    (∃ (s : State) (drives : Bool) (cells : List Bool), s.sys.porActive = true) :=
  ⟨⟨State.reset, 0, .nack, by decide +kernel⟩,
    ⟨State.reset, [true], by decide +kernel⟩,
    ⟨{ State.reset with sys := { Sys.reset with porActive := true } }, true, [true], by decide +kernel⟩⟩

/-- The hypotheses of RegistersReadLatchAndClear can be met, part 1. -/
theorem witness_RegistersReadLatchAndClear_1 :
    (∃ (s : State) (c : Instr) (x : Packet), packetOf s c = some x ∧ hears s x.q = false) ∧
    (∃ (s : State) (c : Instr) (x : Packet), packetOf s c = some x ∧ hears s x.q = true ∧ packetOk s x.op x.q x.payload = false) ∧
    (∃ (s : State) (c : Instr) (x : Packet), packetOf s c = some x ∧ hears s x.q = true ∧ packetOk s x.op x.q x.payload = true ∧ s.sys.hseq < x.q.seq.toNat ∧ s.log.sc + 65536 < x.q.seq.toNat) ∧
    (∃ (s : State) (c : Instr) (x : Packet), packetOf s c = some x ∧ hears s x.q = true ∧ packetOk s x.op x.q x.payload = true ∧ x.q.seq.toNat ≤ s.sys.hseq ∧ cachedSame x.op x.q x.payload s = none) ∧
    (∃ (s : State) (c : Instr) (x : Packet) (e : CacheEntry), packetOf s c = some x ∧ hears s x.q = true ∧ packetOk s x.op x.q x.payload = true ∧ x.q.seq.toNat ≤ s.sys.hseq ∧ cachedSame x.op x.q x.payload s = some e) ∧
    (∃ (s : State) (c : Instr) (x : Packet), packetOf s c = some x ∧ Arrives s x.op x.q x.payload ∧ (x.fits = false ∨ inState x.states s = false)) :=
  ⟨⟨State.reset, .nvmLock (wReq 0), ⟨0x10, wReq 0, [], true, mostStates⟩, by decide +kernel⟩,
    ⟨wMnt, .nvmLock { wReq 0 with magic := 0 }, ⟨0x10, { wReq 0 with magic := 0 }, [], true, mostStates⟩, by decide +kernel⟩,
    ⟨wMnt, .nvmLock (signed wMnt 0x10 (wReq 70000) []), ⟨0x10, signed wMnt 0x10 (wReq 70000) [], [], true, mostStates⟩, by decide +kernel⟩,
    ⟨wStale, .nvmLock (signed wStale 0x10 (wReq 0) []), ⟨0x10, signed wStale 0x10 (wReq 0) [], [], true, mostStates⟩, by decide +kernel⟩,
    ⟨wAgain, .nvmLock (signed wMnt 0x10 (wReq 0) []), ⟨0x10, signed wMnt 0x10 (wReq 0) [], [], true, mostStates⟩, ⟨0x10, signed wMnt 0x10 (wReq 0) [], [], none⟩, by decide +kernel⟩,
    ⟨wMnt, .read (signed wMnt 0x01 (wReq 0) (le 4 2 ++ le 2 1 ++ [0, 0])) 2 1, ⟨0x01, signed wMnt 0x01 (wReq 0) (le 4 2 ++ le 2 1 ++ [0, 0]), le 4 2 ++ le 2 1 ++ [0, 0], false, answeringStates⟩, by decide +kernel, arrives_signed _ _ _ _ (by decide +kernel), by decide +kernel⟩⟩

/-- The hypotheses of RegistersReadLatchAndClear can be met, part 2. -/
theorem witness_RegistersReadLatchAndClear_2 :
    (∃ (s : State) (q : MntReq) (addr : BitVec 32) (count : BitVec 16), Arrives s 0x01 q (le 4 addr.toNat ++ le 2 count.toNat ++ [0, 0]) ∧ readFits addr count = true) ∧
    (∃ (s : State), inState answeringStates s = true) ∧
    (∃ (s : State) (addr : BitVec 32), (inState answeringStates s = false ∨ addr ∉ [0x00030#32, 0x01008#32, 0x01010#32, 0x02000#32, 0x10818#32, 0x20024#32, 0x60004#32, 0x60010#32])) ∧
    (∃ (s : State) (q : MntReq) (addr : BitVec 32) (words : List (BitVec 32)), (Arrives s 0x02 q (le 4 addr.toNat ++ le 2 words.length ++ [0, 0] ++ words.flatMap fun w => le 4 w.toNat)) ∧ writeFits addr words = true ∧ inState mostStates s = true ∧ ((writeWords words addr.toNat (accept 0x02 q (le 4 addr.toNat ++ le 2 words.length ++ [0, 0] ++ words.flatMap fun w => le 4 w.toNat) s)).1.out = s.out)) ∧
    (∃ (s : State) (q : MntReq) (addr : BitVec 32) (words : List (BitVec 32)), (Arrives s 0x02 q (le 4 addr.toNat ++ le 2 words.length ++ [0, 0] ++ words.flatMap fun w => le 4 w.toNat)) ∧ writeFits addr words = true ∧ inState mostStates s = true) ∧
    (∃ (s : State) (a v : Nat), a ∉ [0x10800, 0x10030, 0x01000] ∧ (a < 0x50000 ∨ 0x50140 ≤ a ∨ (0x500C0 ≤ a ∧ a < 0x50100) ∨ a % 0x20 = 0x10 ∧ 0x50100 ≤ a)) :=
  ⟨⟨wMnt, signed (wMnt) 0x01 (wReq 0) (le 4 48 ++ le 2 1 ++ [0, 0]), 48, 1, arrives_signed _ _ _ _ (by decide +kernel), by decide +kernel⟩,
    ⟨wRun, by decide +kernel⟩,
    ⟨wRun, 4, by decide +kernel⟩,
    ⟨wMnt, signed (wMnt) 0x02 (wReq 0) (le 4 0x10800 ++ le 2 1 ++ [0, 0] ++ [16#32].flatMap fun w => le 4 w.toNat), 0x10800, [16#32], arrives_signed _ _ _ _ (by decide +kernel), by decide +kernel, by decide +kernel, by decide +kernel⟩,
    ⟨wMnt, signed (wMnt) 0x02 (wReq 0) (le 4 0 ++ le 2 1 ++ [0, 0] ++ [16#32].flatMap fun w => le 4 w.toNat), 0, [16#32], arrives_signed _ _ _ _ (by decide +kernel), by decide +kernel, by decide +kernel⟩,
    ⟨State.reset, 0x50110, 1, by decide +kernel⟩⟩

/-- The hypotheses of RegistersReadLatchAndClear can be met, part 3. -/
theorem witness_RegistersReadLatchAndClear_3 :
    ∃ (s : State) (q : MntReq) (first : BitVec 32) (count : BitVec 16), Arrives s 0x03 q (le 4 first.toNat ++ le 2 count.toNat ++ [0, 0]) ∧ 1 ≤ count.toNat ∧ count.toNat ≤ 32 :=
  ⟨wMnt, signed (wMnt) 0x03 (wReq 0) (le 4 0 ++ le 2 32 ++ [0, 0]), 0, 32, arrives_signed _ _ _ _ (by decide +kernel), by decide +kernel, by decide +kernel⟩

/-- The hypotheses of SessionLockAndFlashCommands can be met, part 1. -/
theorem witness_SessionLockAndFlashCommands_1 :
    (∃ (s : State) (c : Instr) (x : Packet), packetOf s c = some x ∧ 0x11 ≤ x.op ∧ x.op ≤ 0x23 ∧ Arrives s x.op x.q x.payload ∧ x.fits = true ∧ inState x.states s = true ∧ (usesFlash x = false ∨ s.nvm.busy = none) ∧ ¬InSession s x.q) ∧
    (∃ (s : State) (c : Instr) (x : Packet), packetOf s c = some x ∧ usesFlash x = true ∧ Arrives s x.op x.q x.payload ∧ x.fits = true ∧ inState x.states s = true ∧ s.nvm.busy.isSome = true) ∧
    (∃ (s : State) (q : MntReq), Arrives s 0x10 q [] ∧ inState mostStates s = true ∧ s.nvm.locked = false) ∧
    (∃ (s : State) (q : MntReq), Arrives s 0x10 q [] ∧ inState mostStates s = true ∧ fromHolder s q = true) ∧
    (∃ (s : State) (q : MntReq), Arrives s 0x10 q [] ∧ inState mostStates s = true ∧ s.nvm.locked = true ∧ fromHolder s q = false) ∧
    (∃ (s : State) (q : MntReq), Arrives s 0x11 q [] ∧ inState mostStates s = true ∧ InSession s q) :=
  ⟨⟨wOther, .nvmRenew (signed wOther 0x11 (wReq 0) []), ⟨0x11, signed wOther 0x11 (wReq 0) [], [], true, mostStates⟩, by decide +kernel, by decide +kernel, by decide +kernel, arrives_signed _ _ _ _ (by decide +kernel), by decide +kernel, by decide +kernel, by decide +kernel, by decide +kernel⟩,
    ⟨wBusy (.verify 1), .nvmVerify (signed wHeld 0x15 (wReq 0) [1, 0, 0, 0]) 1, ⟨0x15, signed wHeld 0x15 (wReq 0) [1, 0, 0, 0], [1, 0, 0, 0], true, mostStates⟩, by decide +kernel, by decide +kernel, arrives_signed _ _ _ _ (by decide +kernel), by decide +kernel, by decide +kernel, by decide +kernel⟩,
    ⟨wMnt, signed (wMnt) 0x10 (wReq 0) [], arrives_signed _ _ _ _ (by decide +kernel), by decide +kernel⟩,
    ⟨wHeld, signed (wHeld) 0x10 (wReq 0) [], arrives_signed _ _ _ _ (by decide +kernel), by decide +kernel⟩,
    ⟨wOther, signed (wOther) 0x10 (wReq 0) [], arrives_signed _ _ _ _ (by decide +kernel), by decide +kernel, by decide +kernel⟩,
    ⟨wHeld, signed (wHeld) 0x11 (wReq 0) [], arrives_signed _ _ _ _ (by decide +kernel), by decide +kernel⟩⟩

/-- The hypotheses of SessionLockAndFlashCommands can be met, part 2. -/
theorem witness_SessionLockAndFlashCommands_2 :
    (∃ (s : State) (q : MntReq), Arrives s 0x12 q [] ∧ inState mostStates s = true ∧ InSession s q) ∧
    (∃ (s : State) (c : SessCmd), s.nvm.busy = some c) ∧
    (∃ (s : State), s.nvm.busy = none) ∧
    (∃ (s : State) (q : MntReq) (slot : BitVec 8) (sector : BitVec 32) (n : BitVec 16), Arrives s 0x13 q (erasePayload slot sector n) ∧ inState mostStates s = true ∧ InSession s q ∧ s.nvm.busy = none ∧ eraseFits slot sector n = true ∧ slotOpen s slot.toNat = true) ∧
    (∃ (s : State) (q : MntReq) (slot : BitVec 8) (sector : BitVec 32) (n : BitVec 16), Arrives s 0x13 q (erasePayload slot sector n) ∧ inState mostStates s = true ∧ InSession s q ∧ s.nvm.busy = none ∧ eraseFits slot sector n = true ∧ slotOpen s slot.toNat = false) ∧
    (∃ (s : State) (q : MntReq) (slot : BitVec 8) (off : BitVec 32) (d : List Byte), Arrives s 0x14 q (programPayload slot off d) ∧ inState mostStates s = true ∧ InSession s q ∧ s.nvm.busy = none ∧ programFits slot off d = true ∧ slotOpen s slot.toNat = true) :=
  ⟨⟨wHeld, signed (wHeld) 0x12 (wReq 0) [], arrives_signed _ _ _ _ (by decide +kernel), by decide +kernel⟩,
    ⟨wBusy (.erase 1 3 1), ⟨0x13, wReq 0, [], .erase 1 3 1⟩, by decide +kernel⟩,
    ⟨wHeld, by decide +kernel⟩,
    ⟨wHeld, signed (wHeld) 0x13 (wReq 0) (erasePayload 1 7167 1), 1, 7167, 1, arrives_signed _ _ _ _ (by decide +kernel), by decide +kernel, by decide +kernel, by decide +kernel, by decide +kernel⟩,
    ⟨wHeld, signed (wHeld) 0x13 (wReq 0) (erasePayload 0 0 256), 0, 0, 256, arrives_signed _ _ _ _ (by decide +kernel), by decide +kernel, by decide +kernel, by decide +kernel, by decide +kernel⟩,
    ⟨wHeld, signed (wHeld) 0x14 (wReq 0) (programPayload 1 256 [7]), 1, 256, [7], arrives_signed _ _ _ _ (by decide +kernel), by decide +kernel, by decide +kernel, by decide +kernel, by decide +kernel⟩⟩

/-- The hypotheses of SessionLockAndFlashCommands can be met, part 3. -/
theorem witness_SessionLockAndFlashCommands_3 :
    (∃ (s : State) (q : MntReq) (slot : BitVec 8) (off : BitVec 32) (d : List Byte), Arrives s 0x14 q (programPayload slot off d) ∧ inState mostStates s = true ∧ InSession s q ∧ s.nvm.busy = none ∧ programFits slot off d = true ∧ slotOpen s slot.toNat = false) ∧
    (∃ (s : State) (q : MntReq) (slot : BitVec 8), Arrives s 0x15 q [slot, 0, 0, 0] ∧ inState mostStates s = true ∧ InSession s q ∧ s.nvm.busy = none ∧ slot.toNat < 2) ∧
    (∃ (s : State) (q : MntReq) (slot : BitVec 8), Arrives s 0x16 q [slot, 0, 0, 0] ∧ inState mostStates s = true ∧ InSession s q ∧ s.nvm.busy = none ∧ slot.toNat < 2 ∧ ((if slot.toNat = 0 then s.nvm.verifiedA else s.nvm.verifiedB) = true)) ∧
    (∃ (s : State) (q : MntReq) (slot : BitVec 8), Arrives s 0x16 q [slot, 0, 0, 0] ∧ inState mostStates s = true ∧ InSession s q ∧ s.nvm.busy = none ∧ slot.toNat < 2 ∧ ((if slot.toNat = 0 then s.nvm.verifiedA else s.nvm.verifiedB) = true)) ∧
    (∃ (s : State) (q : MntReq) (slot : BitVec 8) (ok : Bool), Arrives s 0x16 q [slot, 0, 0, 0] ∧ inState mostStates s = true ∧ InSession s q ∧ s.nvm.busy = none ∧ slot.toNat < 2 ∧ ((if slot.toNat = 0 then s.nvm.verifiedA else s.nvm.verifiedB) = false)) ∧
    (∃ (s : State) (ok : Bool), s.nvm.busy = none) :=
  ⟨⟨wHeld, signed (wHeld) 0x14 (wReq 0) (programPayload 0 256 [7]), 0, 256, [7], arrives_signed _ _ _ _ (by decide +kernel), by decide +kernel, by decide +kernel, by decide +kernel, by decide +kernel⟩,
    ⟨wHeld, signed (wHeld) 0x15 (wReq 0) ([1, 0, 0, 0]), 1, arrives_signed _ _ _ _ (by decide +kernel), by decide +kernel, by decide +kernel, by decide +kernel, by decide +kernel⟩,
    ⟨wVer, signed (wVer) 0x16 (wReq 0) ([1, 0, 0, 0]), 1, arrives_signed _ _ _ _ (by decide +kernel), by decide +kernel, by decide +kernel, by decide +kernel, by decide +kernel, by decide +kernel⟩,
    ⟨wVer, signed (wVer) 0x16 (wReq 0) ([1, 0, 0, 0]), 1, arrives_signed _ _ _ _ (by decide +kernel), by decide +kernel, by decide +kernel, by decide +kernel, by decide +kernel, by decide +kernel⟩,
    ⟨wHeld, signed (wHeld) 0x16 (wReq 0) ([1, 0, 0, 0]), 1, true, arrives_signed _ _ _ _ (by decide +kernel), by decide +kernel, by decide +kernel, by decide +kernel, by decide +kernel, by decide +kernel⟩,
    ⟨wHeld, true, by decide +kernel⟩⟩

/-- The hypotheses of SessionLockAndFlashCommands can be met, part 4. -/
theorem witness_SessionLockAndFlashCommands_4 :
    (∃ (s : State) (c : SessCmd) (slot : Nat) (ok : Bool), s.nvm.busy = some c ∧ c.todo = .verify slot) ∧
    (∃ (s : State) (c : SessCmd) (slot sector n : Nat) (u : State), s.nvm.busy = some c ∧ c.todo = .erase slot sector n ∧ u = { s with flash := Memory.erase (slotBase slot + 4096 * sector) s.flash, nvm := { s.nvm with erased := satInc 32 s.nvm.erased } }) ∧
    (∃ (s : State) (c : SessCmd) (slot off : Nat) (d : List Byte) (u : State), s.nvm.busy = some c ∧ c.todo = .program slot off d ∧ u = { s with flash := Memory.program (slotBase slot + off) (d.take 256) s.flash, nvm := { s.nvm with programmed := satInc 32 s.nvm.programmed } }) ∧
    (∃ (s : State) (c : SessCmd), s.nvm.busy = some c ∧ (∀ slot, c.todo ≠ .verify slot)) ∧
    (∃ (s : State) (c : SessCmd) (slot : Nat), s.nvm.busy = some c ∧ c.todo = .verify slot ∧ s.sec.resetting = false) ∧
    (∃ (s : State) (c : SessCmd), s.nvm.busy = some c ∧ (s.sec.resetting = true ∨ (∀ slot, c.todo ≠ .verify slot))) :=
  ⟨⟨wBusy (.verify 1), ⟨0x13, wReq 0, [], .verify 1⟩, 1, true, by decide +kernel⟩,
    ⟨wBusy (.erase 1 3 1), ⟨0x13, wReq 0, [], .erase 1 3 1⟩, 1, 3, 1, _, rfl, rfl, rfl⟩,
    ⟨wBusy (.program 1 256 [7]), ⟨0x13, wReq 0, [], .program 1 256 [7]⟩, 1, 256, [7], _, rfl, rfl, rfl⟩,
    ⟨wBusy (.erase 1 3 1), ⟨0x13, wReq 0, [], .erase 1 3 1⟩, rfl, by simp⟩,
    ⟨wBusy (.verify 1), ⟨0x13, wReq 0, [], .verify 1⟩, 1, by decide +kernel⟩,
    ⟨wBusy (.erase 1 3 1), ⟨0x13, wReq 0, [], .erase 1 3 1⟩, rfl, .inr (by simp)⟩⟩

/-- The hypotheses of SessionLockAndFlashCommands can be met, part 5. -/
theorem witness_SessionLockAndFlashCommands_5 :
    (∃ (s : State) (c : SessCmd) (status : Nat) (payload : List Byte), s.sec.resetting = false ∧ s.mnt.sessWait = []) ∧
    (∃ (s : State) (i : Instr) (rest : List Instr), s.nvm.busy.isSome = true) ∧
    (∃ (s : State) (i : Instr) (rest : List Instr) (op : Nat) (q : MntReq) (body : State → Reply), s.nvm.busy = none ∧ waitedBody i = some (op, q, body)) ∧
    (∃ (s : State), s.nvm.locked = true ∧ s.nvm.busy = none) ∧
    (∃ (s : State), (s.nvm.locked = false ∨ s.nvm.busy.isSome = true)) :=
  ⟨⟨wHeld, ⟨0x13, wReq 0, [], .erase 1 3 1⟩, 0, [], by decide +kernel⟩,
    ⟨wBusy (.verify 1), .nvmVerify (wReq 0) 1, [], by decide +kernel⟩,
    ⟨wHeld, .nvmVerify (wReq 0) 1, [], _, _, _, rfl, rfl⟩,
    ⟨wHeld, by decide +kernel⟩,
    ⟨wMnt, by decide +kernel⟩⟩

/-- The hypotheses of OtpCommandsProgramOnce can be met, part 1. -/
theorem witness_OtpCommandsProgramOnce_1 :
    (∃ (s : State) (q : MntReq) (slot : BitVec 8) (k : Fin 4) (d took : BitVec 256), Arrives s 0x20 q ([slot, 0, 0, 0] ++ digestBytes d) ∧ inState otpStates s = true ∧ InSession s q ∧ slot.toNat = k.val ∧ d ≠ 0 ∧ (s.otp.keys[k] = 0 ∨ s.otp.keyTodo[k] = some (otpDigest d))) ∧
    (∃ (s : State) (q : MntReq) (slot : BitVec 8) (k : Fin 4) (d took : BitVec 256), Arrives s 0x20 q ([slot, 0, 0, 0] ++ digestBytes d) ∧ inState otpStates s = true ∧ InSession s q ∧ slot.toNat = k.val ∧ d ≠ 0 ∧ s.otp.keys[k] ≠ 0 ∧ s.otp.keyTodo[k] ≠ some (otpDigest d)) ∧
    (∃ (s : State) (q : MntReq) (slot : BitVec 8) (k : Fin 4) (took : Bool), Arrives s 0x21 q [slot, 0, 0, 0] ∧ inState otpStates s = true ∧ InSession s q ∧ slot.toNat = k.val ∧ (s.img.valid = false ∨ s.img.keySlot ≠ slot.toNat) ∧ s.otp.revoke.getLsbD k.val = false) ∧
    (∃ (s : State) (q : MntReq) (slot : BitVec 8) (k : Fin 4) (took : Bool), Arrives s 0x21 q [slot, 0, 0, 0] ∧ inState otpStates s = true ∧ InSession s q ∧ slot.toNat = k.val ∧ (s.img.valid = false ∨ s.img.keySlot ≠ slot.toNat) ∧ s.otp.revoke.getLsbD k.val = true) ∧
    (∃ (s : State) (q : MntReq) (slot : BitVec 8) (took : Bool), Arrives s 0x21 q [slot, 0, 0, 0] ∧ inState otpStates s = true ∧ InSession s q ∧ slot.toNat < 4 ∧ s.img.valid = true ∧ s.img.keySlot = slot.toNat) ∧
    (∃ (s : State) (q : MntReq) (v : BitVec 32) (took : BitVec 64), Arrives s 0x22 q (le 4 v.toNat) ∧ inState (rollbackStates s) s = true ∧ InSession s q ∧ 1 ≤ v.toNat ∧ v.toNat ≤ 64 ∧ v.toNat ≤ s.img.rollback ∧ popcount 64 s.otp.rb < v.toNat) :=
  ⟨⟨wHeld, signed (wHeld) 0x20 (wReq 0) ([3, 0, 0, 0] ++ digestBytes 5), 3, 3, 5, BitVec.allOnes 256, arrives_signed _ _ _ _ (by decide +kernel), by decide +kernel, by decide +kernel, by decide +kernel, by decide +kernel, by decide +kernel⟩,
    ⟨wKeyed, signed (wKeyed) 0x20 (wReq 0) ([3, 0, 0, 0] ++ digestBytes 5), 3, 3, 5, 0, arrives_signed _ _ _ _ (by decide +kernel), by decide +kernel, by decide +kernel, by decide +kernel, by decide +kernel, by decide +kernel, by decide +kernel⟩,
    ⟨wHeld, signed (wHeld) 0x21 (wReq 0) [3, 0, 0, 0], 3, 3, true, arrives_signed _ _ _ _ (by decide +kernel), by decide +kernel, by decide +kernel, by decide +kernel, by decide +kernel, by decide +kernel⟩,
    ⟨wRevoked, signed (wRevoked) 0x21 (wReq 0) [3, 0, 0, 0], 3, 3, true, arrives_signed _ _ _ _ (by decide +kernel), by decide +kernel, by decide +kernel, by decide +kernel, by decide +kernel, by decide +kernel⟩,
    ⟨wKeyed, signed (wKeyed) 0x21 (wReq 0) [0, 0, 0, 0], 0, true, arrives_signed _ _ _ _ (by decide +kernel), by decide +kernel, by decide +kernel, by decide +kernel, by decide +kernel, by decide +kernel⟩,
    ⟨wKeyed, signed (wKeyed) 0x22 (wReq 0) (le 4 2), 2, BitVec.allOnes 64, arrives_signed _ _ _ _ (by decide +kernel), by decide +kernel, by decide +kernel, by decide +kernel, by decide +kernel, by decide +kernel, by decide +kernel⟩⟩

/-- The hypotheses of OtpCommandsProgramOnce can be met, part 2. -/
theorem witness_OtpCommandsProgramOnce_2 :
    (∃ (s : State) (q : MntReq) (v : BitVec 32) (took : BitVec 64), Arrives s 0x22 q (le 4 v.toNat) ∧ inState (rollbackStates s) s = true ∧ InSession s q ∧ 1 ≤ v.toNat ∧ v.toNat ≤ 64 ∧ v.toNat ≤ s.img.rollback ∧ v.toNat ≤ popcount 64 s.otp.rb) ∧
    (∃ (s : State) (q : MntReq) (v : BitVec 32) (took : BitVec 64), Arrives s 0x22 q (le 4 v.toNat) ∧ inState (rollbackStates s) s = true ∧ InSession s q ∧ 1 ≤ v.toNat ∧ v.toNat ≤ 64 ∧ s.img.rollback < v.toNat) ∧
    (∃ (s : State) (q : MntReq) (lane pfx : BitVec 8) (ip : BitVec 32) (took : BitVec 38) (k : Fin 2), Arrives s 0x23 q ([lane, pfx, 0, 0] ++ be 4 ip.toNat) ∧ inState otpStates s = true ∧ InSession s q ∧ lane.toNat = k.val ∧ 8 ≤ pfx.toNat ∧ pfx.toNat ≤ 30 ∧ unicast ip.toNat pfx.toNat = true ∧ s.otp.recov[k].written = false) ∧
    (∃ (s : State) (q : MntReq) (lane pfx : BitVec 8) (ip : BitVec 32) (took : BitVec 38) (k : Fin 2), Arrives s 0x23 q ([lane, pfx, 0, 0] ++ be 4 ip.toNat) ∧ inState otpStates s = true ∧ InSession s q ∧ lane.toNat = k.val ∧ 8 ≤ pfx.toNat ∧ pfx.toNat ≤ 30 ∧ unicast ip.toNat pfx.toNat = true ∧ s.otp.recov[k].written = true) :=
  ⟨⟨wRevoked, signed (wRevoked) 0x22 (wReq 0) (le 4 2), 2, BitVec.allOnes 64, arrives_signed _ _ _ _ (by decide +kernel), by decide +kernel, by decide +kernel, by decide +kernel, by decide +kernel, by decide +kernel, by decide +kernel⟩,
    ⟨wHeld, signed (wHeld) 0x22 (wReq 0) (le 4 64), 64, 0, arrives_signed _ _ _ _ (by decide +kernel), by decide +kernel, by decide +kernel, by decide +kernel, by decide +kernel, by decide +kernel⟩,
    ⟨wHeld, signed (wHeld) 0x23 (wReq 0) ([1, 24, 0, 0] ++ be 4 0x0A000001), 1, 24, 0x0A000001, BitVec.allOnes 38, 1, arrives_signed _ _ _ _ (by decide +kernel), by decide +kernel, by decide +kernel, by decide +kernel, by decide +kernel, by decide +kernel, by decide +kernel, by decide +kernel⟩,
    ⟨wRevoked, signed (wRevoked) 0x23 (wReq 0) ([1, 24, 0, 0] ++ be 4 0x0A000001), 1, 24, 0x0A000001, 0, 1, arrives_signed _ _ _ _ (by decide +kernel), by decide +kernel, by decide +kernel, by decide +kernel, by decide +kernel, by decide +kernel, by decide +kernel, by decide +kernel⟩⟩

/-- The hypotheses of RecoveryLadderRungs can be met, part 1. -/
theorem witness_RecoveryLadderRungs_1 :
    (∃ (s : State), inState (reinitStates .egress) s = true ∧ reinitBusy .egress s = false) ∧
    (∃ (s : State), (inState (reinitStates .egress) s = false ∨ reinitBusy .egress s = true)) ∧
    (∃ (s : State) (q : MntReq), Arrives s 0x30 q (reinitPayload .egress) ∧ inState (reinitStates .egress) s = true ∧ reinitBusy .egress s = false) ∧
    (∃ (s : State), inState (reinitStates .hkc) s = true ∧ reinitBusy .hkc s = false) ∧
    (∃ (s : State), (inState (reinitStates .hkc) s = false ∨ reinitBusy .hkc s = true)) ∧
    (∃ (s : State) (q : MntReq), Arrives s 0x30 q (reinitPayload .hkc) ∧ inState (reinitStates .hkc) s = true ∧ reinitBusy .hkc s = false) :=
  ⟨⟨wRun, by decide +kernel⟩,
    ⟨State.reset, by decide +kernel⟩,
    ⟨wMnt, signed (wMnt) 0x30 (wReq 0) (reinitPayload .egress), arrives_signed _ _ _ _ (by decide +kernel), by decide +kernel, by decide +kernel⟩,
    ⟨wRun, by decide +kernel⟩,
    ⟨State.reset, by decide +kernel⟩,
    ⟨wMnt, signed (wMnt) 0x30 (wReq 0) (reinitPayload .hkc), arrives_signed _ _ _ _ (by decide +kernel), by decide +kernel, by decide +kernel⟩⟩

/-- The hypotheses of RecoveryLadderRungs can be met, part 2. -/
theorem witness_RecoveryLadderRungs_2 :
    (∃ (s : State) (q : MntReq), Arrives s 0x30 q (reinitPayload .hkc) ∧ inState (reinitStates .hkc) s = true ∧ reinitBusy .hkc s = true) ∧
    (∃ (s : State), inState (reinitStates .starling) s = true ∧ reinitBusy .starling s = false) ∧
    (∃ (s : State), (inState (reinitStates .starling) s = false ∨ reinitBusy .starling s = true)) ∧
    (∃ (s : State) (q : MntReq), Arrives s 0x30 q (reinitPayload .starling) ∧ inState (reinitStates .starling) s = true ∧ reinitBusy .starling s = false) ∧
    (∃ (s : State) (q : MntReq), Arrives s 0x30 q (reinitPayload .starling) ∧ inState (reinitStates .starling) s = true ∧ reinitBusy .starling s = true) ∧
    (∃ (s : State), inState (reinitStates .pixel) s = true ∧ reinitBusy .pixel s = false) :=
  ⟨⟨wReBusy, signed (wMnt) 0x30 (wReq 0) (reinitPayload .hkc), arrives_signed _ _ _ _ (by decide +kernel), by decide +kernel, by decide +kernel⟩,
    ⟨wRun, by decide +kernel⟩,
    ⟨State.reset, by decide +kernel⟩,
    ⟨wMnt, signed (wMnt) 0x30 (wReq 0) (reinitPayload .starling), arrives_signed _ _ _ _ (by decide +kernel), by decide +kernel, by decide +kernel⟩,
    ⟨wReBusy, signed (wMnt) 0x30 (wReq 0) (reinitPayload .starling), arrives_signed _ _ _ _ (by decide +kernel), by decide +kernel, by decide +kernel⟩,
    ⟨wRun, by decide +kernel⟩⟩

/-- The hypotheses of RecoveryLadderRungs can be met, part 3. -/
theorem witness_RecoveryLadderRungs_3 :
    (∃ (s : State), (inState (reinitStates .pixel) s = false ∨ reinitBusy .pixel s = true)) ∧
    (∃ (s : State) (q : MntReq), Arrives s 0x30 q (reinitPayload .pixel) ∧ inState (reinitStates .pixel) s = true ∧ reinitBusy .pixel s = false) ∧
    (∃ (s : State) (q : MntReq), Arrives s 0x30 q (reinitPayload .pixel) ∧ inState (reinitStates .pixel) s = true ∧ reinitBusy .pixel s = true) ∧
    (∃ (s : State), inState (reinitStates .fabric) s = true ∧ reinitBusy .fabric s = false) ∧
    (∃ (s : State), (inState (reinitStates .fabric) s = false ∨ reinitBusy .fabric s = true)) ∧
    (∃ (s : State) (q : MntReq), Arrives s 0x30 q (reinitPayload .fabric) ∧ inState (reinitStates .fabric) s = true ∧ reinitBusy .fabric s = false) :=
  ⟨⟨State.reset, by decide +kernel⟩,
    ⟨wMnt, signed (wMnt) 0x30 (wReq 0) (reinitPayload .pixel), arrives_signed _ _ _ _ (by decide +kernel), by decide +kernel, by decide +kernel⟩,
    ⟨wReBusy, signed (wMnt) 0x30 (wReq 0) (reinitPayload .pixel), arrives_signed _ _ _ _ (by decide +kernel), by decide +kernel, by decide +kernel⟩,
    ⟨wRun, by decide +kernel⟩,
    ⟨State.reset, by decide +kernel⟩,
    ⟨wMnt, signed (wMnt) 0x30 (wReq 0) (reinitPayload .fabric), arrives_signed _ _ _ _ (by decide +kernel), by decide +kernel, by decide +kernel⟩⟩

/-- The hypotheses of RecoveryLadderRungs can be met, part 4. -/
theorem witness_RecoveryLadderRungs_4 :
    (∃ (s : State) (q : MntReq), Arrives s 0x30 q (reinitPayload .fabric) ∧ inState (reinitStates .fabric) s = true ∧ reinitBusy .fabric s = true) ∧
    (∃ (s : State) (f : Func), reinitBusy f s = false) ∧
    (∃ (s : State) (f : Func) (cal : List CalRes), reinitBusy f s = true ∧ s.sys.supResetting = false) ∧
    (∃ (s : State) (f : Func) (cal : List CalRes) (q : MntReq), reinitBusy f s = true ∧ s.sys.supResetting = false ∧ s.sec.resetting = false ∧ s.mnt.reinitWait = [⟨0x30, q, reinitPayload f, none⟩]) ∧
    (∃ (s : State) (f : Func) (cal : List CalRes), (reinitBusy f s = false ∨ s.sys.supResetting = true)) ∧
    (∃ (s : State) (f : Func), (watchRuns f s = false ∨ reinitBusy f s = true ∨ s.sys.supResetting = true)) :=
  ⟨⟨wReBusy, signed (wMnt) 0x30 (wReq 0) (reinitPayload .fabric), arrives_signed _ _ _ _ (by decide +kernel), by decide +kernel, by decide +kernel⟩,
    ⟨wRun, .fabric, by decide +kernel⟩,
    ⟨{ wRun with sys := { wRun.sys with funcBusy := 31 } }, .pixel, [], by decide +kernel⟩,
    ⟨wReWait, .hkc, [], wReq 0, by decide +kernel⟩,
    ⟨wRun, .pixel, [], by decide +kernel⟩,
    ⟨State.reset, .fabric, by decide +kernel⟩⟩

/-- The hypotheses of RecoveryLadderRungs can be met, part 5. -/
theorem witness_RecoveryLadderRungs_5 :
    (∃ (s : State) (f : Func), watchRuns f s = true ∧ reinitBusy f s = false ∧ s.sys.supResetting = false ∧ within (sec 60) s.sys.wd[funcIx f].reinitEnd s = false ∧ (s.sys.wd[funcIx f].expiries = 0 ∨ s.sys.wd[funcIx f].progress = true)) ∧
    (∃ (s : State) (f : Func), watchRuns f s = true ∧ reinitBusy f s = false ∧ s.sys.supResetting = false ∧ within (sec 60) s.sys.wd[funcIx f].reinitEnd s = false ∧ 1 ≤ s.sys.wd[funcIx f].expiries ∧ s.sys.wd[funcIx f].progress = false) ∧
    (∃ (s : State) (f : Func), watchRuns f s = true ∧ reinitBusy f s = false ∧ s.sys.supResetting = false ∧ within (sec 60) s.sys.wd[funcIx f].reinitEnd s = true ∧ s.sys.wd[funcIx f].afterReinit = 0) ∧
    (∃ (s : State) (f : Func), watchRuns f s = true ∧ reinitBusy f s = false ∧ s.sys.supResetting = false ∧ within (sec 60) s.sys.wd[funcIx f].reinitEnd s = true ∧ 1 ≤ s.sys.wd[funcIx f].afterReinit) ∧
    (∃ (s : State), inState mostStates s = true) ∧
    (∃ (s : State), inState mostStates s = false) :=
  ⟨⟨wRun, .fabric, by decide +kernel⟩,
    ⟨{ wRun with sys := { wRun.sys with wd := Vector.replicate 5 { FuncWd.reset with expiries := 1 } } }, .egress, by decide +kernel⟩,
    ⟨{ wRun with sys := { wRun.sys with wd := Vector.replicate 5 { FuncWd.reset with reinitEnd := some 0 } } }, .egress, by decide +kernel⟩,
    ⟨{ wRun with sys := { wRun.sys with wd := Vector.replicate 5 { FuncWd.reset with reinitEnd := some 0, afterReinit := 1 } } }, .egress, by decide +kernel⟩,
    ⟨wRun, by decide +kernel⟩,
    ⟨State.reset, by decide +kernel⟩⟩

/-- The hypotheses of RecoveryLadderRungs can be met, part 6. -/
theorem witness_RecoveryLadderRungs_6 :
    (∃ (s : State) (q : MntReq), Arrives s 0x31 q [] ∧ inState mostStates s = true) ∧
    (∃ (s : State) (q : MntReq), Arrives s 0x32 q [] ∧ inState mostStates s = true) ∧
    (∃ (s : State), s.sys.pwrcycLow = true) ∧
    (∃ (s : State), s.sys.pwrcycLow = false) :=
  ⟨⟨wMnt, signed (wMnt) 0x31 (wReq 0) [], arrives_signed _ _ _ _ (by decide +kernel), by decide +kernel⟩,
    ⟨wMnt, signed (wMnt) 0x32 (wReq 0) [], arrives_signed _ _ _ _ (by decide +kernel), by decide +kernel⟩,
    ⟨{ State.reset with sys := { Sys.reset with pwrcycLow := true } }, by decide +kernel⟩,
    ⟨State.reset, by decide +kernel⟩⟩

/-- The hypotheses of LogAndSnapshotsReachTheFlash can be met, part 1. -/
theorem witness_LogAndSnapshotsReachTheFlash_1 :
    (∃ (s : State) (ok : Bool), (s.log.queue = [] ∨ canCommit s = false ∨ s.log.snapPending = true)) ∧
    (∃ (s : State) (r : LogRec) (rest : List LogRec), s.log.queue = r :: rest ∧ canCommit s = true ∧ s.log.snapPending = false) ∧
    (∃ (s : State) (r : LogRec) (rest : List LogRec), s.log.queue = r :: rest ∧ canCommit s = true ∧ s.log.snapPending = false) ∧
    (∃ (s : State) (ok : Bool), (canCommit s = false ∨ s.log.snapPending = false)) ∧
    (∃ (s : State) (m : List Host.Cell), canCommit s = true ∧ s.log.snapPending = true ∧ m = Memory.program (0x2000 + 512 * s.log.snapSlot) (snapshotBody (s.log.snapSeq + 1) s.log.scWant s ++ [0]) s.flash) ∧
    (∃ (s t : State) (c : Instr) (x : Packet), packetOf s c = some x ∧ exec c s = .next t) :=
  ⟨⟨wRun, true, by decide +kernel⟩,
    ⟨wLog, LogRec.reset, [], by decide +kernel⟩,
    ⟨wLog, LogRec.reset, [], by decide +kernel⟩,
    ⟨wRun, true, by decide +kernel⟩,
    ⟨{ wRun with log := { Log.reset with snapPending := true, snapSlot := 7 } }, _, by decide +kernel, by decide +kernel, rfl⟩,
    ⟨State.reset, _, .nvmLock (wReq 0), _, rfl, rfl⟩⟩

/-- The hypotheses of LogAndSnapshotsReachTheFlash can be met, part 2. -/
theorem witness_LogAndSnapshotsReachTheFlash_2 :
    (∃ (s : State), canCommit s = true ∧ s.log.snapPending = true) ∧
    (∃ (s : State) (sector : Nat), sector = (s.log.nextSlot / 64 + 1) % 1020 ∧ canCommit s = true ∧ usedSlots s.flash (0x4000 + 4096 * sector) 4096 1 ≠ []) ∧
    (∃ (s : State), (canCommit s = false ∨ usedSlots s.flash (0x4000 + 4096 * ((s.log.nextSlot / 64 + 1) % 1020)) 4096 1 = [])) :=
  ⟨⟨{ wRun with log := { Log.reset with snapPending := true } }, by decide +kernel⟩,
    ⟨{ wRun with flash := [(0x5000, 0)] }, 1, by decide +kernel⟩,
    ⟨wRun, by decide +kernel⟩⟩

/-- The hypotheses of CommandsLeaveTheQueue can be met. -/
theorem witness_CommandsLeaveTheQueue :
    ∃ (c : Instr) (s t : State), exec c s = .next t :=
  ⟨.rotationTick, State.reset, State.reset, rfl⟩

/-- The hypotheses of StepsKeepTheFlashCanonical can be met. -/
theorem witness_StepsKeepTheFlashCanonical :
    ∃ (s t : State), CanonicalFlash s ∧ step s = .next t :=
  ⟨State.reset, { State.reset with now := 1 }, by unfold CanonicalFlash; rfl, rfl⟩

/-- The hypotheses of StepsKeepEveryWrenCanonical can be met. -/
theorem witness_StepsKeepEveryWrenCanonical :
    ∃ (s t : State), (∀ p : Fin 72, CanonicalWren s p) ∧ step s = .next t :=
  ⟨State.reset, { State.reset with now := 1 }, by decide +kernel, rfl⟩

/-- The hypotheses of StepsOnlyProgramOtp can be met. -/
theorem witness_StepsOnlyProgramOtp :
    ∃ (s t : State), step s = .next t :=
  ⟨State.reset, { State.reset with now := 1 }, rfl⟩

end Sys2Proof.Tests
end

/-! SUPPORT. What every command keeps of the part of the state that outlasts a reset: no programmed OTP bit is taken
back (R24, R643, R670), a canonical flash stays canonical, and the queue stays as it is. Settles O60.

Most operations leave that part alone: `f_lasting` says so for an operation `f`, in the order of the model's files. The
few that reach the OTP array or the flash, and every request, have a rule `f_retains`. An exec function is taken through
`nextOf`, the next state it answers. -/

namespace Sys2Proof.Machine

/-! ### The lasting part -/

/-- The part of the state that outlasts every reset: the OTP array, the flash and the queue (Table 18.6). -/
structure Lasting where
  otp : Otp
  flash : List Host.Cell
  queue : List Instr

/-- The part of `s` that outlasts a reset. -/
def lasting (s : State) : Lasting :=
  ⟨s.otp, s.flash, s.pending⟩

/-- Every other field is no part of it. Used on the way down, so that `simp` does not look into the other fields. -/
@[simp ↓] theorem lasting_mk (now freeCtr sys boot img flt log sec otp nvm mnt flash lt pix fab spr net ptp star hkc
    gpio bscan out pending) :
    lasting ⟨now, freeCtr, sys, boot, img, flt, log, sec, otp, nvm, mnt, flash, lt, pix, fab, spr, net, ptp, star, hkc,
      gpio, bscan, out, pending⟩ = ⟨otp, flash, pending⟩ := by rfl

@[simp ↓] theorem mk_lasting (s : State) : (⟨s.otp, s.flash, s.pending⟩ : Lasting) = lasting s := rfl

@[simp] theorem lasting_ite (c : Prop) [Decidable c] (s t : State) :
    lasting (if c then s else t) = if c then lasting s else lasting t := apply_ite lasting c s t

@[simp] theorem nextOf_next (s t : State) : nextOf s (.next t) = t := rfl

@[simp] theorem nextOf_ite (c : Prop) [Decidable c] (s : State) (x y : Host.Outcome State Fault Refusal) :
    nextOf s (if c then x else y) = if c then nextOf s x else nextOf s y := apply_ite (nextOf s) c x y

/-- A fold of changes that each keep the lasting part keeps it. -/
@[simp] theorem foldl_lasting {β : Type} (f : State → β → State) (h : ∀ t x, lasting (f t x) = lasting t) (l : List β)
    (s : State) : lasting (l.foldl f s) = lasting s := by
  induction l generalizing s with
  | nil => rfl
  | cons x r ih => exact (ih _).trans (h s x)

/-! ### Shared operations -/

@[simp] theorem emit_lasting (o s) : lasting (emit o s) = lasting s := by simp [emit]
@[simp] theorem bump_lasting (s) : lasting (bump s) = lasting s := by simp [bump]
@[simp] theorem enter_lasting (c s) : lasting (enter c s) = lasting s := by simp [enter]
@[simp] theorem dropEvents_lasting (n s) : lasting (dropEvents n s) = lasting s := by simp [dropEvents]

@[simp] theorem logOther_lasting (kind code data s) : lasting (logOther kind code data s) = lasting s := by
  simp [logOther]

@[simp] theorem wantSnapshot_lasting (s) : lasting (wantSnapshot s) = lasting s := by simp [wantSnapshot]
@[simp] theorem countClass_lasting (n s) : lasting (countClass n s) = lasting s := by simp [countClass]
@[simp] theorem summarise_lasting (code s) : lasting (summarise code s) = lasting s := by simp [summarise]
@[simp] theorem queueSummary_lasting (code s) : lasting (queueSummary code s) = lasting s := by simp [queueSummary]
@[simp] theorem logFault_lasting (code s) : lasting (logFault code s) = lasting s := by simp [logFault]
@[simp] theorem report_lasting (code s) : lasting (report code s) = lasting s := by simp [report]
@[simp] theorem markLines_lasting (f s) : lasting (markLines f s) = lasting s := by simp [markLines]
@[simp] theorem markLine_lasting (n f s) : lasting (markLine n f s) = lasting s := by simp [markLine]
@[simp] theorem stand_lasting (code s) : lasting (stand code s) = lasting s := by simp [stand]
@[simp] theorem unstand_lasting (code s) : lasting (unstand code s) = lasting s := by simp [unstand]
@[simp] theorem reportAll_lasting (codes s) : lasting (reportAll codes s) = lasting s := by simp [reportAll]
@[simp] theorem progressed_lasting (f s) : lasting (progressed f s) = lasting s := by simp [progressed]

/-! ### The log area -/

@[simp] theorem restoreMaps_lasting (s) : lasting (restoreMaps s) = lasting s := by
  simp only [restoreMaps]
  split <;> simp

@[simp] theorem restoreRing_lasting (s) : lasting (restoreRing s) = lasting s := by simp [restoreRing]

/-! ### Maintenance -/

@[simp] theorem sendAnswer_lasting (op q a s) : lasting (sendAnswer op q a s) = lasting s := by simp [sendAnswer]

@[simp] theorem sendWaiting_lasting (s) : lasting (sendWaiting s) = lasting s :=
  foldl_lasting _ (fun _ _ => by split <;> simp) _ _

@[simp] theorem setCached_lasting (seq a s) : lasting (setCached seq a s) = lasting s := by simp [setCached]
@[simp] theorem finish_lasting (op q a s) : lasting (finish op q a s) = lasting s := by simp [finish]
@[simp] theorem accept_lasting (op q payload s) : lasting (accept op q payload s) = lasting s := by simp [accept]
@[simp] theorem otpViolation_lasting (s) : lasting (otpViolation s) = lasting s := by simp [otpViolation]

/-! ### The NVM session -/

@[simp] theorem renew_lasting (s) : lasting (renew s) = lasting s := by simp [renew]
@[simp] theorem grantLock_lasting (q s) : lasting (grantLock q s) = lasting s := by simp [grantLock]
@[simp] theorem clearVerified_lasting (slot s) : lasting (clearVerified slot s) = lasting s := by simp [clearVerified]

@[simp] theorem showPointer_lasting (s) : lasting (showPointer s) = lasting s := by
  unfold showPointer
  split <;> simp

/-! ### Line timing -/

@[simp] theorem raiseRequest_lasting (s) : lasting (raiseRequest s) = lasting s := by
  unfold raiseRequest
  split <;> simp

@[simp] theorem countEdge_lasting (fwd s) : lasting (countEdge fwd s) = lasting s := by simp [countEdge]
@[simp] theorem illegalTransition_lasting (s) : lasting (illegalTransition s) = lasting s := by simp [illegalTransition]

@[simp] theorem execEncEdge_lasting (inp samples s) : lasting (nextOf s (execEncEdge inp samples s)) = lasting s := by
  unfold execEncEdge
  (repeat' split) <;> simp

@[simp] theorem execEnczEdge_lasting (samples s) : lasting (nextOf s (execEnczEdge samples s)) = lasting s := by
  simp [execEnczEdge]

@[simp] theorem execStbAssert_lasting (k s) : lasting (nextOf s (execStbAssert k s)) = lasting s := by
  simp [execStbAssert]

@[simp] theorem execFieldGateOpen_lasting (k s) : lasting (nextOf s (execFieldGateOpen k s)) = lasting s := by
  simp [execFieldGateOpen]

@[simp] theorem execStbDeassert_lasting (k s) : lasting (nextOf s (execStbDeassert k s)) = lasting s := by
  simp [execStbDeassert]

@[simp] theorem zeroAccumulator_lasting (s) : lasting (zeroAccumulator s) = lasting s := by simp [zeroAccumulator]
@[simp] theorem ltReset_lasting (s) : lasting (ltReset s) = lasting s := by simp [ltReset]
@[simp] theorem ltCommit_lasting (s) : lasting (ltCommit s) = lasting s := by simp [ltCommit]
@[simp] theorem ltHold_lasting (s) : lasting (ltHold s) = lasting s := by simp [ltHold]
@[simp] theorem ltSleep_lasting (s) : lasting (ltSleep s) = lasting s := by simp [ltSleep]
@[simp] theorem ltWake_lasting (s) : lasting (ltWake s) = lasting s := by simp [ltWake]

/-! ### The housekeeping converter -/

@[simp] theorem onHkc_lasting (f s) : lasting (onHkc f s) = lasting s := by simp [onHkc]

@[simp] theorem openRound_lasting (num den s) : lasting (openRound num den s).2 = lasting s := by
  unfold openRound
  split <;> simp

@[simp] theorem writeResult_lasting (chan inj result s) : lasting (writeResult chan inj result s) = lasting s := by
  simp [writeResult]

@[simp] theorem endPass_lasting (s) : lasting (endPass s) = lasting s := by simp [endPass]

@[simp] theorem execScanConversion_lasting (raw s) : lasting (nextOf s (execScanConversion raw s)) = lasting s := by
  simp only [execScanConversion]
  (repeat' split) <;> simp

@[simp] theorem railBack_lasting (i s) : lasting (railBack i s) = lasting s := by
  simp only [railBack]
  split <;> simp

@[simp] theorem checkRail_lasting (i code unsettled s) : lasting (checkRail i code unsettled s) = lasting s := by
  simp [checkRail]

@[simp] theorem checkRef_lasting (code s) : lasting (checkRef code s) = lasting s := by
  simp only [checkRef]
  (repeat' split) <;> simp

@[simp] theorem checkGround_lasting (x s) : lasting (checkGround x s) = lasting s := by simp [checkGround]
@[simp] theorem readTemp_lasting (j code s) : lasting (readTemp j code s) = lasting s := by simp [readTemp]
@[simp] theorem checkTemp_lasting (j code s) : lasting (checkTemp j code s) = lasting s := by simp [checkTemp]
@[simp] theorem logThermal_lasting (crossing s) : lasting (logThermal crossing s) = lasting s := by simp [logThermal]
@[simp] theorem rated_lasting (s) : lasting (rated s) = lasting s := by simp [rated]
@[simp] theorem warning_lasting (s) : lasting (warning s) = lasting s := by simp [warning]
@[simp] theorem thermalPass_lasting (s) : lasting (thermalPass s) = lasting s := by simp [thermalPass]

@[simp] theorem checkResult_lasting (d s) : lasting (checkResult d s) = lasting s := by
  unfold checkResult
  (repeat' split) <;> simp

@[simp] theorem execHkcResultConsume_lasting (s) : lasting (nextOf s (execHkcResultConsume s)) = lasting s := by
  simp [execHkcResultConsume]

@[simp] theorem execRailOutOfWindow_lasting (i s) : lasting (nextOf s (execRailOutOfWindow i s)) = lasting s := by
  simp [execRailOutOfWindow]

@[simp] theorem execSensorExclude_lasting (j s) : lasting (nextOf s (execSensorExclude j s)) = lasting s := by
  simp [execSensorExclude]

@[simp] theorem selectRef_lasting (ext s) : lasting (selectRef ext s) = lasting s := by simp [selectRef]
@[simp] theorem reselectRef_lasting (ext s) : lasting (reselectRef ext s) = lasting s := by simp [reselectRef]

@[simp] theorem execRefSettled_lasting (s) : lasting (nextOf s (execRefSettled s)) = lasting s := by
  simp [execRefSettled]

@[simp] theorem execRefCheckFail_lasting (s) : lasting (nextOf s (execRefCheckFail s)) = lasting s := by
  simp [execRefCheckFail]

@[simp] theorem onSlice_lasting (k f s) : lasting (onSlice k f s) = lasting s := by simp [onSlice]
@[simp] theorem endInputFault_lasting (k s) : lasting (endInputFault k s) = lasting s := by simp [endInputFault]
@[simp] theorem leaveService_lasting (k s) : lasting (leaveService k s) = lasting s := by simp [leaveService]
@[simp] theorem endCycle_lasting (k c s) : lasting (endCycle k c s) = lasting s := by simp [endCycle]
@[simp] theorem assignRoles_lasting (s) : lasting (assignRoles s) = lasting s := by simp [assignRoles]
@[simp] theorem initSlice_lasting (c s) : lasting (initSlice c s) = lasting s := by simp [initSlice]

@[simp] theorem execCalibrationDone_lasting (c s) : lasting (nextOf s (execCalibrationDone c s)) = lasting s := by
  simp [execCalibrationDone]

@[simp] theorem execRotationTick_lasting (s) : lasting (nextOf s (execRotationTick s)) = lasting s := by
  simp [execRotationTick]

@[simp] theorem execSliceRoleRotate_lasting (s) : lasting (nextOf s (execSliceRoleRotate s)) = lasting s := by
  simp only [execSliceRoleRotate]
  (repeat' split) <;> simp

@[simp] theorem execGroundCheckFail_lasting (s) : lasting (nextOf s (execGroundCheckFail s)) = lasting s := by
  simp [execGroundCheckFail]

@[simp] theorem execIntegWindowOpen_lasting (s) : lasting (nextOf s (execIntegWindowOpen s)) = lasting s := by
  unfold execIntegWindowOpen
  split <;> simp

@[simp] theorem inWindow_lasting (k s) : lasting (inWindow k s) = lasting s := by simp [inWindow]
@[simp] theorem compareEnergy_lasting (k e s) : lasting (compareEnergy k e s) = lasting s := by simp [compareEnergy]

@[simp] theorem countSaturation_lasting (k sat s) : lasting (countSaturation k sat s) = lasting s := by
  simp [countSaturation]

@[simp] theorem execIntegWindowClose_lasting (samples close s) :
    lasting (nextOf s (execIntegWindowClose samples close s)) = lasting s := by
  unfold execIntegWindowClose
  split <;> simp

@[simp] theorem execIntegOutOfWindow_lasting (k s) : lasting (nextOf s (execIntegOutOfWindow k s)) = lasting s := by
  simp [execIntegOutOfWindow]

@[simp] theorem execIntegSaturated_lasting (k s) : lasting (nextOf s (execIntegSaturated k s)) = lasting s := by
  simp [execIntegSaturated]

@[simp] theorem requestInjected_lasting (pin s) : lasting (requestInjected pin s) = lasting s := by
  simp [requestInjected]

@[simp] theorem execInjectRequest_lasting (src s) : lasting (nextOf s (execInjectRequest src s)) = lasting s := by
  unfold execInjectRequest
  split <;> simp

@[simp] theorem execInjectedResult_lasting (raw s) : lasting (nextOf s (execInjectedResult raw s)) = lasting s := by
  unfold execInjectedResult
  split <;> simp

@[simp] theorem execSleepScan_lasting (codes s) : lasting (nextOf s (execSleepScan codes s)) = lasting s := by
  unfold execSleepScan
  split
  · rfl
  · exact foldl_lasting _ (fun _ _ => by split <;> simp) _ s

@[simp] theorem integStart_lasting (s) : lasting (integStart s) = lasting s := by simp [integStart]
@[simp] theorem hkcReset_lasting (s) : lasting (hkcReset s) = lasting s := by simp [hkcReset]

@[simp] theorem hkcCommit_lasting (s) : lasting (hkcCommit s) = lasting s := by
  simp only [hkcCommit]
  split <;> simp

@[simp] theorem hkcSafe_lasting (s) : lasting (hkcSafe s) = lasting s := by simp [hkcSafe]
@[simp] theorem hkcSleep_lasting (s) : lasting (hkcSleep s) = lasting s := by simp [hkcSleep]
@[simp] theorem hkcWake_lasting (s) : lasting (hkcWake s) = lasting s := by simp [hkcWake]
@[simp] theorem reinitStartHkc_lasting (s) : lasting (reinitStartHkc s) = lasting s := by simp [reinitStartHkc]
@[simp] theorem reinitEndHkc_lasting (cal s) : lasting (reinitEndHkc cal s) = lasting s := by simp [reinitEndHkc]

/-! ### The Cope die and the Ladle -/

@[simp] theorem shiftCharge_lasting (s) : lasting (shiftCharge s) = lasting s := by simp [shiftCharge]
@[simp] theorem expose_lasting (k s) : lasting (expose k s) = lasting s := by simp [expose]
@[simp] theorem drainRows_lasting (s) : lasting (drainRows s) = lasting s := by simp [drainRows]
@[simp] theorem endDrain_lasting (s) : lasting (endDrain s) = lasting s := by simp [endDrain]

@[simp] theorem execDrainComplete_lasting (s) : lasting (nextOf s (execDrainComplete s)) = lasting s := by
  simp [execDrainComplete]

@[simp] theorem failRow_lasting (k row s) : lasting (failRow k row s) = lasting s := by simp [failRow]

@[simp] theorem execFieldGateClose_lasting (k badRows s) :
    lasting (nextOf s (execFieldGateClose k badRows s)) = lasting s := by
  simp [execFieldGateClose]

@[simp] theorem logSubst_lasting (g s) : lasting (logSubst g s) = lasting s := by simp [logSubst]
@[simp] theorem shareShadow_lasting (g s) : lasting (shareShadow g s) = lasting s := by simp [shareShadow]
@[simp] theorem flagDetection_lasting (s) : lasting (flagDetection s) = lasting s := by simp [flagDetection]
@[simp] theorem judgeShadow_lasting (g s) : lasting (judgeShadow g s) = lasting s := by simp [judgeShadow]
@[simp] theorem judgeColumn_lasting (h col s) : lasting (judgeColumn h col s) = lasting s := by simp [judgeColumn]

@[simp] theorem stepShadow_lasting (s g) : lasting (stepShadow s g) = lasting s := by
  simp only [stepShadow]
  (repeat' split) <;> simp

@[simp] theorem stepShadows_lasting (s) : lasting (stepShadows s) = lasting s := by simp [stepShadows]

@[simp] theorem execConversionComplete_lasting (k px shadow s) :
    lasting (nextOf s (execConversionComplete k px shadow s)) = lasting s := by
  unfold execConversionComplete
  split <;> simp

@[simp] theorem freezeField_lasting (k s) : lasting (freezeField k s) = lasting s := by simp [freezeField]
@[simp] theorem freezeAll_lasting (s) : lasting (freezeAll s) = lasting s := by simp [freezeAll]
@[simp] theorem countThaw_lasting (s) : lasting (countThaw s) = lasting s := by simp [countThaw]
@[simp] theorem execAffThaw_lasting (s) : lasting (nextOf s (execAffThaw s)) = lasting s := by simp [execAffThaw]

@[simp] theorem accumulateField_lasting (n k y s) : lasting (accumulateField n k y s) = lasting s := by
  simp [accumulateField]

@[simp] theorem endWindow_lasting (k s) : lasting (endWindow k s) = lasting s := by simp [endWindow]

@[simp] theorem execAffWindowEnd_lasting (s) : lasting (nextOf s (execAffWindowEnd s)) = lasting s := by
  simp [execAffWindowEnd]

@[simp] theorem affInit_lasting (s) : lasting (affInit s) = lasting s := by simp [affInit]
@[simp] theorem darkOfLine_lasting (n s) : lasting (darkOfLine n s) = lasting s := by simp [darkOfLine]
@[simp] theorem writeHist_lasting (n y poison s) : lasting (writeHist n y poison s) = lasting s := by rfl
@[simp] theorem pruneReg_lasting (n s) : lasting (pruneReg n s) = lasting s := by simp [pruneReg]

@[simp] theorem adaptLine_lasting (n y s) : lasting (adaptLine n y s) = lasting s :=
  foldl_lasting _ (fun _ _ => by split <;> simp) _ s

@[simp] theorem poisonLine_lasting (n f s) : lasting (poisonLine n f s) = lasting s := by
  refine foldl_lasting _ (fun _ _ => ?_) _ s
  rfl

@[simp] theorem execLadleLineComplete_lasting (reg s) :
    lasting (nextOf s (execLadleLineComplete reg s)) = lasting s := by
  unfold execLadleLineComplete
  split <;> simp

@[simp] theorem execLadleHalvesDisagree_lasting (s) : lasting (nextOf s (execLadleHalvesDisagree s)) = lasting s := by
  unfold execLadleHalvesDisagree
  (repeat' split) <;> simp

@[simp] theorem execDarkColumnExclude_lasting (left i s) :
    lasting (nextOf s (execDarkColumnExclude left i s)) = lasting s := by
  simp [execDarkColumnExclude]

@[simp] theorem capture_lasting (o parity r c s) : lasting (capture o parity r c s) = lasting s := by simp [capture]

@[simp] theorem crossingFaults_lasting (parity s) : lasting (crossingFaults parity s) = lasting s := by
  simp [crossingFaults]

@[simp] theorem broadcast_lasting (o parity s) : lasting (broadcast o parity s) = lasting s := by simp [broadcast]

@[simp] theorem execIngressLine_lasting (s parity) : lasting (nextOf s (execIngressLine s parity)) = lasting s := by
  unfold execIngressLine
  (repeat' split) <;> simp

@[simp] theorem execHistoryScrub_lasting (corrected bad s) :
    lasting (nextOf s (execHistoryScrub corrected bad s)) = lasting s := by
  simp [execHistoryScrub]

@[simp] theorem pixReset_lasting (s) : lasting (pixReset s) = lasting s := by simp [pixReset]
@[simp] theorem pixOff_lasting (s) : lasting (pixOff s) = lasting s := by simp [pixOff]
@[simp] theorem pixCommit_lasting (s) : lasting (pixCommit s) = lasting s := by simp [pixCommit]
@[simp] theorem pixRun_lasting (s) : lasting (pixRun s) = lasting s := by simp [pixRun]
@[simp] theorem pixSleep_lasting (s) : lasting (pixSleep s) = lasting s := by simp [pixSleep]
@[simp] theorem pixWake_lasting (s) : lasting (pixWake s) = lasting s := by simp [pixWake]
@[simp] theorem reinitStartPixel_lasting (s) : lasting (reinitStartPixel s) = lasting s := by simp [reinitStartPixel]
@[simp] theorem reinitEndPixel_lasting (s) : lasting (reinitEndPixel s) = lasting s := by simp [reinitEndPixel]

/-! ### Perches -/

@[simp] theorem onPerch_lasting (p f s) : lasting (onPerch p f s) = lasting s := by simp [onPerch]
@[simp] theorem onFinch_lasting (p f s) : lasting (onFinch p f s) = lasting s := by simp [onFinch]
@[simp] theorem onWren_lasting (p f s) : lasting (onWren p f s) = lasting s := by simp [onWren]
@[simp] theorem onRun_lasting (p f s) : lasting (onRun p f s) = lasting s := by simp [onRun]
@[simp] theorem onStage_lasting (p v f s) : lasting (onStage p v f s) = lasting s := by simp [onStage]
@[simp] theorem onCnt_lasting (f s) : lasting (onCnt f s) = lasting s := by simp [onCnt]
@[simp] theorem onWCnt_lasting (f s) : lasting (onWCnt f s) = lasting s := by simp [onWCnt]

/-! ### Counters of special values -/

@[simp] theorem countAccSat_lasting (sat s) : lasting (countAccSat sat s) = lasting s := by simp [countAccSat]
@[simp] theorem countSpecial_lasting (sp s) : lasting (countSpecial sp s) = lasting s := by simp [countSpecial]
@[simp] theorem countRqSat_lasting (sat s) : lasting (countRqSat sat s) = lasting s := by simp [countRqSat]

@[simp] theorem countEligible_lasting (narrow cheap s) : lasting (countEligible narrow cheap s) = lasting s := by
  simp [countEligible]

@[simp] theorem countQpoison_lasting (s) : lasting (countQpoison s) = lasting s := by simp [countQpoison]
@[simp] theorem countVoidPoison_lasting (t s) : lasting (countVoidPoison t s) = lasting s := by simp [countVoidPoison]

/-! ### Bundles -/

@[simp] theorem onIss_lasting (p f s) : lasting (onIss p f s) = lasting s := by simp [onIss]
@[simp] theorem beginOp_lasting (p i s) : lasting (beginOp p i s) = lasting s := by simp [beginOp]
@[simp] theorem onWork_lasting (p f s) : lasting (onWork p f s) = lasting s := by simp [onWork]
@[simp] theorem noteOp_lasting (p i out s) : lasting (noteOp p i out s) = lasting s := by simp [noteOp]

/-! ### Finch operations -/

@[simp] theorem stageOp_lasting (p v i g formats) (body : Finch → Bool → State → State)
    (h : ∀ fi mark t, lasting (body fi mark t) = lasting t) (s) :
    lasting (nextOf s (stageOp p v i g formats body s)) = lasting s := by
  simp [stageOp, h]

@[simp] theorem countIssue_lasting (f r s) : lasting (countIssue f r s) = lasting s := by simp [countIssue]

@[simp] theorem mvmExact_lasting (p v f acc x fi mark s) : lasting (mvmExact p v f acc x fi mark s) = lasting s := by
  simp [mvmExact]

@[simp] theorem mvmSkipped_lasting (v f acc fi s) : lasting (mvmSkipped v f acc fi s) = lasting s := by
  simp [mvmSkipped]

@[simp] theorem mvmBody_lasting (p v f acc src fi mark s) : lasting (mvmBody p v f acc src fi mark s) = lasting s := by
  simp [mvmBody]

@[simp] theorem execMvm_lasting (p v g f acc x s) : lasting (nextOf s (execMvm p v g f acc x s)) = lasting s := by
  simp [execMvm]

@[simp] theorem opaBody_lasting (p v f sa sb fi mark s) : lasting (opaBody p v f sa sb fi mark s) = lasting s := by
  simp [opaBody]

@[simp] theorem execOpa_lasting (p v g f a b s) : lasting (nextOf s (execOpa p v g f a b s)) = lasting s := by
  simp [execOpa]

@[simp] theorem lmacBody_lasting (p v f acc sa sb fi mark s) :
    lasting (lmacBody p v f acc sa sb fi mark s) = lasting s := by
  simp [lmacBody]

@[simp] theorem execLmac_lasting (p v g f acc a b s) : lasting (nextOf s (execLmac p v g f acc a b s)) = lasting s := by
  simp [execLmac]

@[simp] theorem laneBody_lasting (p v f op sa sb d fi mark s) :
    lasting (laneBody p v f op sa sb d fi mark s) = lasting s := by
  simp [laneBody]

@[simp] theorem arithBody_lasting (p v f oi of_ sa sb d fi mark s) :
    lasting (arithBody p v f oi of_ sa sb d fi mark s) = lasting s := by
  simp [arithBody]

@[simp] theorem execAdd_lasting (p v g f a b d s) : lasting (nextOf s (execAdd p v g f a b d s)) = lasting s := by
  simp [execAdd]

@[simp] theorem execSub_lasting (p v g f a b d s) : lasting (nextOf s (execSub p v g f a b d s)) = lasting s := by
  simp [execSub]

@[simp] theorem execMul_lasting (p v g f a b d s) : lasting (nextOf s (execMul p v g f a b d s)) = lasting s := by
  simp [execMul]

@[simp] theorem extremeBody_lasting (p v f want sa sb d fi mark s) :
    lasting (extremeBody p v f want sa sb d fi mark s) = lasting s := by
  simp [extremeBody]

@[simp] theorem execMax_lasting (p v g f a b d s) : lasting (nextOf s (execMax p v g f a b d s)) = lasting s := by
  simp [execMax]

@[simp] theorem execMin_lasting (p v g f a b d s) : lasting (nextOf s (execMin p v g f a b d s)) = lasting s := by
  simp [execMin]

@[simp] theorem rqBody_lasting (p v f acc d fi mark s) : lasting (rqBody p v f acc d fi mark s) = lasting s := by
  simp [rqBody]

@[simp] theorem execRq_lasting (p v g f acc desc s) : lasting (nextOf s (execRq p v g f acc desc s)) = lasting s := by
  simp [execRq]

@[simp] theorem lutBody_lasting (p v wide x fi mark s) : lasting (lutBody p v wide x fi mark s) = lasting s := by
  simp [lutBody]

@[simp] theorem execLut_lasting (p v g wide x s) : lasting (nextOf s (execLut p v g wide x s)) = lasting s := by
  simp [execLut]

@[simp] theorem cmpBody_lasting (p v f op sa sb m fi mark s) :
    lasting (cmpBody p v f op sa sb m fi mark s) = lasting s := by
  simp [cmpBody]

@[simp] theorem execCmp_lasting (p v g f op a b m s) : lasting (nextOf s (execCmp p v g f op a b m s)) = lasting s := by
  simp [execCmp]

@[simp] theorem plogBody_lasting (p op fi mark s) : lasting (plogBody p op fi mark s) = lasting s := by
  unfold plogBody
  split <;> simp

@[simp] theorem execPlog_lasting (p v g op s) : lasting (nextOf s (execPlog p v g op s)) = lasting s := by
  simp [execPlog]

@[simp] theorem selBody_lasting (p v f m sa sb d fi mark s) :
    lasting (selBody p v f m sa sb d fi mark s) = lasting s := by
  simp [selBody]

@[simp] theorem execSel_lasting (p v g m a b d s f) : lasting (nextOf s (execSel p v g m a b d s f)) = lasting s := by
  simp [execSel]

@[simp] theorem shfBody_lasting (p v f q x d fi mark s) : lasting (shfBody p v f q x d fi mark s) = lasting s := by
  simp [shfBody]

@[simp] theorem execShf_lasting (p v g q x d s f) : lasting (nextOf s (execShf p v g q x d s f)) = lasting s := by
  simp [execShf]

@[simp] theorem redBody_lasting (p v f mx x d fi mark s) : lasting (redBody p v f mx x d fi mark s) = lasting s := by
  simp [redBody]

@[simp] theorem execRed_lasting (p v g f max x d s) : lasting (nextOf s (execRed p v g f max x d s)) = lasting s := by
  simp [execRed]

@[simp] theorem aclrBody_lasting (p v accs _fi mark s) : lasting (aclrBody p v accs _fi mark s) = lasting s := by
  simp [aclrBody]

@[simp] theorem execAclr_lasting (p v g accs s) : lasting (nextOf s (execAclr p v g accs s)) = lasting s := by
  simp [execAclr]

@[simp] theorem amovBody_lasting (p v src dst fi mark s) : lasting (amovBody p v src dst fi mark s) = lasting s := by
  simp [amovBody]

@[simp] theorem execAmov_lasting (p v g src dst s) : lasting (nextOf s (execAmov p v g src dst s)) = lasting s := by
  simp [execAmov]

/-! ### Wren words -/

@[simp] theorem unmask_lasting (s) : lasting (unmask s) = lasting s := by simp [unmask]
@[simp] theorem finding_lasting (p s) : lasting (finding p s) = lasting s := by simp [finding]
@[simp] theorem degradeBeat_lasting (p s) : lasting (degradeBeat p s) = lasting s := by simp [degradeBeat]
@[simp] theorem putWord_lasting (p a w s) : lasting (putWord p a w s) = lasting s := by simp [putWord]

@[simp] theorem putWords_lasting (p as ws s) : lasting (putWords p as ws s) = lasting s := by
  induction as generalizing ws s with
  | nil => rfl
  | cons a r ih =>
    cases ws with
    | nil => rfl
    | cons w ws => exact (ih ws _).trans (putWord_lasting p a w s)

@[simp] theorem queueWb_lasting (p a w s) : lasting (queueWb p a w s) = lasting s := by simp [queueWb]

@[simp] theorem residentLost_lasting (p a s) : lasting (residentLost p a s) = lasting s := by
  unfold residentLost
  split <;> simp

@[simp] theorem wrenCorrected_lasting (code s) : lasting (wrenCorrected code s) = lasting s := by simp [wrenCorrected]
@[simp] theorem wrenLost_lasting (code s) : lasting (wrenLost code s) = lasting s := by simp [wrenLost]
@[simp] theorem poisonRead_lasting (s) : lasting (poisonRead s) = lasting s := by simp [poisonRead]

@[simp] theorem readWord_lasting (p a e s) : lasting (readWord p a e s).2 = lasting s := by
  simp only [readWord]
  (repeat' split) <;> simp

@[simp] theorem readWords_lasting (p as es s) : lasting (readWords p as es s).2 = lasting s := by
  induction as generalizing es s with
  | nil => rfl
  | cons a r ih => exact (ih es.tail _).trans (readWord_lasting p a _ s)

@[simp] theorem stepAg_lasting (p ag n s) : lasting (stepAg p ag n s) = lasting s := by simp [stepAg]

@[simp] theorem loadInput_lasting (p g ag fi ws s) : lasting (loadInput p g ag fi ws s) = lasting s := by
  simp [loadInput]

@[simp] theorem execLdw_lasting (p g ag ecc s) : lasting (nextOf s (execLdw p g ag ecc s)) = lasting s := by
  simp [execLdw]

@[simp] theorem execLdn_lasting (p g ag ecc s) : lasting (nextOf s (execLdn p g ag ecc s)) = lasting s := by
  simp [execLdn]

@[simp] theorem loadTile_lasting (p v g ag half fi ws s) : lasting (loadTile p v g ag half fi ws s) = lasting s := by
  simp [loadTile]

@[simp] theorem execLdt_lasting (p v g ag half ecc s) :
    lasting (nextOf s (execLdt p v g ag half ecc s)) = lasting s := by
  simp [execLdt]

@[simp] theorem blocked_lasting (p s) : lasting (blocked p s) = lasting s := by simp [blocked]

@[simp] theorem storeWords_lasting (p as d s) : lasting (storeWords p as d s) = lasting s := by
  unfold storeWords
  split <;> simp

@[simp] theorem storeOp_lasting (p g ag src n i s) : lasting (storeOp p g ag src n i s) = lasting s := by simp [storeOp]

@[simp] theorem execStw_lasting (p g ag src s) : lasting (nextOf s (execStw p g ag src s)) = lasting s := by
  simp [execStw]

@[simp] theorem execStn_lasting (p g ag src s) : lasting (nextOf s (execStn p g ag src s)) = lasting s := by
  simp [execStn]

@[simp] theorem putStall_lasting (p dir b s) : lasting (putStall p dir b s) = lasting s := by simp [putStall]

@[simp] theorem execPut_lasting (p g dir o unit ac src s) :
    lasting (nextOf s (execPut p g dir o unit ac src s)) = lasting s := by
  unfold execPut
  split <;> simp

@[simp] theorem enqueueNb_lasting (p owner dir s) : lasting (enqueueNb p owner dir s) = lasting s := by
  unfold enqueueNb
  split <;> simp

@[simp] theorem crossRequest_lasting (p owner dir parity s) :
    lasting (crossRequest p owner dir parity s) = lasting s := by
  unfold crossRequest
  split <;> simp

@[simp] theorem execNbwRequest_lasting (p dir s parity) :
    lasting (nextOf s (execNbwRequest p dir s parity)) = lasting s := by
  unfold execNbwRequest
  split <;> simp

@[simp] theorem unstall_lasting (p s) : lasting (unstall p s) = lasting s := by simp [unstall]

@[simp] theorem releasePut_lasting (owner port s) : lasting (releasePut owner port s) = lasting s := by
  unfold releasePut
  split <;> simp

@[simp] theorem checkRequest_lasting (owner e q s) : lasting (checkRequest owner e q s).2 = lasting s := by
  unfold checkRequest
  split <;> simp

@[simp] theorem execNbwAccept_lasting (p port ecc s) : lasting (nextOf s (execNbwAccept p port ecc s)) = lasting s := by
  unfold execNbwAccept
  split <;> simp

@[simp] theorem creditFault_lasting (p s) : lasting (creditFault p s) = lasting s := by simp [creditFault]
@[simp] theorem countArrival_lasting (p k s) : lasting (countArrival p k s) = lasting s := by simp [countArrival]
@[simp] theorem completeWait_lasting (p s) : lasting (completeWait p s) = lasting s := by simp [completeWait]

@[simp] theorem execNbwLand_lasting (p s) : lasting (nextOf s (execNbwLand p s)) = lasting s := by
  unfold execNbwLand
  split <;> simp

@[simp] theorem execIngressWordWrite_lasting (p s) : lasting (nextOf s (execIngressWordWrite p s)) = lasting s := by
  simp [execIngressWordWrite]

@[simp] theorem writeBack_lasting (p s) : lasting (writeBack p s) = lasting s := by
  unfold writeBack
  split <;> simp

@[simp] theorem execCorrectionWriteback_lasting (p s) :
    lasting (nextOf s (execCorrectionWriteback p s)) = lasting s := by
  simp [execCorrectionWriteback]

@[simp] theorem spillToken_lasting (p s) : lasting (spillToken p s) = lasting s := by
  unfold spillToken
  split <;> simp

@[simp] theorem spillOnce_lasting (p s) : lasting (spillOnce p s) = lasting s := by simp [spillOnce]

@[simp] theorem execSpillWrite_lasting (p s) : lasting (nextOf s (execSpillWrite p s)) = lasting s := by
  simp [execSpillWrite]

@[simp] theorem loaderRow_lasting (p g row s) : lasting (loaderRow p g row s) = lasting s := by simp [loaderRow]

@[simp] theorem execLoaderWrite_lasting (p rgn row s) :
    lasting (nextOf s (execLoaderWrite p rgn row s)) = lasting s := by
  unfold execLoaderWrite
  split <;> simp

@[simp] theorem execForcedSlot_lasting (p s) : lasting (nextOf s (execForcedSlot p s)) = lasting s := by
  unfold execForcedSlot
  (repeat' split) <;> simp

@[simp] theorem execWrenScrubRow_lasting (p ecc s) : lasting (nextOf s (execWrenScrubRow p ecc s)) = lasting s := by
  simp [execWrenScrubRow]

@[simp] theorem loadRegion_lasting (m slot p g s) : lasting (loadRegion m slot p g s) = lasting s := by
  simp [loadRegion]

@[simp] theorem loadWren_lasting (m slot p s) : lasting (loadWren m slot p s) = lasting s := by simp [loadWren]
@[simp] theorem clearTag_lasting (s) : lasting (clearTag s) = lasting s := by simp [clearTag]

@[simp] theorem stageResident_lasting (m slot s) : lasting (stageResident m slot s) = lasting s := by
  simp [stageResident]

@[simp] theorem retentionFailed_lasting (p s) : lasting (retentionFailed p s) = lasting s := by simp [retentionFailed]

@[simp] theorem retentionReads_lasting (m p found s) : lasting (retentionReads m p found s) = lasting s := by
  simp [retentionReads]

@[simp] theorem setTag_lasting (m s) : lasting (setTag m s) = lasting s := by simp [setTag]
@[simp] theorem rewriteEnds_lasting (p g s) : lasting (rewriteEnds p g s) = lasting s := by simp [rewriteEnds]

@[simp] theorem execResidentRewriteDone_lasting (p s) :
    lasting (nextOf s (execResidentRewriteDone p s)) = lasting s := by
  unfold execResidentRewriteDone
  (repeat' split) <;> simp

@[simp] theorem zeroStreaming_lasting (m s) : lasting (zeroStreaming m s) = lasting s := by simp [zeroStreaming]

/-! ### Runners -/

@[simp] theorem moved_lasting (q link ch s) : lasting (moved q link ch s) = lasting s := by simp [moved]
@[simp] theorem notePeak_lasting (p s) : lasting (notePeak p s) = lasting s := by simp [notePeak]
@[simp] theorem dropToken_lasting (p s) : lasting (dropToken p s) = lasting s := by simp [dropToken]
@[simp] theorem spill_lasting (p dir front t s) : lasting (spill p dir front t s) = lasting s := by simp [spill]
@[simp] theorem takeCredit_lasting (p dir t s) : lasting (takeCredit p dir t s) = lasting s := by simp [takeCredit]
@[simp] theorem sendStatic_lasting (p dir t s) : lasting (sendStatic p dir t s) = lasting s := by simp [sendStatic]
@[simp] theorem sendElastic_lasting (p dir t s) : lasting (sendElastic p dir t s) = lasting s := by simp [sendElastic]

@[simp] theorem execSend_lasting (p g dir ch tag src s) :
    lasting (nextOf s (execSend p g dir ch tag src s)) = lasting s := by
  unfold execSend
  (repeat' split) <;> simp

@[simp] theorem releaseSend_lasting (p s) : lasting (releaseSend p s) = lasting s := by simp [releaseSend]
@[simp] theorem dequeue_lasting (q link ch s) : lasting (dequeue q link ch s) = lasting s := by simp [dequeue]

@[simp] theorem returnCredit_lasting (q link ch s) : lasting (returnCredit q link ch s) = lasting s := by
  unfold returnCredit
  split <;> simp

@[simp] theorem logToken_lasting (q t s) : lasting (logToken q t s) = lasting s := by simp [logToken]

@[simp] theorem writeToken_lasting (q t pd mark s) : lasting (writeToken q t pd mark s) = lasting s := by
  unfold writeToken
  split <;> simp

@[simp] theorem takeToken_lasting (q link ch t write pd mark s) :
    lasting (takeToken q link ch t write pd mark s) = lasting s := by
  simp [takeToken]

@[simp] theorem recvStatic_lasting (q link ch write pd mark s) :
    lasting (recvStatic q link ch write pd mark s) = lasting s := by
  unfold recvStatic
  split <;> simp

@[simp] theorem recvElastic_lasting (q link ch pd mark s) : lasting (recvElastic q link ch pd mark s) = lasting s := by
  unfold recvElastic
  (repeat' split) <;> simp

@[simp] theorem execRecv_lasting (p g link ch pd s) : lasting (nextOf s (execRecv p g link ch pd s)) = lasting s := by
  unfold execRecv
  (repeat' split) <;> simp

@[simp] theorem releaseRecv_lasting (q link ch s) : lasting (releaseRecv q link ch s) = lasting s := by
  unfold releaseRecv
  split <;> simp

@[simp] theorem execEgr_lasting (p g tag src s) : lasting (nextOf s (execEgr p g tag src s)) = lasting s := by
  simp [execEgr]

@[simp] theorem execWait_lasting (p k n s) : lasting (nextOf s (execWait p k n s)) = lasting s := by simp [execWait]

@[simp] theorem execLinkTransfer_lasting (p dir s) : lasting (nextOf s (execLinkTransfer p dir s)) = lasting s := by
  simp only [execLinkTransfer]
  (repeat' split) <;> simp

@[simp] theorem deliver_lasting (q link t s) : lasting (deliver q link t s) = lasting s := by simp [deliver]
@[simp] theorem clearLink_lasting (p dir s) : lasting (clearLink p dir s) = lasting s := by simp [clearLink]

@[simp] theorem execTokenReceive_lasting (p dir parityOk s) :
    lasting (nextOf s (execTokenReceive p dir parityOk s)) = lasting s := by
  unfold execTokenReceive
  split <;> simp

@[simp] theorem execTokenResend_lasting (p dir parityOk s) :
    lasting (nextOf s (execTokenResend p dir parityOk s)) = lasting s := by
  unfold execTokenResend
  split <;> simp

@[simp] theorem execCreditReturn_lasting (p dir ch parityOk s) :
    lasting (nextOf s (execCreditReturn p dir ch parityOk s)) = lasting s := by
  simp [execCreditReturn]

@[simp] theorem execCreditResync_lasting (p link ch s) :
    lasting (nextOf s (execCreditResync p link ch s)) = lasting s := by
  unfold execCreditResync
  split <;> simp

@[simp] theorem execSendCreditTimeout_lasting (p s) : lasting (nextOf s (execSendCreditTimeout p s)) = lasting s := by
  simp only [execSendCreditTimeout]
  (repeat' split) <;> simp

@[simp] theorem execWaitTimeout_lasting (p s) : lasting (nextOf s (execWaitTimeout p s)) = lasting s := by
  simp [execWaitTimeout]

@[simp] theorem spillBuffer_lasting (p d s) : lasting (spillBuffer p d s) = lasting s :=
  (foldl_lasting _ (fun _ _ => spill_lasting _ _ _ _ _) _ _).trans (onRun_lasting _ _ s)

@[simp] theorem execElasticWatchFire_lasting (grp s) : lasting (nextOf s (execElasticWatchFire grp s)) = lasting s := by
  simp [execElasticWatchFire]

@[simp] theorem execRiserRead_lasting (p dir ch ecc s) :
    lasting (nextOf s (execRiserRead p dir ch ecc s)) = lasting s := by
  simp only [execRiserRead]
  split <;> simp

@[simp] theorem clearRunners_lasting (s) : lasting (clearRunners s) = lasting s := by simp [clearRunners]

/-! ### The check tithe -/

@[simp] theorem nextSlice_lasting (p s) : lasting (nextSlice p s) = lasting s := by simp [nextSlice]
@[simp] theorem skipTithe_lasting (p s) : lasting (skipTithe p s) = lasting s := by simp [skipTithe]

@[simp] theorem execTitheSnapshot_lasting (p s) : lasting (nextOf s (execTitheSnapshot p s)) = lasting s := by
  simp [execTitheSnapshot]

@[simp] theorem stageAgain_lasting (p i s) : lasting (nextOf s (stageAgain p i s)) = lasting s := by
  unfold stageAgain
  split <;> simp

@[simp] theorem storeAgain_lasting (p g ag src n i s) : lasting (storeAgain p g ag src n i s) = lasting s := by
  simp [storeAgain]

@[simp] theorem popToken_lasting (p s) : lasting (popToken p s) = lasting s := by simp [popToken]

@[simp] theorem recvAgain_lasting (p g link ch pd i s) : lasting (recvAgain p g link ch pd i s) = lasting s := by
  unfold recvAgain
  (repeat' split) <;> simp

@[simp] theorem afterOp_eq_nextOf (o s) : afterOp o s = nextOf s o := by
  cases o <;> rfl

@[simp] theorem opAgain_lasting (p i es s) : lasting (opAgain p i es s) = lasting s := by
  unfold opAgain
  split <;> simp

@[simp] theorem mouldAgain_lasting (p m s) : lasting (mouldAgain p m s) = lasting s := by simp [mouldAgain]

@[simp] theorem replayOps_lasting (p ops es bad s) : lasting (replayOps p ops es bad s).2 = lasting s := by
  induction ops generalizing es bad s with
  | nil => rfl
  | cons o r ih =>
    simp only [replayOps, ih, opAgain_lasting, mouldAgain_lasting]

@[simp] theorem rewind_lasting (p q w s) : lasting (rewind p q w s) = lasting s := by simp [rewind]

@[simp] theorem unwind_lasting (p s t) : lasting (unwind p s t) = lasting t := rfl
@[simp] theorem reexecute_lasting (p q w j es s) : lasting (reexecute p q w j es s).2 = lasting s := by
  simp [reexecute]

@[simp] theorem judgeFinch_lasting (f slice checker s) : lasting (judgeFinch f slice checker s) = lasting s := by
  simp [judgeFinch]

@[simp] theorem endFinding_lasting (f s) : lasting (endFinding f s) = lasting s := by
  simp only [endFinding]
  split <;> simp

@[simp] theorem clearFinding_lasting (checker slice s) : lasting (clearFinding checker slice s) = lasting s := by
  simp [clearFinding]

@[simp] theorem arbitrate_lasting (checked checker arbiter slice own re arb s) :
    lasting (arbitrate checked checker arbiter slice own re arb s) = lasting s := by
  simp [arbitrate]

@[simp] theorem storeFinding_lasting (west store s) : lasting (storeFinding west store s) = lasting s := by
  unfold storeFinding
  split <;> simp

@[simp] theorem titheSigs_lasting (p j masks ecc eccArb s) :
    lasting (titheSigs p j masks ecc eccArb s).2 = lasting s := by
  simp only [titheSigs]
  (repeat' split) <;> simp

@[simp] theorem closeTithe_lasting (p sigs s) : lasting (closeTithe p sigs s) = lasting s := by
  unfold closeTithe
  split <;> simp

@[simp] theorem execTitheSlot_lasting (p own re arb s store ecc eccArb) :
    lasting (nextOf s (execTitheSlot p own re arb s store ecc eccArb)) = lasting s := by
  simp [execTitheSlot]

/-! ### The fabric -/

@[simp] theorem overrun_lasting (p s) : lasting (overrun p s) = lasting s := by simp [overrun]

@[simp] theorem loadEventInputs_lasting (p l s) : lasting (loadEventInputs p l s) = lasting s := by
  simp [loadEventInputs]

@[simp] theorem countToken_lasting (l s) : lasting (countToken l s) = lasting s := by simp [countToken]
@[simp] theorem startBeat_lasting (p l late s) : lasting (startBeat p l late s) = lasting s := by simp [startBeat]
@[simp] theorem holdToken_lasting (p l s) : lasting (holdToken p l s) = lasting s := by simp [holdToken]

@[simp] theorem execBeatStart_lasting (p late slip s) :
    lasting (nextOf s (execBeatStart p late slip s)) = lasting s := by
  simp only [execBeatStart]
  (repeat' split) <;> simp

@[simp] theorem perchFails_lasting (p s) : lasting (perchFails p s) = lasting s := by simp [perchFails]

@[simp] theorem execLagTimeout_lasting (p s) : lasting (nextOf s (execLagTimeout p s)) = lasting s := by
  simp [execLagTimeout]

@[simp] theorem execMouldStart_lasting (p overrun s) : lasting (nextOf s (execMouldStart p overrun s)) = lasting s := by
  simp [execMouldStart]

@[simp] theorem execFloorWindow_lasting (p cycles s) : lasting (nextOf s (execFloorWindow p cycles s)) = lasting s := by
  simp [execFloorWindow]

@[simp] theorem abortRepair_lasting (s) : lasting (abortRepair s) = lasting s := by
  unfold abortRepair
  split <;> simp

@[simp] theorem execSpareSelfTest_lasting (failed s) : lasting (nextOf s (execSpareSelfTest failed s)) = lasting s := by
  simp only [execSpareSelfTest]
  (repeat' split) <;> simp

@[simp] theorem skipBeats_lasting (rep keep s) : lasting (skipBeats rep keep s) = lasting s := by simp [skipBeats]
@[simp] theorem fabricRestart_lasting (s) : lasting (fabricRestart s) = lasting s := by simp [fabricRestart]
@[simp] theorem clearFinches_lasting (s) : lasting (clearFinches s) = lasting s := by simp [clearFinches]
@[simp] theorem abortBeats_lasting (s) : lasting (abortBeats s) = lasting s := by simp [abortBeats]
@[simp] theorem stopBeats_lasting (s) : lasting (stopBeats s) = lasting s := by simp [stopBeats]
@[simp] theorem fabReset_lasting (kind s) : lasting (fabReset kind s) = lasting s := by simp [fabReset]
@[simp] theorem fabOff_lasting (s) : lasting (fabOff s) = lasting s := by simp [fabOff]
@[simp] theorem powerPerches_lasting (s) : lasting (powerPerches s) = lasting s := by simp [powerPerches]
@[simp] theorem fabCommit_lasting (s) : lasting (fabCommit s) = lasting s := by simp [fabCommit]
@[simp] theorem fabRun_lasting (s) : lasting (fabRun s) = lasting s := by simp [fabRun]
@[simp] theorem fabSleep_lasting (s) : lasting (fabSleep s) = lasting s := by simp [fabSleep]
@[simp] theorem reloadFailed_lasting (p s) : lasting (reloadFailed p s) = lasting s := by simp [reloadFailed]
@[simp] theorem wakeWren_lasting (found p s) : lasting (wakeWren found p s) = lasting s := by simp [wakeWren]
@[simp] theorem fabWake_lasting (found s) : lasting (fabWake found s) = lasting s := by simp [fabWake]
@[simp] theorem reinitStartFabric_lasting (s) : lasting (reinitStartFabric s) = lasting s := by simp [reinitStartFabric]
@[simp] theorem reinitEndFabric_lasting (s) : lasting (reinitEndFabric s) = lasting s := by simp [reinitEndFabric]

/-! ### Pins -/

@[simp] theorem onPin_lasting (p f s) : lasting (onPin p f s) = lasting s := by simp [onPin]
@[simp] theorem onPins_lasting (f s) : lasting (onPins f s) = lasting s := by simp [onPins]

@[simp] theorem withPins_lasting (f s) : lasting (withPins f s) = lasting (f s) := by
  rw [withPins_changes]
  rfl

@[simp] theorem foreign_lasting (who p s) : lasting (foreign who p s) = lasting s := by simp [foreign]
@[simp] theorem writeCfg_lasting (who p v s) : lasting (writeCfg who p v s) = lasting s := by simp [writeCfg]
@[simp] theorem writeBit_lasting (who p v s) : lasting (writeBit who p v s) = lasting s := by simp [writeBit]

@[simp] theorem writeBank_lasting (who b named v s) : lasting (writeBank who b named v s) = lasting s := by
  simp [writeBank]

@[simp] theorem writeData_lasting (who b v s) : lasting (writeData who b v s) = lasting s := by simp [writeData]
@[simp] theorem writeSet_lasting (who b v s) : lasting (writeSet who b v s) = lasting s := by simp [writeSet]
@[simp] theorem writeClr_lasting (who b v s) : lasting (writeClr who b v s) = lasting s := by simp [writeClr]
@[simp] theorem writeTgl_lasting (who b v s) : lasting (writeTgl who b v s) = lasting s := by simp [writeTgl]

@[simp] theorem execGpioCfgWrite_lasting (who p v s) : lasting (nextOf s (execGpioCfgWrite who p v s)) = lasting s := by
  simp [execGpioCfgWrite]

@[simp] theorem execGpioDataWrite_lasting (who bank v s) :
    lasting (nextOf s (execGpioDataWrite who bank v s)) = lasting s := by
  simp [execGpioDataWrite]

@[simp] theorem execGpioSet_lasting (who bank v s) : lasting (nextOf s (execGpioSet who bank v s)) = lasting s := by
  simp [execGpioSet]

@[simp] theorem execGpioClr_lasting (who bank v s) : lasting (nextOf s (execGpioClr who bank v s)) = lasting s := by
  simp [execGpioClr]

@[simp] theorem execGpioTgl_lasting (who bank v s) : lasting (nextOf s (execGpioTgl who bank v s)) = lasting s := by
  simp [execGpioTgl]

@[simp] theorem execSupActUpdate_lasting (p s) : lasting (nextOf s (execSupActUpdate p s)) = lasting s := by
  simp [execSupActUpdate]

@[simp] theorem openInstant_lasting (key s) : lasting (openInstant key s) = lasting s := by simp [openInstant]
@[simp] theorem portActs_lasting (k key s) : lasting (portActs k key s) = lasting s := by simp [portActs]
@[simp] theorem releaseToPort_lasting (k j s) : lasting (releaseToPort k j s) = lasting s := by simp [releaseToPort]

@[simp] theorem execEvpDelayedAct_lasting (k s) : lasting (nextOf s (execEvpDelayedAct k s)) = lasting s := by
  unfold execEvpDelayedAct
  split <;> simp

@[simp] theorem execPulseEnd_lasting (k s) : lasting (nextOf s (execPulseEnd k s)) = lasting s := by simp [execPulseEnd]
@[simp] theorem dropHeld_lasting (s) : lasting (dropHeld s) = lasting s := by simp [dropHeld]
@[simp] theorem endPulses_lasting (count s) : lasting (endPulses count s) = lasting s := by simp [endPulses]
@[simp] theorem startLineOut_lasting (encz s) : lasting (startLineOut encz s) = lasting s := by simp [startLineOut]

@[simp] theorem execLineOutPulseEnd_lasting (p s) : lasting (nextOf s (execLineOutPulseEnd p s)) = lasting s := by
  simp [execLineOutPulseEnd]

@[simp] theorem execPinInterrupt_lasting (p level samples s) :
    lasting (nextOf s (execPinInterrupt p level samples s)) = lasting s := by
  simp [execPinInterrupt]

@[simp] theorem clearEdges_lasting (s) : lasting (clearEdges s) = lasting s := by simp [clearEdges]
@[simp] theorem clearInt_lasting (b v s) : lasting (clearInt b v s) = lasting s := by simp [clearInt]

@[simp] theorem execI2cPoll_lasting (m a s) : lasting (nextOf s (execI2cPoll m a s)) = lasting s := by
  unfold execI2cPoll
  (repeat' split) <;> simp

@[simp] theorem execI2cStretchTimeout_lasting (m s) : lasting (nextOf s (execI2cStretchTimeout m s)) = lasting s := by
  simp [execI2cStretchTimeout]

@[simp] theorem execBankSupplyRangeDetect_lasting (b mv s) :
    lasting (nextOf s (execBankSupplyRangeDetect b mv s)) = lasting s := by
  simp [execBankSupplyRangeDetect]

@[simp] theorem execBoundaryScanInstruction_lasting (drives cells s) :
    lasting (nextOf s (execBoundaryScanInstruction drives cells s)) = lasting s := by
  simp [execBoundaryScanInstruction]

@[simp] theorem gpioReset_lasting (s) : lasting (gpioReset s) = lasting s := by simp [gpioReset]
@[simp] theorem gpioCommit_lasting (s) : lasting (gpioCommit s) = lasting s := by simp [gpioCommit]
@[simp] theorem gpioSafe_lasting (s) : lasting (gpioSafe s) = lasting s := by simp [gpioSafe]
@[simp] theorem gpioSleep_lasting (s) : lasting (gpioSleep s) = lasting s := by simp [gpioSleep]
@[simp] theorem gpioWake_lasting (s) : lasting (gpioWake s) = lasting s := by simp [gpioWake]

/-! ### Egress lanes -/

@[simp] theorem onLane_lasting (l f s) : lasting (onLane l f s) = lasting s := by simp [onLane]
@[simp] theorem announce_lasting (l s) : lasting (announce l s) = lasting s := by simp [announce]
@[simp] theorem learnMac_lasting (l mac s) : lasting (learnMac l mac s) = lasting s := by simp [learnMac]
@[simp] theorem askNextHop_lasting (l s) : lasting (askNextHop l s) = lasting s := by simp [askNextHop]

@[simp] theorem gainLock_lasting (l s) : lasting (gainLock l s) = lasting s := by
  simp only [gainLock]
  (repeat' split) <;> simp

@[simp] theorem dropLaneWork_lasting (l s) : lasting (dropLaneWork l s) = lasting s := by simp [dropLaneWork]
@[simp] theorem seeArp_lasting (l mac ip s) : lasting (seeArp l mac ip s) = lasting s := by simp [seeArp]

@[simp] theorem arpRequest_lasting (l mac ip target s) : lasting (arpRequest l mac ip target s) = lasting s := by
  simp [arpRequest]

@[simp] theorem execArpResolveTimer_lasting (l s) : lasting (nextOf s (execArpResolveTimer l s)) = lasting s := by
  simp [execArpResolveTimer]

@[simp] theorem execReceivedFrameDrop_lasting (l frame s) :
    lasting (nextOf s (execReceivedFrameDrop l frame s)) = lasting s := by
  simp [execReceivedFrameDrop]

@[simp] theorem closeDatagram_lasting (s) : lasting (closeDatagram s) = lasting s := by simp [closeDatagram]
@[simp] theorem queueRecord_lasting (r s) : lasting (queueRecord r s) = lasting s := by simp [queueRecord]
@[simp] theorem flush_lasting (s) : lasting (flush s) = lasting s := by simp [flush]

@[simp] theorem execFlushTimeout_lasting (s) : lasting (nextOf s (execFlushTimeout s)) = lasting s := by
  simp [execFlushTimeout]

@[simp] theorem execKeepalive_lasting (s) : lasting (nextOf s (execKeepalive s)) = lasting s := by simp [execKeepalive]

@[simp] theorem execDatagramTx_lasting (l s) : lasting (nextOf s (execDatagramTx l s)) = lasting s := by
  simp only [execDatagramTx]
  (repeat' split) <;> simp

@[simp] theorem execRingAgeOut_lasting (s) : lasting (nextOf s (execRingAgeOut s)) = lasting s := by
  unfold execRingAgeOut
  split <;> simp

@[simp] theorem execRetryRequest_lasting (l srcIp s payload) :
    lasting (nextOf s (execRetryRequest l srcIp s payload)) = lasting s := by
  simp [execRetryRequest]

@[simp] theorem sendNak_lasting (l seq count reason s) : lasting (sendNak l seq count reason s) = lasting s := by
  simp [sendNak]

@[simp] theorem execRetransmit_lasting (l ecc s) : lasting (nextOf s (execRetransmit l ecc s)) = lasting s := by
  simp only [execRetransmit]
  (repeat' split) <;> simp

@[simp] theorem netCommit_lasting (s) : lasting (netCommit s) = lasting s := by simp [netCommit]
@[simp] theorem netReset_lasting (s) : lasting (netReset s) = lasting s := by simp [netReset]
@[simp] theorem netSafe_lasting (s) : lasting (netSafe s) = lasting s := by simp [netSafe]
@[simp] theorem netSleep_lasting (s) : lasting (netSleep s) = lasting s := by simp [netSleep]
@[simp] theorem netWake_lasting (s) : lasting (netWake s) = lasting s := by simp [netWake]

/-! ### Precision time -/

@[simp] theorem onPtp_lasting (l f s) : lasting (onPtp l f s) = lasting s := by simp [onPtp]
@[simp] theorem setPtpState_lasting (n s) : lasting (setPtpState n s) = lasting s := by simp [setPtpState]
@[simp] theorem useLane_lasting (l s) : lasting (useLane l s) = lasting s := by simp [useLane]
@[simp] theorem rebase_lasting (s) : lasting (rebase s) = lasting s := by simp [rebase]
@[simp] theorem noteA_lasting (s) : lasting (noteA s) = lasting s := by simp [noteA]
@[simp] theorem watchPaths_lasting (s) : lasting (watchPaths s) = lasting s := by simp [watchPaths]
@[simp] theorem setCandidates_lasting (l c s) : lasting (setCandidates l c s) = lasting s := by simp [setCandidates]

@[simp] theorem execAnnounceReceive_lasting (l a s h) :
    lasting (nextOf s (execAnnounceReceive l a s h)) = lasting s := by
  simp [execAnnounceReceive]

@[simp] theorem execAnnounceTimeout_lasting (l s) : lasting (nextOf s (execAnnounceTimeout l s)) = lasting s := by
  unfold execAnnounceTimeout
  split <;> simp

@[simp] theorem stepTime_lasting (off s) : lasting (stepTime off s) = lasting s := by simp [stepTime]
@[simp] theorem steer_lasting (off s) : lasting (steer off s) = lasting s := by simp [steer]
@[simp] theorem stateAfter_lasting (off s) : lasting (stateAfter off s) = lasting s := by simp [stateAfter]
@[simp] theorem servo_lasting (off s) : lasting (servo off s) = lasting s := by simp [servo]
@[simp] theorem useSync_lasting (l t1 t2 s) : lasting (useSync l t1 t2 s) = lasting s := by simp [useSync]

@[simp] theorem execSyncReceive_lasting (l m s h quanta) :
    lasting (nextOf s (execSyncReceive l m s h quanta)) = lasting s := by
  simp [execSyncReceive]

@[simp] theorem execFollowUpReceive_lasting (l source seqId origin corr s h) :
    lasting (nextOf s (execFollowUpReceive l source seqId origin corr s h)) = lasting s := by
  unfold execFollowUpReceive
  split <;> simp

@[simp] theorem execFollowUpTimeout_lasting (l s) : lasting (nextOf s (execFollowUpTimeout l s)) = lasting s := by
  simp [execFollowUpTimeout]

@[simp] theorem execDelayReqTimer_lasting (l quanta s) :
    lasting (nextOf s (execDelayReqTimer l quanta s)) = lasting s := by
  simp [execDelayReqTimer]

@[simp] theorem execDelayRespReceive_lasting (l source seqId rx corr s h logInterval requesting) :
    lasting (nextOf s (execDelayRespReceive l source seqId rx corr s h logInterval requesting)) = lasting s := by
  simp only [execDelayRespReceive]
  split <;> simp

@[simp] theorem execTimePathMarker_lasting (l txErr rxErr s) :
    lasting (nextOf s (execTimePathMarker l txErr rxErr s)) = lasting s := by
  simp [execTimePathMarker]

@[simp] theorem execPtpFailback_lasting (s) : lasting (nextOf s (execPtpFailback s)) = lasting s := by
  simp [execPtpFailback]

@[simp] theorem execTlcResync_lasting (s) : lasting (nextOf s (execTlcResync s)) = lasting s := by
  unfold execTlcResync
  split <;> simp

@[simp] theorem judgeTime_lasting (s) : lasting (judgeTime s) = lasting s := by
  unfold judgeTime
  (repeat' split) <;> simp

@[simp] theorem execPpsSecond_lasting (s) : lasting (nextOf s (execPpsSecond s)) = lasting s := by simp [execPpsSecond]

@[simp] theorem execPpsWidthEnd_lasting (s) : lasting (nextOf s (execPpsWidthEnd s)) = lasting s := by
  simp [execPpsWidthEnd]

@[simp] theorem execBlockLockGain_lasting (l s) : lasting (nextOf s (execBlockLockGain l s)) = lasting s := by
  simp [execBlockLockGain]

@[simp] theorem execArpRequestReceive_lasting (l mac ip target s) :
    lasting (nextOf s (execArpRequestReceive l mac ip target s)) = lasting s := by
  simp [execArpRequestReceive]

@[simp] theorem execArpPacketReceive_lasting (l mac ip s) :
    lasting (nextOf s (execArpPacketReceive l mac ip s)) = lasting s := by
  simp [execArpPacketReceive]

@[simp] theorem ptpCommit_lasting (s) : lasting (ptpCommit s) = lasting s := by simp [ptpCommit]
@[simp] theorem ptpReset_lasting (s) : lasting (ptpReset s) = lasting s := by simp [ptpReset]
@[simp] theorem ptpSleep_lasting (s) : lasting (ptpSleep s) = lasting s := by simp [ptpSleep]
@[simp] theorem ptpWake_lasting (s) : lasting (ptpWake s) = lasting s := by simp [ptpWake]
@[simp] theorem reinitEndEgress_lasting (s) : lasting (reinitEndEgress s) = lasting s := by simp [reinitEndEgress]

/-! ### Starling ports -/

@[simp] theorem onPort_lasting (d f s) : lasting (onPort d f s) = lasting s := by simp [onPort]
@[simp] theorem sendFrame_lasting (d f s) : lasting (sendFrame d f s) = lasting s := by simp [sendFrame]
@[simp] theorem sendRing_lasting (f s) : lasting (sendRing f s) = lasting s := by simp [sendRing]

/-! ### The Sprue -/

@[simp] theorem onSprue_lasting (f s) : lasting (onSprue f s) = lasting s := by simp [onSprue]

@[simp] theorem actOn_lasting (row col beat t s) : lasting (actOn row col beat t s) = lasting s := by
  simp only [actOn]
  (repeat' split) <;> simp

@[simp] theorem receiveEgress_lasting (p parity t s) : lasting (receiveEgress p parity t s).2 = lasting s := by
  unfold receiveEgress
  split <;> simp

@[simp] theorem execSprueToken_lasting (row col parity s) :
    lasting (nextOf s (execSprueToken row col parity s)) = lasting s := by
  simp only [execSprueToken]
  split <;> simp

@[simp] theorem withholdCrop_lasting (n s) : lasting (withholdCrop n s) = lasting s := by simp [withholdCrop]

@[simp] theorem readSlot_lasting (i e s) : lasting (readSlot i e s) = lasting s := by
  unfold readSlot
  split <;> simp

@[simp] theorem readHistory_lasting (hist line h s) : lasting (readHistory hist line h s) = lasting s := by
  simp [readHistory]

@[simp] theorem takeCrop_lasting (c s) : lasting (takeCrop c s) = lasting s := by simp [takeCrop]

@[simp] theorem readStore_lasting (c e s) : lasting (readStore c e s).2.2 = lasting s := by
  unfold readStore
  split <;> simp

@[simp] theorem execCropCopy_lasting (store s) : lasting (nextOf s (execCropCopy store s)) = lasting s := by
  unfold execCropCopy
  split <;> simp

@[simp] theorem dropRecord_lasting (n s) : lasting (dropRecord n s) = lasting s := by simp [dropRecord]
@[simp] theorem takeRecordCredit_lasting (s) : lasting (takeRecordCredit s) = lasting s := by simp [takeRecordCredit]

@[simp] theorem sendFragment_lasting (t line fl seam boxId s) :
    lasting (sendFragment t line fl seam boxId s) = lasting s := by
  simp [sendFragment]

@[simp] theorem formRecord_lasting (hist l t s) : lasting (formRecord hist l t s) = lasting s := by
  simp only [formRecord]
  (repeat' split) <;> simp

@[simp] theorem queueLine_lasting (l stop s) : lasting (queueLine l stop s) = lasting s := by simp [queueLine]
@[simp] theorem formLine_lasting (hist l stop s) : lasting (formLine hist l stop s) = lasting s := by simp [formLine]

@[simp] theorem execSprueFormRecords_lasting (s hist) :
    lasting (nextOf s (execSprueFormRecords s hist)) = lasting s := by
  unfold execSprueFormRecords
  split <;> simp

@[simp] theorem execSprueHalvesDisagree_lasting (s) : lasting (nextOf s (execSprueHalvesDisagree s)) = lasting s := by
  simp only [execSprueHalvesDisagree]
  (repeat' split) <;> simp

@[simp] theorem execEventRelease_lasting (inTime s) : lasting (nextOf s (execEventRelease inTime s)) = lasting s := by
  unfold execEventRelease
  split <;> simp

@[simp] theorem dropQueued_lasting (s) : lasting (dropQueued s) = lasting s := by simp [dropQueued]
@[simp] theorem sprReset_lasting (s) : lasting (sprReset s) = lasting s := by simp [sprReset]
@[simp] theorem sprOff_lasting (s) : lasting (sprOff s) = lasting s := by simp [sprOff]
@[simp] theorem sprCommit_lasting (s) : lasting (sprCommit s) = lasting s := by simp [sprCommit]
@[simp] theorem sprRun_lasting (s) : lasting (sprRun s) = lasting s := by simp [sprRun]

@[simp] theorem formAll_lasting (n s) : lasting (formAll n s) = lasting s := by
  induction n generalizing s with
  | zero => rfl
  | succ n ih =>
    unfold formAll
    split
    · rfl
    · rw [ih, formLine_lasting]

@[simp] theorem sprHold_lasting (s) : lasting (sprHold s) = lasting s := by simp [sprHold]
@[simp] theorem sprSleep_lasting (s) : lasting (sprSleep s) = lasting s := by simp [sprSleep]
@[simp] theorem sprWake_lasting (s) : lasting (sprWake s) = lasting s := by simp [sprWake]

/-! ### Seams -/

@[simp] theorem execSeamFragReceive_lasting (side hd f s) :
    lasting (nextOf s (execSeamFragReceive side hd f s)) = lasting s := by
  simp [execSeamFragReceive]

@[simp] theorem execSeamResolveReceive_lasting (side hd boxId partner s) :
    lasting (nextOf s (execSeamResolveReceive side hd boxId partner s)) = lasting s := by
  simp [execSeamResolveReceive]

@[simp] theorem pairUp_lasting (seam o t s) : lasting (pairUp seam o t s) = lasting s := by simp [pairUp]

@[simp] theorem pairAll_lasting (seam n s) : lasting (pairAll seam n s) = lasting s := by
  induction n generalizing s with
  | zero => rfl
  | succ n ih =>
    unfold pairAll
    split
    · rfl
    · rw [ih, pairUp_lasting]

@[simp] theorem execSeamResolvePoint_lasting (boxId s) :
    lasting (nextOf s (execSeamResolvePoint boxId s)) = lasting s := by
  unfold execSeamResolvePoint
  split <;> simp

@[simp] theorem countResolution_lasting (outcome s) : lasting (countResolution outcome s) = lasting s := by
  simp [countResolution]

@[simp] theorem execSeamRelease_lasting (boxId s) : lasting (nextOf s (execSeamRelease boxId s)) = lasting s := by
  simp only [execSeamRelease]
  (repeat' split) <;> simp

/-! ### The Starling ring -/

@[simp] theorem onStar_lasting (f s) : lasting (onStar f s) = lasting s := by simp [onStar]
@[simp] theorem setHop_lasting (h s) : lasting (setHop h s) = lasting s := by simp [setHop]
@[simp] theorem relay_lasting (d hd f s) : lasting (relay d hd f s) = lasting s := by simp [relay]
@[simp] theorem countCrc_lasting (d crcOk s) : lasting (countCrc d crcOk s) = lasting s := by simp [countCrc]

@[simp] theorem hopScope_lasting (d hd f take) (h : ∀ t, lasting (take t) = lasting t) (s) :
    lasting (hopScope d hd f take s) = lasting s := by
  simp [hopScope, h]

@[simp] theorem ringScope_lasting (d hd f take) (h : ∀ t, lasting (take t) = lasting t) (s) :
    lasting (ringScope d hd f take s) = lasting s := by
  simp [ringScope, h]

@[simp] theorem noteHolder_lasting (bar h s) : lasting (noteHolder bar h s) = lasting s := by simp [noteHolder]
@[simp] theorem endRole_lasting (s) : lasting (endRole s) = lasting s := by simp [endRole]
@[simp] theorem startRole_lasting (line s) : lasting (startRole line s) = lasting s := by simp [startRole]

@[simp] theorem applyRole_lasting (bar h s) : lasting (applyRole bar h s) = lasting s := by
  simp only [applyRole]
  (repeat' split) <;> simp

@[simp] theorem sendRole_lasting (bar s) : lasting (sendRole bar s) = lasting s := by simp [sendRole]

@[simp] theorem follow_lasting (s) : lasting (follow s) = lasting s := by
  simp only [follow]
  split <;> simp

@[simp] theorem sendAgree_lasting (s) : lasting (sendAgree s) = lasting s := by simp [sendAgree]
@[simp] theorem newEpoch_lasting (s) : lasting (newEpoch s) = lasting s := by simp [newEpoch]
@[simp] theorem grantRoles_lasting (s) : lasting (grantRoles s) = lasting s := by simp [grantRoles]
@[simp] theorem endMaster_lasting (s) : lasting (endMaster s) = lasting s := by simp [endMaster]

@[simp] theorem yieldTo_lasting (src s) : lasting (yieldTo src s) = lasting s := by
  simp only [yieldTo]
  (repeat' split) <;> simp

@[simp] theorem checkDup_lasting (src nonce s) : lasting (checkDup src nonce s) = lasting s := by simp [checkDup]
@[simp] theorem noteMember_lasting (id f s) : lasting (noteMember id f s) = lasting s := by simp [noteMember]
@[simp] theorem noteEpoch_lasting (e s) : lasting (noteEpoch e s) = lasting s := by simp [noteEpoch]

@[simp] theorem publishDetour_lasting (s) : lasting (publishDetour s) = lasting s := by
  unfold publishDetour
  (repeat' split) <;> simp

@[simp] theorem takeEvent_lasting (k src port subject s) : lasting (takeEvent k src port subject s) = lasting s := by
  simp only [takeEvent]
  (repeat' split) <;> simp

@[simp] theorem raiseEvent_lasting (k port subject s) : lasting (raiseEvent k port subject s) = lasting s := by
  simp [raiseEvent]

@[simp] theorem execLinkSync_lasting (side s) : lasting (nextOf s (execLinkSync side s)) = lasting s := by
  simp [execLinkSync]

@[simp] theorem execLinkDown_lasting (side s) : lasting (nextOf s (execLinkDown side s)) = lasting s := by
  simp [execLinkDown]

@[simp] theorem execPortModeChange_lasting (side s) : lasting (nextOf s (execPortModeChange side s)) = lasting s := by
  unfold execPortModeChange
  split <;> simp

@[simp] theorem wantMode_lasting (passive s) : lasting (wantMode passive s) = lasting s := by simp [wantMode]

@[simp] theorem dropRoles_lasting (s) : lasting (dropRoles s) = lasting s := by
  simp only [dropRoles]
  split <;> simp

@[simp] theorem execEchoTimer_lasting (side s) : lasting (nextOf s (execEchoTimer side s)) = lasting s := by
  simp [execEchoTimer]

@[simp] theorem execEchoReceive_lasting (side hd seq ret delay s) :
    lasting (nextOf s (execEchoReceive side hd seq ret delay s)) = lasting s := by
  simp [execEchoReceive]

@[simp] theorem sendHello_lasting (c s) : lasting (sendHello c s) = lasting s := by simp [sendHello]

@[simp] theorem execHelloTimer_lasting (s) : lasting (nextOf s (execHelloTimer s)) = lasting s := by
  simp [execHelloTimer]

@[simp] theorem execHelloReceive_lasting (side hd h s) :
    lasting (nextOf s (execHelloReceive side hd h s)) = lasting s := by
  simp [execHelloReceive]

@[simp] theorem execNeighbourLost_lasting (side s) : lasting (nextOf s (execNeighbourLost side s)) = lasting s := by
  unfold execNeighbourLost
  split <;> simp

@[simp] theorem noteRing_lasting (e s) : lasting (noteRing e s) = lasting s := by
  unfold noteRing
  split <;> simp

@[simp] theorem execMemberTimer_lasting (s) : lasting (nextOf s (execMemberTimer s)) = lasting s := by
  simp [execMemberTimer]

@[simp] theorem noteLast_lasting (bar last s) : lasting (noteLast bar last s) = lasting s := by simp [noteLast]

@[simp] theorem execMemberReceive_lasting (side hd m s) :
    lasting (nextOf s (execMemberReceive side hd m s)) = lasting s := by
  simp [execMemberReceive]

@[simp] theorem execClaimTimer_lasting (s) : lasting (nextOf s (execClaimTimer s)) = lasting s := by
  simp [execClaimTimer]

@[simp] theorem execClaimReceive_lasting (side hd nonce epoch s) :
    lasting (nextOf s (execClaimReceive side hd nonce epoch s)) = lasting s := by
  simp [execClaimReceive]

@[simp] theorem execAgreeTimer_lasting (s) : lasting (nextOf s (execAgreeTimer s)) = lasting s := by
  simp [execAgreeTimer]

@[simp] theorem agreeBack_lasting (nonce hop s) : lasting (agreeBack nonce hop s) = lasting s := by
  simp only [agreeBack]
  (repeat' split) <;> simp

@[simp] theorem otherVersion_lasting (src s) : lasting (otherVersion src s) = lasting s := by
  unfold otherVersion
  split <;> simp

@[simp] theorem execAgreeReceive_lasting (side hd a s) :
    lasting (nextOf s (execAgreeReceive side hd a s)) = lasting s := by
  simp [execAgreeReceive]

@[simp] theorem execAgreeTimeout_lasting (s) : lasting (nextOf s (execAgreeTimeout s)) = lasting s := by
  simp [execAgreeTimeout]

@[simp] theorem execClaimWon_lasting (s) : lasting (nextOf s (execClaimWon s)) = lasting s := by simp [execClaimWon]
@[simp] theorem execRoleTimer_lasting (s) : lasting (nextOf s (execRoleTimer s)) = lasting s := by simp [execRoleTimer]

@[simp] theorem execRoleReceive_lasting (side hd epoch bar holder s) :
    lasting (nextOf s (execRoleReceive side hd epoch bar holder s)) = lasting s := by
  unfold execRoleReceive
  rw [nextOf_next]
  refine ringScope_lasting side hd (.role epoch bar holder) _ (fun t => ?_) s
  split
  · rfl
  · dsimp only
    split <;> simp

@[simp] theorem execHandoverTimeout_lasting (s) : lasting (nextOf s (execHandoverTimeout s)) = lasting s := by
  unfold execHandoverTimeout
  (repeat' split) <;> simp

@[simp] theorem execMemberLineWait_lasting (s) : lasting (nextOf s (execMemberLineWait s)) = lasting s := by
  unfold execMemberLineWait
  (repeat' split) <;> simp

@[simp] theorem execDupIdClear_lasting (s) : lasting (nextOf s (execDupIdClear s)) = lasting s := by
  simp [execDupIdClear]

@[simp] theorem execStarlingEventReceive_lasting (side hd k port subject s) :
    lasting (nextOf s (execStarlingEventReceive side hd k port subject s)) = lasting s := by
  simp [execStarlingEventReceive]

@[simp] theorem relayTick_lasting (d t detour s) : lasting (relayTick d t detour s) = lasting s := by simp [relayTick]
@[simp] theorem takeTick_lasting (t s) : lasting (takeTick t s) = lasting s := by simp [takeTick]

@[simp] theorem execTickReceive_lasting (side t s) : lasting (nextOf s (execTickReceive side t s)) = lasting s := by
  simp only [execTickReceive]
  (repeat' split) <;> simp

@[simp] theorem sendTick_lasting (line merge deferred encz s) :
    lasting (sendTick line merge deferred encz s) = lasting s := by
  simp [sendTick]

@[simp] theorem drawNonce_lasting (s) : lasting (drawNonce s) = lasting s := by simp [drawNonce]
@[simp] theorem starReset_lasting (s) : lasting (starReset s) = lasting s := by simp [starReset]
@[simp] theorem starStart_lasting (s) : lasting (starStart s) = lasting s := by simp [starStart]
@[simp] theorem starCommit_lasting (s) : lasting (starCommit s) = lasting s := by simp [starCommit]
@[simp] theorem starSafe_lasting (s) : lasting (starSafe s) = lasting s := by simp [starSafe]
@[simp] theorem starSleep_lasting (s) : lasting (starSleep s) = lasting s := by simp [starSleep]
@[simp] theorem starWake_lasting (s) : lasting (starWake s) = lasting s := by simp [starWake]

@[simp] theorem reinitStartStarling_lasting (s) : lasting (reinitStartStarling s) = lasting s := by
  simp [reinitStartStarling]

@[simp] theorem reinitEndStarling_lasting (s) : lasting (reinitEndStarling s) = lasting s := by simp [reinitEndStarling]

/-! ### The line trigger -/

@[simp] theorem fillGap_lasting (m s) : lasting (fillGap m s) = lasting s := by simp [fillGap]
@[simp] theorem adaptAtTrigger_lasting (s) : lasting (adaptAtTrigger s) = lasting s := by simp [adaptAtTrigger]
@[simp] theorem gainCredits_lasting (s) : lasting (gainCredits s) = lasting s := by simp [gainCredits]
@[simp] theorem ltTrigger_lasting (t s) : lasting (ltTrigger t s) = lasting s := by simp [ltTrigger]
@[simp] theorem trigger_lasting (t s) : lasting (trigger t s) = lasting s := by simp [trigger]
@[simp] theorem tickTrigger_lasting (t s) : lasting (tickTrigger t s) = lasting s := by simp [tickTrigger]

@[simp] theorem requestTrigger_lasting (merged s) : lasting (requestTrigger merged s) = lasting s := by
  simp [requestTrigger]

@[simp] theorem execLineTrigger_lasting (s) : lasting (nextOf s (execLineTrigger s)) = lasting s := by
  unfold execLineTrigger
  (repeat' split) <;> simp

@[simp] theorem execDeferredTrigger_lasting (s) : lasting (nextOf s (execDeferredTrigger s)) = lasting s := by
  unfold execDeferredTrigger
  (repeat' split) <;> simp

@[simp] theorem execStopDetect_lasting (s) : lasting (nextOf s (execStopDetect s)) = lasting s := by
  simp [execStopDetect]

/-! ### Resets and states -/

@[simp] theorem execPorEnd_lasting (s) : lasting (nextOf s (execPorEnd s)) = lasting s := by simp [execPorEnd]

@[simp] theorem execResetNRelease_lasting (s) : lasting (nextOf s (execResetNRelease s)) = lasting s := by
  simp [execResetNRelease]

@[simp] theorem restartBoot_lasting (s) : lasting (restartBoot s) = lasting s := by simp [restartBoot]

@[simp] theorem execSupervisorResume_lasting (s) : lasting (nextOf s (execSupervisorResume s)) = lasting s := by
  simp [execSupervisorResume]

@[simp] theorem execSecContextResume_lasting (s) : lasting (nextOf s (execSecContextResume s)) = lasting s := by
  simp [execSecContextResume]

@[simp] theorem execPwrcycTimeout_lasting (s) : lasting (nextOf s (execPwrcycTimeout s)) = lasting s := by
  simp [execPwrcycTimeout]

@[simp] theorem execHoldEntry_lasting (s) : lasting (nextOf s (execHoldEntry s)) = lasting s := by simp [execHoldEntry]

@[simp] theorem execSleepEntry_lasting (s) : lasting (nextOf s (execSleepEntry s)) = lasting s := by
  simp [execSleepEntry]

@[simp] theorem execWakeEvent_lasting (w s) : lasting (nextOf s (execWakeEvent w s)) = lasting s := by
  simp [execWakeEvent]

/-! ### Boot -/

@[simp] theorem toStage_lasting (n s) : lasting (toStage n s) = lasting s := by simp [toStage]
@[simp] theorem endBoot_lasting (c s) : lasting (endBoot c s) = lasting s := by simp [endBoot]
@[simp] theorem safeRefused_lasting (s) : lasting (safeRefused s) = lasting s := by simp [safeRefused]

@[simp] theorem execSelfTestDone_lasting (s) : lasting (nextOf s (execSelfTestDone s)) = lasting s := by
  simp [execSelfTestDone]

@[simp] theorem execSpllLock_lasting (s) : lasting (nextOf s (execSpllLock s)) = lasting s := by simp [execSpllLock]

@[simp] theorem execSpllLockRetry_lasting (s) : lasting (nextOf s (execSpllLockRetry s)) = lasting s := by
  simp [execSpllLockRetry]

@[simp] theorem flashUnreadable_lasting (s) : lasting (flashUnreadable s) = lasting s := by simp [flashUnreadable]
@[simp] theorem execFlashIdle_lasting (s) : lasting (nextOf s (execFlashIdle s)) = lasting s := by simp [execFlashIdle]

@[simp] theorem execFlashBusyTimeout_lasting (s) : lasting (nextOf s (execFlashBusyTimeout s)) = lasting s := by
  simp [execFlashBusyTimeout]

@[simp] theorem execSfdpChecked_lasting (t s) : lasting (nextOf s (execSfdpChecked t s)) = lasting s := by
  simp [execSfdpChecked]

@[simp] theorem execLogMapsRestored_lasting (s) : lasting (nextOf s (execLogMapsRestored s)) = lasting s := by
  simp [execLogMapsRestored]

@[simp] theorem execPointerRead_lasting (s) : lasting (nextOf s (execPointerRead s)) = lasting s := by
  simp [execPointerRead]

@[simp] theorem refuseSlot_lasting (code s) : lasting (refuseSlot code s) = lasting s := by simp [refuseSlot]

@[simp] theorem execHeaderChecked_lasting (s) : lasting (nextOf s (execHeaderChecked s)) = lasting s := by
  simp [execHeaderChecked]

@[simp] theorem toFit_lasting (s) : lasting (toFit s) = lasting s := by simp [toFit]

@[simp] theorem execSignatureVerified_lasting (s) : lasting (nextOf s (execSignatureVerified s)) = lasting s := by
  simp [execSignatureVerified]

@[simp] theorem refuseSection_lasting (s) : lasting (refuseSection s) = lasting s := by simp [refuseSection]
@[simp] theorem stageOne_lasting (k e s) : lasting (stageOne k e s) = lasting s := by simp [stageOne]

@[simp] theorem execSectionStreamed_lasting (s) : lasting (nextOf s (execSectionStreamed s)) = lasting s := by
  simp [execSectionStreamed]

@[simp] theorem execFitChecksDone_lasting (s upset) : lasting (nextOf s (execFitChecksDone s upset)) = lasting s := by
  simp [execFitChecksDone]

@[simp] theorem zeroCounters_lasting (s) : lasting (zeroCounters s) = lasting s := by simp [zeroCounters]

@[simp] theorem execCommitEdge_lasting (s) : lasting (nextOf s (execCommitEdge s)) = lasting s := by
  simp [execCommitEdge]

@[simp] theorem execCommitDone_lasting (s) : lasting (nextOf s (execCommitDone s)) = lasting s := by
  simp [execCommitDone]

@[simp] theorem execRetentionCheckDone_lasting (p found s) :
    lasting (nextOf s (execRetentionCheckDone p found s)) = lasting s := by
  simp [execRetentionCheckDone]

/-! ### Column repair -/

@[simp] theorem powerColumn_lasting (c on s) : lasting (powerColumn c on s) = lasting s := by simp [powerColumn]

@[simp] theorem execRepairStart_lasting (s) : lasting (nextOf s (execRepairStart s)) = lasting s := by
  unfold execRepairStart
  split <;> simp

@[simp] theorem countRetention_lasting (s) : lasting (countRetention s) = lasting s := by simp [countRetention]

@[simp] theorem execRepairMapApply_lasting (s) : lasting (nextOf s (execRepairMapApply s)) = lasting s := by
  unfold execRepairMapApply
  split <;> simp

@[simp] theorem execRepairGapEnd_lasting (s) : lasting (nextOf s (execRepairGapEnd s)) = lasting s := by
  unfold execRepairGapEnd
  split
  · rfl
  · split
    · rfl
    · simp only [nextOf_next]
      split <;> simp

/-! ### Registers -/

@[simp] theorem latchRead_lasting (addr s) : lasting (latchRead addr s) = lasting s := by
  unfold latchRead
  split <;> simp

@[simp] theorem regWords_lasting (n a s) : lasting (regWords n a s).2 = lasting s := by
  induction n generalizing a s with
  | zero => rfl
  | succ n ih => exact (ih _ _).trans (latchRead_lasting a s)

@[simp] theorem execLatchedPairRead_lasting (addr s) : lasting (nextOf s (execLatchedPairRead addr s)) = lasting s := by
  simp [execLatchedPairRead]

@[simp] theorem clearEncErr_lasting (v s) : lasting (clearEncErr v s) = lasting s := by simp [clearEncErr]
@[simp] theorem clearLimit_lasting (v s) : lasting (clearLimit v s) = lasting s := by simp [clearLimit]
@[simp] theorem clearWo_lasting (v s) : lasting (clearWo v s) = lasting s := by simp [clearWo]
@[simp] theorem rearmSummary_lasting (v s) : lasting (rearmSummary v s) = lasting s := by simp [rearmSummary]

@[simp] theorem execClearEncErrSticky_lasting (v s) : lasting (nextOf s (execClearEncErrSticky v s)) = lasting s := by
  simp [execClearEncErrSticky]

@[simp] theorem execClearLimitSticky_lasting (v s) : lasting (nextOf s (execClearLimitSticky v s)) = lasting s := by
  simp [execClearLimitSticky]

@[simp] theorem execClearWoViolation_lasting (v s) : lasting (nextOf s (execClearWoViolation v s)) = lasting s := by
  simp [execClearWoViolation]

@[simp] theorem execRearmFaultSummary_lasting (v s) : lasting (nextOf s (execRearmFaultSummary v s)) = lasting s := by
  simp [execRearmFaultSummary]

@[simp] theorem execClearIntStatus_lasting (bank bits s) :
    lasting (nextOf s (execClearIntStatus bank bits s)) = lasting s := by
  simp [execClearIntStatus]

@[simp] theorem writeBankReg_lasting (b off v s) : lasting (writeBankReg b off v s).1 = lasting s := by
  unfold writeBankReg
  split <;> simp

@[simp] theorem writeGpio_lasting (off v s) : lasting (writeGpio off v s).1 = lasting s := by
  unfold writeGpio
  (repeat' split) <;> simp

@[simp] theorem writeWord_lasting (addr v s) : lasting (writeWord addr v s).1 = lasting s := by
  unfold writeWord
  (repeat' split) <;> simp

@[simp] theorem writeWords_lasting (vs a s) : lasting (writeWords vs a s).1 = lasting s := by
  induction vs generalizing a s with
  | nil => rfl
  | cons v vs ih => exact (ih _ _).trans (writeWord_lasting a _ s)

/-! ### The recovery ladder -/

@[simp] theorem reinitEnd_lasting (f cal s) : lasting (reinitEnd f cal s) = lasting s := by
  unfold reinitEnd
  split <;> simp

@[simp] theorem answerWaiting_lasting (f s) : lasting (answerWaiting f s) = lasting s := by simp [answerWaiting]

@[simp] theorem execReinitDone_lasting (f cal s) : lasting (nextOf s (execReinitDone f cal s)) = lasting s := by
  simp [execReinitDone]

/-! ### Bits that only grow -/

theorem and_not_or_self {w : Nat} (a b : BitVec w) : a &&& ~~~(a ||| b) = 0 := by
  ext i
  simp +contextual

theorem and_not_trans {w : Nat} {x y z : BitVec w} (hxy : x &&& ~~~y = 0) (hyz : y &&& ~~~z = 0) :
    x &&& ~~~z = 0 := by
  ext i hi
  have inY : x[i] = true → y[i] = true := by simpa using congrArg (·[i]) hxy
  have inZ : y[i] = true → z[i] = true := by simpa using congrArg (·[i]) hyz
  simpa using inZ ∘ inY

theorem otpGrew_refl (o : Otp) : OtpGrew o o := by
  simp [OtpGrew]

theorem OtpGrew.trans {a b c : Otp} (hab : OtpGrew a b) (hbc : OtpGrew b c) : OtpGrew a c := by
  obtain ⟨revoke, rb, keys, recov, mac, key, written, ident, locked⟩ := hab
  obtain ⟨revoke', rb', keys', recov', mac', key', written', ident', locked'⟩ := hbc
  refine ⟨and_not_trans revoke revoke', and_not_trans rb rb', fun k => and_not_trans (keys k) (keys' k), fun l => ?_,
    mac.trans mac', key.trans key', written.trans written', ident.trans ident', locked.trans locked'⟩
  obtain ⟨ip, pfx, held⟩ := recov l
  obtain ⟨ip', pfx', held'⟩ := recov' l
  exact ⟨and_not_trans ip ip', and_not_trans pfx pfx', held' ∘ held⟩

/-- OTP_REVOKE adds a revocation bit (R643). -/
theorem otpGrew_revoke (o : Otp) (b : BitVec 4) : OtpGrew o { o with revoke := o.revoke ||| b } := by
  simp [OtpGrew, and_not_or_self]

/-- OTP_ROLLBACK adds bits of the thermometer (R643). -/
theorem otpGrew_rollback (o : Otp) (b : BitVec 64) : OtpGrew o { o with rb := o.rb ||| b } := by
  simp [OtpGrew, and_not_or_self]

/-- OTP_KEY adds bits of one digest (R643). -/
theorem otpGrew_key (o : Otp) (k : Nat) (h : k < 4) (b : BitVec 256) (todo) :
    OtpGrew o { o with keys := o.keys.set k (o.keys[k] ||| b), keyTodo := todo } := by
  have keys : ∀ j : Fin 4, o.keys[j] &&& ~~~(o.keys.set k (o.keys[k] ||| b))[j] = 0 := by
    intro j
    by_cases hj : k = j.val
    · subst hj
      simp [and_not_or_self]
    · simp [Vector.getElem_set_ne, hj]
  simpa [OtpGrew] using keys

/-- OTP_RECOVERY adds bits of one recovery address that is not written yet (R643). -/
theorem otpGrew_recovery (o : Otp) (k : Fin 2) (h : o.recov[k].written = false) (ip : BitVec 32) (pfx : BitVec 5)
    (w : Bool) : OtpGrew o { o with recov := o.recov.set k ⟨o.recov[k].ip ||| ip, o.recov[k].pfx ||| pfx, w⟩ } := by
  simp only [OtpGrew, BitVec.and_not_self, true_and, and_true, implies_true]
  intro j
  by_cases hj : k = j
  · subst hj
    simp [and_not_or_self, show o.recov[k.val].written = false from h]
  · have : k.val ≠ j.val := fun e => hj (Fin.ext e)
    simp [Vector.getElem_set_ne, this]

/-! ### The lasting part is only ever added to -/

/-- From `a` to `b` no programmed OTP bit is taken back, a canonical flash stays canonical, the queue is the same. -/
structure Retains (a b : Lasting) : Prop where
  otp : OtpGrew a.otp b.otp
  flash : Memory.wf a.flash = true → Memory.wf b.flash = true
  queue : b.queue = a.queue

@[simp] theorem Retains.refl (a : Lasting) : Retains a a :=
  ⟨otpGrew_refl _, id, rfl⟩

theorem Retains.trans {a b c : Lasting} (hab : Retains a b) (hbc : Retains b c) : Retains a c :=
  ⟨hab.otp.trans hbc.otp, hbc.flash ∘ hab.flash, hbc.queue.trans hab.queue⟩

/-- A change of the OTP array alone that only adds bits. -/
theorem retains_otp {s : State} {o : Otp} (h : OtpGrew s.otp o) : Retains (lasting s) (lasting { s with otp := o }) :=
  ⟨h, id, rfl⟩

/-- A change that leaves a canonical flash, whatever it does to the fields that do not last. -/
theorem retains_flash {s : State} {f : List Host.Cell} (h : Memory.wf s.flash = true → Memory.wf f = true) :
    Retains (lasting s) ⟨s.otp, f, s.pending⟩ :=
  ⟨otpGrew_refl _, h, rfl⟩

theorem tornErase_wf (ctr a) {f : List Host.Cell} (h : Memory.wf f = true) : Memory.wf (tornErase ctr a f) = true := by
  unfold tornErase
  exact List.foldlRecOn (motive := fun f => Memory.wf f = true) _ _ h fun f hf i _ => memory_write_wf _ _ hf

@[simp] theorem endFlashOp_retains {a s} (torn) (h : Retains a (lasting s)) :
    Retains a (lasting (endFlashOp torn s)) := by
  refine h.trans ?_
  unfold endFlashOp
  split
  · split <;> simp only [lasting_mk]
    · exact retains_flash (tornErase_wf _ _)
    · exact retains_flash (memory_erase_wf _)
  · split <;> simp only [lasting_mk]
    · exact retains_flash (memory_program_wf _ _)
    · exact retains_flash (memory_program_wf _ _)
  · exact Retains.refl _

@[simp] theorem releaseLock_retains {a s} (h : Retains a (lasting s)) : Retains a (lasting (releaseLock s)) := by
  simp [releaseLock, h]

theorem writePointer_wf (slot) {f : List Host.Cell} (h : Memory.wf f = true) :
    Memory.wf (writePointer f slot).1 = true := by
  unfold writePointer
  split
  dsimp only
  exact memory_program_wf _ _ (memory_erase_wf _ h)

@[simp] theorem switchTo_retains (slot s) : Retains (lasting s) (lasting (switchTo slot s)) := by
  rw [switchTo, showPointer_lasting]
  simp only [lasting_mk]
  exact retains_flash (writePointer_wf slot)

@[simp] theorem switchTorn_retains (slot s) : Retains (lasting s) (lasting (switchTorn slot s)) := by
  rw [switchTorn]
  split
  rw [showPointer_lasting]
  simp only [lasting_mk]
  exact retains_flash fun h => memory_program_wf _ _ (memory_erase_wf _ h)

/-! ### Requests -/

/-- What a reply makes of the lasting part `a`, before its answer leaves and after it, retains it. -/
def Reply.Keeps (a : Lasting) (r : Reply) : Prop :=
  Retains a (lasting r.state) ∧ ∀ t, Retains (lasting t) (lasting (r.after t))

@[simp] theorem reply_keeps (a t st p) : (reply t st p).Keeps a ↔ Retains a (lasting t) := by
  simp [Reply.Keeps, reply]

@[simp] theorem later_keeps (a t) : (later t).Keeps a ↔ Retains a (lasting t) := by
  simp [Reply.Keeps, later]

@[simp] theorem mk_keeps (a t p f) :
    Reply.Keeps a ⟨t, p, f⟩ ↔ Retains a (lasting t) ∧ ∀ u, Retains (lasting u) (lasting (f u)) := Iff.rfl

theorem runAccepted_retains (op q fits states) {body : State → Reply} {s : State} (h : (body s).Keeps (lasting s)) :
    Retains (lasting s) (lasting (runAccepted op q fits states body s)) := by
  obtain ⟨before, after⟩ := h
  unfold runAccepted
  split
  · simp
  · split
    · simp
    · dsimp only
      split
      · exact before.trans (after _)
      · exact before.trans (by simpa using after (finish _ _ _ (body s).state))

theorem request_retains (i op q payload fits states) {body : State → Reply} (h : ∀ t, (body t).Keeps (lasting t)) (s) :
    Retains (lasting s) (lasting (request i op q payload fits states body s)) := by
  have run := runAccepted_retains op q fits states (h (accept op q payload s))
  rw [accept_lasting] at run
  unfold request
  split
  · simp
  split
  · simp
  split
  · split
    · split <;> simp
    · exact run
  · split
    · split <;> simp
    · simp

theorem session_keeps (q) {body : State → Reply} (h : ∀ t, (body t).Keeps (lasting t)) (t) :
    (session q body t).Keeps (lasting t) := by
  have held := h (renew t)
  rw [renew_lasting] at held
  unfold session
  split
  · exact held
  · split <;> simp

theorem whenFree_keeps (i) {body : State → Reply} (h : ∀ t, (body t).Keeps (lasting t)) (t) :
    (whenFree i body t).Keeps (lasting t) := by
  unfold whenFree
  split
  · split <;> simp
  · exact h t

@[simp] theorem background_keeps (a op q payload todo t) :
    (background op q payload todo t).Keeps a ↔ Retains a (lasting t) := by
  simp [background]

@[simp] theorem eraseBody_keeps (q slot sector count t) : (eraseBody q slot sector count t).Keeps (lasting t) :=
  session_keeps q (fun _ => by split <;> simp) t

@[simp] theorem programBody_keeps (q slot offset data t) : (programBody q slot offset data t).Keeps (lasting t) :=
  session_keeps q (fun _ => by split <;> simp) t

@[simp] theorem verifyBody_keeps (q slot t) : (verifyBody q slot t).Keeps (lasting t) :=
  session_keeps q (fun _ => by simp) t

@[simp] theorem switchBody_keeps (q slot ok t) : (switchBody q slot ok t).Keeps (lasting t) :=
  session_keeps q (fun _ => by (repeat' split) <;> simp) t

/-- A flash command that waited keeps what its body keeps. -/
theorem waitedBody_keeps {i op q body} (h : waitedBody i = some (op, q, body)) (t) : (body t).Keeps (lasting t) := by
  unfold waitedBody at h
  split at h <;> cases h <;> simp

@[simp] theorem runWaiting_retains {a s} (l) (h : Retains a (lasting s)) : Retains a (lasting (runWaiting l s)) := by
  induction l generalizing s with
  | nil => simp [runWaiting, h]
  | cons i r ih =>
    unfold runWaiting
    split
    · simp [h]
    · split
      · exact ih h
      next op q body hb =>
        exact ih (h.trans (runAccepted_retains op q true mostStates (waitedBody_keeps hb s)))

@[simp] theorem endSession_retains {a s} (c status payload) (h : Retains a (lasting s)) :
    Retains a (lasting (endSession c status payload s)) := by
  simp [endSession, h]

@[simp] theorem nextSessOp_retains {a s} (c) (h : Retains a (lasting s)) : Retains a (lasting (nextSessOp c s)) := by
  unfold nextSessOp
  (repeat' split) <;> simp [h]

/-! ### Commands whose flash operation ends or whose request runs -/

@[simp] theorem execFlashOpDone_retains (ok s) : Retains (lasting s) (lasting (nextOf s (execFlashOpDone ok s))) := by
  unfold execFlashOpDone
  (repeat' split) <;> simp

@[simp] theorem execNvmVerifyDone_retains (s) : Retains (lasting s) (lasting (nextOf s (execNvmVerifyDone s))) := by
  unfold execNvmVerifyDone
  (repeat' split) <;> simp

@[simp] theorem execNvmLeaseExpire_retains (s) : Retains (lasting s) (lasting (nextOf s (execNvmLeaseExpire s))) := by
  unfold execNvmLeaseExpire
  split <;> simp

@[simp] theorem execNvmLock_retains (q s) : Retains (lasting s) (lasting (nextOf s (execNvmLock q s))) :=
  request_retains _ _ _ _ _ _ (fun _ => by (repeat' split) <;> simp) s

@[simp] theorem execNvmRenew_retains (q s) : Retains (lasting s) (lasting (nextOf s (execNvmRenew q s))) :=
  request_retains _ _ _ _ _ _ (session_keeps q fun _ => by simp) s

@[simp] theorem execNvmUnlock_retains (q s) : Retains (lasting s) (lasting (nextOf s (execNvmUnlock q s))) :=
  request_retains _ _ _ _ _ _ (session_keeps q fun _ => by simp) s

@[simp] theorem execNvmErase_retains (q slot sector count s) :
    Retains (lasting s) (lasting (nextOf s (execNvmErase q slot sector count s))) :=
  request_retains _ _ _ _ _ _ (whenFree_keeps _ fun _ => by simp) s

@[simp] theorem execNvmProgram_retains (q slot offset data s) :
    Retains (lasting s) (lasting (nextOf s (execNvmProgram q slot offset data s))) :=
  request_retains _ _ _ _ _ _ (whenFree_keeps _ fun _ => by simp) s

@[simp] theorem execNvmVerify_retains (q slot s) : Retains (lasting s) (lasting (nextOf s (execNvmVerify q slot s))) :=
  request_retains _ _ _ _ _ _ (whenFree_keeps _ fun _ => by simp) s

@[simp] theorem execNvmSwitch_retains (q slot ok s) :
    Retains (lasting s) (lasting (nextOf s (execNvmSwitch q slot ok s))) :=
  request_retains _ _ _ _ _ _ (whenFree_keeps _ fun _ => by simp) s

@[simp] theorem execLogRead_retains (q first count s) :
    Retains (lasting s) (lasting (nextOf s (execLogRead q first count s))) :=
  request_retains _ _ _ _ _ _ (fun _ => by simp) s

@[simp] theorem execRead_retains (q addr count s) :
    Retains (lasting s) (lasting (nextOf s (execRead q addr count s))) :=
  request_retains _ _ _ _ _ _ (fun _ => by simp [readBody]) s

@[simp] theorem execWrite_retains (q addr words s) :
    Retains (lasting s) (lasting (nextOf s (execWrite q addr words s))) :=
  request_retains _ _ _ _ _ _ (fun _ => by simp [writeBody]) s

@[simp] theorem execPowerCycle_retains (q s) : Retains (lasting s) (lasting (nextOf s (execPowerCycle q s))) :=
  request_retains _ _ _ _ _ _ (fun _ => by simp) s

/-! ### OTP commands -/

@[simp] theorem otpReply_keeps (a took t) : (otpReply took t).Keeps a ↔ Retains a (lasting t) := by
  unfold otpReply
  split <;> simp

@[simp] theorem execOtpKey_retains (q slot digest took s) :
    Retains (lasting s) (lasting (nextOf s (execOtpKey q slot digest took s))) := by
  refine request_retains _ _ _ _ _ _ (session_keeps q fun t => ?_) s
  dsimp only
  split
  case isTrue h =>
    split
    · simp
    · exact (otpReply_keeps _ _ _).mpr (retains_otp (otpGrew_key t.otp _ h _ _))
  case isFalse => simp

@[simp] theorem execOtpRevoke_retains (q slot took s) :
    Retains (lasting s) (lasting (nextOf s (execOtpRevoke q slot took s))) := by
  refine request_retains _ _ _ _ _ _ (session_keeps q fun t => ?_) s
  split
  · simp
  · split
    · simp
    · exact (otpReply_keeps _ _ _).mpr (retains_otp (otpGrew_revoke t.otp _))

@[simp] theorem execOtpRollback_retains (q value took s) :
    Retains (lasting s) (lasting (nextOf s (execOtpRollback q value took s))) := by
  refine request_retains _ _ _ _ _ _ (session_keeps q fun t => ?_) s
  split
  · simp
  · split
    · simp
    · dsimp only
      split
      · exact (reply_keeps _ _ _ _).mpr (retains_otp (otpGrew_rollback t.otp _))
      · exact (otpReply_keeps _ _ _).mpr (retains_otp (otpGrew_rollback t.otp _))

theorem recovery_keeps (t : State) (k : Fin 2) (ip : BitVec 32) (pfx : BitVec 5) (w : Bool) :
    (if t.otp.recov[k].written then reply (otpViolation t) 7 []
      else otpReply w { t with otp := { t.otp with
        recov := t.otp.recov.set k ⟨t.otp.recov[k].ip ||| ip, t.otp.recov[k].pfx ||| pfx, w⟩ } }).Keeps
      (lasting t) := by
  split
  · simp
  next unwritten =>
    exact (otpReply_keeps _ _ _).mpr (retains_otp (otpGrew_recovery t.otp k (by simpa using unwritten) _ _ _))

@[simp] theorem execOtpRecovery_retains (q lane pfx ip took s) :
    Retains (lasting s) (lasting (nextOf s (execOtpRecovery q lane pfx ip took s))) :=
  request_retains _ _ _ _ _ _ (session_keeps q fun t => recovery_keeps t _ _ _ _) s

/-! ### The log and the map snapshots -/

@[simp] theorem execLogCommit_retains (ok s) : Retains (lasting s) (lasting (nextOf s (execLogCommit ok s))) := by
  unfold execLogCommit
  split
  · simp
  · split
    · simp
    · dsimp only
      split
      · simp only [nextOf_next, lasting_mk]
        exact retains_flash (memory_program_wf _ _)
      · simp only [nextOf_next, report_lasting, lasting_mk]
        exact retains_flash (memory_program_wf _ _)

@[simp] theorem execLogSectorErase_retains (s) : Retains (lasting s) (lasting (nextOf s (execLogSectorErase s))) := by
  unfold execLogSectorErase
  dsimp only
  split
  · simp
  · simp only [nextOf_next, lasting_mk]
    exact retains_flash (memory_erase_wf _)

/-! ### Lanes, resets and PORs: the flash operation in progress ends -/

@[simp] theorem lockLane_retains {a s} (l) (h : Retains a (lasting s)) : Retains a (lasting (lockLane l s)) := by
  unfold lockLane
  split <;> simp [h]

@[simp] theorem laneDown_retains {a s} (l) (h : Retains a (lasting s)) : Retains a (lasting (laneDown l s)) := by
  simp [laneDown, h]

@[simp] theorem loseLock_retains {a s} (l) (h : Retains a (lasting s)) : Retains a (lasting (loseLock l s)) := by
  unfold loseLock
  split <;> simp [h]

@[simp] theorem faultLane_retains {a s} (l) (h : Retains a (lasting s)) : Retains a (lasting (faultLane l s)) := by
  unfold faultLane
  split <;> simp [h]

@[simp] theorem execBlockLockLoss_retains (l s rs) :
    Retains (lasting s) (lasting (nextOf s (execBlockLockLoss l s rs))) := by
  unfold execBlockLockLoss
  split <;> simp

@[simp] theorem startReset_retains {a s} (kind fault bySup) (h : Retains a (lasting s)) :
    Retains a (lasting (startReset kind fault bySup s)) := by
  simp [startReset, h]

@[simp] theorem porState_retains {a s} (h : Retains a (lasting s)) : Retains a (lasting (porState s)) := by
  obtain ⟨otp, flash, _⟩ := endFlashOp_retains (Config.mayTake s.freeCtr) h
  rw [porState, withPins_lasting, porBlocks, lasting_mk]
  exact ⟨otp, flash, h.queue⟩

@[simp] theorem clockGone_retains {a s} (h : Retains a (lasting s)) : Retains a (lasting (clockGone s)) := by
  simp [clockGone, h]

@[simp] theorem execPgoodLow_retains (ns s) : Retains (lasting s) (lasting (nextOf s (execPgoodLow ns s))) := by
  unfold execPgoodLow
  (repeat' split) <;> simp

@[simp] theorem execAonUndervoltage_retains (s) :
    Retains (lasting s) (lasting (nextOf s (execAonUndervoltage s))) := by
  unfold execAonUndervoltage
  split <;> simp

@[simp] theorem execResetNAssert_retains (ns s) :
    Retains (lasting s) (lasting (nextOf s (execResetNAssert ns s))) := by
  unfold execResetNAssert
  (repeat' split) <;> simp

@[simp] theorem execSupervisorWatchdogExpire_retains (s) :
    Retains (lasting s) (lasting (nextOf s (execSupervisorWatchdogExpire s))) := by
  unfold execSupervisorWatchdogExpire
  split <;> simp

@[simp] theorem execLockstepFault_retains (s) : Retains (lasting s) (lasting (nextOf s (execLockstepFault s))) := by
  unfold execLockstepFault
  split
  · simp
  · dsimp only
    split <;> simp

@[simp] theorem execSecHalvesDisagree_retains (s) :
    Retains (lasting s) (lasting (nextOf s (execSecHalvesDisagree s))) := by
  unfold execSecHalvesDisagree
  (repeat' split) <;> simp

@[simp] theorem execLineTimingHalvesDisagree_retains (s) :
    Retains (lasting s) (lasting (nextOf s (execLineTimingHalvesDisagree s))) := by
  unfold execLineTimingHalvesDisagree
  split <;> simp

@[simp] theorem execRefclkLoss_retains (s) : Retains (lasting s) (lasting (nextOf s (execRefclkLoss s))) := by
  unfold execRefclkLoss
  split <;> simp

@[simp] theorem execThermalTrip_retains (s) : Retains (lasting s) (lasting (nextOf s (execThermalTrip s))) := by
  unfold execThermalTrip
  split <;> simp

@[simp] theorem execWakeComplete_retains (found s) :
    Retains (lasting s) (lasting (nextOf s (execWakeComplete found s))) := by
  unfold execWakeComplete
  (repeat' split) <;> simp

@[simp] theorem execRepairReloadDone_retains (flashOk s) :
    Retains (lasting s) (lasting (nextOf s (execRepairReloadDone flashOk s))) := by
  unfold execRepairReloadDone
  split
  · simp
  · split
    · simp
    · dsimp only
      split <;> simp

/-! ### Re-inits and the recovery ladder -/

@[simp] theorem reinitStartEgress_retains {a s} (h : Retains a (lasting s)) :
    Retains a (lasting (reinitStartEgress s)) := by
  unfold reinitStartEgress
  refine releaseLock_retains ?_
  split <;> simp [h]

@[simp] theorem reinitStart_retains {a s} (f) (h : Retains a (lasting s)) : Retains a (lasting (reinitStart f s)) := by
  cases f <;> simp [reinitStart, h]

@[simp] theorem startReinit_retains {a s} (f) (h : Retains a (lasting s)) : Retains a (lasting (startReinit f s)) := by
  unfold startReinit
  split <;> simp [h]

@[simp] theorem reinitBody_keeps (f q t) : (reinitBody f q t).Keeps (lasting t) := by
  unfold reinitBody
  split <;> simp

@[simp] theorem reinit_retains (i f q s) : Retains (lasting s) (lasting (reinit i f q s)) := by
  unfold reinit
  split
  · exact request_retains _ _ _ _ _ _ (fun _ => by simp) s
  · split <;> simp

@[simp] theorem execReinitEgress_retains (q s) : Retains (lasting s) (lasting (nextOf s (execReinitEgress q s))) :=
  reinit_retains _ _ q s

@[simp] theorem execReinitHkc_retains (q s) : Retains (lasting s) (lasting (nextOf s (execReinitHkc q s))) :=
  reinit_retains _ _ q s

@[simp] theorem execReinitStarling_retains (q s) :
    Retains (lasting s) (lasting (nextOf s (execReinitStarling q s))) :=
  reinit_retains _ _ q s

@[simp] theorem execReinitPixel_retains (q s) : Retains (lasting s) (lasting (nextOf s (execReinitPixel q s))) :=
  reinit_retains _ _ q s

@[simp] theorem execReinitFabric_retains (q s) : Retains (lasting s) (lasting (nextOf s (execReinitFabric q s))) :=
  reinit_retains _ _ q s

@[simp] theorem ladderReset_retains {a s} (f) (h : Retains a (lasting s)) : Retains a (lasting (ladderReset f s)) := by
  unfold ladderReset
  dsimp only
  split <;> simp [h]

@[simp] theorem execFuncWatchdogExpire_retains (f s) :
    Retains (lasting s) (lasting (nextOf s (execFuncWatchdogExpire f s))) := by
  unfold execFuncWatchdogExpire
  dsimp only
  (repeat' split) <;> simp

@[simp] theorem execResetWarm_retains (q s) : Retains (lasting s) (lasting (nextOf s (execResetWarm q s))) := by
  unfold execResetWarm
  split
  · exact request_retains _ _ _ _ _ _ (fun _ => by simp) s
  · split <;> simp

/-! ### Requests that waited, and every command -/

@[simp] theorem runMnt_retains (i s) : Retains (lasting s) (lasting (runMnt i s)) := by
  unfold runMnt
  split <;> simp

@[simp] theorem admitWaiting_retains {a s} (h : Retains a (lasting s)) : Retains a (lasting (admitWaiting s)) :=
  List.foldlRecOn (motive := fun t => Retains a (lasting t)) _ _ h fun t ht i _ => ht.trans (runMnt_retains i t)

@[simp] theorem execMapSnapshotCommit_retains (ok s) :
    Retains (lasting s) (lasting (nextOf s (execMapSnapshotCommit ok s))) := by
  unfold execMapSnapshotCommit
  split
  · simp
  · dsimp only
    split
    · refine admitWaiting_retains ?_
      simp only [lasting_mk]
      refine retains_flash fun h => ?_
      split
      · exact memory_erase_wf _ (memory_program_wf _ _ h)
      · exact memory_program_wf _ _ h
    · simp only [nextOf_next, report_lasting, lasting_mk]
      exact retains_flash (memory_program_wf _ _)

/-- Every command retains what lasts: by its own rule above, `_retains` where it reaches the OTP array or the flash or
answers a request, `_lasting` where it leaves both alone. -/
theorem exec_retains (i s) : Retains (lasting s) (lasting (nextOf s (exec i s))) := by
  cases i <;> simp [exec]

/-- Settles O60: an idle step keeps the OTP array, and a command runs on the state with the rest of the queue, whose OTP
array is that of `s`. -/
theorem stepsOnlyProgramOtp : Obligations.StepsOnlyProgramOtp := by
  unfold Obligations.StepsOnlyProgramOtp
  intro s t h
  unfold step at h
  split at h
  · cases h
    exact otpGrew_refl s.otp
  next c rest _ =>
    have grew := exec_retains c { s with pending := rest }
    rw [h] at grew
    exact grew.otp

end Sys2Proof.Machine

/-! SUPPORT. Lockstep faults and halves that disagree (family 02_architecture.md): what a report counts, what the
release of the lock leaves alone, and what a reset makes of the SYS block. Settles O8, O9 and O10. -/

namespace Sys2Proof.Machine

/-! ### Counts of a report -/

/-- A value other than the unlisted one reads back after its write, whatever the order of the cells. -/
theorem read_write_listed {α : Type} [DecidableEq α] {d v : α} (hv : v ≠ d) (a : Nat) (m : List (Nat × α)) :
    Sparse.read d (Sparse.write d a v m) a = v := by
  induction m with
  | nil => simp [Sparse.write, Sparse.read, hv]
  | cons c r ih =>
    obtain ⟨b, w⟩ := c
    rcases Nat.lt_trichotomy a b with h | rfl | h
    · simp [Sparse.write, Sparse.read, hv, h]
    · simp [Sparse.write, Sparse.read, hv]
    · simp [Sparse.write, Sparse.read, Nat.lt_asymm h, Nat.ne_of_gt h, Nat.ne_of_lt h, ih]

/-- A counter that has counted is not 0. -/
theorem satInc_ne_zero {w : Nat} (hw : 0 < w) (x : Nat) : satInc w x ≠ 0 := by
  have : 1 < 2 ^ w := Nat.one_lt_two_pow hw.ne'
  unfold satInc
  split <;> omega

/-- A code that waits for a line summary changes the queue of the summaries or the count of those lost (R364). -/
theorem queueSummary_flt (code : BitVec 16) (s : State) :
    (queueSummary code s).flt = { s.flt with
      sumQueue := (queueSummary code s).flt.sumQueue, summaryLost := (queueSummary code s).flt.summaryLost } := by
  unfold queueSummary
  split <;> rfl

/-- SUMMARY that is armed takes the code (R634). -/
theorem summarise_flt (code : BitVec 16) {s : State} (h : s.flt.summaryValid = false) :
    (summarise code s).flt = { s.flt with
      summaryValid := true, summaryAt := some s.now, summaryCode := code, ldet := s.lt.line
      lsus := firstSuspect code s } := by
  simp [summarise, h]

/-- SUMMARY does not count. -/
theorem summarise_classCount (code : BitVec 16) (s : State) :
    (summarise code s).flt.classCount = s.flt.classCount := by
  unfold summarise
  split <;> rfl

/-- A report counts its class once, in every state. -/
theorem classCount_report (code : BitVec 16) (s : State) :
    classCount (report code s) (faultClass code) = satInc 32 (classCount s (faultClass code)) := by
  rw [classCount, report, logFault_flt, queueSummary_flt]
  dsimp only
  rw [summarise_classCount, countClass_flt]
  have counted : satInc 32 (classCount s (faultClass code)) ≠ 0 := satInc_ne_zero (by decide) _
  exact read_write_listed counted _ _

/-- A class counter is read off the FLT block. -/
theorem classCount_congr {s t : State} (h : t.flt = s.flt) (n : Nat) : classCount t n = classCount s n := by
  rw [classCount, classCount, h]

/-- SUMMARY takes the code of a report that finds it armed (R634). -/
theorem report_summary (code : BitVec 16) {s : State} (h : s.flt.summaryValid = false) :
    (report code s).flt.summaryValid = true ∧ (report code s).flt.summaryCode = code ∧
      (report code s).flt.ldet = s.lt.line := by
  have armed : (countClass (faultClass code) s).flt.summaryValid = false := h
  rw [report, logFault_flt, queueSummary_flt, summarise_flt code armed]
  exact ⟨rfl, rfl, rfl⟩

/-! ### The session lock -/

/-- The end of a flash operation changes the flash, and uses up free values where it is torn. -/
theorem endFlashOp_changes (torn : Bool) (s : State) :
    endFlashOp torn s = { s with flash := (endFlashOp torn s).flash, freeCtr := (endFlashOp torn s).freeCtr } := by
  unfold endFlashOp
  split
  · split <;> dsimp only
  · split <;> dsimp only
  · rfl

/-- The release of the lock changes the flash with the free values, the NVM block, and the requests of the session. -/
theorem releaseLock_changes (s : State) :
    releaseLock s = { s with
      flash := (endFlashOp false s).flash
      freeCtr := (endFlashOp false s).freeCtr
      nvm := (releaseLock s).nvm
      mnt := (releaseLock s).mnt } := by
  rw [releaseLock, endFlashOp_changes]

@[simp] theorem releaseLock_now (s : State) : (releaseLock s).now = s.now := by rw [releaseLock_changes]
@[simp] theorem releaseLock_sys (s : State) : (releaseLock s).sys = s.sys := by rw [releaseLock_changes]
@[simp] theorem releaseLock_boot (s : State) : (releaseLock s).boot = s.boot := by rw [releaseLock_changes]
@[simp] theorem releaseLock_img (s : State) : (releaseLock s).img = s.img := by rw [releaseLock_changes]
@[simp] theorem releaseLock_flt (s : State) : (releaseLock s).flt = s.flt := by rw [releaseLock_changes]
@[simp] theorem releaseLock_lt (s : State) : (releaseLock s).lt = s.lt := by rw [releaseLock_changes]
@[simp] theorem releaseLock_pix (s : State) : (releaseLock s).pix = s.pix := by rw [releaseLock_changes]
@[simp] theorem releaseLock_fab (s : State) : (releaseLock s).fab = s.fab := by rw [releaseLock_changes]
@[simp] theorem releaseLock_spr (s : State) : (releaseLock s).spr = s.spr := by rw [releaseLock_changes]
@[simp] theorem releaseLock_net (s : State) : (releaseLock s).net = s.net := by rw [releaseLock_changes]

@[simp] theorem releaseLock_locked (s : State) : (releaseLock s).nvm.locked = false := rfl

/-! ### The SYS block at a reset -/

@[simp] theorem sprReset_sys (s : State) : (sprReset s).sys = s.sys := rfl
@[simp] theorem netReset_sys (s : State) : (netReset s).sys = s.sys := rfl
@[simp] theorem fabReset_sys (kind : Nat) (s : State) : (fabReset kind s).sys = s.sys := rfl
@[simp] theorem pixReset_sys (s : State) : (pixReset s).sys = s.sys := rfl
@[simp] theorem ltReset_sys (s : State) : (ltReset s).sys = s.sys := rfl
@[simp] theorem hkcReset_sys (s : State) : (hkcReset s).sys = s.sys := rfl
@[simp] theorem ptpReset_sys (s : State) : (ptpReset s).sys = s.sys := rfl
@[simp] theorem starReset_sys (s : State) : (starReset s).sys = s.sys := rfl

@[simp] theorem gpioReset_sys (s : State) : (gpioReset s).sys = s.sys := by
  rw [gpioReset, withPins_changes]
  rfl

/-- SYS.RESET is written from the SYS block alone. -/
theorem writeReset_congr {s t : State} (h : t.sys = s.sys) (kind : Nat) (fault : BitVec 16) (bySup : Bool) :
    writeReset kind fault bySup t = writeReset kind fault bySup s := by
  rw [writeReset, writeReset, inState, inState, h]

/-- A reset leaves the SYS block as `sysAfterReset` says, with SYS.RESET written before (R667, R668). -/
theorem startReset_sys (kind : Nat) (fault : BitVec 16) (bySup : Bool) (s : State) :
    (startReset kind fault bySup s).sys = sysAfterReset (writeReset kind fault bySup s) := by
  simp [startReset, writeReset_congr (releaseLock_sys s)]

/-- Outside BOOT and COMMIT a reset always writes its kind to SYS.RESET (R667). -/
theorem startReset_cause (kind : Nat) (fault : BitVec 16) (bySup : Bool) {s : State} (hb : s.sys.code ≠ .boot)
    (hc : s.sys.code ≠ .commit) : (startReset kind fault bySup s).sys.cause = kind := by
  rw [startReset_sys]
  simp [sysAfterReset, writeReset, inState, hb, hc]

/-- A FLT reset leaves the device in BOOT at stage 0x2, SAFE_LATCH set, without an image (R563, R588). -/
theorem startReset_flt (fault : BitVec 16) (bySup : Bool) (s : State) :
    (startReset 5 fault bySup s).sys.code = .boot ∧ (startReset 5 fault bySup s).boot.stage = 2 ∧
      (startReset 5 fault bySup s).boot.safeLatch = true ∧ (startReset 5 fault bySup s).img = Image.reset :=
  ⟨rfl, rfl, rfl, rfl⟩

/-! ### A boot that begins again -/

/-- BOOT after the context that boots the device was reset: a boot in progress begins again (R564). -/
def rebooted (s : State) : Boot :=
  if s.sys.code = .boot then (restartBoot s).boot else s.boot

/-- Outside BOOT nothing of it changes; in BOOT it stands at stage 0x2 with nothing staged, its time origin kept. -/
theorem rebooted_spec (s : State) :
    (s.sys.code ≠ .boot → rebooted s = s.boot) ∧
      (s.sys.code = .boot → (rebooted s).stage = 2 ∧ (rebooted s).staged = Image.reset ∧
        (rebooted s).origin = s.boot.origin) := by
  refine ⟨fun h => if_neg h, fun h => ?_⟩
  rw [rebooted, if_pos h]
  exact ⟨rfl, rfl, rfl⟩

/-- A context that resets or resumes, whose state and boot are those of `s`, leaves the boot that `rebooted` says. -/
theorem restartBoot_ite {s t : State} (hc : t.sys.code = s.sys.code) (hb : t.boot = s.boot) :
    (if t.sys.code = .boot then restartBoot t else t) = { t with boot := rebooted s } := by
  rw [rebooted, hc]
  split
  · simp [restartBoot, hb]
  · rw [← hb]

/-! ### Lockstep faults of the supervisor -/

/-- The supervisor's context is reset: the lock is released, the requests that wait are discarded (R73, R637). -/
def resetSupervisor (s : State) : State :=
  { releaseLock s with
    sys := { s.sys with supResetting := true, mutexes := [], lastLockstep := some s.now }
    mnt := { (releaseLock s).mnt with waiting := [], sessWait := [] } }

theorem execLockstepFault_asleep {s : State} (h : awake s = false) : execLockstepFault s = .next s := by
  simp [execLockstepFault, h]

/-- The second fault within 1 s is a FLT reset (R75). -/
theorem execLockstepFault_again {s : State} (ha : awake s = true) (hw : within (sec 1) s.sys.lastLockstep s = true) :
    execLockstepFault s = .next (startReset 5 0x6000 false (report 0x6000 s)) := by
  simp [execLockstepFault, ha, hw]

/-- The first one resets the context, and in BOOT the boot begins again (R73, R564). -/
theorem execLockstepFault_first {s : State} (ha : awake s = true) (hw : within (sec 1) s.sys.lastLockstep s = false) :
    execLockstepFault s = .next { resetSupervisor (report 0x6000 s) with boot := rebooted s } := by
  have again := restartBoot_ite (s := s) (t := resetSupervisor (report 0x6000 s)) (by simp [resetSupervisor])
    (by simp [resetSupervisor])
  rw [← again]
  simp [execLockstepFault, ha, hw, resetSupervisor]

/-- Settles O8: the fault starts a FLT reset, whose kind SYS.RESET takes outside BOOT and COMMIT. -/
theorem secondLockstepFaultEscalates : Obligations.SecondLockstepFaultEscalates := by
  unfold Obligations.SecondLockstepFaultEscalates
  intro s first ha hl hw
  have again : within (sec 1) s.sys.lastLockstep s = true := by simpa [within, hl] using hw
  obtain ⟨hcode, hstage, hlatch, -⟩ := startReset_flt 0x6000 false (report 0x6000 s)
  exact ⟨_, execLockstepFault_again ha again, hcode, hstage, hlatch, fun hb hc =>
    startReset_cause _ _ _ (by rwa [report_sys]) (by rwa [report_sys])⟩

/-- Settles O9: a reset of the device and a reset of the context both leave the mutex list empty. -/
theorem lockstepFaultFreesEveryMutex : Obligations.LockstepFaultFreesEveryMutex := by
  unfold Obligations.LockstepFaultFreesEveryMutex
  intro s ha
  cases hw : within (sec 1) s.sys.lastLockstep s with
  | true => exact ⟨_, execLockstepFault_again ha hw, by rw [startReset_sys]; rfl⟩
  | false => exact ⟨_, execLockstepFault_first ha hw, rfl⟩

/-! ### The SEC context -/

/-- The first disagreement of the SEC halves resets the SEC context (R106). -/
theorem execSecHalvesDisagree_first {s : State} (ha : awake s = true) (hw : within (sec 1) s.sec.lastFault s = false) :
    execSecHalvesDisagree s = .next { report 0x6004 s with sec := ⟨true, some s.now⟩ } := by
  simp [execSecHalvesDisagree, ha, hw]

/-- The second one within 1 s is a FLT reset (R106). -/
theorem execSecHalvesDisagree_again {s : State} (ha : awake s = true) (hw : within (sec 1) s.sec.lastFault s = true) :
    execSecHalvesDisagree s = .next (startReset 5 0x6004 false (report 0x6004 s)) := by
  simp [execSecHalvesDisagree, ha, hw]

theorem execSecHalvesDisagree_asleep {s : State} (h : awake s = false) : execSecHalvesDisagree s = .next s := by
  simp [execSecHalvesDisagree, h]

/-- While the SEC context works, an answer only leaves the package. -/
theorem sendAnswer_works (op : Nat) (q : MntReq) (a : Answer) {s : State} (h : s.sec.resetting = false) :
    sendAnswer op q a s = emit (.frame q.lane (answerFrame s (answerSession s op) op q a)) s := by
  simp [sendAnswer, h]

/-- While the SEC context works, the answers that waited only leave the package. -/
theorem sendWaiting_changes {s : State} (h : s.sec.resetting = false) :
    sendWaiting s = { s with mnt := { s.mnt with unsent := [] }, out := (sendWaiting s).out } := by
  refine List.foldlRecOn s.mnt.unsent _
    (motive := fun t : State => t = { s with mnt := { s.mnt with unsent := [] }, out := t.out }) rfl fun t ht e _ => ?_
  split
  · have works : t.sec.resetting = false := by rw [ht]; exact h
    rw [sendAnswer_works _ _ _ works, ht]
    rfl
  · exact ht

/-- The SEC context works again: the answers that waited leave (R106). -/
def resumeSec (s : State) : State :=
  sendWaiting { s with sec := { s.sec with resetting := false } }

theorem resumeSec_changes (s : State) :
    resumeSec s = { s with
      sec := { s.sec with resetting := false }, mnt := { s.mnt with unsent := [] }, out := (resumeSec s).out } :=
  sendWaiting_changes rfl

/-- Where no answer waits, nothing leaves. -/
theorem resumeSec_quiet {s : State} (h : s.mnt.unsent = []) : (resumeSec s).out = s.out := by
  simp [resumeSec, sendWaiting, h]

/-- One answer that waits leaves as it would have left without the reset. -/
theorem resumeSec_sends {s : State} {e : CacheEntry} {a : Answer} (hu : s.mnt.unsent = [e]) (he : e.answer = some a) :
    (resumeSec s).out = .frame e.req.lane (answerFrame s (answerSession s e.op) e.op e.req a) :: s.out := by
  simp only [resumeSec, sendWaiting, hu, List.foldl_cons, List.foldl_nil, he]
  rw [sendAnswer_works _ _ _ rfl]
  rfl

/-- SEC_CONTEXT_RESUME ends the reset, and in BOOT the boot begins again (R106, R564). -/
theorem execSecContextResume_ends {s : State} (h : s.sec.resetting = true) :
    execSecContextResume s = .next { resumeSec s with boot := rebooted s } := by
  have again := restartBoot_ite (s := s) (t := resumeSec s) (by rw [resumeSec_changes]) (by rw [resumeSec_changes])
  rw [execSecContextResume, if_pos h]
  exact congrArg Host.Outcome.next again

theorem execSecContextResume_idle {s : State} (h : s.sec.resetting = false) : execSecContextResume s = .next s := by
  simp [execSecContextResume, h]

/-! ### The Ladle and the Sprue halves -/

/-- Poison reaches the Wrens of a line and nothing else (R102, R103). -/
theorem poisonLine_changes (n : Nat) (f : BitVec 4) (s : State) :
    poisonLine n f s = { s with fab := (poisonLine n f s).fab } := by
  refine List.foldlRecOn _ _ (motive := fun t : State => t = { s with fab := t.fab }) rfl fun t ht _ _ => ?_
  rw [ht]

/-- The Ladle and the Sprue work: the device is live and SPLL is locked. -/
theorem working_iff (s : State) : working s = true ↔ live s = true ∧ clocked s = true := by
  simp [working]

theorem not_working_iff (s : State) : working s = false ↔ live s = false ∨ clocked s = false := by
  cases hl : live s <;> simp [working, hl]

/-- A disagreement of the Ladle halves, reported: the line in correction is to be poisoned (R103). -/
def ladleDisagreed (s : State) : State :=
  report 0x6001 { s with pix := { s.pix with ladleFault := true } }

/-- A disagreement is reported, and poisons the line in correction where its ingress has begun. -/
theorem execLadleHalvesDisagree_works {s : State} (h : working s = true) :
    ∃ fab, execLadleHalvesDisagree s = .next { ladleDisagreed s with fab := fab } ∧
      ((∀ l, ladleDue s = some l → l.ingressed = false) → fab = (ladleDisagreed s).fab) := by
  obtain ⟨hl, hc⟩ := (working_iff s).mp h
  simp only [execLadleHalvesDisagree, hl, hc, Bool.true_eq_false, or_self, if_false]
  cases hd : ladleDue s with
  | none => exact ⟨_, rfl, fun _ => rfl⟩
  | some l =>
    cases hi : l.ingressed with
    | false => exact ⟨_, by simp only [hi, Bool.false_eq_true, if_false]; rfl, fun _ => rfl⟩
    | true =>
      refine ⟨(poisonLine l.line 15 (ladleDisagreed s)).fab, ?_, fun hno => absurd (hno l rfl) (by simp [hi])⟩
      simp only [hi, if_true]
      exact congrArg Host.Outcome.next (poisonLine_changes _ _ _)

theorem execLadleHalvesDisagree_idle {s : State} (h : working s = false) : execLadleHalvesDisagree s = .next s := by
  simp [execLadleHalvesDisagree, (not_working_iff s).mp h]

/-- The records of the oldest line are withheld (R104). -/
theorem execSprueHalvesDisagree_withholds {s : State} {l : LineRec} {rest : List LineRec} (h : working s = true)
    (hl : s.spr.lines = l :: rest) :
    execSprueHalvesDisagree s =
      .next (markLine l.line (fun x => { x with withheld := true }) (report 0x6002 s)) := by
  simp [execSprueHalvesDisagree, h, hl]

theorem execSprueHalvesDisagree_empty {s : State} (h : working s = true) (hl : s.spr.lines = []) :
    execSprueHalvesDisagree s = .next (report 0x6002 s) := by
  simp [execSprueHalvesDisagree, h, hl]

theorem execSprueHalvesDisagree_idle {s : State} (h : working s = false) : execSprueHalvesDisagree s = .next s := by
  simp [execSprueHalvesDisagree, h]

/-- Settles O10: each clause by the rule of its event above. -/
theorem halvesAndContextsRecover : Obligations.HalvesAndContextsRecover := by
  unfold Obligations.HalvesAndContextsRecover
  refine ⟨?lockstep, fun s => rfl, ?secFirst, ?secAgain,
    fun s h => ⟨execLockstepFault_asleep h, execSecHalvesDisagree_asleep h⟩, ?resume, ?answer,
    fun s h => execSecContextResume_idle h, ?ladle, ?sprue, fun s h hl => execSprueHalvesDisagree_empty h hl,
    fun s h => ⟨execLadleHalvesDisagree_idle h, execSprueHalvesDisagree_idle h⟩⟩
  case lockstep =>
    intro s ha hw
    have count : classCount (resetSupervisor (report 0x6000 s)) 0x60 = satInc 32 (classCount s 0x60) :=
      (classCount_congr (releaseLock_flt _) _).trans (classCount_report 0x6000 s)
    refine ⟨_, execLockstepFault_first ha hw, ?_, releaseLock_locked _, rfl, rfl, ?_, ?_, ?_, ?_, ?_, ?_, count,
      rebooted_spec s⟩
    all_goals simp [resetSupervisor]
  case secFirst =>
    intro s ha hw
    refine ⟨_, execSecHalvesDisagree_first ha hw, rfl, ?_, ?_, ?_, ?_, ?_, ?_, classCount_report 0x6004 s,
      report_summary 0x6004⟩
    all_goals simp
  case secAgain =>
    intro s ha hw
    exact ⟨_, execSecHalvesDisagree_again ha hw, startReset_flt _ _ _⟩
  case resume =>
    intro s h
    refine ⟨_, execSecContextResume_ends h, ?_, ?_, resumeSec_quiet, ?_, ?_, ?_, ?_, ?_, rebooted_spec s⟩
    all_goals rw [resumeSec_changes]
  case answer =>
    intro s e a h hu he
    exact ⟨_, execSecContextResume_ends h, resumeSec_sends hu he⟩
  case ladle =>
    intro s h
    obtain ⟨fab, hexec, hfab⟩ := execLadleHalvesDisagree_works h
    refine ⟨_, hexec, ?_, ?_, ?_, classCount_report 0x6001 _, fun hno => ⟨?_, (hfab hno).trans ?_⟩⟩
    all_goals simp [ladleDisagreed]
  case sprue =>
    intro s l rest h hl
    refine ⟨_, execSprueHalvesDisagree_withholds h hl, ?_, ?_, ?_, ?_, classCount_report 0x6002 s⟩
    all_goals simp [markLine]

end Sys2Proof.Machine

/-! SUPPORT. The way of a line through the Ladle (family 02_architecture.md): what the shadows' checks, the dark levels
and the adaptation leave alone, what a completed line leaves behind, and the windows and thaws of the fields. Settles
O19. -/

namespace Sys2Proof.Machine

/-! ### Sets of fields -/

theorem bit4_getLsbD (j k : Fin 4) : (bit4 j).getLsbD k = decide (k = j) := by
  revert j k
  decide

theorem foldl_bit4_getLsbD (l : List (Fin 4)) (x : BitVec 4) (k : Fin 4) :
    (l.foldl (fun x k => x ||| bit4 k) x).getLsbD k = (x.getLsbD k || decide (k ∈ l)) := by
  induction l generalizing x with
  | nil => simp
  | cons j r ih =>
    simp only [List.foldl_cons, ih, BitVec.getLsbD_or, bit4_getLsbD, List.mem_cons, Bool.decide_or, Bool.or_assoc]

/-- A field has its bit in a set of fields where it is one of them. -/
theorem fieldBits_getLsbD (l : List (Fin 4)) (k : Fin 4) : (fieldBits l).getLsbD k = decide (k ∈ l) := by
  rw [fieldBits, foldl_bit4_getLsbD]
  simp

/-! ### Conversions -/

/-- What the checks of a line's conversions leave alone: the registration buffer, the closes whose conversion is due,
line timing, fabric and image. -/
structure Sampled where
  regBuf : Vector (List RegLine) 4
  closed : Vector (Option Nat) 4
  lt : Lt
  fab : Fab
  img : Image

/-- That part of a state. -/
def sampled (s : State) : Sampled :=
  ⟨s.pix.regBuf, s.pix.closed, s.lt, s.fab, s.img⟩

/-- The other blocks are no part of it, nor are the other fields of the Cope die. Used on the way down, so that `simp`
does not look into them. -/
@[simp ↓] theorem sampled_mk (now freeCtr sys boot img flt log sec otp nvm mnt flash lt pix fab spr net ptp star hkc
    gpio bscan out pending) :
    sampled ⟨now, freeCtr, sys, boot, img, flt, log, sec, otp, nvm, mnt, flash, lt, pix, fab, spr, net, ptp, star, hkc,
      gpio, bscan, out, pending⟩ = ⟨pix.regBuf, pix.closed, lt, fab, img⟩ := rfl

@[simp] theorem mk_sampled (s : State) :
    (⟨s.pix.regBuf, s.pix.closed, s.lt, s.fab, s.img⟩ : Sampled) = sampled s := rfl

@[simp] theorem report_sampled (code s) : sampled (report code s) = sampled s := by
  rw [sampled, report_pix, report_lt, report_fab, report_img, mk_sampled]

@[simp] theorem stand_sampled (code s) : sampled (stand code s) = sampled s := by
  rw [stand_changes, sampled_mk, mk_sampled]

@[simp] theorem logSubst_sampled (g s) : sampled (logSubst g s) = sampled s := by
  simp [logSubst, wantSnapshot, logOther]

@[simp] theorem shareShadow_sampled (g s) : sampled (shareShadow g s) = sampled s := by simp [shareShadow]

@[simp] theorem flagDetection_sampled (s) : sampled (flagDetection s) = sampled s := by
  simp [flagDetection, markLine, markLines]

@[simp] theorem judgeShadow_sampled (g s) : sampled (judgeShadow g s) = sampled s := by simp [judgeShadow]

@[simp] theorem judgeColumn_sampled (h col s) : sampled (judgeColumn h col s) = sampled s := by
  simp only [judgeColumn]
  (repeat' split) <;> simp

@[simp] theorem stepShadow_sampled (s g) : sampled (stepShadow s g) = sampled s := by
  simp only [stepShadow]
  (repeat' split) <;> simp

@[simp] theorem stepShadows_sampled (s) : sampled (stepShadows s) = sampled s := by
  simp only [stepShadows, sampled_mk, mk_sampled]
  exact List.foldlRecOn (motive := fun t : State => sampled t = sampled s) _ _ rfl fun t ht g _ =>
    (stepShadow_sampled t g).trans ht

/-- Without a substitution every conversion stays as it is (R169). -/
theorem substituted_none {s : State} (h : ∀ g : Fin 128, s.pix.subst[g].valid = false) (px sh : List Nat) :
    substituted s px sh = px :=
  List.foldl_fixed' (fun g => if_neg (by rw [h g]; exact Bool.false_ne_true)) _

/-- The sample of a closed slot joins the registration buffer (R177); the shadows' checks leave it alone. -/
theorem execConversionComplete_joins {s : State} {k : Fin 4} {n : Nat} (hn : s.pix.closed[k] = some n)
    (hc : clocked s = true) (hb : reinitBusy .pixel s = false) (px shadow : List (BitVec 12)) :
    ∃ t, execConversionComplete k px shadow s = .next t ∧ sampled t =
      { sampled s with
        closed := s.pix.closed.set k none
        regBuf := vmod s.pix.regBuf k fun l =>
          ⟨n, substituted s (px.map (·.toNat)) (shadow.map (·.toNat)), s.pix.closedStages[k],
            s.pix.charge.toList.getD (32 * k.val) 0⟩ :: l } := by
  have busy (v) : reinitBusy .pixel { s with pix := { s.pix with closed := v } } = false := hb
  simp only [execConversionComplete, hn, hc, busy, Bool.true_eq_false, Bool.false_eq_true, if_false]
  refine ⟨_, rfl, ?_⟩
  split
  · exact stepShadows_sampled _
  · rfl

/-- During a PIXEL re-init the sample goes missing (R178). -/
theorem execConversionComplete_misses {s : State} {k : Fin 4} {n : Nat} (hn : s.pix.closed[k] = some n)
    (hc : clocked s = true) (hb : reinitBusy .pixel s = true) (px shadow : List (BitVec 12)) :
    execConversionComplete k px shadow s = .next { s with pix := { s.pix with closed := s.pix.closed.set k none } } := by
  have busy (v) : reinitBusy .pixel { s with pix := { s.pix with closed := v } } = true := hb
  simp [execConversionComplete, hn, hc, busy]

theorem execConversionComplete_idle {s : State} {k : Fin 4} (h : s.pix.closed[k] = none ∨ clocked s = false)
    (px shadow : List (BitVec 12)) : execConversionComplete k px shadow s = .next s := by
  unfold execConversionComplete
  cases hn : s.pix.closed[k] with
  | none => rfl
  | some n => simp [h.resolve_left (by simp [hn])]

/-! ### A line through the Ladle -/

/-- Reports of several codes leave every block alone that a report leaves alone. -/
theorem reportAll_eq {α : Type} (f : State → α) (h : ∀ code s, f (report code s) = f s) (codes : List (BitVec 16))
    (s : State) : f (reportAll codes s) = f s :=
  List.foldlRecOn (motive := fun t => f t = f s) _ _ rfl fun t ht code _ => (h code t).trans ht

@[simp] theorem reportAll_lt (codes s) : (reportAll codes s).lt = s.lt := reportAll_eq State.lt report_lt codes s
@[simp] theorem reportAll_pix (codes s) : (reportAll codes s).pix = s.pix := reportAll_eq State.pix report_pix codes s
@[simp] theorem reportAll_fab (codes s) : (reportAll codes s).fab = s.fab := reportAll_eq State.fab report_fab codes s
@[simp] theorem reportAll_spr (codes s) : (reportAll codes s).spr = s.spr := reportAll_eq State.spr report_spr codes s

/-- The adaptive flat field takes a value. -/
def withAff (a : Aff) (s : State) : State :=
  { s with pix := { s.pix with aff := a } }

theorem accumulateField_changes (n k y s) :
    accumulateField n k y s = withAff (accumulateField n k y s).pix.aff s := by
  unfold accumulateField
  split <;> rfl

/-- A completed line changes nothing of the state but the adaptive flat field where it adapts (R188, R190). -/
theorem adaptLine_changes (n y s) : adaptLine n y s = withAff (adaptLine n y s).pix.aff s := by
  refine List.foldlRecOn _ _ (motive := fun t : State => t = withAff t.pix.aff s) rfl fun t ht k _ => ?_
  rw [ht]
  split
  · exact accumulateField_changes _ _ _ _
  · split <;> rfl

/-- Where a line's ingress has not begun, no Wren is poisoned. -/
theorem poisonLine_ite_changes (c : Prop) [Decidable c] (n f s) :
    (if c then poisonLine n f s else s) = { s with fab := if c then (poisonLine n f s).fab else s.fab } := by
  split
  · exact poisonLine_changes n f s
  · rfl

/-- The dark levels of a line change the dark levels, the runs of departures and FALLBACK (R171 to R173). -/
theorem darkOfLine_changes (n s) :
    darkOfLine n s = { s with pix := { s.pix with
      darkL := (darkOfLine n s).pix.darkL
      darkR := (darkOfLine n s).pix.darkR
      runL := (darkOfLine n s).pix.runL
      runR := (darkOfLine n s).pix.runR
      fallback := (darkOfLine n s).pix.fallback } } := by
  unfold darkOfLine
  dsimp only
  split <;> rfl

/-- The history slot of a line is written, and free values are used up (R183, R200, R201). -/
theorem writeHist_changes (n y poison s) :
    ∃ px, writeHist n y poison s = { s with
      freeCtr := s.freeCtr + 32768
      pix := { s.pix with
        hist := s.pix.hist.set (n % 256)
          ⟨n, y.any Option.isSome && !s.pix.ladleFault, px, false, poison⟩ (Nat.mod_lt _ (by decide)) } } :=
  ⟨_, rfl⟩

/-- A line `n` of which the Ladle met the words `reg` is corrected, its dark levels judged, its history slot written and
its fields adapted: of what the line's completion shows, only the history slot and the reports have changed. -/
theorem ladleLine_adapted (reg : List (Fin 4 × Ecc)) (n : Nat) (s : State) :
    ∃ t px, adaptLine n (ladleFields s n) (writeHist n (ladleFields s n) (!(regBadFields reg).isEmpty)
        (darkOfLine n (reportAll (regReports reg) s))) = t ∧
      t.pix.hist = s.pix.hist.set (n % 256)
        ⟨n, (ladleFields s n).any Option.isSome && !s.pix.ladleFault, px, false, !(regBadFields reg).isEmpty⟩
        (Nat.mod_lt _ (by decide)) ∧
      t.pix.ingress = s.pix.ingress ∧ t.pix.regMissing = s.pix.regMissing ∧ t.spr = s.spr ∧ t.fab = s.fab ∧
      t.lt = s.lt ∧ t.flt = (reportAll (regReports reg) s).flt ∧ t.log = (reportAll (regReports reg) s).log := by
  obtain ⟨px, written⟩ := writeHist_changes n (ladleFields s n) (!(regBadFields reg).isEmpty)
    (darkOfLine n (reportAll (regReports reg) s))
  refine ⟨_, px, rfl, ?_⟩
  rw [adaptLine_changes, written, darkOfLine_changes]
  simp only [withAff, reportAll_pix, reportAll_spr, reportAll_fab, reportAll_lt, and_self]

/-- What the completion of the due line `l` makes of `s`: `t`. `reg` are the registration-buffer words in error that it
met. -/
structure LadleCompletes (reg : List (Fin 4 × Ecc)) (l : LineRec) (s t : State) : Prop where
  /-- The disagreement of the halves has been dealt with. -/
  ladleFault : t.pix.ladleFault = false
  /-- The history slot (R183, R200 to R202). -/
  hist : ∃ px, t.pix.hist = s.pix.hist.set (l.line % 256)
    ⟨l.line, (ladleFields s l.line).any Option.isSome && !s.pix.ladleFault, px, false, !(regBadFields reg).isEmpty⟩
    (Nat.mod_lt _ (by decide))
  /-- Its plane goes to the ingress where that has not begun. -/
  ingress : t.pix.ingress =
    if l.ingressed then s.pix.ingress else s.pix.ingress ++ [ladleOut s l.line (regBadFields reg)]
  /-- Missing samples are counted (R178). -/
  regMissing : t.pix.regMissing = if sampleMissing s l.line then satInc 32 s.pix.regMissing else s.pix.regMissing
  /-- The line's ledger inputs. -/
  lines : ∃ frozen, t.spr.lines = s.spr.lines.map fun r => if r.line = l.line then { r with
      ladleDone := true
      delivered := fieldBits (deliveredOf s l.line)
      segOk := liveSegments s
      affFrozen := r.affFrozen || frozen } else r
  /-- Only planes whose ingress has begun are poisoned in the Wrens. -/
  fab : l.ingressed = false → t.fab = s.fab
  lt : t.lt = s.lt
  /-- Nothing is reported but the words in error. -/
  flt : t.flt = (reportAll (regReports reg) s).flt
  log : t.log = (reportAll (regReports reg) s).log

/-- LADLE_LINE_COMPLETE completes the due line (R59). -/
theorem execLadleLineComplete_completes {s : State} {l : LineRec} (hl : live s = true) (hc : clocked s = true)
    (hd : ladleDue s = some l) (reg : List (Fin 4 × Ecc)) :
    ∃ t, execLadleLineComplete reg s = .next t ∧ LadleCompletes reg l s t := by
  simp only [execLadleLineComplete, hd, hc, hl, Bool.true_eq_false, or_self, if_false]
  obtain ⟨a, px, adapted, hist, ingress, regMissing, spr, fab, lt, flt, log⟩ := ladleLine_adapted reg l.line s
  rw [adapted, poisonLine_ite_changes]
  exact ⟨_, rfl, {
    ladleFault := rfl
    hist := ⟨px, hist⟩
    ingress := by simp only [progressed_pix, pruneReg, markLine, markLines_pix, ingress]
    regMissing := by simp only [progressed_pix, pruneReg, markLine, markLines_pix, regMissing]
    lines := ⟨_, by simp only [progressed_spr, pruneReg, markLine, markLines_spr, spr]; rfl⟩
    fab := fun notBegun => by simp [pruneReg, markLine, notBegun, fab]
    lt := lt
    flt := flt
    log := log }⟩

theorem execLadleLineComplete_idle {s : State} (h : live s = false ∨ clocked s = false ∨ ladleDue s = none)
    (reg : List (Fin 4 × Ecc)) : execLadleLineComplete reg s = .next s := by
  unfold execLadleLineComplete
  cases hd : ladleDue s with
  | none => rfl
  | some l =>
    have idle : clocked s = false ∨ live s = false := by simpa [hd, or_comm] using h
    simp [idle]

/-- The field of an uncorrectable word is bad. -/
theorem mem_regBadFields {reg : List (Fin 4 × Ecc)} {k : Fin 4} :
    k ∈ regBadFields reg ↔ (k, .uncorrectable) ∈ reg := by
  simp [regBadFields]

/-! ### Dark columns -/

theorem execDarkColumnExclude_left {s : State} {i : Fin 32} (hc : clocked s = true) (h : 64 ≤ s.pix.runL[i]) :
    execDarkColumnExclude true i s =
      .next { s with pix := { s.pix with exclL := s.pix.exclL ||| (1#32 <<< i.val) } } := by
  simp only [execDarkColumnExclude, hc, h, Bool.true_eq_false, if_true, if_false]

theorem execDarkColumnExclude_right {s : State} {i : Fin 32} (hc : clocked s = true) (h : 64 ≤ s.pix.runR[i]) :
    execDarkColumnExclude false i s =
      .next { s with pix := { s.pix with exclR := s.pix.exclR ||| (1#32 <<< i.val) } } := by
  simp only [execDarkColumnExclude, hc, h, Bool.true_eq_false, Bool.false_eq_true, if_true, if_false]

theorem execDarkColumnExclude_idle {s : State} {left : Bool} {i : Fin 32}
    (h : clocked s = false ∨ (if left then s.pix.runL[i] else s.pix.runR[i]) < 64) :
    execDarkColumnExclude left i s = .next s := by
  unfold execDarkColumnExclude
  rcases h with h | h
  · simp [h]
  · cases left with
    | true =>
      have short : ¬64 ≤ s.pix.runL[i] := Nat.not_le.mpr h
      simp only [short, if_true, if_false, ite_self]
    | false =>
      have short : ¬64 ≤ s.pix.runR[i] := Nat.not_le.mpr h
      simp only [short, Bool.false_eq_true, if_false, ite_self]

/-! ### Windows of the adaptive flat field -/

/-- The count of a field's lines starts again where its window ends (R189). -/
theorem endWindow_lines (k s) : (endWindow k s).pix.aff.lines = s.pix.aff.lines.set k 0 := rfl

/-- The windows of several fields that end. -/
theorem endWindows_changes (l : List (Fin 4)) (s : State) :
    l.foldl (fun t k => endWindow k t) s = withAff (l.foldl (fun t k => endWindow k t) s).pix.aff s := by
  refine List.foldlRecOn _ _ (motive := fun t : State => t = withAff t.pix.aff s) rfl fun t ht k _ => ?_
  rw [ht]
  rfl

theorem endWindows_frozen (l : List (Fin 4)) (s : State) :
    (l.foldl (fun t k => endWindow k t) s).pix.aff.frozen = s.pix.aff.frozen :=
  List.foldlRecOn (motive := fun t : State => t.pix.aff.frozen = s.pix.aff.frozen) _ _ rfl fun _ ht _ _ => ht

/-- The count of a field starts again where its window ended. -/
theorem endWindows_lines (l : List (Fin 4)) (s : State) (k : Fin 4) :
    (l.foldl (fun t k => endWindow k t) s).pix.aff.lines[k] = if k ∈ l then 0 else s.pix.aff.lines[k] := by
  induction l generalizing s with
  | nil => simp
  | cons j r ih =>
    rw [List.foldl_cons, ih, endWindow_lines]
    by_cases hj : k = j
    · subst hj
      simp
    · have : j.val ≠ k.val := fun e => hj (Fin.ext e.symm)
      simp [hj, this]

/-- The enabled fields whose window is complete while they adapt. -/
def windowsDue (s : State) : List (Fin 4) :=
  s.img.slots.filter fun k =>
    clocked s && s.img.on Fld.affEn [] && !s.pix.aff.frozen.getLsbD k
      && decide (s.img.nat Fld.affWindow [] ≤ s.pix.aff.lines[k])

theorem mem_windowsDue {s : State} (he : s.img.on Fld.affEn [] = true) (hc : clocked s = true) (k : Fin 4) :
    k ∈ windowsDue s ↔ s.img.on Fld.slotEn [k] = true ∧ s.pix.aff.frozen.getLsbD k = false ∧
      s.img.nat Fld.affWindow [] ≤ s.pix.aff.lines[k] := by
  simp only [windowsDue, Image.slots, he, hc, List.mem_filter, List.mem_finRange, true_and, Bool.true_and,
    Bool.and_eq_true, Bool.not_eq_true', decide_eq_true_eq]

theorem windowsDue_none {s : State} (h : s.img.on Fld.affEn [] = false ∨ clocked s = false) : windowsDue s = [] := by
  rcases h with h | h <;> simp [windowsDue, h]

/-- AFF_WINDOW_END ends the windows that are due. -/
theorem execAffWindowEnd_eq (s : State) :
    execAffWindowEnd s = .next { (windowsDue s).foldl (fun t k => endWindow k t) s with
      freeCtr := if (windowsDue s).isEmpty then s.freeCtr else s.freeCtr + 512 } := rfl

/-! ### Thaws -/

/-- The fields whose thaw count is complete (R191). -/
def thawed (s : State) : BitVec 4 :=
  fieldBits ((List.finRange 4).filter fun k => s.pix.aff.thawing.getLsbD k && s.pix.aff.thawLeft[k] == 0)

theorem thawed_getLsbD (s : State) (k : Fin 4) :
    (thawed s).getLsbD k = (s.pix.aff.thawing.getLsbD k && s.pix.aff.thawLeft[k] == 0) := by
  simp only [thawed, fieldBits_getLsbD, List.mem_filter, List.mem_finRange, true_and, Bool.decide_eq_true]

/-- AFF_THAW: those fields adapt again, from the next line triggered on. -/
theorem execAffThaw_eq {s : State} (h : clocked s = true) :
    execAffThaw s = .next (withAff { s.pix.aff with
      frozen := s.pix.aff.frozen &&& ~~~thawed s
      thawing := s.pix.aff.thawing &&& ~~~thawed s
      winAfter := Vector.ofFn fun k => if (thawed s).getLsbD k then some s.lt.line else s.pix.aff.winAfter[k] } s) := by
  simp [execAffThaw, h, thawed, withAff]

theorem execAffThaw_idle {s : State} (h : clocked s = false) : execAffThaw s = .next s := by
  simp [execAffThaw, h]

/-- The bits that stay when a set of fields is taken away. -/
theorem and_not_getLsbD (x y : BitVec 4) (k : Fin 4) : (x &&& ~~~y).getLsbD k = (x.getLsbD k && !y.getLsbD k) := by
  simp

/-- Settles O19: each clause by the rule of its event above. -/
theorem conversionsReachTheLadle : Obligations.ConversionsReachTheLadle := by
  unfold Obligations.ConversionsReachTheLadle
  refine ⟨?joins, fun s px sh h => substituted_none h px sh,
    fun s k px sh n hn hc hb => execConversionComplete_misses hn hc hb px sh,
    fun s k px sh h => execConversionComplete_idle h px sh, ?completes, ?words,
    fun s reg h => execLadleLineComplete_idle h reg, fun s i hc h => execDarkColumnExclude_left hc h,
    fun s i hc h => execDarkColumnExclude_right hc h, fun s left i h => execDarkColumnExclude_idle h, ?windows,
    ?noWindow, ?thaws, fun s h => execAffThaw_idle h⟩
  case joins =>
    intro s k px sh n hn hc hb
    obtain ⟨t, hexec, ht⟩ := execConversionComplete_joins hn hc hb px sh
    obtain ⟨hbuf, hclosed, hlt, hfab, himg⟩ := Sampled.mk.inj ht
    refine ⟨t, hexec, hclosed, ?_, fun j hj => ?_, hlt, hfab, himg⟩
    · rw [hbuf, vmod_same]
    · rw [hbuf, vmod_other _ _ _ _ hj]
  case completes =>
    intro s l reg hl hc hd
    obtain ⟨t, hexec, ht⟩ := execLadleLineComplete_completes hl hc hd reg
    obtain ⟨px, hhist⟩ := ht.hist
    obtain ⟨frozen, hlines⟩ := ht.lines
    refine ⟨t, hexec, ht.ladleFault, ?_, ?_, ht.ingress, ht.regMissing, ?_, ?_, ht.fab, ht.lt, ?_⟩
    · simp [hhist]
    · simp [hhist]
    · rw [hlines]
      intro x hx hline
      obtain ⟨r, -, rfl⟩ := List.mem_map.mp hx
      by_cases hr : r.line = l.line
      · simp [hr]
      · simp [hr] at hline
    · simp [hlines]
    · rintro rfl
      exact ⟨ht.flt, ht.log⟩
  case words =>
    intro s l k hl hc hd
    obtain ⟨t, hexecT, ht⟩ := execLadleLineComplete_completes hl hc hd [(k, .corrected)]
    obtain ⟨u, hexecU, hu⟩ := execLadleLineComplete_completes hl hc hd [(k, .uncorrectable)]
    obtain ⟨px, hhist⟩ := hu.hist
    refine ⟨t, u, hexecT, hexecU, ?_, ?_, ?_⟩
    · exact (classCount_congr ht.flt _).trans (classCount_report 0x117E s)
    · exact (classCount_congr hu.flt _).trans (classCount_report 0x127E s)
    · have bad : k ∈ regBadFields [(k, Ecc.uncorrectable)] := mem_regBadFields.mpr (List.mem_singleton_self _)
      simpa [hhist] using List.ne_nil_of_mem bad
  case windows =>
    intro s he hc
    refine ⟨_, execAffWindowEnd_eq s, fun k => ?_, endWindows_frozen _ s, ?_⟩
    · simp only [endWindows_lines, mem_windowsDue he hc]
    · rw [endWindows_changes]
      exact ⟨rfl, rfl, rfl, rfl, rfl⟩
  case noWindow =>
    intro s h
    show execAffWindowEnd s = _
    rw [execAffWindowEnd_eq, windowsDue_none h]
    rfl
  case thaws =>
    intro s h
    refine ⟨_, execAffThaw_eq h, fun k => ⟨?_, ?_, ?_⟩, rfl, rfl, rfl, rfl⟩
    · rw [← thawed_getLsbD]
      exact and_not_getLsbD _ _ k
    · refine (and_not_getLsbD _ _ k).trans ?_
      rw [thawed_getLsbD]
      cases s.pix.aff.thawing.getLsbD k <;> simp [bne]
    · simp only [withAff, Fin.getElem_fin, Vector.getElem_ofFn, thawed_getLsbD, Bool.and_eq_true, beq_iff_eq]

end Sys2Proof.Machine

/-! SUPPORT. The check tithe and the self-test of the spare (family 03_promises.md): what a re-execution leaves alone,
what a verdict reports and records, and how a slot ends. Settles O24. -/

namespace Sys2Proof.Machine

/-! ### What the work of one perch leaves alone -/

/-- The image, and the perches with one of them blanked out. -/
structure Aside where
  img : Image
  perch : Vector Perch 72

/-- What lies aside of perch `p`: the image and every other perch (R225, R228). -/
def aside (p : Fin 72) (s : State) : Aside :=
  ⟨s.img, vmod s.fab.perch p fun _ => Perch.reset⟩

/-- A position that takes a value forgets what it was before. -/
@[simp] theorem vmod_vmod_const {α : Type} {n : Nat} (v : Vector α n) (i : Fin n) (f : α → α) (x : α) :
    vmod (vmod v i f) i (fun _ => x) = vmod v i fun _ => x := by
  simp [vmod]

/-- The other blocks are no part of it. Used on the way down, so that `simp` does not look into them. -/
@[simp ↓] theorem aside_mk (p now freeCtr sys boot img flt log sec otp nvm mnt flash lt pix fab spr net ptp star hkc
    gpio bscan out pending) :
    aside p ⟨now, freeCtr, sys, boot, img, flt, log, sec, otp, nvm, mnt, flash, lt, pix, fab, spr, net, ptp, star, hkc,
      gpio, bscan, out, pending⟩ = ⟨img, vmod fab.perch p fun _ => Perch.reset⟩ := rfl

@[simp] theorem mk_aside (p : Fin 72) (s : State) :
    (⟨s.img, vmod s.fab.perch p fun _ => Perch.reset⟩ : Aside) = aside p s := rfl

@[simp] theorem aside_ite (p : Fin 72) (c : Prop) [Decidable c] (s t : State) :
    aside p (if c then s else t) = if c then aside p s else aside p t := apply_ite (aside p) c s t

/-- Another perch stands as it did where what lies aside is the same. -/
theorem aside_elsewhere {p q : Fin 72} {s t : State} (h : aside p t = aside p s) (hq : q ≠ p) :
    t.fab.perch[q] = s.fab.perch[q] := by
  have hperch := congrArg (fun a : Aside => a.perch[q]) h
  simpa only [aside, vmod_other _ _ _ _ hq] using hperch

/-! ### Changes of the perch, of counters, lines and reports -/

@[simp] theorem bump_aside (p s) : aside p (bump s) = aside p s := rfl
@[simp] theorem wantSnapshot_aside (p s) : aside p (wantSnapshot s) = aside p s := rfl
@[simp] theorem markLines_aside (p f s) : aside p (markLines f s) = aside p s := rfl
@[simp] theorem onCnt_aside (p f s) : aside p (onCnt f s) = aside p s := rfl
@[simp] theorem onWCnt_aside (p f s) : aside p (onWCnt f s) = aside p s := rfl

@[simp] theorem report_aside (p code s) : aside p (report code s) = aside p s := by
  rw [aside, report_img, report_fab, mk_aside]

@[simp] theorem onPerch_aside (p f s) : aside p (onPerch p f s) = aside p s := by
  simp [onPerch]

@[simp] theorem onFinch_aside (p f s) : aside p (onFinch p f s) = aside p s := onPerch_aside p _ s
@[simp] theorem onWren_aside (p f s) : aside p (onWren p f s) = aside p s := onPerch_aside p _ s
@[simp] theorem onIss_aside (p f s) : aside p (onIss p f s) = aside p s := onPerch_aside p _ s
@[simp] theorem onStage_aside (p v f s) : aside p (onStage p v f s) = aside p s := onFinch_aside p _ s

/-! ### The schedule -/

@[simp] theorem beginOp_aside (p i s) : aside p (beginOp p i s) = aside p s := onIss_aside p _ s
@[simp] theorem onWork_aside (p f s) : aside p (onWork p f s) = aside p s := onIss_aside p _ s
@[simp] theorem noteOp_aside (p i out s) : aside p (noteOp p i out s) = aside p s := by simp [noteOp]
@[simp] theorem stepAg_aside (p ag n s) : aside p (stepAg p ag n s) = aside p s := onFinch_aside p _ s

/-! ### Stage operations -/

@[simp] theorem countAccSat_aside (p sat s) : aside p (countAccSat sat s) = aside p s := by simp [countAccSat]
@[simp] theorem countSpecial_aside (p sp s) : aside p (countSpecial sp s) = aside p s := by simp [countSpecial]
@[simp] theorem countRqSat_aside (p sat s) : aside p (countRqSat sat s) = aside p s := by simp [countRqSat]

@[simp] theorem countEligible_aside (p narrow cheap s) : aside p (countEligible narrow cheap s) = aside p s :=
  onCnt_aside p _ s

@[simp] theorem countQpoison_aside (p s) : aside p (countQpoison s) = aside p s := onCnt_aside p _ s
@[simp] theorem countIssue_aside (p f r s) : aside p (countIssue f r s) = aside p s := by simp [countIssue]

@[simp] theorem mvmExact_aside (p v f acc x fi mark s) : aside p (mvmExact p v f acc x fi mark s) = aside p s := by
  simp [mvmExact]

@[simp] theorem mvmSkipped_aside (p v f acc fi s) : aside p (mvmSkipped v f acc fi s) = aside p s := by
  simp [mvmSkipped]

@[simp] theorem mvmBody_aside (p v f acc src fi mark s) : aside p (mvmBody p v f acc src fi mark s) = aside p s := by
  simp [mvmBody]

@[simp] theorem opaBody_aside (p v f sa sb fi mark s) : aside p (opaBody p v f sa sb fi mark s) = aside p s := by
  simp [opaBody]

@[simp] theorem lmacBody_aside (p v f acc sa sb fi mark s) :
    aside p (lmacBody p v f acc sa sb fi mark s) = aside p s := by
  simp [lmacBody]

@[simp] theorem laneBody_aside (p v f op sa sb d fi mark s) :
    aside p (laneBody p v f op sa sb d fi mark s) = aside p s :=
  onStage_aside p v _ s

@[simp] theorem arithBody_aside (p v f oi of_ sa sb d fi mark s) :
    aside p (arithBody p v f oi of_ sa sb d fi mark s) = aside p s := by
  simp [arithBody]

@[simp] theorem extremeBody_aside (p v f want sa sb d fi mark s) :
    aside p (extremeBody p v f want sa sb d fi mark s) = aside p s := by
  simp [extremeBody]

@[simp] theorem rqBody_aside (p v f acc d fi mark s) : aside p (rqBody p v f acc d fi mark s) = aside p s := by
  simp [rqBody]

@[simp] theorem lutBody_aside (p v wide x fi mark s) : aside p (lutBody p v wide x fi mark s) = aside p s :=
  onStage_aside p v _ s

@[simp] theorem cmpBody_aside (p v f op sa sb m fi mark s) : aside p (cmpBody p v f op sa sb m fi mark s) = aside p s :=
  onFinch_aside p _ s

@[simp] theorem plogBody_aside (p op fi mark s) : aside p (plogBody p op fi mark s) = aside p s := by
  cases op <;> exact onFinch_aside p _ s

@[simp] theorem selBody_aside (p v f m sa sb d fi mark s) : aside p (selBody p v f m sa sb d fi mark s) = aside p s :=
  onStage_aside p v _ s

@[simp] theorem shfBody_aside (p v f q x d fi mark s) : aside p (shfBody p v f q x d fi mark s) = aside p s :=
  onStage_aside p v _ s

@[simp] theorem redBody_aside (p v f mx x d fi mark s) : aside p (redBody p v f mx x d fi mark s) = aside p s := by
  simp [redBody]

@[simp] theorem aclrBody_aside (p v accs fi mark s) : aside p (aclrBody p v accs fi mark s) = aside p s :=
  onStage_aside p v _ s

@[simp] theorem amovBody_aside (p v src dst fi mark s) : aside p (amovBody p v src dst fi mark s) = aside p s :=
  onStage_aside p v _ s

/-- A stage operation leaves aside what its body does. -/
theorem stageOp_aside (p v i g formats) (body : Finch → Bool → State → State)
    (h : ∀ fi mark t, aside p (body fi mark t) = aside p t) (s) :
    aside p (nextOf s (stageOp p v i g formats body s)) = aside p s := by
  simp [stageOp, h]

@[simp] theorem stageAgain_aside (p i s) : aside p (nextOf s (stageAgain p i s)) = aside p s := by
  cases i
  case mvm => exact stageOp_aside _ _ _ _ _ _ (mvmBody_aside p _ _ _ _) s
  case opa => exact stageOp_aside _ _ _ _ _ _ (opaBody_aside p _ _ _ _) s
  case lmac => exact stageOp_aside _ _ _ _ _ _ (lmacBody_aside p _ _ _ _ _) s
  case add | sub | mul => exact stageOp_aside _ _ _ _ _ _ (arithBody_aside p _ _ _ _ _ _ _) s
  case max | min => exact stageOp_aside _ _ _ _ _ _ (extremeBody_aside p _ _ _ _ _ _) s
  case rq => exact stageOp_aside _ _ _ _ _ _ (rqBody_aside p _ _ _ _) s
  case lut => exact stageOp_aside _ _ _ _ _ _ (lutBody_aside p _ _ _) s
  case cmp => exact stageOp_aside _ _ _ _ _ _ (cmpBody_aside p _ _ _ _ _ _) s
  case plog => exact stageOp_aside _ _ _ _ _ _ (plogBody_aside p _) s
  case sel => exact stageOp_aside _ _ _ _ _ _ (selBody_aside p _ _ _ _ _ _) s
  case shf => exact stageOp_aside _ _ _ _ _ _ (shfBody_aside p _ _ _ _ _) s
  case red => exact stageOp_aside _ _ _ _ _ _ (redBody_aside p _ _ _ _ _) s
  case aclr => exact stageOp_aside _ _ _ _ _ _ (aclrBody_aside p _ _) s
  case amov => exact stageOp_aside _ _ _ _ _ _ (amovBody_aside p _ _ _) s
  all_goals rfl

/-! ### Reads of the Wren -/

@[simp] theorem unmask_aside (p s) : aside p (unmask s) = aside p s := rfl
@[simp] theorem finding_aside (p s) : aside p (finding p s) = aside p s := by simp [finding]
@[simp] theorem putWord_aside (p a w s) : aside p (putWord p a w s) = aside p s := by simp [putWord]
@[simp] theorem queueWb_aside (p a w s) : aside p (queueWb p a w s) = aside p s := by simp [queueWb]
@[simp] theorem wrenCorrected_aside (p code s) : aside p (wrenCorrected code s) = aside p s := by simp [wrenCorrected]
@[simp] theorem wrenLost_aside (p code s) : aside p (wrenLost code s) = aside p s := by simp [wrenLost]
@[simp] theorem poisonRead_aside (p s) : aside p (poisonRead s) = aside p s := rfl

@[simp] theorem residentLost_aside (p a s) : aside p (residentLost p a s) = aside p s := by
  unfold residentLost
  split <;> simp

@[simp] theorem readWord_aside (p a e s) : aside p (readWord p a e s).2 = aside p s := by
  cases e <;> simp only [readWord]
  case uncorrectable => simp
  all_goals split <;> simp

@[simp] theorem readWords_aside (p as es s) : aside p (readWords p as es s).2 = aside p s := by
  induction as generalizing es s with
  | nil => rfl
  | cons a r ih => exact (ih es.tail _).trans (readWord_aside p a _ s)

@[simp] theorem loadInput_aside (p g ag fi ws s) : aside p (loadInput p g ag fi ws s) = aside p s := by
  simp [loadInput]

@[simp] theorem loadTile_aside (p v g ag half fi ws s) : aside p (loadTile p v g ag half fi ws s) = aside p s := by
  simp [loadTile]

@[simp] theorem execLdw_aside (p g ag ecc s) : aside p (nextOf s (execLdw p g ag ecc s)) = aside p s := by
  simp [execLdw]

@[simp] theorem execLdn_aside (p g ag ecc s) : aside p (nextOf s (execLdn p g ag ecc s)) = aside p s := by
  simp [execLdn]

@[simp] theorem execLdt_aside (p v g ag half ecc s) : aside p (nextOf s (execLdt p v g ag half ecc s)) = aside p s := by
  simp [execLdt]

/-! ### The re-execution -/

@[simp] theorem storeAgain_aside (p g ag src n i s) : aside p (storeAgain p g ag src n i s) = aside p s := by
  simp [storeAgain]

@[simp] theorem popToken_aside (p s) : aside p (popToken p s) = aside p s := onWork_aside p _ s

@[simp] theorem writeToken_aside (p t pd mark s) : aside p (writeToken p t pd mark s) = aside p s := by
  cases pd <;> simp [writeToken]

@[simp] theorem recvAgain_aside (p g link ch pd i s) : aside p (recvAgain p g link ch pd i s) = aside p s := by
  unfold recvAgain
  (repeat' split) <;> simp

@[simp] theorem opAgain_aside (p i es s) : aside p (opAgain p i es s) = aside p s := by
  unfold opAgain
  split <;> simp

@[simp] theorem mouldAgain_aside (p m s) : aside p (mouldAgain p m s) = aside p s := by simp [mouldAgain]

@[simp] theorem replayOps_aside (p ops es bad s) : aside p (replayOps p ops es bad s).2 = aside p s := by
  induction ops generalizing es bad s with
  | nil => rfl
  | cons o r ih => simp only [replayOps, ih, opAgain_aside, mouldAgain_aside]

/-- A re-execution puts the checked Finch, its runners and the FAB counters back, and leaves alone what lies aside. -/
theorem reexecute_unwinds (p : Fin 72) (q : Snapshot) (w : Work) (j : Nat) (es : List Ecc) (s : State) :
    ∃ t, (reexecute p q w j es s).2 = unwind p s t ∧ aside p t = aside p s :=
  ⟨_, rfl, (replayOps_aside p _ _ _ _).trans (onPerch_aside p _ s)⟩

theorem unwind_perch (p : Fin 72) (s t : State) :
    (unwind p s t).fab.perch[p] =
      { t.fab.perch[p] with finch := s.fab.perch[p].finch, iss := s.fab.perch[p].iss, run := s.fab.perch[p].run } :=
  vmod_same _ _ _

/-- A re-execution leaves the checked Finch, its runners and the FAB counters as they were (R225, R228). -/
theorem reexecute_checked (p : Fin 72) (q : Snapshot) (w : Work) (j : Nat) (es : List Ecc) (s : State) :
    (reexecute p q w j es s).2.fab.cnt = s.fab.cnt ∧
      (reexecute p q w j es s).2.fab.perch[p].finch = s.fab.perch[p].finch ∧
      (reexecute p q w j es s).2.fab.perch[p].iss = s.fab.perch[p].iss ∧
      (reexecute p q w j es s).2.fab.perch[p].run = s.fab.perch[p].run := by
  obtain ⟨t, ht, -⟩ := reexecute_unwinds p q w j es s
  rw [ht, unwind_perch]
  exact ⟨rfl, rfl, rfl, rfl⟩

/-- The image and every Finch stand as they did. -/
structure FinchesStand (s t : State) : Prop where
  img : t.img = s.img
  finch : ∀ q : Fin 72, finchOf t q = finchOf s q

theorem FinchesStand.refl (s : State) : FinchesStand s s := ⟨rfl, fun _ => rfl⟩

theorem FinchesStand.trans {s t u : State} (h : FinchesStand s t) (k : FinchesStand t u) : FinchesStand s u :=
  ⟨k.img.trans h.img, fun q => (k.finch q).trans (h.finch q)⟩

/-- The slice a checker visits is read off the slice and the beat of its Finch and the image. -/
theorem sliceOf_congr {s t : State} {p : Fin 72} (hslice : (finchOf t p).slice = (finchOf s p).slice)
    (hbeat : (finchOf t p).beat = (finchOf s p).beat) (himg : t.img = s.img) : sliceOf t p = sliceOf s p := by
  rw [sliceOf, sliceOf, hslice, hbeat, himg]

theorem FinchesStand.sliceOf_eq {s t : State} (h : FinchesStand s t) (p : Fin 72) : sliceOf t p = sliceOf s p :=
  sliceOf_congr (congrArg Finch.slice (h.finch p)) (congrArg Finch.beat (h.finch p)) h.img

theorem reexecute_finchesStand (p : Fin 72) (q : Snapshot) (w : Work) (j : Nat) (es : List Ecc) (s : State) :
    FinchesStand s (reexecute p q w j es s).2 := by
  obtain ⟨t, ht, haside⟩ := reexecute_unwinds p q w j es s
  obtain ⟨-, hfinch, -, -⟩ := reexecute_checked p q w j es s
  have hleft : aside p (reexecute p q w j es s).2 = aside p s := by
    rw [ht]
    exact (onPerch_aside p _ _).trans haside
  refine ⟨congrArg Aside.img hleft, fun x => ?_⟩
  by_cases hx : x = p
  · subst hx
    exact hfinch
  · exact congrArg Perch.finch (aside_elsewhere hleft hx)

/-- What a tithe slot finds leaves the image and every Finch as they were. -/
theorem titheSigs_finchesStand (p : Fin 72) (j : Nat) (masks : BitVec 32 × BitVec 32 × BitVec 32)
    (ecc eccArb : List Ecc) (s : State) : FinchesStand s (titheSigs p j masks ecc eccArb s).2 := by
  have once := fun west q w es t => reexecute_finchesStand west q w j es t
  simp only [titheSigs]
  split
  · exact .refl s
  · split
    · split
      · split <;> exact (once _ _ _ _ _).trans (once _ _ _ _ _)
      · exact once _ _ _ _ _
    · exact .refl s

/-! ### Verdicts -/

theorem stand_flt (code : BitVec 16) (s : State) :
    (stand code s).flt = { s.flt with standing := (stand code s).flt.standing } := by
  unfold stand
  split <;> split <;> rfl

theorem stand_fab (code : BitVec 16) (s : State) : (stand code s).fab = s.fab := by
  rw [stand_changes]

/-- A standing flag is no finding of the tithe. -/
theorem stand_titheFound (code : BitVec 16) (s : State) : (stand code s).flt.titheFound = s.flt.titheFound := by
  rw [stand_flt]

theorem stand_classCount (code : BitVec 16) (s : State) (n : Nat) : classCount (stand code s) n = classCount s n := by
  rw [classCount, stand_flt, classCount]

/-- A report is no finding of the tithe. -/
theorem report_titheFound (code : BitVec 16) (s : State) : (report code s).flt.titheFound = s.flt.titheFound := by
  rw [report, logFault_flt, queueSummary_flt]
  unfold summarise
  split <;> rfl

theorem finding_flt (p : Fin 72) (s : State) : (finding p s).flt = s.flt := by
  unfold finding
  dsimp only
  (repeat' split) <;> rfl

theorem finding_cnt (p : Fin 72) (s : State) : (finding p s).fab.cnt = s.fab.cnt := by
  unfold finding
  dsimp only
  (repeat' split) <;> rfl

/-- The class of a code is the one it was made with (R26). -/
theorem faultClass_faultCode {c : Nat} (h : c < 256) (n : Nat) : faultClass (faultCode c n) = c := by
  have hn : n % 256 < 256 := Nat.mod_lt _ (by decide)
  rw [faultClass, faultCode, BitVec.toNat_ofNat]
  omega

/-- The report of a code counts its class once. -/
theorem classCount_report_faultCode {c : Nat} (h : c < 256) (n : Nat) (s : State) :
    classCount (report (faultCode c n) s) c = satInc 32 (classCount s c) := by
  simpa only [faultClass_faultCode h] using classCount_report (faultCode c n) s

/-- What a verdict on Finch `f` does: one report of class 0x10, a finding recorded for the Finch, earlier findings kept,
the FAB counters as they were (R111, R112). -/
structure Judged (f : Fin 72) (s t : State) : Prop where
  reported : classCount t 0x10 = satInc 32 (classCount s 0x10)
  found : f.val ∈ t.flt.titheFound.map (·.1)
  kept : ∀ n ∈ s.flt.titheFound.map (·.1), n ∈ t.flt.titheFound.map (·.1)
  cnt : t.fab.cnt = s.fab.cnt

theorem judgeFinch_judged (f : Fin 72) (slice : Nat) (checker : Fin 72) (s : State) :
    Judged f s (judgeFinch f slice checker s) := by
  unfold judgeFinch
  dsimp only
  split
  case isTrue hagain =>
    have hmem : (f.val, slice, checker.val) ∈ s.flt.titheFound := List.contains_iff_mem.mp hagain
    have hsame : (finding f (stand (faultCode 0x10 f.val) (report (faultCode 0x10 (128 + f.val)) s))).flt.titheFound =
        s.flt.titheFound := by
      rw [finding_flt, stand_titheFound, report_titheFound]
    refine ⟨?_, ?_, fun n hn => ?_, ?_⟩
    · rw [classCount_congr (finding_flt _ _), stand_classCount, classCount_report_faultCode (by decide)]
    · rw [hsame]
      exact List.mem_map_of_mem hmem
    · rw [hsame]
      exact hn
    · rw [finding_cnt, stand_fab, report_fab]
  case isFalse =>
    have hsame : (stand (faultCode 0x10 f.val) (report (faultCode 0x10 f.val) s)).flt.titheFound =
        s.flt.titheFound := by
      rw [stand_titheFound, report_titheFound]
    refine ⟨?_, List.mem_cons_self, fun n hn => List.mem_cons_of_mem _ ?_, ?_⟩
    · exact (stand_classCount _ _ _).trans (classCount_report_faultCode (by decide) _ _)
    · rw [hsame]
      exact hn
    · rw [stand_fab, report_fab]

/-! ### Arbitration -/

section
variable {a b c : BitVec 32} (checked checker arbiter : Fin 72) (slice : Nat) (s : State)

theorem arbitrate_agree (hab : a = b) (hbc : b = c) : arbitrate checked checker arbiter slice a b c s = s :=
  if_pos ⟨hab, hbc⟩

theorem arbitrate_checked (hbc : b = c) (hab : a ≠ b) :
    arbitrate checked checker arbiter slice a b c s = judgeFinch checked slice checker s := by
  subst hbc
  simp [arbitrate, hab]

theorem arbitrate_checker (hac : a = c) (hab : a ≠ b) :
    arbitrate checked checker arbiter slice a b c s = judgeFinch checker slice checker s := by
  have hbc : b ≠ c := fun h => hab (hac.trans h.symm)
  simp [arbitrate, hbc, hac]

theorem arbitrate_arbiter (hab : a = b) (hbc : b ≠ c) :
    arbitrate checked checker arbiter slice a b c s = judgeFinch arbiter slice checker s := by
  subst hab
  simp [arbitrate, hbc]

theorem arbitrate_all_differ (hab : a ≠ b) (hbc : b ≠ c) (hac : a ≠ c) :
    arbitrate checked checker arbiter slice a b c s =
      judgeFinch checker slice checker (judgeFinch checked slice checker s) := by
  simp [arbitrate, hab, hbc, hac]

end

/-! ### The end of a slot -/

/-- The end of a finding records it and lets its flag fall (R112). -/
theorem endFinding_changes (f : Nat) (s : State) :
    endFinding f s = { s with flt := (endFinding f s).flt, log := (endFinding f s).log } := by
  unfold endFinding
  dsimp only
  split <;> rfl

/-- A visit without a mismatch changes the findings and the log alone (R112). -/
theorem clearFinding_changes (checker : Fin 72) (slice : Nat) (s : State) :
    clearFinding checker slice s =
      { s with flt := (clearFinding checker slice s).flt, log := (clearFinding checker slice s).log } := by
  refine List.foldlRecOn _ _ (motive := fun t : State => t = { s with flt := t.flt, log := t.log }) rfl
    fun t ht e _ => ?_
  rw [endFinding_changes, ht]

theorem clearFinding_fab (checker : Fin 72) (slice : Nat) (s : State) :
    (clearFinding checker slice s).fab = s.fab := by
  rw [clearFinding_changes]

theorem clearFinding_img (checker : Fin 72) (slice : Nat) (s : State) :
    (clearFinding checker slice s).img = s.img := by
  rw [clearFinding_changes]

/-- The sweep's next slice changes the slice of the checker's Finch alone. -/
theorem nextSlice_finch (p : Fin 72) (s : State) :
    (nextSlice p s).fab.perch[p].finch = { s.fab.perch[p].finch with
      slice := some ((sliceOf s p + 1) % max 1 (sliceCount s.img (rowOf p))) } :=
  congrArg Perch.finch (vmod_same _ _ _)

theorem nextSlice_cnt (p : Fin 72) (s : State) : (nextSlice p s).fab.cnt = s.fab.cnt := rfl

theorem onFinch_finch (p : Fin 72) (f : Finch → Finch) (s : State) :
    (onFinch p f s).fab.perch[p].finch = f s.fab.perch[p].finch :=
  congrArg Perch.finch (vmod_same _ _ _)

/-- A skipped check is done and awaits no arbitration. -/
theorem skipTithe_finch (p : Fin 72) (s : State) :
    (skipTithe p s).fab.perch[p].finch.titheDone = true ∧ (skipTithe p s).fab.perch[p].finch.arb = none := by
  rw [skipTithe, nextSlice_finch, onFinch_finch]
  exact ⟨rfl, rfl⟩

theorem skipTithe_cnt (p : Fin 72) (s : State) :
    (skipTithe p s).fab.cnt = { s.fab.cnt with titheSkip := satInc 32 s.fab.cnt.titheSkip } := rfl

theorem skipTithe_flt (p : Fin 72) (s : State) : (skipTithe p s).flt = s.flt := rfl

theorem skipTithe_aside (p : Fin 72) (s : State) : aside p (skipTithe p s) = aside p s :=
  (onFinch_aside p _ _).trans ((onFinch_aside p _ _).trans (onCnt_aside p _ s))

theorem closeTithe_skips (p : Fin 72) (s : State) : closeTithe p none s = skipTithe p s := rfl

/-- The tithe slot of a checker's beat is done. -/
def doneTithe (p : Fin 72) (s : State) : State :=
  onFinch p (fun x => { x with titheDone := true }) s

/-- A check that agrees ends the earlier findings of its slice, and the sweep goes on (R109, R112). -/
theorem closeTithe_agrees {p : Fin 72} {s : State} (harb : (finchOf s p).arb = none) (a c : BitVec 32) :
    closeTithe p (some (a, a, c)) s = nextSlice p (clearFinding p (sliceOf s p) (doneTithe p s)) := by
  simp [closeTithe, harb, doneTithe]

/-- The Finch of a checker whose check agreed: done, and at the sweep's next slice (R109). -/
theorem closeTithe_agrees_finch {p : Fin 72} {s : State} (harb : (finchOf s p).arb = none) (a c : BitVec 32) :
    (closeTithe p (some (a, a, c)) s).fab.perch[p].finch = { s.fab.perch[p].finch with
      titheDone := true
      slice := some ((sliceOf s p + 1) % max 1 (sliceCount s.img (rowOf p))) } := by
  have hfinch : (clearFinding p (sliceOf s p) (doneTithe p s)).fab.perch[p].finch =
      { s.fab.perch[p].finch with titheDone := true } := by
    rw [clearFinding_fab]
    exact onFinch_finch p _ s
  have himg : (clearFinding p (sliceOf s p) (doneTithe p s)).img = s.img := clearFinding_img _ _ _
  have hslice : sliceOf (clearFinding p (sliceOf s p) (doneTithe p s)) p = sliceOf s p :=
    sliceOf_congr (congrArg (·.slice) hfinch) (congrArg (·.beat) hfinch) himg
  rw [closeTithe_agrees harb, nextSlice_finch, hslice, hfinch, himg]

theorem closeTithe_agrees_cnt {p : Fin 72} {s : State} (harb : (finchOf s p).arb = none) (a c : BitVec 32) :
    (closeTithe p (some (a, a, c)) s).fab.cnt = s.fab.cnt := by
  rw [closeTithe_agrees harb, nextSlice_cnt, clearFinding_fab]
  rfl

/-- A check that differs counts a mismatch and awaits the arbitration of its slice (R111). -/
theorem closeTithe_differs {p : Fin 72} {s : State} (harb : (finchOf s p).arb = none) {a b : BitVec 32} (hab : b ≠ a)
    (c : BitVec 32) :
    closeTithe p (some (a, b, c)) s =
      onFinch p (fun x => { x with arb := some (sliceOf s p), slice := some (sliceOf s p), titheDone := true })
        (onCnt (fun k => { k with titheMismatch := satInc 32 k.titheMismatch }) s) := by
  simp [closeTithe, harb, hab]

/-- A checker that awaits an arbitration ends it by the three signatures (R111). -/
theorem closeTithe_arbitrates {p : Fin 72} {s : State} {j : Nat} (harb : (finchOf s p).arb = some j)
    (a b c : BitVec 32) :
    closeTithe p (some (a, b, c)) s = nextSlice p (onFinch p (fun x => { x with arb := none, titheDone := true })
      (arbitrate (besides s p 7) p (besides s p 1) j a b c s)) := by
  simp [closeTithe, harb]

/-! ### The slot of a checker -/

/-- The tithe slot of a checker has come: it issues, after its last mould, with the tithe in force and not done. -/
structure TitheDue (s : State) (p : Fin 72) : Prop where
  issuing : issues s p = true
  undone : (finchOf s p).titheDone = false
  on : titheOn s p = true
  last : foldOf s p ≤ (finchOf s p).mould + 1

theorem titheSlot_idle {s : State} {p : Fin 72}
    (h : issues s p = false ∨ (finchOf s p).titheDone = true ∨ titheOn s p = false ∨
      (finchOf s p).mould + 1 < foldOf s p)
    (own re arb : BitVec 32) (store : Ecc) (ecc eccArb : List Ecc) :
    exec (.titheSlot p own re arb store ecc eccArb) s = .next s :=
  if_pos h

/-- No arbitration for another checker takes the slot's place. -/
theorem not_serving {s : State} {p : Fin 72} (turn : (finchOf s p).serves = false ∨ (finchOf s p).arb ≠ none) :
    ¬((finchOf s p).serves && (finchOf s p).arb.isNone) = true := by
  rcases turn with h | h <;> simp [h]

section
variable {s u : State} {p : Fin 72} {j : Nat} (due : TitheDue s p) (own re arb : BitVec 32) (ecc eccArb : List Ecc)
include due

theorem TitheDue.not_idle :
    ¬(issues s p = false ∨ (finchOf s p).titheDone = true ∨ titheOn s p = false ∨
      (finchOf s p).mould + 1 < foldOf s p) := by
  simp [due.issuing, due.undone, due.on, due.last]

/-- A serving arbiter leaves its own slice (R111). -/
theorem titheSlot_serves (hserves : (finchOf s p).serves = true) (harb : (finchOf s p).arb = none) (store : Ecc) :
    exec (.titheSlot p own re arb store ecc eccArb) s = .next (doneTithe p s) := by
  refine (if_neg due.not_idle).trans (if_pos ?_)
  rw [hserves, harb]
  rfl

section
variable (turn : (finchOf s p).serves = false ∨ (finchOf s p).arb ≠ none)
include turn

/-- An uncorrectable word of the snapshot store or the token log is reported, and the check is skipped. -/
theorem titheSlot_uncorrectable :
    exec (.titheSlot p own re arb .uncorrectable ecc eccArb) s =
      .next (skipTithe p (report (faultCode 0x12 (besides s p 7).val) s)) :=
  (if_neg due.not_idle).trans (if_neg (not_serving turn))

/-- A checker ends its slot with the signatures it finds; what it finds leaves every Finch as it was. -/
theorem titheSlot_closes (hj : j = (finchOf s p).arb.getD (sliceOf s p))
    {x : Option (BitVec 32 × BitVec 32 × BitVec 32)} (hsigs : titheSigs p j (own, re, arb) ecc eccArb s = (x, u)) :
    exec (.titheSlot p own re arb .clean ecc eccArb) s = .next (closeTithe p x u) ∧ FinchesStand s u := by
  have hstand := titheSigs_finchesStand p j (own, re, arb) ecc eccArb s
  subst hj
  rw [hsigs] at hstand
  refine ⟨(if_neg due.not_idle).trans ((if_neg (not_serving turn)).trans ?_), hstand⟩
  simp [storeFinding, hsigs]

end

/-- The slot of a checker that awaits an arbitration: it is done, and the arbitration alone reports (R111). -/
theorem titheSlot_arbitrates (harb : (finchOf s p).arb = some j) {a b c : BitVec 32}
    (hsigs : titheSigs p j (own, re, arb) ecc eccArb s = (some (a, b, c), u)) :
    ∃ t, exec (.titheSlot p own re arb .clean ecc eccArb) s = .next t ∧ t.fab.perch[p].finch.titheDone = true ∧
      t.fab.perch[p].finch.arb = none ∧
      t.flt = (arbitrate (besides u p 7) p (besides u p 1) j a b c u).flt ∧
      t.fab.cnt = (arbitrate (besides u p 7) p (besides u p 1) j a b c u).fab.cnt := by
  obtain ⟨hexec, hstand⟩ :=
    titheSlot_closes due own re arb ecc eccArb (.inr (by simp [harb])) (by rw [harb]; rfl) hsigs
  refine ⟨_, hexec, ?_⟩
  rw [closeTithe_arbitrates ((congrArg Finch.arb (hstand.finch p)).trans harb), nextSlice_finch, onFinch_finch]
  exact ⟨rfl, rfl, rfl, rfl⟩

/-- Where the arbitration finds one Finch, one verdict is reported for it. -/
theorem titheSlot_judges (harb : (finchOf s p).arb = some j) {a b c : BitVec 32}
    (hsigs : titheSigs p j (own, re, arb) ecc eccArb s = (some (a, b, c), u)) {f : Fin 72}
    (verdict : arbitrate (besides u p 7) p (besides u p 1) j a b c u = judgeFinch f j p u) :
    ∃ t, exec (.titheSlot p own re arb .clean ecc eccArb) s = .next t ∧ t.fab.perch[p].finch.titheDone = true ∧
      t.fab.perch[p].finch.arb = none ∧ classCount t 0x10 = satInc 32 (classCount u 0x10) ∧ t.fab.cnt = u.fab.cnt ∧
      f.val ∈ t.flt.titheFound.map (·.1) := by
  obtain ⟨t, hexec, hdone, hnone, hflt, hcnt⟩ := titheSlot_arbitrates due own re arb ecc eccArb harb hsigs
  have judged := judgeFinch_judged f j p u
  rw [verdict] at hflt hcnt
  exact ⟨t, hexec, hdone, hnone, (classCount_congr hflt _).trans judged.reported, hcnt.trans judged.cnt,
    hflt ▸ judged.found⟩

end

/-! ### The spare -/

theorem spareSelfTest_idle {s : State} (h : s.fab.bypass ≠ none ∨ inState [.boot, .commit, .run, .repair] s = false)
    (failed : List (Fin 8)) : exec (.spareSelfTest failed) s = .next s :=
  if_pos (h.imp_left Option.isSome_iff_ne_none.mpr)

section
variable {s : State} (hb : s.fab.bypass = none) (hs : inState [.boot, .commit, .run, .repair] s = true)
include hb hs

/-- The spare is there to test, in a state that tests it. -/
theorem spare_tests : ¬(s.fab.bypass.isSome = true ∨ inState [.boot, .commit, .run, .repair] s = false) := by
  simp [hb, hs]

/-- A spare that passes is available, and the repair that waits for its test goes on (R119, R245). -/
theorem spareSelfTest_passes :
    exec (.spareSelfTest []) s = .next { s with fab := { s.fab with
      spareOk := true
      repairAvail := true
      repair := s.fab.repair.map fun r => { r with tested := true }
      wcnt := { s.fab.wcnt with
        reloading := s.fab.wcnt.reloading || s.fab.repair.any fun r => !r.loaded && !r.aborted } } } :=
  if_neg (spare_tests hb hs)

end

/-- The spare of a row has failed its test: class 0x70 for its perch, and no repair is available (R119). -/
def spareFailed (r : Fin 8) (s : State) : State :=
  let t := report (faultCode 0x70 (sparePerch r).val) s
  { t with fab := { t.fab with spareOk := false, repairAvail := false } }

theorem spareFailed_fab (r : Fin 8) (s : State) :
    (spareFailed r s).fab = { s.fab with spareOk := false, repairAvail := false } := by
  simp [spareFailed]

theorem spareFailed_spr (r : Fin 8) (s : State) : (spareFailed r s).spr = s.spr := report_spr _ s

theorem spareFailed_classCount (r : Fin 8) (s : State) :
    classCount (spareFailed r s) 0x70 = satInc 32 (classCount s 0x70) :=
  classCount_report_faultCode (by decide) _ s

section
variable {s : State} (hb : s.fab.bypass = none) (hs : inState [.boot, .commit, .run, .repair] s = true) (r : Fin 8)
include hb hs

theorem spareSelfTest_fails (hr : s.fab.repair = none) : exec (.spareSelfTest [r]) s = .next (spareFailed r s) := by
  show execSpareSelfTest [r] s = _
  simp [execSpareSelfTest, hb, hs, hr, reportAll, spareFailed]

/-- A repair that has not loaded the spare is given up (R119). -/
theorem spareSelfTest_aborts {x : Repair} (hr : s.fab.repair = some x) (hx : x.loaded = false) :
    exec (.spareSelfTest [r]) s = .next (abortRepair (spareFailed r s)) := by
  show execSpareSelfTest [r] s = _
  simp [execSpareSelfTest, hb, hs, hr, hx, reportAll, spareFailed]

end

/-- A repair given up stays so, its fault is not masked, and every line carries DEGRADED (R120, Table 3.2). -/
theorem abortRepair_unmasks {s : State} {x : Repair} (hr : s.fab.repair = some x) :
    (abortRepair s).fab.repair = some { x with aborted := true } ∧ (abortRepair s).fab.unmasked = true ∧
      (abortRepair s).fab.spareOk = s.fab.spareOk ∧ (abortRepair s).fab.repairAvail = s.fab.repairAvail ∧
      (∀ l ∈ (abortRepair s).spr.lines, l.degraded = true) ∧ (abortRepair s).flt = s.flt := by
  simp [abortRepair, hr, unmask]

/-! ### The statement -/

/-- Settles O24: each clause by the rule of its event above. -/
theorem checkTitheAndSpare : Obligations.CheckTitheAndSpare := by
  unfold Obligations.CheckTitheAndSpare
  refine ⟨?agrees, ?differs, ?allAgree, ?checked, ?checker, ?arbiter, ?allDiffer, ?skips, ?uncorrectable, ?noBeat,
    fun s p q w j es => reexecute_checked p q w j es s, ?serves,
    fun s p own re arb store ecc eccArb h => titheSlot_idle h own re arb store ecc eccArb, ?passes, ?fails, ?aborts,
    fun s failed h => spareSelfTest_idle h failed⟩
  case agrees =>
    rintro s u p own re arb a b c j ecc eccArb hi hd ho hl ⟨harb, hserves, hj⟩ hsigs rfl
    obtain ⟨hexec, hstand⟩ :=
      titheSlot_closes ⟨hi, hd, ho, hl⟩ own re arb ecc eccArb (.inl hserves) (by rw [harb]; exact hj) hsigs
    have hnone : (finchOf u p).arb = none := (congrArg Finch.arb (hstand.finch p)).trans harb
    refine ⟨_, hexec, ?_, ?_, ?_, closeTithe_agrees_cnt hnone a c⟩
    all_goals rw [closeTithe_agrees_finch hnone]
  case differs =>
    rintro s u p own re arb a b c j ecc eccArb hi hd ho hl ⟨harb, hserves, rfl⟩ hsigs hab
    obtain ⟨hexec, hstand⟩ :=
      titheSlot_closes ⟨hi, hd, ho, hl⟩ own re arb ecc eccArb (.inl hserves) (by rw [harb]; rfl) hsigs
    refine ⟨_, hexec, ?_⟩
    rw [closeTithe_differs ((congrArg Finch.arb (hstand.finch p)).trans harb) hab, hstand.sliceOf_eq]
    exact ⟨onFinch_finch _ _ _, rfl, rfl, rfl⟩
  case allAgree =>
    intro s u p own re arb a b c j ecc eccArb hi hd ho hl harb hsigs hab hbc
    obtain ⟨t, hexec, hdone, hnone, hflt, hcnt⟩ :=
      titheSlot_arbitrates ⟨hi, hd, ho, hl⟩ own re arb ecc eccArb harb hsigs
    rw [arbitrate_agree _ _ _ _ _ hab hbc] at hflt hcnt
    exact ⟨t, hexec, hdone, hnone, hflt, hcnt⟩
  case checked =>
    intro s u p own re arb a b c j ecc eccArb hi hd ho hl harb hsigs hbc hab
    exact titheSlot_judges ⟨hi, hd, ho, hl⟩ own re arb ecc eccArb harb hsigs (arbitrate_checked _ _ _ _ _ hbc hab)
  case checker =>
    intro s u p own re arb a b c j ecc eccArb hi hd ho hl harb hsigs hac hab
    exact titheSlot_judges ⟨hi, hd, ho, hl⟩ own re arb ecc eccArb harb hsigs (arbitrate_checker _ _ _ _ _ hac hab)
  case arbiter =>
    intro s u p own re arb a b c j ecc eccArb hi hd ho hl harb hsigs hab hbc
    exact titheSlot_judges ⟨hi, hd, ho, hl⟩ own re arb ecc eccArb harb hsigs (arbitrate_arbiter _ _ _ _ _ hab hbc)
  case allDiffer =>
    intro s u p own re arb a b c j ecc eccArb hi hd ho hl harb hsigs hab hbc hac
    obtain ⟨t, hexec, hdone, hnone, hflt, hcnt⟩ :=
      titheSlot_arbitrates ⟨hi, hd, ho, hl⟩ own re arb ecc eccArb harb hsigs
    rw [arbitrate_all_differ _ _ _ _ _ hab hbc hac] at hflt hcnt
    have first := judgeFinch_judged (besides u p 7) j p u
    have second := judgeFinch_judged p j p (judgeFinch (besides u p 7) j p u)
    refine ⟨t, hexec, hdone, hnone, ?_, hcnt.trans (second.cnt.trans first.cnt), ?_, ?_⟩
    · rw [classCount_congr hflt, second.reported, first.reported]
    · rw [hflt]
      exact second.kept _ first.found
    · rw [hflt]
      exact second.found
  case skips =>
    intro s u p own re arb j ecc eccArb hi hd ho hl turn hj hsigs
    obtain ⟨hexec, -⟩ := titheSlot_closes ⟨hi, hd, ho, hl⟩ own re arb ecc eccArb turn hj hsigs
    obtain ⟨hdone, hnone⟩ := skipTithe_finch p u
    rw [closeTithe_skips] at hexec
    exact ⟨_, hexec, hdone, hnone, skipTithe_cnt p u, skipTithe_flt p u⟩
  case uncorrectable =>
    intro s p own re arb ecc eccArb hi hd ho hl turn
    have hexec := titheSlot_uncorrectable ⟨hi, hd, ho, hl⟩ own re arb ecc eccArb turn
    obtain ⟨hdone, hnone⟩ := skipTithe_finch p (report (faultCode 0x12 (besides s p 7).val) s)
    refine ⟨_, hexec, hdone, hnone, ?_, ?_, fun q hq => ?_⟩
    · rw [classCount_congr (skipTithe_flt _ _), classCount_report_faultCode (by decide)]
    · rw [skipTithe_cnt, report_fab]
    · exact aside_elsewhere ((skipTithe_aside p _).trans (report_aside p _ s)) hq
  case noBeat =>
    intro s p j masks ecc eccArb h
    simp [titheSigs, h]
  case serves =>
    intro s p own re arb store ecc eccArb hi hd ho hl hserves harb
    have hexec := titheSlot_serves ⟨hi, hd, ho, hl⟩ own re arb ecc eccArb hserves harb store
    exact ⟨_, hexec, vmod_same _ _ _, rfl, rfl, fun q hq => vmod_other _ _ _ _ hq⟩
  case passes =>
    intro s hb hs
    exact ⟨_, spareSelfTest_passes hb hs, rfl, rfl, rfl, rfl, rfl, rfl, rfl⟩
  case fails =>
    intro s r hb hs hr
    exact ⟨_, spareSelfTest_fails hb hs r hr, spareFailed_fab r s, spareFailed_classCount r s, spareFailed_spr r s⟩
  case aborts =>
    intro s r x hb hs hr hx
    have hfab := spareFailed_fab r s
    obtain ⟨hrepair, hmask, hok, havail, hlines, hflt⟩ :=
      abortRepair_unmasks (s := spareFailed r s) (x := x) (by rw [hfab, hr])
    refine ⟨_, spareSelfTest_aborts hb hs r hr hx, ?_, ?_, hrepair, hmask, hlines, ?_⟩
    · rw [hok, hfab]
    · rw [havail, hfab]
    · rw [classCount_congr hflt, spareFailed_classCount]

end Sys2Proof.Machine

/-! SUPPORT. The line-timing unit (family 04_line_timing.md): encoder edges and line requests, what a trigger begins and
what it leaves alone, and the strobes, gates and slot closes of a line. Settles O2 and O15 to O18. -/

namespace Sys2Proof.Machine

/-- Settles O2: of the two arms of a step, the one of the empty queue. -/
theorem emptyQueueLetsTimePass : Obligations.EmptyQueueLetsTimePass := by
  unfold Obligations.EmptyQueueLetsTimePass
  intro s h
  simp only [step, h, idle]

/-! ### Encoder edges -/

/-- New accepted levels of ENCA and ENCB (R131). -/
def withLevels (a b : Bool) (s : State) : State :=
  { s with lt := { s.lt with encA := a, encB := b } }

/-- The filter accepts a level that was held long enough while the line-timing clock runs (R66, R131). -/
theorem filterAccepts_iff (samples : Nat) (s : State) :
    filterAccepts samples s = true ↔ s.sys.spllLocked = true ∧ s.sys.code ≠ .off ∧ s.sys.code ≠ .sleep ∧
      s.img.nat Fld.encFilt [] ≤ samples := by
  simp [filterAccepts, ltRuns, clocked, inState, and_assoc]

theorem execEncEdge_filtered {s : State} {samples : Nat} (h : filterAccepts samples s = false) (e : EncInput) :
    execEncEdge e samples s = .next s :=
  if_pos h

/-- Off the encoder master only the levels change (R45). -/
theorem execEncEdge_member {s : State} {samples : Nat} (h : filterAccepts samples s = true) (hm : isMaster s = false)
    (e : EncInput) :
    execEncEdge e samples s = .next (withLevels (if e = .b then s.lt.encA else !s.lt.encA)
      (if e = .a then s.lt.encB else !s.lt.encB) s) := by
  simp [execEncEdge, h, hm, withLevels]

/-- On the encoder master both inputs at once are an illegal transition (R133). -/
theorem execEncEdge_both {s : State} {samples : Nat} (h : filterAccepts samples s = true) (hm : isMaster s = true) :
    execEncEdge .both samples s = .next (illegalTransition (withLevels (!s.lt.encA) (!s.lt.encB) s)) := by
  simp [execEncEdge, h, hm, withLevels]

/-- On the encoder master one input is an edge, which counts on the state with the new levels (R130). -/
theorem execEncEdge_counts {s u : State} {e : EncInput} {samples : Nat} {a b fwd : Bool}
    (h : filterAccepts samples s = true) (hm : isMaster s = true) (he : e ≠ .both)
    (ha : a = if e = .b then s.lt.encA else !s.lt.encA) (hb : b = if e = .a then s.lt.encB else !s.lt.encB)
    (hf : forward (s.img.on Fld.encDir []) (decide (e = .a)) a b = fwd) (hu : countEdge fwd (withLevels a b s) = u) :
    execEncEdge e samples s = .next u := by
  subst ha hb hf hu
  cases e with
  | both => exact absurd rfl he
  | a => simp [execEncEdge, h, hm, withLevels]
  | b => simp [execEncEdge, h, hm, withLevels]

/-! ### The accumulator, the deficit and line requests -/

theorem countEdge_reverse (s : State) :
    countEdge false s = { s with lt := { s.lt with deficit := min (s.lt.deficit + 1) (2 ^ 32 - 1) } } := rfl

theorem countEdge_deficit {s : State} (h : 0 < s.lt.deficit) :
    countEdge true s = { s with lt := { s.lt with deficit := s.lt.deficit - 1 } } := by
  simp [countEdge, h]

theorem countEdge_accumulates {s : State} (hd : s.lt.deficit = 0) (h : s.lt.acc + 2 ^ 20 < s.img.nat Fld.encRatio []) :
    countEdge true s = { s with lt := { s.lt with acc := s.lt.acc + 2 ^ 20 } } := by
  have short : ¬s.img.nat Fld.encRatio [] ≤ s.lt.acc + 0x100000 := Nat.not_le.mpr h
  simp only [countEdge, hd.not_gt, short, Bool.true_eq_false, if_false]
  rfl

/-- An accumulator that reaches ENC_RATIO raises a line request (R134). -/
theorem countEdge_requests {s u : State} (hd : s.lt.deficit = 0)
    (h : s.img.nat Fld.encRatio [] ≤ s.lt.acc + 2 ^ 20)
    (hu : raiseRequest { s with lt := { s.lt with acc := s.lt.acc + 2 ^ 20 - s.img.nat Fld.encRatio [] } } = u) :
    countEdge true s = u := by
  have reached : s.img.nat Fld.encRatio [] ≤ s.lt.acc + 0x100000 := h
  simp only [countEdge, hd.not_gt, reached, Bool.true_eq_false, if_false, if_true]
  exact hu

/-- A request merges into one that waits (R140). -/
theorem raiseRequest_merges {s : State} {n : Nat} (h : s.lt.request = some n) :
    raiseRequest s =
      { s with lt := { s.lt with request := some (n + 1), merged := satInc 32 s.lt.merged } } := by
  simp [raiseRequest, h]

/-- A request after TL_MIN waits for its trigger, or for the end of the drain (R139, R144). -/
theorem raiseRequest_waits {s : State} (h : s.lt.request = none)
    (late : ∀ t, s.lt.lastTrig = some t → t + s.img.nat Fld.tlMin [] ≤ s.now + 2) :
    raiseRequest s =
      { s with lt := { s.lt with request := some 0, clampDefer := false, drainDefer := s.lt.drain } } := by
  unfold raiseRequest
  cases hl : s.lt.lastTrig with
  | none => simp [h]
  | some t => simp [h, Nat.not_lt.mpr (late t hl)]

/-- A request within TL_MIN is deferred by the clamp (R139). -/
theorem raiseRequest_deferred {s : State} {t : Nat} (h : s.lt.request = none) (hl : s.lt.lastTrig = some t)
    (early : s.now + 2 < t + s.img.nat Fld.tlMin []) :
    raiseRequest s = { s with lt := { s.lt with
      request := some 0, clampDefer := true, drainDefer := s.lt.drain, deferred := satInc 32 s.lt.deferred } } := by
  simp [raiseRequest, h, hl, early]

/-! ### ENCZ -/

theorem execEnczEdge_filtered {s : State} {samples : Nat} (h : filterAccepts samples s = false) :
    execEnczEdge samples s = .next s :=
  if_pos h

/-- A fall, and a rise that ENCZ_EN or the role leaves out, change the level only (R138). -/
theorem execEnczEdge_level {s : State} {samples : Nat} (h : filterAccepts samples s = true)
    (hz : s.lt.encZ = true ∨ s.img.on Fld.enczEn [] = false ∨ isMaster s = false) :
    execEnczEdge samples s = .next { s with lt := { s.lt with encZ := !s.lt.encZ } } := by
  simp [execEnczEdge, h, hz]

theorem execEnczEdge_marks {s : State} {samples : Nat} (h : filterAccepts samples s = true) (hm : isMaster s = true)
    (hz : s.lt.encZ = false) (he : s.img.on Fld.enczEn [] = true) (hn : s.lt.enczMark = false) :
    execEnczEdge samples s = .next { s with lt := { s.lt with encZ := true, enczMark := true } } := by
  simp [execEnczEdge, h, hm, hz, he, hn]

theorem execEnczEdge_extra {s : State} {samples : Nat} (h : filterAccepts samples s = true) (hm : isMaster s = true)
    (hz : s.lt.encZ = false) (he : s.img.on Fld.enczEn [] = true) (hn : s.lt.enczMark = true) :
    execEnczEdge samples s =
      .next { s with lt := { s.lt with encZ := true, enczExtra := satInc 32 s.lt.enczExtra } } := by
  simp [execEnczEdge, h, hm, hz, he, hn]

/-- Settles O15: both inputs at once are an illegal transition, which counts no edge. -/
theorem bothInputsAtOnceCountNoEdge : Obligations.BothInputsAtOnceCountNoEdge := by
  unfold Obligations.BothInputsAtOnceCountNoEdge
  intro s samples h hm
  exact execEncEdge_both h hm

/-- Settles O16: an edge that counts is put down to the rules of the accumulator, the deficit and the requests. -/
theorem encoderEdgesFeedTheAccumulator : Obligations.EncoderEdgesFeedTheAccumulator := by
  unfold Obligations.EncoderEdgesFeedTheAccumulator
  refine ⟨fun s e samples h => ⟨execEncEdge_filtered h e, execEnczEdge_filtered h⟩,
    fun s samples => filterAccepts_iff samples s, fun s e samples h hm => execEncEdge_member h hm e,
    fun s e samples a b h hm he ha hb hf => execEncEdge_counts h hm he ha hb hf (countEdge_reverse _),
    fun s e samples a b h hm he ha hb hf hd => execEncEdge_counts h hm he ha hb hf (countEdge_deficit hd),
    fun s e samples a b h hm he ha hb hf hd hr => execEncEdge_counts h hm he ha hb hf (countEdge_accumulates hd hr),
    fun s e samples n a b h hm he ha hb hf hd hr hq =>
      execEncEdge_counts h hm he ha hb hf (countEdge_requests hd hr (raiseRequest_merges hq)),
    fun s e samples a b h hm he ha hb hf hd hr hq late =>
      execEncEdge_counts h hm he ha hb hf (countEdge_requests hd hr (raiseRequest_waits hq late)),
    fun s e samples t a b h hm he ha hb hf hd hr hq hl early =>
      execEncEdge_counts h hm he ha hb hf (countEdge_requests hd hr (raiseRequest_deferred hq hl early)),
    fun s samples h hz => execEnczEdge_level h hz,
    fun s samples h hm hz he hn => execEnczEdge_marks h hm hz he hn,
    fun s samples h hm hz he hn => execEnczEdge_extra h hm hz he hn⟩

/-! ### What a trigger leaves alone -/

/-- A freeze changes the adaptive flat field alone (R190). -/
theorem freezeAll_changes (s : State) : freezeAll s = withAff (freezeAll s).pix.aff s := by
  unfold freezeAll
  split
  · refine List.foldlRecOn _ _ (motive := fun t : State => t = withAff t.pix.aff s) rfl fun t ht k _ => ?_
    rw [ht]
    rfl
  · rfl

theorem countThaw_changes (s : State) : countThaw s = withAff (countThaw s).pix.aff s := by
  unfold countThaw
  split <;> rfl

theorem adaptAtTrigger_changes (s : State) : adaptAtTrigger s = withAff (adaptAtTrigger s).pix.aff s := by
  unfold adaptAtTrigger
  split
  · exact freezeAll_changes s
  · exact countThaw_changes s

/-- The judgement of the time changes the time block alone (R437). -/
theorem judgeTime_changes (s : State) : ∃ ptp, judgeTime s = { s with ptp := ptp } := by
  simp only [judgeTime]
  (repeat' split) <;> exact ⟨_, rfl⟩

/-- The start of a line changes the pins alone, and what they show leaves the package (R548). -/
theorem startLineOut_changes (encz : Bool) (s : State) :
    ∃ gpio out, startLineOut encz s = { s with gpio := gpio, out := out } := by
  unfold startLineOut
  split
  · rw [withPins_changes]
    dsimp only [onPins]
    exact ⟨_, _, rfl⟩
  · exact ⟨_, _, rfl⟩

/-- A gap reaches the lines of the Sprue and the counters of the Starling block (R471, R472). -/
theorem fillGap_changes (m : Nat) (s : State) :
    fillGap m s = { s with spr := (fillGap m s).spr, star := (fillGap m s).star } := by
  unfold fillGap
  split
  · rfl
  · split <;> rfl

/-- The end of the encoder master role zeroes the accumulator with the request that waits (R134). -/
theorem endRole_changes (s : State) :
    endRole s = { s with lt := (zeroAccumulator s).lt, star := (endRole s).star } := rfl

/-- The frames of a tick only leave the package. -/
theorem foldl_out_changes {β : Type} (l : List β) (f : State → β → State)
    (hf : ∀ t x, f t x = { t with out := (f t x).out }) (s : State) :
    l.foldl f s = { s with out := (l.foldl f s).out } := by
  refine List.foldlRecOn l f (motive := fun t : State => t = { s with out := t.out }) rfl fun t ht x _ => ?_
  rw [hf, ht]

/-- A tick leaves the package; where it hands the role over, the accumulator is zeroed (R466, R476). -/
theorem sendTick_changes (line merge : Nat) (deferred encz : Bool) (s : State) :
    ∃ freeCtr out star lt, sendTick line merge deferred encz s =
      { s with freeCtr := freeCtr, out := out, star := star, lt := lt } ∧
      (lt = s.lt ∨ lt = (zeroAccumulator s).lt) := by
  unfold sendTick
  dsimp only
  rw [foldl_out_changes sides]
  · split
    · exact ⟨_, _, _, _, endRole_changes _, .inr rfl⟩
    · exact ⟨_, _, _, _, rfl, .inl rfl⟩
  · intro t d
    (repeat' split) <;> rfl

/-! ### What a trigger begins -/

/-- The period of a line is settled once: with it in place the line-timing unit reads the same at a trigger. -/
theorem ltTrigger_settled {s u : State} (t : Trig) (hlt : u.lt = { s.lt with period := periodNow s })
    (hnow : u.now = s.now) (himg : u.img = s.img) (hhkc : u.hkc = s.hkc) :
    (ltTrigger t u).lt = (ltTrigger t s).lt := by
  have settled : periodNow u = periodNow s := by
    simp only [periodNow, hlt, hnow]
    split <;> rfl
  simp only [ltTrigger, settled, hlt, hnow, himg, hhkc]

/-- The record of the line that trigger `t` begins, in state `s`, as far as the trigger says it. -/
structure RecordOf (t : Trig) (s : State) (l : LineRec) : Prop where
  line : l.line = t.line
  speedLimit : l.speedLimit = t.deferred
  merged : l.merged = min t.merged 255
  encz : l.encz = t.encz
  restart : l.restart = (s.lt.restart || t.gap || s.fab.restart)

/-- What trigger `t` in state `s` makes of it before HOLD ends and a tick leaves: `u`. -/
structure Opened (t : Trig) (s u : State) : Prop where
  /-- The line-timing unit is at the start of the line. -/
  lt : u.lt = (ltTrigger t s).lt
  /-- The line's record joins those that are not formed yet. -/
  lines : ∃ l, u.spr.lines = s.spr.lines ++ [l] ∧ RecordOf t s l
  sys : u.sys = s.sys
  img : u.img = s.img
  otp : u.otp = s.otp
  flash : u.flash = s.flash

/-- HOLD ends with a line (R150). -/
def leaveHold (s : State) : State :=
  if s.sys.code = .hold then enter .run s else s

theorem leaveHold_changes (s : State) : leaveHold s = { s with sys := (leaveHold s).sys } := by
  unfold leaveHold
  split <;> rfl

theorem leaveHold_code (s : State) : (leaveHold s).sys.code = if s.sys.code = .hold then .run else s.sys.code := by
  unfold leaveHold
  split <;> rfl

/-- Before the record of its line is made, a trigger reaches the adaptive flat field and the time block alone. -/
theorem judgeTime_adaptAtTrigger_changes (s : State) :
    ∃ aff ptp, judgeTime (adaptAtTrigger s) = { withAff aff s with ptp := ptp } := by
  obtain ⟨ptp, judged⟩ := judgeTime_changes (adaptAtTrigger s)
  rw [judged, adaptAtTrigger_changes]
  exact ⟨_, ptp, rfl⟩

/-- A trigger opens its line, ends HOLD, and as encoder master sends its tick. -/
theorem trigger_opens (t : Trig) (s : State) :
    ∃ u, Opened t s u ∧ trigger t s =
      if (leaveHold u).star.encMaster then sendTick t.line (Nat.min t.merged 255) t.deferred t.encz (leaveHold u)
      else leaveHold u := by
  refine ⟨_, ?opened, rfl⟩
  obtain ⟨aff, ptp, judged⟩ := judgeTime_adaptAtTrigger_changes { s with lt := { s.lt with period := periodNow s } }
  dsimp only
  rw [judged]
  obtain ⟨gpio, out, hg⟩ := startLineOut_changes t.encz _
  rw [hg]
  simp only [clearEdges, onPins, gainCredits, onSprue, shiftCharge, withAff]
  exact ⟨ltTrigger_settled t rfl rfl rfl rfl, ⟨_, rfl, rfl, rfl, rfl, rfl, rfl⟩, rfl, rfl, rfl, rfl⟩

/-- What trigger `t` in state `s` makes of it: `u`. -/
structure Begun (t : Trig) (s u : State) : Prop where
  /-- The line-timing unit is at the start of the line; a role that ends with it zeroes the accumulator (R134). -/
  lt : u.lt = (ltTrigger t s).lt ∨ u.lt = (zeroAccumulator (ltTrigger t s)).lt
  /-- The line's record joins those that are not formed yet. -/
  lines : ∃ l, u.spr.lines = s.spr.lines ++ [l] ∧ RecordOf t s l
  /-- HOLD ends (R150). -/
  code : u.sys.code = if s.sys.code = .hold then .run else s.sys.code
  img : u.img = s.img
  otp : u.otp = s.otp
  flash : u.flash = s.flash

/-- The end of HOLD begins an opened line. -/
theorem Opened.begun {t : Trig} {s u : State} (h : Opened t s u) : Begun t s (leaveHold u) := by
  have code : (leaveHold u).sys.code = if s.sys.code = .hold then .run else s.sys.code := by
    rw [leaveHold_code, h.sys]
  refine ⟨.inl ?_, ?_, code, ?_, ?_, ?_⟩
  all_goals rw [leaveHold_changes]
  exacts [h.lt, h.lines, h.img, h.otp, h.flash]

/-- The accumulator is zeroed in the line-timing unit alone. -/
theorem zeroAccumulator_congr {s u : State} (h : u.lt = s.lt) : (zeroAccumulator u).lt = (zeroAccumulator s).lt := by
  simp only [zeroAccumulator, h]

/-- A tick that leaves keeps what the line's trigger has begun. -/
theorem Begun.sendTick {t : Trig} {s u : State} (h : Begun t s u) (line merge : Nat) (deferred encz : Bool) :
    Begun t s (sendTick line merge deferred encz u) := by
  obtain ⟨freeCtr, out, star, lt, sent, hlt⟩ := sendTick_changes line merge deferred encz u
  rw [sent]
  refine ⟨?_, h.lines, h.code, h.img, h.otp, h.flash⟩
  rcases hlt with rfl | rfl
  · exact h.lt
  · exact .inr (h.lt.elim zeroAccumulator_congr zeroAccumulator_congr)

/-- Every trigger begins its line. -/
theorem trigger_begins (t : Trig) (s : State) : Begun t s (trigger t s) := by
  obtain ⟨u, opened, htrigger⟩ := trigger_opens t s
  rw [htrigger]
  split
  · exact opened.begun.sendTick _ _ _ _
  · exact opened.begun

/-- The line-timing unit in a line that has begun (R137, R142, R143, R165). -/
theorem Begun.atStart {t : Trig} {s u : State} (h : Begun t s u) :
    u.lt.line = t.line ∧ u.lt.anyLine = true ∧ u.lt.lastTrig = some s.now ∧ u.lt.period = periodNow s ∧
      u.lt.enczMark = s.lt.enczMark ∧ u.lt.ticks = s.lt.ticks ∧ u.lt.stopped = false ∧ u.lt.drained = false ∧
      u.lt.restart = false ∧ u.lt.pulsed = 0 ∧ u.lt.closes = 0 := by
  rcases h.lt with hlt | hlt
  all_goals
    rw [hlt]
    exact ⟨rfl, rfl, rfl, rfl, rfl, rfl, rfl, rfl, rfl, rfl, rfl⟩

/-- Where no request waits at a trigger, none waits in the line it begins. -/
theorem Begun.noRequest {t : Trig} {s u : State} (h : Begun t s u) (hr : s.lt.request = none)
    (hc : s.lt.clampDefer = false) (hd : s.lt.drainDefer = false) :
    u.lt.request = none ∧ u.lt.clampDefer = false ∧ u.lt.drainDefer = false := by
  rcases h.lt with hlt | hlt
  · rw [hlt]
    exact ⟨hr, hc, hd⟩
  · rw [hlt]
    exact ⟨rfl, rfl, rfl⟩

/-! ### Triggers of requests and of ticks -/

/-- The line that a request begins (R135, R138, R139). -/
theorem requestTrigger_begins (n : Nat) (s : State) {u : State} (hu : requestTrigger n s = u) :
    u.lt.line = nextLine s ∧ u.lt.anyLine = true ∧ u.lt.lastTrig = some s.now ∧ u.lt.period = periodNow s ∧
      u.lt.request = none ∧ u.lt.clampDefer = false ∧ u.lt.drainDefer = false ∧ u.lt.enczMark = false ∧
      u.lt.stopped = false ∧ u.lt.drained = false ∧ u.lt.restart = false ∧ u.lt.pulsed = 0 ∧ u.lt.closes = 0 ∧
      (∃ l, u.spr.lines = s.spr.lines ++ [l] ∧ l.line = nextLine s ∧ l.speedLimit = s.lt.clampDefer ∧
        l.merged = min n 255 ∧ l.encz = s.lt.enczMark ∧ l.restart = (s.lt.restart || s.fab.restart)) ∧
      u.sys.code = (if s.sys.code = .hold then .run else s.sys.code) ∧
      u.img = s.img ∧ u.otp = s.otp ∧ u.flash = s.flash := by
  rw [requestTrigger] at hu
  have begun := hu ▸ trigger_begins _ _
  obtain ⟨line, anyLine, lastTrig, period, enczMark, -, stopped, drained, restart, pulsed, closes⟩ := begun.atStart
  obtain ⟨request, clampDefer, drainDefer⟩ := begun.noRequest rfl rfl rfl
  obtain ⟨l, lines, record⟩ := begun.lines
  have restarts : l.restart = (s.lt.restart || s.fab.restart) := by rw [record.restart, Bool.or_false]
  exact ⟨line, anyLine, lastTrig, period, request, clampDefer, drainDefer, enczMark, stopped, drained, restart, pulsed,
    closes, ⟨l, lines, record.line, record.speedLimit, record.merged, record.encz, restarts⟩, begun.code, begun.img,
    begun.otp, begun.flash⟩

/-- The line that a tick begins (R136, R138, R471 to R473). -/
theorem tickTrigger_begins (k : TickInfo) (s : State) {u : State} (hu : tickTrigger k s = u) :
    u.lt.line = k.line ∧ u.lt.ticks = s.lt.ticks.drop 1 ∧ u.lt.lastTrig = some s.now ∧ u.lt.period = periodNow s ∧
      u.lt.anyLine = true ∧ u.lt.enczMark = false ∧ u.lt.stopped = false ∧ u.lt.drained = false ∧
      u.lt.restart = false ∧ u.lt.pulsed = 0 ∧ u.lt.closes = 0 ∧
      (∃ l, u.spr.lines.getLast? = some l ∧ l.line = k.line ∧ l.speedLimit = k.deferred ∧
        l.merged = min k.merge 255 ∧ l.encz = (k.encz || s.lt.enczMark)) ∧
      u.sys.code = (if s.sys.code = .hold then .run else s.sys.code) ∧
      u.img = s.img ∧ u.otp = s.otp ∧ u.flash = s.flash := by
  simp only [tickTrigger] at hu
  rw [fillGap_changes] at hu
  have begun := hu ▸ trigger_begins _ _
  obtain ⟨line, anyLine, lastTrig, period, enczMark, ticks, stopped, drained, restart, pulsed, closes⟩ := begun.atStart
  obtain ⟨l, lines, record⟩ := begun.lines
  have last : u.spr.lines.getLast? = some l := by rw [lines, List.getLast?_concat]
  exact ⟨line, ticks, lastTrig, period, anyLine, enczMark, stopped, drained, restart, pulsed, closes,
    ⟨l, last, record.line, record.speedLimit, record.merged, record.encz⟩, begun.code, begun.img, begun.otp,
    begun.flash⟩

/-! ### The trigger commands -/

theorem live_of_isMaster {s : State} (h : isMaster s = true) : live s = true :=
  (Bool.and_eq_true_iff.mp h).2

/-- A tick in the ring is taken, whether a request waits or not (R136). -/
theorem execTriggers_tick {s : State} {k : TickInfo} {rest : List TickInfo} (hl : live s = true)
    (hr : ltRuns s = true) (hd : s.lt.drain = false) (ht : s.lt.ticks = k :: rest) :
    execLineTrigger s = .next (tickTrigger k s) ∧ execDeferredTrigger s = .next (tickTrigger k s) := by
  simp [execLineTrigger, execDeferredTrigger, hl, hr, hd, ht]

/-- LINE_TRIGGER takes a request that nothing defers (R135). -/
theorem execLineTrigger_request {s : State} {n : Nat} (hm : isMaster s = true) (hr : ltRuns s = true)
    (hd : s.lt.drain = false) (ht : s.lt.ticks = []) (hq : s.lt.request = some n) (hc : s.lt.clampDefer = false)
    (hw : s.lt.drainDefer = false) : execLineTrigger s = .next (requestTrigger n s) := by
  simp [execLineTrigger, live_of_isMaster hm, hm, hr, hd, ht, hq, hc, hw]

/-- DEFERRED_TRIGGER takes a request that the clamp or the drain deferred (R139, R144). -/
theorem execDeferredTrigger_request {s : State} {n : Nat} (hm : isMaster s = true) (hr : ltRuns s = true)
    (hd : s.lt.drain = false) (ht : s.lt.ticks = []) (hq : s.lt.request = some n)
    (h : s.lt.clampDefer = true ∨ s.lt.drainDefer = true) :
    execDeferredTrigger s = .next (requestTrigger n s) := by
  simp [execDeferredTrigger, live_of_isMaster hm, hm, hr, hd, ht, hq, h]

/-- Outside RUN, HOLD and REPAIR, without the line-timing clock and during the drain nothing triggers (R66, R144). -/
theorem execTriggers_idle {s : State} (h : live s = false ∨ ltRuns s = false ∨ s.lt.drain = true) :
    execLineTrigger s = .next s ∧ execDeferredTrigger s = .next s :=
  ⟨if_pos h, if_pos h⟩

/-- Without a tick, the request is the encoder master's. -/
theorem execTriggers_nothing {s : State} (ht : s.lt.ticks = []) (h : s.lt.request = none ∨ isMaster s = false) :
    execLineTrigger s = .next s ∧ execDeferredTrigger s = .next s := by
  unfold execLineTrigger execDeferredTrigger
  rw [ht]
  cases hq : s.lt.request with
  | none => simp only [ite_self, and_self]
  | some n =>
    have member : isMaster s = false := h.resolve_left (by simp [hq])
    simp [member]

/-- LINE_TRIGGER leaves a deferred request to DEFERRED_TRIGGER. -/
theorem execLineTrigger_deferred {s : State} (ht : s.lt.ticks = [])
    (h : s.lt.clampDefer = true ∨ s.lt.drainDefer = true) : execLineTrigger s = .next s := by
  unfold execLineTrigger
  rw [ht]
  cases s.lt.request with
  | none => exact ite_self _
  | some n => simp [h]

/-- DEFERRED_TRIGGER leaves a request that nothing defers to LINE_TRIGGER. -/
theorem execDeferredTrigger_undeferred {s : State} (ht : s.lt.ticks = []) (hc : s.lt.clampDefer = false)
    (hd : s.lt.drainDefer = false) : execDeferredTrigger s = .next s := by
  unfold execDeferredTrigger
  rw [ht]
  cases s.lt.request with
  | none => exact ite_self _
  | some n => simp [hc, hd]

/-! ### STOPPED and its drain -/

theorem freezeField_frozen (j : Fin 4) (s : State) (k : Fin 4) :
    (freezeField j s).pix.aff.frozen.getLsbD k = (s.pix.aff.frozen.getLsbD k || decide (k = j)) := by
  rw [← bit4_getLsbD, ← BitVec.getLsbD_or]
  rfl

theorem freezeField_lines (j : Fin 4) (s : State) :
    (freezeField j s).pix.aff.lines = s.pix.aff.lines.set j 0 := rfl

/-- The fields of a list that freeze begin an empty window (R190). -/
theorem freezeFields_spec (l : List (Fin 4)) (s : State) (k : Fin 4) :
    (l.foldl (fun t k => freezeField k t) s).pix.aff.frozen.getLsbD k =
        (s.pix.aff.frozen.getLsbD k || decide (k ∈ l)) ∧
      (l.foldl (fun t k => freezeField k t) s).pix.aff.lines[k] = if k ∈ l then 0 else s.pix.aff.lines[k] := by
  induction l generalizing s with
  | nil => simp
  | cons j r ih =>
    obtain ⟨frozen, lines⟩ := ih (freezeField j s)
    rw [List.foldl_cons, frozen, lines, freezeField_frozen, freezeField_lines]
    refine ⟨by simp only [List.mem_cons, Bool.decide_or, Bool.or_assoc], ?_⟩
    by_cases hj : k = j
    · subst hj
      simp
    · have : j.val ≠ k.val := fun e => hj (Fin.ext e.symm)
      simp [hj, this]

/-- A freeze of the adaptation freezes every field (R190). -/
theorem freezeAll_spec (s : State) (k : Fin 4) (h : s.img.on Fld.affEn [] = true) :
    (freezeAll s).pix.aff.frozen.getLsbD k = true ∧ (freezeAll s).pix.aff.lines[k] = 0 := by
  obtain ⟨frozen, lines⟩ := freezeFields_spec (List.finRange 4) s k
  rw [freezeAll, if_pos h, frozen, lines]
  simp

/-- STOPPED begins, with its drain, and the next trigger is a restart (R143, R145). -/
def stopLine (s : State) : State :=
  { s with lt := { s.lt with stopped := true, drain := true, restart := true } }

/-- 200 µs without a trigger (R143, R145, R190). -/
theorem execStopDetect_stops {s : State} (hl : live s = true) (hr : ltRuns s = true) (ht : s.lt.lastTrig ≠ none)
    (hs : s.lt.stopped = false) :
    execStopDetect s = .next (freezeAll (stopLine s)) := by
  simp [execStopDetect, stopLine, hl, hr, ht, hs]

theorem execStopDetect_idle {s : State}
    (h : live s = false ∨ ltRuns s = false ∨ s.lt.lastTrig = none ∨ s.lt.stopped = true) :
    execStopDetect s = .next s := by
  simp [execStopDetect, h]

theorem execDrainComplete_drains {s : State} (hd : s.lt.drain = true) (hr : ltRuns s = true) :
    execDrainComplete s = .next (endDrain s) :=
  if_pos ⟨hd, hr⟩

theorem execDrainComplete_idle {s : State} (h : s.lt.drain = false ∨ ltRuns s = false) :
    execDrainComplete s = .next s := by
  rcases h with h | h <;> simp [execDrainComplete, h]

/-- Settles O17: each clause by the rule of its command above. -/
theorem triggersBeginTheirLines : Obligations.TriggersBeginTheirLines := by
  unfold Obligations.TriggersBeginTheirLines
  refine ⟨?request, fun s n hm hr hd ht hq h =>
      ⟨_, execDeferredTrigger_request hm hr hd ht hq h, requestTrigger_begins n s rfl⟩,
    ?tick, ?idle, fun s ht h => execLineTrigger_deferred ht h,
    fun s ht hc hd => execDeferredTrigger_undeferred ht hc hd, ?stops, fun s h => execStopDetect_idle h,
    fun s hd hr => execDrainComplete_drains hd hr, fun s h => execDrainComplete_idle h⟩
  case request =>
    intro s n hm hr hd ht hq hc hw
    exact ⟨_, execLineTrigger_request hm hr hd ht hq hc hw, by simpa only [hc] using requestTrigger_begins n s rfl⟩
  case tick =>
    intro s k rest hl hr hd ht
    obtain ⟨onLine, onDeferred⟩ := execTriggers_tick hl hr hd ht
    have taken : s.lt.ticks.drop 1 = rest := by rw [ht, List.drop_one, List.tail_cons]
    exact ⟨_, onLine, onDeferred, taken ▸ tickTrigger_begins k s rfl⟩
  case idle =>
    rintro s (hl | hr | hd | ⟨ht, hq⟩ | ⟨ht, hm⟩)
    · exact execTriggers_idle (.inl hl)
    · exact execTriggers_idle (.inr (.inl hr))
    · exact execTriggers_idle (.inr (.inr hd))
    · exact execTriggers_nothing ht (.inl hq)
    · exact execTriggers_nothing ht (.inr hm)
  case stops =>
    intro s hl hr ht hs
    refine ⟨_, execStopDetect_stops hl hr ht hs, ?_, ?_, ?_, ?_, ?_, freezeAll_spec (stopLine s)⟩
    all_goals rw [freezeAll_changes]
    all_goals rfl

/-! ### Strobes and gates -/

theorem execStbAssert_rises {s : State} {k : Fin 4} (hd : slotDue k s = true) (hp : s.lt.pulsed.getLsbD k = false) :
    execStbAssert k s =
      .next { s with lt := { s.lt with stb := s.lt.stb ||| bit4 k, pulsed := s.lt.pulsed ||| bit4 k } } :=
  if_pos ⟨hd, hp⟩

theorem execStbAssert_idle {s : State} {k : Fin 4} (h : slotDue k s = false ∨ s.lt.pulsed.getLsbD k = true) :
    execStbAssert k s = .next s := by
  refine if_neg fun ⟨hd, hp⟩ => ?_
  rw [hd, hp] at h
  simp at h

theorem execFieldGateOpen_opens {s : State} {k : Fin 4} (h : slotDue k s = true) :
    execFieldGateOpen k s = .next { s with lt := { s.lt with gates := s.lt.gates ||| bit4 k } } :=
  if_pos h

theorem execFieldGateOpen_idle {s : State} {k : Fin 4} (h : slotDue k s = false) :
    execFieldGateOpen k s = .next s :=
  if_neg (by simp [h])

/-! ### Rows that the readback finds failed -/

/-- What the readback leaves alone: line timing, of the Cope die the close of the slot and the charge, the fabric, the
image and the SYS block. -/
structure Closed where
  lt : Lt
  closed : Vector (Option Nat) 4
  closedStages : Vector Nat 4
  charge : Vector Nat 128
  fab : Fab
  img : Image
  sys : Sys

/-- That part of a state. -/
def closedPart (s : State) : Closed :=
  ⟨s.lt, s.pix.closed, s.pix.closedStages, s.pix.charge, s.fab, s.img, s.sys⟩

theorem report_closedPart (code s) : closedPart (report code s) = closedPart s := by
  simp only [closedPart, report_lt, report_pix, report_fab, report_img, report_sys]

theorem stand_closedPart (code s) : closedPart (stand code s) = closedPart s := by
  rw [stand_changes]
  rfl

theorem failRow_closedPart (k r s) : closedPart (failRow k r s) = closedPart s := by
  simp only [failRow]
  split
  · rfl
  · split
    · exact report_closedPart _ _
    · exact (stand_closedPart _ _).trans (report_closedPart _ _)

theorem failRows_closedPart (k : Fin 4) (rows : List (Fin 32)) (s : State) :
    closedPart (rows.foldl (fun t r => failRow k r t) s) = closedPart s :=
  List.foldlRecOn (motive := fun t : State => closedPart t = closedPart s) _ _ rfl fun t ht r _ =>
    (failRow_closedPart k r t).trans ht

@[simp] theorem stand_pix (code : BitVec 16) (s : State) : (stand code s).pix = s.pix := by
  rw [stand_changes]

/-- A row found failed for the first time within the stages cuts the field to the rows before it, and row 0 loses the
field (R101). -/
theorem failRow_cuts {s : State} {k : Fin 4} {r : Fin 32}
    (hb : s.pix.badRows.contains (32 * k.val + r.val) = false) (hr : r.val < s.pix.stages[k]) :
    (failRow k r s).pix.stages = s.pix.stages.set k r.val ∧
      (failRow k r s).pix.badRows = (32 * k.val + r.val) :: s.pix.badRows ∧
      (failRow k r s).pix.fieldLost = (if r.val = 0 then s.pix.fieldLost ||| bit4 k else s.pix.fieldLost) ∧
      (failRow k r s).pix.lostAt = (if r.val = 0 then s.pix.lostAt.set k (some s.lt.line) else s.pix.lostAt) ∧
      classCount (failRow k r s) 2 = satInc 32 (classCount s 2) := by
  have within : decide (r.val < s.pix.stages[k]) = true := decide_eq_true hr
  simp only [failRow, hb, within, Bool.false_eq_true, Bool.true_eq_false, if_false, Bool.true_and, decide_eq_true_eq,
    stand_pix, report_pix, report_lt, true_and]
  exact (stand_classCount _ _ _).trans (classCount_report_faultCode (by decide) _ _)

/-- One beyond the stages is reported and cuts nothing (R101). -/
theorem failRow_beyond {s : State} {k : Fin 4} {r : Fin 32}
    (hb : s.pix.badRows.contains (32 * k.val + r.val) = false) (hr : s.pix.stages[k] ≤ r.val) :
    (failRow k r s).pix.stages = s.pix.stages ∧ (failRow k r s).pix.fieldLost = s.pix.fieldLost ∧
      (failRow k r s).pix.badRows = (32 * k.val + r.val) :: s.pix.badRows ∧
      classCount (failRow k r s) 2 = satInc 32 (classCount s 2) := by
  have beyond : decide (r.val < s.pix.stages[k]) = false := decide_eq_false hr.not_gt
  simp only [failRow, hb, beyond, Bool.false_eq_true, if_false, if_true, Bool.false_and, report_pix, true_and]
  exact classCount_report_faultCode (by decide) _ _

/-! ### Slot closes -/

/-- The gates of a field close: its conversion is due, and its rows in use have integrated (R55, R163, R164, R167). -/
def closeGates (k : Fin 4) (s : State) : State :=
  expose k { s with
    lt := { s.lt with
      gates := s.lt.gates &&& ~~~bit4 k
      closes := s.lt.closes ||| bit4 k
      eTime := if s.lt.closes ||| bit4 k = fieldBits s.img.slots then some s.now else s.lt.eTime }
    pix := { s.pix with
      closed := s.pix.closed.set k (if s.pix.fieldLost.getLsbD k then none else some s.lt.line)
      closedStages := s.pix.closedStages.set k s.pix.stages[k] } }

/-- The last close of a line is its E(n), with which the line is exposed (R55). -/
def closeSlot (k : Fin 4) (s : State) : State :=
  if s.lt.closes ||| bit4 k = fieldBits s.img.slots then
    markLine s.lt.line (fun l => { l with exposed := true }) (closeGates k s)
  else closeGates k s

theorem execFieldGateClose_closes {s : State} {k : Fin 4} (hg : s.lt.gates.getLsbD k = true) (hr : ltRuns s = true)
    (rows : List (Fin 32)) :
    execFieldGateClose k rows s = .next (rows.foldl (fun t r => failRow k r t) (closeSlot k s)) := by
  simp only [execFieldGateClose, hg, hr, Bool.true_eq_false, or_self, if_false, beq_iff_eq]
  rfl

theorem execFieldGateClose_idle {s : State} {k : Fin 4} (h : s.lt.gates.getLsbD k = false ∨ ltRuns s = false)
    (rows : List (Fin 32)) : execFieldGateClose k rows s = .next s :=
  if_pos h

/-- E(n) reaches the lines of the Sprue alone. -/
theorem closeSlot_changes (k : Fin 4) (s : State) :
    closeSlot k s = { closeGates k s with spr := (closeSlot k s).spr } := by
  unfold closeSlot
  split <;> rfl

theorem closeSlot_spr (k : Fin 4) (s : State) :
    (closeSlot k s).spr = if s.lt.closes ||| bit4 k = fieldBits s.img.slots then
      (markLine s.lt.line (fun l => { l with exposed := true }) s).spr else s.spr := by
  unfold closeSlot
  split <;> rfl

theorem closeSlot_closedPart (k s) : closedPart (closeSlot k s) = closedPart (closeGates k s) := by
  rw [closeSlot_changes]
  rfl

@[simp] theorem closeSlot_stages (k s) : (closeSlot k s).pix.stages = s.pix.stages := by rw [closeSlot_changes]; rfl
@[simp] theorem closeSlot_badRows (k s) : (closeSlot k s).pix.badRows = s.pix.badRows := by rw [closeSlot_changes]; rfl
@[simp] theorem closeSlot_lostAt (k s) : (closeSlot k s).pix.lostAt = s.pix.lostAt := by rw [closeSlot_changes]; rfl
@[simp] theorem closeSlot_line (k s) : (closeSlot k s).lt.line = s.lt.line := by rw [closeSlot_changes]; rfl
@[simp] theorem closeSlot_flt (k s) : (closeSlot k s).flt = s.flt := by rw [closeSlot_changes]; rfl

@[simp] theorem closeSlot_fieldLost (k s) : (closeSlot k s).pix.fieldLost = s.pix.fieldLost := by
  rw [closeSlot_changes]
  rfl

theorem closeSlot_classCount (k s) (n : Nat) : classCount (closeSlot k s) n = classCount s n :=
  classCount_congr (closeSlot_flt k s) n

/-- One slot window more in the rows in use of the field (R163, R164). -/
theorem closeGates_charge (k : Fin 4) (s : State) (i : Fin 128) :
    (closeGates k s).pix.charge[i] =
      if i.val / 32 = k.val ∧ i.val % 32 < s.pix.stages[k] then s.pix.charge[i] + 1 else s.pix.charge[i] := by
  simp only [closeGates, expose, Fin.getElem_fin, Vector.getElem_ofFn]

/-- Settles O18: each clause by the rule of its command above. -/
theorem strobesAndGatesOfALine : Obligations.StrobesAndGatesOfALine := by
  unfold Obligations.StrobesAndGatesOfALine
  refine ⟨fun s k hd hp => execStbAssert_rises hd hp, fun s k h => execStbAssert_idle h,
    fun s k h => execFieldGateOpen_opens h, fun s k h => execFieldGateOpen_idle h, fun s k => rfl, ?closes, ?exposed,
    ?cuts, ?beyond, fun s k rows h => execFieldGateClose_idle h rows⟩
  case closes =>
    intro s k rows hg hr
    obtain ⟨lt, closed, closedStages, charge, fab, img, sys⟩ :=
      Closed.mk.inj ((failRows_closedPart k rows _).trans (closeSlot_closedPart k s))
    refine ⟨_, execFieldGateClose_closes hg hr rows, lt, closed, closedStages, fun i => ?_, ?_, fab, img, sys⟩
    · rw [charge]
      exact closeGates_charge k s i
    · rintro rfl
      exact ⟨closeSlot_stages k s, closeSlot_fieldLost k s, closeSlot_flt k s⟩
  case exposed =>
    intro s k hg hr
    exact ⟨_, execFieldGateClose_closes hg hr [], closeSlot_spr k s⟩
  case cuts =>
    intro s k r hg hr hb hin
    have cut := failRow_cuts (s := closeSlot k s) (k := k) (r := r)
    simp only [closeSlot_stages, closeSlot_badRows, closeSlot_fieldLost, closeSlot_lostAt, closeSlot_line,
      closeSlot_classCount] at cut
    exact ⟨_, execFieldGateClose_closes hg hr [r], cut hb hin⟩
  case beyond =>
    intro s k r hg hr hb hout
    have reported := failRow_beyond (s := closeSlot k s) (k := k) (r := r)
    simp only [closeSlot_stages, closeSlot_badRows, closeSlot_fieldLost, closeSlot_classCount] at reported
    exact ⟨_, execFieldGateClose_closes hg hr [r], reported hb hout⟩

end Sys2Proof.Machine

/-! SUPPORT. The ingress of a line and the history's scrub (family 05_cope_fields.md): what the row access of a bus word
writes, what the broadcast of a line and its crossings with parity change, and the slots a scrub pass marks. Settles
O20. -/

namespace Sys2Proof.Machine

/-! ### Device states and unchanged Wrens -/

theorem inState_pair {a b : DevState} {s : State} : inState [a, b] s = true ↔ s.sys.code = a ∨ s.sys.code = b := by
  simp [inState]

theorem inState_pair_false {a b : DevState} {s : State} :
    inState [a, b] s = false ↔ s.sys.code ≠ a ∧ s.sys.code ≠ b := by
  simp [inState]

theorem vmod_eq_self {α : Type} {n : Nat} {v : Vector α n} {i : Fin n} {f : α → α} (h : f v[i] = v[i]) :
    vmod v i f = v := by
  rw [vmod, h]
  exact Vector.set_getElem_self _

/-- A change that leaves the Wren of the perch as it is changes nothing. -/
theorem onWren_eq_self {s : State} {p : Fin 72} {f : Wren → Wren} (h : f s.fab.perch[p].wren = s.fab.perch[p].wren) :
    onWren p f s = s := by
  have same := congrArg (fun w => { s.fab.perch[p] with wren := w }) h
  rw [onWren, onPerch, vmod_eq_self same]

/-! ### The row access of a bus word -/

/-- A write leaves every other address alone, whatever the order of the cells. -/
theorem read_write_unordered {α : Type} [DecidableEq α] {a b : Nat} (h : b ≠ a) (d v : α) (m : List (Nat × α)) :
    Sparse.read d (Sparse.write d a v m) b = Sparse.read d m b := by
  induction m with
  | nil => by_cases hv : v = d <;> simp [Sparse.write, Sparse.read, hv, h.symm]
  | cons c r ih =>
    obtain ⟨x, y⟩ := c
    rcases Nat.lt_trichotomy a x with hx | rfl | hx
    · by_cases hv : v = d <;> simp [Sparse.write, Sparse.read, hx, hv, h.symm]
    · by_cases hv : v = d <;> simp [Sparse.write, Sparse.read, hv, h.symm]
    · simp [Sparse.write, Sparse.read, hx.not_gt, hx.ne', ih]

/-- One Wren word of a bus word that begins at `base` is written, within R251. -/
def landWord (base : Nat) (x : Wren) (d : WWord × Nat) : Wren :=
  if base + d.2 < 49152 then setWord (base + d.2) d.1 x else x

theorem landIngress_nil {x : Wren} (h : x.ingQ = []) : landIngress x = x := by
  simp [landIngress, h]

/-- The oldest bus word leaves the queue, and its Wren words are written in order (R196, R263). -/
theorem landIngress_cons {x : Wren} {w : IngWord} {rest : List IngWord} (h : x.ingQ = w :: rest) :
    landIngress x = w.data.zipIdx.foldl (landWord w.addr) { x with ingQ := rest } := by
  simp only [landIngress, h]
  rfl

theorem landWord_ingQ (base : Nat) (x : Wren) (d : WWord × Nat) : (landWord base x d).ingQ = x.ingQ := by
  unfold landWord
  split <;> rfl

theorem landWord_read {base a : Nat} {d : WWord × Nat} (h : a ≠ base + d.2) (x : Wren) :
    Sparse.read WWord.reset (landWord base x d).words a = Sparse.read WWord.reset x.words a := by
  unfold landWord
  split
  · exact read_write_unordered h _ _ _
  · rfl

theorem landIngress_ingQ {x : Wren} {w : IngWord} {rest : List IngWord} (h : x.ingQ = w :: rest) :
    (landIngress x).ingQ = rest := by
  rw [landIngress_cons h]
  exact List.foldlRecOn (motive := fun y : Wren => y.ingQ = rest) _ _ rfl fun y hy d _ =>
    (landWord_ingQ _ y d).trans hy

/-- Outside the addresses of the bus word every Wren word reads as before. -/
theorem landIngress_read_outside {x : Wren} {w : IngWord} {rest : List IngWord} (h : x.ingQ = w :: rest) {a : Nat}
    (ha : a < w.addr ∨ w.addr + w.data.length ≤ a) :
    Sparse.read WWord.reset (landIngress x).words a = Sparse.read WWord.reset x.words a := by
  rw [landIngress_cons h]
  refine List.foldlRecOn (motive := fun y : Wren => Sparse.read WWord.reset y.words a = _) _ _ rfl fun y hy d hd => ?_
  have inside : d.2 < w.data.length := by simpa using List.snd_lt_of_mem_zipIdx hd
  exact (landWord_read (by omega) y).trans hy

/-- A bus word of one Wren word is a word write; poisoned data is held as the poison pattern. -/
theorem landIngress_read_single {x : Wren} {a : Nat} {d : WWord} {rest : List IngWord} (h : x.ingQ = ⟨a, [d]⟩ :: rest)
    (hc : Sparse.wf WWord.reset x.words = true) (ha : a < 49152) :
    Sparse.read WWord.reset (landIngress x).words a = if d.poison then ⟨0, true⟩ else d := by
  have written : landIngress x = setWord a d { x with ingQ := rest } := by
    rw [landIngress_cons h]
    exact if_pos ha
  rw [written]
  exact read_write_same hc

theorem execIngressWordWrite_idle {s : State} {p : Fin 72} (h : s.fab.perch[p].wren.ingQ = []) :
    execIngressWordWrite p s = .next s := by
  rw [execIngressWordWrite, onWren_eq_self (landIngress_nil h)]

/-! ### Perches take their windows of a line -/

/-- The logical positions an image uses (R210). -/
def usedPositions (m : Image) : List (Nat × Nat) :=
  m.rows.flatMap fun r => (List.range 8).map fun c => (r, c)

theorem perchAt_mem_usedPerches {m : Image} {s : State} {x : Nat × Nat} (h : x ∈ usedPositions m) :
    perchAt s x.1 x.2 ∈ usedPerches m s := by
  obtain ⟨r, hr, hx⟩ := List.mem_flatMap.mp h
  obtain ⟨c, hc, rfl⟩ := List.mem_map.mp hx
  exact List.mem_flatMap.mpr ⟨r, hr, List.mem_map.mpr ⟨c, hc, rfl⟩⟩

theorem capture_changes (o : LadleLine) (parity : List (Fin 72 × Nat × Bool)) (r c : Nat) (s : State) :
    capture o parity r c s = { s with fab := { s.fab with perch := (capture o parity r c s).fab.perch } } := rfl

theorem capture_elsewhere {s : State} {r c : Nat} {p : Fin 72} (h : p ≠ perchAt s r c) (o : LadleLine)
    (parity : List (Fin 72 × Nat × Bool)) : (capture o parity r c s).fab.perch[p] = s.fab.perch[p] :=
  vmod_other _ _ _ _ h

/-- The perches at several positions capture their windows of a line. -/
def captures (o : LadleLine) (parity : List (Fin 72 × Nat × Bool)) (l : List (Nat × Nat)) (s : State) : State :=
  l.foldl (fun t x => capture o parity x.1 x.2 t) s

/-- Only perches change. -/
theorem captures_changes (o : LadleLine) (parity : List (Fin 72 × Nat × Bool)) (l : List (Nat × Nat)) (s : State) :
    captures o parity l s = { s with fab := { s.fab with perch := (captures o parity l s).fab.perch } } := by
  refine List.foldlRecOn (motive := fun t : State => t = { s with fab := { s.fab with perch := t.fab.perch } }) _ _ rfl
    fun t ht x _ => ?_
  rw [capture_changes, ht]

/-- A perch at none of the positions takes nothing; no capture moves the column map. -/
theorem captures_elsewhere {l : List (Nat × Nat)} {s : State} {p : Fin 72} (h : ∀ x ∈ l, p ≠ perchAt s x.1 x.2)
    (o : LadleLine) (parity : List (Fin 72 × Nat × Bool)) :
    (captures o parity l s).fab.perch[p] = s.fab.perch[p] := by
  induction l generalizing s with
  | nil => rfl
  | cons x r ih =>
    obtain ⟨here, later⟩ := List.forall_mem_cons.mp h
    exact (ih (s := capture o parity x.1 x.2 s) later).trans (capture_elsewhere here o parity)

/-! ### Crossings with parity -/

/-- The crossings of a line leave alone what a report and the counter of repeats leave alone. -/
theorem crossingFaults_eq {α : Type} (f : State → α) (reported : ∀ code s, f (report code s) = f s)
    (counted : ∀ n s, f { s with fab := { s.fab with cnt := { s.fab.cnt with parityResend := n } } } = f s)
    (parity : List (Fin 72 × Nat × Bool)) (s : State) : f (crossingFaults parity s) = f s := by
  refine List.foldlRecOn (motive := fun t => f t = f s) _ _ rfl fun t ht e _ => ?_
  split
  · exact (counted _ t).trans ht
  · exact (reported _ t).trans ht

@[simp] theorem crossingFaults_pix (parity s) : (crossingFaults parity s).pix = s.pix :=
  crossingFaults_eq State.pix report_pix (fun _ _ => rfl) parity s
@[simp] theorem crossingFaults_lt (parity s) : (crossingFaults parity s).lt = s.lt :=
  crossingFaults_eq State.lt report_lt (fun _ _ => rfl) parity s
@[simp] theorem crossingFaults_sys (parity s) : (crossingFaults parity s).sys = s.sys :=
  crossingFaults_eq State.sys report_sys (fun _ _ => rfl) parity s
@[simp] theorem crossingFaults_spr (parity s) : (crossingFaults parity s).spr = s.spr :=
  crossingFaults_eq State.spr report_spr (fun _ _ => rfl) parity s
@[simp] theorem crossingFaults_perch (parity s) : (crossingFaults parity s).fab.perch = s.fab.perch :=
  crossingFaults_eq (fun t => t.fab.perch) (fun code t => congrArg Fab.perch (report_fab code t)) (fun _ _ => rfl)
    parity s

/-- A word that failed once and came good at its repeat is counted, and nothing is reported (R238). -/
theorem crossingFaults_once (p : Fin 72) (i : Nat) (s : State) :
    crossingFaults [(p, i, true)] s =
      { s with fab := { s.fab with cnt := { s.fab.cnt with parityResend := satInc 32 s.fab.cnt.parityResend } } } := rfl

/-- A word that failed twice is reported for the receiving perch (R238). -/
theorem crossingFaults_twice (p : Fin 72) (i : Nat) (s : State) :
    crossingFaults [(p, i, false)] s = report (faultCode 0x20 p.val) s := rfl

/-! ### The ingress of a line -/

/-- A line on the row buses before its crossings are counted: it is marked as ingressed, and the used perches have
captured their windows (R193 to R196). -/
def taken (o : LadleLine) (parity : List (Fin 72 × Nat × Bool)) (s : State) : State :=
  captures o parity (usedPositions s.img) (markLine o.line (fun l => { l with ingressed := true }) s)

theorem broadcast_eq (o : LadleLine) (parity : List (Fin 72 × Nat × Bool)) (s : State) :
    broadcast o parity s = crossingFaults parity (taken o parity s) := rfl

/-- Only the marks of the lines and the perches change. -/
theorem taken_changes (o : LadleLine) (parity : List (Fin 72 × Nat × Bool)) (s : State) :
    taken o parity s = { s with
      spr := (markLine o.line (fun l => { l with ingressed := true }) s).spr
      fab := { s.fab with perch := (taken o parity s).fab.perch } } :=
  captures_changes o parity _ _

theorem taken_flt (o parity s) : (taken o parity s).flt = s.flt := by rw [taken_changes]
theorem taken_cnt (o parity s) : (taken o parity s).fab.cnt = s.fab.cnt := by rw [taken_changes]

/-- What the ingress of line `o` leaves of `s`, whatever words failed parity: `t`. -/
structure Ingressed (o : LadleLine) (s t : State) : Prop where
  pix : t.pix = s.pix
  lt : t.lt = s.lt
  sys : t.sys = s.sys
  /-- The line is marked. -/
  lines : t.spr.lines = s.spr.lines.map fun l => if l.line = o.line then { l with ingressed := true } else l
  /-- A perch outside the used rows and columns takes nothing (R194, R195). -/
  unused : ∀ p : Fin 72, p ∉ usedPerches s.img s → t.fab.perch[p] = s.fab.perch[p]

theorem broadcast_ingressed (o : LadleLine) (parity : List (Fin 72 × Nat × Bool)) (s : State) :
    Ingressed o s (broadcast o parity s) where
  pix := by rw [broadcast_eq, crossingFaults_pix, taken_changes]
  lt := by rw [broadcast_eq, crossingFaults_lt, taken_changes]
  sys := by rw [broadcast_eq, crossingFaults_sys, taken_changes]
  lines := by
    rw [broadcast_eq, crossingFaults_spr, taken_changes]
    rfl
  unused p hp := by
    have elsewhere : ∀ x ∈ usedPositions s.img, p ≠ perchAt s x.1 x.2 := fun x hx e =>
      hp (e ▸ perchAt_mem_usedPerches hx)
    simp only [broadcast_eq, crossingFaults_perch]
    exact captures_elsewhere (s := markLine o.line _ s) elsewhere o parity

/-- Without a parity failure nothing is counted or reported. -/
theorem broadcast_clean (o : LadleLine) (s : State) :
    (broadcast o [] s).flt = s.flt ∧ (broadcast o [] s).fab.cnt = s.fab.cnt :=
  ⟨taken_flt o [] s, taken_cnt o [] s⟩

/-- A word that failed once is counted and not reported. -/
theorem broadcast_once (o : LadleLine) (p : Fin 72) (i : Nat) (s : State) :
    (broadcast o [(p, i, true)] s).fab.cnt =
        { s.fab.cnt with parityResend := satInc 32 s.fab.cnt.parityResend } ∧
      (broadcast o [(p, i, true)] s).flt = s.flt := by
  rw [broadcast_eq, crossingFaults_once]
  exact ⟨by rw [taken_cnt], taken_flt _ _ _⟩

/-- A word that failed twice is reported and not counted. -/
theorem broadcast_twice (o : LadleLine) (p : Fin 72) (i : Nat) (s : State) :
    (broadcast o [(p, i, false)] s).fab.cnt = s.fab.cnt ∧
      classCount (broadcast o [(p, i, false)] s) 0x20 = satInc 32 (classCount s 0x20) := by
  rw [broadcast_eq, crossingFaults_twice, report_fab, taken_cnt, classCount_report_faultCode (by decide),
    classCount_congr (taken_flt _ _ _)]
  exact ⟨rfl, rfl⟩

/-- The oldest waiting line leaves the queue (R198). -/
theorem execIngressLine_oldest {s : State} {o : LadleLine} {rest : List LadleLine}
    (hs : s.sys.code = .run ∨ s.sys.code = .hold) (hc : clocked s = true) (hi : s.pix.ingress = o :: rest)
    (parity : List (Fin 72 × Nat × Bool)) :
    execIngressLine s parity = .next (broadcast o parity { s with pix := { s.pix with ingress := rest } }) := by
  simp [execIngressLine, inState_pair.mpr hs, hc, hi]

/-- With none waiting, the line in the Ladle goes early (R198). -/
theorem execIngressLine_early {s : State} {l : LineRec} (hs : s.sys.code = .run ∨ s.sys.code = .hold)
    (hc : clocked s = true) (hi : s.pix.ingress = []) (hd : ladleDue s = some l) (hl : l.ingressed = false)
    (parity : List (Fin 72 × Nat × Bool)) :
    execIngressLine s parity = .next (broadcast (ladleOut s l.line []) parity s) := by
  simp [execIngressLine, inState_pair.mpr hs, hc, hi, hd, hl]

theorem execIngressLine_idle {s : State}
    (h : (s.sys.code ≠ .run ∧ s.sys.code ≠ .hold) ∨ clocked s = false ∨ (s.pix.ingress = [] ∧ ladleDue s = none))
    (parity : List (Fin 72 × Nat × Bool)) : execIngressLine s parity = .next s := by
  rcases h with h | h | ⟨hi, hd⟩
  · exact if_pos (.inl (inState_pair_false.mpr h))
  · exact if_pos (.inr h)
  · simp [execIngressLine, hi, hd]

/-- A line that went early does not go again. -/
theorem execIngressLine_begun {s : State} {l : LineRec} (hi : s.pix.ingress = []) (hd : ladleDue s = some l)
    (hl : l.ingressed = true) (parity : List (Fin 72 × Nat × Bool)) : execIngressLine s parity = .next s := by
  simp [execIngressLine, hi, hd, hl]

/-! ### The scrub of the history -/

/-- The named slots become bad. -/
def markBad (bad : List (Fin 256)) (h : Vector HistSlot 256) : Vector HistSlot 256 :=
  bad.foldl (fun h i => vmod h i fun x => { x with bad := true }) h

theorem markBad_slot (bad : List (Fin 256)) (h : Vector HistSlot 256) (i : Fin 256) :
    (markBad bad h)[i] = if i ∈ bad then { h[i] with bad := true } else h[i] := by
  induction bad generalizing h with
  | nil => rfl
  | cons j r ih =>
    refine (ih (vmod h j fun x => { x with bad := true })).trans ?_
    by_cases hj : i = j
    · subst hj
      simp only [vmod_same, List.mem_cons, true_or, if_true, ite_self]
    · simp only [List.mem_cons, hj, false_or, vmod_other _ _ _ _ hj]

/-- What a scrub pass reports: the corrected words and the bad slots (Table 3.1). -/
def scrubReports (corrected : Nat) (bad : List (Fin 256)) : List (BitVec 16) :=
  List.replicate corrected 0x117F ++ bad.map fun _ => 0x127F

/-- A pass counts and marks the slots with an uncorrectable word (R202). -/
theorem execHistoryScrub_passes {s : State} (hs : s.sys.code = .run ∨ s.sys.code = .repair) (hc : clocked s = true)
    (corrected : Nat) (bad : List (Fin 256)) :
    execHistoryScrub corrected bad s = .next { reportAll (scrubReports corrected bad) s with
      pix := { s.pix with histScrub := satInc 32 s.pix.histScrub, hist := markBad bad s.pix.hist } } := by
  simp [execHistoryScrub, inState_pair.mpr hs, hc, scrubReports, markBad]

theorem execHistoryScrub_idle {s : State}
    (h : (s.sys.code ≠ .run ∧ s.sys.code ≠ .repair) ∨ clocked s = false) (corrected : Nat) (bad : List (Fin 256)) :
    execHistoryScrub corrected bad s = .next s :=
  if_pos (h.imp_left inState_pair_false.mpr)

/-- Settles O20: each clause by the rule of its command above. -/
theorem ingressAndHistory : Obligations.IngressAndHistory := by
  unfold Obligations.IngressAndHistory
  refine ⟨?oldest, ?early, ?crossings, fun s parity h => execIngressLine_idle h parity,
    fun s parity l hi hd hl => execIngressLine_begun hi hd hl parity, ?lands, ?written,
    fun s p h => execIngressWordWrite_idle h, ?scrubs, fun s corrected bad h => execHistoryScrub_idle h corrected bad⟩
  case oldest =>
    intro s o rest parity hs hc hi
    have went := broadcast_ingressed o parity { s with pix := { s.pix with ingress := rest } }
    refine ⟨_, execIngressLine_oldest hs hc hi parity, went.pix, went.lt, went.sys, went.lines, ?_, went.unused⟩
    rintro rfl
    exact broadcast_clean o _
  case early =>
    intro s l parity hs hc hi hd hl
    have went := broadcast_ingressed (ladleOut s l.line []) parity s
    refine ⟨_, execIngressLine_early hs hc hi hd hl parity, went.pix, went.lt, went.sys, went.lines, ?_⟩
    rintro rfl
    exact broadcast_clean _ s
  case crossings =>
    intro s o rest p i hs hc hi
    obtain ⟨counted, unreported⟩ := broadcast_once o p i { s with pix := { s.pix with ingress := rest } }
    obtain ⟨uncounted, reported⟩ := broadcast_twice o p i { s with pix := { s.pix with ingress := rest } }
    exact ⟨_, _, execIngressLine_oldest hs hc hi _, execIngressLine_oldest hs hc hi _, counted, unreported, uncounted,
      reported⟩
  case lands =>
    intro s p w rest h
    refine ⟨_, rfl, ?_, rfl, rfl, fun q hq => vmod_other _ _ _ _ hq, fun a ha => ?_⟩
    · simp only [onWren_fab, vmod_same, landIngress_ingQ h]
    · simp only [wordAt, onWren_fab, vmod_same, landIngress_read_outside h ha]
  case written =>
    intro s p a d rest h hcanonical ha
    refine ⟨_, rfl, ?_⟩
    simp only [wordAt, onWren_fab, vmod_same, landIngress_read_single h hcanonical ha]
  case scrubs =>
    intro s corrected bad hs hc
    refine ⟨_, execHistoryScrub_passes hs hc corrected bad, rfl, fun i hi => ?_, fun i hi => ?_, reportAll_lt _ s,
      reportAll_fab _ s, ?_, ?_, ?_⟩
    · exact (markBad_slot bad _ i).trans (if_pos hi)
    · exact (markBad_slot bad _ i).trans (if_neg hi)
    · rintro rfl rfl
      rfl
    · rintro rfl rfl
      exact classCount_report 0x117F s
    · rintro rfl one
      obtain ⟨i, rfl⟩ := List.length_eq_one_iff.mp one
      exact classCount_report 0x127F s

end Sys2Proof.Machine

/-! SUPPORT. The column map and the floor monitor (family 06_perch_fabric.md): where an active perch lies, and what a
window of an island's clock leaves behind. Settles O22 and O21. -/

namespace Sys2Proof.Machine

/-! ### The column map -/

theorem physCol_none {s : State} (h : s.fab.bypass = none) (c : Nat) : physCol s c = c := by
  simp only [physCol, h]

theorem physCol_some {s : State} {b : Nat} (h : s.fab.bypass = some b) (c : Nat) :
    physCol s c = if c < b then c else c + 1 := by
  simp only [physCol, h]

theorem physCol_le (s : State) (c : Fin 8) : physCol s c ≤ 8 := by
  unfold physCol
  split
  · omega
  · split <;> omega

/-- No perch number wraps: the physical column is below 9. -/
theorem perchAt_val (s : State) (r c : Fin 8) : (perchAt s r c).val = 9 * r.val + physCol s c := by
  have := physCol_le s c
  simp only [perchAt, Fin.ofNat]
  omega

/-- The physical column of a logical one maps back to it. -/
theorem logCol_perchAt (s : State) (r c : Fin 8) : logCol s (perchAt s r c) = some c.val := by
  have hcol : (perchAt s r c).val % 9 = physCol s c := by
    have := physCol_le s c
    rw [perchAt_val]
    omega
  cases hb : s.fab.bypass with
  | none => simp [logCol, hcol, hb, physCol]
  | some b =>
    simp only [logCol, hcol, hb, physCol]
    by_cases h : c.val < b
    · simp [h]
    · have h1 : ¬ c.val + 1 < b := by omega
      have h2 : ¬ c.val + 1 = b := by omega
      simp [h, h1, h2]

theorem logCol_bypassed {s : State} {b : Nat} {p : Fin 72} (hb : s.fab.bypass = some b) (hp : p.val % 9 = b) :
    logCol s p = none := by
  simp [logCol, hb, hp]

/-- Settles O22: the map and its inverse, with and without a bypass. -/
theorem columnMapFindsTheActivePerches : Obligations.ColumnMapFindsTheActivePerches := by
  unfold Obligations.ColumnMapFindsTheActivePerches
  refine ⟨fun s c h => physCol_none h c, fun s b c h => physCol_some h c, fun s r c => ⟨perchAt_val s r c, ?_,
    logCol_perchAt s r c⟩, fun s b p => logCol_bypassed⟩
  have := physCol_le s c
  rw [rowOf, perchAt_val]
  omega

/-! ### A finding for one perch -/

/-- A finding changes FAILED of its perch alone among the perches. -/
theorem finding_perch (p : Fin 72) (s : State) :
    (finding p s).fab.perch = if activePerch s p = false ∨ s.fab.perch[p].failed = true then s.fab.perch
      else vmod s.fab.perch p fun x => { x with failed := true } := by
  unfold finding
  dsimp only
  (repeat' split) <;> rfl

/-- Every other perch stands as it did. -/
theorem finding_elsewhere {p q : Fin 72} (hq : q ≠ p) (s : State) : (finding p s).fab.perch[q] = s.fab.perch[q] :=
  aside_elsewhere (finding_aside p s) hq

theorem perchFails_classCount (p : Fin 72) (s : State) :
    classCount (perchFails p s) 0x70 = satInc 32 (classCount s 0x70) :=
  (classCount_congr (finding_flt _ _) _).trans (classCount_report_faultCode (by decide) _ _)

/-- Of the perch itself a class 0x70 fault changes at most FAILED. -/
theorem perchFails_perch (p : Fin 72) (s : State) :
    ∃ b, (perchFails p s).fab.perch[p] = { s.fab.perch[p] with failed := b } := by
  simp only [perchFails, finding_perch, report_fab]
  split
  · exact ⟨_, rfl⟩
  · exact ⟨true, vmod_same ..⟩

/-! ### Floor windows -/

/-- An island after a window of its clock (R230, R231). -/
def afterWindow (cycles : Nat) (x : Perch) : Perch :=
  { x with
    freq := min 2047 (cycles / 100)
    belowFloor := decide (cycles < 105000)
    belowRun := if cycles < 105000 then min 10 (x.belowRun + 1) else 0 }

section
variable {s : State} {p : Fin 72} {cycles : Nat} (hp : s.fab.perch[p].powered = true)
  (hs : inState [.commit, .run, .hold, .repair] s = true)
include hp hs

theorem execFloorWindow_ends :
    execFloorWindow p cycles s = .next (if cycles < 105000 ∧ s.fab.perch[p].belowRun = 9
      then perchFails p (onPerch p (afterWindow cycles) s) else onPerch p (afterWindow cycles) s) := by
  have hgo : ¬(s.fab.perch[p].powered = false ∨ inState [.commit, .run, .hold, .repair] s = false) := by
    rw [hp, hs]
    decide
  have tenth : ((if decide (cycles < 105000) = true then Nat.min 10 (s.fab.perch[p].belowRun + 1) else 0) = 10 ∧
      s.fab.perch[p].belowRun = 9) ↔ cycles < 105000 ∧ s.fab.perch[p].belowRun = 9 := by
    by_cases h : cycles < 105000
    · simp only [h, decide_true, if_true, true_and, and_iff_right_iff_imp]
      intro h9
      rw [h9]
      rfl
    · simp [h]
  simp only [execFloorWindow, if_neg hgo, tenth]
  simp only [decide_eq_true_eq]
  rfl

/-- A window that does not complete a run of ten reports nothing. -/
theorem execFloorWindow_quiet (h : ¬(cycles < 105000 ∧ s.fab.perch[p].belowRun = 9)) :
    execFloorWindow p cycles s = .next (onPerch p (afterWindow cycles) s) := by
  rw [execFloorWindow_ends hp hs, if_neg h]

/-- The tenth window below the floor in a row is reported. -/
theorem execFloorWindow_tenth (h : cycles < 105000) (hrun : s.fab.perch[p].belowRun = 9) :
    execFloorWindow p cycles s = .next (perchFails p (onPerch p (afterWindow cycles) s)) := by
  rw [execFloorWindow_ends hp hs, if_pos ⟨h, hrun⟩]

end

theorem execFloorWindow_idle {s : State} {p : Fin 72} (cycles : Nat)
    (h : s.fab.perch[p].powered = false ∨ inState [.commit, .run, .hold, .repair] s = false) :
    execFloorWindow p cycles s = .next s :=
  if_pos h

/-- Settles O21: the tenth window of a run is the one that reports. -/
theorem floorMonitorCountsWindows : Obligations.FloorMonitorCountsWindows := by
  unfold Obligations.FloorMonitorCountsWindows
  have here (s : State) (p : Fin 72) (cycles : Nat) :
      (onPerch p (afterWindow cycles) s).fab.perch[p] = afterWindow cycles s.fab.perch[p] := vmod_same _ _ _
  refine ⟨?above, ?below, ?tenth, ?later, fun s p cycles h => execFloorWindow_idle cycles h⟩
  case above =>
    intro s p cycles hp hs h
    refine ⟨_, execFloorWindow_quiet hp hs (by omega), ?_, ?_, ?_, rfl,
      fun q hq => vmod_other _ _ _ _ hq⟩
    all_goals rw [here]
    · exact decide_eq_false (by omega)
    · exact if_neg (by omega)
    · rfl
  case below =>
    intro s p cycles hp hs h hrun
    refine ⟨_, execFloorWindow_quiet hp hs (by omega), ?_, ?_, ?_, rfl,
      fun q hq => vmod_other _ _ _ _ hq⟩
    all_goals rw [here]
    · exact decide_eq_true h
    · exact (if_pos h).trans (by omega)
    · exact min_eq_right (by omega)
  case tenth =>
    intro s p cycles hp hs h hrun
    obtain ⟨b, hperch⟩ := perchFails_perch p (onPerch p (afterWindow cycles) s)
    rw [here] at hperch
    refine ⟨_, execFloorWindow_tenth hp hs h hrun, ?_, ?_, perchFails_classCount ..⟩
    all_goals rw [hperch]
    · exact decide_eq_true h
    · exact (if_pos h).trans (by omega)
  case later =>
    intro s p cycles hp hs h hrun
    refine ⟨_, execFloorWindow_quiet hp hs (by omega), ?_, ?_, rfl⟩
    all_goals rw [here]
    · exact decide_eq_true h
    · exact (if_pos h).trans (by omega)

end Sys2Proof.Machine

/-! SUPPORT. What a stage operation leaves alone (family 06_perch_fabric.md): everything but the stages, masks and
predicates of its Finch, its schedule and the FAB counters. Settles O31. -/

namespace Sys2Proof.Machine

/-! ### The frame of a stage operation -/

/-- Perch `x` with what a stage operation can write as in `y` (R212 to R214, R324). -/
def withStagesOf (y x : Perch) : Perch :=
  { x with
    iss := y.iss
    finch := { x.finch with
      stages := y.finch.stages, masks := y.finch.masks, maskPoison := y.finch.maskPoison, preds := y.finch.preds
      predPoison := y.finch.predPoison } }

/-- From `s` to `t` no more changes than a stage operation on perch `p` may change. -/
structure StageFrame (p : Fin 72) (s t : State) : Prop where
  outside : t = { s with fab := { s.fab with perch := t.fab.perch, cnt := t.fab.cnt } }
  elsewhere : ∀ q : Fin 72, q ≠ p → t.fab.perch[q] = s.fab.perch[q]
  here : t.fab.perch[p] = withStagesOf t.fab.perch[p] s.fab.perch[p]

theorem StageFrame.refl (p : Fin 72) (s : State) : StageFrame p s s := ⟨rfl, fun _ _ => rfl, rfl⟩

theorem StageFrame.trans {p : Fin 72} {s t u : State} (h : StageFrame p s t) (k : StageFrame p t u) :
    StageFrame p s u where
  outside := k.outside.trans (by rw [h.outside])
  elsewhere q hq := (k.elsewhere q hq).trans (h.elsewhere q hq)
  here := k.here.trans (by rw [h.here]; rfl)

theorem onCnt_stageFrame (p f s) : StageFrame p s (onCnt f s) := ⟨rfl, fun _ _ => rfl, rfl⟩

theorem onPerch_stageFrame (p f s) (h : ∀ x, f x = withStagesOf (f x) x) : StageFrame p s (onPerch p f s) where
  outside := rfl
  elsewhere q hq := vmod_other _ _ _ _ hq
  here := by simpa only [onPerch, vmod_same] using h _

theorem onIss_stageFrame (p f s) : StageFrame p s (onIss p f s) := onPerch_stageFrame p _ s fun _ => rfl
theorem onStage_stageFrame (p v f s) : StageFrame p s (onStage p v f s) := onPerch_stageFrame p _ s fun _ => rfl

theorem setMask_stageFrame (p k m mark s) : StageFrame p s (onFinch p (setMask k m mark) s) :=
  onPerch_stageFrame p _ s fun _ => rfl

theorem setPred_stageFrame (p k b mark s) : StageFrame p s (onFinch p (setPred k b mark) s) :=
  onPerch_stageFrame p _ s fun _ => rfl

/-! ### Counters and schedule -/

theorem countAccSat_stageFrame (p sat s) : StageFrame p s (countAccSat sat s) := by
  unfold countAccSat
  split
  · exact onCnt_stageFrame p _ s
  · exact .refl p s

theorem countSpecial_stageFrame (p sp s) : StageFrame p s (countSpecial sp s) := by
  unfold countSpecial
  split
  · exact onCnt_stageFrame p _ s
  · exact .refl p s

theorem countRqSat_stageFrame (p sat s) : StageFrame p s (countRqSat sat s) := by
  unfold countRqSat
  split
  · exact onCnt_stageFrame p _ s
  · exact .refl p s

theorem countIssue_stageFrame (p f r s) : StageFrame p s (countIssue f r s) :=
  (countAccSat_stageFrame p _ s).trans (countSpecial_stageFrame p _ _)

theorem beginOp_stageFrame (p i s) : StageFrame p s (beginOp p i s) := by
  simp only [beginOp]
  exact onIss_stageFrame p _ s

theorem noteOp_stageFrame (p i out s) : StageFrame p s (noteOp p i out s) := by
  unfold noteOp
  split
  · exact onIss_stageFrame p _ s
  · exact .refl p s

/-! ### Stage operations -/

/-- A stage operation stays in its Finch where its body does. -/
theorem stageOp_stageFrame {p v i g formats} {body : Finch → Bool → State → State}
    (h : ∀ fi mark t, StageFrame p t (body fi mark t)) (s) : StageFrame p s (nextOf s (stageOp p v i g formats body s)) := by
  simp only [stageOp]
  split
  · have begun := beginOp_stageFrame p i s
    split
    · exact (begun.trans (h _ _ _)).trans (noteOp_stageFrame p i _ _)
    · exact begun.trans (noteOp_stageFrame p i _ _)
  · exact .refl p s

theorem mvmExact_stageFrame (p v f acc x fi mark s) : StageFrame p s (mvmExact p v f acc x fi mark s) :=
  (onStage_stageFrame p v _ s).trans (countIssue_stageFrame p f _ _)

theorem mvmBody_stageFrame (p v f acc src fi mark s) : StageFrame p s (mvmBody p v f acc src fi mark s) := by
  simp only [mvmBody]
  split
  · exact mvmExact_stageFrame ..
  · split
    · exact (onCnt_stageFrame p _ s).trans (mvmExact_stageFrame ..)
    · split
      · exact mvmExact_stageFrame ..
      · split
        · exact (onCnt_stageFrame p _ s).trans (countSpecial_stageFrame ..)
        · exact (onCnt_stageFrame p _ s).trans (mvmExact_stageFrame ..)

theorem opaBody_stageFrame (p v f a b fi mark s) : StageFrame p s (opaBody p v f a b fi mark s) :=
  (onStage_stageFrame p v _ s).trans (countIssue_stageFrame p f _ _)

theorem lmacBody_stageFrame (p v f acc a b fi mark s) : StageFrame p s (lmacBody p v f acc a b fi mark s) :=
  (onStage_stageFrame p v _ s).trans (countIssue_stageFrame p f _ _)

theorem arithBody_stageFrame (p v f o h a b d fi mark s) : StageFrame p s (arithBody p v f o h a b d fi mark s) :=
  (onStage_stageFrame p v _ s).trans (countSpecial_stageFrame p _ _)

theorem extremeBody_stageFrame (p v f want a b d fi mark s) :
    StageFrame p s (extremeBody p v f want a b d fi mark s) :=
  (onStage_stageFrame p v _ s).trans (countSpecial_stageFrame p _ _)

theorem rqBody_stageFrame (p v f acc d fi mark s) : StageFrame p s (rqBody p v f acc d fi mark s) :=
  ((onStage_stageFrame p v _ s).trans (countRqSat_stageFrame p _ _)).trans (countSpecial_stageFrame p _ _)

theorem plogBody_stageFrame (p op fi mark s) : StageFrame p s (plogBody p op fi mark s) := by
  cases op
  case and | or | not => exact setMask_stageFrame ..
  case any | all => exact setPred_stageFrame ..

theorem redBody_stageFrame (p v f mx x d fi mark s) : StageFrame p s (redBody p v f mx x d fi mark s) :=
  (countSpecial_stageFrame p _ s).trans (onStage_stageFrame p v _ _)

theorem lutBody_stageFrame (p v wide x fi mark s) : StageFrame p s (lutBody p v wide x fi mark s) :=
  onStage_stageFrame p v _ s

theorem cmpBody_stageFrame (p v f op a b m fi mark s) : StageFrame p s (cmpBody p v f op a b m fi mark s) :=
  setMask_stageFrame p m _ _ s

theorem selBody_stageFrame (p v f m a b d fi mark s) : StageFrame p s (selBody p v f m a b d fi mark s) :=
  onStage_stageFrame p v _ s

theorem shfBody_stageFrame (p v f q x d fi mark s) : StageFrame p s (shfBody p v f q x d fi mark s) :=
  onStage_stageFrame p v _ s

theorem aclrBody_stageFrame (p v accs fi mark s) : StageFrame p s (aclrBody p v accs fi mark s) :=
  onStage_stageFrame p v _ s

theorem amovBody_stageFrame (p v src dst fi mark s) : StageFrame p s (amovBody p v src dst fi mark s) :=
  onStage_stageFrame p v _ s

/-- Each of the 17 stage operations stays in its Finch, as its body does. -/
theorem stageOn_stageFrame {p : Fin 72} {c : Instr} (h : StageOn p c) (s : State) :
    StageFrame p s (nextOf s (exec c s)) := by
  obtain ⟨_, _, _, _, _, rfl⟩ | ⟨_, _, _, _, _, rfl⟩ | ⟨_, _, _, _, _, _, rfl⟩ | ⟨_, _, _, _, _, _, rfl⟩ |
    ⟨_, _, _, _, _, _, rfl⟩ | ⟨_, _, _, _, _, _, rfl⟩ | ⟨_, _, _, _, _, _, rfl⟩ | ⟨_, _, _, _, _, _, rfl⟩ |
    ⟨_, _, _, _, _, rfl⟩ | ⟨_, _, _, _, rfl⟩ | ⟨_, _, _, _, _, _, _, rfl⟩ | ⟨_, _, _, rfl⟩ | ⟨_, _, _, _, _, _, _, rfl⟩ |
    ⟨_, _, _, _, _, _, rfl⟩ | ⟨_, _, _, _, _, _, rfl⟩ | ⟨_, _, _, rfl⟩ | ⟨_, _, _, _, rfl⟩ := h <;> simp only [exec]
  · exact stageOp_stageFrame (mvmBody_stageFrame _ _ _ _ _) s
  · exact stageOp_stageFrame (opaBody_stageFrame _ _ _ _ _) s
  · exact stageOp_stageFrame (lmacBody_stageFrame _ _ _ _ _ _) s
  iterate 3 exact stageOp_stageFrame (arithBody_stageFrame _ _ _ _ _ _ _ _) s
  iterate 2 exact stageOp_stageFrame (extremeBody_stageFrame _ _ _ _ _ _ _) s
  · exact stageOp_stageFrame (rqBody_stageFrame _ _ _ _ _) s
  · exact stageOp_stageFrame (lutBody_stageFrame _ _ _ _) s
  · exact stageOp_stageFrame (cmpBody_stageFrame _ _ _ _ _ _ _) s
  · exact stageOp_stageFrame (plogBody_stageFrame _ _) s
  · exact stageOp_stageFrame (selBody_stageFrame _ _ _ _ _ _ _) s
  · exact stageOp_stageFrame (shfBody_stageFrame _ _ _ _ _ _) s
  · exact stageOp_stageFrame (redBody_stageFrame _ _ _ _ _ _) s
  · exact stageOp_stageFrame (aclrBody_stageFrame _ _ _) s
  · exact stageOp_stageFrame (amovBody_stageFrame _ _ _ _) s

/-- Settles O31: by the frame of the stage operations. -/
theorem stageOpsStayInTheirFinch : Obligations.StageOpsStayInTheirFinch := by
  unfold Obligations.StageOpsStayInTheirFinch
  intro c s t p hc h
  have frame := stageOn_stageFrame hc s
  rw [h, nextOf_next] at frame
  exact ⟨frame.outside, frame.elsewhere, frame.here⟩

end Sys2Proof.Machine

/-! SUPPORT. What the stage operations write (family 06_perch_fabric.md): what a vector stage holds after its
accumulators and its pipeline register take values, what an issue hands to its body, and the arithmetic of one lane.
Settles O26 to O29. -/

namespace Sys2Proof.Machine

/-! ### Bits, lanes and destinations -/

theorem putBit_getLsbD {w : Nat} (x : BitVec w) (i k : Fin w) (b : Bool) :
    (putBit x i b).getLsbD k = if k = i then b else x.getLsbD k := by
  have only : (1#w <<< i.val).getLsbD k = decide (k = i) := by
    rw [BitVec.getLsbD_shiftLeft, BitVec.getLsbD_one, Bool.eq_iff_iff]
    have := k.isLt
    simp only [Bool.and_eq_true, decide_eq_true_eq, Bool.not_eq_true', decide_eq_false_iff_not, Fin.ext_iff]
    omega
  cases b
  · rw [putBit, if_neg Bool.false_ne_true, BitVec.getLsbD_and, BitVec.getLsbD_not, only]
    by_cases h : k = i <;> simp [h]
  · rw [putBit, if_pos rfl, BitVec.getLsbD_or, only]
    by_cases h : k = i <;> simp [h]

theorem putBit_same {w : Nat} (x : BitVec w) (i : Fin w) (b : Bool) : (putBit x i b).getLsbD i = b := by
  rw [putBit_getLsbD, if_pos rfl]

theorem putBit_other {w : Nat} {i k : Fin w} (h : k ≠ i) (x : BitVec w) (b : Bool) :
    (putBit x i b).getLsbD k = x.getLsbD k := by
  rw [putBit_getLsbD, if_neg h]

@[simp] theorem toLanes_get (l : Lanes) (i : Fin 16) : (toLanes l)[i] = l.getD i 0 := by
  simp [toLanes]

theorem setAcc_same (j : Fin 16) (l : Lanes) (pz : Bool) (t : Stage) (i : Fin 16) :
    (setAcc j l pz t).acc[j][i] = l.getD i 0 := by
  rw [← toLanes_get]
  simp [setAcc]

theorem setAcc_other {j k : Fin 16} (h : k ≠ j) (l : Lanes) (pz : Bool) (t : Stage) :
    (setAcc j l pz t).acc[k] = t.acc[k] := by
  have : j.val ≠ k.val := fun e => h (Fin.ext e.symm)
  simp [setAcc, this]

theorem setAcc_mark (j : Fin 16) (l : Lanes) (pz : Bool) (t : Stage) : (setAcc j l pz t).accPoison.getLsbD j = pz :=
  putBit_same ..

/-- A list of 16 lanes given lane by lane. -/
theorem lanes_getD (f : Nat → BitVec 32) (i : Fin 16) : ((List.range 16).map f).getD i 0 = f i := by
  simp [List.getD_eq_getElem?_getD]

/-- A list of 16 results given lane by lane. -/
theorem results_getD (f : Fin 16 → BitVec 32 × Bool) (i : Fin 16) :
    (((List.finRange 16).map f).map (·.1)).getD i 0 = (f i).1 := by
  simp [List.getD_eq_getElem?_getD]

/-- The pipeline register holds the lanes it took. -/
theorem setOut_getD (l : Lanes) (pz : Bool) (t : Stage) (i : Fin 16) : (setOut l pz t).outv.getD i 0 = l.getD i 0 := by
  simp [setOut, toLanes, List.getD_eq_getElem?_getD]

/-- A destination reads as it was written. -/
theorem dstVec_at {fi : Finch} {v : Fin 4} {d : VDst} {l : Lanes} {pz : Bool} {t : Stage}
    (h : fi.stages[v] = setDst d l pz t) (i : Fin 16) : (dstVec fi v d).at i = l.getD i 0 := by
  cases d with
  | out =>
    simp only [dstVec, readVec, h, Vec.at, setDst]
    exact setOut_getD l pz t i
  | acc j =>
    simp only [dstVec, readVec, h, Vec.at, setDst]
    rw [← setAcc_same j l pz t i]
    simp [List.getD_eq_getElem?_getD]

theorem dstVec_poison {fi : Finch} {v : Fin 4} {d : VDst} {l : Lanes} {pz : Bool} {t : Stage}
    (h : fi.stages[v] = setDst d l pz t) : (dstVec fi v d).poison = pz := by
  cases d with
  | out =>
    simp only [dstVec, readVec, h]
    rfl
  | acc j =>
    simp only [dstVec, readVec, h]
    exact setAcc_mark j l pz t

/-! ### What an issue does around its body -/

theorem beginOp_finch (p i s) (q : Fin 72) : (beginOp p i s).fab.perch[q].finch = s.fab.perch[q].finch := by
  by_cases hq : q = p
  · subst hq
    simp only [beginOp, onIss, onPerch, vmod_same]
  · exact congrArg Perch.finch (vmod_other _ _ _ _ hq)

@[simp] theorem beginOp_img (p i s) : (beginOp p i s).img = s.img := rfl
@[simp] theorem beginOp_now (p i s) : (beginOp p i s).now = s.now := rfl
@[simp] theorem beginOp_cnt (p i s) : (beginOp p i s).fab.cnt = s.fab.cnt := rfl

theorem noteOp_finch (p i out s) (q : Fin 72) : (noteOp p i out s).fab.perch[q].finch = s.fab.perch[q].finch := by
  unfold noteOp
  split
  · by_cases hq : q = p
    · subst hq
      simp only [onWork, onIss, onPerch, vmod_same]
    · exact congrArg Perch.finch (vmod_other _ _ _ _ hq)
  · rfl

@[simp] theorem noteOp_cnt (p i out s) : (noteOp p i out s).fab.cnt = s.fab.cnt := by
  unfold noteOp
  split <;> rfl

/-- Where it issues with its predicate true, a stage operation leaves its Finch and the counters as its body does. -/
theorem stageOp_effect {s : State} {p : Fin 72} {i : Instr} {g : PredSel} {formats : Bool} (hi : issues s p = true)
    (hf : formats = true) (hp : predValue (opView s p i) g = true) (v : Fin 4) (body : Finch → Bool → State → State) :
    ∃ t, stageOp p v i g formats body s = .next t ∧
      t.fab.perch[p].finch = (body (opView s p i) (predMark (opView s p i) g) (beginOp p i s)).fab.perch[p].finch ∧
      t.fab.cnt = (body (opView s p i) (predMark (opView s p i) g) (beginOp p i s)).fab.cnt :=
  ⟨_, stageOp_runs hi hf hp body, noteOp_finch .., noteOp_cnt ..⟩

/-! ### What a stage takes -/

theorem onStage_stages (p v f s) :
    (onStage p v f s).fab.perch[p].finch.stages = vmod s.fab.perch[p].finch.stages v f := by
  simp only [onStage, onFinch, onPerch, vmod_same]

@[simp] theorem countAccSat_perch (sat s) : (countAccSat sat s).fab.perch = s.fab.perch := by
  unfold countAccSat
  split <;> rfl

@[simp] theorem countSpecial_perch (sp s) : (countSpecial sp s).fab.perch = s.fab.perch := by
  unfold countSpecial
  split <;> rfl

@[simp] theorem countRqSat_perch (sat s) : (countRqSat sat s).fab.perch = s.fab.perch := by
  unfold countRqSat
  split <;> rfl

@[simp] theorem countIssue_perch (f r s) : (countIssue f r s).fab.perch = s.fab.perch := by simp [countIssue]


/-- A stage that a body changes, from what it held before the operation. -/
theorem stage_after {s u : State} {p : Fin 72} {v : Fin 4} {f : Stage → Stage} {i : Instr} {fi : Finch}
    (hfi : fi = u.fab.perch[p].finch) (hu : u.fab.perch = (onStage p v f (beginOp p i s)).fab.perch) :
    fi.stages[v] = f (finchOf s p).stages[v] := by
  rw [hfi, hu, onStage_stages, vmod_same, beginOp_finch]
  rfl

/-! ### MVM, OPA and LMAC -/

theorem mvmExact_perch (p v f acc x fi mark s) :
    (mvmExact p v f acc x fi mark s).fab.perch =
      (onStage p v (setAcc acc (((List.finRange 16).map fun i => accumulate f true fi.stages[v].acc[acc][i]
        (mvmPairs fi.stages[v] f x i.val)).map (·.1))
        (x.poison || tileMark fi.stages[v] f || fi.stages[v].accPoison.getLsbD acc.val || mark)) s).fab.perch :=
  countIssue_perch ..

/-- A counted issue is the exact one with another count. -/
theorem mvmExact_counted (p v f acc x fi mark s) (g : FabCnt → FabCnt) :
    (mvmExact p v f acc x fi mark (onCnt g s)).fab.perch = (mvmExact p v f acc x fi mark s).fab.perch := by
  rw [mvmExact_perch, mvmExact_perch]
  rfl

/-- Wherever QSKIP may not skip, MVM is the exact issue (R347 to R351). -/
theorem mvmBody_perch {p : Fin 72} {v : Fin 4} {f : Fmt} {acc : Fin 16} {src : VSrc} {fi : Finch} {mark : Bool} {s : State}
    (h : qMode s p v = 0 ∨ qMode s p v = 2 ∨ (readVec fi v f (f == .int4) src).poison = true ∨
      (readVec fi v f (f == .int4) src).lanes.any (notFinite f) = true ∨
      (readVec fi v f (f == .int4) src).lanes.all (belowTheta f (qTheta s p v)) = false) :
    (mvmBody p v f acc src fi mark s).fab.perch =
      (mvmExact p v f acc (readVec fi v f (f == .int4) src) fi mark s).fab.perch := by
  simp only [mvmBody]
  split
  · rfl
  next exact =>
    split
    · exact mvmExact_counted ..
    next clean =>
      split
      · rfl
      next finite =>
        have stays : ((readVec fi v f (f == .int4) src).lanes.all (belowTheta f (qTheta s p v)) &&
            !decide (qMode s p v = 2)) = false := by
          rcases h with h | h | h | h | h
          · exact absurd (.inl h) exact
          · simp [h]
          · exact absurd h clean
          · exact absurd h finite
          · simp [h]
        rw [if_neg (by rw [stays]; exact Bool.false_ne_true)]
        exact mvmExact_counted ..

/-- The mode in force is that of the running mould, which the slot of an operation leaves alone. -/
theorem beginOp_qMode (p i s v) : qMode (beginOp p i s) p v = qMode s p v := by
  simp only [qMode, finchOf, beginOp_finch, beginOp_img]

theorem beginOp_qTheta (p i s v) : qTheta (beginOp p i s) p v = qTheta s p v := by
  simp only [qTheta, finchOf, beginOp_finch, beginOp_img]

/-- One accumulator vector takes the results of an issue; the others and the tile stay. -/
theorem setAcc_results {st t : Stage} {acc : Fin 16} {r : Fin 16 → BitVec 32 × Bool} {pz : Bool}
    (h : st = setAcc acc (((List.finRange 16).map r).map (·.1)) pz t) :
    (∀ i : Fin 16, st.acc[acc][i] = (r i).1) ∧ st.accPoison.getLsbD acc = pz ∧
      (∀ a : Fin 16, a ≠ acc → st.acc[a] = t.acc[a]) ∧ st.tile = t.tile := by
  subst h
  exact ⟨fun i => (setAcc_same ..).trans (results_getD r i), setAcc_mark .., fun a ha => setAcc_other ha .., rfl⟩

/-- Accumulator vectors that take lanes and marks one after the other. -/
theorem foldl_setAcc (L : Fin 16 → Lanes) (P : Fin 16 → Bool) (l : List (Fin 16)) (t : Stage) (k : Fin 16) :
    (l.foldl (fun u i => setAcc i (L i) (P i) u) t).acc[k] = (if k ∈ l then toLanes (L k) else t.acc[k]) ∧
      (l.foldl (fun u i => setAcc i (L i) (P i) u) t).accPoison.getLsbD k =
        (if k ∈ l then P k else t.accPoison.getLsbD k) := by
  induction l generalizing t with
  | nil => exact ⟨rfl, rfl⟩
  | cons i r ih =>
    rw [List.foldl_cons, (ih _).1, (ih _).2]
    by_cases hr : k ∈ r
    · simp only [List.mem_cons, hr, or_true, if_true, and_self]
    · by_cases hk : k = i
      · subst hk
        simp only [hr, List.mem_cons, true_or, if_true, if_false]
        exact ⟨by simp [setAcc], setAcc_mark ..⟩
      · simp only [hr, hk, List.mem_cons, or_self, if_false]
        exact ⟨setAcc_other hk .., putBit_other hk ..⟩

/-- A counter of specials leaves the issues of QFRAC alone. -/
theorem countSpecial_qIssues (sp s) : (countSpecial sp s).fab.cnt.qIssues = s.fab.cnt.qIssues := by
  unfold countSpecial
  split <;> rfl

/-- An eligible tile below the threshold is skipped and counted (R350, R358). -/
theorem mvmBody_skips {p : Fin 72} {v : Fin 4} {f : Fmt} {acc : Fin 16} {src : VSrc} {fi : Finch} {s : State}
    (hmode : qMode s p v = 1) (hpoison : (readVec fi v f (f == .int4) src).poison = false)
    (hfinite : (readVec fi v f (f == .int4) src).lanes.any (notFinite f) = false)
    (hbelow : (readVec fi v f (f == .int4) src).lanes.all (belowTheta f (qTheta s p v)) = true) (mark : Bool) :
    mvmBody p v f acc src fi mark s = mvmSkipped v f acc fi (countEligible false true s) := by
  simp [mvmBody, hmode, hpoison, hfinite, hbelow]

/-! ### Integers as lanes -/

theorem satInt_bounds {w : Nat} (hw : w ≤ 32) (x : Int) : -2 ^ 31 ≤ satInt w x ∧ satInt w x < 2 ^ 31 := by
  have hpow : 2 ^ (w - 1) ≤ 2 ^ 31 := Nat.pow_le_pow_right (by norm_num) (by omega)
  have hpos : 0 < 2 ^ (w - 1) := Nat.two_pow_pos _
  simp only [satInt, clampInt]
  split
  · omega
  · split <;> omega

/-- A saturated integer reads back from its lane. -/
theorem laneInt_satInt {w : Nat} (hw : w ≤ 32) (x : Int) : (laneInt (satInt w x)).toInt = satInt w x := by
  obtain ⟨lower, upper⟩ := satInt_bounds hw x
  rw [laneInt, BitVec.toInt_ofInt]
  exact Int.bmod_eq_of_le (by omega) (by omega)

theorem satInt_32 (x : Int) : satInt 32 x = max (-2147483648) (min 2147483647 x) := by
  simp only [satInt, clampInt]
  split
  · omega
  · split <;> omega

theorem fmtWidth_le (f : Fmt) : fmtWidth f ≤ 32 := by
  cases f <;> decide

/-- The sum of integer products is exact and saturates to int32 (R337). -/
theorem accumulate_toInt {f : Fmt} (hf : fmtInt f = true) (trunc : Bool) (acc : BitVec 32)
    (xs : List (BitVec 32 × BitVec 32)) :
    (accumulate f trunc acc xs).1.toInt =
      max (-2147483648) (min 2147483647 (acc.toInt + (xs.map fun q => intOf f q.1 * intOf f q.2).sum)) := by
  simp only [accumulate, hf, if_true]
  rw [laneInt_satInt le_rfl, satInt_32]

/-- Settles O26: by what the body of each operation writes into its stage. -/
theorem multiplyAccumulateFinchOps : Obligations.MultiplyAccumulateFinchOps := by
  unfold Obligations.MultiplyAccumulateFinchOps
  refine ⟨?mvm, ?skipped, ?opa, ?lmac, fun f trunc acc xs hf => accumulate_toInt hf trunc acc xs⟩
  case mvm =>
    intro s p v g f acc x hi hf hp hmode
    obtain ⟨t, ht, hfinch, -⟩ := stageOp_effect hi (List.contains_iff_mem.mpr hf) hp v (mvmBody p v f acc x)
    rw [← beginOp_qMode p (.mvm p v g f acc x), ← beginOp_qTheta p (.mvm p v g f acc x)] at hmode
    exact ⟨t, ht, setAcc_results (stage_after hfinch ((mvmBody_perch hmode).trans (mvmExact_perch ..)))⟩
  case skipped =>
    intro s p v g f acc x hi hf hp hmode hpoison hfinite hbelow
    obtain ⟨t, ht, hfinch, hcnt⟩ := stageOp_effect hi (List.contains_iff_mem.mpr hf) hp v (mvmBody p v f acc x)
    rw [← beginOp_qMode p (.mvm p v g f acc x)] at hmode
    rw [← beginOp_qTheta p (.mvm p v g f acc x)] at hbelow
    rw [mvmBody_skips hmode hpoison hfinite hbelow] at hfinch hcnt
    refine ⟨t, ht, ?_, ?_⟩
    · rw [hfinch, mvmSkipped, countSpecial_perch]
      exact beginOp_finch ..
    · rw [hcnt, mvmSkipped, countSpecial_qIssues]
      exact List.mem_cons_self
  case opa =>
    intro s p v g f a b hi hf hp
    obtain ⟨t, ht, hfinch, -⟩ := stageOp_effect hi (List.contains_iff_mem.mpr hf) hp v (opaBody p v f a b)
    have hstage := stage_after hfinch (countIssue_perch ..)
    refine ⟨t, ht, fun i j => ?_, fun i => ?_⟩
    · rw [hstage, (foldl_setAcc _ _ _ _ i).1, if_pos (List.mem_finRange i), toLanes_get]
      simp [opaRows, List.getD_eq_getElem?_getD]
    · rw [hstage, (foldl_setAcc _ _ _ _ i).2, if_pos (List.mem_finRange i)]
  case lmac =>
    intro s p v g f acc a b hi hf hp
    obtain ⟨t, ht, hfinch, -⟩ := stageOp_effect hi (List.contains_iff_mem.mpr hf) hp v (lmacBody p v f acc a b)
    obtain ⟨lanes, poison, others, -⟩ := setAcc_results (stage_after hfinch (countIssue_perch ..))
    exact ⟨t, ht, lanes, poison, others⟩

/-! ### ADD, SUB, MUL, MAX and MIN -/

/-- A lane-wise body, with whatever it counts, writes its destination lane by lane. -/
theorem laneBody_writes {s u t : State} {p : Fin 72} {v : Fin 4} {f : Fmt} {op : BitVec 32 → BitVec 32 → BitVec 32}
    {a b : VSrc} {d : VDst} {i : Instr} {fi : Finch} {mark : Bool}
    (ht : t.fab.perch[p].finch = u.fab.perch[p].finch)
    (hu : u.fab.perch = (laneBody p v f op a b d fi mark (beginOp p i s)).fab.perch) :
    (∀ k : Fin 16, (dstVec (finchOf t p) v d).at k = op ((readVec fi v f false a).at k) ((readVec fi v f false b).at k)) ∧
      (dstVec (finchOf t p) v d).poison = ((readVec fi v f false a).poison || (readVec fi v f false b).poison || mark) := by
  have hstage := stage_after ht hu
  exact ⟨fun k => (dstVec_at hstage k).trans (lanes_getD _ k), dstVec_poison hstage⟩

/-- Integer results saturate to the format (R342). -/
theorem arithLane_toInt {f : Fmt} (hf : fmtInt f = true) (o : Int → Int → Int) (h : FVal → FVal → FVal) (a b : BitVec 32) :
    (arithLane f o h a b).toInt = satInt (fmtWidth f) (o (intOf f a) (intOf f b)) := by
  rw [arithLane, if_pos hf, laneInt_satInt (fmtWidth_le f)]

/-- Sign extension to 32 bits loses nothing of a narrower word. -/
theorem ofInt_toInt_mod {w : Nat} (hw : w ≤ 32) (y : BitVec w) :
    BitVec.ofNat w ((BitVec.ofInt 32 y.toInt).toNat % 2 ^ w) = y := by
  have widened : (y.signExtend 32).setWidth w = y := by
    ext i hi
    rw [BitVec.getElem_setWidth, BitVec.getLsbD_signExtend]
    simp only [hi, if_true, BitVec.getLsbD_eq_getElem, Bool.and_eq_right_iff_imp, decide_eq_true_eq]
    omega
  apply BitVec.eq_of_toNat_eq
  rw [BitVec.toNat_ofNat, Nat.mod_mod, ← BitVec.toNat_setWidth]
  exact congrArg BitVec.toNat widened

/-- An integer lane reads as the value of the code it was made of. -/
theorem intOf_laneOf {f : Fmt} (hf : fmtInt f = true) (x : Nat) : intOf f (laneOf f x) = signed (fmtWidth f) x := by
  rw [laneOf, if_pos hf]
  exact congrArg BitVec.toInt (ofInt_toInt_mod (fmtWidth_le f) _)

/-- An integer code is read as it stands. -/
theorem intOf_read {f : Fmt} (hf : fmtInt f = true) (a : BitVec 32) :
    intOf f (laneOf f (asRead f (codeOf f a))) = intOf f a := by
  have hread : asRead f (codeOf f a) = codeOf f a := if_neg fun h => by simp [h.1, fmtInt] at hf
  rw [hread]
  exact intOf_laneOf hf _

/-- The extreme of two integer lanes is one of them, and the one that compares as wanted (R342). -/
theorem intOf_extreme {f : Fmt} (hf : fmtInt f = true) (a b : BitVec 32) :
    intOf f (extreme f .gt a b) = max (intOf f a) (intOf f b) ∧
      intOf f (extreme f .lt a b) = min (intOf f a) (intOf f b) := by
  have cmp (x y : BitVec 32) : laneCmp f x y = some (compare (intOf f x) (intOf f y)) := if_pos hf
  rcases lt_trichotomy (intOf f a) (intOf f b) with h | h | h
  · simp [extreme, cmp, compare_lt_iff_lt.mpr h, compare_gt_iff_gt.mpr h, intOf_read hf, h.le]
  · have same (want : Ordering) : intOf f (extreme f want a b) = intOf f b := by
      simp only [extreme]
      (repeat' split) <;> simp [intOf_read hf, h]
    simp [same, h]
  · simp [extreme, cmp, compare_lt_iff_lt.mpr h, compare_gt_iff_gt.mpr h, intOf_read hf, h.le]

/-- The order of two values turns round with them. -/
theorem fcmp_gt {x y : FVal} (h : fcmp x y = some .gt) : fcmp y x = some .lt := by
  cases x with
  | nan => cases h
  | inf a =>
    cases y with
    | nan => cases h
    | inf b => revert h; revert a b; decide
    | num => cases a <;> simp_all [fcmp]
  | num n m e =>
    cases y with
    | nan => cases h
    | inf b => cases b <;> simp_all [fcmp]
    | num n' m' e' =>
      simp only [fcmp, minExp, Option.some.injEq, compare_gt_iff_gt] at h
      simpa only [fcmp, minExp, Option.some.injEq, compare_lt_iff_lt, min_comm e' e] using h

/-- Of two bf16 lanes in order the greater and the smaller are told apart (R342). -/
theorem extreme_bf16 {a b : BitVec 32} (h : laneCmp .bf16 a b = some .gt) :
    extreme .bf16 .gt a b = laneOf .bf16 (asRead .bf16 (codeOf .bf16 a)) ∧
      extreme .bf16 .lt a b = laneOf .bf16 (asRead .bf16 (codeOf .bf16 b)) := by
  have swapped : laneCmp .bf16 b a = some .lt := fcmp_gt h
  simp [extreme, h, swapped]

/-- Settles O27: the bodies are lane-wise, and the arithmetic of one lane is that of the values. -/
theorem laneArithmeticFinchOps : Obligations.LaneArithmeticFinchOps := by
  unfold Obligations.LaneArithmeticFinchOps
  refine ⟨?add, ?sub, ?mul, ?max, ?min, fun f o h a b hf => arithLane_toInt hf o h a b,
    fun f a b hf => intOf_extreme hf a b, fun a b h => extreme_bf16 h⟩
  case add | sub | mul =>
    intro s p v g f a b d hi hf hp
    obtain ⟨t, ht, hfinch, -⟩ := stageOp_effect hi (List.contains_iff_mem.mpr hf) hp v (arithBody p v f _ _ a b d)
    exact ⟨t, ht, laneBody_writes hfinch (countSpecial_perch ..)⟩
  case max | min =>
    intro s p v g f a b d hi hf hp
    obtain ⟨t, ht, hfinch, -⟩ := stageOp_effect hi (List.contains_iff_mem.mpr hf) hp v (extremeBody p v f _ a b d)
    exact ⟨t, ht, laneBody_writes hfinch (countSpecial_perch ..)⟩

/-! ### RQ, LUT and RED -/

/-- The pipeline register takes the results of an issue; the accumulators stay. -/
theorem setOut_results {st t : Stage} {l : Lanes} {pz : Bool} (h : st = setOut l pz t) :
    st.acc = t.acc ∧ st.outPoison = pz ∧ ∀ i : Fin 16, st.outv.getD i 0 = l.getD i 0 := by
  subst h
  exact ⟨rfl, rfl, setOut_getD l pz t⟩

/-- The lanes of an accumulator vector, each made into one result. -/
theorem acc_results_getD (x : Vector (BitVec 32) 16) (f : BitVec 32 → BitVec 32 × Bool) (i : Fin 16) :
    ((x.toList.map f).map (·.1)).getD i 0 = (f x[i]).1 := by
  simp [List.getD_eq_getElem?_getD]

/-- RQ writes its lanes into the pipeline register. -/
theorem rq_writes {s t : State} {p : Fin 72} {v : Fin 4} {f : Fmt} {acc : Fin 16} {d : Fin 8} {i : Instr} {fi : Finch}
    {mark : Bool} (ht : t.fab.perch[p].finch = (rqBody p v f acc d fi mark (beginOp p i s)).fab.perch[p].finch) :
    t.fab.perch[p].finch.stages[v].acc = (finchOf s p).stages[v].acc ∧
      t.fab.perch[p].finch.stages[v].outPoison = (fi.stages[v].accPoison.getLsbD acc || mark) ∧
      ∀ k : Fin 16, t.fab.perch[p].finch.stages[v].outv.getD k 0 =
        (if fmtInt f then
          rqInt f (s.img.int Fld.rqM [rowOf p, fi.mould, v, d]) (s.img.int Fld.rqZ [rowOf p, fi.mould, v, d])
            (s.img.nat Fld.rqS [rowOf p, fi.mould, v, d]) fi.stages[v].acc[acc][k]
        else rqFloat f (s.img.int Fld.rqK [rowOf p, fi.mould, v, d]) fi.stages[v].acc[acc][k]).1 := by
  obtain ⟨accs, poison, lanes⟩ := setOut_results (stage_after ht
    ((countSpecial_perch _ _).trans (countRqSat_perch _ _)))
  exact ⟨accs, poison, fun k => (lanes k).trans (acc_results_getD _ _ k)⟩

/-- Lane 0 of a vector of 16 lanes is replaced. -/
theorem lane0_getD (f : Nat → BitVec 32) (r : BitVec 32) (i : Fin 16) :
    (((List.range 16).map f).set 0 r).getD i 0 = if i = 0 then r else f i := by
  by_cases h : i = 0
  · subst h
    simp [List.getD_eq_getElem?_getD]
  · have hne : (0 : Nat) ≠ i.val := fun e => h (Fin.ext e.symm)
    rw [if_neg h, List.getD_eq_getElem?_getD, List.getElem?_set_ne hne, ← List.getD_eq_getElem?_getD, lanes_getD]

theorem redBody_perch (p v f mx x d fi mark s) :
    (redBody p v f mx x d fi mark s).fab.perch =
      (onStage p v (setDst d (((List.range 16).map (dstVec fi v d).at).set 0
          (reduce f mx ((List.range 16).map (readVec fi v f false x).at)))
        ((readVec fi v f false x).poison || (dstVec fi v d).poison || mark)) s).fab.perch := by
  simp only [redBody, onStage, onFinch, onPerch, countSpecial_perch]

/-- Settles O28: each body writes its lanes into one destination. -/
theorem requantiseTableAndReduceFinchOps : Obligations.RequantiseTableAndReduceFinchOps := by
  unfold Obligations.RequantiseTableAndReduceFinchOps
  refine ⟨?integer, ?floating, ?table, ?reduction⟩
  case integer =>
    intro s p v g f acc d hi hf hp hint
    obtain ⟨t, ht, hfinch, -⟩ := stageOp_effect hi (List.contains_iff_mem.mpr hf) hp v (rqBody p v f acc d)
    obtain ⟨accs, poison, lanes⟩ := rq_writes hfinch
    exact ⟨t, ht, accs, poison, fun i => (lanes i).trans (by rw [if_pos hint]; rfl)⟩
  case floating =>
    intro s p v g f acc d hi hf hp hint
    obtain ⟨t, ht, hfinch, -⟩ := stageOp_effect hi (List.contains_iff_mem.mpr hf) hp v (rqBody p v f acc d)
    obtain ⟨accs, poison, lanes⟩ := rq_writes hfinch
    exact ⟨t, ht, accs, poison, fun i => (lanes i).trans (by rw [hint]; rfl)⟩
  case table =>
    intro s p v g wide x hi hp
    obtain ⟨t, ht, hfinch, -⟩ := stageOp_effect hi rfl hp v (lutBody p v wide x)
    obtain ⟨accs, poison, lanes⟩ := setOut_results (stage_after hfinch rfl)
    exact ⟨t, ht, accs, poison, fun i => (lanes i).trans (lanes_getD _ i)⟩
  case reduction =>
    intro s p v g f mx x d hi hf hp
    obtain ⟨t, ht, hfinch, -⟩ := stageOp_effect (formats := f == .int32 || f == .fp32) hi (by simpa using hf) hp v
      (redBody p v f mx x d)
    have hstage := stage_after hfinch (redBody_perch ..)
    exact ⟨t, ht, (dstVec_at hstage 0).trans (lane0_getD _ _ 0), dstVec_poison hstage,
      fun i h => (dstVec_at hstage i).trans ((lane0_getD _ _ i).trans (if_neg h))⟩

/-! ### CMP, PLOG, SEL, SHF, ACLR and AMOV -/

/-- Bits put from a list of truth values, from position `n` on. -/
theorem foldl_putBit_getLsbD (l : List Bool) (n : Nat) (h : n + l.length ≤ 16) (x : BitVec 16) (i : Fin 16) :
    ((l.zipIdx n).foldl (fun m q => putBit m q.2 q.1) x).getLsbD i =
      if n ≤ i.val ∧ i.val < n + l.length then l.getD (i.val - n) false else x.getLsbD i := by
  induction l generalizing n x with
  | nil =>
    rw [if_neg (by simp only [List.length_nil]; omega)]
    rfl
  | cons b r ih =>
    simp only [List.length_cons] at h
    rw [List.zipIdx_cons, List.foldl_cons, ih (n + 1) (by omega)]
    have put := putBit_getLsbD x ⟨n, by omega⟩ i b
    rcases Nat.lt_trichotomy i.val n with hi | hi | hi
    · rw [if_neg (by omega), if_neg (by omega)]
      exact put.trans (if_neg fun e => by simp [e] at hi)
    · rw [if_neg (by omega), if_pos (by simp only [List.length_cons]; omega)]
      refine (put.trans (if_pos (Fin.ext hi))).trans ?_
      simp [hi]
    · by_cases hr : i.val < n + 1 + r.length
      · rw [if_pos (by omega), if_pos (by simp only [List.length_cons]; omega)]
        have : i.val - n = (i.val - (n + 1)) + 1 := by omega
        rw [this, List.getD_cons_succ]
      · rw [if_neg (by omega), if_neg (by simp only [List.length_cons]; omega)]
        exact put.trans (if_neg fun e => by simp [e] at hi)

/-- A lane mask holds the truth values it was made of. -/
theorem maskOf_getLsbD (f : Nat → Bool) (i : Fin 16) : (maskOf ((List.range 16).map f)).getLsbD i = f i := by
  have put := foldl_putBit_getLsbD ((List.range 16).map f) 0 (by simp) 0 i
  rw [if_pos (by simp)] at put
  refine put.trans ?_
  simp [List.getD_eq_getElem?_getD]

/-- A lane mask takes a value and a mark; the other masks and the stages stay. -/
theorem setMask_results {fi x : Finch} {k : Fin 8} {m : BitVec 16} {mark : Bool} (h : fi = setMask k m mark x) :
    fi.masks[k] = m ∧ fi.maskPoison.getLsbD k = mark ∧ (∀ j : Fin 8, j ≠ k → fi.masks[j] = x.masks[j]) ∧
      fi.stages = x.stages := by
  subst h
  refine ⟨by simp [setMask], putBit_same .., fun j hj => ?_, rfl⟩
  have : k.val ≠ j.val := fun e => hj (Fin.ext e.symm)
  simp [setMask, this]

/-- A predicate takes a value and a mark; the other predicates, the masks and the stages stay. -/
theorem setPred_results {fi x : Finch} {k : Fin 8} {b mark : Bool} (h : fi = setPred k b mark x) :
    fi.preds.getLsbD k = b ∧ fi.predPoison.getLsbD k = mark ∧
      (∀ j : Fin 8, j ≠ k → fi.preds.getLsbD j = x.preds.getLsbD j) ∧ fi.masks = x.masks ∧ fi.stages = x.stages := by
  subst h
  exact ⟨putBit_same .., putBit_same .., fun j hj => putBit_other hj .., rfl, rfl⟩

/-- PLOG, whose change of the Finch is `f`. -/
theorem plog_effect {s : State} {p : Fin 72} {g : PredSel} {op : PlogOp} (hi : issues s p = true) (v : Fin 4)
    (hp : predValue (opView s p (.plog p v g op)) g = true) {f : Finch → Finch}
    (hbody : plogBody p op (opView s p (.plog p v g op)) (predMark (opView s p (.plog p v g op)) g)
      (beginOp p (.plog p v g op) s) = onFinch p f (beginOp p (.plog p v g op) s)) :
    ∃ t, exec (.plog p v g op) s = .next t ∧ t.fab.perch[p].finch = f (finchOf s p) := by
  obtain ⟨t, ht, hfinch, -⟩ := stageOp_effect hi rfl hp v (plogBody p op)
  exact ⟨t, ht, hfinch.trans (by rw [hbody, onFinch_finch, beginOp_finch]; rfl)⟩

/-- ACLR clears exactly the accumulators of its mask, with their marks (R214, R324). -/
theorem aclr_clears (accs : BitVec 16) (mark : Bool) (t : Stage) (j : Fin 16) :
    ((List.finRange 16).foldl (fun u j => if accs.getLsbD j.val then setAcc j (List.replicate 16 0) mark u else u) t).acc[j] =
        (if accs.getLsbD j then Vector.replicate 16 0 else t.acc[j]) ∧
      ((List.finRange 16).foldl (fun u j => if accs.getLsbD j.val then setAcc j (List.replicate 16 0) mark u else u)
          t).accPoison.getLsbD j =
        if accs.getLsbD j then mark else t.accPoison.getLsbD j := by
  have zeros : toLanes (List.replicate 16 0) = Vector.replicate 16 0 := by decide
  rw [← List.foldl_filter]
  obtain ⟨cleared, marked⟩ := foldl_setAcc (fun _ => List.replicate 16 0) (fun _ => mark)
    ((List.finRange 16).filter fun j => accs.getLsbD j.val) t j
  simp only [List.mem_filter, List.mem_finRange, true_and, zeros] at cleared marked
  exact ⟨cleared, marked⟩

/-- One accumulator vector takes the lanes of another. -/
theorem setAcc_copy {st t : Stage} {dst : Fin 16} {x : Vector (BitVec 32) 16} {pz : Bool}
    (h : st = setAcc dst x.toList pz t) :
    st.acc[dst] = x ∧ (∀ j : Fin 16, j ≠ dst → st.acc[j] = t.acc[j]) ∧ st.accPoison.getLsbD dst = pz := by
  subst h
  refine ⟨Vector.ext fun i hi => ?_, fun j hj => setAcc_other hj .., setAcc_mark ..⟩
  refine (setAcc_same dst x.toList pz t ⟨i, hi⟩).trans ?_
  simp [List.getD_eq_getElem?_getD, hi]

/-- Settles O29: each body writes one mask, predicate or destination. -/
theorem maskAndMoveFinchOps : Obligations.MaskAndMoveFinchOps := by
  unfold Obligations.MaskAndMoveFinchOps
  refine ⟨?cmp, ?and, ?or, ?not, ?any, ?all, ?sel, ?shf, ?aclr, ?amov⟩
  case cmp =>
    intro s p v g f op a b m hi hf hp
    obtain ⟨t, ht, hfinch, -⟩ := stageOp_effect hi (List.contains_iff_mem.mpr hf) hp v (cmpBody p v f op a b m)
    rw [cmpBody, onFinch_finch, beginOp_finch] at hfinch
    obtain ⟨mask, mark, -, stages⟩ := setMask_results hfinch
    exact ⟨t, ht, stages, fun i => by rw [mask, maskOf_getLsbD], mark⟩
  case and | or =>
    intro s p v g a b d hi hp
    obtain ⟨t, ht, hfinch⟩ := plog_effect hi v hp rfl
    exact ⟨t, ht, setMask_results hfinch⟩
  case not =>
    intro s p v g a d hi hp
    obtain ⟨t, ht, hfinch⟩ := plog_effect hi v hp rfl
    exact ⟨t, ht, setMask_results hfinch⟩
  case any | all =>
    intro s p v g a d hi hp
    obtain ⟨t, ht, hfinch⟩ := plog_effect hi v hp rfl
    exact ⟨t, ht, setPred_results hfinch⟩
  case sel =>
    intro s p v g f m a b d hi hp
    obtain ⟨t, ht, hfinch, -⟩ := stageOp_effect hi rfl hp v (selBody p v f m a b d)
    have hstage := stage_after hfinch rfl
    exact ⟨t, ht, fun i => (dstVec_at hstage i).trans (lanes_getD _ i), dstVec_poison hstage⟩
  case shf =>
    intro s p v g f k x d hi hp
    obtain ⟨t, ht, hfinch, -⟩ := stageOp_effect hi rfl hp v (shfBody p v f k x d)
    have hstage := stage_after hfinch rfl
    exact ⟨t, ht, fun i => (dstVec_at hstage i).trans (lanes_getD _ i), dstVec_poison hstage⟩
  case aclr =>
    intro s p v g accs hi hp
    obtain ⟨t, ht, hfinch, -⟩ := stageOp_effect hi rfl hp v (aclrBody p v accs)
    have hstage := stage_after hfinch rfl
    refine ⟨t, ht, fun j => ?_⟩
    rw [hstage]
    exact aclr_clears accs _ _ j
  case amov =>
    intro s p v g src dst hi hp
    obtain ⟨t, ht, hfinch, -⟩ := stageOp_effect hi rfl hp v (amovBody p v src dst)
    obtain ⟨same, others, mark⟩ := setAcc_copy (stage_after hfinch rfl)
    exact ⟨t, ht, same, others, mark⟩

end Sys2Proof.Machine

/-! SUPPORT. Operations that do not touch the fabric (family 06_perch_fabric.md): `f_fab` says so of `f`, in the order of
the model's files. An exec function is taken through `nextOf`, the next state it answers. For O59. -/

namespace Sys2Proof.Machine

/-! ### A choice of states, and a fold of changes -/

@[simp] theorem fab_ite (c : Prop) [Decidable c] (s t : State) :
    (if c then s else t).fab = if c then s.fab else t.fab := apply_ite State.fab c s t

/-- A fold of changes that each leave the fabric alone leaves it alone. -/
@[simp] theorem foldl_fab {β : Type} (f : State → β → State) (h : ∀ t x, (f t x).fab = t.fab) (l : List β) (s : State) :
    (l.foldl f s).fab = s.fab := by
  induction l generalizing s with
  | nil => rfl
  | cons x r ih => exact (ih _).trans (h s x)

/-- A standing flag is no part of the fabric. -/
@[simp] theorem fab_stand (code s) : (stand code s).fab = s.fab := stand_fab code s

/-! ### Shared operations -/

@[simp] theorem markLine_fab (n f s) : (markLine n f s).fab = s.fab := by simp [markLine]

/-! ### The log area -/

@[simp] theorem restoreRing_fab (s) : (restoreRing s).fab = s.fab := by simp [restoreRing]

/-! ### Maintenance -/

@[simp] theorem sendAnswer_fab (op q a s) : (sendAnswer op q a s).fab = s.fab := by simp [sendAnswer]

@[simp] theorem sendWaiting_fab (s) : (sendWaiting s).fab = s.fab :=
  foldl_fab _ (fun _ _ => by split <;> simp) _ _

@[simp] theorem setCached_fab (seq a s) : (setCached seq a s).fab = s.fab := by simp [setCached]
@[simp] theorem finish_fab (op q a s) : (finish op q a s).fab = s.fab := by simp [finish]
@[simp] theorem accept_fab (op q payload s) : (accept op q payload s).fab = s.fab := by simp [accept]
@[simp] theorem otpViolation_fab (s) : (otpViolation s).fab = s.fab := by simp [otpViolation]

/-! ### The NVM session -/

@[simp] theorem grantLock_fab (q s) : (grantLock q s).fab = s.fab := by simp [grantLock]
@[simp] theorem clearVerified_fab (slot s) : (clearVerified slot s).fab = s.fab := by simp [clearVerified]

@[simp] theorem showPointer_fab (s) : (showPointer s).fab = s.fab := by
  unfold showPointer
  split <;> simp

/-! ### Line timing -/

@[simp] theorem raiseRequest_fab (s) : (raiseRequest s).fab = s.fab := by
  unfold raiseRequest
  split <;> simp

@[simp] theorem countEdge_fab (fwd s) : (countEdge fwd s).fab = s.fab := by simp [countEdge]
@[simp] theorem illegalTransition_fab (s) : (illegalTransition s).fab = s.fab := by simp [illegalTransition]

@[simp] theorem execEncEdge_fab (inp samples s) : (nextOf s (execEncEdge inp samples s)).fab = s.fab := by
  unfold execEncEdge
  (repeat' split) <;> simp

@[simp] theorem execEnczEdge_fab (samples s) : (nextOf s (execEnczEdge samples s)).fab = s.fab := by
  simp [execEnczEdge]

@[simp] theorem execStbAssert_fab (k s) : (nextOf s (execStbAssert k s)).fab = s.fab := by
  simp [execStbAssert]

@[simp] theorem execFieldGateOpen_fab (k s) : (nextOf s (execFieldGateOpen k s)).fab = s.fab := by
  simp [execFieldGateOpen]

@[simp] theorem execStbDeassert_fab (k s) : (nextOf s (execStbDeassert k s)).fab = s.fab := by
  simp [execStbDeassert]

@[simp] theorem zeroAccumulator_fab (s) : (zeroAccumulator s).fab = s.fab := by simp [zeroAccumulator]
@[simp] theorem ltReset_fab (s) : (ltReset s).fab = s.fab := by simp [ltReset]
@[simp] theorem ltCommit_fab (s) : (ltCommit s).fab = s.fab := by simp [ltCommit]
@[simp] theorem ltHold_fab (s) : (ltHold s).fab = s.fab := by simp [ltHold]
@[simp] theorem ltSleep_fab (s) : (ltSleep s).fab = s.fab := by simp [ltSleep]
@[simp] theorem ltWake_fab (s) : (ltWake s).fab = s.fab := by simp [ltWake]

/-! ### The housekeeping converter -/

@[simp] theorem openRound_fab (num den s) : (openRound num den s).2.fab = s.fab := by
  unfold openRound
  split <;> simp

@[simp] theorem writeResult_fab (chan inj result s) : (writeResult chan inj result s).fab = s.fab := by
  simp [writeResult]

@[simp] theorem endPass_fab (s) : (endPass s).fab = s.fab := by simp [endPass]

@[simp] theorem execScanConversion_fab (raw s) : (nextOf s (execScanConversion raw s)).fab = s.fab := by
  simp only [execScanConversion]
  (repeat' split) <;> simp

@[simp] theorem railBack_fab (i s) : (railBack i s).fab = s.fab := by
  simp only [railBack]
  split <;> simp

@[simp] theorem checkRail_fab (i code unsettled s) : (checkRail i code unsettled s).fab = s.fab := by
  simp [checkRail]

@[simp] theorem checkRef_fab (code s) : (checkRef code s).fab = s.fab := by
  simp only [checkRef]
  (repeat' split) <;> simp

@[simp] theorem checkGround_fab (x s) : (checkGround x s).fab = s.fab := by simp [checkGround]
@[simp] theorem readTemp_fab (j code s) : (readTemp j code s).fab = s.fab := by simp [readTemp]
@[simp] theorem checkTemp_fab (j code s) : (checkTemp j code s).fab = s.fab := by simp [checkTemp]
@[simp] theorem logThermal_fab (crossing s) : (logThermal crossing s).fab = s.fab := by simp [logThermal]
@[simp] theorem rated_fab (s) : (rated s).fab = s.fab := by simp [rated]
@[simp] theorem warning_fab (s) : (warning s).fab = s.fab := by simp [warning]
@[simp] theorem thermalPass_fab (s) : (thermalPass s).fab = s.fab := by simp [thermalPass]

@[simp] theorem checkResult_fab (d s) : (checkResult d s).fab = s.fab := by
  unfold checkResult
  (repeat' split) <;> simp

@[simp] theorem execHkcResultConsume_fab (s) : (nextOf s (execHkcResultConsume s)).fab = s.fab := by
  simp [execHkcResultConsume]

@[simp] theorem execRailOutOfWindow_fab (i s) : (nextOf s (execRailOutOfWindow i s)).fab = s.fab := by
  simp [execRailOutOfWindow]

@[simp] theorem execSensorExclude_fab (j s) : (nextOf s (execSensorExclude j s)).fab = s.fab := by
  simp [execSensorExclude]

@[simp] theorem selectRef_fab (ext s) : (selectRef ext s).fab = s.fab := by simp [selectRef]
@[simp] theorem reselectRef_fab (ext s) : (reselectRef ext s).fab = s.fab := by simp [reselectRef]

@[simp] theorem execRefSettled_fab (s) : (nextOf s (execRefSettled s)).fab = s.fab := by
  simp [execRefSettled]

@[simp] theorem execRefCheckFail_fab (s) : (nextOf s (execRefCheckFail s)).fab = s.fab := by
  simp [execRefCheckFail]

@[simp] theorem onSlice_fab (k f s) : (onSlice k f s).fab = s.fab := by simp [onSlice]
@[simp] theorem endInputFault_fab (k s) : (endInputFault k s).fab = s.fab := by simp [endInputFault]
@[simp] theorem leaveService_fab (k s) : (leaveService k s).fab = s.fab := by simp [leaveService]
@[simp] theorem endCycle_fab (k c s) : (endCycle k c s).fab = s.fab := by simp [endCycle]
@[simp] theorem assignRoles_fab (s) : (assignRoles s).fab = s.fab := by simp [assignRoles]
@[simp] theorem initSlice_fab (c s) : (initSlice c s).fab = s.fab := by simp [initSlice]

@[simp] theorem execCalibrationDone_fab (c s) : (nextOf s (execCalibrationDone c s)).fab = s.fab := by
  simp [execCalibrationDone]

@[simp] theorem execRotationTick_fab (s) : (nextOf s (execRotationTick s)).fab = s.fab := by
  simp [execRotationTick]

@[simp] theorem execSliceRoleRotate_fab (s) : (nextOf s (execSliceRoleRotate s)).fab = s.fab := by
  simp only [execSliceRoleRotate]
  (repeat' split) <;> simp

@[simp] theorem execGroundCheckFail_fab (s) : (nextOf s (execGroundCheckFail s)).fab = s.fab := by
  simp [execGroundCheckFail]

@[simp] theorem execIntegWindowOpen_fab (s) : (nextOf s (execIntegWindowOpen s)).fab = s.fab := by
  unfold execIntegWindowOpen
  split <;> simp

@[simp] theorem inWindow_fab (k s) : (inWindow k s).fab = s.fab := by simp [inWindow]
@[simp] theorem compareEnergy_fab (k e s) : (compareEnergy k e s).fab = s.fab := by simp [compareEnergy]

@[simp] theorem countSaturation_fab (k sat s) : (countSaturation k sat s).fab = s.fab := by
  simp [countSaturation]

@[simp] theorem execIntegWindowClose_fab (samples close s) :
    (nextOf s (execIntegWindowClose samples close s)).fab = s.fab := by
  unfold execIntegWindowClose
  split <;> simp

@[simp] theorem execIntegOutOfWindow_fab (k s) : (nextOf s (execIntegOutOfWindow k s)).fab = s.fab := by
  simp [execIntegOutOfWindow]

@[simp] theorem execIntegSaturated_fab (k s) : (nextOf s (execIntegSaturated k s)).fab = s.fab := by
  simp [execIntegSaturated]

@[simp] theorem requestInjected_fab (pin s) : (requestInjected pin s).fab = s.fab := by
  simp [requestInjected]

@[simp] theorem execInjectRequest_fab (src s) : (nextOf s (execInjectRequest src s)).fab = s.fab := by
  unfold execInjectRequest
  split <;> simp

@[simp] theorem execInjectedResult_fab (raw s) : (nextOf s (execInjectedResult raw s)).fab = s.fab := by
  unfold execInjectedResult
  split <;> simp

@[simp] theorem execSleepScan_fab (codes s) : (nextOf s (execSleepScan codes s)).fab = s.fab := by
  unfold execSleepScan
  split
  · rfl
  · exact foldl_fab _ (fun _ _ => by split <;> simp) _ s

@[simp] theorem integStart_fab (s) : (integStart s).fab = s.fab := by simp [integStart]
@[simp] theorem hkcReset_fab (s) : (hkcReset s).fab = s.fab := by simp [hkcReset]

@[simp] theorem hkcCommit_fab (s) : (hkcCommit s).fab = s.fab := by
  simp only [hkcCommit]
  split <;> simp

@[simp] theorem hkcSafe_fab (s) : (hkcSafe s).fab = s.fab := by simp [hkcSafe]
@[simp] theorem hkcSleep_fab (s) : (hkcSleep s).fab = s.fab := by simp [hkcSleep]
@[simp] theorem hkcWake_fab (s) : (hkcWake s).fab = s.fab := by simp [hkcWake]
@[simp] theorem reinitStartHkc_fab (s) : (reinitStartHkc s).fab = s.fab := by simp [reinitStartHkc]
@[simp] theorem reinitEndHkc_fab (cal s) : (reinitEndHkc cal s).fab = s.fab := by simp [reinitEndHkc]

/-! ### The Cope die and the Ladle -/

@[simp] theorem shiftCharge_fab (s) : (shiftCharge s).fab = s.fab := by simp [shiftCharge]
@[simp] theorem expose_fab (k s) : (expose k s).fab = s.fab := by simp [expose]
@[simp] theorem drainRows_fab (s) : (drainRows s).fab = s.fab := by simp [drainRows]
@[simp] theorem endDrain_fab (s) : (endDrain s).fab = s.fab := by simp [endDrain]

@[simp] theorem execDrainComplete_fab (s) : (nextOf s (execDrainComplete s)).fab = s.fab := by
  simp [execDrainComplete]

@[simp] theorem failRow_fab (k row s) : (failRow k row s).fab = s.fab := by simp [failRow]

@[simp] theorem execFieldGateClose_fab (k badRows s) :
    (nextOf s (execFieldGateClose k badRows s)).fab = s.fab := by
  simp [execFieldGateClose]

@[simp] theorem logSubst_fab (g s) : (logSubst g s).fab = s.fab := by simp [logSubst]
@[simp] theorem shareShadow_fab (g s) : (shareShadow g s).fab = s.fab := by simp [shareShadow]
@[simp] theorem flagDetection_fab (s) : (flagDetection s).fab = s.fab := by simp [flagDetection]
@[simp] theorem judgeShadow_fab (g s) : (judgeShadow g s).fab = s.fab := by simp [judgeShadow]
@[simp] theorem judgeColumn_fab (h col s) : (judgeColumn h col s).fab = s.fab := by simp [judgeColumn]

@[simp] theorem stepShadow_fab (s g) : (stepShadow s g).fab = s.fab := by
  simp only [stepShadow]
  (repeat' split) <;> simp

@[simp] theorem stepShadows_fab (s) : (stepShadows s).fab = s.fab := by simp [stepShadows]

@[simp] theorem execConversionComplete_fab (k px shadow s) :
    (nextOf s (execConversionComplete k px shadow s)).fab = s.fab := by
  unfold execConversionComplete
  split <;> simp

@[simp] theorem freezeField_fab (k s) : (freezeField k s).fab = s.fab := by simp [freezeField]
@[simp] theorem freezeAll_fab (s) : (freezeAll s).fab = s.fab := by simp [freezeAll]
@[simp] theorem countThaw_fab (s) : (countThaw s).fab = s.fab := by simp [countThaw]
@[simp] theorem execAffThaw_fab (s) : (nextOf s (execAffThaw s)).fab = s.fab := by simp [execAffThaw]

@[simp] theorem accumulateField_fab (n k y s) : (accumulateField n k y s).fab = s.fab := by
  simp [accumulateField]

@[simp] theorem endWindow_fab (k s) : (endWindow k s).fab = s.fab := by simp [endWindow]

@[simp] theorem execAffWindowEnd_fab (s) : (nextOf s (execAffWindowEnd s)).fab = s.fab := by
  simp [execAffWindowEnd]

@[simp] theorem affInit_fab (s) : (affInit s).fab = s.fab := by simp [affInit]
@[simp] theorem darkOfLine_fab (n s) : (darkOfLine n s).fab = s.fab := by simp [darkOfLine]
@[simp] theorem writeHist_fab (n y poison s) : (writeHist n y poison s).fab = s.fab := by rfl
@[simp] theorem pruneReg_fab (n s) : (pruneReg n s).fab = s.fab := by simp [pruneReg]

@[simp] theorem adaptLine_fab (n y s) : (adaptLine n y s).fab = s.fab :=
  foldl_fab _ (fun _ _ => by split <;> simp) _ s

@[simp] theorem execDarkColumnExclude_fab (left i s) :
    (nextOf s (execDarkColumnExclude left i s)).fab = s.fab := by
  simp [execDarkColumnExclude]

@[simp] theorem execHistoryScrub_fab (corrected bad s) :
    (nextOf s (execHistoryScrub corrected bad s)).fab = s.fab := by
  simp [execHistoryScrub]

@[simp] theorem pixReset_fab (s) : (pixReset s).fab = s.fab := by simp [pixReset]
@[simp] theorem pixOff_fab (s) : (pixOff s).fab = s.fab := by simp [pixOff]
@[simp] theorem pixCommit_fab (s) : (pixCommit s).fab = s.fab := by simp [pixCommit]
@[simp] theorem pixRun_fab (s) : (pixRun s).fab = s.fab := by simp [pixRun]
@[simp] theorem pixSleep_fab (s) : (pixSleep s).fab = s.fab := by simp [pixSleep]
@[simp] theorem pixWake_fab (s) : (pixWake s).fab = s.fab := by simp [pixWake]
@[simp] theorem reinitStartPixel_fab (s) : (reinitStartPixel s).fab = s.fab := by simp [reinitStartPixel]
@[simp] theorem reinitEndPixel_fab (s) : (reinitEndPixel s).fab = s.fab := by simp [reinitEndPixel]

/-! ### Pins -/

@[simp] theorem withPins_fab (f s) : (withPins f s).fab = (f s).fab := by
  rw [withPins_changes]

@[simp] theorem foreign_fab (who p s) : (foreign who p s).fab = s.fab := by simp [foreign]
@[simp] theorem writeCfg_fab (who p v s) : (writeCfg who p v s).fab = s.fab := by simp [writeCfg]
@[simp] theorem writeBit_fab (who p v s) : (writeBit who p v s).fab = s.fab := by simp [writeBit]

@[simp] theorem writeBank_fab (who b named v s) : (writeBank who b named v s).fab = s.fab := by
  simp [writeBank]

@[simp] theorem writeData_fab (who b v s) : (writeData who b v s).fab = s.fab := by simp [writeData]
@[simp] theorem writeSet_fab (who b v s) : (writeSet who b v s).fab = s.fab := by simp [writeSet]
@[simp] theorem writeClr_fab (who b v s) : (writeClr who b v s).fab = s.fab := by simp [writeClr]
@[simp] theorem writeTgl_fab (who b v s) : (writeTgl who b v s).fab = s.fab := by simp [writeTgl]

@[simp] theorem execGpioCfgWrite_fab (who p v s) : (nextOf s (execGpioCfgWrite who p v s)).fab = s.fab := by
  simp [execGpioCfgWrite]

@[simp] theorem execGpioDataWrite_fab (who bank v s) :
    (nextOf s (execGpioDataWrite who bank v s)).fab = s.fab := by
  simp [execGpioDataWrite]

@[simp] theorem execGpioSet_fab (who bank v s) : (nextOf s (execGpioSet who bank v s)).fab = s.fab := by
  simp [execGpioSet]

@[simp] theorem execGpioClr_fab (who bank v s) : (nextOf s (execGpioClr who bank v s)).fab = s.fab := by
  simp [execGpioClr]

@[simp] theorem execGpioTgl_fab (who bank v s) : (nextOf s (execGpioTgl who bank v s)).fab = s.fab := by
  simp [execGpioTgl]

@[simp] theorem execSupActUpdate_fab (p s) : (nextOf s (execSupActUpdate p s)).fab = s.fab := by
  simp [execSupActUpdate]

@[simp] theorem openInstant_fab (key s) : (openInstant key s).fab = s.fab := by simp [openInstant]

@[simp] theorem portActs_fab (k key s) : (portActs k key s).fab = s.fab := by
  simp only [portActs]
  split
  · rfl
  · split
    · simp
    · rw [withPins_fab, foldl_fab _ fun _ _ => onPin_fab ..]
      simp

@[simp] theorem releaseToPort_fab (k j s) : (releaseToPort k j s).fab = s.fab := by simp [releaseToPort]

@[simp] theorem execEvpDelayedAct_fab (k s) : (nextOf s (execEvpDelayedAct k s)).fab = s.fab := by
  unfold execEvpDelayedAct
  split <;> simp

@[simp] theorem execPulseEnd_fab (k s) : (nextOf s (execPulseEnd k s)).fab = s.fab := by simp [execPulseEnd]
@[simp] theorem dropHeld_fab (s) : (dropHeld s).fab = s.fab := by simp [dropHeld]
@[simp] theorem endPulses_fab (count s) : (endPulses count s).fab = s.fab := by simp [endPulses]
@[simp] theorem startLineOut_fab (encz s) : (startLineOut encz s).fab = s.fab := by simp [startLineOut]

@[simp] theorem execLineOutPulseEnd_fab (p s) : (nextOf s (execLineOutPulseEnd p s)).fab = s.fab := by
  simp [execLineOutPulseEnd]

@[simp] theorem execPinInterrupt_fab (p level samples s) :
    (nextOf s (execPinInterrupt p level samples s)).fab = s.fab := by
  simp [execPinInterrupt]

@[simp] theorem clearEdges_fab (s) : (clearEdges s).fab = s.fab := by simp [clearEdges]
@[simp] theorem clearInt_fab (b v s) : (clearInt b v s).fab = s.fab := by simp [clearInt]

@[simp] theorem execI2cPoll_fab (m a s) : (nextOf s (execI2cPoll m a s)).fab = s.fab := by
  unfold execI2cPoll
  (repeat' split) <;> simp

@[simp] theorem execI2cStretchTimeout_fab (m s) : (nextOf s (execI2cStretchTimeout m s)).fab = s.fab := by
  simp [execI2cStretchTimeout]

@[simp] theorem execBankSupplyRangeDetect_fab (b mv s) :
    (nextOf s (execBankSupplyRangeDetect b mv s)).fab = s.fab := by
  simp [execBankSupplyRangeDetect]

@[simp] theorem execBoundaryScanInstruction_fab (drives cells s) :
    (nextOf s (execBoundaryScanInstruction drives cells s)).fab = s.fab := by
  simp [execBoundaryScanInstruction]

@[simp] theorem gpioReset_fab (s) : (gpioReset s).fab = s.fab := by simp [gpioReset]
@[simp] theorem gpioCommit_fab (s) : (gpioCommit s).fab = s.fab := by simp [gpioCommit]
@[simp] theorem gpioSafe_fab (s) : (gpioSafe s).fab = s.fab := by simp [gpioSafe]
@[simp] theorem gpioSleep_fab (s) : (gpioSleep s).fab = s.fab := by simp [gpioSleep]
@[simp] theorem gpioWake_fab (s) : (gpioWake s).fab = s.fab := by simp [gpioWake]

/-! ### Egress lanes -/

@[simp] theorem announce_fab (l s) : (announce l s).fab = s.fab := by simp [announce]
@[simp] theorem learnMac_fab (l mac s) : (learnMac l mac s).fab = s.fab := by simp [learnMac]
@[simp] theorem askNextHop_fab (l s) : (askNextHop l s).fab = s.fab := by simp [askNextHop]

@[simp] theorem gainLock_fab (l s) : (gainLock l s).fab = s.fab := by
  simp only [gainLock]
  (repeat' split) <;> simp

@[simp] theorem dropLaneWork_fab (l s) : (dropLaneWork l s).fab = s.fab := by simp [dropLaneWork]
@[simp] theorem seeArp_fab (l mac ip s) : (seeArp l mac ip s).fab = s.fab := by simp [seeArp]

@[simp] theorem arpRequest_fab (l mac ip target s) : (arpRequest l mac ip target s).fab = s.fab := by
  simp [arpRequest]

@[simp] theorem execArpResolveTimer_fab (l s) : (nextOf s (execArpResolveTimer l s)).fab = s.fab := by
  simp [execArpResolveTimer]

@[simp] theorem execReceivedFrameDrop_fab (l frame s) :
    (nextOf s (execReceivedFrameDrop l frame s)).fab = s.fab := by
  simp [execReceivedFrameDrop]

@[simp] theorem closeDatagram_fab (s) : (closeDatagram s).fab = s.fab := by simp [closeDatagram]
@[simp] theorem queueRecord_fab (r s) : (queueRecord r s).fab = s.fab := by simp [queueRecord]
@[simp] theorem flush_fab (s) : (flush s).fab = s.fab := by simp [flush]

@[simp] theorem execFlushTimeout_fab (s) : (nextOf s (execFlushTimeout s)).fab = s.fab := by
  simp [execFlushTimeout]

@[simp] theorem execKeepalive_fab (s) : (nextOf s (execKeepalive s)).fab = s.fab := by simp [execKeepalive]

@[simp] theorem execDatagramTx_fab (l s) : (nextOf s (execDatagramTx l s)).fab = s.fab := by
  simp only [execDatagramTx]
  (repeat' split) <;> simp

@[simp] theorem execRingAgeOut_fab (s) : (nextOf s (execRingAgeOut s)).fab = s.fab := by
  unfold execRingAgeOut
  split <;> simp

@[simp] theorem execRetryRequest_fab (l srcIp s payload) :
    (nextOf s (execRetryRequest l srcIp s payload)).fab = s.fab := by
  simp [execRetryRequest]

@[simp] theorem sendNak_fab (l seq count reason s) : (sendNak l seq count reason s).fab = s.fab := by
  simp [sendNak]

@[simp] theorem execRetransmit_fab (l ecc s) : (nextOf s (execRetransmit l ecc s)).fab = s.fab := by
  simp only [execRetransmit]
  (repeat' split) <;> simp

@[simp] theorem netCommit_fab (s) : (netCommit s).fab = s.fab := by simp [netCommit]
@[simp] theorem netReset_fab (s) : (netReset s).fab = s.fab := by simp [netReset]
@[simp] theorem netSafe_fab (s) : (netSafe s).fab = s.fab := by simp [netSafe]
@[simp] theorem netSleep_fab (s) : (netSleep s).fab = s.fab := by simp [netSleep]
@[simp] theorem netWake_fab (s) : (netWake s).fab = s.fab := by simp [netWake]

/-! ### Precision time -/

@[simp] theorem setPtpState_fab (n s) : (setPtpState n s).fab = s.fab := by simp [setPtpState]
@[simp] theorem useLane_fab (l s) : (useLane l s).fab = s.fab := by simp [useLane]
@[simp] theorem rebase_fab (s) : (rebase s).fab = s.fab := by simp [rebase]
@[simp] theorem noteA_fab (s) : (noteA s).fab = s.fab := by simp [noteA]
@[simp] theorem watchPaths_fab (s) : (watchPaths s).fab = s.fab := by simp [watchPaths]
@[simp] theorem setCandidates_fab (l c s) : (setCandidates l c s).fab = s.fab := by simp [setCandidates]

@[simp] theorem execAnnounceReceive_fab (l a s h) :
    (nextOf s (execAnnounceReceive l a s h)).fab = s.fab := by
  simp [execAnnounceReceive]

@[simp] theorem execAnnounceTimeout_fab (l s) : (nextOf s (execAnnounceTimeout l s)).fab = s.fab := by
  unfold execAnnounceTimeout
  split <;> simp

@[simp] theorem stepTime_fab (off s) : (stepTime off s).fab = s.fab := by simp [stepTime]
@[simp] theorem steer_fab (off s) : (steer off s).fab = s.fab := by simp [steer]
@[simp] theorem stateAfter_fab (off s) : (stateAfter off s).fab = s.fab := by simp [stateAfter]
@[simp] theorem servo_fab (off s) : (servo off s).fab = s.fab := by simp [servo]
@[simp] theorem useSync_fab (l t1 t2 s) : (useSync l t1 t2 s).fab = s.fab := by simp [useSync]

@[simp] theorem execSyncReceive_fab (l m s h quanta) :
    (nextOf s (execSyncReceive l m s h quanta)).fab = s.fab := by
  simp [execSyncReceive]

@[simp] theorem execFollowUpReceive_fab (l source seqId origin corr s h) :
    (nextOf s (execFollowUpReceive l source seqId origin corr s h)).fab = s.fab := by
  unfold execFollowUpReceive
  split <;> simp

@[simp] theorem execFollowUpTimeout_fab (l s) : (nextOf s (execFollowUpTimeout l s)).fab = s.fab := by
  simp [execFollowUpTimeout]

@[simp] theorem execDelayReqTimer_fab (l quanta s) :
    (nextOf s (execDelayReqTimer l quanta s)).fab = s.fab := by
  simp [execDelayReqTimer]

@[simp] theorem execDelayRespReceive_fab (l source seqId rx corr s h logInterval requesting) :
    (nextOf s (execDelayRespReceive l source seqId rx corr s h logInterval requesting)).fab = s.fab := by
  simp only [execDelayRespReceive]
  split <;> simp

@[simp] theorem execTimePathMarker_fab (l txErr rxErr s) :
    (nextOf s (execTimePathMarker l txErr rxErr s)).fab = s.fab := by
  simp [execTimePathMarker]

@[simp] theorem execPtpFailback_fab (s) : (nextOf s (execPtpFailback s)).fab = s.fab := by
  simp [execPtpFailback]

@[simp] theorem execTlcResync_fab (s) : (nextOf s (execTlcResync s)).fab = s.fab := by
  unfold execTlcResync
  split <;> simp

@[simp] theorem judgeTime_fab (s) : (judgeTime s).fab = s.fab := by
  unfold judgeTime
  (repeat' split) <;> simp

@[simp] theorem execPpsSecond_fab (s) : (nextOf s (execPpsSecond s)).fab = s.fab := by simp [execPpsSecond]

@[simp] theorem execPpsWidthEnd_fab (s) : (nextOf s (execPpsWidthEnd s)).fab = s.fab := by
  simp [execPpsWidthEnd]

@[simp] theorem execBlockLockGain_fab (l s) : (nextOf s (execBlockLockGain l s)).fab = s.fab := by
  simp [execBlockLockGain]

@[simp] theorem execArpRequestReceive_fab (l mac ip target s) :
    (nextOf s (execArpRequestReceive l mac ip target s)).fab = s.fab := by
  simp [execArpRequestReceive]

@[simp] theorem execArpPacketReceive_fab (l mac ip s) :
    (nextOf s (execArpPacketReceive l mac ip s)).fab = s.fab := by
  simp [execArpPacketReceive]

@[simp] theorem ptpCommit_fab (s) : (ptpCommit s).fab = s.fab := by simp [ptpCommit]
@[simp] theorem ptpReset_fab (s) : (ptpReset s).fab = s.fab := by simp [ptpReset]
@[simp] theorem ptpSleep_fab (s) : (ptpSleep s).fab = s.fab := by simp [ptpSleep]
@[simp] theorem ptpWake_fab (s) : (ptpWake s).fab = s.fab := by simp [ptpWake]
@[simp] theorem reinitEndEgress_fab (s) : (reinitEndEgress s).fab = s.fab := by simp [reinitEndEgress]

/-! ### Starling ports -/

@[simp] theorem sendFrame_fab (d f s) : (sendFrame d f s).fab = s.fab := by simp [sendFrame]
@[simp] theorem sendRing_fab (f s) : (sendRing f s).fab = s.fab := by simp [sendRing]

/-! ### The Sprue -/

@[simp] theorem actOn_fab (row col beat t s) : (actOn row col beat t s).fab = s.fab := by
  simp only [actOn]
  (repeat' split) <;> simp

@[simp] theorem withholdCrop_fab (n s) : (withholdCrop n s).fab = s.fab := by simp [withholdCrop]

@[simp] theorem readSlot_fab (i e s) : (readSlot i e s).fab = s.fab := by
  unfold readSlot
  split <;> simp

@[simp] theorem readHistory_fab (hist line h s) : (readHistory hist line h s).fab = s.fab := by
  simp [readHistory]

@[simp] theorem takeCrop_fab (c s) : (takeCrop c s).fab = s.fab := by simp [takeCrop]

@[simp] theorem readStore_fab (c e s) : (readStore c e s).2.2.fab = s.fab := by
  unfold readStore
  split <;> simp

@[simp] theorem execCropCopy_fab (store s) : (nextOf s (execCropCopy store s)).fab = s.fab := by
  unfold execCropCopy
  split <;> simp

@[simp] theorem dropRecord_fab (n s) : (dropRecord n s).fab = s.fab := by simp [dropRecord]
@[simp] theorem takeRecordCredit_fab (s) : (takeRecordCredit s).fab = s.fab := by simp [takeRecordCredit]

@[simp] theorem sendFragment_fab (t line fl seam boxId s) :
    (sendFragment t line fl seam boxId s).fab = s.fab := by
  simp [sendFragment]

@[simp] theorem formRecord_fab (hist l t s) : (formRecord hist l t s).fab = s.fab := by
  simp only [formRecord]
  (repeat' split) <;> simp

@[simp] theorem queueLine_fab (l stop s) : (queueLine l stop s).fab = s.fab := by simp [queueLine]
@[simp] theorem formLine_fab (hist l stop s) : (formLine hist l stop s).fab = s.fab := by simp [formLine]

@[simp] theorem execSprueFormRecords_fab (s hist) :
    (nextOf s (execSprueFormRecords s hist)).fab = s.fab := by
  unfold execSprueFormRecords
  split <;> simp

@[simp] theorem execSprueHalvesDisagree_fab (s) : (nextOf s (execSprueHalvesDisagree s)).fab = s.fab := by
  simp only [execSprueHalvesDisagree]
  (repeat' split) <;> simp

@[simp] theorem execEventRelease_fab (inTime s) : (nextOf s (execEventRelease inTime s)).fab = s.fab := by
  unfold execEventRelease
  split <;> simp

@[simp] theorem dropQueued_fab (s) : (dropQueued s).fab = s.fab := by simp [dropQueued]
@[simp] theorem sprReset_fab (s) : (sprReset s).fab = s.fab := by simp [sprReset]
@[simp] theorem sprOff_fab (s) : (sprOff s).fab = s.fab := by simp [sprOff]
@[simp] theorem sprCommit_fab (s) : (sprCommit s).fab = s.fab := by simp [sprCommit]
@[simp] theorem sprRun_fab (s) : (sprRun s).fab = s.fab := by simp [sprRun]

@[simp] theorem formAll_fab (n s) : (formAll n s).fab = s.fab := by
  induction n generalizing s with
  | zero => rfl
  | succ n ih =>
    unfold formAll
    split
    · rfl
    · rw [ih, formLine_fab]

@[simp] theorem sprHold_fab (s) : (sprHold s).fab = s.fab := by simp [sprHold]
@[simp] theorem sprSleep_fab (s) : (sprSleep s).fab = s.fab := by simp [sprSleep]
@[simp] theorem sprWake_fab (s) : (sprWake s).fab = s.fab := by simp [sprWake]

/-! ### Seams -/

@[simp] theorem execSeamFragReceive_fab (side hd f s) :
    (nextOf s (execSeamFragReceive side hd f s)).fab = s.fab := by
  simp [execSeamFragReceive]

@[simp] theorem execSeamResolveReceive_fab (side hd boxId partner s) :
    (nextOf s (execSeamResolveReceive side hd boxId partner s)).fab = s.fab := by
  simp [execSeamResolveReceive]

@[simp] theorem pairUp_fab (seam o t s) : (pairUp seam o t s).fab = s.fab := by simp [pairUp]

@[simp] theorem pairAll_fab (seam n s) : (pairAll seam n s).fab = s.fab := by
  induction n generalizing s with
  | zero => rfl
  | succ n ih =>
    unfold pairAll
    split
    · rfl
    · rw [ih, pairUp_fab]

@[simp] theorem execSeamResolvePoint_fab (boxId s) :
    (nextOf s (execSeamResolvePoint boxId s)).fab = s.fab := by
  unfold execSeamResolvePoint
  split <;> simp

@[simp] theorem countResolution_fab (outcome s) : (countResolution outcome s).fab = s.fab := by
  simp [countResolution]

@[simp] theorem execSeamRelease_fab (boxId s) : (nextOf s (execSeamRelease boxId s)).fab = s.fab := by
  simp only [execSeamRelease]
  (repeat' split) <;> simp

/-! ### The Starling ring -/

@[simp] theorem setHop_fab (h s) : (setHop h s).fab = s.fab := by simp [setHop]
@[simp] theorem relay_fab (d hd f s) : (relay d hd f s).fab = s.fab := by simp [relay]
@[simp] theorem countCrc_fab (d crcOk s) : (countCrc d crcOk s).fab = s.fab := by simp [countCrc]

@[simp] theorem hopScope_fab (d hd f take) (h : ∀ t, (take t).fab = t.fab) (s) :
    (hopScope d hd f take s).fab = s.fab := by
  simp [hopScope, h]

@[simp] theorem ringScope_fab (d hd f take) (h : ∀ t, (take t).fab = t.fab) (s) :
    (ringScope d hd f take s).fab = s.fab := by
  simp [ringScope, h]

@[simp] theorem noteHolder_fab (bar h s) : (noteHolder bar h s).fab = s.fab := by simp [noteHolder]
@[simp] theorem endRole_fab (s) : (endRole s).fab = s.fab := by simp [endRole]
@[simp] theorem startRole_fab (line s) : (startRole line s).fab = s.fab := by simp [startRole]

@[simp] theorem applyRole_fab (bar h s) : (applyRole bar h s).fab = s.fab := by
  simp only [applyRole]
  (repeat' split) <;> simp

@[simp] theorem sendRole_fab (bar s) : (sendRole bar s).fab = s.fab := by simp [sendRole]

@[simp] theorem follow_fab (s) : (follow s).fab = s.fab := by
  simp only [follow]
  split <;> simp

@[simp] theorem sendAgree_fab (s) : (sendAgree s).fab = s.fab := by simp [sendAgree]
@[simp] theorem newEpoch_fab (s) : (newEpoch s).fab = s.fab := by simp [newEpoch]
@[simp] theorem grantRoles_fab (s) : (grantRoles s).fab = s.fab := by simp [grantRoles]
@[simp] theorem endMaster_fab (s) : (endMaster s).fab = s.fab := by simp [endMaster]

@[simp] theorem yieldTo_fab (src s) : (yieldTo src s).fab = s.fab := by
  simp only [yieldTo]
  (repeat' split) <;> simp

@[simp] theorem checkDup_fab (src nonce s) : (checkDup src nonce s).fab = s.fab := by simp [checkDup]
@[simp] theorem noteMember_fab (id f s) : (noteMember id f s).fab = s.fab := by simp [noteMember]
@[simp] theorem noteEpoch_fab (e s) : (noteEpoch e s).fab = s.fab := by simp [noteEpoch]

@[simp] theorem publishDetour_fab (s) : (publishDetour s).fab = s.fab := by
  unfold publishDetour
  (repeat' split) <;> simp

@[simp] theorem takeEvent_fab (k src port subject s) : (takeEvent k src port subject s).fab = s.fab := by
  simp only [takeEvent]
  (repeat' split) <;> simp

@[simp] theorem raiseEvent_fab (k port subject s) : (raiseEvent k port subject s).fab = s.fab := by
  simp [raiseEvent]

@[simp] theorem execLinkSync_fab (side s) : (nextOf s (execLinkSync side s)).fab = s.fab := by
  simp [execLinkSync]

@[simp] theorem execLinkDown_fab (side s) : (nextOf s (execLinkDown side s)).fab = s.fab := by
  simp [execLinkDown]

@[simp] theorem execPortModeChange_fab (side s) : (nextOf s (execPortModeChange side s)).fab = s.fab := by
  unfold execPortModeChange
  split <;> simp

@[simp] theorem wantMode_fab (passive s) : (wantMode passive s).fab = s.fab :=
  foldl_fab _ (fun _ _ => onPort_fab ..) _ s

@[simp] theorem dropRoles_fab (s) : (dropRoles s).fab = s.fab := by
  simp only [dropRoles]
  split <;> simp

@[simp] theorem execEchoTimer_fab (side s) : (nextOf s (execEchoTimer side s)).fab = s.fab := by
  simp [execEchoTimer]

@[simp] theorem execEchoReceive_fab (side hd seq ret delay s) :
    (nextOf s (execEchoReceive side hd seq ret delay s)).fab = s.fab := by
  simp [execEchoReceive]

@[simp] theorem sendHello_fab (c s) : (sendHello c s).fab = s.fab := by simp [sendHello]

@[simp] theorem execHelloTimer_fab (s) : (nextOf s (execHelloTimer s)).fab = s.fab := by
  simp [execHelloTimer]

@[simp] theorem execHelloReceive_fab (side hd h s) :
    (nextOf s (execHelloReceive side hd h s)).fab = s.fab := by
  simp [execHelloReceive]

@[simp] theorem execNeighbourLost_fab (side s) : (nextOf s (execNeighbourLost side s)).fab = s.fab := by
  unfold execNeighbourLost
  split <;> simp

@[simp] theorem noteRing_fab (e s) : (noteRing e s).fab = s.fab := by
  unfold noteRing
  split <;> simp

@[simp] theorem execMemberTimer_fab (s) : (nextOf s (execMemberTimer s)).fab = s.fab := by
  simp [execMemberTimer]

@[simp] theorem noteLast_fab (bar last s) : (noteLast bar last s).fab = s.fab := by simp [noteLast]

@[simp] theorem execMemberReceive_fab (side hd m s) :
    (nextOf s (execMemberReceive side hd m s)).fab = s.fab := by
  simp [execMemberReceive]

@[simp] theorem execClaimTimer_fab (s) : (nextOf s (execClaimTimer s)).fab = s.fab := by
  simp [execClaimTimer]

@[simp] theorem execClaimReceive_fab (side hd nonce epoch s) :
    (nextOf s (execClaimReceive side hd nonce epoch s)).fab = s.fab := by
  simp [execClaimReceive]

@[simp] theorem execAgreeTimer_fab (s) : (nextOf s (execAgreeTimer s)).fab = s.fab := by
  simp [execAgreeTimer]

@[simp] theorem agreeBack_fab (nonce hop s) : (agreeBack nonce hop s).fab = s.fab := by
  simp only [agreeBack]
  (repeat' split) <;> simp

@[simp] theorem otherVersion_fab (src s) : (otherVersion src s).fab = s.fab := by
  unfold otherVersion
  split <;> simp

@[simp] theorem execAgreeReceive_fab (side hd a s) :
    (nextOf s (execAgreeReceive side hd a s)).fab = s.fab := by
  simp [execAgreeReceive]

@[simp] theorem execAgreeTimeout_fab (s) : (nextOf s (execAgreeTimeout s)).fab = s.fab := by
  simp [execAgreeTimeout]

@[simp] theorem execClaimWon_fab (s) : (nextOf s (execClaimWon s)).fab = s.fab := by simp [execClaimWon]
@[simp] theorem execRoleTimer_fab (s) : (nextOf s (execRoleTimer s)).fab = s.fab := by simp [execRoleTimer]

@[simp] theorem execRoleReceive_fab (side hd epoch bar holder s) :
    (nextOf s (execRoleReceive side hd epoch bar holder s)).fab = s.fab := by
  unfold execRoleReceive
  rw [nextOf_next]
  refine ringScope_fab side hd (.role epoch bar holder) _ (fun t => ?_) s
  split
  · rfl
  · dsimp only
    split <;> simp

@[simp] theorem execHandoverTimeout_fab (s) : (nextOf s (execHandoverTimeout s)).fab = s.fab := by
  unfold execHandoverTimeout
  (repeat' split) <;> simp

@[simp] theorem execMemberLineWait_fab (s) : (nextOf s (execMemberLineWait s)).fab = s.fab := by
  unfold execMemberLineWait
  (repeat' split) <;> simp

@[simp] theorem execDupIdClear_fab (s) : (nextOf s (execDupIdClear s)).fab = s.fab := by
  simp [execDupIdClear]

@[simp] theorem execStarlingEventReceive_fab (side hd k port subject s) :
    (nextOf s (execStarlingEventReceive side hd k port subject s)).fab = s.fab := by
  simp [execStarlingEventReceive]

@[simp] theorem relayTick_fab (d t detour s) : (relayTick d t detour s).fab = s.fab := by simp [relayTick]
@[simp] theorem takeTick_fab (t s) : (takeTick t s).fab = s.fab := by simp [takeTick]

@[simp] theorem execTickReceive_fab (side t s) : (nextOf s (execTickReceive side t s)).fab = s.fab := by
  simp only [execTickReceive]
  (repeat' split) <;> simp

@[simp] theorem sendTick_fab (line merge deferred encz s) :
    (sendTick line merge deferred encz s).fab = s.fab := by
  simp [sendTick]

@[simp] theorem drawNonce_fab (s) : (drawNonce s).fab = s.fab := by simp [drawNonce]
@[simp] theorem starReset_fab (s) : (starReset s).fab = s.fab := by simp [starReset]
@[simp] theorem starStart_fab (s) : (starStart s).fab = s.fab := by simp [starStart]
@[simp] theorem starCommit_fab (s) : (starCommit s).fab = s.fab := by simp [starCommit]
@[simp] theorem starSafe_fab (s) : (starSafe s).fab = s.fab := by simp [starSafe]
@[simp] theorem starSleep_fab (s) : (starSleep s).fab = s.fab := by simp [starSleep]
@[simp] theorem starWake_fab (s) : (starWake s).fab = s.fab := by simp [starWake]

@[simp] theorem reinitStartStarling_fab (s) : (reinitStartStarling s).fab = s.fab := by
  simp [reinitStartStarling]

@[simp] theorem reinitEndStarling_fab (s) : (reinitEndStarling s).fab = s.fab := by simp [reinitEndStarling]

/-! ### The line trigger -/

@[simp] theorem fillGap_fab (m s) : (fillGap m s).fab = s.fab := by simp [fillGap]
@[simp] theorem adaptAtTrigger_fab (s) : (adaptAtTrigger s).fab = s.fab := by simp [adaptAtTrigger]
@[simp] theorem gainCredits_fab (s) : (gainCredits s).fab = s.fab := by simp [gainCredits]
@[simp] theorem ltTrigger_fab (t s) : (ltTrigger t s).fab = s.fab := by simp [ltTrigger]

@[simp] theorem execStopDetect_fab (s) : (nextOf s (execStopDetect s)).fab = s.fab := by
  simp [execStopDetect]

/-! ### Resets and states -/

@[simp] theorem execPorEnd_fab (s) : (nextOf s (execPorEnd s)).fab = s.fab := by simp [execPorEnd]

@[simp] theorem execResetNRelease_fab (s) : (nextOf s (execResetNRelease s)).fab = s.fab := by
  simp [execResetNRelease]

@[simp] theorem restartBoot_fab (s) : (restartBoot s).fab = s.fab := by simp [restartBoot]

@[simp] theorem execSupervisorResume_fab (s) : (nextOf s (execSupervisorResume s)).fab = s.fab := by
  simp [execSupervisorResume]

@[simp] theorem execSecContextResume_fab (s) : (nextOf s (execSecContextResume s)).fab = s.fab := by
  simp [execSecContextResume]

@[simp] theorem execPwrcycTimeout_fab (s) : (nextOf s (execPwrcycTimeout s)).fab = s.fab := by
  simp [execPwrcycTimeout]

@[simp] theorem execHoldEntry_fab (s) : (nextOf s (execHoldEntry s)).fab = s.fab := by simp [execHoldEntry]

@[simp] theorem execWakeEvent_fab (w s) : (nextOf s (execWakeEvent w s)).fab = s.fab := by
  simp [execWakeEvent]

/-! ### Boot -/

@[simp] theorem toStage_fab (n s) : (toStage n s).fab = s.fab := by simp [toStage]
@[simp] theorem endBoot_fab (c s) : (endBoot c s).fab = s.fab := by simp [endBoot]

@[simp] theorem execSelfTestDone_fab (s) : (nextOf s (execSelfTestDone s)).fab = s.fab := by
  simp [execSelfTestDone]

@[simp] theorem execSpllLock_fab (s) : (nextOf s (execSpllLock s)).fab = s.fab := by simp [execSpllLock]

@[simp] theorem execSpllLockRetry_fab (s) : (nextOf s (execSpllLockRetry s)).fab = s.fab := by
  simp [execSpllLockRetry]

@[simp] theorem toFit_fab (s) : (toFit s).fab = s.fab := by simp [toFit]
@[simp] theorem zeroCounters_fab (s) : (zeroCounters s).fab = s.fab := by simp [zeroCounters]

/-! ### Registers -/

@[simp] theorem clearEncErr_fab (v s) : (clearEncErr v s).fab = s.fab := by simp [clearEncErr]
@[simp] theorem clearLimit_fab (v s) : (clearLimit v s).fab = s.fab := by simp [clearLimit]
@[simp] theorem clearWo_fab (v s) : (clearWo v s).fab = s.fab := by simp [clearWo]
@[simp] theorem rearmSummary_fab (v s) : (rearmSummary v s).fab = s.fab := by simp [rearmSummary]

@[simp] theorem execClearEncErrSticky_fab (v s) : (nextOf s (execClearEncErrSticky v s)).fab = s.fab := by
  simp [execClearEncErrSticky]

@[simp] theorem execClearLimitSticky_fab (v s) : (nextOf s (execClearLimitSticky v s)).fab = s.fab := by
  simp [execClearLimitSticky]

@[simp] theorem execClearWoViolation_fab (v s) : (nextOf s (execClearWoViolation v s)).fab = s.fab := by
  simp [execClearWoViolation]

@[simp] theorem execRearmFaultSummary_fab (v s) : (nextOf s (execRearmFaultSummary v s)).fab = s.fab := by
  simp [execRearmFaultSummary]

@[simp] theorem execClearIntStatus_fab (bank bits s) :
    (nextOf s (execClearIntStatus bank bits s)).fab = s.fab := by
  simp [execClearIntStatus]

@[simp] theorem writeBankReg_fab (b off v s) : (writeBankReg b off v s).1.fab = s.fab := by
  unfold writeBankReg
  split <;> simp

@[simp] theorem writeGpio_fab (off v s) : (writeGpio off v s).1.fab = s.fab := by
  unfold writeGpio
  (repeat' split) <;> simp

@[simp] theorem writeWord_fab (addr v s) : (writeWord addr v s).1.fab = s.fab := by
  unfold writeWord
  (repeat' split) <;> simp

@[simp] theorem writeWords_fab (vs a s) : (writeWords vs a s).1.fab = s.fab := by
  induction vs generalizing a s with
  | nil => rfl
  | cons v vs ih => exact (ih _ _).trans (writeWord_fab a _ s)

/-! ### The recovery ladder -/

end Sys2Proof.Machine

/-! SUPPORT. Operations that change the fabric but no Wren word (family 06_perch_fabric.md): `f_words` says that `f` keeps
the words of all 72 Wrens, in the order of the model's files. For O59. -/

namespace Sys2Proof.Machine

/-! ### The words of the Wrens -/

/-- The words of every Wren of the fabric. -/
def Fab.words (x : Fab) : Vector (List (Nat × WWord)) 72 :=
  x.perch.map fun y => y.wren.words

/-- They depend on no field of the fabric but its perches. -/
@[simp ↓] theorem words_mk (perch bypass spareOk repairAvail cnt wcnt repairLine repairLineHi repairLong refuseAt repair
    findings unmasked watch restart ctxLeft released tokSeq) :
    Fab.words ⟨perch, bypass, spareOk, repairAvail, cnt, wcnt, repairLine, repairLineHi, repairLong, refuseAt, repair,
      findings, unmasked, watch, restart, ctxLeft, released, tokSeq⟩ = perch.map fun y => y.wren.words := by rfl

@[simp] theorem map_perch_words (x : Fab) : (x.perch.map fun y => y.wren.words) = x.words := by rfl

/-- A change of one perch that leaves its words alone. -/
@[simp] theorem map_vmod_words {v : Vector Perch 72} {p : Fin 72} {f : Perch → Perch}
    (h : ∀ y, (f y).wren.words = y.wren.words) :
    ((vmod v p f).map fun y => y.wren.words) = v.map fun y => y.wren.words := by
  ext1 q hq
  by_cases e : (⟨q, hq⟩ : Fin 72) = p
  · subst e
    have changed := vmod_same v ⟨q, hq⟩ f
    simp only [Fin.getElem_fin] at changed
    simp [changed, h]
  · have kept := vmod_other v p ⟨q, hq⟩ f e
    simp only [Fin.getElem_fin] at kept
    simp [kept]

/-- A fabric whose perches are built one by one from those of `x`, each with its words. -/
@[simp] theorem words_comp {α : Type} (f : α → Perch) : (fun y : Perch => y.wren.words) ∘ f = fun p => (f p).wren.words := rfl

@[simp] theorem ofFn_words (x : Fab) : (Vector.ofFn fun p : Fin 72 => x.perch[p.val].wren.words) = x.words := by
  ext1 q hq
  rw [Vector.getElem_ofFn, Fab.words, Vector.getElem_map]

theorem map_ofFn_words {f : Fin 72 → Perch} {x : Fab} (h : ∀ p : Fin 72, (f p).wren = x.perch[p].wren) :
    ((Vector.ofFn f).map fun y => y.wren.words) = x.words := by
  simp [h]

@[simp] theorem words_ite (c : Prop) [Decidable c] (x y : Fab) :
    (if c then x else y).words = if c then x.words else y.words := apply_ite Fab.words c x y

@[simp] theorem foldl_words {β : Type} (f : State → β → State) (h : ∀ t x, (f t x).fab.words = t.fab.words) (l : List β)
    (s : State) : (l.foldl f s).fab.words = s.fab.words := by
  induction l generalizing s with
  | nil => rfl
  | cons x r ih => exact (ih _).trans (h s x)

theorem StageFrame.words_eq {p : Fin 72} {s t : State} (h : StageFrame p s t) : t.fab.words = s.fab.words := by
  ext1 q hq
  have same : t.fab.perch[q].wren = s.fab.perch[q].wren := by
    by_cases e : (⟨q, hq⟩ : Fin 72) = p
    · subst e
      have here := congrArg Perch.wren h.here
      exact here
    · exact congrArg Perch.wren (h.elsewhere ⟨q, hq⟩ e)
  rw [Fab.words, Fab.words, Vector.getElem_map, Vector.getElem_map, same]

/-! ### Perches -/

@[simp] theorem onPerch_words (p f) (h : ∀ x, (f x).wren.words = x.wren.words) (s) :
    (onPerch p f s).fab.words = s.fab.words := by
  simp [onPerch, h]

@[simp] theorem onRun_words (p f s) : (onRun p f s).fab.words = s.fab.words := by simp [onRun]
@[simp] theorem onStage_words (p v f s) : (onStage p v f s).fab.words = s.fab.words := by simp [onStage]
@[simp] theorem onWCnt_words (f s) : (onWCnt f s).fab.words = s.fab.words := by simp [onWCnt]

/-! ### Bundles -/

@[simp] theorem onIss_words (p f s) : (onIss p f s).fab.words = s.fab.words := by simp [onIss]
@[simp] theorem beginOp_words (p i s) : (beginOp p i s).fab.words = s.fab.words := by simp [beginOp]
@[simp] theorem onWork_words (p f s) : (onWork p f s).fab.words = s.fab.words := by simp [onWork]
@[simp] theorem noteOp_words (p i out s) : (noteOp p i out s).fab.words = s.fab.words := by simp [noteOp]

/-! ### Finch operations -/

/-- A stage operation writes no word. -/
theorem stageOn_words {p : Fin 72} {c : Instr} (h : StageOn p c) (s : State) :
    (nextOf s (exec c s)).fab.words = s.fab.words :=
  (stageOn_stageFrame h s).words_eq

@[simp] theorem execMvm_words (p v g f acc x s) : (nextOf s (execMvm p v g f acc x s)).fab.words = s.fab.words :=
  stageOn_words (p := p) (c := .mvm p v g f acc x) (by simp [StageOn]) s

@[simp] theorem execOpa_words (p v g f a b s) : (nextOf s (execOpa p v g f a b s)).fab.words = s.fab.words :=
  stageOn_words (p := p) (c := .opa p v g f a b) (by simp [StageOn]) s

@[simp] theorem execLmac_words (p v g f acc a b s) : (nextOf s (execLmac p v g f acc a b s)).fab.words = s.fab.words :=
  stageOn_words (p := p) (c := .lmac p v g f acc a b) (by simp [StageOn]) s

@[simp] theorem execAdd_words (p v g f a b d s) : (nextOf s (execAdd p v g f a b d s)).fab.words = s.fab.words :=
  stageOn_words (p := p) (c := .add p v g f a b d) (by simp [StageOn]) s

@[simp] theorem execSub_words (p v g f a b d s) : (nextOf s (execSub p v g f a b d s)).fab.words = s.fab.words :=
  stageOn_words (p := p) (c := .sub p v g f a b d) (by simp [StageOn]) s

@[simp] theorem execMul_words (p v g f a b d s) : (nextOf s (execMul p v g f a b d s)).fab.words = s.fab.words :=
  stageOn_words (p := p) (c := .mul p v g f a b d) (by simp [StageOn]) s

@[simp] theorem execMax_words (p v g f a b d s) : (nextOf s (execMax p v g f a b d s)).fab.words = s.fab.words :=
  stageOn_words (p := p) (c := .max p v g f a b d) (by simp [StageOn]) s

@[simp] theorem execMin_words (p v g f a b d s) : (nextOf s (execMin p v g f a b d s)).fab.words = s.fab.words :=
  stageOn_words (p := p) (c := .min p v g f a b d) (by simp [StageOn]) s

@[simp] theorem execRq_words (p v g f acc d s) : (nextOf s (execRq p v g f acc d s)).fab.words = s.fab.words :=
  stageOn_words (p := p) (c := .rq p v g f acc d) (by simp [StageOn]) s

@[simp] theorem execLut_words (p v g w x s) : (nextOf s (execLut p v g w x s)).fab.words = s.fab.words :=
  stageOn_words (p := p) (c := .lut p v g w x) (by simp [StageOn]) s

@[simp] theorem execCmp_words (p v g f o a b m s) : (nextOf s (execCmp p v g f o a b m s)).fab.words = s.fab.words :=
  stageOn_words (p := p) (c := .cmp p v g f o a b m) (by simp [StageOn]) s

@[simp] theorem execPlog_words (p v g o s) : (nextOf s (execPlog p v g o s)).fab.words = s.fab.words :=
  stageOn_words (p := p) (c := .plog p v g o) (by simp [StageOn]) s

@[simp] theorem execSel_words (p v g m a b d s f) : (nextOf s (execSel p v g m a b d s f)).fab.words = s.fab.words :=
  stageOn_words (p := p) (c := .sel p v g m a b d f) (by simp [StageOn]) s

@[simp] theorem execShf_words (p v g k x d s f) : (nextOf s (execShf p v g k x d s f)).fab.words = s.fab.words :=
  stageOn_words (p := p) (c := .shf p v g k x d f) (by simp [StageOn]) s

@[simp] theorem execRed_words (p v g f w x d s) : (nextOf s (execRed p v g f w x d s)).fab.words = s.fab.words :=
  stageOn_words (p := p) (c := .red p v g f w x d) (by simp [StageOn]) s

@[simp] theorem execAclr_words (p v g m s) : (nextOf s (execAclr p v g m s)).fab.words = s.fab.words :=
  stageOn_words (p := p) (c := .aclr p v g m) (by simp [StageOn]) s

@[simp] theorem execAmov_words (p v g a b s) : (nextOf s (execAmov p v g a b s)).fab.words = s.fab.words :=
  stageOn_words (p := p) (c := .amov p v g a b) (by simp [StageOn]) s

/-! ### Wren words -/

@[simp] theorem unmask_words (s) : (unmask s).fab.words = s.fab.words := by simp [unmask]
@[simp] theorem finding_words (p s) : (finding p s).fab.words = s.fab.words := by simp [finding]
@[simp] theorem degradeBeat_words (p s) : (degradeBeat p s).fab.words = s.fab.words := by simp [degradeBeat]
@[simp] theorem queueWb_words (p a w s) : (queueWb p a w s).fab.words = s.fab.words := by simp [queueWb]

@[simp] theorem residentLost_words (p a s) : (residentLost p a s).fab.words = s.fab.words := by
  unfold residentLost
  split <;> simp

@[simp] theorem wrenCorrected_words (code s) : (wrenCorrected code s).fab.words = s.fab.words := by simp [wrenCorrected]
@[simp] theorem wrenLost_words (code s) : (wrenLost code s).fab.words = s.fab.words := by simp [wrenLost]
@[simp] theorem poisonRead_words (s) : (poisonRead s).fab.words = s.fab.words := by simp [poisonRead]
@[simp] theorem stepAg_words (p ag n s) : (stepAg p ag n s).fab.words = s.fab.words := by simp [stepAg]

@[simp] theorem loadInput_words (p g ag fi ws s) : (loadInput p g ag fi ws s).fab.words = s.fab.words := by
  simp [loadInput]

@[simp] theorem loadTile_words (p v g ag half fi ws s) : (loadTile p v g ag half fi ws s).fab.words = s.fab.words := by
  simp [loadTile]

@[simp] theorem blocked_words (p s) : (blocked p s).fab.words = s.fab.words := by simp [blocked]
@[simp] theorem putStall_words (p dir b s) : (putStall p dir b s).fab.words = s.fab.words := by simp [putStall]

@[simp] theorem execPut_words (p g dir o unit ac src s) :
    (nextOf s (execPut p g dir o unit ac src s)).fab.words = s.fab.words := by
  unfold execPut
  split <;> simp

@[simp] theorem enqueueNb_words (p owner dir s) : (enqueueNb p owner dir s).fab.words = s.fab.words := by
  unfold enqueueNb
  split <;> simp

@[simp] theorem crossRequest_words (p owner dir parity s) :
    (crossRequest p owner dir parity s).fab.words = s.fab.words := by
  unfold crossRequest
  split <;> simp

@[simp] theorem execNbwRequest_words (p dir s parity) :
    (nextOf s (execNbwRequest p dir s parity)).fab.words = s.fab.words := by
  unfold execNbwRequest
  split <;> simp

@[simp] theorem unstall_words (p s) : (unstall p s).fab.words = s.fab.words := by simp [unstall]

@[simp] theorem releasePut_words (owner port s) : (releasePut owner port s).fab.words = s.fab.words := by
  unfold releasePut
  split <;> simp

@[simp] theorem checkRequest_words (owner e q s) : (checkRequest owner e q s).2.fab.words = s.fab.words := by
  unfold checkRequest
  split <;> simp

@[simp] theorem execNbwAccept_words (p port ecc s) : (nextOf s (execNbwAccept p port ecc s)).fab.words = s.fab.words := by
  unfold execNbwAccept
  split <;> simp

@[simp] theorem creditFault_words (p s) : (creditFault p s).fab.words = s.fab.words := by simp [creditFault]
@[simp] theorem countArrival_words (p k s) : (countArrival p k s).fab.words = s.fab.words := by simp [countArrival]
@[simp] theorem completeWait_words (p s) : (completeWait p s).fab.words = s.fab.words := by simp [completeWait]
@[simp] theorem clearTag_words (s) : (clearTag s).fab.words = s.fab.words := by simp [clearTag]
@[simp] theorem retentionFailed_words (p s) : (retentionFailed p s).fab.words = s.fab.words := by simp [retentionFailed]
@[simp] theorem setTag_words (m s) : (setTag m s).fab.words = s.fab.words := by simp [setTag]

/-! ### Runners -/

@[simp] theorem countVoidPoison_words (t s) : (countVoidPoison t s).fab.words = s.fab.words := by simp [countVoidPoison]
@[simp] theorem moved_words (q link ch s) : (moved q link ch s).fab.words = s.fab.words := by simp [moved]
@[simp] theorem notePeak_words (p s) : (notePeak p s).fab.words = s.fab.words := by simp [notePeak]
@[simp] theorem dropToken_words (p s) : (dropToken p s).fab.words = s.fab.words := by simp [dropToken]
@[simp] theorem spill_words (p dir front t s) : (spill p dir front t s).fab.words = s.fab.words := by simp [spill]
@[simp] theorem takeCredit_words (p dir t s) : (takeCredit p dir t s).fab.words = s.fab.words := by simp [takeCredit]
@[simp] theorem sendStatic_words (p dir t s) : (sendStatic p dir t s).fab.words = s.fab.words := by simp [sendStatic]
@[simp] theorem sendElastic_words (p dir t s) : (sendElastic p dir t s).fab.words = s.fab.words := by simp [sendElastic]

@[simp] theorem execSend_words (p g dir ch tag src s) :
    (nextOf s (execSend p g dir ch tag src s)).fab.words = s.fab.words := by
  unfold execSend
  (repeat' split) <;> simp

@[simp] theorem releaseSend_words (p s) : (releaseSend p s).fab.words = s.fab.words := by simp [releaseSend]
@[simp] theorem dequeue_words (q link ch s) : (dequeue q link ch s).fab.words = s.fab.words := by simp [dequeue]

@[simp] theorem returnCredit_words (q link ch s) : (returnCredit q link ch s).fab.words = s.fab.words := by
  unfold returnCredit
  split <;> simp

@[simp] theorem logToken_words (q t s) : (logToken q t s).fab.words = s.fab.words := by simp [logToken]

@[simp] theorem writeToken_words (q t pd mark s) : (writeToken q t pd mark s).fab.words = s.fab.words := by
  unfold writeToken
  split <;> simp

@[simp] theorem takeToken_words (q link ch t write pd mark s) :
    (takeToken q link ch t write pd mark s).fab.words = s.fab.words := by
  simp [takeToken]

@[simp] theorem recvStatic_words (q link ch write pd mark s) :
    (recvStatic q link ch write pd mark s).fab.words = s.fab.words := by
  unfold recvStatic
  split <;> simp

@[simp] theorem recvElastic_words (q link ch pd mark s) : (recvElastic q link ch pd mark s).fab.words = s.fab.words := by
  unfold recvElastic
  (repeat' split) <;> simp

@[simp] theorem execRecv_words (p g link ch pd s) : (nextOf s (execRecv p g link ch pd s)).fab.words = s.fab.words := by
  unfold execRecv
  (repeat' split) <;> simp

@[simp] theorem releaseRecv_words (q link ch s) : (releaseRecv q link ch s).fab.words = s.fab.words := by
  unfold releaseRecv
  split <;> simp

@[simp] theorem execEgr_words (p g tag src s) : (nextOf s (execEgr p g tag src s)).fab.words = s.fab.words := by
  simp [execEgr]

@[simp] theorem execWait_words (p k n s) : (nextOf s (execWait p k n s)).fab.words = s.fab.words := by simp [execWait]

@[simp] theorem execLinkTransfer_words (p dir s) : (nextOf s (execLinkTransfer p dir s)).fab.words = s.fab.words := by
  simp only [execLinkTransfer]
  (repeat' split) <;> simp

@[simp] theorem deliver_words (q link t s) : (deliver q link t s).fab.words = s.fab.words := by simp [deliver]
@[simp] theorem clearLink_words (p dir s) : (clearLink p dir s).fab.words = s.fab.words := by simp [clearLink]

@[simp] theorem execTokenReceive_words (p dir parityOk s) :
    (nextOf s (execTokenReceive p dir parityOk s)).fab.words = s.fab.words := by
  unfold execTokenReceive
  split <;> simp

@[simp] theorem execTokenResend_words (p dir parityOk s) :
    (nextOf s (execTokenResend p dir parityOk s)).fab.words = s.fab.words := by
  unfold execTokenResend
  split <;> simp

@[simp] theorem execCreditReturn_words (p dir ch parityOk s) :
    (nextOf s (execCreditReturn p dir ch parityOk s)).fab.words = s.fab.words := by
  simp [execCreditReturn]

@[simp] theorem execCreditResync_words (p link ch s) :
    (nextOf s (execCreditResync p link ch s)).fab.words = s.fab.words := by
  unfold execCreditResync
  split <;> simp

@[simp] theorem execSendCreditTimeout_words (p s) : (nextOf s (execSendCreditTimeout p s)).fab.words = s.fab.words := by
  simp only [execSendCreditTimeout]
  (repeat' split) <;> simp

@[simp] theorem execWaitTimeout_words (p s) : (nextOf s (execWaitTimeout p s)).fab.words = s.fab.words := by
  simp [execWaitTimeout]

@[simp] theorem spillBuffer_words (p d s) : (spillBuffer p d s).fab.words = s.fab.words :=
  (foldl_words _ (fun _ _ => spill_words _ _ _ _ _) _ _).trans (onRun_words _ _ s)

@[simp] theorem execElasticWatchFire_words (grp s) : (nextOf s (execElasticWatchFire grp s)).fab.words = s.fab.words := by
  simp [execElasticWatchFire]

@[simp] theorem clearRunners_words (s) : (clearRunners s).fab.words = s.fab.words := by simp [clearRunners]

/-! ### The check tithe -/

@[simp] theorem nextSlice_words (p s) : (nextSlice p s).fab.words = s.fab.words := by simp [nextSlice]
@[simp] theorem skipTithe_words (p s) : (skipTithe p s).fab.words = s.fab.words := by simp [skipTithe]

@[simp] theorem execTitheSnapshot_words (p s) : (nextOf s (execTitheSnapshot p s)).fab.words = s.fab.words := by
  simp [execTitheSnapshot]

@[simp] theorem stageAgain_words (p i s) : (nextOf s (stageAgain p i s)).fab.words = s.fab.words := by
  unfold stageAgain
  split <;> simp

@[simp] theorem storeAgain_words (p g ag src n i s) : (storeAgain p g ag src n i s).fab.words = s.fab.words := by
  simp [storeAgain]

@[simp] theorem popToken_words (p s) : (popToken p s).fab.words = s.fab.words := by simp [popToken]

@[simp] theorem recvAgain_words (p g link ch pd i s) : (recvAgain p g link ch pd i s).fab.words = s.fab.words := by
  unfold recvAgain
  (repeat' split) <;> simp

@[simp] theorem mouldAgain_words (p m s) : (mouldAgain p m s).fab.words = s.fab.words := by simp [mouldAgain]
@[simp] theorem rewind_words (p q w s) : (rewind p q w s).fab.words = s.fab.words := by simp [rewind]
@[simp] theorem unwind_words (p s t) : (unwind p s t).fab.words = t.fab.words := by simp [unwind]

@[simp] theorem judgeFinch_words (f slice checker s) : (judgeFinch f slice checker s).fab.words = s.fab.words := by
  simp [judgeFinch]

@[simp] theorem endFinding_words (f s) : (endFinding f s).fab.words = s.fab.words := by
  simp only [endFinding]
  split <;> simp

@[simp] theorem clearFinding_words (checker slice s) : (clearFinding checker slice s).fab.words = s.fab.words := by
  simp [clearFinding]

@[simp] theorem arbitrate_words (checked checker arbiter slice own re arb s) :
    (arbitrate checked checker arbiter slice own re arb s).fab.words = s.fab.words := by
  simp [arbitrate]

@[simp] theorem storeFinding_words (west store s) : (storeFinding west store s).fab.words = s.fab.words := by
  unfold storeFinding
  split <;> simp

@[simp] theorem closeTithe_words (p sigs s) : (closeTithe p sigs s).fab.words = s.fab.words := by
  unfold closeTithe
  split <;> simp

/-! ### The fabric -/

@[simp] theorem overrun_words (p s) : (overrun p s).fab.words = s.fab.words := by simp [overrun]

@[simp] theorem loadEventInputs_words (p l s) : (loadEventInputs p l s).fab.words = s.fab.words := by
  simp [loadEventInputs]

@[simp] theorem countToken_words (l s) : (countToken l s).fab.words = s.fab.words := by simp [countToken]
@[simp] theorem beginBeat_wren (l late two serves x) : (beginBeat l late two serves x).wren = x.wren := rfl

@[simp] theorem startBeat_words (p l late s) : (startBeat p l late s).fab.words = s.fab.words := by
  simp only [startBeat, loadEventInputs_words, fab_ite, words_ite, skipTithe_words, ite_self]
  rw [onPerch_words _ _ fun y => congrArg Wren.words (beginBeat_wren _ _ _ _ y)]
  simp [fab_ite]

@[simp] theorem holdToken_words (p l s) : (holdToken p l s).fab.words = s.fab.words := by simp [holdToken]

@[simp] theorem execBeatStart_words (p late slip s) :
    (nextOf s (execBeatStart p late slip s)).fab.words = s.fab.words := by
  simp only [execBeatStart]
  (repeat' split) <;> simp

@[simp] theorem perchFails_words (p s) : (perchFails p s).fab.words = s.fab.words := by simp [perchFails]

@[simp] theorem execLagTimeout_words (p s) : (nextOf s (execLagTimeout p s)).fab.words = s.fab.words := by
  simp [execLagTimeout]

@[simp] theorem execMouldStart_words (p overrun s) : (nextOf s (execMouldStart p overrun s)).fab.words = s.fab.words := by
  simp [execMouldStart]

@[simp] theorem execFloorWindow_words (p cycles s) : (nextOf s (execFloorWindow p cycles s)).fab.words = s.fab.words := by
  simp [execFloorWindow]

@[simp] theorem abortRepair_words (s) : (abortRepair s).fab.words = s.fab.words := by
  unfold abortRepair
  split <;> simp

@[simp] theorem execSpareSelfTest_words (failed s) : (nextOf s (execSpareSelfTest failed s)).fab.words = s.fab.words := by
  simp only [execSpareSelfTest]
  (repeat' split) <;> simp

@[simp] theorem skipBeats_words (rep keep s) : (skipBeats rep keep s).fab.words = s.fab.words := by simp [skipBeats]
@[simp] theorem fabricRestart_words (s) : (fabricRestart s).fab.words = s.fab.words := by simp [fabricRestart]
@[simp] theorem clearFinches_words (s) : (clearFinches s).fab.words = s.fab.words := by simp [clearFinches]
@[simp] theorem abortBeats_words (s) : (abortBeats s).fab.words = s.fab.words := by simp [abortBeats]
@[simp] theorem stopBeats_words (s) : (stopBeats s).fab.words = s.fab.words := by simp [stopBeats]
@[simp] theorem powerPerches_words (s) : (powerPerches s).fab.words = s.fab.words := by simp [powerPerches]
@[simp] theorem fabRun_words (s) : (fabRun s).fab.words = s.fab.words := by simp [fabRun]

/-! ### Column repair -/

@[simp] theorem powerColumn_words (c on s) : (powerColumn c on s).fab.words = s.fab.words := by
  unfold powerColumn
  refine map_ofFn_words (x := s.fab) fun p => ?_
  dsimp only
  rw [apply_ite Perch.wren, ite_self]

@[simp] theorem execRepairStart_words (s) : (nextOf s (execRepairStart s)).fab.words = s.fab.words := by
  unfold execRepairStart
  split
  · rfl
  · split
    · rfl
    · rw [nextOf_next, words_mk, map_perch_words]
      simp

@[simp] theorem countRetention_words (s) : (countRetention s).fab.words = s.fab.words := by simp [countRetention]

/-! ### Other blocks that touch the fabric -/

@[simp] theorem restoreMaps_words (s) : (restoreMaps s).fab.words = s.fab.words := by
  simp only [restoreMaps]
  split <;> simp

@[simp] theorem crossingFaults_words (parity s) : (crossingFaults parity s).fab.words = s.fab.words := by
  simp [crossingFaults]

@[simp] theorem receiveEgress_words (p parity t s) : (receiveEgress p parity t s).2.fab.words = s.fab.words := by
  unfold receiveEgress
  split <;> simp

@[simp] theorem execSprueToken_words (row col parity s) :
    (nextOf s (execSprueToken row col parity s)).fab.words = s.fab.words := by
  simp only [execSprueToken]
  split <;> simp

@[simp] theorem trigger_words (t s) : (trigger t s).fab.words = s.fab.words := by simp [trigger]
@[simp] theorem tickTrigger_words (t s) : (tickTrigger t s).fab.words = s.fab.words := by simp [tickTrigger]

@[simp] theorem requestTrigger_words (merged s) : (requestTrigger merged s).fab.words = s.fab.words := by
  simp [requestTrigger]

@[simp] theorem execLineTrigger_words (s) : (nextOf s (execLineTrigger s)).fab.words = s.fab.words := by
  unfold execLineTrigger
  (repeat' split) <;> simp

@[simp] theorem execDeferredTrigger_words (s) : (nextOf s (execDeferredTrigger s)).fab.words = s.fab.words := by
  unfold execDeferredTrigger
  (repeat' split) <;> simp

@[simp] theorem latchRead_words (addr s) : (latchRead addr s).fab.words = s.fab.words := by
  unfold latchRead
  split <;> simp

@[simp] theorem regWords_words (n a s) : (regWords n a s).2.fab.words = s.fab.words := by
  induction n generalizing a s with
  | zero => rfl
  | succ n ih => exact (ih _ _).trans (latchRead_words a s)

@[simp] theorem execLatchedPairRead_words (addr s) : (nextOf s (execLatchedPairRead addr s)).fab.words = s.fab.words := by
  simp [execLatchedPairRead]

@[simp] theorem execLogMapsRestored_words (s) : (nextOf s (execLogMapsRestored s)).fab.words = s.fab.words := by
  simp [execLogMapsRestored]

end Sys2Proof.Machine

/-! SUPPORT. Operations that write Wren words (family 06_perch_fabric.md): `f_wordsCanonical` says that `f` keeps the words
of every Wren in their canonical form. For O59. -/

namespace Sys2Proof.Machine

/-! ### Canonical words -/

/-- The words of every Wren are in their canonical form. -/
def WordsCanonical (w : Vector (List (Nat × WWord)) 72) : Prop :=
  ∀ p : Fin 72, Sparse.wf WWord.reset w[p] = true

theorem words_getElem (x : Fab) (p : Fin 72) : x.words[p] = x.perch[p].wren.words :=
  Vector.getElem_map ..

theorem wordsCanonical_iff {s : State} : WordsCanonical s.fab.words ↔ ∀ p : Fin 72, CanonicalWren s p := by
  simp only [WordsCanonical, words_getElem]

/-- A change of one perch that keeps its words canonical. -/
theorem wordsCanonical_vmod {x : Fab} (p : Fin 72) {f : Perch → Perch}
    (hf : ∀ y : Perch, Sparse.wf WWord.reset y.wren.words = true → Sparse.wf WWord.reset (f y).wren.words = true)
    (h : WordsCanonical x.words) : WordsCanonical ((vmod x.perch p f).map fun y => y.wren.words) := by
  intro q
  have before := h q
  rw [words_getElem] at before
  rw [Fin.getElem_fin, Vector.getElem_map]
  by_cases e : q = p
  · subst e
    exact (vmod_same x.perch q f).symm ▸ hf _ before
  · exact (vmod_other x.perch p q f e).symm ▸ before

/-- A change of every perch that keeps its words canonical. -/
theorem wordsCanonical_map {x : Fab} {f : Perch → Perch}
    (hf : ∀ y : Perch, Sparse.wf WWord.reset y.wren.words = true → Sparse.wf WWord.reset (f y).wren.words = true)
    (h : WordsCanonical x.words) : WordsCanonical ((x.perch.map f).map fun y => y.wren.words) := by
  intro q
  have before := h q
  rw [words_getElem] at before
  simpa using hf _ before

@[simp] theorem onWren_wordsCanonical {s : State} (p : Fin 72) {f : Wren → Wren}
    (hf : ∀ w : Wren, Sparse.wf WWord.reset w.words = true → Sparse.wf WWord.reset (f w).words = true)
    (h : WordsCanonical s.fab.words) : WordsCanonical (onWren p f s).fab.words :=
  wordsCanonical_vmod p (fun y => hf y.wren) h

theorem foldl_wordsCanonical {β : Type} {s : State} (f : State → β → State)
    (hf : ∀ t x, WordsCanonical t.fab.words → WordsCanonical (f t x).fab.words) (l : List β)
    (h : WordsCanonical s.fab.words) : WordsCanonical (l.foldl f s).fab.words :=
  List.foldlRecOn (motive := fun t : State => WordsCanonical t.fab.words) l f h fun t ht x _ => hf t x ht

@[simp] theorem wordsCanonical_ite (c : Prop) [Decidable c] (x y : Vector (List (Nat × WWord)) 72) :
    WordsCanonical (if c then x else y) = if c then WordsCanonical x else WordsCanonical y :=
  apply_ite WordsCanonical c x y

/-- Stores of a whole list of words, each in canonical form, keep the form. -/
theorem foldl_write_wf {β : Type} {m : List (Nat × WWord)} (f : List (Nat × WWord) → β → List (Nat × WWord))
    (hf : ∀ m b, Sparse.wf WWord.reset m = true → Sparse.wf WWord.reset (f m b) = true) (l : List β)
    (h : Sparse.wf WWord.reset m = true) : Sparse.wf WWord.reset (l.foldl f m) = true :=
  List.foldlRecOn (motive := fun m => Sparse.wf WWord.reset m = true) l f h fun m hm b _ => hf m b hm

/-- Words left out of a canonical list leave it canonical. -/
theorem wfAbove_filter {α : Type} [DecidableEq α] {d : α} (keep : Nat × α → Bool) {lo : Nat} {m : List (Nat × α)}
    (h : Sparse.wfAbove d lo m = true) : Sparse.wfAbove d lo (m.filter keep) = true := by
  induction m generalizing lo with
  | nil => rfl
  | cons c r ih =>
    obtain ⟨a, v⟩ := c
    obtain ⟨ha, hv, hr⟩ := wfAbove_cons.mp h
    rw [List.filter_cons]
    split
    · exact wfAbove_cons.mpr ⟨ha, hv, ih hr⟩
    · exact wfAbove_of_le (Nat.le_succ_of_le ha) (ih hr)

/-! ### Writes of one Wren -/

theorem setWord_wf (a d) {x : Wren} (h : Sparse.wf WWord.reset x.words = true) :
    Sparse.wf WWord.reset (setWord a d x).words = true :=
  sparse_write_wf _ _ h

theorem landWord_wf (base d) {x : Wren} (h : Sparse.wf WWord.reset x.words = true) :
    Sparse.wf WWord.reset (landWord base x d).words = true := by
  unfold landWord
  split
  · exact setWord_wf _ _ h
  · exact h

theorem landIngress_wf {x : Wren} (h : Sparse.wf WWord.reset x.words = true) :
    Sparse.wf WWord.reset (landIngress x).words = true := by
  cases queued : x.ingQ with
  | nil => rwa [landIngress_nil queued]
  | cons w rest =>
    rw [landIngress_cons queued]
    exact List.foldlRecOn (motive := fun y : Wren => Sparse.wf WWord.reset y.words = true) _ _ h
      fun _ hy d _ => landWord_wf _ d hy

theorem takeIngress_wf (w) {x : Wren} (h : Sparse.wf WWord.reset x.words = true) :
    Sparse.wf WWord.reset (takeIngress x w).words = true := by
  unfold takeIngress
  dsimp only
  split
  · exact h
  · exact landIngress_wf h

theorem poisonWords_wf (ws) {x : Wren} (h : Sparse.wf WWord.reset x.words = true) :
    Sparse.wf WWord.reset (poisonWords ws x).words = true := by
  unfold poisonWords
  refine foldl_write_wf _ (fun m a hm => ?_) _ h
  split
  · exact hm
  · exact sparse_write_wf _ _ hm

/-! ### Operations that write words

Each keeps the words of every Wren canonical. -/

section
variable {s : State} (h : WordsCanonical s.fab.words)
include h

@[simp] theorem putWord_wordsCanonical (p a w) : WordsCanonical (putWord p a w s).fab.words :=
  wordsCanonical_iff.mpr fun q => putWord_canonical (wordsCanonical_iff.mp h q) a w

@[simp] theorem putWords_wordsCanonical (p as ws) : WordsCanonical (putWords p as ws s).fab.words :=
  wordsCanonical_iff.mpr fun q => putWords_canonical as ws (wordsCanonical_iff.mp h q)

@[simp] theorem poisonLine_wordsCanonical (n f) : WordsCanonical (poisonLine n f s).fab.words :=
  foldl_wordsCanonical _ (fun _ _ => wordsCanonical_vmod _ fun _ => poisonWords_wf _) _ h

@[simp] theorem capture_wordsCanonical (o parity r c) : WordsCanonical (capture o parity r c s).fab.words := by
  refine wordsCanonical_vmod _ (fun y hy => ?_) h
  exact List.foldlRecOn (motive := fun x : Wren => Sparse.wf WWord.reset x.words = true) _ _ hy
    fun _ hx w _ => takeIngress_wf w hx

@[simp] theorem execLadleLineComplete_wordsCanonical (reg) :
    WordsCanonical (nextOf s (execLadleLineComplete reg s)).fab.words := by
  unfold execLadleLineComplete
  split <;> simp [h]

@[simp] theorem execLadleHalvesDisagree_wordsCanonical :
    WordsCanonical (nextOf s (execLadleHalvesDisagree s)).fab.words := by
  unfold execLadleHalvesDisagree
  (repeat' split) <;> simp [h]

@[simp] theorem broadcast_wordsCanonical (o parity) : WordsCanonical (broadcast o parity s).fab.words := by
  rw [broadcast, crossingFaults_words]
  exact foldl_wordsCanonical _ (fun _ _ ht => capture_wordsCanonical ht _ _ _ _) _ (by simp [h])

@[simp] theorem execIngressLine_wordsCanonical (parity) :
    WordsCanonical (nextOf s (execIngressLine s parity)).fab.words := by
  unfold execIngressLine
  (repeat' split) <;> simp [h]

@[simp] theorem readWord_wordsCanonical (p a e) : WordsCanonical (readWord p a e s).2.fab.words := by
  simp only [readWord]
  (repeat' split) <;> simp [h]

@[simp] theorem readWords_wordsCanonical (p as es) : WordsCanonical (readWords p as es s).2.fab.words := by
  induction as generalizing es s with
  | nil => exact h
  | cons a r ih => exact ih (readWord_wordsCanonical h p a _) es.tail

@[simp] theorem execLdw_wordsCanonical (p g ag ecc) : WordsCanonical (nextOf s (execLdw p g ag ecc s)).fab.words := by
  simp [execLdw, h]

@[simp] theorem execLdn_wordsCanonical (p g ag ecc) : WordsCanonical (nextOf s (execLdn p g ag ecc s)).fab.words := by
  simp [execLdn, h]

@[simp] theorem execLdt_wordsCanonical (p v g ag half ecc) :
    WordsCanonical (nextOf s (execLdt p v g ag half ecc s)).fab.words := by
  simp [execLdt, h]

@[simp] theorem storeWords_wordsCanonical (p as d) : WordsCanonical (storeWords p as d s).fab.words := by
  unfold storeWords
  split <;> simp [h]

@[simp] theorem storeOp_wordsCanonical (p g ag src n i) : WordsCanonical (storeOp p g ag src n i s).fab.words := by
  simp [storeOp, h]

@[simp] theorem execStw_wordsCanonical (p g ag src) : WordsCanonical (nextOf s (execStw p g ag src s)).fab.words := by
  simp [execStw, h]

@[simp] theorem execStn_wordsCanonical (p g ag src) : WordsCanonical (nextOf s (execStn p g ag src s)).fab.words := by
  simp [execStn, h]

@[simp] theorem execNbwLand_wordsCanonical (p) : WordsCanonical (nextOf s (execNbwLand p s)).fab.words := by
  unfold execNbwLand
  split <;> simp [h]

@[simp] theorem execIngressWordWrite_wordsCanonical (p) :
    WordsCanonical (nextOf s (execIngressWordWrite p s)).fab.words :=
  onWren_wordsCanonical p (fun _ => landIngress_wf) h

@[simp] theorem writeBack_wordsCanonical (p) : WordsCanonical (writeBack p s).fab.words := by
  unfold writeBack
  split <;> simp [h]

@[simp] theorem execCorrectionWriteback_wordsCanonical (p) :
    WordsCanonical (nextOf s (execCorrectionWriteback p s)).fab.words := by
  simp [execCorrectionWriteback, h]

@[simp] theorem spillToken_wordsCanonical (p) : WordsCanonical (spillToken p s).fab.words := by
  unfold spillToken
  split <;> simp [h]

@[simp] theorem spillOnce_wordsCanonical (p) : WordsCanonical (spillOnce p s).fab.words :=
  foldl_wordsCanonical _ (fun _ _ ht => spillToken_wordsCanonical ht p) _ h

@[simp] theorem execSpillWrite_wordsCanonical (p) : WordsCanonical (nextOf s (execSpillWrite p s)).fab.words := by
  simp [execSpillWrite, h]

@[simp] theorem loaderRow_wordsCanonical (p g row) : WordsCanonical (loaderRow p g row s).fab.words := by
  simp [loaderRow, h]

@[simp] theorem execLoaderWrite_wordsCanonical (p rgn row) :
    WordsCanonical (nextOf s (execLoaderWrite p rgn row s)).fab.words := by
  unfold execLoaderWrite
  split <;> simp [h]

@[simp] theorem execForcedSlot_wordsCanonical (p) : WordsCanonical (nextOf s (execForcedSlot p s)).fab.words := by
  unfold execForcedSlot
  (repeat' split) <;> simp [h]

@[simp] theorem execWrenScrubRow_wordsCanonical (p ecc) :
    WordsCanonical (nextOf s (execWrenScrubRow p ecc s)).fab.words := by
  simp [execWrenScrubRow, h]

@[simp] theorem loadRegion_wordsCanonical (m slot p g) : WordsCanonical (loadRegion m slot p g s).fab.words := by
  simp [loadRegion, h]

@[simp] theorem loadWren_wordsCanonical (m slot p) : WordsCanonical (loadWren m slot p s).fab.words :=
  onWren_wordsCanonical p (fun _ hw => hw)
    (foldl_wordsCanonical _ (fun _ _ ht => loadRegion_wordsCanonical ht _ _ _ _) _ h)

@[simp] theorem foldl_loadWren_wordsCanonical (m slot l) :
    WordsCanonical (List.foldl (fun t p => loadWren m slot p t) s l).fab.words :=
  foldl_wordsCanonical _ (fun _ _ ht => loadWren_wordsCanonical ht _ _ _) _ h

@[simp] theorem stageResident_wordsCanonical (m slot) : WordsCanonical (stageResident m slot s).fab.words := by
  simp [stageResident, h]

@[simp] theorem retentionReads_wordsCanonical (m p found) :
    WordsCanonical (retentionReads m p found s).fab.words := by
  refine foldl_wordsCanonical _ (fun t e ht => ?_) _ h
  split
  · exact readWord_wordsCanonical ht _ _ _
  · exact ht

@[simp] theorem rewriteEnds_wordsCanonical (p g) : WordsCanonical (rewriteEnds p g s).fab.words := by
  simp [rewriteEnds, h]

@[simp] theorem execResidentRewriteDone_wordsCanonical (p) :
    WordsCanonical (nextOf s (execResidentRewriteDone p s)).fab.words := by
  unfold execResidentRewriteDone
  (repeat' split) <;> simp [h]

/-- Zeroed words leave the list (R276). -/
@[simp] theorem zeroStreaming_wordsCanonical (m) : WordsCanonical (zeroStreaming m s).fab.words := by
  intro p
  rw [words_getElem]
  have before := wordsCanonical_iff.mp h p
  simpa [zeroStreaming, Sparse.wf] using wfAbove_filter _ before

@[simp] theorem execRiserRead_wordsCanonical (p dir ch ecc) :
    WordsCanonical (nextOf s (execRiserRead p dir ch ecc s)).fab.words := by
  simp only [execRiserRead]
  split <;> simp [h]

@[simp] theorem opAgain_wordsCanonical (p i es) : WordsCanonical (opAgain p i es s).fab.words := by
  unfold opAgain
  split <;> simp [h]

@[simp] theorem replayOps_wordsCanonical (p ops es bad) : WordsCanonical (replayOps p ops es bad s).2.fab.words := by
  induction ops generalizing es bad s with
  | nil => exact h
  | cons o r ih =>
    obtain ⟨_, m, i⟩ := o
    exact ih (opAgain_wordsCanonical (by simpa using h) p i _) _ _

@[simp] theorem reexecute_wordsCanonical (p q w j es) : WordsCanonical (reexecute p q w j es s).2.fab.words := by
  simp [reexecute, h]

@[simp] theorem titheSigs_wordsCanonical (p j masks ecc eccArb) :
    WordsCanonical (titheSigs p j masks ecc eccArb s).2.fab.words := by
  simp only [titheSigs]
  (repeat' split) <;> simp [h]

@[simp] theorem execTitheSlot_wordsCanonical (p own re arb store ecc eccArb) :
    WordsCanonical (nextOf s (execTitheSlot p own re arb s store ecc eccArb)).fab.words := by
  simp [execTitheSlot, h]

/-! ### Resets, COMMIT and SLEEP of the fabric -/

/-- A WARM reset keeps the words, every other reset clears them (R289). -/
@[simp] theorem fabReset_wordsCanonical (kind) : WordsCanonical (fabReset kind s).fab.words := by
  refine wordsCanonical_map (f := perchAfterReset kind) (fun y hy => ?_) h
  unfold perchAfterReset
  dsimp only
  split
  · exact hy
  · rfl

@[simp] theorem fabOff_wordsCanonical : WordsCanonical (fabOff s).fab.words :=
  fabReset_wordsCanonical h 5

@[simp] theorem fabCommit_wordsCanonical : WordsCanonical (fabCommit s).fab.words := by
  simp [fabCommit, h]

@[simp] theorem fabSleep_wordsCanonical : WordsCanonical (fabSleep s).fab.words := by
  simp [fabSleep, h]

@[simp] theorem reloadFailed_wordsCanonical (p) : WordsCanonical (reloadFailed p s).fab.words := by
  simp [reloadFailed, h]

@[simp] theorem wakeWren_wordsCanonical (found p) : WordsCanonical (wakeWren found p s).fab.words := by
  simp [wakeWren, h]

@[simp] theorem fabWake_wordsCanonical (found) : WordsCanonical (fabWake found s).fab.words := by
  have woken := foldl_wordsCanonical (fun t p => wakeWren ((found.filter (·.1 = p)).map (·.2)) p t)
    (fun _ _ ht => wakeWren_wordsCanonical ht _ _) (usedPerches (powerPerches s).img (powerPerches s))
    (s := powerPerches s) (by simpa using h)
  simp [fabWake, woken]

@[simp] theorem reinitStartFabric_wordsCanonical : WordsCanonical (reinitStartFabric s).fab.words := by
  rw [reinitStartFabric, onWCnt_words, clearTag_words, clearRunners_words]
  exact zeroStreaming_wordsCanonical (by simpa using h) _

@[simp] theorem reinitEndFabric_wordsCanonical : WordsCanonical (reinitEndFabric s).fab.words := by
  simp [reinitEndFabric, h]

end

end Sys2Proof.Machine

/-! SUPPORT. Boot, resets, requests and every command (family 06_perch_fabric.md): they keep the words of every Wren in
their canonical form. Settles O59. -/

namespace Sys2Proof.Machine

/-! ### The flash and the lanes do not touch the fabric -/

@[simp] theorem execPointerRead_fab (s) : (nextOf s (execPointerRead s)).fab = s.fab := by simp [execPointerRead]
@[simp] theorem answerWaiting_fab (f s) : (answerWaiting f s).fab = s.fab := by simp [answerWaiting]

@[simp] theorem endFlashOp_fab (torn s) : (endFlashOp torn s).fab = s.fab := by
  rw [endFlashOp_changes]

@[simp] theorem switchTo_fab (slot s) : (switchTo slot s).fab = s.fab := by simp [switchTo]

@[simp] theorem switchTorn_fab (slot s) : (switchTorn slot s).fab = s.fab := by
  rw [switchTorn]
  split
  simp

@[simp] theorem execLogCommit_fab (ok s) : (nextOf s (execLogCommit ok s)).fab = s.fab := by
  unfold execLogCommit
  (repeat' split) <;> simp

@[simp] theorem execLogSectorErase_fab (s) : (nextOf s (execLogSectorErase s)).fab = s.fab := by
  simp [execLogSectorErase]

@[simp] theorem lockLane_fab (l s) : (lockLane l s).fab = s.fab := by simp [lockLane]
@[simp] theorem laneDown_fab (l s) : (laneDown l s).fab = s.fab := by simp [laneDown]
@[simp] theorem loseLock_fab (l s) : (loseLock l s).fab = s.fab := by simp [loseLock]
@[simp] theorem faultLane_fab (l s) : (faultLane l s).fab = s.fab := by simp [faultLane]

@[simp] theorem execBlockLockLoss_fab (l s rs) : (nextOf s (execBlockLockLoss l s rs)).fab = s.fab := by
  simp [execBlockLockLoss]

@[simp] theorem clockGone_fab (s) : (clockGone s).fab = s.fab := by simp [clockGone]
@[simp] theorem reinitStartEgress_fab (s) : (reinitStartEgress s).fab = s.fab := by simp [reinitStartEgress]

section
variable {s : State} (h : WordsCanonical s.fab.words)
include h

/-! ### Boot, SLEEP and the column repair -/

@[simp] theorem safeRefused_wordsCanonical : WordsCanonical (safeRefused s).fab.words := by
  simp [safeRefused, h]

@[simp] theorem flashUnreadable_wordsCanonical : WordsCanonical (flashUnreadable s).fab.words := by
  simp [flashUnreadable, h]

@[simp] theorem refuseSlot_wordsCanonical (code) : WordsCanonical (refuseSlot code s).fab.words := by
  simp [refuseSlot, h]

@[simp] theorem refuseSection_wordsCanonical : WordsCanonical (refuseSection s).fab.words := by
  simp [refuseSection, h]

@[simp] theorem stageOne_wordsCanonical (k e) : WordsCanonical (stageOne k e s).fab.words := by
  simp [stageOne, h]

@[simp] theorem execFlashIdle_wordsCanonical : WordsCanonical (nextOf s (execFlashIdle s)).fab.words := by
  simp [execFlashIdle, h]

@[simp] theorem execFlashBusyTimeout_wordsCanonical :
    WordsCanonical (nextOf s (execFlashBusyTimeout s)).fab.words := by
  simp [execFlashBusyTimeout, h]

@[simp] theorem execSfdpChecked_wordsCanonical (t) : WordsCanonical (nextOf s (execSfdpChecked t s)).fab.words := by
  simp [execSfdpChecked, h]

@[simp] theorem execHeaderChecked_wordsCanonical : WordsCanonical (nextOf s (execHeaderChecked s)).fab.words := by
  simp [execHeaderChecked, h]

@[simp] theorem execSignatureVerified_wordsCanonical :
    WordsCanonical (nextOf s (execSignatureVerified s)).fab.words := by
  simp [execSignatureVerified, h]

@[simp] theorem execSectionStreamed_wordsCanonical :
    WordsCanonical (nextOf s (execSectionStreamed s)).fab.words := by
  simp [execSectionStreamed, h]

@[simp] theorem execFitChecksDone_wordsCanonical (upset) :
    WordsCanonical (nextOf s (execFitChecksDone s upset)).fab.words := by
  simp [execFitChecksDone, h]

@[simp] theorem execRetentionCheckDone_wordsCanonical (p found) :
    WordsCanonical (nextOf s (execRetentionCheckDone p found s)).fab.words := by
  simp [execRetentionCheckDone, h]

@[simp] theorem execCommitEdge_wordsCanonical : WordsCanonical (nextOf s (execCommitEdge s)).fab.words := by
  simp [execCommitEdge, h]

@[simp] theorem execCommitDone_wordsCanonical : WordsCanonical (nextOf s (execCommitDone s)).fab.words := by
  simp [execCommitDone, h]

@[simp] theorem execSleepEntry_wordsCanonical : WordsCanonical (nextOf s (execSleepEntry s)).fab.words := by
  simp [execSleepEntry, h]

@[simp] theorem execRepairMapApply_wordsCanonical : WordsCanonical (nextOf s (execRepairMapApply s)).fab.words := by
  unfold execRepairMapApply
  split <;> simp [h]

@[simp] theorem execRepairGapEnd_wordsCanonical : WordsCanonical (nextOf s (execRepairGapEnd s)).fab.words := by
  unfold execRepairGapEnd
  split <;> simp [h]

/-! ### Resets -/

@[simp] theorem bump_wordsCanonical : WordsCanonical (bump s).fab.words := h

@[simp] theorem startReset_wordsCanonical (kind fault bySup) :
    WordsCanonical (startReset kind fault bySup s).fab.words := by
  simp [startReset, h]

@[simp] theorem execResetNAssert_wordsCanonical (ns) :
    WordsCanonical (nextOf s (execResetNAssert ns s)).fab.words := by
  simp [execResetNAssert, h, -bump_fab]

@[simp] theorem execSupervisorWatchdogExpire_wordsCanonical :
    WordsCanonical (nextOf s (execSupervisorWatchdogExpire s)).fab.words := by
  simp [execSupervisorWatchdogExpire, h]

@[simp] theorem execLockstepFault_wordsCanonical : WordsCanonical (nextOf s (execLockstepFault s)).fab.words := by
  simp [execLockstepFault, h]

@[simp] theorem execSecHalvesDisagree_wordsCanonical :
    WordsCanonical (nextOf s (execSecHalvesDisagree s)).fab.words := by
  simp [execSecHalvesDisagree, h]

@[simp] theorem execLineTimingHalvesDisagree_wordsCanonical :
    WordsCanonical (nextOf s (execLineTimingHalvesDisagree s)).fab.words := by
  simp [execLineTimingHalvesDisagree, h]

@[simp] theorem execRefclkLoss_wordsCanonical : WordsCanonical (nextOf s (execRefclkLoss s)).fab.words := by
  simp [execRefclkLoss, h]

@[simp] theorem execThermalTrip_wordsCanonical : WordsCanonical (nextOf s (execThermalTrip s)).fab.words := by
  simp [execThermalTrip, h]

@[simp] theorem execWakeComplete_wordsCanonical (found) :
    WordsCanonical (nextOf s (execWakeComplete found s)).fab.words := by
  simp [execWakeComplete, h]

@[simp] theorem execRepairReloadDone_wordsCanonical (flashOk) :
    WordsCanonical (nextOf s (execRepairReloadDone flashOk s)).fab.words := by
  unfold execRepairReloadDone
  split <;> simp [h]

/-! ### Re-inits and the recovery ladder -/

@[simp] theorem reinitStart_wordsCanonical (f) : WordsCanonical (reinitStart f s).fab.words := by
  cases f <;> simp [reinitStart, h]

@[simp] theorem startReinit_wordsCanonical (f) : WordsCanonical (startReinit f s).fab.words := by
  simp [startReinit, h]

@[simp] theorem reinitEnd_wordsCanonical (f cal) : WordsCanonical (reinitEnd f cal s).fab.words := by
  cases f <;> simp [reinitEnd, h]

@[simp] theorem execReinitDone_wordsCanonical (f cal) :
    WordsCanonical (nextOf s (execReinitDone f cal s)).fab.words := by
  simp [execReinitDone, h]

@[simp] theorem ladderReset_wordsCanonical (f) : WordsCanonical (ladderReset f s).fab.words := by
  simp [ladderReset, h]

@[simp] theorem execFuncWatchdogExpire_wordsCanonical (f) :
    WordsCanonical (nextOf s (execFuncWatchdogExpire f s)).fab.words := by
  simp [execFuncWatchdogExpire, h]

end

/-! ### A POR -/

/-- A POR leaves every Wren without a word (R289). -/
@[simp] theorem porState_wordsCanonical (s) : WordsCanonical (porState s).fab.words := by
  have empty (p : Fin 72) : Fab.reset.perch[p] = Perch.reset := Vector.getElem_replicate _
  rw [porState, withPins_fab]
  intro p
  rw [words_getElem, porBlocks]
  exact (congrArg (fun x => Sparse.wf WWord.reset x.wren.words) (empty p)).trans rfl

section
variable {s : State} (h : WordsCanonical s.fab.words)
include h

@[simp] theorem execPgoodLow_wordsCanonical (ns) : WordsCanonical (nextOf s (execPgoodLow ns s)).fab.words := by
  simp [execPgoodLow, h]

@[simp] theorem execAonUndervoltage_wordsCanonical :
    WordsCanonical (nextOf s (execAonUndervoltage s)).fab.words := by
  simp [execAonUndervoltage, h]

end

/-! ### Requests -/

/-- A reply whose states, before its answer leaves and after it, have canonical words. -/
def Reply.WordsCanonical (r : Reply) : Prop :=
  Machine.WordsCanonical r.state.fab.words ∧
    ∀ t : State, Machine.WordsCanonical t.fab.words → Machine.WordsCanonical (r.after t).fab.words

@[simp] theorem reply_wordsCanonical (t st p) : (reply t st p).WordsCanonical ↔ WordsCanonical t.fab.words := by
  simp [Reply.WordsCanonical, reply]

@[simp] theorem later_wordsCanonical (t) : (later t).WordsCanonical ↔ WordsCanonical t.fab.words := by
  simp [Reply.WordsCanonical, later]

@[simp] theorem mk_wordsCanonical (t p f) : Reply.WordsCanonical ⟨t, p, f⟩ ↔
    WordsCanonical t.fab.words ∧ ∀ u : State, WordsCanonical u.fab.words → WordsCanonical (f u).fab.words := Iff.rfl

/-- A body of a request that keeps the words canonical. -/
def BodyKeepsWords (body : State → Reply) : Prop :=
  ∀ t : State, WordsCanonical t.fab.words → (body t).WordsCanonical

section
variable {body : State → Reply} (hb : BodyKeepsWords body)
include hb

theorem runAccepted_wordsCanonical (op q fits states) {s : State} (h : WordsCanonical s.fab.words) :
    WordsCanonical (runAccepted op q fits states body s).fab.words := by
  obtain ⟨before, after⟩ := hb s h
  unfold runAccepted
  split
  · simpa using h
  · split
    · simpa using h
    · dsimp only
      split
      · exact after _ before
      · exact after _ (by simpa using before)

theorem request_wordsCanonical (i op q payload fits states) {s : State} (h : WordsCanonical s.fab.words) :
    WordsCanonical (request i op q payload fits states body s).fab.words := by
  have run := runAccepted_wordsCanonical hb op q fits states (s := accept op q payload s) (by simpa using h)
  unfold request
  (repeat' split) <;> simp [h, run]

theorem session_keepsWords (q) : BodyKeepsWords (session q body) := by
  intro t ht
  have held := hb (renew t) (by simpa using ht)
  unfold session
  split
  · exact held
  · split <;> simp [ht]

theorem whenFree_keepsWords (i) : BodyKeepsWords (whenFree i body) := by
  intro t ht
  unfold whenFree
  split
  · split <;> simp [ht]
  · exact hb t ht

end

/-! ### The bodies of the requests -/

theorem eraseBody_keepsWords (q slot sector count) : BodyKeepsWords (eraseBody q slot sector count) :=
  session_keepsWords (fun _ ht => by split <;> simp [background, ht]) q

theorem programBody_keepsWords (q slot offset data) : BodyKeepsWords (programBody q slot offset data) :=
  session_keepsWords (fun _ ht => by split <;> simp [background, ht]) q

theorem verifyBody_keepsWords (q slot) : BodyKeepsWords (verifyBody q slot) :=
  session_keepsWords (fun _ ht => by simp [background, ht]) q

theorem switchBody_keepsWords (q slot ok) : BodyKeepsWords (switchBody q slot ok) :=
  session_keepsWords (fun _ ht => by (repeat' split) <;> simp [ht]) q

theorem waitedBody_keepsWords {i op q body} (h : waitedBody i = some (op, q, body)) : BodyKeepsWords body := by
  unfold waitedBody at h
  split at h <;> cases h
  · exact eraseBody_keepsWords _ _ _ _
  · exact programBody_keepsWords _ _ _ _
  · exact verifyBody_keepsWords _ _
  · exact switchBody_keepsWords _ _ _

theorem reinitBody_keepsWords (f q) : BodyKeepsWords (reinitBody f q) := by
  intro t ht
  unfold reinitBody
  split
  · simpa using ht
  · exact ⟨ht, fun u hu => startReinit_wordsCanonical hu f⟩

theorem otpReply_wordsCanonical {t : State} (took) (h : WordsCanonical t.fab.words) :
    (otpReply took t).WordsCanonical := by
  unfold otpReply
  split <;> simp [h]

section
variable {s : State} (h : WordsCanonical s.fab.words)
include h

/-! ### Commands that run requests -/

@[simp] theorem runWaiting_wordsCanonical (l) : WordsCanonical (runWaiting l s).fab.words := by
  induction l generalizing s with
  | nil => simpa [runWaiting] using h
  | cons i r ih =>
    unfold runWaiting
    split
    · simpa using h
    · split
      · exact ih h
      next op q body hb =>
        exact ih (runAccepted_wordsCanonical (waitedBody_keepsWords hb) op q true mostStates h)

@[simp] theorem endSession_wordsCanonical (c status payload) :
    WordsCanonical (endSession c status payload s).fab.words :=
  runWaiting_wordsCanonical (by simpa using h) _

@[simp] theorem nextSessOp_wordsCanonical (c) : WordsCanonical (nextSessOp c s).fab.words := by
  unfold nextSessOp
  split <;> simp [h]

@[simp] theorem execFlashOpDone_wordsCanonical (ok) :
    WordsCanonical (nextOf s (execFlashOpDone ok s)).fab.words := by
  unfold execFlashOpDone
  (repeat' split) <;> simp [h]

@[simp] theorem execNvmVerifyDone_wordsCanonical : WordsCanonical (nextOf s (execNvmVerifyDone s)).fab.words := by
  unfold execNvmVerifyDone
  (repeat' split) <;> simp [h]

@[simp] theorem execNvmLeaseExpire_wordsCanonical :
    WordsCanonical (nextOf s (execNvmLeaseExpire s)).fab.words := by
  simp [execNvmLeaseExpire, h]

@[simp] theorem execNvmLock_wordsCanonical (q) : WordsCanonical (nextOf s (execNvmLock q s)).fab.words :=
  request_wordsCanonical (fun _ ht => by (repeat' split) <;> simp [ht]) _ _ _ _ _ _ h

@[simp] theorem execNvmRenew_wordsCanonical (q) : WordsCanonical (nextOf s (execNvmRenew q s)).fab.words :=
  request_wordsCanonical (session_keepsWords (fun _ ht => by simp [ht]) q) _ _ _ _ _ _ h

@[simp] theorem execNvmUnlock_wordsCanonical (q) : WordsCanonical (nextOf s (execNvmUnlock q s)).fab.words :=
  request_wordsCanonical (session_keepsWords (fun _ ht => by simp [ht]) q) _ _ _ _ _ _ h

@[simp] theorem execNvmErase_wordsCanonical (q slot sector count) :
    WordsCanonical (nextOf s (execNvmErase q slot sector count s)).fab.words :=
  request_wordsCanonical (whenFree_keepsWords (eraseBody_keepsWords _ _ _ _) _) _ _ _ _ _ _ h

@[simp] theorem execNvmProgram_wordsCanonical (q slot offset data) :
    WordsCanonical (nextOf s (execNvmProgram q slot offset data s)).fab.words :=
  request_wordsCanonical (whenFree_keepsWords (programBody_keepsWords _ _ _ _) _) _ _ _ _ _ _ h

@[simp] theorem execNvmVerify_wordsCanonical (q slot) :
    WordsCanonical (nextOf s (execNvmVerify q slot s)).fab.words :=
  request_wordsCanonical (whenFree_keepsWords (verifyBody_keepsWords _ _) _) _ _ _ _ _ _ h

@[simp] theorem execNvmSwitch_wordsCanonical (q slot ok) :
    WordsCanonical (nextOf s (execNvmSwitch q slot ok s)).fab.words :=
  request_wordsCanonical (whenFree_keepsWords (switchBody_keepsWords _ _ _) _) _ _ _ _ _ _ h

@[simp] theorem execLogRead_wordsCanonical (q first count) :
    WordsCanonical (nextOf s (execLogRead q first count s)).fab.words :=
  request_wordsCanonical (fun _ ht => by simp [ht]) _ _ _ _ _ _ h

@[simp] theorem execRead_wordsCanonical (q addr count) :
    WordsCanonical (nextOf s (execRead q addr count s)).fab.words :=
  request_wordsCanonical (fun _ ht => by simp [readBody, ht]) _ _ _ _ _ _ h

@[simp] theorem execWrite_wordsCanonical (q addr words) :
    WordsCanonical (nextOf s (execWrite q addr words s)).fab.words :=
  request_wordsCanonical (fun _ ht => by simp [writeBody, ht]) _ _ _ _ _ _ h

@[simp] theorem execPowerCycle_wordsCanonical (q) : WordsCanonical (nextOf s (execPowerCycle q s)).fab.words :=
  request_wordsCanonical (fun _ ht => by simp [ht]) _ _ _ _ _ _ h

@[simp] theorem execOtpKey_wordsCanonical (q slot digest took) :
    WordsCanonical (nextOf s (execOtpKey q slot digest took s)).fab.words := by
  refine request_wordsCanonical (session_keepsWords (fun t ht => ?_) q) _ _ _ _ _ _ h
  dsimp only
  (repeat' split) <;> simp [otpReply_wordsCanonical, ht]

@[simp] theorem execOtpRevoke_wordsCanonical (q slot took) :
    WordsCanonical (nextOf s (execOtpRevoke q slot took s)).fab.words := by
  refine request_wordsCanonical (session_keepsWords (fun t ht => ?_) q) _ _ _ _ _ _ h
  (repeat' split) <;> simp [otpReply_wordsCanonical, ht]

@[simp] theorem execOtpRollback_wordsCanonical (q value took) :
    WordsCanonical (nextOf s (execOtpRollback q value took s)).fab.words := by
  refine request_wordsCanonical (session_keepsWords (fun t ht => ?_) q) _ _ _ _ _ _ h
  dsimp only
  (repeat' split) <;> simp [otpReply_wordsCanonical, ht]

@[simp] theorem execOtpRecovery_wordsCanonical (q lane pfx ip took) :
    WordsCanonical (nextOf s (execOtpRecovery q lane pfx ip took s)).fab.words := by
  refine request_wordsCanonical (session_keepsWords (fun t ht => ?_) q) _ _ _ _ _ _ h
  dsimp only
  (repeat' split) <;> simp [otpReply_wordsCanonical, ht]

@[simp] theorem reinit_wordsCanonical (i f q) : WordsCanonical (reinit i f q s).fab.words := by
  unfold reinit
  split
  · exact request_wordsCanonical (reinitBody_keepsWords _ _) _ _ _ _ _ _ h
  · simp [h]

@[simp] theorem execReinitEgress_wordsCanonical (q) : WordsCanonical (nextOf s (execReinitEgress q s)).fab.words :=
  reinit_wordsCanonical h _ _ q

@[simp] theorem execReinitHkc_wordsCanonical (q) : WordsCanonical (nextOf s (execReinitHkc q s)).fab.words :=
  reinit_wordsCanonical h _ _ q

@[simp] theorem execReinitStarling_wordsCanonical (q) :
    WordsCanonical (nextOf s (execReinitStarling q s)).fab.words :=
  reinit_wordsCanonical h _ _ q

@[simp] theorem execReinitPixel_wordsCanonical (q) : WordsCanonical (nextOf s (execReinitPixel q s)).fab.words :=
  reinit_wordsCanonical h _ _ q

@[simp] theorem execReinitFabric_wordsCanonical (q) : WordsCanonical (nextOf s (execReinitFabric q s)).fab.words :=
  reinit_wordsCanonical h _ _ q

@[simp] theorem execResetWarm_wordsCanonical (q) : WordsCanonical (nextOf s (execResetWarm q s)).fab.words := by
  unfold execResetWarm
  split
  · exact request_wordsCanonical (fun _ ht => by simp +contextual [ht]) _ _ _ _ _ _ h
  · simp [h]

/-! ### Requests that waited, and every command -/

theorem runMnt_wordsCanonical (i) : WordsCanonical (runMnt i s).fab.words := by
  unfold runMnt
  split <;> simp [h]

@[simp] theorem admitWaiting_wordsCanonical : WordsCanonical (admitWaiting s).fab.words :=
  foldl_wordsCanonical _ (fun _ i ht => runMnt_wordsCanonical ht i) _ h

@[simp] theorem execMapSnapshotCommit_wordsCanonical (ok) :
    WordsCanonical (nextOf s (execMapSnapshotCommit ok s)).fab.words := by
  simp [execMapSnapshotCommit, h]

/-- Every command keeps the words of every Wren canonical: by its own rule above, `_wordsCanonical` where it writes words
or answers a request, `_words` where it leaves them alone, `_fab` where it does not touch the fabric. -/
theorem exec_wordsCanonical (i) : WordsCanonical (nextOf s (exec i s)).fab.words := by
  cases i <;> simp [exec, h]

end

/-- Settles O59: an idle step changes no word, and a command runs on the state with the rest of the queue, whose words are
those of `s`. -/
theorem stepsKeepEveryWrenCanonical : Obligations.StepsKeepEveryWrenCanonical := by
  unfold Obligations.StepsKeepEveryWrenCanonical
  intro s t h hs
  rw [← wordsCanonical_iff] at h ⊢
  unfold step at hs
  split at hs
  · cases hs
    exact h
  next c rest _ =>
    have kept := exec_wordsCanonical (s := { s with pending := rest }) h c
    rwa [hs] at kept

end Sys2Proof.Machine

/-! SUPPORT. Beats, moulds and snapshots (family 06_perch_fabric.md): what the start of a beat sets of a Finch, what it
leaves alone, and how a token is held. Settles O23. -/

namespace Sys2Proof.Machine

/-! ### One Finch changes -/

theorem onPerch_here (p f s) : (onPerch p f s).fab.perch[p] = f s.fab.perch[p] := vmod_same ..

theorem onFinch_here (p f s) : (onFinch p f s).fab.perch[p] = { s.fab.perch[p] with finch := f s.fab.perch[p].finch } :=
  vmod_same ..

theorem onIss_here (p f s) : (onIss p f s).fab.perch[p] = { s.fab.perch[p] with iss := f s.fab.perch[p].iss } :=
  vmod_same ..

/-- The event inputs are written to the predicates of the Finch (R548). -/
theorem loadEventInputs_stageFrame (p l s) : StageFrame p s (loadEventInputs p l s) := by
  refine List.foldlRecOn (motive := StageFrame p s) _ _ (.refl p s) fun t ht k _ => ?_
  dsimp only
  split
  · exact ht.trans (setPred_stageFrame ..)
  · exact ht

theorem loadEventInputs_cnt (p l s) : (loadEventInputs p l s).fab.cnt = s.fab.cnt := by
  refine List.foldlRecOn (motive := fun t : State => t.fab.cnt = s.fab.cnt) _ _ rfl fun t ht k _ => ?_
  dsimp only
  split <;> exact ht

/-! ### The start of a beat -/

/-- What the start of a beat sets of a Finch, and the Wren beside it. -/
structure BeatView where
  running : Bool
  beat : Nat
  mould : Nat
  agUse : Vector Nat 8
  lag : Nat
  lagBeats : Nat
  held : Option Nat
  snapCount : Nat
  wren : Wren

def beatView (x : Perch) : BeatView :=
  ⟨x.finch.running, x.finch.beat, x.finch.mould, x.finch.agUse, x.finch.lag, x.finch.lagBeats, x.finch.held,
    x.finch.snapCount, x.wren⟩

theorem skipTithe_beatView (p s) : beatView (skipTithe p s).fab.perch[p] = beatView s.fab.perch[p] := by
  simp only [skipTithe, nextSlice, onFinch_here]
  rfl

theorem StageFrame.beatView {p : Fin 72} {s t : State} (h : StageFrame p s t) :
    beatView t.fab.perch[p] = beatView s.fab.perch[p] := by
  rw [h.here]
  rfl

theorem StageFrame.flt {p : Fin 72} {s t : State} (h : StageFrame p s t) : t.flt = s.flt := by
  rw [h.outside]

theorem StageFrame.spr {p : Fin 72} {s t : State} (h : StageFrame p s t) : t.spr = s.spr := by
  rw [h.outside]

/-- A beat that ran without its check skips it, and a late start no held token has reported is an overrun (R222, R233). -/
def settleBeat (p : Fin 72) (late : Nat) (s : State) : State :=
  let fi := finchOf s p
  let s := if titheOn s p && fi.running && !fi.titheDone && !fi.serves then skipTithe p s else s
  if 0 < late ∧ fi.held.isNone then overrun p s else s

/-- The token of a line is counted and the line noted as run on perch `p`. -/
def noteRan (p : Fin 72) (l : LineRec) (s : State) : State :=
  markLine l.line (fun x => { x with beatRan := true, ranOn := p.val :: x.ranOn }) (countToken l s)

/-- A late beat skips its check. -/
def lateSkip (p : Fin 72) (late : Nat) (s : State) : State :=
  if titheOn s p && decide (0 < late) then skipTithe p s else s

theorem startBeat_eq (p l late s) : ∃ two serves, startBeat p l late s =
    loadEventInputs p l (lateSkip p late (onPerch p (beginBeat l late two serves) (noteRan p l (settleBeat p late s)))) :=
  ⟨_, _, rfl⟩

section
variable (p : Fin 72) (l : LineRec) (late : Nat) (s : State)

theorem overrun_perch : (overrun p s).fab.perch = s.fab.perch := by
  simp [overrun]

theorem overrun_classCount : classCount (overrun p s) 0x22 = satInc 32 (classCount s 0x22) :=
  classCount_report_faultCode (by decide) p.val s

theorem countToken_frame : countToken l s = { s with fab := { s.fab with watch := (countToken l s).fab.watch } } := by
  unfold countToken
  split <;> rfl

theorem noteRan_perch : (noteRan p l s).fab.perch = s.fab.perch := by
  rw [noteRan, countToken_frame]
  rfl

theorem noteRan_cnt : (noteRan p l s).fab.cnt = s.fab.cnt := by
  rw [noteRan, countToken_frame]
  rfl

theorem noteRan_flt : (noteRan p l s).flt = s.flt := by
  rw [noteRan, countToken_frame]
  rfl

theorem lateSkip_flt : (lateSkip p late s).flt = s.flt := by
  unfold lateSkip
  split <;> rfl

theorem lateSkip_spr : (lateSkip p late s).spr = s.spr := by
  unfold lateSkip
  split <;> rfl

theorem lateSkip_cnt : ∃ n, (lateSkip p late s).fab.cnt = { s.fab.cnt with titheSkip := n } := by
  unfold lateSkip
  split
  · exact ⟨_, skipTithe_cnt p s⟩
  · exact ⟨_, rfl⟩

theorem lateSkip_beatView : beatView (lateSkip p late s).fab.perch[p] = beatView s.fab.perch[p] := by
  unfold lateSkip
  split
  · exact skipTithe_beatView p s
  · rfl

theorem settleBeat_beatView : beatView (settleBeat p late s).fab.perch[p] = beatView s.fab.perch[p] := by
  simp only [settleBeat]
  split <;> split <;> simp only [overrun_perch, skipTithe_beatView]

/-- The Finch begins the beat with mould 0 and its generators at their first use (R219, R221). -/
theorem startBeat_beatView : beatView (startBeat p l late s).fab.perch[p] =
    { running := true, beat := l.line, mould := 0, agUse := Vector.replicate 8 0, lag := late, held := none, snapCount := 0
      lagBeats := if late = 0 then 0 else s.fab.perch[p].finch.lagBeats + 1, wren := s.fab.perch[p].wren } := by
  obtain ⟨two, serves, h⟩ := startBeat_eq p l late s
  have before := settleBeat_beatView p late s
  have lagBeats := congrArg BeatView.lagBeats before
  have wren := congrArg BeatView.wren before
  rw [h, (loadEventInputs_stageFrame p l _).beatView, lateSkip_beatView, onPerch_here, noteRan_perch]
  simp only [beatView] at lagBeats wren
  simp only [beatView, beginBeat, lagBeats, wren]

theorem settleBeat_elsewhere {q : Fin 72} (hq : q ≠ p) : (settleBeat p late s).fab.perch[q] = s.fab.perch[q] := by
  simp only [settleBeat]
  split <;> split <;> simp only [overrun_perch, aside_elsewhere (skipTithe_aside p s) hq]

theorem lateSkip_elsewhere {q : Fin 72} (hq : q ≠ p) : (lateSkip p late s).fab.perch[q] = s.fab.perch[q] := by
  unfold lateSkip
  split
  · exact aside_elsewhere (skipTithe_aside p s) hq
  · rfl

theorem startBeat_elsewhere {q : Fin 72} (hq : q ≠ p) : (startBeat p l late s).fab.perch[q] = s.fab.perch[q] := by
  obtain ⟨two, serves, h⟩ := startBeat_eq p l late s
  rw [h, (loadEventInputs_stageFrame p l _).elsewhere q hq, lateSkip_elsewhere p late _ hq,
    aside_elsewhere (onPerch_aside p _ _) hq, noteRan_perch, settleBeat_elsewhere p late s hq]

/-- The check skipped or not, the settled beat counts its overrun (R233). -/
theorem settleBeat_cnt : ∃ n, (settleBeat p late s).fab.cnt = { s.fab.cnt with
    titheSkip := n
    overrun := if 0 < late ∧ (finchOf s p).held = none then satInc 32 s.fab.cnt.overrun else s.fab.cnt.overrun } := by
  simp only [settleBeat, Option.isNone_iff_eq_none]
  by_cases late' : 0 < late ∧ (finchOf s p).held = none
  · simp only [if_pos late']
    split
    · exact ⟨_, by simp [overrun, onCnt, skipTithe_cnt]; rfl⟩
    · exact ⟨_, by simp [overrun, onCnt]; rfl⟩
  · simp only [if_neg late']
    split
    · exact ⟨_, skipTithe_cnt p s⟩
    · exact ⟨_, rfl⟩

theorem settleBeat_classCount : classCount (settleBeat p late s) 0x22 =
    if 0 < late ∧ (finchOf s p).held = none then satInc 32 (classCount s 0x22) else classCount s 0x22 := by
  simp only [settleBeat, Option.isNone_iff_eq_none]
  by_cases late' : 0 < late ∧ (finchOf s p).held = none
  · simp only [if_pos late']
    rw [overrun_classCount]
    split <;> rfl
  · simp only [if_neg late']
    split <;> rfl

/-- After the settled beat the start of a beat counts a skipped check at most, and reports nothing. -/
theorem startBeat_cnt : ∃ n, (startBeat p l late s).fab.cnt = { (settleBeat p late s).fab.cnt with titheSkip := n } := by
  obtain ⟨two, serves, h⟩ := startBeat_eq p l late s
  obtain ⟨n, hn⟩ := lateSkip_cnt p late (onPerch p (beginBeat l late two serves) (noteRan p l (settleBeat p late s)))
  have begun : (onPerch p (beginBeat l late two serves) (noteRan p l (settleBeat p late s))).fab.cnt =
      (settleBeat p late s).fab.cnt := noteRan_cnt p l _
  exact ⟨n, by rw [h, loadEventInputs_cnt, hn, begun]⟩

theorem startBeat_flt : (startBeat p l late s).flt = (settleBeat p late s).flt := by
  obtain ⟨two, serves, h⟩ := startBeat_eq p l late s
  rw [h, (loadEventInputs_stageFrame p l _).flt, lateSkip_flt]
  exact noteRan_flt p l _

/-- The line is noted as run on the perch. -/
theorem startBeat_lines : ∀ x ∈ (startBeat p l late s).spr.lines, x.line = l.line → x.beatRan = true ∧ p.val ∈ x.ranOn := by
  obtain ⟨two, serves, h⟩ := startBeat_eq p l late s
  have lines : (startBeat p l late s).spr.lines = (noteRan p l (settleBeat p late s)).spr.lines := by
    rw [h, (loadEventInputs_stageFrame p l _).spr, lateSkip_spr]
    rfl
  rw [lines]
  intro x hx hline
  simp only [noteRan, markLine, markLines, List.mem_map] at hx
  obtain ⟨y, _, rfl⟩ := hx
  split at hline
  · simp [*]
  · contradiction

end

/-! ### BEAT_START -/

/-- The last mould of the running beat exceeded its stall allowance (R219). -/
def noteSlip (p : Fin 72) (slip : Bool) (s : State) : State :=
  if slip && (finchOf s p).running then onCnt (fun c => { c with stallOver := satInc 32 c.stallOver }) s else s

theorem noteSlip_perch (p slip s) : (noteSlip p slip s).fab.perch = s.fab.perch := by
  unfold noteSlip
  split <;> rfl

theorem noteSlip_flt (p slip s) : (noteSlip p slip s).flt = s.flt := by
  unfold noteSlip
  split <;> rfl

theorem noteSlip_cnt (p slip s) : (noteSlip p slip s).fab.cnt = { s.fab.cnt with
    stallOver := if slip = true ∧ (finchOf s p).running = true then satInc 32 s.fab.cnt.stallOver
      else s.fab.cnt.stallOver } := by
  simp only [noteSlip, Bool.and_eq_true]
  split <;> rfl

section
variable {s : State} {p : Fin 72} {l : LineRec} (hdue : beatDue s p = some l) (hrun : beatsRun s p = true)
  (hing : s.fab.perch[p].wren.ingQ = [])
include hdue hrun hing

theorem execBeatStart_free (hfree : (finchOf s p).blocked = false) (late slip) :
    execBeatStart p late slip s = .next (startBeat p l late (noteSlip p slip s)) := by
  simp only [execBeatStart, hdue, hrun, hing, hfree]
  rfl

theorem execBeatStart_stalled (hstall : (finchOf s p).blocked = true) (late slip) :
    execBeatStart p late slip s = match (finchOf s p).held with
      | none => .next (holdToken p l s)
      | some n => .next (if laterDue s p n then holdToken p l s else s) := by
  simp only [execBeatStart, hdue, hrun, hing, hstall]
  rfl

end

theorem execBeatStart_idle {s : State} {p : Fin 72} (late slip)
    (h : beatDue s p = none ∨ beatsRun s p = false ∨ s.fab.perch[p].wren.ingQ ≠ []) :
    execBeatStart p late slip s = .next s := by
  unfold execBeatStart
  split
  · rfl
  next l hl => exact if_pos (h.resolve_left (by simp [hl]))

/-- A token is held already and no later line is due. -/
theorem execBeatStart_held {s : State} {p : Fin 72} {n : Nat} (hstall : (finchOf s p).blocked = true)
    (hheld : (finchOf s p).held = some n) (hlater : laterDue s p n = false) (late slip) :
    execBeatStart p late slip s = .next s := by
  simp only [execBeatStart, hstall, hheld, hlater]
  split
  · rfl
  · split <;> rfl

/-- The Finch's stall counts a token; a held one is a second one (R233, R234, R241). -/
def tokenAtStall (fi : Finch) : Finch :=
  { fi with twoHeld := fi.twoHeld || fi.held.isSome, stall := { fi.stall with beats := Nat.min 3 (fi.stall.beats + 1) } }

theorem holdToken_first {s : State} {p : Fin 72} (h : (finchOf s p).held = none) (l) :
    holdToken p l s = overrun p (onFinch p (fun x => { x with held := some l.line }) (onFinch p tokenAtStall s)) := by
  simp only [holdToken, h]
  rfl

theorem holdToken_again {s : State} {p : Fin 72} {n : Nat} (h : (finchOf s p).held = some n) (l) :
    holdToken p l s = onFinch p tokenAtStall s := by
  simp only [holdToken, h]
  rfl

/-! ### LAG_TIMEOUT, MOULD_START, TITHE_SNAPSHOT -/

theorem execLagTimeout_fails {s : State} {p : Fin 72} (hrun : beatsRun s p = true) (hok : s.fab.perch[p].failed = false)
    (hlag : (finchOf s p).twoHeld = true ∨ 17 ≤ (finchOf s p).lagBeats) :
    execLagTimeout p s = .next (perchFails p s) := by
  have runs : ¬(beatsRun s p = false ∨ s.fab.perch[p].failed = true) := by
    rw [hrun, hok]
    decide
  simp only [execLagTimeout, if_neg runs, if_pos hlag]

theorem execLagTimeout_idle {s : State} {p : Fin 72} (h : beatsRun s p = false ∨ s.fab.perch[p].failed = true ∨
    ((finchOf s p).twoHeld = false ∧ (finchOf s p).lagBeats < 17)) : execLagTimeout p s = .next s := by
  unfold execLagTimeout
  dsimp only
  split
  · rfl
  next runs =>
    obtain ⟨two, lag⟩ := (h.resolve_left fun hr => runs (.inl hr)).resolve_left fun hf => runs (.inr hf)
    exact if_neg (by simp [two]; omega)

/-- A finding of a perch that serves, is not failed yet and lies in an active column (R115). -/
theorem perchFails_active {s : State} {p : Fin 72} (hact : activePerch s p = true) (hok : s.fab.perch[p].failed = false) :
    (perchFails p s).fab.perch[p] = { s.fab.perch[p] with failed := true } ∧ (perchFails p s).log.snapPending = true := by
  have active : activePerch (report (faultCode 0x70 p.val) s) p = true := by
    simpa [activePerch, rowUsed, logCol] using hact
  have serves : ¬(activePerch (report (faultCode 0x70 p.val) s) p = false ∨
      (report (faultCode 0x70 p.val) s).fab.perch[p].failed = true) := by
    rw [report_fab, active, hok]
    decide
  constructor
  · rw [perchFails, finding_perch, if_neg serves, report_fab]
    exact vmod_same ..
  · simp only [perchFails, finding, if_neg serves]
    (repeat' split) <;> rfl

/-- The mould before exceeded its stall allowance (R219). -/
def noteOver (ex : Bool) (s : State) : State :=
  if ex then onCnt (fun c => { c with stallOver := satInc 32 c.stallOver }) s else s

theorem noteOver_perch (ex s) : (noteOver ex s).fab.perch = s.fab.perch := by cases ex <;> rfl
theorem noteOver_spr (ex s) : (noteOver ex s).spr = s.spr := by cases ex <;> rfl

theorem noteOver_cnt (ex s) : (noteOver ex s).fab.cnt =
    if ex then { s.fab.cnt with stallOver := satInc 32 s.fab.cnt.stallOver } else s.fab.cnt := by cases ex <;> rfl

/-- The next mould of a beat starts (R219). -/
def nextMould (p : Fin 72) (s : State) : State :=
  onIss p (fun x => { x with bun := 0, slots := [] })
    (onFinch p (fun x => { x with mould := x.mould + 1, agUse := Vector.replicate 8 0 }) s)

theorem execMouldStart_starts {s : State} {p : Fin 72} (hi : issues s p = true)
    (hm : (finchOf s p).mould + 1 < foldOf s p) (ex : Bool) : execMouldStart p ex s = .next (nextMould p (noteOver ex s)) := by
  have goes : ¬(issues s p = false ∨ foldOf s p ≤ (finchOf s p).mould + 1) := by
    rw [hi]
    simp
    omega
  simp only [execMouldStart, if_neg goes]
  rfl

theorem nextMould_perch (p s) : (nextMould p s).fab.perch[p] = { s.fab.perch[p] with
    finch := { s.fab.perch[p].finch with mould := s.fab.perch[p].finch.mould + 1, agUse := Vector.replicate 8 0 }
    iss := { s.fab.perch[p].iss with bun := 0, slots := [] } } := by
  rw [nextMould, onIss_here, onFinch_here]

theorem execMouldStart_idle {s : State} {p : Fin 72} (ex)
    (h : issues s p = false ∨ foldOf s p ≤ (finchOf s p).mould + 1) : execMouldStart p ex s = .next s :=
  if_pos h

theorem execTitheSnapshot_takes {s : State} {p : Fin 72} {j : Nat} (hi : issues s p = true) (ht : titheOn s p = true)
    (hn : (finchOf s p).snapCount < (snapSlices s p).length)
    (hj : j = (snapSlices s p).getD (finchOf s p).snapCount 0) (hb : beforeSlice s p j = true) :
    execTitheSnapshot p s = .next (onFinch p (fun x => { x with
      snapCount := x.snapCount + 1, snaps := (snapshotOf s p j :: x.snaps).take 4 }) s) := by
  subst hj
  simp only [execTitheSnapshot, hi, ht, hb, Nat.not_le.mpr hn]
  rfl

theorem execTitheSnapshot_idle {s : State} {p : Fin 72}
    (h : issues s p = false ∨ titheOn s p = false ∨ (snapSlices s p).length ≤ (finchOf s p).snapCount ∨
      beforeSlice s p ((snapSlices s p).getD (finchOf s p).snapCount 0) = false) : execTitheSnapshot p s = .next s :=
  if_pos h

/-- Settles O23: a free Finch takes `startBeat_beatView`, a stalled one holds its token. -/
theorem beatsMouldsAndSnapshots : Obligations.BeatsMouldsAndSnapshots := by
  unfold Obligations.BeatsMouldsAndSnapshots
  refine ⟨?free, ?hold, ?again, fun s p late slip h => execBeatStart_idle late slip h,
    fun s p late n slip hb hh hl => execBeatStart_held hb hh hl late slip, ?lag, fun s p h => execLagTimeout_idle h,
    ?mould, fun s p ex h => execMouldStart_idle ex h, ?snap,
    fun s p h => execTitheSnapshot_idle (by tauto), fun s p h => execTitheSnapshot_idle (by tauto)⟩
  case free =>
    intro s p l late slip hdue hrun hing hfree
    have sameFinch : finchOf (noteSlip p slip s) p = finchOf s p := by rw [finchOf, noteSlip_perch, finchOf]
    have starts := execBeatStart_free hdue hrun hing hfree late slip
    have view := startBeat_beatView p l late (noteSlip p slip s)
    obtain ⟨n, hcnt⟩ := startBeat_cnt p l late (noteSlip p slip s)
    obtain ⟨m, hsettled⟩ := settleBeat_cnt p late (noteSlip p slip s)
    have hclass := (classCount_congr (startBeat_flt p l late (noteSlip p slip s)) 0x22).trans (settleBeat_classCount p late _)
    have lines := startBeat_lines p l late (noteSlip p slip s)
    have elsewhere (q : Fin 72) (hq : q ≠ p) := startBeat_elsewhere p l late (noteSlip p slip s) hq
    rw [hsettled, sameFinch, noteSlip_cnt] at hcnt
    rw [sameFinch, classCount_congr (noteSlip_flt ..)] at hclass
    rw [noteSlip_perch] at view elsewhere
    generalize startBeat p l late (noteSlip p slip s) = t at *
    simp only [beatView, BeatView.mk.injEq] at view
    obtain ⟨running, beat, mould, agUse, lag, lagBeats, held, snapCount, wren⟩ := view
    exact ⟨t, starts, running, beat, mould, agUse, lag, lagBeats, held, snapCount, wren, by rw [hcnt], hclass,
      by rw [hcnt], lines, elsewhere⟩
  case hold =>
    intro s p l late slip hdue hrun hing hstall hheld
    refine ⟨_, (execBeatStart_stalled hdue hrun hing hstall late slip).trans (by rw [hheld]), ?_⟩
    rw [holdToken_first hheld]
    have here : (overrun p (onFinch p (fun x => { x with held := some l.line }) (onFinch p tokenAtStall s))).fab.perch[p]
        = { s.fab.perch[p] with finch := { tokenAtStall s.fab.perch[p].finch with held := some l.line } } := by
      rw [overrun_perch, onFinch_here, onFinch_here]
    refine ⟨by rw [here], by rw [here]; rfl, by rw [here]; rfl, by simp [overrun, onCnt, onFinch, onPerch], ?_,
      by simp [overrun, onCnt, onFinch, onPerch], fun q hq => ?_⟩
    · exact overrun_classCount p _
    · rw [overrun_perch]
      exact aside_elsewhere ((onFinch_aside p _ _).trans (onFinch_aside p _ s)) hq
  case again =>
    intro s p l late n slip hdue hrun hing hstall hheld hlater
    refine ⟨_, (execBeatStart_stalled hdue hrun hing hstall late slip).trans (by rw [hheld]), ?_⟩
    simp only [hlater, if_true]
    rw [holdToken_again hheld]
    have two : (tokenAtStall (finchOf s p)).twoHeld = true := by simp [tokenAtStall, hheld]
    refine ⟨by rw [onFinch_here]; exact hheld, by rw [onFinch_here]; exact two, by rw [onFinch_here]; rfl, rfl, rfl, rfl,
      fun q hq => aside_elsewhere (onFinch_aside p _ s) hq⟩
  case lag =>
    intro s p hrun hok hlag
    have active : activePerch s p = true := by
      simp only [beatsRun, Bool.and_eq_true] at hrun
      exact hrun.1.2
    obtain ⟨here, pending⟩ := perchFails_active active hok
    refine ⟨_, execLagTimeout_fails hrun hok hlag, here, perchFails_classCount p s, pending, fun q hq => ?_⟩
    rw [perchFails, finding_elsewhere hq, report_fab]
  case mould =>
    intro s p ex hi hm
    refine ⟨_, execMouldStart_starts hi hm ex, ?_, ?_, noteOver_cnt ex s, noteOver_spr ex s, fun q hq => ?_⟩
    · rw [nextMould_perch, noteOver_perch]
    · rw [nextMould_perch, noteOver_perch]
    · rw [nextMould, aside_elsewhere ((onIss_aside p _ _).trans (onFinch_aside p _ _)) hq, noteOver_perch]
  case snap =>
    intro s p j hi ht hn hj hb
    exact ⟨_, snapshotOf s p j, execTitheSnapshot_takes hi ht hn hj hb, onFinch_here .., rfl, rfl, rfl, rfl, rfl,
      fun q hq => aside_elsewhere (onFinch_aside p _ s) hq⟩

end Sys2Proof.Machine

/-! SUPPORT. SEND, RECV, EGR and WAIT (family 06_perch_fabric.md): each one's next state as a change of its own perch, of the
sender it returns a credit to, and of the counters. Settles O35. -/

namespace Sys2Proof.Machine

/-! ### Changes of one perch, one after the other -/

theorem vmod_vmod {α : Type} {n : Nat} (v : Vector α n) (i : Fin n) (f g : α → α) :
    vmod (vmod v i g) i f = vmod v i fun x => f (g x) := by
  simp [vmod]

theorem onPerch_onPerch (p f g s) : onPerch p f (onPerch p g s) = onPerch p (fun x => f (g x)) s := by
  simp only [onPerch, vmod_vmod]

/-- Two changes that agree on the perch as it stands are one. -/
theorem onPerch_congr {p : Fin 72} {f g : Perch → Perch} {s : State} (h : f s.fab.perch[p] = g s.fab.perch[p]) :
    onPerch p f s = onPerch p g s := by
  simp only [onPerch, vmod, h]

theorem onPerch_there {p q : Fin 72} (hq : q ≠ p) (f s) : (onPerch p f s).fab.perch[q] = s.fab.perch[q] :=
  vmod_other _ _ _ _ hq

theorem onPerch_self {p : Fin 72} {f : Perch → Perch} {s : State} (h : f s.fab.perch[p] = s.fab.perch[p]) :
    onPerch p f s = s := by
  rw [onPerch, vmod_eq_self h]

/-- An operation that takes its slot and joins the signature changes the schedule of its perch. -/
theorem noteOp_beginOp (p i out s) :
    ∃ k, noteOp p i out (beginOp p i s) = onPerch p (fun x => { x with iss := k }) s := by
  have noted (t : State) : ∃ k, noteOp p i out t = onPerch p (fun x => { x with iss := k }) t := by
    unfold noteOp
    split
    · exact ⟨_, onPerch_congr rfl⟩
    · exact ⟨t.fab.perch[p].iss, (onPerch_self rfl).symm⟩
  obtain ⟨k, hk⟩ := noted (beginOp p i s)
  exact ⟨k, by rw [hk]; simp only [beginOp, onIss, onPerch_onPerch]⟩

/-! ### Tokens -/

theorem tokenFor_ch (fi g ch tag src) : (tokenFor fi g ch tag src).ch = ch := by
  unfold tokenFor
  split <;> rfl

/-- A token is sent on the channel its SEND names. -/
theorem tokenCh_tokenFor (fi g) (ch : Fin 4) (tag src) :
    tokenCh (tokenFor fi g (BitVec.ofNat 2 ch.val) tag src) = ch := by
  rw [tokenCh, tokenFor_ch]
  ext
  simp only [BitVec.toNat_ofNat, Fin.ofNat]
  omega

theorem countVoidPoison_perch (t s) : (countVoidPoison t s).fab.perch = s.fab.perch := by
  unfold countVoidPoison
  split <;> rfl

theorem countVoidPoison_flt (t s) : (countVoidPoison t s).flt = s.flt := by
  unfold countVoidPoison
  split <;> rfl

theorem countVoidPoison_spr (t s) : (countVoidPoison t s).spr = s.spr := by
  unfold countVoidPoison
  split <;> rfl

theorem countVoidPoison_onPerch (t p f s) :
    countVoidPoison t (onPerch p f s) = onPerch p f (countVoidPoison t s) := by
  unfold countVoidPoison
  split <;> rfl

/-! ### SEND -/

/-- The token of a SEND (R321, R324). -/
def sendToken (s : State) (p : Fin 72) (g : PredSel) (dir : Dir) (ch : Fin 4) (tag : BitVec 4) (src : StSrc) : Token :=
  tokenFor (opView s p (.send p g dir ch tag src)) g (BitVec.ofNat 2 ch.val) tag src

theorem tokenCh_sendToken (s p g dir ch tag src) : tokenCh (sendToken s p g dir ch tag src) = ch :=
  tokenCh_tokenFor ..

section
variable {s : State} {p q : Fin 72} {dir : Dir} {ch : Fin 4} (hi : issues s p = true) (hn : neighbour s p dir = some q)
  (g : PredSel) (tag : BitVec 4) (src : StSrc)
include hi hn

theorem execSend_static (hk : chanKind s q (opposite dir) ch = 1) : ∃ k, execSend p g dir ch tag src s =
    .next (sendStatic p dir (sendToken s p g dir ch tag src) (onPerch p (fun x => { x with iss := k }) s)) := by
  obtain ⟨k, hslot⟩ := noteOp_beginOp p (.send p g dir ch tag src) (tokenBytes (sendToken s p g dir ch tag src)) s
  exact ⟨k, by simp only [execSend, hi, hn, hk, ← hslot, sendToken]; rfl⟩

theorem execSend_elastic (hk : chanKind s q (opposite dir) ch = 2) : ∃ k, execSend p g dir ch tag src s =
    .next (if predValue (opView s p (.send p g dir ch tag src)) g
      then sendElastic p dir (sendToken s p g dir ch tag src) (onPerch p (fun x => { x with iss := k }) s)
      else onPerch p (fun x => { x with iss := k }) s) := by
  obtain ⟨k, hslot⟩ := noteOp_beginOp p (.send p g dir ch tag src) (tokenBytes (sendToken s p g dir ch tag src)) s
  exact ⟨k, by simp only [execSend, hi, hn, hk, ← hslot, sendToken]; rfl⟩

end

theorem execSend_idle {s : State} {p : Fin 72} {dir : Dir} (h : issues s p = false ∨ neighbour s p dir = none)
    (g ch tag src) : execSend p g dir ch tag src s = .next s := by
  unfold execSend
  split
  · rfl
  next hi => rw [h.resolve_left (by simpa using hi)]

theorem execSend_unused {s : State} {p q : Fin 72} {dir : Dir} {ch : Fin 4} (hn : neighbour s p dir = some q)
    (h1 : chanKind s q (opposite dir) ch ≠ 1) (h2 : chanKind s q (opposite dir) ch ≠ 2) (g tag src) :
    execSend p g dir ch tag src s = .next s := by
  simp only [execSend, hn]
  split <;> rfl

section
variable (p : Fin 72) (dir : Dir) (t : Token) (k : Issue) (s : State)

theorem sendStatic_credit {ch : Fin 4} (hch : tokenCh t = ch) (h : 0 < s.fab.perch[p].run.credit[chanIx dir ch]) :
    sendStatic p dir t (onPerch p (fun x => { x with iss := k }) s) = onPerch p (fun x => { x with
      iss := k
      run := { x.run with
        credit := vmod x.run.credit (chanIx dir ch) (· - 1)
        waitTx := vmod x.run.waitTx (dirIx dir) (· ++ [t])
        sentLater := vmod x.run.sentLater (chanIx dir ch) (· + 1) } }) (countVoidPoison t s) := by
  subst hch
  simp only [sendStatic, countVoidPoison_onPerch, creditHeld, onPerch_here, countVoidPoison_perch, if_pos h, takeCredit,
    onRun, onPerch_onPerch]

theorem sendStatic_stalls {ch : Fin 4} (hch : tokenCh t = ch) (h : s.fab.perch[p].run.credit[chanIx dir ch] = 0) :
    sendStatic p dir t (onPerch p (fun x => { x with iss := k }) s) = onPerch p (fun x => { x with
      iss := k
      finch := { x.finch with
        stalled := true
        stall := { Stall.reset with kind := .send, chan := (chanIx dir ch).val, tok := t } } })
      (countVoidPoison t s) := by
  subst hch
  have empty : ¬0 < s.fab.perch[p].run.credit[chanIx dir (tokenCh t)] := by omega
  simp only [sendStatic, countVoidPoison_onPerch, creditHeld, onPerch_here, countVoidPoison_perch, if_neg empty, onFinch,
    onPerch_onPerch]

theorem sendElastic_buffers {ch : Fin 4} (hch : tokenCh t = ch) (hb : s.fab.perch[p].run.backlog[chanIx dir ch] = [])
    (ho : s.fab.perch[p].run.outBuf[dirIx dir].length < 16) :
    sendElastic p dir t (onPerch p (fun x => { x with iss := k }) s) = onPerch p (fun x => { x with
      iss := k, run := { x.run with outBuf := vmod x.run.outBuf (dirIx dir) (· ++ [t]) } }) s := by
  subst hch
  simp only [sendElastic, onPerch_here, hb, ho, onRun, onPerch_onPerch]
  rfl

/-- Behind a backlog or a full buffer a token goes to the riser (R312). -/
theorem sendElastic_spills {ch : Fin 4} (hch : tokenCh t = ch) (h : s.fab.perch[p].run.backlog[chanIx dir ch] ≠ [] ∨
    16 ≤ s.fab.perch[p].run.outBuf[dirIx dir].length) :
    sendElastic p dir t (onPerch p (fun x => { x with iss := k }) s) =
      spill p dir false t (onPerch p (fun x => { x with iss := k }) s) := by
  subst hch
  have full : ¬(s.fab.perch[p].run.backlog[chanIx dir (tokenCh t)].isEmpty = true ∧
      s.fab.perch[p].run.outBuf[dirIx dir].length < 16) := by
    rw [List.isEmpty_iff]
    rintro ⟨hb, ho⟩
    exact h.elim (· hb) (by omega)
  simp only [sendElastic, onPerch_here, if_neg full]

theorem riserFree_onIss : riserFree (onPerch p (fun x => { x with iss := k }) s) p = riserFree s p := by
  simp only [riserFree, onPerch_here]
  rfl

theorem spill_enters (h : 0 < riserFree s p) : ∃ n,
    spill p dir false t (onPerch p (fun x => { x with iss := k }) s) =
      onCnt (fun c => { c with spillTokens := satInc 32 c.spillTokens, riserPeak := n })
        (onPerch p (fun x => { x with
          iss := k
          run := { x.run with backlog := vmod x.run.backlog (chanIx dir (tokenCh t)) (· ++ [(t, none)]) } }) s) := by
  have free : ¬riserFree (onPerch p (fun x => { x with iss := k }) s) p = 0 := by
    rw [riserFree_onIss]
    omega
  exact ⟨_, by simp only [spill, if_neg free, notePeak, onRun, onPerch_onPerch]; rfl⟩

theorem spill_drops (h : riserFree s p = 0) (front) : spill p dir front t (onPerch p (fun x => { x with iss := k }) s) =
    dropToken p (onPerch p (fun x => { x with iss := k }) s) := by
  rw [spill, if_pos (by rw [riserFree_onIss, h])]

theorem dropToken_perch : (dropToken p s).fab.perch = s.fab.perch := by
  simp [dropToken, markLine, markLines, onCnt]

theorem dropToken_riserDrops : (dropToken p s).fab.cnt.riserDrops = satInc 32 s.fab.cnt.riserDrops := by
  simp [dropToken, markLine, markLines, onCnt]

theorem dropToken_classCount : classCount (dropToken p s) 0x21 = satInc 32 (classCount s 0x21) :=
  classCount_report_faultCode (by decide) (128 + p.val) s

/-- The records of the beat from its row carry DEGRADED (R317). -/
theorem dropToken_lines : ∀ l ∈ (dropToken p s).spr.lines, l.line = (finchOf s p).beat → rowOf p ∈ l.degRows := by
  intro l hl hbeat
  simp only [dropToken, markLine, markLines, List.mem_map] at hl
  obtain ⟨y, _, rfl⟩ := hl
  split at hbeat
  · simp [*]
  · contradiction

end

/-! ### RECV -/

/-- The state with its elastic watches at `w`. -/
def setWatch (w : Vector Watch 16) (s : State) : State :=
  { s with fab := { s.fab with watch := w } }

theorem moved_setWatch (q link ch s) : ∃ w, moved q link ch s = setWatch w s := by
  unfold moved
  split
  · exact ⟨_, rfl⟩
  · exact ⟨s.fab.watch, rfl⟩

theorem logToken_onPerch (q t s) : ∃ k : Issue, logToken q t s = onPerch q (fun x => { x with iss := k }) s := by
  unfold logToken onWork onIss
  exact ⟨_, onPerch_congr rfl⟩

theorem vmod_comm {α : Type} {n : Nat} (v : Vector α n) {i j : Fin n} (h : i ≠ j) (f g : α → α) :
    vmod (vmod v j g) i f = vmod (vmod v i f) j g := by
  have hv : i.val ≠ j.val := fun e => h (Fin.ext e)
  simp only [vmod, Fin.getElem_fin, Vector.getElem_set_ne _ _ hv.symm, Vector.getElem_set_ne _ _ hv]
  exact Vector.set_comm _ _ hv.symm

/-- Changes of two perches come in either order. -/
theorem onPerch_comm {p q : Fin 72} (h : p ≠ q) (f g s) : onPerch p f (onPerch q g s) = onPerch q g (onPerch p f s) := by
  simp only [onPerch, vmod_comm _ h]

/-- A perch whose credit of a channel comes back on its link (R240). -/
def creditBack (link : Dir) (ch : Fin 4) (x : Perch) : Perch :=
  { x with run := { x.run with creditOnLink := vmod x.run.creditOnLink (chanIx (opposite link) ch) (· + 1) } }

theorem returnCredit_onPerch {s : State} {p q : Fin 72} {link : Dir} (hn : neighbour s p link = some q) (ch) :
    returnCredit p link ch s = onPerch q (creditBack link ch) s := by
  simp only [returnCredit, hn]
  rfl

/-- A Finch into which a taken token is written, or not (R322, R324). -/
def tookToken (t : Token) (write : Bool) (pd : Option (Fin 8)) (mark : Bool) (fi : Finch) : Finch :=
  if write then
    let fi := setInputWord t.data (t.poison || mark) fi
    match pd with
    | none => fi
    | some k => setPred k (!t.void) (t.poison || mark) fi
  else fi

theorem writeToken_onPerch (p t pd mark s) :
    writeToken p t pd mark s = onPerch p (fun x => { x with finch := tookToken t true pd mark x.finch }) s := by
  cases pd with
  | none => rfl
  | some k =>
    simp only [writeToken, onFinch, onPerch_onPerch]
    rfl

/-- Taking a token changes the perch that takes it, the sender whose credit comes back, and the watches. -/
theorem takeToken_eq {s : State} {p q : Fin 72} {link : Dir} (hn : neighbour s p link = some q) (hq : q ≠ p)
    (ch t write pd mark) : ∃ (w : Vector Watch 16) (i : Issue), takeToken p link ch t write pd mark s =
      setWatch w (onPerch q (creditBack link ch) (onPerch p (fun x => { x with
        iss := i
        run := { x.run with rxQ := vmod x.run.rxQ (chanIx link ch) (·.drop 1) }
        finch := tookToken t write pd mark x.finch }) s)) := by
  obtain ⟨w, hw⟩ := moved_setWatch p link ch (logToken p (some t) (returnCredit p link ch (dequeue p link ch s)))
  obtain ⟨i, hi⟩ := logToken_onPerch p (some t) (returnCredit p link ch (dequeue p link ch s))
  have credit : returnCredit p link ch (dequeue p link ch s) = onPerch q (creditBack link ch) (dequeue p link ch s) :=
    returnCredit_onPerch (show neighbour (dequeue p link ch s) p link = some q from hn) ch
  refine ⟨w, i, ?_⟩
  have watched (g : Perch → Perch) (u : State) : onPerch p g (setWatch w u) = setWatch w (onPerch p g u) := rfl
  rw [takeToken, hw, hi, credit, onPerch_comm hq.symm, dequeue, onRun, onPerch_onPerch]
  cases write with
  | false => rfl
  | true => simp only [if_true, writeToken_onPerch, watched, onPerch_comm hq.symm, onPerch_onPerch]

section
variable {s : State} {p q : Fin 72} {link : Dir} {ch : Fin 4} (hi : issues s p = true) (hn : neighbour s p link = some q)
  (g : PredSel) (pd : Option (Fin 8))
include hi hn

theorem execRecv_static (hk : chanKind s p link ch = 1) : ∃ k, execRecv p g link ch pd s =
    .next (recvStatic p link ch (predValue (opView s p (.recv p g link ch pd)) g) pd
      (predMark (opView s p (.recv p g link ch pd)) g) (onPerch p (fun x => { x with iss := k }) s)) := by
  obtain ⟨k, hslot⟩ := noteOp_beginOp p (.recv p g link ch pd) [] s
  exact ⟨k, by simp only [execRecv, hi, hn, hk, ← hslot]; rfl⟩

theorem execRecv_elastic (hk : chanKind s p link ch = 2) : ∃ k, execRecv p g link ch pd s =
    .next (if predValue (opView s p (.recv p g link ch pd)) g
      then recvElastic p link ch pd (predMark (opView s p (.recv p g link ch pd)) g) (onPerch p (fun x => { x with iss := k }) s)
      else logToken p none (onPerch p (fun x => { x with iss := k }) s)) := by
  obtain ⟨k, hslot⟩ := noteOp_beginOp p (.recv p g link ch pd) [] s
  exact ⟨k, by simp only [execRecv, hi, hn, hk, ← hslot]; rfl⟩

end

theorem execRecv_idle {s : State} {p : Fin 72} {link : Dir} (h : issues s p = false ∨ neighbour s p link = none)
    (g ch pd) : execRecv p g link ch pd s = .next s :=
  if_pos (h.imp_right fun none => by rw [none]; rfl)

theorem execRecv_unused {s : State} {p : Fin 72} {link : Dir} {ch : Fin 4} (h1 : chanKind s p link ch ≠ 1)
    (h2 : chanKind s p link ch ≠ 2) (g pd) : execRecv p g link ch pd s = .next s := by
  simp only [execRecv]
  split <;> rfl

/-- Perch `p` took the oldest token of a channel from `q`: its queue is `rest`, its Finch `fi`, and the credit is on its
way back (R240, R322). -/
structure Took (p q : Fin 72) (link : Dir) (ch : Fin 4) (rest : List (Nat × Token)) (fi : Finch) (s t : State) : Prop where
  run : t.fab.perch[p].run = { s.fab.perch[p].run with rxQ := s.fab.perch[p].run.rxQ.set (chanIx link ch) rest }
  finch : t.fab.perch[p].finch = fi
  back : t.fab.perch[q] = creditBack link ch s.fab.perch[q]
  flt : t.flt = s.flt
  cnt : t.fab.cnt = s.fab.cnt
  others : ∀ x : Fin 72, x ≠ p → x ≠ q → t.fab.perch[x] = s.fab.perch[x]

section
variable {p q : Fin 72} {link : Dir} {ch : Fin 4} {rest : List (Nat × Token)} {fi : Finch} {s t : State}
  (h : Took p q link ch rest fi s t)
include h

theorem Took.credit :
    t.fab.perch[q].run.creditOnLink = vmod s.fab.perch[q].run.creditOnLink (chanIx (opposite link) ch) (· + 1) := by
  rw [h.back]
  rfl

theorem Took.sender : t.fab.perch[q].finch = s.fab.perch[q].finch := by
  rw [h.back]
  rfl

end

theorem took_of {s : State} {p q : Fin 72} {link : Dir} {ch : Fin 4} {n : Nat} {k : Token} {rest : List (Nat × Token)}
    (hq : q ≠ p) (hrx : s.fab.perch[p].run.rxQ[chanIx link ch] = (n, k) :: rest) (w : Vector Watch 16) (i : Issue)
    (F : Finch → Finch) :
    Took p q link ch rest (F s.fab.perch[p].finch) s
      (setWatch w (onPerch q (creditBack link ch) (onPerch p (fun x => { x with
        iss := i
        run := { x.run with rxQ := vmod x.run.rxQ (chanIx link ch) (·.drop 1) }
        finch := F x.finch }) s))) := by
  have here : (setWatch w (onPerch q (creditBack link ch) (onPerch p (fun x => { x with
        iss := i
        run := { x.run with rxQ := vmod x.run.rxQ (chanIx link ch) (·.drop 1) }
        finch := F x.finch }) s))).fab.perch[p] = { s.fab.perch[p] with
        iss := i
        run := { s.fab.perch[p].run with rxQ := s.fab.perch[p].run.rxQ.set (chanIx link ch) rest }
        finch := F s.fab.perch[p].finch } :=
    (onPerch_there hq.symm ..).trans ((onPerch_here ..).trans (by simp only [vmod, hrx, List.drop_one, List.tail_cons]))
  have sender : (setWatch w (onPerch q (creditBack link ch) (onPerch p (fun x => { x with
        iss := i
        run := { x.run with rxQ := vmod x.run.rxQ (chanIx link ch) (·.drop 1) }
        finch := F x.finch }) s))).fab.perch[q] = creditBack link ch s.fab.perch[q] :=
    (onPerch_here ..).trans (congrArg _ (onPerch_there hq ..))
  exact ⟨by rw [here], by rw [here], sender, rfl, rfl,
    fun x hp hq' => (onPerch_there hq' ..).trans (onPerch_there hp ..)⟩

section
variable {s : State} {p q : Fin 72} {link : Dir} {ch : Fin 4} {n : Nat} {k : Token} {rest : List (Nat × Token)}

theorem frontToken_onIss (h : s.fab.perch[p].run.rxQ[chanIx link ch] = (n, k) :: rest) (i : Issue) :
    frontToken (onPerch p (fun x => { x with iss := i }) s) p link ch = some k := by
  simp only [frontToken, onPerch_here, h]
  rfl

theorem frontToken_onIss_empty (h : s.fab.perch[p].run.rxQ[chanIx link ch] = []) (i : Issue) :
    frontToken (onPerch p (fun x => { x with iss := i }) s) p link ch = none := by
  simp only [frontToken, onPerch_here, h]
  rfl

section
variable (hn : neighbour s p link = some q) (hq : q ≠ p) (hrx : s.fab.perch[p].run.rxQ[chanIx link ch] = (n, k) :: rest)
include hn hq hrx

theorem recvStatic_takes (i write pd mark) : Took p q link ch rest (tookToken k write pd mark s.fab.perch[p].finch) s
    (recvStatic p link ch write pd mark (onPerch p (fun x => { x with iss := i }) s)) := by
  obtain ⟨w, j, h⟩ := takeToken_eq (s := onPerch p (fun x => { x with iss := i }) s) hn hq ch k write pd mark
  simp only [recvStatic, frontToken_onIss hrx, h, onPerch_onPerch]
  exact took_of hq hrx w j (tookToken k write pd mark)

/-- What an elastic RECV that takes a token writes (R314). -/
def tookElastic (k : Token) (pd : Option (Fin 8)) (mark : Bool) (fi : Finch) : Finch :=
  match pd with
  | none => tookToken k true none mark fi
  | some d => setPred d true (k.poison || mark) (tookToken k true none mark fi)

theorem recvElastic_takes (i pd mark) : Took p q link ch rest (tookElastic k pd mark s.fab.perch[p].finch) s
    (recvElastic p link ch pd mark (onPerch p (fun x => { x with iss := i }) s)) := by
  obtain ⟨w, j, h⟩ := takeToken_eq (s := onPerch p (fun x => { x with iss := i }) s) hn hq ch k true none mark
  have watched (g : Perch → Perch) (u : State) : onPerch p g (setWatch w u) = setWatch w (onPerch p g u) := rfl
  cases pd with
  | none =>
    simp only [recvElastic, frontToken_onIss hrx, h, onPerch_onPerch]
    exact took_of hq hrx w j (tookToken k true none mark)
  | some d =>
    simp only [recvElastic, frontToken_onIss hrx, h, onFinch, watched, onPerch_comm hq.symm, onPerch_onPerch]
    exact took_of hq hrx w j (fun fi => setPred d true (k.poison || mark) (tookToken k true none mark fi))

end

section
variable (hrx : s.fab.perch[p].run.rxQ[chanIx link ch] = [])
include hrx

theorem recvStatic_stalls (i write pd mark) :
    recvStatic p link ch write pd mark (onPerch p (fun x => { x with iss := i }) s) = onPerch p (fun x => { x with
      iss := i
      finch := { x.finch with
        stalled := true
        stall := { Stall.reset with
          kind := .recv, chan := (chanIx link ch).val, predDst := pd, write := write, mark := mark } } }) s := by
  simp only [recvStatic, frontToken_onIss_empty hrx, onFinch, onPerch_onPerch]

/-- What an elastic RECV of an empty queue writes (R314). -/
def tookNothing (pd : Option (Fin 8)) (mark : Bool) (fi : Finch) : Finch :=
  match pd with
  | none => setInputWord 0 mark fi
  | some d => setPred d false mark (setInputWord 0 mark fi)

theorem recvElastic_empty (i pd mark) : ∃ j : Issue,
    recvElastic p link ch pd mark (onPerch p (fun x => { x with iss := i }) s) =
      onPerch p (fun x => { x with iss := j, finch := tookNothing pd mark x.finch }) s := by
  obtain ⟨j, h⟩ := logToken_onPerch p none
    (onFinch p (setInputWord 0 mark) (onPerch p (fun x => { x with iss := i }) s))
  simp only [onFinch, onPerch_onPerch] at h
  refine ⟨j, ?_⟩
  cases pd with
  | none => simp only [recvElastic, frontToken_onIss_empty hrx, h, onFinch, onPerch_onPerch, tookNothing]
  | some d => simp only [recvElastic, frontToken_onIss_empty hrx, h, onFinch, onPerch_onPerch, tookNothing]

end

end

/-! ### EGR and WAIT -/

theorem execEgr_pushes {s : State} {p : Fin 72} (hi : issues s p = true) (hroom : s.fab.perch[p].run.egr.length < 96)
    (g tag src) : ∃ k, execEgr p g tag src s = .next (onPerch p (fun x => { x with
      iss := k
      run := { x.run with egr := x.run.egr ++ [((finchOf s p).beat, tokenFor (opView s p (.egr p g tag src)) g 0 tag src)] } })
      (countVoidPoison (tokenFor (opView s p (.egr p g tag src)) g 0 tag src) s)) := by
  have go : ¬(issues s p = false ∨ 96 ≤ s.fab.perch[p].run.egr.length) :=
    fun h => h.elim (by simp [hi]) (by omega)
  obtain ⟨k, hslot⟩ := noteOp_beginOp p (.egr p g tag src)
    (tokenBytes (tokenFor (opView s p (.egr p g tag src)) g 0 tag src)) s
  exact ⟨k, by simp only [execEgr, if_neg go, hslot, onRun, onPerch_onPerch, countVoidPoison_onPerch]⟩

section
variable {s : State} {p : Fin 72} {k : Fin 16} {n : Nat} (hi : issues s p = true) (h0 : 1 ≤ n) (h1 : n ≤ 1048575)
include hi h0 h1

/-- WAIT stalls its Finch, and goes on at once when its counter is high enough (R270). -/
theorem execWait_stalls : ∃ i : Issue, execWait p k n s = .next (completeWait p (onPerch p (fun x => { x with
      iss := i
      finch := { x.finch with stalled := true, stall := { Stall.reset with kind := .wait, chan := k.val, n := n } } }) s)) := by
  have go : ¬(issues s p = false ∨ n = 0 ∨ 1048575 < n) :=
    fun h => h.elim (by simp [hi]) (by omega)
  obtain ⟨i, hslot⟩ := noteOp_beginOp p (.wait p k n) [] s
  exact ⟨i, by simp only [execWait, if_neg go, hslot, onFinch, onPerch_onPerch]⟩

theorem execWait_completes (hac : n ≤ s.fab.perch[p].wren.ac[k]) : ∃ i : Issue, execWait p k n s = .next (onPerch p (fun x => { x with
      iss := i
      wren := { x.wren with ac := vmod x.wren.ac k (· - n) }
      finch := { x.finch with stalled := false, stall := Stall.reset } }) s) := by
  obtain ⟨i, h⟩ := execWait_stalls (k := k) hi h0 h1
  refine ⟨i, ?_⟩
  rw [h, completeWait]
  simp only [finchOf, onPerch_here, Fin.ofNat_val_eq_self, hac, and_self, if_true, unstall, onFinch, onWren, onPerch_onPerch]

theorem execWait_waits (hac : s.fab.perch[p].wren.ac[k] < n) : ∃ i : Issue, execWait p k n s = .next (onPerch p (fun x => { x with
      iss := i
      finch := { x.finch with stalled := true, stall := { Stall.reset with kind := .wait, chan := k.val, n := n } } }) s) := by
  obtain ⟨i, h⟩ := execWait_stalls (k := k) hi h0 h1
  have low : ¬n ≤ s.fab.perch[p].wren.ac[k] := by omega
  refine ⟨i, ?_⟩
  rw [h, completeWait]
  simp only [finchOf, onPerch_here, Fin.ofNat_val_eq_self, low, and_false, if_false]

end

theorem execWait_idle {s : State} {p : Fin 72} {n : Nat} (h : issues s p = false ∨ n = 0 ∨ 1048575 < n) (k) :
    execWait p k n s = .next s :=
  if_pos h

/-! ### The clauses -/

section
variable {s : State} {p q : Fin 72} {g : PredSel} {dir : Dir} {ch : Fin 4} {tag : BitVec 4} {src : StSrc}
  (hi : issues s p = true) (hn : neighbour s p dir = some q)
include hi hn

theorem send_static (hk : chanKind s q (opposite dir) ch = 1) (hc : 0 < s.fab.perch[p].run.credit[chanIx dir ch]) :
    ∃ k, execSend p g dir ch tag src s = .next (onPerch p (fun x => { x with
      iss := k
      run := { x.run with
        credit := vmod x.run.credit (chanIx dir ch) (· - 1)
        waitTx := vmod x.run.waitTx (dirIx dir) (· ++ [sendToken s p g dir ch tag src])
        sentLater := vmod x.run.sentLater (chanIx dir ch) (· + 1) } })
      (countVoidPoison (sendToken s p g dir ch tag src) s)) := by
  obtain ⟨k, h⟩ := execSend_static hi hn g tag src hk
  rw [sendStatic_credit _ _ _ _ _ (tokenCh_sendToken ..) hc] at h
  exact ⟨k, h⟩

theorem send_stalls (hk : chanKind s q (opposite dir) ch = 1) (hc : s.fab.perch[p].run.credit[chanIx dir ch] = 0) :
    ∃ k, execSend p g dir ch tag src s = .next (onPerch p (fun x => { x with
      iss := k
      finch := { x.finch with
        stalled := true
        stall := { Stall.reset with
          kind := .send, chan := (chanIx dir ch).val, tok := sendToken s p g dir ch tag src } } })
      (countVoidPoison (sendToken s p g dir ch tag src) s)) := by
  obtain ⟨k, h⟩ := execSend_static hi hn g tag src hk
  rw [sendStatic_stalls _ _ _ _ _ (tokenCh_sendToken ..) hc] at h
  exact ⟨k, h⟩

theorem send_elastic_false (hk : chanKind s q (opposite dir) ch = 2)
    (hg : predValue (opView s p (.send p g dir ch tag src)) g = false) :
    ∃ k, execSend p g dir ch tag src s = .next (onPerch p (fun x => { x with iss := k }) s) := by
  obtain ⟨k, h⟩ := execSend_elastic hi hn g tag src hk
  exact ⟨k, by rw [h, if_neg (by simp [hg])]⟩

section
variable (hk : chanKind s q (opposite dir) ch = 2) (hg : predValue (opView s p (.send p g dir ch tag src)) g = true)
include hk hg

theorem send_buffers (hb : s.fab.perch[p].run.backlog[chanIx dir ch] = []) (ho : s.fab.perch[p].run.outBuf[dirIx dir].length < 16) :
    ∃ k, execSend p g dir ch tag src s = .next (onPerch p (fun x => { x with
      iss := k
      run := { x.run with outBuf := vmod x.run.outBuf (dirIx dir) (· ++ [sendToken s p g dir ch tag src]) } }) s) := by
  obtain ⟨k, h⟩ := execSend_elastic hi hn g tag src hk
  rw [if_pos hg, sendElastic_buffers _ _ _ _ _ (tokenCh_sendToken ..) hb ho] at h
  exact ⟨k, h⟩

variable (hb : s.fab.perch[p].run.backlog[chanIx dir ch] ≠ [] ∨ 16 ≤ s.fab.perch[p].run.outBuf[dirIx dir].length)
include hb

theorem send_spills (hr : 0 < riserFree s p) : ∃ k n, execSend p g dir ch tag src s = .next
    (onCnt (fun c => { c with spillTokens := satInc 32 c.spillTokens, riserPeak := n })
      (onPerch p (fun x => { x with
        iss := k
        run := { x.run with
          backlog := vmod x.run.backlog (chanIx dir ch) (· ++ [(sendToken s p g dir ch tag src, none)]) } }) s)) := by
  obtain ⟨k, h⟩ := execSend_elastic hi hn g tag src hk
  obtain ⟨n, hs⟩ := spill_enters p dir (sendToken s p g dir ch tag src) k s hr
  rw [if_pos hg, sendElastic_spills _ _ _ _ _ (tokenCh_sendToken ..) hb, hs, tokenCh_sendToken] at h
  exact ⟨k, n, h⟩

theorem send_drops (hr : riserFree s p = 0) : ∃ k, execSend p g dir ch tag src s =
    .next (dropToken p (onPerch p (fun x => { x with iss := k }) s)) := by
  obtain ⟨k, h⟩ := execSend_elastic hi hn g tag src hk
  rw [if_pos hg, sendElastic_spills _ _ _ _ _ (tokenCh_sendToken ..) hb, spill_drops _ _ _ _ _ hr] at h
  exact ⟨k, h⟩

end

end

section
variable {s : State} {p q : Fin 72} {g : PredSel} {link : Dir} {ch : Fin 4} {pd : Option (Fin 8)}
  (hi : issues s p = true) (hn : neighbour s p link = some q)
include hi hn

theorem recv_static_takes {n : Nat} {k : Token} {rest : List (Nat × Token)} (hq : q ≠ p) (hk : chanKind s p link ch = 1)
    (hrx : s.fab.perch[p].run.rxQ[chanIx link ch] = (n, k) :: rest) : ∃ t, execRecv p g link ch pd s = .next t ∧
      Took p q link ch rest (tookToken k (predValue (opView s p (.recv p g link ch pd)) g) pd
        (predMark (opView s p (.recv p g link ch pd)) g) s.fab.perch[p].finch) s t := by
  obtain ⟨i, h⟩ := execRecv_static hi hn g pd hk
  exact ⟨_, h, recvStatic_takes hn hq hrx ..⟩

theorem recv_elastic_takes {n : Nat} {k : Token} {rest : List (Nat × Token)} (hq : q ≠ p) (hk : chanKind s p link ch = 2)
    (hg : predValue (opView s p (.recv p g link ch pd)) g = true)
    (hrx : s.fab.perch[p].run.rxQ[chanIx link ch] = (n, k) :: rest) : ∃ t, execRecv p g link ch pd s = .next t ∧
      Took p q link ch rest (tookElastic k pd (predMark (opView s p (.recv p g link ch pd)) g) s.fab.perch[p].finch) s t := by
  obtain ⟨i, h⟩ := execRecv_elastic hi hn g pd hk
  rw [if_pos hg] at h
  exact ⟨_, h, recvElastic_takes hn hq hrx ..⟩

theorem recv_static_stalls (hk : chanKind s p link ch = 1) (hrx : s.fab.perch[p].run.rxQ[chanIx link ch] = []) :
    ∃ i : Issue, execRecv p g link ch pd s = .next (onPerch p (fun x => { x with
      iss := i
      finch := { x.finch with
        stalled := true
        stall := { Stall.reset with
          kind := .recv
          chan := (chanIx link ch).val
          predDst := pd
          write := predValue (opView s p (.recv p g link ch pd)) g
          mark := predMark (opView s p (.recv p g link ch pd)) g } } }) s) := by
  obtain ⟨i, h⟩ := execRecv_static hi hn g pd hk
  rw [recvStatic_stalls hrx] at h
  exact ⟨i, h⟩

theorem recv_elastic_empty (hk : chanKind s p link ch = 2) (hg : predValue (opView s p (.recv p g link ch pd)) g = true)
    (hrx : s.fab.perch[p].run.rxQ[chanIx link ch] = []) : ∃ i : Issue, execRecv p g link ch pd s = .next (onPerch p (fun x =>
      { x with iss := i, finch := tookNothing pd (predMark (opView s p (.recv p g link ch pd)) g) x.finch }) s) := by
  obtain ⟨k, h⟩ := execRecv_elastic hi hn g pd hk
  obtain ⟨i, hr⟩ := recvElastic_empty hrx k pd (predMark (opView s p (.recv p g link ch pd)) g)
  rw [if_pos hg, hr] at h
  exact ⟨i, h⟩

/-- Under a false predicate only the log of the beat changes (R314). -/
theorem recv_elastic_false (hk : chanKind s p link ch = 2) (hg : predValue (opView s p (.recv p g link ch pd)) g = false) :
    ∃ i : Issue, execRecv p g link ch pd s = .next (onPerch p (fun x => { x with iss := i }) s) := by
  obtain ⟨k, h⟩ := execRecv_elastic hi hn g pd hk
  obtain ⟨i, hl⟩ := logToken_onPerch p none (onPerch p (fun x => { x with iss := k }) s)
  rw [if_neg (by simp [hg]), hl, onPerch_onPerch] at h
  exact ⟨i, h⟩

end

/-- Settles O35: every clause from the operation's next state as a change of its own perch, its sender and the
counters. -/
theorem runnerOpsMoveTokens : Obligations.RunnerOpsMoveTokens := by
  unfold Obligations.RunnerOpsMoveTokens
  refine ⟨?sendCredit, ?sendStall, ?buffers, ?spills, ?drops, ?sendFalse, fun s p g dir ch tag src h => execSend_idle h ..,
    fun s p q g dir ch tag src hn h1 h2 => execSend_unused hn h1 h2 .., ?staticPred, ?static, ?elasticPred, ?elastic,
    ?staticFalse, ?stalls, ?emptyPred, ?empty, ?elasticFalse, fun s p g link ch pd h => execRecv_idle h ..,
    fun s p g link ch pd h1 h2 => execRecv_unused h1 h2 .., ?egr, fun s p g tag src h => if_pos h, ?completes, ?waits,
    fun s p k n h => execWait_idle h k⟩
  case sendCredit =>
    intro s p q g dir ch tag src hi hn hk hc
    obtain ⟨k, h⟩ := send_static (g := g) (tag := tag) (src := src) hi hn hk hc
    refine ⟨_, h, ?_, ?_, ?_, countVoidPoison_flt .., countVoidPoison_spr .., fun x hx => by
      rw [onPerch_there hx, countVoidPoison_perch]⟩
    all_goals rw [onPerch_here, countVoidPoison_perch]
    rfl
  case sendStall =>
    intro s p q g dir ch tag src hi hn hk hc
    obtain ⟨k, h⟩ := send_stalls (g := g) (tag := tag) (src := src) hi hn hk hc
    refine ⟨_, h, ?_, ?_, ?_, countVoidPoison_flt .., countVoidPoison_spr .., fun x hx => by
      rw [onPerch_there hx, countVoidPoison_perch]⟩
    all_goals rw [onPerch_here, countVoidPoison_perch]
    rfl
  case buffers =>
    intro s p q g dir ch tag src hi hn hk hg hb ho
    obtain ⟨k, h⟩ := send_buffers hi hn hk hg hb ho
    refine ⟨_, h, ?_, ?_, ?_, rfl, rfl, rfl, fun x hx => onPerch_there hx ..⟩
    all_goals rw [onPerch_here]
    rfl
  case spills =>
    intro s p q g dir ch tag src hi hn hk hg hb hr
    obtain ⟨k, n, h⟩ := send_spills hi hn hk hg hb hr
    refine ⟨_, h, ?_, rfl, ?_, ?_, rfl, rfl, fun x hx => onPerch_there hx ..⟩
    all_goals
      simp only [onCnt]
      rw [onPerch_here]
    rfl
  case drops =>
    intro s p q g dir ch tag src hi hn hk hg hb hr
    obtain ⟨k, h⟩ := send_drops hi hn hk hg hb hr
    have beat : (finchOf (onPerch p (fun x => { x with iss := k }) s) p).beat = (finchOf s p).beat := by
      rw [finchOf, onPerch_here]
      rfl
    refine ⟨_, h, ?_, ?_, ?_, dropToken_riserDrops .., dropToken_classCount .., fun l hl hb =>
      dropToken_lines _ _ l hl (hb.trans beat.symm), fun x hx => by rw [dropToken_perch, onPerch_there hx]⟩
    all_goals rw [dropToken_perch, onPerch_here]
  case sendFalse =>
    intro s p q g dir ch tag src hi hn hk hg
    obtain ⟨k, h⟩ := send_elastic_false hi hn hk hg
    refine ⟨_, h, ?_, ?_, ?_, rfl, rfl, rfl, fun x hx => onPerch_there hx ..⟩
    all_goals rw [onPerch_here]
  case staticPred =>
    intro s p q g link ch pd n k rest hi hn hq hk hg hrx
    obtain ⟨t, h, took⟩ := recv_static_takes (g := g) (pd := some pd) hi hn hq hk hrx
    rw [hg] at took
    exact ⟨t, h, took.run, took.finch, took.credit, took.sender, took.flt, took.cnt, took.others⟩
  case static =>
    intro s p q g link ch n k rest hi hn hq hk hg hrx
    obtain ⟨t, h, took⟩ := recv_static_takes (g := g) (pd := none) hi hn hq hk hrx
    rw [hg] at took
    exact ⟨t, h, took.run, took.finch, took.credit, took.sender, took.flt, took.cnt, took.others⟩
  case elasticPred =>
    intro s p q g link ch pd n k rest hi hn hq hk hg hrx
    obtain ⟨t, h, took⟩ := recv_elastic_takes hi hn hq hk hg hrx
    exact ⟨t, h, took.run, took.finch, took.credit, took.sender, took.flt, took.cnt, took.others⟩
  case elastic =>
    intro s p q g link ch n k rest hi hn hq hk hg hrx
    obtain ⟨t, h, took⟩ := recv_elastic_takes hi hn hq hk hg hrx
    exact ⟨t, h, took.run, took.finch, took.credit, took.sender, took.flt, took.cnt, took.others⟩
  case staticFalse =>
    intro s p q g link ch pd n k rest hi hn hq hk hg hrx
    obtain ⟨t, h, took⟩ := recv_static_takes (g := g) (pd := pd) hi hn hq hk hrx
    rw [hg] at took
    exact ⟨t, h, took.run, took.finch, took.credit, took.sender, took.flt, took.cnt, took.others⟩
  case stalls =>
    intro s p q g link ch pd hi hn hk hrx
    obtain ⟨i, h⟩ := recv_static_stalls (g := g) (pd := pd) hi hn hk hrx
    refine ⟨_, h, ?_, ?_, ?_, rfl, rfl, fun x hx => onPerch_there hx ..⟩
    all_goals rw [onPerch_here]
  case emptyPred =>
    intro s p q g link ch pd hi hn hk hg hrx
    obtain ⟨i, h⟩ := recv_elastic_empty hi hn hk hg hrx
    refine ⟨_, h, ?_, ?_, ?_, rfl, rfl, fun x hx => onPerch_there hx ..⟩
    all_goals rw [onPerch_here]
    rfl
  case empty =>
    intro s p q g link ch hi hn hk hg hrx
    obtain ⟨i, h⟩ := recv_elastic_empty hi hn hk hg hrx
    refine ⟨_, h, ?_, ?_, ?_, rfl, rfl, fun x hx => onPerch_there hx ..⟩
    all_goals rw [onPerch_here]
    rfl
  case elasticFalse =>
    intro s p q g link ch pd hi hn hk hg
    obtain ⟨i, h⟩ := recv_elastic_false hi hn hk hg
    refine ⟨_, h, ?_, ?_, ?_, rfl, rfl, fun x hx => onPerch_there hx ..⟩
    all_goals rw [onPerch_here]
  case egr =>
    intro s p g tag src hi hroom
    obtain ⟨k, h⟩ := execEgr_pushes hi hroom g tag src
    refine ⟨_, h, ?_, ?_, ?_, countVoidPoison_flt .., countVoidPoison_spr .., fun x hx => by
      rw [onPerch_there hx, countVoidPoison_perch]⟩
    all_goals rw [onPerch_here, countVoidPoison_perch]
  case completes =>
    intro s p k n hi h0 h1 hac
    obtain ⟨i, h⟩ := execWait_completes hi h0 h1 hac
    refine ⟨_, h, ?_, ?_, ?_, rfl, fun x hx => onPerch_there hx ..⟩
    all_goals rw [onPerch_here]
  case waits =>
    intro s p k n hi h0 h1 hac
    obtain ⟨i, h⟩ := execWait_waits hi h0 h1 hac
    refine ⟨_, h, ?_, ?_, ?_, rfl, fun x hx => onPerch_there hx ..⟩
    all_goals rw [onPerch_here]

end Sys2Proof.Machine

/-! SUPPORT. Links and credits (family 06_perch_fabric.md): what a fault of class 0x20 with bit 7 changes, what a token that
arrives does to the perch it reaches, and how a SEND that waits goes on. Settles O37. -/

namespace Sys2Proof.Machine

/-! ### Class 0x20 with bit 7 -/

/-- The fault is reported, the line of the beat degraded and the occurrence kept (R115, R241). -/
def creditNoted (p : Fin 72) (s : State) : State :=
  let t := degradeBeat p (report (faultCode 0x20 (128 + p.val)) s)
  { t with flt := { t.flt with creditSeen := (p.val, t.lt.line) :: t.flt.creditSeen.filter fun x => x.1 != p.val } }

/-- An occurrence of the perch within 64 lines stands in the state. -/
def creditRecurs (p : Fin 72) (s : State) : Bool :=
  s.flt.creditSeen.any fun x => x.1 = p.val && linePast (lineAdd x.2 64) s.lt.line

theorem creditFault_eq (p s) :
    creditFault p s = if creditRecurs p s then finding p (creditNoted p s) else creditNoted p s := rfl

section
variable (p : Fin 72) (s : State)

theorem creditNoted_fab : (creditNoted p s).fab = s.fab := by
  simp only [creditNoted, degradeBeat, markLine, markLines, report_fab]

theorem creditNoted_img : (creditNoted p s).img = s.img := by
  simp only [creditNoted, degradeBeat, markLine, markLines, report_img]

theorem creditNoted_classCount : classCount (creditNoted p s) 0x20 = satInc 32 (classCount s 0x20) := by
  rw [← classCount_report_faultCode (by decide) (128 + p.val) s]
  simp only [classCount, creditNoted, degradeBeat, markLine, markLines]

theorem creditNoted_seen : (p.val, s.lt.line) ∈ (creditNoted p s).flt.creditSeen := by
  have line : (degradeBeat p (report (faultCode 0x20 (128 + p.val)) s)).lt.line = s.lt.line := by
    simp [degradeBeat, markLine, markLines]
  simp [creditNoted, line]

theorem finding_tokSeq : (finding p s).fab.tokSeq = s.fab.tokSeq := by
  unfold finding
  dsimp only
  (repeat' split) <;> rfl

theorem creditFault_tokSeq : (creditFault p s).fab.tokSeq = s.fab.tokSeq := by
  rw [creditFault_eq]
  split <;> simp only [finding_tokSeq, creditNoted_fab]

theorem creditFault_cnt : (creditFault p s).fab.cnt = s.fab.cnt := by
  rw [creditFault_eq]
  split <;> simp only [finding_cnt, creditNoted_fab]

theorem creditFault_flt : (creditFault p s).flt = (creditNoted p s).flt := by
  rw [creditFault_eq]
  split
  · exact finding_flt ..
  · rfl

theorem creditFault_classCount : classCount (creditFault p s) 0x20 = satInc 32 (classCount s 0x20) :=
  (classCount_congr (creditFault_flt p s) _).trans (creditNoted_classCount p s)

theorem creditFault_seen : (p.val, s.lt.line) ∈ (creditFault p s).flt.creditSeen := by
  rw [creditFault_flt]
  exact creditNoted_seen p s

/-- Of the perch itself the fault changes at most FAILED. -/
theorem creditFault_here : ∃ b, (creditFault p s).fab.perch[p] = { s.fab.perch[p] with failed := b } := by
  rw [creditFault_eq]
  split
  · simp only [finding_perch, creditNoted_fab]
    split
    · exact ⟨_, rfl⟩
    · exact ⟨true, vmod_same ..⟩
  · exact ⟨_, congrArg (fun f : Fab => f.perch[p]) (creditNoted_fab p s)⟩

theorem creditFault_elsewhere {q : Fin 72} (hq : q ≠ p) : (creditFault p s).fab.perch[q] = s.fab.perch[q] := by
  have noted : (creditNoted p s).fab.perch[q] = s.fab.perch[q] := by rw [creditNoted_fab]
  rw [creditFault_eq]
  split
  · rw [finding_elsewhere hq, noted]
  · exact noted

end

/-! ### LINK_TRANSFER -/

/-- The link takes the first token whose channel holds a credit (R313). -/
theorem pickElastic_append (credit : Fin 4 → Nat) {pre : List Token} {k : Token} (post : List Token)
    (hpre : ∀ x ∈ pre, credit (tokenCh x) = 0) (hk : 0 < credit (tokenCh k)) :
    pickElastic credit (pre ++ k :: post) = some (k, pre ++ post) := by
  induction pre with
  | nil => simp [pickElastic, hk]
  | cons x xs ih =>
    obtain ⟨hx, hxs⟩ := List.forall_mem_cons.mp hpre
    simp [pickElastic, hx, ih hxs]

theorem pickElastic_none (credit : Fin 4 → Nat) {l : List Token} (h : ∀ x ∈ l, credit (tokenCh x) = 0) :
    pickElastic credit l = none := by
  induction l with
  | nil => rfl
  | cons x xs ih =>
    obtain ⟨hx, hxs⟩ := List.forall_mem_cons.mp h
    simp [pickElastic, hx, ih hxs]

section
variable {s : State} {p q : Fin 72} {dir : Dir} (hn : neighbour s p dir = some q)
  (hl : s.fab.perch[p].run.onLink[dirIx dir] = none)
include hn hl

theorem linkTransfer_static {k : Token} {rest : List Token} (hw : s.fab.perch[p].run.waitTx[dirIx dir] = k :: rest) :
    execLinkTransfer p dir s = .next (onPerch p (fun x => { x with run := { x.run with
      waitTx := x.run.waitTx.set (dirIx dir) rest
      onLink := x.run.onLink.set (dirIx dir) (some (k, false)) } }) s) := by
  simp only [execLinkTransfer, hn, hl, hw]
  rfl

theorem linkTransfer_elastic {k : Token} {pre post : List Token} (hw : s.fab.perch[p].run.waitTx[dirIx dir] = [])
    (ho : s.fab.perch[p].run.outBuf[dirIx dir] = pre ++ k :: post)
    (hpre : ∀ x ∈ pre, s.fab.perch[p].run.credit[chanIx dir (tokenCh x)] = 0)
    (hk : 0 < s.fab.perch[p].run.credit[chanIx dir (tokenCh k)]) :
    execLinkTransfer p dir s = .next (onPerch p (fun x => { x with run := { x.run with
      outBuf := x.run.outBuf.set (dirIx dir) (pre ++ post)
      credit := vmod x.run.credit (chanIx dir (tokenCh k)) (· - 1)
      onLink := x.run.onLink.set (dirIx dir) (some (k, false)) } }) s) := by
  have pick := pickElastic_append (fun c => s.fab.perch[p].run.credit[chanIx dir c]) post hpre hk
  simp only [execLinkTransfer, hn, hl, hw, ho, pick]
  rfl

end

theorem linkTransfer_idle {s : State} {p : Fin 72} {dir : Dir}
    (h : neighbour s p dir = none ∨ s.fab.perch[p].run.onLink[dirIx dir] ≠ none) : execLinkTransfer p dir s = .next s :=
  if_pos (h.imp Option.isNone_iff_eq_none.mpr Option.isSome_iff_ne_none.mpr)

/-- No token may go (R313). -/
theorem linkTransfer_nothing {s : State} {p : Fin 72} {dir : Dir} (hw : s.fab.perch[p].run.waitTx[dirIx dir] = [])
    (ho : ∀ x ∈ s.fab.perch[p].run.outBuf[dirIx dir], s.fab.perch[p].run.credit[chanIx dir (tokenCh x)] = 0) :
    execLinkTransfer p dir s = .next s := by
  have pick := pickElastic_none (fun c => s.fab.perch[p].run.credit[chanIx dir c]) ho
  simp only [execLinkTransfer, hw, pick]
  split <;> rfl

/-! ### A token arrives -/

theorem incoming_some {s : State} {p q : Fin 72} {dir : Dir} {k : Token} {again : Bool}
    (h : incoming s p dir = some (q, k, again)) : neighbour s p dir = some q := by
  unfold incoming at h
  split at h
  · contradiction
  next hn =>
    simp only [Option.map_eq_some_iff] at h
    obtain ⟨_, _, h⟩ := h
    rw [hn, (Prod.mk.inj h).1]

/-- A perch with the link of a direction free. -/
def linkFree (dir : Dir) (x : Perch) : Perch :=
  { x with run := { x.run with onLink := x.run.onLink.set (dirIx dir) none } }

/-- From `s` to `u` the link of `q` has been freed; counters and reports may differ. -/
structure Freed (q : Fin 72) (dir : Dir) (s u : State) : Prop where
  perch : u.fab.perch = vmod s.fab.perch q (linkFree dir)
  tokSeq : u.fab.tokSeq = s.fab.tokSeq
  neighbours : ∀ p d, neighbour u p d = neighbour s p d

theorem clearLink_freed (q dir s) : Freed q dir s (clearLink q dir s) := ⟨rfl, rfl, fun _ _ => rfl⟩

theorem onCnt_clearLink_freed (q dir f s) : Freed q dir s (onCnt f (clearLink q dir s)) := ⟨rfl, rfl, fun _ _ => rfl⟩

theorem neighbour_congr {s t : State} (hi : t.img = s.img) (hf : t.fab = s.fab) (p d) :
    neighbour t p d = neighbour s p d := by
  simp only [neighbour, logCol, perchAt, physCol, hi, hf]

theorem report_clearLink_freed (q dir code s) : Freed q dir s (report code (clearLink q dir s)) :=
  ⟨by rw [report_fab]; rfl, by rw [report_fab]; rfl, neighbour_congr (s := clearLink q dir s) (report_img ..) (report_fab ..)⟩

section
variable {p q : Fin 72} {dir : Dir} {s u : State} (hf : Freed q (opposite dir) s u) (hq : q ≠ p)
include hf

theorem Freed.sender : u.fab.perch[q] = linkFree (opposite dir) s.fab.perch[q] := by
  rw [hf.perch]
  exact vmod_same ..

theorem Freed.other {x : Fin 72} (hx : x ≠ q) : u.fab.perch[x] = s.fab.perch[x] := by
  rw [hf.perch]
  exact vmod_other _ _ _ _ hx

end

theorem report_clearLink_cnt (q dir code s) : (report code (clearLink q dir s)).fab.cnt = s.fab.cnt := by
  rw [report_fab]
  rfl

theorem report_clearLink_classCount (q dir) (p : Fin 72) (s) :
    classCount (report (faultCode 0x20 p.val) (clearLink q dir s)) 0x20 = satInc 32 (classCount s 0x20) :=
  classCount_report_faultCode (by decide) p.val (clearLink q dir s)

/-- The token `k` has its number and stands in its receive queue. -/
def queued (p : Fin 72) (dir : Dir) (k : Token) (s : State) : State :=
  onRun p (fun x => { x with rxQ := vmod x.rxQ (chanIx dir (tokenCh k)) (· ++ [(s.fab.tokSeq, k)]) })
    { s with fab := { s.fab with tokSeq := s.fab.tokSeq + 1 } }

theorem deliver_room {p : Fin 72} {dir : Dir} {k : Token} {s : State}
    (h : s.fab.perch[p].run.rxQ[chanIx dir (tokenCh k)].length < 16) : ∃ w,
    deliver p dir k s = releaseRecv p dir (tokenCh k) (setWatch w (queued p dir k s)) := by
  obtain ⟨w, hw⟩ := moved_setWatch p dir (tokenCh k) (queued p dir k s)
  refine ⟨w, ?_⟩
  rw [← hw, deliver, if_neg (by omega)]
  rfl

theorem queued_here (p dir k s) : (queued p dir k s).fab.perch[p] = { s.fab.perch[p] with run := { s.fab.perch[p].run with
    rxQ := vmod s.fab.perch[p].run.rxQ (chanIx dir (tokenCh k)) (· ++ [(s.fab.tokSeq, k)]) } } :=
  onPerch_here ..

theorem queued_there {p q : Fin 72} (hq : q ≠ p) (dir k s) : (queued p dir k s).fab.perch[q] = s.fab.perch[q] :=
  onPerch_there hq ..

/-- The Finch waits in a RECV for a token of channel `i`. -/
def waitsFor (fi : Finch) (i : Fin 16) : Prop :=
  fi.stalled = true ∧ fi.stall.kind = .recv ∧ fi.stall.chan = i.val

theorem not_waitsFor {fi : Finch} {i : Fin 16}
    (h : fi.stalled = false ∨ fi.stall.kind ≠ .recv ∨ fi.stall.chan ≠ i.val) : ¬waitsFor fi i := by
  rintro ⟨stalled, kind, chan⟩
  rcases h with h | h | h
  · rw [stalled] at h
    contradiction
  · exact h kind
  · exact h chan

/-- A token that arrived stands in its queue (R237). -/
structure Joined (p q : Fin 72) (dir : Dir) (k : Token) (s u t : State) : Prop where
  sender : t.fab.perch[q].run = { s.fab.perch[q].run with onLink := s.fab.perch[q].run.onLink.set (dirIx (opposite dir)) none }
  run : t.fab.perch[p].run = { s.fab.perch[p].run with
    rxQ := vmod s.fab.perch[p].run.rxQ (chanIx dir (tokenCh k)) (· ++ [(s.fab.tokSeq, k)]) }
  finch : t.fab.perch[p].finch = s.fab.perch[p].finch
  tokSeq : t.fab.tokSeq = s.fab.tokSeq + 1
  flt : t.flt = u.flt
  cnt : t.fab.cnt = u.fab.cnt
  others : ∀ x : Fin 72, x ≠ p → x ≠ q → t.fab.perch[x] = s.fab.perch[x]

/-- A token that arrived went to the RECV that waited for it (R240, R243). -/
structure TakenUp (p q : Fin 72) (dir : Dir) (k : Token) (s u t : State) : Prop where
  sender : t.fab.perch[q].run = { s.fab.perch[q].run with
    onLink := s.fab.perch[q].run.onLink.set (dirIx (opposite dir)) none
    creditOnLink := vmod s.fab.perch[q].run.creditOnLink (chanIx (opposite dir) (tokenCh k)) (· + 1) }
  queue : t.fab.perch[p].run.rxQ[chanIx dir (tokenCh k)] = []
  finch : t.fab.perch[p].finch = recvGoesOn s.fab.perch[p].finch k k.poison
  flt : t.flt = u.flt
  cnt : t.fab.cnt = u.fab.cnt
  others : ∀ x : Fin 72, x ≠ p → x ≠ q → t.fab.perch[x] = s.fab.perch[x]

/-- A token that found its queue full was dropped (R235). -/
structure Dropped (p q : Fin 72) (dir : Dir) (s u t : State) : Prop where
  sender : t.fab.perch[q].run = { s.fab.perch[q].run with onLink := s.fab.perch[q].run.onLink.set (dirIx (opposite dir)) none }
  run : t.fab.perch[p].run = s.fab.perch[p].run
  tokSeq : t.fab.tokSeq = s.fab.tokSeq
  reported : classCount t 0x20 = satInc 32 (classCount u 0x20)
  cnt : t.fab.cnt = u.fab.cnt

/-- The RECV that waited has its token and no longer stalls (R240, R322). -/
theorem recvGoesOn_eq (fi : Finch) (k : Token) :
    { tookToken k fi.stall.write fi.stall.predDst fi.stall.mark fi with stalled := false, stall := Stall.reset } =
      recvGoesOn fi k k.poison := by
  unfold tookToken recvGoesOn
  cases fi.stall.write with
  | false => rfl
  | true =>
    cases fi.stall.predDst with
    | none => rfl
    | some d => rfl

/-- A RECV that waits takes the token that came, and its stall ends. -/
theorem releaseRecv_takes {s : State} {p q : Fin 72} {link : Dir} {ch : Fin 4} {n : Nat} {k : Token}
    (hn : neighbour s p link = some q) (hq : q ≠ p) (hrx : s.fab.perch[p].run.rxQ[chanIx link ch] = [(n, k)])
    (hw : waitsFor s.fab.perch[p].finch (chanIx link ch)) : ∃ t,
      Took p q link ch [] (tookToken k s.fab.perch[p].finch.stall.write s.fab.perch[p].finch.stall.predDst
        s.fab.perch[p].finch.stall.mark s.fab.perch[p].finch) s t ∧ releaseRecv p link ch s = unstall p t := by
  have front : frontToken s p link ch = some k := by
    rw [frontToken, hrx]
    rfl
  obtain ⟨w, i, take⟩ := takeToken_eq hn hq ch k s.fab.perch[p].finch.stall.write s.fab.perch[p].finch.stall.predDst
    s.fab.perch[p].finch.stall.mark
  refine ⟨_, took_of hq hrx w i (tookToken k s.fab.perch[p].finch.stall.write s.fab.perch[p].finch.stall.predDst
    s.fab.perch[p].finch.stall.mark), ?_⟩
  rw [← take]
  simp only [releaseRecv, finchOf, front]
  exact if_pos hw

section
variable {p q : Fin 72} {dir : Dir} {k : Token} {s u : State} (hf : Freed q (opposite dir) s u) (hq : q ≠ p)
include hf hq

theorem deliver_joins (hroom : s.fab.perch[p].run.rxQ[chanIx dir (tokenCh k)].length < 16)
    (hw : ¬waitsFor s.fab.perch[p].finch (chanIx dir (tokenCh k))) : Joined p q dir k s u (deliver p dir k u) := by
  have hp := hf.other hq.symm
  obtain ⟨w, h⟩ := deliver_room (p := p) (dir := dir) (k := k) (s := u) (by rwa [hp])
  have here : (setWatch w (queued p dir k u)).fab.perch[p] = _ := queued_here p dir k u
  rw [hp, hf.tokSeq] at here
  have kept : releaseRecv p dir (tokenCh k) (setWatch w (queued p dir k u)) = setWatch w (queued p dir k u) := by
    simp only [releaseRecv, finchOf, here]
    exact if_neg hw
  rw [h, kept]
  exact ⟨(congrArg Perch.run (queued_there hq dir k u)).trans (by rw [hf.sender]; rfl), by rw [here], by rw [here],
    congrArg (· + 1) hf.tokSeq, rfl, rfl, fun x hx hxq => (queued_there hx dir k u).trans (hf.other hxq)⟩

theorem deliver_takenUp (hn : neighbour s p dir = some q) (hrx : s.fab.perch[p].run.rxQ[chanIx dir (tokenCh k)] = [])
    (hw : waitsFor s.fab.perch[p].finch (chanIx dir (tokenCh k))) : TakenUp p q dir k s u (deliver p dir k u) := by
  have hp := hf.other hq.symm
  obtain ⟨w, h⟩ := deliver_room (p := p) (dir := dir) (k := k) (s := u) (by rw [hp, hrx]; decide)
  have here : (setWatch w (queued p dir k u)).fab.perch[p] = _ := queued_here p dir k u
  have there {x : Fin 72} (hx : x ≠ p) : (setWatch w (queued p dir k u)).fab.perch[x] = u.fab.perch[x] :=
    queued_there hx dir k u
  have flt : (setWatch w (queued p dir k u)).flt = u.flt := rfl
  have cnt : (setWatch w (queued p dir k u)).fab.cnt = u.fab.cnt := rfl
  have link : neighbour (setWatch w (queued p dir k u)) p dir = some q := (hf.neighbours p dir).trans hn
  rw [hp, hf.tokSeq] at here
  rw [h]
  generalize setWatch w (queued p dir k u) = v at here there flt cnt link ⊢
  have queue : v.fab.perch[p].run.rxQ[chanIx dir (tokenCh k)] = [(s.fab.tokSeq, k)] := by
    rw [here]
    exact (vmod_same ..).trans (by rw [hrx]; rfl)
  have finch : v.fab.perch[p].finch = s.fab.perch[p].finch := by rw [here]
  obtain ⟨t, took, freed⟩ := releaseRecv_takes link hq queue (by rwa [finch])
  rw [finch] at took
  rw [freed]
  have mine := onFinch_here p (fun x => { x with stalled := false, stall := Stall.reset }) t
  have theirs {x : Fin 72} (hx : x ≠ p) : (unstall p t).fab.perch[x] = t.fab.perch[x] := onPerch_there hx ..
  refine ⟨?_, ?_, ?_, took.flt.trans flt, took.cnt.trans cnt, fun x hx hxq => ?_⟩
  · rw [theirs hq, took.back, there hq, hf.sender]
    rfl
  · rw [unstall, mine, took.run]
    exact Vector.getElem_set_self ..
  · rw [unstall, mine, took.finch]
    exact recvGoesOn_eq ..
  · rw [theirs hx, took.others x hx hxq, there hx, hf.other hxq]

theorem deliver_drops (hfull : 16 ≤ s.fab.perch[p].run.rxQ[chanIx dir (tokenCh k)].length) :
    Dropped p q dir s u (deliver p dir k u) := by
  have hp := hf.other hq.symm
  obtain ⟨b, here⟩ := creditFault_here p u
  have full : deliver p dir k u = creditFault p u := if_pos (by rwa [hp])
  rw [full]
  exact ⟨by rw [creditFault_elsewhere p u hq, hf.sender]; rfl, by rw [here, hp], by rw [creditFault_tokSeq, hf.tokSeq],
    creditFault_classCount p u, creditFault_cnt p u⟩

end

section
variable {s : State} {p q : Fin 72} {dir : Dir} {k : Token}

theorem tokenReceive_good (h : incoming s p dir = some (q, k, false)) :
    execTokenReceive p dir true s = .next (deliver p dir k (clearLink q (opposite dir) s)) := by
  simp only [execTokenReceive, h]
  rfl

theorem tokenReceive_bad (h : incoming s p dir = some (q, k, false)) : execTokenReceive p dir false s =
    .next (onRun q (fun x => { x with onLink := x.onLink.set (dirIx (opposite dir)) (some (k, true)) }) s) := by
  simp only [execTokenReceive, h]
  rfl

theorem tokenResend_good (h : incoming s p dir = some (q, k, true)) : execTokenResend p dir true s = .next (deliver p dir k
    (onCnt (fun c => { c with parityResend := satInc 32 c.parityResend }) (clearLink q (opposite dir) s))) := by
  simp only [execTokenResend, h]
  rfl

theorem tokenResend_bad (h : incoming s p dir = some (q, k, true)) : execTokenResend p dir false s =
    .next (deliver p dir { k with poison := true } (report (faultCode 0x20 p.val) (clearLink q (opposite dir) s))) := by
  simp only [execTokenResend, h]
  rfl

end

/-- Only a first transmission is received (R238). -/
theorem tokenReceive_idle {s : State} {p : Fin 72} {dir : Dir} (h : (incoming s p dir).all (·.2.2) = true) (ok) :
    execTokenReceive p dir ok s = .next s := by
  unfold execTokenReceive
  split
  next hin =>
    rw [hin] at h
    contradiction
  · rfl

/-- Only a token whose repeat was asked for is resent (R238). -/
theorem tokenResend_idle {s : State} {p : Fin 72} {dir : Dir} (h : (incoming s p dir).any (·.2.2) = false) (ok) :
    execTokenResend p dir ok s = .next s := by
  unfold execTokenResend
  split
  next hin =>
    rw [hin] at h
    contradiction
  · rfl

/-! ### Credits -/

/-- A SEND that waits goes on when its channel holds a credit. -/
def sendFree (x : Perch) : Prop :=
  x.finch.stalled = true ∧ x.finch.stall.kind = .send ∧ 0 < x.run.credit[Fin.ofNat 16 x.finch.stall.chan]

theorem releaseSend_goes {s : State} {p : Fin 72} (h : sendFree s.fab.perch[p]) :
    releaseSend p s = onPerch p (fun x => { x with
      run := sendGoesOn x.run x.finch.stall
      finch := { x.finch with stalled := false, stall := Stall.reset } }) s := by
  have go : releaseSend p s = unstall p (takeCredit p (chanDir (finchOf s p).stall.chan) (finchOf s p).stall.tok s) :=
    if_pos h
  rw [go, unstall, takeCredit, onFinch, onRun, onPerch_onPerch]
  exact onPerch_congr rfl

theorem releaseSend_waits {s : State} {p : Fin 72} (h : ¬sendFree s.fab.perch[p]) : releaseSend p s = s :=
  if_neg h

theorem not_sendFree {x : Perch} (h : x.finch.stalled = false ∨ x.finch.stall.kind ≠ .send ∨
    x.run.credit[Fin.ofNat 16 x.finch.stall.chan] = 0) : ¬sendFree x := by
  rintro ⟨stalled, kind, credit⟩
  rcases h with h | h | h
  · rw [stalled] at h
    contradiction
  · exact h kind
  · omega

/-- What is left of perch `p` when its runners become `r` and a SEND that waits may go on. -/
structure Credited (p : Fin 72) (r : Runners) (fi : Finch) (s t : State) : Prop where
  run : t.fab.perch[p].run = r
  finch : t.fab.perch[p].finch = fi
  flt : t.flt = s.flt
  cnt : t.fab.cnt = s.fab.cnt
  others : ∀ q : Fin 72, q ≠ p → t.fab.perch[q] = s.fab.perch[q]

section
variable {p : Fin 72} {s : State} {f : Runners → Runners} {r : Runners} (hr : f s.fab.perch[p].run = r)
include hr

theorem releaseSend_onRun_waits (h : s.fab.perch[p].finch.stalled = false ∨ s.fab.perch[p].finch.stall.kind ≠ .send ∨
      r.credit[Fin.ofNat 16 s.fab.perch[p].finch.stall.chan] = 0) :
    Credited p r s.fab.perch[p].finch s (releaseSend p (onRun p f s)) := by
  have here : (onRun p f s).fab.perch[p] = { s.fab.perch[p] with run := r } := (onPerch_here ..).trans (by rw [hr])
  rw [releaseSend_waits (by rw [here]; exact not_sendFree h)]
  exact ⟨by rw [here], by rw [here], rfl, rfl, fun q hq => onPerch_there hq ..⟩

theorem releaseSend_onRun_goes (h1 : s.fab.perch[p].finch.stalled = true) (h2 : s.fab.perch[p].finch.stall.kind = .send)
    (h3 : 0 < r.credit[Fin.ofNat 16 s.fab.perch[p].finch.stall.chan]) :
    Credited p (sendGoesOn r s.fab.perch[p].finch.stall) { s.fab.perch[p].finch with stalled := false, stall := Stall.reset }
      s (releaseSend p (onRun p f s)) := by
  have here : (onRun p f s).fab.perch[p] = { s.fab.perch[p] with run := r } := (onPerch_here ..).trans (by rw [hr])
  rw [releaseSend_goes (by rw [here]; exact ⟨h1, h2, h3⟩), onRun, onPerch_onPerch]
  exact ⟨by rw [onPerch_here, hr], by rw [onPerch_here], rfl, rfl, fun q hq => onPerch_there hq ..⟩

end

/-- Runners with a credit of a channel back, up to the channel's count (R240). -/
def creditCame (i : Fin 16) (cap : Nat) (r : Runners) : Runners :=
  { r with
    creditOnLink := vmod r.creditOnLink i (· - 1)
    creditBad := putBit r.creditBad i.val false
    credit := vmod r.credit i fun c => min (c + 1) cap }

/-- A repeat is counted. -/
def creditCounted (p : Fin 72) (i : Fin 16) (s : State) : State :=
  if s.fab.perch[p].run.creditBad.getLsbD i.val then
    onCnt (fun c => { c with parityResend := satInc 32 c.parityResend }) s
  else s

theorem creditCounted_eq (p i s) : ∃ n, creditCounted p i s = onCnt (fun c => { c with parityResend := n }) s ∧
    n = if s.fab.perch[p].run.creditBad.getLsbD i.val then satInc 32 s.fab.cnt.parityResend else s.fab.cnt.parityResend := by
  unfold creditCounted
  split
  · exact ⟨_, rfl, rfl⟩
  · exact ⟨_, rfl, rfl⟩

section
variable {s : State} {p : Fin 72} {dir : Dir} {ch : Fin 4} (h : 0 < s.fab.perch[p].run.creditOnLink[chanIx dir ch])
include h

theorem creditReturn_good : ∃ n, execCreditReturn p dir ch true s = .next (releaseSend p
      (onRun p (creditCame (chanIx dir ch) (creditCap s p dir ch)) (onCnt (fun c => { c with parityResend := n }) s))) ∧
    n = if s.fab.perch[p].run.creditBad.getLsbD (chanIx dir ch).val then satInc 32 s.fab.cnt.parityResend
      else s.fab.cnt.parityResend := by
  obtain ⟨n, hc, hn⟩ := creditCounted_eq p (chanIx dir ch) s
  have come : ¬s.fab.perch[p].run.creditOnLink[chanIx dir ch] = 0 := by omega
  refine ⟨n, ?_, hn⟩
  have good : execCreditReturn p dir ch true s = .next (releaseSend p
      (onRun p (creditCame (chanIx dir ch) (creditCap (creditCounted p (chanIx dir ch) s) p dir ch))
        (creditCounted p (chanIx dir ch) s))) := if_neg come
  rw [good, hc]
  rfl

theorem creditReturn_lost (hb : s.fab.perch[p].run.creditBad.getLsbD (chanIx dir ch) = true) :
    execCreditReturn p dir ch false s = .next (report (faultCode 0x20 p.val) (onRun p (fun x => { x with
      creditOnLink := vmod x.creditOnLink (chanIx dir ch) (· - 1)
      creditBad := putBit x.creditBad (chanIx dir ch).val false }) s)) := by
  have come : ¬s.fab.perch[p].run.creditOnLink[chanIx dir ch] = 0 := by omega
  rw [execCreditReturn]
  exact (if_neg come).trans ((if_neg Bool.false_ne_true).trans (if_pos hb))

theorem creditReturn_repeats (hb : s.fab.perch[p].run.creditBad.getLsbD (chanIx dir ch) = false) :
    execCreditReturn p dir ch false s =
      .next (onRun p (fun x => { x with creditBad := putBit x.creditBad (chanIx dir ch).val true }) s) := by
  have come : ¬s.fab.perch[p].run.creditOnLink[chanIx dir ch] = 0 := by omega
  rw [execCreditReturn]
  exact (if_neg come).trans ((if_neg Bool.false_ne_true).trans (if_neg (by rw [hb]; decide)))

end

theorem creditReturn_idle {s : State} {p : Fin 72} {dir : Dir} {ch : Fin 4}
    (h : s.fab.perch[p].run.creditOnLink[chanIx dir ch] = 0) (ok) : execCreditReturn p dir ch ok s = .next s :=
  if_pos h

/-- Runners whose count of a channel is set anew (R309). -/
def creditSet (i : Fin 16) (c : Nat) (r : Runners) : Runners :=
  { r with credit := r.credit.set i c, creditOnLink := r.creditOnLink.set i 0 }

theorem creditResync_sets {s : State} {p q : Fin 72} {link : Dir} {ch : Fin 4} (hn : neighbour s p link = some q)
    (hk : chanKind s p link ch = 1) (hs : s.sys.code = .run) : ∃ n, execCreditResync p link ch s =
      .next (releaseSend q (onRun q (creditSet (chanIx (opposite link) ch) (creditAfterResync s p q link ch))
        (onCnt (fun c => { c with creditResync := n }) s))) ∧
      n = if creditAfterResync s p q link ch = s.fab.perch[q].run.credit[chanIx (opposite link) ch]
        then s.fab.cnt.creditResync else satInc 32 s.fab.cnt.creditResync := by
  have go : ¬(chanKind s p link ch ≠ 1 ∨ s.sys.code ≠ .run) := by simp [hk, hs]
  have sets : execCreditResync p link ch s =
      .next (releaseSend q (onRun q (creditSet (chanIx (opposite link) ch) (creditAfterResync s p q link ch))
        (if creditAfterResync s p q link ch = s.fab.perch[q].run.credit[chanIx (opposite link) ch] then s
          else onCnt (fun c => { c with creditResync := satInc 32 c.creditResync }) s))) := by
    simp only [execCreditResync, hn, if_neg go]
    rfl
  rw [sets]
  split
  · exact ⟨_, rfl, rfl⟩
  · exact ⟨_, rfl, rfl⟩

theorem creditResync_idle {s : State} {p : Fin 72} {link : Dir} {ch : Fin 4}
    (h : neighbour s p link = none ∨ chanKind s p link ch ≠ 1 ∨ s.sys.code ≠ .run) :
    execCreditResync p link ch s = .next s := by
  unfold execCreditResync
  split
  · rfl
  next hn => exact if_pos (h.resolve_left (by rw [hn]; exact Option.some_ne_none _))

/-- Settles O37: a token that arrives is queued, taken up or dropped, and a credit that comes lets a SEND go on. -/
theorem linksCarryTokensAndCredits : Obligations.LinksCarryTokensAndCredits := by
  unfold Obligations.LinksCarryTokensAndCredits
  refine ⟨?static, ?elastic, fun s p dir h => linkTransfer_idle h, fun s p dir hw ho => linkTransfer_nothing hw ho,
    ?joins, ?takenUp, ?drops, ?resentJoins, ?resentTakenUp, ?resentDrops, ?poisonedJoins, ?poisonedTakenUp, ?poisonedDrops,
    ?asksAgain, fun s p dir ok h => tokenReceive_idle h ok, fun s p dir ok h => tokenResend_idle h ok,
    ?credit, ?creditGoes, ?creditRepeats, ?creditLost, fun s p dir ch ok h => creditReturn_idle h ok,
    ?resync, ?resyncGoes, fun s p link ch h => creditResync_idle h⟩
  case static =>
    intro s p q dir k rest hn hl hw
    refine ⟨_, linkTransfer_static hn hl hw, ?_, ?_, rfl, fun x hx => onPerch_there hx ..⟩
    all_goals rw [onPerch_here]
  case elastic =>
    intro s p q dir k pre post hn hl hw ho hpre hk
    refine ⟨_, linkTransfer_elastic hn hl hw ho hpre hk, ?_, ?_, rfl, fun x hx => onPerch_there hx ..⟩
    all_goals rw [onPerch_here]
  case joins =>
    intro s p q dir k hin hq hroom hw
    have j := deliver_joins (clearLink_freed q (opposite dir) s) hq hroom (not_waitsFor hw)
    exact ⟨_, tokenReceive_good hin, j.sender, j.run, j.finch, j.tokSeq, j.flt, j.cnt, j.others⟩
  case takenUp =>
    intro s p q dir k hin hq hrx h1 h2 h3
    have j := deliver_takenUp (clearLink_freed q (opposite dir) s) hq (incoming_some hin) hrx ⟨h1, h2, h3⟩
    exact ⟨_, tokenReceive_good hin, j.sender, j.queue, j.finch, j.flt, j.cnt, j.others⟩
  case drops =>
    intro s p q dir k hin hq hfull
    have j := deliver_drops (clearLink_freed q (opposite dir) s) hq hfull
    exact ⟨_, tokenReceive_good hin, j.sender, j.run, j.tokSeq, j.reported, congrArg FabCnt.parityResend j.cnt⟩
  case resentJoins =>
    intro s p q dir k hin hq hroom hw
    have j := deliver_joins (onCnt_clearLink_freed q (opposite dir)
      (fun c => { c with parityResend := satInc 32 c.parityResend }) s) hq hroom (not_waitsFor hw)
    exact ⟨_, tokenResend_good hin, j.sender, j.run, j.finch, j.tokSeq, j.flt, j.cnt, j.others⟩
  case resentTakenUp =>
    intro s p q dir k hin hq hrx h1 h2 h3
    have j := deliver_takenUp (onCnt_clearLink_freed q (opposite dir)
      (fun c => { c with parityResend := satInc 32 c.parityResend }) s) hq (incoming_some hin) hrx ⟨h1, h2, h3⟩
    exact ⟨_, tokenResend_good hin, j.sender, j.queue, j.finch, j.flt, j.cnt, j.others⟩
  case resentDrops =>
    intro s p q dir k hin hq hfull
    have j := deliver_drops (onCnt_clearLink_freed q (opposite dir)
      (fun c => { c with parityResend := satInc 32 c.parityResend }) s) hq hfull
    exact ⟨_, tokenResend_good hin, j.sender, j.run, j.tokSeq, j.reported, congrArg FabCnt.parityResend j.cnt⟩
  case poisonedJoins =>
    intro s p q dir k hin hq hroom hw
    have j := deliver_joins (k := { k with poison := true })
      (report_clearLink_freed q (opposite dir) (faultCode 0x20 p.val) s) hq hroom (not_waitsFor hw)
    exact ⟨_, tokenResend_bad hin, j.sender, j.run, j.finch, j.tokSeq,
      (classCount_congr j.flt _).trans (report_clearLink_classCount ..),
      j.cnt.trans (report_clearLink_cnt ..), j.others⟩
  case poisonedTakenUp =>
    intro s p q dir k hin hq hrx h1 h2 h3
    have j := deliver_takenUp (k := { k with poison := true })
      (report_clearLink_freed q (opposite dir) (faultCode 0x20 p.val) s) hq (incoming_some hin) hrx ⟨h1, h2, h3⟩
    exact ⟨_, tokenResend_bad hin, j.sender, j.queue, j.finch,
      (classCount_congr j.flt _).trans (report_clearLink_classCount ..),
      j.cnt.trans (report_clearLink_cnt ..), j.others⟩
  case poisonedDrops =>
    intro s p q dir k hin hq hfull
    have j := deliver_drops (k := { k with poison := true })
      (report_clearLink_freed q (opposite dir) (faultCode 0x20 p.val) s) hq hfull
    exact ⟨_, tokenResend_bad hin, j.sender, j.run, j.tokSeq,
      j.reported.trans (congrArg (satInc 32) (report_clearLink_classCount ..)),
      congrArg FabCnt.parityResend (j.cnt.trans (report_clearLink_cnt ..))⟩
  case asksAgain =>
    intro s p q dir k hin
    refine ⟨_, tokenReceive_bad hin, ?_, rfl, rfl, rfl, fun x hx => onPerch_there hx ..⟩
    rw [onRun, onPerch_here]
  case credit =>
    intro s p dir ch h hw
    obtain ⟨n, hgo, hn⟩ := creditReturn_good h
    have c := releaseSend_onRun_waits (s := onCnt (fun c => { c with parityResend := n }) s)
      (f := creditCame (chanIx dir ch) (creditCap s p dir ch)) rfl hw
    exact ⟨_, hgo, c.run, c.finch, c.flt, (congrArg FabCnt.parityResend c.cnt).trans hn, c.others⟩
  case creditGoes =>
    intro s p dir ch h h1 h2 h3
    obtain ⟨n, hgo, hn⟩ := creditReturn_good h
    have c := releaseSend_onRun_goes (s := onCnt (fun c => { c with parityResend := n }) s)
      (f := creditCame (chanIx dir ch) (creditCap s p dir ch)) rfl h1 h2 h3
    exact ⟨_, hgo, c.run, c.finch, c.flt, (congrArg FabCnt.parityResend c.cnt).trans hn, c.others⟩
  case creditRepeats =>
    intro s p dir ch h hb
    refine ⟨_, creditReturn_repeats h hb, ?_, ?_, rfl, rfl, fun x hx => onPerch_there hx ..⟩
    all_goals rw [onRun, onPerch_here]
  case creditLost =>
    intro s p dir ch h hb
    refine ⟨_, creditReturn_lost h hb, ?_, ?_, ?_, fun x hx => ?_⟩
    · rw [report_fab, onRun, onPerch_here]
    · rw [classCount_report_faultCode (by decide)]
      rfl
    · rw [report_fab, onRun, onPerch_here]
    · rw [report_fab, onRun, onPerch_there hx]
  case resync =>
    intro s p q link ch c hn hk hs hc hw
    subst hc
    obtain ⟨n, hgo, hn'⟩ := creditResync_sets hn hk hs
    have c := releaseSend_onRun_waits (s := onCnt (fun c => { c with creditResync := n }) s)
      (f := creditSet (chanIx (opposite link) ch) (creditAfterResync s p q link ch)) rfl hw
    exact ⟨_, hgo, c.run, c.finch, (congrArg FabCnt.creditResync c.cnt).trans hn', c.flt, c.others⟩
  case resyncGoes =>
    intro s p q link ch c hn hk hs hc h1 h2 h3
    subst hc
    obtain ⟨n, hgo, hn'⟩ := creditResync_sets hn hk hs
    have c := releaseSend_onRun_goes (s := onCnt (fun c => { c with creditResync := n }) s)
      (f := creditSet (chanIx (opposite link) ch) (creditAfterResync s p q link ch)) rfl h1 h2 h3
    exact ⟨_, hgo, c.run, c.finch, (congrArg FabCnt.creditResync c.cnt).trans hn', c.flt, c.others⟩

end Sys2Proof.Machine

/-! SUPPORT. Stalled waits and elastic channels (family 06_perch_fabric.md): what a timeout reports, how an output buffer
moves into the riser, and what a riser entry holds. Settles O38. -/

namespace Sys2Proof.Machine

/-! ### Timeouts -/

/-- The report leaves every Finch and its runners alone. -/
theorem creditFault_run (q x : Fin 72) (s : State) :
    (creditFault q s).fab.perch[x].finch = s.fab.perch[x].finch ∧ (creditFault q s).fab.perch[x].run = s.fab.perch[x].run := by
  by_cases h : x = q
  · subst h
    obtain ⟨b, here⟩ := creditFault_here x s
    rw [here]
    exact ⟨rfl, rfl⟩
  · rw [creditFault_elsewhere q s h]
    exact ⟨rfl, rfl⟩

theorem creditFault_recurs {p : Fin 72} {s : State} (ha : activePerch s p = true) (hr : creditRecurs p s = true) :
    (creditFault p s).fab.perch[p].failed = true := by
  have active : activePerch (creditNoted p s) p = true := by
    simp only [activePerch, rowUsed, logCol, creditNoted_fab, creditNoted_img] at ha ⊢
    exact ha
  rw [creditFault_eq, if_pos hr]
  simp only [finding_perch, active, Bool.true_eq_false, false_or]
  split
  · assumption
  · exact congrArg Perch.failed (vmod_same ..)

/-- A Finch starts to count the beats of its stall again. -/
def stallAgain (fi : Finch) : Finch :=
  { fi with stall := { fi.stall with beats := 0 } }

theorem sendTimeout_reports {s : State} {p q : Fin 72} (h1 : (finchOf s p).stalled = true)
    (h2 : (finchOf s p).stall.kind = .send) (h3 : 2 ≤ (finchOf s p).stall.beats)
    (hn : neighbour s p (chanDir (finchOf s p).stall.chan) = some q) :
    execSendCreditTimeout p s = .next (creditFault q (onFinch p stallAgain s)) := by
  rw [execSendCreditTimeout]
  refine (if_pos ⟨h1, h2, h3⟩).trans ?_
  rw [hn]
  rfl

theorem waitTimeout_reports {s : State} {p : Fin 72} (h1 : (finchOf s p).stalled = true)
    (h2 : (finchOf s p).stall.kind = .wait) (h3 : 2 ≤ (finchOf s p).stall.beats) :
    execWaitTimeout p s = .next (creditFault p (onFinch p stallAgain s)) :=
  if_pos ⟨h1, h2, h3⟩

/-- A Finch that does not stall in an operation of a kind for two beats has no timeout. -/
theorem not_overdue {fi : Finch} {k : StallKind} (h : fi.stalled = false ∨ fi.stall.kind ≠ k ∨ fi.stall.beats < 2) :
    ¬(fi.stalled = true ∧ fi.stall.kind = k ∧ 2 ≤ fi.stall.beats) := by
  rintro ⟨stalled, kind, beats⟩
  rcases h with h | h | h
  · rw [stalled] at h
    contradiction
  · exact h kind
  · omega

theorem waitTimeout_idle {s : State} {p : Fin 72} (h : (finchOf s p).stalled = false ∨ (finchOf s p).stall.kind ≠ .wait ∨
    (finchOf s p).stall.beats < 2) : execWaitTimeout p s = .next s :=
  if_neg (not_overdue h)

theorem sendTimeout_idle {s : State} {p : Fin 72} (h : (finchOf s p).stalled = false ∨ (finchOf s p).stall.kind ≠ .send ∨
    (finchOf s p).stall.beats < 2 ∨ neighbour s p (chanDir (finchOf s p).stall.chan) = none) :
    execSendCreditTimeout p s = .next s := by
  rw [execSendCreditTimeout]
  by_cases hn : neighbour s p (chanDir (finchOf s p).stall.chan) = none
  · simp only [hn, ite_self]
  · exact if_neg (not_overdue (h.imp_right (Or.imp_right (Or.resolve_right · hn))))

section
variable (p q : Fin 72) (s : State)

/-- A timeout of a SEND or a WAIT: only the count of the stall's beats changes at the Finch. -/
theorem timeout_finch : (creditFault q (onFinch p stallAgain s)).fab.perch[p].finch = stallAgain s.fab.perch[p].finch := by
  rw [(creditFault_run ..).1, onFinch_here]

theorem timeout_run : (creditFault q (onFinch p stallAgain s)).fab.perch[p].run = s.fab.perch[p].run := by
  rw [(creditFault_run ..).2, onFinch_here]

theorem timeout_classCount :
    classCount (creditFault q (onFinch p stallAgain s)) 0x20 = satInc 32 (classCount s 0x20) :=
  creditFault_classCount q (onFinch p stallAgain s)

theorem timeout_seen : (q.val, s.lt.line) ∈ (creditFault q (onFinch p stallAgain s)).flt.creditSeen :=
  creditFault_seen q (onFinch p stallAgain s)

end

/-! ### The elastic watch -/

/-- What the watch that fires leaves of the device (R315): the watches, its own counter, the supervisor, the line timing. -/
structure WatchView where
  watch : Vector Watch 16
  spills : Nat
  sys : Sys
  lt : Lt

def watchView (s : State) : WatchView :=
  ⟨s.fab.watch, s.fab.cnt.watchSpills, s.sys, s.lt⟩

theorem dropToken_watchView (p s) : watchView (dropToken p s) = watchView s := by
  simp [watchView, dropToken, markLine, markLines, onCnt]

theorem spill_watchView (p dir front t s) : watchView (spill p dir front t s) = watchView s := by
  unfold spill
  split
  · exact dropToken_watchView ..
  · rfl

theorem spillBuffer_watchView (p d s) : watchView (spillBuffer p d s) = watchView s :=
  List.foldlRecOn (motive := fun t : State => watchView t = watchView s) _ _ rfl
    fun t ht k _ => (spill_watchView p d true k t).trans ht

theorem spillBuffers_watchView (l : List (Fin 72 × Dir)) (s) :
    watchView (l.foldl (fun t b => spillBuffer b.1 b.2 t) s) = watchView s :=
  List.foldlRecOn (motive := fun t : State => watchView t = watchView s) _ _ rfl
    fun t ht b _ => (spillBuffer_watchView b.1 b.2 t).trans ht

theorem reportAll_watchView (codes s) : watchView (reportAll codes s) = watchView s :=
  reportAll_eq watchView (fun code s => by simp [watchView]) codes s

/-- The watch of a group has fired and its spill is counted. -/
def watchFired (grp : Fin 16) (s : State) : State :=
  let t := onCnt (fun c => { c with watchSpills := satInc 32 c.watchSpills }) s
  { t with fab := { t.fab with watch := vmod t.fab.watch grp fun w => { w with due := false } } }

theorem watchFired_perch (grp s) : (watchFired grp s).fab.perch = s.fab.perch := rfl

theorem watchFired_classCount (grp s n) : classCount (watchFired grp s) n = classCount s n := rfl

theorem watchFire_eq {s : State} {grp : Fin 16} (h : s.fab.watch[grp].due = true) : ∃ who : List (Fin 72),
    execElasticWatchFire grp s = .next (watchFired grp (reportAll (who.map fun p => faultCode 0x21 p.val)
      ((buffersOf s grp).foldl (fun t b => spillBuffer b.1 b.2 t) s))) ∧
    who = if (buffersOf s grp).isEmpty then (oldestIn (queuedOf s grp)).toList
      else (List.finRange 72).filter fun p => (buffersOf s grp).any fun b => b.1 = p :=
  ⟨_, if_neg (by rw [h]; decide), rfl⟩

theorem watchFire_idle {s : State} {grp : Fin 16} (h : s.fab.watch[grp].due = false) :
    execElasticWatchFire grp s = .next s :=
  if_pos h

/-- With empty buffers the perch of the oldest queued token is reported (R315). -/
theorem watchFire_queued {s : State} {grp : Fin 16} {p : Fin 72} (h : s.fab.watch[grp].due = true)
    (hb : buffersOf s grp = []) (ho : oldestIn (queuedOf s grp) = some p) :
    execElasticWatchFire grp s = .next (watchFired grp (report (faultCode 0x21 p.val) s)) := by
  obtain ⟨who, hgo, hwho⟩ := watchFire_eq h
  have one : who = [p] := by rw [hwho, hb, ho]; rfl
  rw [hgo, one, hb]
  rfl

/-- One buffer of a group moves, and its perch is reported (R315). -/
theorem watchFire_spills {s : State} {grp : Fin 16} {p : Fin 72} {dir : Dir} (h : s.fab.watch[grp].due = true)
    (hb : buffersOf s grp = [(p, dir)]) :
    execElasticWatchFire grp s = .next (watchFired grp (report (faultCode 0x21 p.val) (spillBuffer p dir s))) := by
  obtain ⟨who, hgo, hwho⟩ := watchFire_eq h
  have one : who = [p] := by
    have single : ((List.finRange 72).filter fun x => x = p) = [p] := by
      rw [List.filter_eq, List.count_eq_one_of_mem (List.nodup_finRange 72) (List.mem_finRange p)]
      rfl
    rw [hwho, hb]
    simpa [eq_comm] using single
  rw [hgo, one, hb]
  rfl

/-! ### A buffer moves into the riser -/

/-- The tokens in backlogs. -/
def backlogged (b : Vector (List (Token × Option Nat)) 16) : Nat :=
  (b.toList.map List.length).sum

theorem length_set_cons {α : Type} (x : α) (l : List (List α)) (i : Nat) (h : i < l.length) :
    ((l.set i (x :: l[i])).map List.length).sum = (l.map List.length).sum + 1 := by
  induction l generalizing i with
  | nil => contradiction
  | cons y ys ih =>
    cases i with
    | zero => simp; omega
    | succ i =>
      simp only [List.set_cons_succ, List.getElem_cons_succ, List.map_cons, List.sum_cons, ih i (by simpa using h)]
      omega

theorem backlogged_cons (b : Vector (List (Token × Option Nat)) 16) (i : Fin 16) (x) :
    backlogged (vmod b i (x :: ·)) = backlogged b + 1 := by
  simp only [backlogged, vmod, Vector.toList_set]
  exact length_set_cons x b.toList i.val (by simp)

/-- Backlogs with a token in front of its channel's. -/
def inFront (dir : Dir) (t : Token) (x : Perch) : Perch :=
  { x with run := { x.run with backlog := vmod x.run.backlog (chanIx dir (tokenCh t)) ((t, none) :: ·) } }

theorem riserFree_eq (s p) : riserFree s p = riserEntries s p - backlogged s.fab.perch[p].run.backlog := rfl

theorem spill_inFront {p : Fin 72} {s : State} (h : 0 < riserFree s p) (dir t) : ∃ f : FabCnt → FabCnt,
    spill p dir true t s = onCnt f (onPerch p (inFront dir t) s) := by
  unfold spill
  rw [if_neg (by omega)]
  exact ⟨fun c => _, rfl⟩

/-- The tokens `ts` stand in front of the backlogs of their channels, in their order (R315). -/
structure Spilled (p : Fin 72) (dir : Dir) (ts : List Token) (s t : State) : Prop where
  backlog : ∀ ch, t.fab.perch[p].run.backlog[chanIx dir ch] =
    ((ts.filter fun u => tokenCh u == ch).map fun u => (u, none)) ++ s.fab.perch[p].run.backlog[chanIx dir ch]
  here : ∃ b, t.fab.perch[p] = { s.fab.perch[p] with run := { s.fab.perch[p].run with backlog := b } }
  others : ∀ q : Fin 72, q ≠ p → t.fab.perch[q] = s.fab.perch[q]
  flt : t.flt = s.flt
  free : riserFree t p = riserFree s p - ts.length

theorem chanIx_inj {dir : Dir} {a b : Fin 4} (h : chanIx dir a = chanIx dir b) : a = b := by
  have := congrArg Fin.val h
  simp only [chanIx] at this
  omega

theorem spilled_nil (p dir s) : Spilled p dir [] s s := ⟨fun _ => rfl, ⟨_, rfl⟩, fun _ _ => rfl, rfl, rfl⟩

theorem Spilled.cons {p : Fin 72} {dir : Dir} {ts : List Token} {s t : State} (h : Spilled p dir ts s t) (k : Token)
    (hfree : ts.length < riserFree s p) : Spilled p dir (k :: ts) s (spill p dir true k t) := by
  obtain ⟨f, hf⟩ := spill_inFront (p := p) (s := t) (by rw [h.free]; omega) dir k
  rw [hf]
  have here : (onCnt f (onPerch p (inFront dir k) t)).fab.perch[p] = inFront dir k t.fab.perch[p] := onPerch_here ..
  obtain ⟨b, hb⟩ := h.here
  refine ⟨fun ch => ?_, ⟨_, here.trans (by rw [hb]; rfl)⟩, fun q hq => (onPerch_there hq ..).trans (h.others q hq), h.flt, ?_⟩
  · rw [here]
    by_cases hch : tokenCh k = ch
    · subst hch
      simp only [List.filter_cons, beq_self_eq_true, if_true, List.map_cons, List.cons_append, ← h.backlog]
      exact vmod_same ..
    · have filtered : ((k :: ts).filter fun u => tokenCh u == ch) = ts.filter fun u => tokenCh u == ch :=
        List.filter_cons_of_neg (by simpa using hch)
      rw [filtered, ← h.backlog]
      exact vmod_other _ _ _ _ fun e => hch (chanIx_inj e).symm
  · have one : backlogged (inFront dir k t.fab.perch[p]).run.backlog = backlogged t.fab.perch[p].run.backlog + 1 :=
      backlogged_cons ..
    have entries : riserEntries (onCnt f (onPerch p (inFront dir k) t)) p = riserEntries t p := rfl
    have before := h.free
    rw [riserFree_eq t p] at before
    rw [riserFree_eq (onCnt f (onPerch p (inFront dir k) t)) p, here, one, entries, List.length_cons]
    omega

theorem spilled_foldr (p : Fin 72) (dir : Dir) (s : State) (ts : List Token) (h : ts.length ≤ riserFree s p) :
    Spilled p dir ts s (ts.foldr (spill p dir true) s) := by
  induction ts with
  | nil => exact spilled_nil p dir s
  | cons k ts ih => exact (ih (by simp at h; omega)).cons k h

/-- The whole buffer moves when the riser has room for it (R315). -/
theorem spillBuffer_spilled {p : Fin 72} {dir : Dir} {s : State}
    (h : s.fab.perch[p].run.outBuf[dirIx dir].length ≤ riserFree s p) :
    Spilled p dir s.fab.perch[p].run.outBuf[dirIx dir] (onRun p (fun x => { x with outBuf := x.outBuf.set (dirIx dir) [] }) s)
      (spillBuffer p dir s) := by
  have free : riserFree (onRun p (fun x => { x with outBuf := x.outBuf.set (dirIx dir) [] }) s) p = riserFree s p := by
    rw [riserFree_eq, onRun, onPerch_here]
    rfl
  rw [spillBuffer, List.foldl_reverse]
  exact spilled_foldr p dir _ _ (by rwa [free])

/-! ### Riser entries -/

theorem readWord_clean (p a s) : ∃ t, readWord p a .clean s = (wordAt s p a, t) ∧ t.fab.perch = s.fab.perch ∧ t.flt = s.flt := by
  unfold readWord
  dsimp only
  split
  · exact ⟨_, rfl, rfl, rfl⟩
  · exact ⟨_, rfl, rfl, rfl⟩

theorem readWords_clean_pair (p a b s) : ∃ t, readWords p [a, b] [] s = ([wordAt s p a, wordAt s p b], t) ∧
    t.fab.perch = s.fab.perch ∧ t.flt = s.flt := by
  obtain ⟨t, h, hp, hf⟩ := readWord_clean p a s
  obtain ⟨u, h', hp', hf'⟩ := readWord_clean p b t
  have second : wordAt t p b = wordAt s p b := by rw [wordAt, wordAt, hp]
  refine ⟨u, ?_, hp'.trans hp, hf'.trans hf⟩
  simp only [readWords, List.headD_nil, List.tail_nil, h, h', second]

section
variable {s u : State} {p q : Fin 72} {dir : Dir} {ch : Fin 4} {k : Token} {e : Nat} {rest : List (Token × Option Nat)}
  {ecc : List Ecc} {ws : List WWord}

theorem riserRead_takes (hb : s.fab.perch[p].run.backlog[chanIx dir ch] = (k, some e) :: rest)
    (hl : s.fab.perch[p].run.onLink[dirIx dir] = none) (hc : 0 < s.fab.perch[p].run.credit[chanIx dir ch])
    (ho : ∀ x ∈ s.fab.perch[p].run.outBuf[dirIx dir], tokenCh x ≠ ch) (hn : neighbour s p dir = some q)
    (hr : readWords p [riserWord s p e, riserWord s p e + 1] ecc s = (ws, u)) :
    execRiserRead p dir ch ecc s = .next (onRun p (fun x => { x with
      backlog := x.backlog.set (chanIx dir ch) rest
      credit := vmod x.credit (chanIx dir ch) (· - 1)
      onLink := x.onLink.set (dirIx dir) (some (riserToken ch ws, false)) }) u) := by
  have none_waits : (s.fab.perch[p].run.outBuf[dirIx dir].any fun u => tokenCh u == ch) = false := by simpa using ho
  have held : s.fab.perch[p].run.credit[chanIx dir ch] ≠ 0 := by omega
  simp only [execRiserRead, hb, hl, hn, hr, none_waits, held]
  rfl

end

theorem riserRead_idle {s : State} {p : Fin 72} {dir : Dir} {ch : Fin 4}
    (h : (s.fab.perch[p].run.backlog[chanIx dir ch].head?).all (·.2.isNone) = true ∨
      s.fab.perch[p].run.onLink[dirIx dir] ≠ none ∨ s.fab.perch[p].run.credit[chanIx dir ch] = 0 ∨
      (∃ x ∈ s.fab.perch[p].run.outBuf[dirIx dir], tokenCh x = ch) ∨ neighbour s p dir = none) (ecc) :
    execRiserRead p dir ch ecc s = .next s := by
  unfold execRiserRead
  dsimp only
  split
  next hb =>
    refine if_pos ?_
    rw [hb] at h
    have blocked := h.resolve_left (by simp)
    simpa [Option.isSome_iff_ne_none] using blocked
  · rfl

/-- The bits of a token above its DATA (Table 6.2). -/
def tokenHead (k : Token) : BitVec (4 + 1 + 1 + 2) :=
  k.tag ++ BitVec.ofBool k.poison ++ BitVec.ofBool k.void ++ k.ch

theorem tokenHead_getLsbD (k : Token) (i : Nat) : (tokenHead k).getLsbD i =
    if i < 2 then k.ch.getLsbD i
    else if i - 2 < 1 then (BitVec.ofBool k.void).getLsbD (i - 2)
    else if i - 2 - 1 < 1 then (BitVec.ofBool k.poison).getLsbD (i - 2 - 1)
    else k.tag.getLsbD (i - 2 - 1 - 1) := by
  rw [tokenHead, BitVec.getLsbD_append, BitVec.getLsbD_append, BitVec.getLsbD_append]

/-- The second word of a riser entry (R316). -/
def riserHigh (k : Token) : BitVec 64 :=
  BitVec.ofNat 64 ((tokenPar k ++ tokenBits k).extractLsb' 64 16).toNat

theorem riserBits_getLsbD (k : Token) {i : Nat} (hi : i < 72) : (tokenPar k ++ tokenBits k).getLsbD i =
    if i < 64 then k.data.getLsbD i else (tokenHead k).getLsbD (i - 64) := by
  have parity : (tokenPar k ++ tokenBits k).getLsbD i = (tokenBits k).getLsbD i := by
    rw [BitVec.getLsbD_append, if_pos hi]
  exact parity.trans (BitVec.getLsbD_append (x := tokenHead k) (y := k.data))

theorem riserPair_low (k : Token) : (tokenPar k ++ tokenBits k).extractLsb' 0 64 = k.data := by
  ext i hi
  rw [BitVec.getElem_extractLsb', Nat.zero_add, riserBits_getLsbD k (by omega), if_pos hi, BitVec.getLsbD_eq_getElem]

theorem riserHigh_getLsbD (k : Token) {i : Nat} (hi : i < 8) : (riserHigh k).getLsbD i = (tokenHead k).getLsbD i := by
  have widened : riserHigh k = ((tokenPar k ++ tokenBits k).extractLsb' 64 16).setWidth 64 := BitVec.ofNat_toNat ..
  have h64 : i < 64 := by omega
  have h16 : i < 16 := by omega
  rw [widened, BitVec.getLsbD_setWidth, BitVec.getLsbD_extractLsb', riserBits_getLsbD k (by omega), if_neg (by omega)]
  simp [h64, h16]

theorem riserHigh_ch (k : Token) : (riserHigh k).extractLsb' 0 2 = k.ch := by
  ext i hi
  rw [BitVec.getElem_extractLsb', riserHigh_getLsbD k (by omega), tokenHead_getLsbD, if_pos (by omega), Nat.zero_add,
    BitVec.getLsbD_eq_getElem]

theorem riserHigh_void (k : Token) : (riserHigh k).getLsbD 2 = k.void := by
  rw [riserHigh_getLsbD k (by omega), tokenHead_getLsbD]
  simp

theorem riserHigh_poison (k : Token) : (riserHigh k).getLsbD 3 = k.poison := by
  rw [riserHigh_getLsbD k (by omega), tokenHead_getLsbD]
  simp

theorem riserHigh_tag (k : Token) : (riserHigh k).extractLsb' 4 4 = k.tag := by
  ext i hi
  have place : 4 + i - 2 - 1 - 1 = i := by omega
  rw [BitVec.getElem_extractLsb', riserHigh_getLsbD k (by omega), tokenHead_getLsbD, if_neg (by omega), if_neg (by omega),
    if_neg (by omega), place, BitVec.getLsbD_eq_getElem]

/-- The two words of an entry are its token (R316, Table 6.2). -/
theorem entryToken_riserPair (k : Token) : entryToken (riserPair k) = k := by
  have words : riserPair k = [⟨(tokenPar k ++ tokenBits k).extractLsb' 0 64, false⟩, ⟨riserHigh k, false⟩] := rfl
  have read : entryToken [⟨(tokenPar k ++ tokenBits k).extractLsb' 0 64, false⟩, ⟨riserHigh k, false⟩] =
      ⟨(tokenPar k ++ tokenBits k).extractLsb' 0 64, (riserHigh k).extractLsb' 0 2, (riserHigh k).getLsbD 2,
        (riserHigh k).getLsbD 3 || false, (riserHigh k).extractLsb' 4 4⟩ := rfl
  rw [words, read, riserPair_low, riserHigh_ch, riserHigh_void, riserHigh_poison, riserHigh_tag, Bool.or_false]

theorem entryToken_poison {ws : List WWord} (h : ∃ w ∈ ws, w.poison = true) : (entryToken ws).poison = true := by
  have met : ws.any (·.poison) = true := by simpa using h
  simp only [entryToken, met, Bool.or_true]

/-- Settles O38: the timeouts report and count again, the buffer moves whole, and a riser entry is its token. -/
theorem stalledWaitsAndElasticChannels : Obligations.StalledWaitsAndElasticChannels := by
  unfold Obligations.StalledWaitsAndElasticChannels
  refine ⟨?sendTimeout, fun s p h => sendTimeout_idle h, ?waitTimeout, ?recurs, fun s p h => waitTimeout_idle h, ?fires,
    ?queued, ?spills, fun s grp h => watchFire_idle h, ?riser, ?riserClean, fun s p dir ch ecc h => riserRead_idle h ecc,
    entryToken_riserPair, fun ws h => entryToken_poison h⟩
  case sendTimeout =>
    intro s p q h1 h2 h3 hn
    exact ⟨_, sendTimeout_reports h1 h2 h3 hn, timeout_finch p q s, timeout_run p q s, timeout_classCount p q s,
      timeout_seen p q s⟩
  case waitTimeout =>
    intro s p h1 h2 h3
    exact ⟨_, waitTimeout_reports h1 h2 h3, timeout_finch p p s, timeout_run p p s, timeout_classCount p p s,
      timeout_seen p p s⟩
  case recurs =>
    intro s p n h1 h2 h3 hseen hline ha
    have again : creditRecurs p (onFinch p stallAgain s) = true :=
      List.any_eq_true.mpr ⟨(p.val, n), hseen, by simpa using hline⟩
    exact ⟨_, waitTimeout_reports h1 h2 h3, creditFault_recurs (s := onFinch p stallAgain s) ha again⟩
  case fires =>
    intro s grp h
    obtain ⟨who, hgo, _⟩ := watchFire_eq h
    have view : watchView (reportAll (who.map fun p => faultCode 0x21 p.val)
        ((buffersOf s grp).foldl (fun t b => spillBuffer b.1 b.2 t) s)) = watchView s := by
      rw [reportAll_watchView, spillBuffers_watchView]
    refine ⟨_, hgo, ?_⟩
    generalize reportAll (who.map fun p => faultCode 0x21 p.val)
      ((buffersOf s grp).foldl (fun t b => spillBuffer b.1 b.2 t) s) = t at view ⊢
    exact ⟨congrArg (fun v : WatchView => vmod v.watch grp fun w => { w with due := false }) view,
      congrArg (fun v : WatchView => satInc 32 v.spills) view, congrArg WatchView.sys view, congrArg WatchView.lt view⟩
  case queued =>
    intro s grp p h hb ho
    exact ⟨_, watchFire_queued h hb ho, by rw [watchFired_perch, report_fab],
      by rw [watchFired_classCount, classCount_report_faultCode (by decide)]⟩
  case spills =>
    intro s grp p dir ch h hb hfree
    have spilled := spillBuffer_spilled hfree
    have emptied : (onRun p (fun x => { x with outBuf := x.outBuf.set (dirIx dir) [] }) s).fab.perch[p] = _ :=
      onPerch_here ..
    have others {q : Fin 72} (hq : q ≠ p) := (spilled.others q hq).trans (onPerch_there hq ..)
    obtain ⟨b, here⟩ := spilled.here
    have backlog := spilled.backlog ch
    rw [emptied] at here backlog
    refine ⟨_, watchFire_spills h hb, ?_, ?_, ?_, fun q hq => ?_, ?_⟩
    · rw [watchFired_perch, report_fab, here]
    · rw [watchFired_perch, report_fab, backlog]
    · rw [watchFired_perch, report_fab, here]
    · rw [watchFired_perch, report_fab]
      exact others hq
    · rw [watchFired_classCount, classCount_report_faultCode (by decide), classCount_congr spilled.flt]
      rfl
  case riser =>
    intro s u p q dir ch k e rest ecc ws hb hl hc ho hn hr
    have takes := riserRead_takes hb hl hc ho hn hr
    refine ⟨_, takes, ?_, ?_, rfl⟩
    all_goals rw [onRun, onPerch_here]
  case riserClean =>
    intro s p q dir ch k e rest hb hl hc ho hn
    obtain ⟨u, hr, hp, hf⟩ := readWords_clean_pair p (riserWord s p e) (riserWord s p e + 1) s
    have takes := riserRead_takes hb hl hc ho hn hr
    refine ⟨_, takes, ?_, ?_, ?_, hf, fun x hx => by rw [onRun, onPerch_there hx, hp]⟩
    all_goals rw [onRun, onPerch_here, hp]

end Sys2Proof.Machine

/-! SUPPORT. The column repair (family 06_perch_fabric.md): what the reload of the spare perches changes, what the clearing
of everything that streams leaves, and the device state through the Sprue's last lines. Settles O25. -/

namespace Sys2Proof.Machine

/-! ### The reload of the spare perches -/

/-- From `s` to `t` only perches and the WREN registers differ. -/
def WrensOnly (s t : State) : Prop :=
  ∃ perch wcnt, t = { s with fab := { s.fab with perch := perch, wcnt := wcnt } }

theorem WrensOnly.refl (s : State) : WrensOnly s s := ⟨_, _, rfl⟩

theorem WrensOnly.trans {s t u : State} (h : WrensOnly s t) (h' : WrensOnly t u) : WrensOnly s u := by
  obtain ⟨v, w, rfl⟩ := h
  obtain ⟨v', w', rfl⟩ := h'
  exact ⟨v', w', rfl⟩

theorem WrensOnly.foldl {β : Type} {f : State → β → State} (h : ∀ t x, WrensOnly t (f t x)) (l : List β) (s : State) :
    WrensOnly s (l.foldl f s) :=
  List.foldlRecOn (motive := WrensOnly s) _ _ (.refl s) fun t ht x _ => ht.trans (h t x)

theorem onWren_wrensOnly (p f s) : WrensOnly s (onWren p f s) := ⟨_, _, rfl⟩

theorem onWCnt_wrensOnly (f s) : WrensOnly s (onWCnt f s) := ⟨_, _, rfl⟩

theorem putWord_wrensOnly (p a w s) : WrensOnly s (putWord p a w s) := by
  unfold putWord
  split
  · exact onWren_wrensOnly ..
  · exact .refl s

theorem putWords_wrensOnly (p as ws) (s : State) : WrensOnly s (putWords p as ws s) := by
  induction as generalizing ws s with
  | nil => exact .refl s
  | cons a as ih =>
    cases ws with
    | nil => exact .refl s
    | cons w ws => exact (putWord_wrensOnly p a w s).trans (ih ws _)

theorem loadWren_wrensOnly (m slot p s) : WrensOnly s (loadWren m slot p s) :=
  (WrensOnly.foldl (fun t _ => putWords_wrensOnly _ _ _ t) (residents m (rowOf p)) s).trans (onWren_wrensOnly ..)

theorem countRetention_wrensOnly (s) : WrensOnly s (countRetention s) :=
  WrensOnly.foldl (fun t p => (onWren_wrensOnly p _ t).trans (onWCnt_wrensOnly ..)) _ s

/-- The spare perches as steps 3 and 4 leave them (R245). -/
def reloaded (s : State) : State :=
  onWCnt (fun c => { c with reloading := anyRewriting s })
    (countRetention ((spares s).foldl (fun t p => loadWren s.img s.boot.slot p t) s))

theorem reloaded_wrensOnly (s) : WrensOnly s (reloaded s) :=
  ((WrensOnly.foldl (fun t p => loadWren_wrensOnly _ _ p t) (spares s) s).trans (countRetention_wrensOnly _)).trans
    (onWCnt_wrensOnly ..)

section
variable {s : State} {r : Repair} (hr : s.fab.repair = some r) (hc : s.sys.code = .repair) (hs : supRuns s = true)
include hr hc hs

theorem repairReload_runs (ht : r.tested = true) (ha : r.aborted = false) (hl : r.loaded = false) (flashOk : Bool) :
    execRepairReloadDone flashOk s =
      if flashOk = false ∨ rowSumsOk s = false ∨ ((spares s).all fun p => retentionOk s.img p (reloaded s)) = false then
        .next (startReset 5 0xA003 false (report 0xA003 (reloaded s)))
      else
        .next (wantSnapshot (logOther 3 0
          [BitVec.ofNat 8 r.column, BitVec.ofNat 8 r.perch, BitVec.ofNat 8 (bit (reloaded s).fab.spareOk)]
          { reloaded s with fab := { (reloaded s).fab with repair := some { r with loaded := true } } })) := by
  have go : ¬(s.sys.code ≠ .repair ∨ supRuns s = false ∨ r.tested = false ∨ r.aborted = true ∨ r.loaded = true) := by
    simp [hc, hs, ht, ha, hl]
  simp only [execRepairReloadDone, hr, if_neg go]
  rfl

theorem repairReload_fails (ht : r.tested = true) (ha : r.aborted = false) (hl : r.loaded = false) {flashOk : Bool}
    (h : flashOk = false ∨ rowSumsOk s = false ∨ ((spares s).all fun p => retentionOk s.img p (reloaded s)) = false) :
    execRepairReloadDone flashOk s = .next (startReset 5 0xA003 false (report 0xA003 (reloaded s))) := by
  rw [repairReload_runs hr hc hs ht ha hl, if_pos h]

theorem repairReload_verifies (ht : r.tested = true) (ha : r.aborted = false) (hl : r.loaded = false)
    (hrow : rowSumsOk s = true) (hret : ((spares s).all fun p => retentionOk s.img p (reloaded s)) = true) :
    ∃ data, execRepairReloadDone true s = .next (wantSnapshot (logOther 3 0 data
      { reloaded s with fab := { (reloaded s).fab with repair := some { r with loaded := true } } })) := by
  have ok : ¬(true = false ∨ rowSumsOk s = false ∨ ((spares s).all fun p => retentionOk s.img p (reloaded s)) = false) := by
    rw [hrow, hret]
    decide
  exact ⟨_, by rw [repairReload_runs hr hc hs ht ha hl, if_neg ok]⟩

end

/-- What a FLT reset outside BOOT and COMMIT writes to SYS.RESET (R667). -/
theorem startReset_record (fault : BitVec 16) (bySup : Bool) {s : State} (h : s.sys.code = .repair) :
    (startReset 5 fault bySup s).sys.cause = 5 ∧ (startReset 5 fault bySup s).sys.bySup = bySup ∧
      (startReset 5 fault bySup s).sys.resetFault = fault := by
  have written : ¬(inState [.boot, .commit] s = true ∧ resetRank 5 < resetRank s.sys.cause) := by simp [inState, h]
  simp only [startReset_sys, sysAfterReset, writeReset, if_neg written, and_self]

theorem repairReload_idle {s : State} {r : Repair} (hr : s.fab.repair = some r)
    (h : s.sys.code ≠ .repair ∨ supRuns s = false ∨ r.tested = false ∨ r.aborted = true ∨ r.loaded = true) (flashOk) :
    execRepairReloadDone flashOk s = .next s := by
  simp only [execRepairReloadDone, hr, if_pos h]

theorem repairMap_idle {s : State} {r : Repair} (hr : s.fab.repair = some r) (h : s.sys.code ≠ .repair ∨
    supRuns s = false ∨ r.loaded = false ∨ r.applied = true ∨ repairCommitted s = false) :
    execRepairMapApply s = .next s := by
  simp only [execRepairMapApply, hr, if_pos h]

theorem repairGap_idle {s : State} {r : Repair} (hr : s.fab.repair = some r) (h : s.sys.code ≠ .repair ∨
    supRuns s = false ∨ (r.applied = false ∧ r.aborted = false)) : execRepairGapEnd s = .next s := by
  simp only [execRepairGapEnd, hr, if_pos h]

theorem repair_none {s : State} (h : s.fab.repair = none) (flashOk) : execRepairReloadDone flashOk s = .next s ∧
    execRepairMapApply s = .next s ∧ execRepairGapEnd s = .next s := by
  simp only [execRepairReloadDone, execRepairMapApply, execRepairGapEnd, h, and_self]

/-- Without a repair, outside REPAIR and while the supervisor does not run no step is taken. -/
theorem repair_idle {s : State} (h : s.fab.repair = none ∨ s.sys.code ≠ .repair ∨ supRuns s = false) (flashOk) :
    execRepairReloadDone flashOk s = .next s ∧ execRepairMapApply s = .next s ∧ execRepairGapEnd s = .next s := by
  cases hr : s.fab.repair with
  | none => exact repair_none hr flashOk
  | some r =>
    rcases h.resolve_left (by rw [hr]; exact Option.some_ne_none r) with hc | hs
    · exact ⟨repairReload_idle hr (.inl hc) flashOk, repairMap_idle hr (.inl hc), repairGap_idle hr (.inl hc)⟩
    · exact ⟨repairReload_idle hr (.inr (.inl hs)) flashOk, repairMap_idle hr (.inr (.inl hs)), repairGap_idle hr (.inr (.inl hs))⟩

/-! ### REPAIR_START -/

/-- REPAIR as its gap begins: beats stopped, the failed column without power, the spare islands with it (R245). -/
def repairBegun (n : Nat) (s : State) : State :=
  powerColumn 8 rowUsed (powerColumn (n % 9) (fun _ _ => false) (skipBeats true false (stopBeats (enter .repair
    (unstand (faultCode 0x10 n) (unstand (faultCode 0x10 (128 + n)) s))))))

/-- REPAIR with the gap noted (R245, R246). -/
def repairEntered (n : Nat) (s : State) : State :=
  let t := repairBegun n s
  { t with
    pix := { t.pix with ingress := [] }
    fab := { t.fab with
      repair := some { Repair.reset with column := n % 9, perch := n, started := t.now }
      repairLine := t.lt.line } }

theorem repairStart_begins {s : State} {n : Nat} {rest : List Nat} (hf : s.fab.findings = n :: rest)
    (hc : s.sys.code = .run ∨ s.sys.code = .hold) (hs : supRuns s = true) (hr : s.fab.repair = none) : execRepairStart s = .next (repairEntered n s) := by
  have go : ¬(inState [.run, .hold] s = false ∨ supRuns s = false ∨ s.fab.repair.isSome = true) := by
    rcases hc with hc | hc <;> simp [inState, hc, hs, hr]
  simp only [execRepairStart, hf, if_neg go, repairEntered, repairBegun]

theorem repairStart_idle {s : State} (h : s.fab.findings = [] ∨ (s.sys.code ≠ .run ∧ s.sys.code ≠ .hold) ∨ supRuns s = false ∨
    s.fab.repair ≠ none) : execRepairStart s = .next s := by
  unfold execRepairStart
  split
  · rfl
  next hf =>
    refine if_pos ?_
    rw [hf] at h
    rcases h with h | ⟨h1, h2⟩ | h | h
    · contradiction
    · exact .inl (by simp [inState, h1, h2])
    · exact .inr (.inl h)
    · exact .inr (.inr (Option.isSome_iff_ne_none.mpr h))

theorem ofFn_at {α : Type} {n : Nat} (f : Fin n → α) (p : Fin n) : (Vector.ofFn f)[p] = f p := by
  simp

theorem stopBeats_running (s : State) (p : Fin 72) : (stopBeats s).fab.perch[p].finch.running = false := by
  simp only [stopBeats, ofFn_at]

theorem powerColumn_finch (c on) (s : State) (p : Fin 72) :
    (powerColumn c on s).fab.perch[p].finch = s.fab.perch[p].finch := by
  simp only [powerColumn, ofFn_at]
  split <;> rfl

theorem powerColumn_powered (c on) (s : State) (p : Fin 72) : (powerColumn c on s).fab.perch[p].powered =
    if p.val % 9 = c then on s p else s.fab.perch[p].powered := by
  simp only [powerColumn, ofFn_at]
  split <;> rfl

theorem skipBeats_fab (rep keep s) : (skipBeats rep keep s).fab = s.fab := by
  simp only [skipBeats, markLines_fab]

theorem repairBegun_running (n : Nat) (s : State) (p : Fin 72) : (repairBegun n s).fab.perch[p].finch.running = false := by
  rw [repairBegun, powerColumn_finch, powerColumn_finch, skipBeats_fab, stopBeats_running]

theorem repairBegun_sys (n s) : (repairBegun n s).sys = { s.sys with code := .repair, prev := s.sys.code } := by
  simp only [repairBegun, powerColumn, skipBeats, markLines_sys, stopBeats, enter_sys, unstand_sys]

theorem repairBegun_now (n s) : (repairBegun n s).now = s.now := by
  simp only [repairBegun, powerColumn, skipBeats, markLines_now, stopBeats, enter_now, unstand_now]

theorem repairBegun_lt (n s) : (repairBegun n s).lt = s.lt := by
  simp only [repairBegun, powerColumn, skipBeats, markLines_lt, stopBeats, enter_lt, unstand_lt]

theorem repairBegun_bypass (n s) : (repairBegun n s).fab.bypass = s.fab.bypass := by
  simp only [repairBegun, powerColumn, skipBeats_fab, stopBeats, enter_fab, unstand_fab]

/-- The column of the failed perch has no power (R245). -/
theorem repairBegun_powered {n : Nat} {p : Fin 72} (hp : p.val % 9 = n % 9) (hn : n % 9 < 8) (s : State) :
    (repairBegun n s).fab.perch[p].powered = false := by
  rw [repairBegun, powerColumn_powered, if_neg (by omega), powerColumn_powered, if_pos hp]

theorem repairEntered_sys (n s) : (repairEntered n s).sys = { s.sys with code := .repair, prev := s.sys.code } := by
  rw [repairEntered, repairBegun_sys]

theorem repairEntered_lt (n s) : (repairEntered n s).lt = s.lt := by
  rw [repairEntered, repairBegun_lt]

theorem repairEntered_fab (n s) : (repairEntered n s).fab = { (repairBegun n s).fab with
    repair := some { Repair.reset with column := n % 9, perch := n, started := s.now }, repairLine := s.lt.line } := by
  rw [repairEntered, repairBegun_now, repairBegun_lt]

theorem repairEntered_bypass (n s) : (repairEntered n s).fab.bypass = s.fab.bypass := by
  simp only [repairEntered, repairBegun_bypass]

theorem repairEntered_perch (n s) : (repairEntered n s).fab.perch = (repairBegun n s).fab.perch := by
  rw [repairEntered_fab]

/-! ### Everything that streams is cleared -/

/-- The Finches are as after a reset but for the slice of the check, and no token is queued (R245 step 6). -/
def streamsCleared (v w : Vector Perch 72) : Prop :=
  ∀ p : Fin 72, w[p].finch = { Finch.reset with slice := v[p].finch.slice } ∧ ∀ i : Fin 16, w[p].run.rxQ[i] = []

theorem cleared_streams (m s) :
    streamsCleared s.fab.perch (clearFinches (clearRunners (zeroStreaming m s))).fab.perch := by
  intro p
  refine ⟨?_, fun i => ?_⟩
  · simp only [clearFinches, clearRunners, zeroStreaming, ofFn_at]
  · simp only [clearFinches, clearRunners, zeroStreaming, ofFn_at]
    exact Vector.getElem_replicate ..

/-! ### REPAIR_MAP_APPLY -/

/-- The new column map of a repair, with its findings and those of the check gone (R245 step 6). -/
def mapApplied (r : Repair) (s : State) : State :=
  { s with
    fab := { s.fab with
      bypass := some r.column, repairAvail := false, findings := [], repair := some { r with applied := true } }
    flt := { s.flt with titheFound := [] } }

theorem repairMap_applies {s : State} {r : Repair} (hr : s.fab.repair = some r) (hc : s.sys.code = .repair)
    (hs : supRuns s = true) (hl : r.loaded = true) (ha : r.applied = false) (hk : repairCommitted s = true) :
    execRepairMapApply s = .next (clearFinches (clearRunners (zeroStreaming s.img (mapApplied r s)))) := by
  have go : ¬(s.sys.code ≠ .repair ∨ supRuns s = false ∨ r.loaded = false ∨ r.applied = true ∨ repairCommitted s = false) := by
    simp [hc, hs, hl, ha, hk]
  simp only [execRepairMapApply, hr, if_neg go]
  rfl

theorem mapApplied_streams (r s) :
    streamsCleared s.fab.perch (clearFinches (clearRunners (zeroStreaming s.img (mapApplied r s)))).fab.perch := by
  have before : (mapApplied r s).fab.perch = s.fab.perch := rfl
  rw [← before]
  exact cleared_streams s.img (mapApplied r s)

/-! ### The device state through the last lines of a strip -/

theorem closeDatagram_code (s : State) : (closeDatagram s).sys.code = s.sys.code := by
  have put (f : State → LaneId → State) (h : ∀ t l, (f t l).sys = t.sys) (ls : List LaneId) :
      (ls.foldl f s).sys = s.sys :=
    List.foldlRecOn (motive := fun t : State => t.sys = s.sys) _ _ rfl fun t ht l _ => (h t l).trans ht
  simp only [closeDatagram, progressed_sys]
  rw [put]
  intro t l
  split <;> rfl

theorem queueRecord_code (r s) : (queueRecord r s).sys.code = s.sys.code := by
  unfold queueRecord
  dsimp only
  split
  · rw [closeDatagram_code]
  · rfl

theorem flush_code (s) : (flush s).sys.code = s.sys.code := by
  unfold flush
  split
  · rfl
  · exact closeDatagram_code s

theorem sendFrame_sys (d f s) : (sendFrame d f s).sys = s.sys := by
  unfold sendFrame
  split <;> rfl

theorem readSlot_sys (i e s) : (readSlot i e s).sys = s.sys := by
  unfold readSlot
  split
  · rfl
  · exact report_sys ..
  · rw [report_sys]

theorem readHistory_sys (hist line h) (s : State) : (readHistory hist line h s).sys = s.sys :=
  List.foldlRecOn (motive := fun t : State => t.sys = s.sys) _ _ rfl fun t ht e _ => (readSlot_sys e.1 e.2 t).trans ht

theorem withholdCrop_sys (n s) : (withholdCrop n s).sys = s.sys := by
  rw [withholdCrop, markLine, markLines_sys, onSprue_sys]

theorem takeCrop_sys (c s) : (takeCrop c s).sys = s.sys := by rw [takeCrop, onSprue_sys]

theorem dropRecord_sys (n s) : (dropRecord n s).sys = s.sys := by
  rw [dropRecord, markLine, markLines_sys, onSprue_sys]

theorem takeRecordCredit_sys (s) : (takeRecordCredit s).sys = s.sys := by rw [takeRecordCredit, onSprue_sys]

theorem sendFragment_sys (t line fl seam boxId s) : (sendFragment t line fl seam boxId s).sys = s.sys := by
  simp only [sendFragment, sendFrame_sys, onSprue_sys]

theorem formRecord_code (hist l t s) : (formRecord hist l t s).sys.code = s.sys.code := by
  simp only [formRecord]
  (repeat' split) <;>
    simp only [queueRecord_code, sendFragment_sys, takeRecordCredit_sys, dropRecord_sys, takeCrop_sys, withholdCrop_sys,
      readHistory_sys, onSprue_sys]

theorem queueLine_code (l stop s) : (queueLine l stop s).sys.code = s.sys.code := by
  simp only [queueLine]
  (repeat' split) <;> simp only [queueRecord_code, flush_code, onSprue_sys]

theorem formRecords_code (hist l) (ts : List TokRec) (s : State) :
    (ts.foldl (fun t r => formRecord hist l r t) s).sys.code = s.sys.code :=
  List.foldlRecOn (motive := fun t : State => t.sys.code = s.sys.code) _ _ rfl
    fun t ht r _ => (formRecord_code hist l r t).trans ht

theorem formLine_code (hist l stop s) : (formLine hist l stop s).sys.code = s.sys.code := by
  simp only [formLine, progressed_sys, onSprue_sys, queueLine_code, formRecords_code]
  split <;> rfl

theorem formAll_code (n : Nat) (s : State) : (formAll n s).sys.code = s.sys.code := by
  induction n generalizing s with
  | zero => rfl
  | succ n ih =>
    unfold formAll
    split
    · rfl
    · rw [ih, formLine_code]

theorem sprHold_code (s : State) : (sprHold s).sys.code = s.sys.code := formAll_code ..

/-! ### REPAIR_GAP_END -/

/-- The fabric without its repair and findings, with a count of long gaps (R245 step 7, R246). -/
def gapClosed (long : Nat) (s : State) : State :=
  { s with fab := { s.fab with repair := none, findings := [], repairLong := long } }

/-- Everything that streams is cleared, the beats of the gap are skipped, the fabric restarts (R116, R247). -/
def gapRestarted (long : Nat) (s : State) : State :=
  let t := fabricRestart (skipBeats true (!holdDue s) (clearFinches (clearRunners (zeroStreaming s.img (gapClosed long s)))))
  { t with pix := { t.pix with ingress := if holdDue s then [] else newestOnly t.pix.ingress } }

theorem repairGap_ends {s : State} {r : Repair} (hr : s.fab.repair = some r) (hc : s.sys.code = .repair)
    (hs : supRuns s = true) (h : r.applied = true ∨ r.aborted = true) : ∃ long, execRepairGapEnd s =
      .next (if holdDue s then enter .hold (ltHold (sprHold (gapRestarted long s))) else enter .run (gapRestarted long s)) := by
  have go : ¬(s.sys.code ≠ .repair ∨ supRuns s = false ∨ (r.applied = false ∧ r.aborted = false)) := by
    rcases h with h | h <;> simp [hc, hs, h]
  simp only [execRepairGapEnd, hr, if_neg go, gapRestarted, gapClosed]
  generalize (if r.started + ms 80 < s.now then satInc 32 s.fab.repairLong else s.fab.repairLong) = long
  exact ⟨long, rfl⟩

theorem gapRestarted_code (long s) : (gapRestarted long s).sys.code = s.sys.code := by
  simp only [gapRestarted, fabricRestart, skipBeats, markLines_sys, clearFinches, clearRunners, zeroStreaming, gapClosed]

/-- A restart of the fabric counts the context lines still to come (R247). -/
theorem fabricRestart_fab (s : State) : ∃ n b, (fabricRestart s).fab = { s.fab with ctxLeft := n, restart := b } := by
  simp only [fabricRestart, markLines_fab]
  exact ⟨_, _, rfl⟩

theorem gapRestarted_fab (long s) : ∃ n b, (gapRestarted long s).fab =
    { (clearFinches (clearRunners (zeroStreaming s.img (gapClosed long s)))).fab with ctxLeft := n, restart := b } := by
  obtain ⟨n, b, h⟩ := fabricRestart_fab
    (skipBeats true (!holdDue s) (clearFinches (clearRunners (zeroStreaming s.img (gapClosed long s)))))
  exact ⟨n, b, by simp only [gapRestarted, h, skipBeats_fab]⟩

theorem gapRestarted_streams (long s) : streamsCleared s.fab.perch (gapRestarted long s).fab.perch := by
  obtain ⟨n, b, h⟩ := gapRestarted_fab long s
  have before : (gapClosed long s).fab.perch = s.fab.perch := rfl
  rw [h, ← before]
  exact cleared_streams s.img (gapClosed long s)

/-- What the fabric holds of a repair after its gap, with the column map as it was. -/
theorem gapRestarted_repair (long s) : (gapRestarted long s).fab.repair = none ∧ (gapRestarted long s).fab.findings = [] ∧
    (gapRestarted long s).fab.bypass = s.fab.bypass := by
  obtain ⟨n, b, h⟩ := gapRestarted_fab long s
  simp only [h, clearFinches, clearRunners, zeroStreaming, gapClosed, and_self]

/-- Settles O25: each step from its equation, the reload as a change of Wrens alone. -/
theorem columnRepairFollowsItsSteps : Obligations.ColumnRepairFollowsItsSteps := by
  unfold Obligations.ColumnRepairFollowsItsSteps
  refine ⟨?start, fun s h => repairStart_idle h, ?reloadFails, ?reloadVerifies, fun s flashOk h => repair_idle h flashOk,
    fun s r flashOk hr h => repairReload_idle hr (.inr (.inr h)) flashOk, ?applies,
    fun s r hr h => repairMap_idle hr (.inr (.inr h)), ?gapEnds,
    fun s r hr ha hb => repairGap_idle hr (.inr (.inr ⟨ha, hb⟩))⟩
  case start =>
    intro s n rest hf hc hs hr
    refine ⟨_, repairStart_begins hf hc hs hr, by rw [repairEntered_sys], by rw [repairEntered_sys],
      by rw [repairEntered_fab], by rw [repairEntered_fab], fun p => ?_, fun p hp hn => ?_, rfl, repairEntered_lt n s,
      repairEntered_bypass n s⟩
    · rw [repairEntered_perch, repairBegun_running]
    · rw [repairEntered_perch, repairBegun_powered hp hn]
  case reloadFails =>
    intro s t r flashOk hr hc hs ht ha hl hload h
    subst hload
    obtain ⟨perch, wcnt, only⟩ := reloaded_wrensOnly s
    have code : (report 0xA003 (reloaded s)).sys.code = .repair := by rw [report_sys, only, hc]
    obtain ⟨cause, bySup, fault⟩ := startReset_record 0xA003 false code
    obtain ⟨boot, stage, latch, _⟩ := startReset_flt 0xA003 false (report 0xA003 (reloaded s))
    exact ⟨_, repairReload_fails hr hc hs ht ha hl h, boot, cause, bySup, fault, latch, stage⟩
  case reloadVerifies =>
    intro s t r hr hc hs ht ha hl hload hrow hret
    subst hload
    obtain ⟨perch, wcnt, only⟩ := reloaded_wrensOnly s
    obtain ⟨data, h⟩ := repairReload_verifies hr hc hs ht ha hl hrow hret
    rw [only] at h
    exact ⟨_, h, hc, rfl, rfl, rfl, rfl, rfl⟩
  case applies =>
    intro s r hr hc hs hl ha hk
    have streams := mapApplied_streams r s
    refine ⟨_, repairMap_applies hr hc hs hl ha hk, rfl, rfl, rfl, rfl, rfl, rfl, ?_⟩
    generalize clearFinches (clearRunners (zeroStreaming s.img (mapApplied r s))) = t at streams ⊢
    exact streams
  case gapEnds =>
    intro s r hr hc hs h
    obtain ⟨long, hgo⟩ := repairGap_ends hr hc hs h
    obtain ⟨repair, findings, bypass⟩ := gapRestarted_repair long s
    have code := gapRestarted_code long s
    have streams := gapRestarted_streams long s
    refine ⟨_, hgo, ?_⟩
    generalize gapRestarted long s = t at repair findings bypass code streams ⊢
    by_cases hold : holdDue s = true
    · have fab : (enter .hold (ltHold (sprHold t))).fab = t.fab := by rw [enter_fab, ltHold_fab, sprHold_fab]
      have prev : (enter .hold (ltHold (sprHold t))).sys.prev = .repair := (sprHold_code t).trans (code.trans hc)
      rw [if_pos hold, if_pos hold, fab]
      exact ⟨repair, findings, bypass, rfl, fun _ => ⟨rfl, rfl⟩, prev, streams⟩
    · rw [if_neg hold, if_neg hold]
      exact ⟨repair, findings, bypass, rfl, fun h => absurd h hold, code.trans hc, streams⟩

end Sys2Proof.Machine

/-! SUPPORT. Words of a Wren (family 07_wren.md): what a write makes of a Wren, what a read leaves after each outcome of its
check, and what a blocked write reports. -/

namespace Sys2Proof.Machine

/-! ### Writes -/

/-- One word of a Wren takes a value, within R251. -/
def wrenWord (a : Nat) (w : WWord) (x : Wren) : Wren :=
  if a < 49152 then setWord a w x else x

/-- Words of a Wren take values, in order. -/
def wrenWords : List Nat → List WWord → Wren → Wren
  | a :: as, w :: ws, x => wrenWords as ws (wrenWord a w x)
  | _, _, x => x

theorem onWren_here (p f s) : (onWren p f s).fab.perch[p] = { s.fab.perch[p] with wren := f s.fab.perch[p].wren } :=
  onPerch_here ..

theorem onWren_there {p q : Fin 72} (hq : q ≠ p) (f s) : (onWren p f s).fab.perch[q] = s.fab.perch[q] :=
  onPerch_there hq ..

theorem onWren_onWren (p f g s) : onWren p f (onWren p g s) = onWren p (fun x => f (g x)) s := onPerch_onPerch ..

theorem putWord_eq (p a w s) : putWord p a w s = onWren p (wrenWord a w) s := by
  by_cases ha : a < 49152
  · simp only [putWord, if_pos ha, onWren, wrenWord]
  · exact (putWord_outside ha p w s).trans (onWren_eq_self (if_neg ha)).symm

theorem putWords_eq (p as ws s) : putWords p as ws s = onWren p (wrenWords as ws) s := by
  induction as generalizing ws s with
  | nil => exact (onWren_eq_self rfl).symm
  | cons a as ih =>
    cases ws with
    | nil => exact (onWren_eq_self rfl).symm
    | cons w ws => exact (ih ws _).trans (by rw [putWord_eq, onWren_onWren]; rfl)

theorem wrenWord_only (a w x) :
    wrenWord a w x = { x with words := (wrenWord a w x).words, wbQ := (wrenWord a w x).wbQ } := by
  unfold wrenWord
  split <;> rfl

/-- Writes change the words and the corrections that wait, and nothing else of the Wren. -/
theorem wrenWords_only (as ws x) :
    wrenWords as ws x = { x with words := (wrenWords as ws x).words, wbQ := (wrenWords as ws x).wbQ } := by
  induction as generalizing ws x with
  | nil => rfl
  | cons a as ih =>
    cases ws with
    | nil => rfl
    | cons w ws =>
      rw [wrenWords, ih, wrenWord_only]

theorem wrenWord_read_other {a b : Nat} (h : b ≠ a) (w x) :
    Sparse.read WWord.reset (wrenWord a w x).words b = Sparse.read WWord.reset x.words b := by
  unfold wrenWord
  split
  · exact read_write_unordered h ..
  · rfl

theorem wrenWords_read_other {as : List Nat} {b : Nat} (h : b ∉ as) (ws x) :
    Sparse.read WWord.reset (wrenWords as ws x).words b = Sparse.read WWord.reset x.words b := by
  induction as generalizing ws x with
  | nil => rfl
  | cons a as ih =>
    cases ws with
    | nil => rfl
    | cons w ws =>
      obtain ⟨ha, has⟩ := List.ne_and_not_mem_of_not_mem_cons h
      exact (ih has ws _).trans (wrenWord_read_other ha w x)

theorem wrenWord_wf (a w) {x : Wren} (h : Sparse.wf WWord.reset x.words = true) :
    Sparse.wf WWord.reset (wrenWord a w x).words = true := by
  unfold wrenWord
  split
  · exact setWord_wf _ _ h
  · exact h

theorem wrenWord_read {a : Nat} (ha : a < 49152) (w) {x : Wren} (h : Sparse.wf WWord.reset x.words = true) :
    Sparse.read WWord.reset (wrenWord a w x).words a = if w.poison then ⟨0, true⟩ else w := by
  rw [wrenWord, if_pos ha]
  exact read_write_same h

/-- Each word written reads as written, poisoned data as the poison pattern. -/
theorem wrenWords_read {as : List Nat} {ws : List WWord} {x : Wren} (hc : Sparse.wf WWord.reset x.words = true)
    (hn : as.Nodup) (hlt : ∀ a ∈ as, a < 49152) {a : Nat} {w : WWord} (h : (a, w) ∈ as.zip ws) :
    Sparse.read WWord.reset (wrenWords as ws x).words a = if w.poison then ⟨0, true⟩ else w := by
  induction as generalizing ws x with
  | nil => simp at h
  | cons b as ih =>
    cases ws with
    | nil => simp at h
    | cons v ws =>
      obtain ⟨hb, hn⟩ := List.nodup_cons.mp hn
      obtain ⟨hblt, hlt⟩ := List.forall_mem_cons.mp hlt
      rcases List.mem_cons.mp h with h | h
      · obtain ⟨rfl, rfl⟩ := Prod.mk.inj h
        exact (wrenWords_read_other hb ..).trans (wrenWord_read hblt _ hc)
      · exact ih (wrenWord_wf _ _ hc) hn hlt h

theorem wordAt_onWren (p f s a) :
    wordAt (onWren p f s) p a = Sparse.read WWord.reset (f s.fab.perch[p].wren).words a := by
  rw [wordAt, onWren_here]

theorem wordAt_congr {s t : State} {p : Fin 72} (h : t.fab.perch[p].wren.words = s.fab.perch[p].wren.words) (a) :
    wordAt t p a = wordAt s p a := by
  rw [wordAt, wordAt, h]

theorem putWords_here (p as ws s) : (putWords p as ws s).fab.perch[p] =
    { s.fab.perch[p] with wren := wrenWords as ws s.fab.perch[p].wren } := by
  rw [putWords_eq, onWren_here]

theorem putWords_flt (p as ws s) : (putWords p as ws s).flt = s.flt := by
  rw [putWords_eq]
  rfl

theorem putWords_read_other {as : List Nat} {a : Nat} (h : a ∉ as) (p ws s) :
    wordAt (putWords p as ws s) p a = wordAt s p a := by
  rw [putWords_eq, wordAt_onWren, wrenWords_read_other h, wordAt]

theorem putWords_read {s : State} {p : Fin 72} {as : List Nat} {ws : List WWord} (hc : CanonicalWren s p) (hn : as.Nodup)
    (hlt : ∀ a ∈ as, a < 49152) {a : Nat} {w : WWord} (h : (a, w) ∈ as.zip ws) :
    wordAt (putWords p as ws s) p a = if w.poison then ⟨0, true⟩ else w := by
  rw [putWords_eq, wordAt_onWren, wrenWords_read hc hn hlt h]

/-! ### What a finding leaves alone -/

theorem finding_wcnt (p s) : (finding p s).fab.wcnt = s.fab.wcnt := by
  unfold finding
  dsimp only
  (repeat' split) <;> rfl

theorem finding_here (p s) : ∃ b, (finding p s).fab.perch[p] = { s.fab.perch[p] with failed := b } := by
  rw [finding_perch]
  split
  · exact ⟨_, rfl⟩
  · exact ⟨true, vmod_same ..⟩

theorem residentLost_flt (p a s) : (residentLost p a s).flt = s.flt := by
  unfold residentLost
  split
  · split
    · rfl
    · split
      · exact finding_flt ..
      · rfl
  · rfl

theorem residentLost_wcnt (p a s) : ∃ b, (residentLost p a s).fab.wcnt = { s.fab.wcnt with reloading := b } := by
  unfold residentLost
  split
  · split
    · exact ⟨_, rfl⟩
    · split
      · exact ⟨_, finding_wcnt ..⟩
      · exact ⟨true, rfl⟩
  · exact ⟨_, rfl⟩

/-- A lost resident word has its region rewritten, or its perch fails (R285). -/
theorem residentLost_here (p a s) : ∃ b l, (residentLost p a s).fab.perch[p] =
    { s.fab.perch[p] with failed := b, wren := { s.fab.perch[p].wren with rewriting := l } } := by
  unfold residentLost
  split
  next g _ =>
    split
    · exact ⟨_, _, rfl⟩
    · split
      · obtain ⟨b, h⟩ := finding_here p s
        exact ⟨b, _, h⟩
      · exact ⟨_, _, onWren_here p (fun x => { x with rewriting := x.rewriting ++ [(g.ix, 0)] }) s⟩
  · exact ⟨_, _, rfl⟩

/-! ### Reports of a Wren -/

theorem wrenCorrected_fab (code s) : (wrenCorrected code s).fab =
    { s.fab with wcnt := { s.fab.wcnt with corr := satInc 32 s.fab.wcnt.corr } } := by
  simp only [wrenCorrected, onWCnt, report_fab]

theorem wrenLost_fab (code s) : (wrenLost code s).fab =
    { s.fab with wcnt := { s.fab.wcnt with uncorr := satInc 32 s.fab.wcnt.uncorr } } := by
  simp only [wrenLost, onWCnt, report_fab]

/-- A blocked write is reported and counted; no perch changes (R274, R279). -/
theorem blocked_fab (p s) : (blocked p s).fab =
    { s.fab with wcnt := { s.fab.wcnt with blocked := satInc 32 s.fab.wcnt.blocked } } := by
  simp only [blocked, degradeBeat, markLine_fab, onWCnt, report_fab]

theorem wrenCorrected_classCount (n s) :
    classCount (wrenCorrected (faultCode 0x11 n) s) 0x11 = satInc 32 (classCount s 0x11) :=
  classCount_report_faultCode (by decide) n s

theorem wrenLost_classCount (n s) :
    classCount (wrenLost (faultCode 0x12 n) s) 0x12 = satInc 32 (classCount s 0x12) :=
  classCount_report_faultCode (by decide) n s

theorem blocked_classCount (p s) : classCount (blocked p s) 0x13 = satInc 32 (classCount s 0x13) :=
  classCount_report_faultCode (by decide) p.val s

/-! ### Reads -/

theorem readWords_length (p as es s) : (readWords p as es s).1.length = as.length := by
  induction as generalizing es s with
  | nil => rfl
  | cons a as ih => exact congrArg (· + 1) (ih ..)

/-- A clean read gives the word as it stands; only the WREN counters can change (R282). -/
theorem readWord_counts (p a s) : ∃ c, readWord p a .clean s = (wordAt s p a, onWCnt (fun _ => c) s) := by
  unfold readWord
  dsimp only
  split
  · exact ⟨_, rfl⟩
  · exact ⟨s.fab.wcnt, rfl⟩

theorem readWords_clean (p as s) : ∃ c, readWords p as [] s = (as.map (wordAt s p), onWCnt (fun _ => c) s) := by
  induction as generalizing s with
  | nil => exact ⟨s.fab.wcnt, rfl⟩
  | cons a as ih =>
    obtain ⟨c, h⟩ := readWord_counts p a s
    obtain ⟨d, h'⟩ := ih (onWCnt (fun _ => c) s)
    refine ⟨d, ?_⟩
    simp only [readWords, List.headD_nil, List.tail_nil, h, h']
    rfl

/-- The words of a unit whose first word alone has a finding: that word is read with it, the others clean. -/
theorem readWords_first (p a as e s) : ∃ ws c, readWords p (a :: as) [e] s = (ws, onWCnt (fun _ => c) (readWord p a e s).2) := by
  obtain ⟨c, h⟩ := readWords_clean p as (readWord p a e s).2
  exact ⟨(readWord p a e s).1 :: as.map (wordAt (readWord p a e s).2 p), c,
    by simp only [readWords, List.headD_cons, List.tail_cons, h]⟩

/-- A word of perch `p` was read as corrected: it is reported and its correction queued (R281). -/
structure Corrected (p : Fin 72) (a : Nat) (s t : State) : Prop where
  finch : t.fab.perch[p].finch = s.fab.perch[p].finch
  words : t.fab.perch[p].wren.words = s.fab.perch[p].wren.words
  corr : t.fab.perch[p].wren.corr = satInc 8 s.fab.perch[p].wren.corr
  queued : s.fab.perch[p].wren.wbQ.length < 4 →
    t.fab.perch[p].wren.wbQ = s.fab.perch[p].wren.wbQ ++ [(a, wordAt s p a)]
  dropped : 4 ≤ s.fab.perch[p].wren.wbQ.length → t.fab.wcnt.wbDropped = satInc 32 s.fab.wcnt.wbDropped
  reported : classCount t 0x11 = satInc 32 (classCount s 0x11)
  counted : t.fab.wcnt.corr = satInc 32 s.fab.wcnt.corr

theorem readWord_corrected {s : State} {p : Fin 72} {a : Nat} (h : (wordAt s p a).poison = false) :
    ∃ t, readWord p a .corrected s = (wordAt s p a, t) ∧ Corrected p a s t := by
  let u := onWren p (fun x => { x with corr := satInc 8 x.corr }) (wrenCorrected (eccCode 0x11 s p a) s)
  have here : u.fab.perch[p] = { s.fab.perch[p] with wren := { s.fab.perch[p].wren with corr := satInc 8 s.fab.perch[p].wren.corr } } := by
    rw [onWren_here, wrenCorrected_fab]
  have wcnt : u.fab.wcnt = { s.fab.wcnt with corr := satInc 32 s.fab.wcnt.corr } :=
    congrArg Fab.wcnt (wrenCorrected_fab ..)
  have reported : classCount u 0x11 = satInc 32 (classCount s 0x11) := wrenCorrected_classCount ..
  refine ⟨queueWb p a (wordAt s p a) u, by simp only [readWord, h]; rfl, ?_⟩
  by_cases room : s.fab.perch[p].wren.wbQ.length < 4
  · have queue : queueWb p a (wordAt s p a) u = onWren p (fun x => { x with wbQ := x.wbQ ++ [(a, wordAt s p a)] }) u :=
      if_pos (by rw [here]; exact room)
    rw [queue]
    refine ⟨?_, ?_, ?_, fun _ => ?_, fun full => by omega, reported, congrArg WrenCnt.corr wcnt⟩
    all_goals rw [onWren_here, here]
  · have drop : queueWb p a (wordAt s p a) u = onWCnt (fun c => { c with wbDropped := satInc 32 c.wbDropped }) u :=
      if_neg (by rw [here]; exact room)
    rw [drop]
    refine ⟨?_, ?_, ?_, fun free => absurd free room, fun _ => ?_, reported, congrArg WrenCnt.corr wcnt⟩
    · exact (congrArg Perch.finch here :)
    · exact (congrArg (fun x : Perch => x.wren.words) here :)
    · exact (congrArg (fun x : Perch => x.wren.corr) here :)
    · exact (congrArg (fun c : WrenCnt => satInc 32 c.wbDropped) wcnt :)

/-- A word of perch `p` was lost: it is reported and holds the poison pattern (R282). -/
structure Lost (p : Fin 72) (a : Nat) (s t : State) : Prop where
  finch : t.fab.perch[p].finch = s.fab.perch[p].finch
  uncorr : t.fab.perch[p].wren.uncorr = satInc 8 s.fab.perch[p].wren.uncorr
  pattern : CanonicalWren s p → a < 49152 → wordAt t p a = ⟨0, true⟩
  others : ∀ b, b ≠ a → wordAt t p b = wordAt s p b
  reported : classCount t 0x12 = satInc 32 (classCount s 0x12)
  counted : t.fab.wcnt.uncorr = satInc 32 s.fab.wcnt.uncorr

/-- The state in which an uncorrectable word holds the poison pattern, before its region is looked at. -/
def wordLost (p : Fin 72) (a : Nat) (s : State) : State :=
  putWord p a ⟨0, true⟩
    (bump (onWren p (fun x => { x with uncorr := satInc 8 x.uncorr }) (wrenLost (eccCode 0x12 s p a) s)))

theorem readWord_lost (p a s) : ∃ d, readWord p a .uncorrectable s = (⟨d, true⟩, residentLost p a (wordLost p a s)) :=
  ⟨_, rfl⟩

theorem wordLost_here (p a s) : (wordLost p a s).fab.perch[p] = { s.fab.perch[p] with wren :=
    (wrenWord a ⟨0, true⟩ { s.fab.perch[p].wren with uncorr := satInc 8 s.fab.perch[p].wren.uncorr }) } := by
  rw [wordLost, putWord_eq, onWren_here, bump_fab, onWren_here, wrenLost_fab]

theorem wordLost_flt (p a s) : (wordLost p a s).flt = (wrenLost (eccCode 0x12 s p a) s).flt := by
  rw [wordLost, putWord_eq, onWren_flt, bump_flt, onWren_flt]

theorem wordLost_wcnt (p a s) : (wordLost p a s).fab.wcnt = { s.fab.wcnt with uncorr := satInc 32 s.fab.wcnt.uncorr } := by
  rw [wordLost, putWord_eq, onWren_fab, bump_fab, onWren_fab, wrenLost_fab]

theorem readWord_uncorrectable (p a s) :
    ∃ d t, readWord p a .uncorrectable s = (⟨d, true⟩, t) ∧ Lost p a s t := by
  obtain ⟨d, h⟩ := readWord_lost p a s
  obtain ⟨b, l, here⟩ := residentLost_here p a (wordLost p a s)
  obtain ⟨c, counters⟩ := residentLost_wcnt p a (wordLost p a s)
  rw [wordLost_here] at here
  rw [wordLost_wcnt] at counters
  have flt := (residentLost_flt p a (wordLost p a s)).trans (wordLost_flt p a s)
  refine ⟨d, _, h, ?_⟩
  generalize residentLost p a (wordLost p a s) = t at here counters flt
  refine ⟨by rw [here], by rw [here, wrenWord_only], fun hc ha => ?_, fun b hb => ?_, ?_, by rw [counters]⟩
  · rw [wordAt, here]
    exact wrenWord_read (w := ⟨0, true⟩) ha hc
  · rw [wordAt, here, wrenWord_read_other hb, wordAt]
  · rw [classCount_congr flt]
    exact wrenLost_classCount ..

end Sys2Proof.Machine

/-! SUPPORT. LDW, LDN, LDT, STW and STN (family 07_wren.md): each one's next state as a change of its Finch, after its reads or
its writes. Settles O32. -/

namespace Sys2Proof.Machine

/-! ### An operation that issues -/

/-- An operation has taken its slot on perch `p` and done `f` to the Finch. -/
def issuedOn (p : Fin 72) (k : Issue) (f : Finch → Finch) (s : State) : State :=
  onPerch p (fun x => { x with iss := k, finch := f x.finch }) s

theorem issuedOn_here (p k f s) : (issuedOn p k f s).fab.perch[p] =
    { s.fab.perch[p] with iss := k, finch := f s.fab.perch[p].finch } :=
  onPerch_here ..

theorem issuedOn_there {p q : Fin 72} (hq : q ≠ p) (k f s) : (issuedOn p k f s).fab.perch[q] = s.fab.perch[q] :=
  onPerch_there hq ..

theorem issuedOn_id (p k k' f s) : issuedOn p k f (issuedOn p k' id s) = issuedOn p k f s := onPerch_onPerch ..

theorem wordAt_issuedOn (p k f s a) : wordAt (issuedOn p k f s) p a = wordAt s p a := by
  rw [wordAt, issuedOn_here, wordAt]

/-- From `s` to `t` an operation has done `f` to the Finch of perch `p`: no Wren and no other perch changed, and nothing was
reported. -/
structure Worked (p : Fin 72) (f : Finch → Finch) (s t : State) : Prop where
  finch : t.fab.perch[p].finch = f s.fab.perch[p].finch
  wren : t.fab.perch[p].wren = s.fab.perch[p].wren
  flt : t.flt = s.flt
  others : ∀ q : Fin 72, q ≠ p → t.fab.perch[q] = s.fab.perch[q]

theorem issuedOn_worked (p k f s) : Worked p f s (issuedOn p k f s) :=
  ⟨by rw [issuedOn_here], by rw [issuedOn_here], rfl, fun _ hq => issuedOn_there hq ..⟩

theorem beginOp_issuedOn (p i s) : ∃ k, beginOp p i s = issuedOn p k id s :=
  ⟨_, onPerch_congr rfl⟩

theorem noteOp_issuedOn (p i out s) : ∃ k, noteOp p i out s = issuedOn p k id s := by
  unfold noteOp
  split
  · exact ⟨_, onPerch_congr rfl⟩
  · exact ⟨s.fab.perch[p].iss, (onPerch_self rfl).symm⟩

/-- An operation that has changed its Finch joins the signature of its slice. -/
theorem noteOp_onFinch (p i out f s) : ∃ k, noteOp p i out (onFinch p f s) = issuedOn p k f s := by
  obtain ⟨k, h⟩ := noteOp_issuedOn p i out (onFinch p f s)
  exact ⟨k, h.trans (onPerch_onPerch ..)⟩

theorem agOrient_of_memIssues {s : State} {p : Fin 72} {ag : Fin 8} {wide : Bool} (h : memIssues s p ag wide = true) :
    decide (agOrient s p ag ≠ 0) = wide := by
  simp only [memIssues, Bool.and_eq_true, beq_iff_eq] at h
  exact h.2

/-! ### The words of a unit -/

theorem unitWords_length {o : Nat} (h : o ≠ 0) (k) : (unitWords o k).length = 16 := by
  unfold unitWords
  split
  · contradiction
  · simp
  · simp

theorem unitWords_nodup (o k : Nat) : (unitWords o k).Nodup := by
  unfold unitWords
  split
  · exact List.nodup_singleton k
  · exact List.nodup_range.map fun i j (h : 16 * k + i = 16 * k + j) => by omega
  · exact List.nodup_range.map fun i j (h : 256 * (k / 16) + k % 16 + 16 * i = 256 * (k / 16) + k % 16 + 16 * j) => by
      omega

theorem agWords_nodup (s p ag k) : (agWords s p ag k).Nodup := unitWords_nodup ..

/-- A narrow generator gives one word. -/
theorem agWords_narrow {s : State} {p : Fin 72} {ag : Fin 8} (h : memIssues s p ag false = true) (k) :
    agWords s p ag k = [agUnit s p ag k] := by
  have narrow : agOrient s p ag = 0 := by simpa using agOrient_of_memIssues h
  rw [agWords, narrow, unitWords]

theorem agWords_wide {s : State} {p : Fin 72} {ag : Fin 8} (h : memIssues s p ag true = true) (k) :
    (agWords s p ag k).length = 16 := by
  have wide : agOrient s p ag ≠ 0 := by simpa using agOrient_of_memIssues h
  exact unitWords_length wide _

/-! ### LDW and LDN -/

/-- A Finch whose generator has been used `n` times more. -/
def usedAg (ag : Fin 8) (n : Nat) (x : Finch) : Finch :=
  { x with agUse := vmod x.agUse ag (· + n) }

/-- A Finch after the words `ws` of a load reached its input register, under a predicate as `fi` has it. -/
def loadedInput (g : PredSel) (ag : Fin 8) (fi : Finch) (ws : List WWord) (x : Finch) : Finch :=
  let mark := ws.any (·.poison) || predMark fi g
  if predValue fi g then
    if ws.length = 1 then setInputWord ((ws.map (·.data)).headD 0) mark (usedAg ag 1 x)
    else setInput (ws.map (·.data)) mark (usedAg ag 1 x)
  else usedAg ag 1 x

theorem loadInput_eq (p g ag fi ws s) : loadInput p g ag fi ws s = onFinch p (loadedInput g ag fi ws) s := by
  unfold loadInput loadedInput
  dsimp only
  split
  · split <;> exact onPerch_onPerch ..
  · rfl

section
variable {g : PredSel} {fi : Finch} (ag : Fin 8) (x : Finch)

theorem loadedInput_wide (hg : predValue fi g = true) {ws : List WWord} (h : ws.length = 16) :
    loadedInput g ag fi ws x = { x with
      inReg := ws.map (·.data)
      inPoison := ws.any (·.poison) || predMark fi g
      agUse := vmod x.agUse ag (· + 1) } := by
  have many : ws.length ≠ 1 := by omega
  simp only [loadedInput, hg, many, if_true, if_false]
  rfl

theorem loadedInput_narrow (hg : predValue fi g = true) (w : WWord) :
    loadedInput g ag fi [w] x = setInputWord w.data (w.poison || predMark fi g) (usedAg ag 1 x) := by
  simp [loadedInput, hg]

theorem loadedInput_false (hg : predValue fi g = false) (ws) : loadedInput g ag fi ws x = usedAg ag 1 x := by
  simp only [loadedInput, hg, Bool.false_eq_true, if_false]

theorem loadedInput_agUse (ws) : (loadedInput g ag fi ws x).agUse = vmod x.agUse ag (· + 1) := by
  unfold loadedInput
  dsimp only
  (repeat' split) <;> rfl

theorem setInputWord_head (w mark) : (setInputWord w mark x).inReg.head? = some w := rfl

theorem setInputWord_rest (w mark) {i : Nat} (h0 : 0 < i) (h1 : i < 16) :
    (setInputWord w mark x).inReg.getD i 0 = x.inReg.getD i 0 := by
  have later : 0 ≠ i := by omega
  simp [setInputWord, later, h1]

end

section
variable {s u : State} {p : Fin 72} {ag : Fin 8} (g : PredSel)

theorem execLdw_loads (hi : memIssues s p ag true = true) {ecc : List Ecc} {ws : List WWord}
    (hr : readWords p (agWords s p ag (agCount s p ag)) ecc (beginOp p (.ldw p g ag ecc) s) = (ws, u)) :
    ∃ k, execLdw p g ag ecc s = .next (issuedOn p k (loadedInput g ag (opView s p (.ldw p g ag ecc)) ws) u) := by
  obtain ⟨k, h⟩ := noteOp_onFinch p (.ldw p g ag ecc) [] (loadedInput g ag (opView s p (.ldw p g ag ecc)) ws) u
  refine ⟨k, ?_⟩
  simp only [execLdw, hi, Bool.true_eq_false, if_false, hr, loadInput_eq, h]

theorem execLdn_loads (hi : memIssues s p ag false = true) {e : Ecc} {w : WWord}
    (hr : readWord p (agUnit s p ag (agCount s p ag)) e (beginOp p (.ldn p g ag e) s) = (w, u)) :
    ∃ k, execLdn p g ag e s = .next (issuedOn p k (loadedInput g ag (opView s p (.ldn p g ag e)) [w]) u) := by
  obtain ⟨k, h⟩ := noteOp_onFinch p (.ldn p g ag e) [] (loadedInput g ag (opView s p (.ldn p g ag e)) [w]) u
  refine ⟨k, ?_⟩
  simp only [execLdn, hi, Bool.true_eq_false, if_false, hr, loadInput_eq, h]

end

/-- The clean reads of an operation that has taken its slot. -/
theorem readWords_begun (p as i s) : ∃ k c,
    readWords p as [] (beginOp p i s) = (as.map (wordAt s p), onWCnt (fun _ => c) (issuedOn p k id s)) := by
  obtain ⟨k, hk⟩ := beginOp_issuedOn p i s
  obtain ⟨c, hc⟩ := readWords_clean p as (issuedOn p k id s)
  have same : wordAt (issuedOn p k id s) p = wordAt s p := funext (wordAt_issuedOn p k id s)
  exact ⟨k, c, by rw [hk, hc, same]⟩

theorem readWord_begun (p a i s) : ∃ k c,
    readWord p a .clean (beginOp p i s) = (wordAt s p a, onWCnt (fun _ => c) (issuedOn p k id s)) := by
  obtain ⟨k, hk⟩ := beginOp_issuedOn p i s
  obtain ⟨c, hc⟩ := readWord_counts p a (issuedOn p k id s)
  exact ⟨k, c, by rw [hk, hc, wordAt_issuedOn]⟩

/-- What an operation does to its Finch after clean reads. -/
theorem worked_clean (p k k' c f s) : Worked p f s (issuedOn p k f (onWCnt (fun _ => c) (issuedOn p k' id s))) := by
  have counts (t : State) : issuedOn p k f (onWCnt (fun _ => c) t) = onWCnt (fun _ => c) (issuedOn p k f t) := rfl
  obtain ⟨finch, wren, flt, others⟩ := issuedOn_worked p k f s
  rw [counts, issuedOn_id]
  exact ⟨finch, wren, flt, others⟩

section
variable {s : State} {p : Fin 72} {ag : Fin 8} (g : PredSel)

theorem execLdw_clean (hi : memIssues s p ag true = true) : ∃ t, execLdw p g ag [] s = .next t ∧ Worked p
    (loadedInput g ag (opView s p (.ldw p g ag [])) ((agWords s p ag (agCount s p ag)).map (wordAt s p))) s t := by
  obtain ⟨k', c, hr⟩ := readWords_begun p (agWords s p ag (agCount s p ag)) (.ldw p g ag []) s
  obtain ⟨k, h⟩ := execLdw_loads g hi hr
  exact ⟨_, h, worked_clean ..⟩

theorem execLdn_clean (hi : memIssues s p ag false = true) : ∃ t, execLdn p g ag .clean s = .next t ∧ Worked p
    (loadedInput g ag (opView s p (.ldn p g ag .clean)) [wordAt s p (agUnit s p ag (agCount s p ag))]) s t := by
  obtain ⟨k', c, hr⟩ := readWord_begun p (agUnit s p ag (agCount s p ag)) (.ldn p g ag .clean) s
  obtain ⟨k, h⟩ := execLdn_loads g hi hr
  exact ⟨_, h, worked_clean ..⟩

end

theorem Corrected.of_begun {s t : State} {p : Fin 72} {a : Nat} {k : Issue} (h : Corrected p a (issuedOn p k id s) t) :
    Corrected p a s t := by
  obtain ⟨finch, words, corr, queued, dropped, reported, counted⟩ := h
  simp only [issuedOn_here, wordAt_issuedOn] at finch words corr queued dropped
  exact ⟨finch, words, corr, queued, dropped, reported, counted⟩

theorem Lost.of_begun {s t : State} {p : Fin 72} {a : Nat} {k : Issue} (h : Lost p a (issuedOn p k id s) t) :
    Lost p a s t := by
  obtain ⟨finch, uncorr, pattern, others, reported, counted⟩ := h
  simp only [CanonicalWren, issuedOn_here, wordAt_issuedOn] at finch uncorr pattern others
  exact ⟨finch, uncorr, pattern, others, reported, counted⟩

section
variable {s : State} {p : Fin 72} {ag : Fin 8} {g : PredSel} (hi : memIssues s p ag false = true)
include hi

theorem execLdn_corrected (hw : (wordAt s p (agUnit s p ag (agCount s p ag))).poison = false) : ∃ k u,
    execLdn p g ag .corrected s = .next (issuedOn p k (loadedInput g ag (opView s p (.ldn p g ag .corrected))
      [wordAt s p (agUnit s p ag (agCount s p ag))]) u) ∧ Corrected p (agUnit s p ag (agCount s p ag)) s u := by
  obtain ⟨k', hb⟩ := beginOp_issuedOn p (.ldn p g ag .corrected) s
  obtain ⟨u, hr, hu⟩ := readWord_corrected (s := issuedOn p k' id s) (by rwa [wordAt_issuedOn])
  rw [wordAt_issuedOn, ← hb] at hr
  obtain ⟨k, h⟩ := execLdn_loads g hi hr
  exact ⟨k, u, h, hu.of_begun⟩

theorem execLdn_uncorrectable : ∃ k u d,
    execLdn p g ag .uncorrectable s = .next (issuedOn p k (loadedInput g ag (opView s p (.ldn p g ag .uncorrectable))
      [⟨d, true⟩]) u) ∧ Lost p (agUnit s p ag (agCount s p ag)) s u := by
  obtain ⟨k', hb⟩ := beginOp_issuedOn p (.ldn p g ag .uncorrectable) s
  obtain ⟨d, u, hr, hu⟩ := readWord_uncorrectable p (agUnit s p ag (agCount s p ag)) (issuedOn p k' id s)
  rw [← hb] at hr
  obtain ⟨k, h⟩ := execLdn_loads g hi hr
  exact ⟨k, u, d, h, hu.of_begun⟩

end

/-! ### LDT -/

/-- A Finch after the words `ws` of a tile load reached a stage's tile, under a predicate as `fi` has it. -/
def loadedTile (v : Fin 4) (g : PredSel) (ag : Fin 8) (half : Bool) (fi : Finch) (ws : List WWord) (x : Finch) : Finch :=
  if predValue fi g then
    { usedAg ag 2 x with
      stages := vmod x.stages v (setTile half (wordBytes ws) (ws.any (·.poison) || predMark fi g)) }
  else usedAg ag 2 x

theorem loadTile_eq (p v g ag half fi ws s) :
    loadTile p v g ag half fi ws s = onFinch p (loadedTile v g ag half fi ws) s := by
  unfold loadTile loadedTile
  dsimp only
  split
  · exact onPerch_onPerch ..
  · rfl

theorem setTile_tile (half bs mark t) (j : Nat) (hj : j < 512) : (setTile half bs mark t).tile[j] =
    if (if half then 256 else 0) ≤ j ∧ j < (if half then 256 else 0) + 256 then bs.getD (j - if half then 256 else 0) 0
    else t.tile[j] := by
  simp only [setTile, Vector.getElem_ofFn]
  rfl

section
variable {g : PredSel} {fi : Finch} (v : Fin 4) (ag : Fin 8) (half : Bool) (ws : List WWord) (x : Finch)

theorem loadedTile_agUse : (loadedTile v g ag half fi ws x).agUse = vmod x.agUse ag (· + 2) := by
  unfold loadedTile
  split <;> rfl

theorem loadedTile_inReg : (loadedTile v g ag half fi ws x).inReg = x.inReg := by
  unfold loadedTile
  split <;> rfl

theorem loadedTile_false (hg : predValue fi g = false) : (loadedTile v g ag half fi ws x).stages = x.stages := by
  rw [loadedTile, if_neg (by simp [hg])]
  rfl

variable (hg : predValue fi g = true)
include hg

theorem loadedTile_stage : (loadedTile v g ag half fi ws x).stages[v] =
    setTile half (wordBytes ws) (ws.any (·.poison) || predMark fi g) x.stages[v] := by
  rw [loadedTile, if_pos hg]
  exact vmod_same ..

/-- The half that LDT names takes the bytes of the words. -/
theorem loadedTile_named (i : Fin 256) :
    (loadedTile v g ag half fi ws x).stages[v].tile[i.val + (if half then 256 else 0)]'(by split <;> omega) =
      (wordBytes ws).getD i 0 := by
  rw [loadedTile_stage v ag half ws x hg, setTile_tile, if_pos (by omega), Nat.add_sub_cancel]

/-- The other half stays. -/
theorem loadedTile_other (i : Fin 256) :
    (loadedTile v g ag half fi ws x).stages[v].tile[i.val + (if half then 0 else 256)]'(by split <;> omega) =
      x.stages[v].tile[i.val + (if half then 0 else 256)]'(by split <;> omega) := by
  rw [loadedTile_stage v ag half ws x hg, setTile_tile, if_neg (by split <;> omega)]

theorem loadedTile_mark : (loadedTile v g ag half fi ws x).stages[v].tilePoison.getLsbD (if half then 1 else 0) =
    (ws.any (·.poison) || predMark fi g) := by
  rw [loadedTile_stage v ag half ws x hg, setTile]
  cases half with
  | false => exact putBit_same _ 0 _
  | true => exact putBit_same _ 1 _

end

section
variable {s u : State} {p : Fin 72} {ag : Fin 8} (hi : memIssues s p ag true = true) (v : Fin 4) (g : PredSel) (half : Bool)
include hi

theorem execLdt_loads {ecc : List Ecc} {ws : List WWord}
    (hr : readWords p (tileWords s p ag) ecc (beginOp p (.ldt p v g ag half ecc) s) = (ws, u)) : ∃ k,
    execLdt p v g ag half ecc s =
      .next (issuedOn p k (loadedTile v g ag half (opView s p (.ldt p v g ag half ecc)) ws) u) := by
  obtain ⟨k, h⟩ := noteOp_onFinch p (.ldt p v g ag half ecc) []
    (loadedTile v g ag half (opView s p (.ldt p v g ag half ecc)) ws) u
  refine ⟨k, ?_⟩
  simp only [execLdt, hi, Bool.true_eq_false, if_false, hr, loadTile_eq, h]

theorem execLdt_clean : ∃ t, execLdt p v g ag half [] s = .next t ∧ Worked p
    (loadedTile v g ag half (opView s p (.ldt p v g ag half [])) ((tileWords s p ag).map (wordAt s p))) s t := by
  obtain ⟨k', c, hr⟩ := readWords_begun p (tileWords s p ag) (.ldt p v g ag half []) s
  obtain ⟨k, h⟩ := execLdt_loads hi v g half hr
  exact ⟨_, h, worked_clean ..⟩

end

/-! ### STW and STN -/

theorem storeAllowed_issuedOn (p k s) : storeAllowed (issuedOn p k id s) p = storeAllowed s p := by
  funext a
  simp only [storeAllowed, finchOf, issuedOn_here]
  rfl

/-- A store takes its slot, does its writes and steps the generator. -/
theorem storeOp_eq (p g ag src n i s) : ∃ k k', storeOp p g ag src n i s = issuedOn p k (usedAg ag 1)
    (storeWords p (agWords s p ag (agCount s p ag)) (storeData (opView s p i) g src n) (issuedOn p k' id s)) := by
  obtain ⟨k', hb⟩ := beginOp_issuedOn p i s
  obtain ⟨k, hn⟩ := noteOp_onFinch p i (writeBytes (agWords s p ag (agCount s p ag)) (storeData (opView s p i) g src n))
    (usedAg ag 1) (storeWords p (agWords s p ag (agCount s p ag)) (storeData (opView s p i) g src n) (issuedOn p k' id s))
  refine ⟨k, k', ?_⟩
  rw [← hn, ← hb]
  rfl

/-- A store was done: the words of its unit took the data, no other word changed, the generator stepped. -/
structure Stored (p : Fin 72) (ag : Fin 8) (as : List Nat) (ws : List WWord) (s t : State) : Prop where
  written : CanonicalWren s p → (∀ a ∈ as, a < 49152) → ∀ a w, (a, w) ∈ as.zip ws →
    wordAt t p a = if w.poison then ⟨0, true⟩ else w
  kept : ∀ a, a ∉ as → wordAt t p a = wordAt s p a
  finch : t.fab.perch[p].finch = usedAg ag 1 s.fab.perch[p].finch
  flt : t.flt = s.flt
  others : ∀ q : Fin 72, q ≠ p → t.fab.perch[q] = s.fab.perch[q]

/-- A store was blocked: it changed no word, and was counted and reported. -/
structure StoreBlocked (p : Fin 72) (ag : Fin 8) (s t : State) : Prop where
  wren : t.fab.perch[p].wren = s.fab.perch[p].wren
  counted : t.fab.wcnt.blocked = satInc 32 s.fab.wcnt.blocked
  finch : t.fab.perch[p].finch = usedAg ag 1 s.fab.perch[p].finch
  reported : classCount t 0x13 = satInc 32 (classCount s 0x13)
  others : ∀ q : Fin 72, q ≠ p → t.fab.perch[q] = s.fab.perch[q]

section
variable {s : State} {p : Fin 72} {g : PredSel} {ag : Fin 8} {src : StSrc} {n : Nat} {i : Instr}

theorem storeOp_void (hd : storeData (opView s p i) g src n = none) :
    Worked p (usedAg ag 1) s (storeOp p g ag src n i s) := by
  obtain ⟨k, k', h⟩ := storeOp_eq p g ag src n i s
  rw [h, hd, storeWords, issuedOn_id]
  exact issuedOn_worked ..

variable {ws : List WWord} (hd : storeData (opView s p i) g src n = some ws)
include hd

theorem storeOp_writes (ha : (agWords s p ag (agCount s p ag)).all (storeAllowed s p) = true) :
    Stored p ag (agWords s p ag (agCount s p ag)) ws s (storeOp p g ag src n i s) := by
  obtain ⟨k, k', h⟩ := storeOp_eq p g ag src n i s
  have begun : putWords p (agWords s p ag (agCount s p ag)) ws (issuedOn p k' id s) =
      issuedOn p k' id (putWords p (agWords s p ag (agCount s p ag)) ws s) := by
    simp only [putWords_eq, onWren, issuedOn, onPerch_onPerch]
  rw [h, hd, storeWords, storeAllowed_issuedOn, if_pos ha, begun, issuedOn_id]
  refine ⟨fun hc hlt a w haw => ?_, fun a ha => ?_, ?_, putWords_flt .., fun q hq => ?_⟩
  · rw [wordAt_issuedOn, putWords_read hc (agWords_nodup ..) hlt haw]
  · rw [wordAt_issuedOn, putWords_read_other ha]
  · rw [issuedOn_here, putWords_here]
  · rw [issuedOn_there hq, putWords_elsewhere hq]

theorem storeOp_blocked (ha : (agWords s p ag (agCount s p ag)).all (storeAllowed s p) = false) :
    StoreBlocked p ag s (storeOp p g ag src n i s) := by
  obtain ⟨k, k', h⟩ := storeOp_eq p g ag src n i s
  rw [h, hd, storeWords, storeAllowed_issuedOn, if_neg (by simp [ha])]
  refine ⟨?_, ?_, ?_, blocked_classCount p (issuedOn p k' id s), fun q hq => ?_⟩
  · rw [issuedOn_here, blocked_fab, issuedOn_here]
  · exact (congrArg (fun x : Fab => x.wcnt.blocked) (blocked_fab p (issuedOn p k' id s)) :)
  · rw [issuedOn_here, blocked_fab, issuedOn_here, id]
  · rw [issuedOn_there hq, blocked_fab, issuedOn_there hq]

end

theorem execStw_stores {s : State} {p : Fin 72} {ag : Fin 8} (hi : memIssues s p ag true = true) {g src} :
    execStw p g ag src s = .next (storeOp p g ag src 16 (.stw p g ag src) s) :=
  if_neg (by simp [hi])

theorem execStn_stores {s : State} {p : Fin 72} {ag : Fin 8} (hi : memIssues s p ag false = true) {g src} :
    execStn p g ag src s = .next (storeOp p g ag src 1 (.stn p g ag src) s) :=
  if_neg (by simp [hi])

/-- What a store writes under a false predicate: the poison pattern when it is poisoned, else nothing (R320, R324). -/
theorem storeData_false {fi : Finch} {g : PredSel} (hg : predValue fi g = false) (src n) :
    storeData fi g src n = if predMark fi g then some (List.replicate n ⟨0, true⟩) else none :=
  if_neg (by simp [hg])

/-! ### The statement -/

/-- Settles O32: the loads from their reads, the stores from their writes, each as a change of its Finch. -/
theorem memoryOpsReadAndWriteTheirUnits : Obligations.MemoryOpsReadAndWriteTheirUnits := by
  unfold Obligations.MemoryOpsReadAndWriteTheirUnits
  refine ⟨?ldw, ?ldwClean, ?ldwFalse, ?ldnClean, ?ldnFalse, ?ldnCorrected, ?ldnLost, ?ldt, ?ldtClean, ?stw, ?stn,
    ?stwBlocked, ?stwVoid, ?stnBlocked, ?stnVoid, fun fi g src n hg => storeData_false hg src n,
    fun s p v g ag src ecc half h => ⟨if_pos h, if_pos h, if_pos h⟩, fun s p g ag src e h => ⟨if_pos h, if_pos h⟩⟩
  case ldw =>
    intro s u p g ag ecc ws hi hr
    obtain ⟨k, h⟩ := execLdw_loads g hi hr
    have many : ws.length = 16 := by
      rw [← agWords_wide hi (agCount s p ag), ← readWords_length p _ ecc (beginOp p (.ldw p g ag ecc) s), hr]
    refine ⟨_, h, fun hg => ?_, fun hg => ?_, ?_, ?_, rfl⟩
    · rw [issuedOn_here, loadedInput_wide ag _ hg many]
      exact ⟨rfl, rfl⟩
    · rw [issuedOn_here, loadedInput_false ag _ hg]
      exact ⟨rfl, rfl⟩
    · rw [issuedOn_here, loadedInput_agUse]
    · rw [issuedOn_here]
  case ldwClean =>
    intro s p g ag hi hg
    obtain ⟨t, h, finch, wren, flt, others⟩ := execLdw_clean g hi
    have many : ((agWords s p ag (agCount s p ag)).map (wordAt s p)).length = 16 := by
      rw [List.length_map, agWords_wide hi]
    rw [loadedInput_wide ag _ hg many, List.map_map, List.any_map] at finch
    exact ⟨t, h, finch, wren, flt, others⟩
  case ldwFalse =>
    intro s p g ag hi hg
    obtain ⟨t, h, finch, wren, flt, others⟩ := execLdw_clean g hi
    exact ⟨t, h, finch.trans (loadedInput_false ag _ hg _), wren, flt, others⟩
  case ldnClean =>
    intro s p g ag hi hg
    obtain ⟨t, h, finch, wren, flt, others⟩ := execLdn_clean g hi
    rw [loadedInput_narrow ag _ hg] at finch
    refine ⟨t, h, ?_, ?_, fun i h0 h1 => ?_, ?_, wren, flt, others⟩
    all_goals rw [finch]
    · rfl
    · rfl
    · exact setInputWord_rest _ _ _ h0 h1
    · rfl
  case ldnFalse =>
    intro s p g ag hi hg
    obtain ⟨t, h, finch, wren, flt, others⟩ := execLdn_clean g hi
    exact ⟨t, h, finch.trans (loadedInput_false ag _ hg _), wren, flt, others⟩
  case ldnCorrected =>
    intro s p g ag hi hg hw
    obtain ⟨k, u, h, read⟩ := execLdn_corrected (g := g) hi hw
    refine ⟨_, h, ?_, ?_, ?_, ?_, fun room => ?_, read.dropped, read.reported, read.counted⟩
    all_goals rw [issuedOn_here]
    · rw [loadedInput_narrow ag _ hg, setInputWord_head]
    · rw [loadedInput_narrow ag _ hg, hw]
      rfl
    · exact read.words
    · exact read.corr
    · exact read.queued room
  case ldnLost =>
    intro s p g ag hi hg
    obtain ⟨k, u, d, h, read⟩ := execLdn_uncorrectable (g := g) hi
    refine ⟨_, h, ?_, ?_, fun hc ha => ?_, read.reported, read.counted⟩
    · rw [issuedOn_here, loadedInput_narrow ag _ hg]
      rfl
    · rw [issuedOn_here]
      exact read.uncorr
    · rw [wordAt_issuedOn]
      exact read.pattern hc ha
  case ldt =>
    intro s u p v g ag half ecc ws hi hr
    obtain ⟨k, h⟩ := execLdt_loads hi v g half hr
    refine ⟨_, h, fun hg => ⟨fun i => ?_, fun i => ?_, ?_⟩, fun hg => ?_, ?_, ?_, ?_, rfl⟩
    all_goals simp only [issuedOn_here]
    · exact loadedTile_named v ag half ws _ hg i
    · exact loadedTile_other v ag half ws _ hg i
    · exact loadedTile_mark v ag half ws _ hg
    · exact loadedTile_false v ag half ws _ hg
    · exact loadedTile_inReg ..
    · exact loadedTile_agUse ..
  case ldtClean =>
    intro s p v g ag half hi hg
    obtain ⟨t, h, finch, wren, flt, others⟩ := execLdt_clean hi v g half
    refine ⟨t, h, wren, ?_, ?_, fun i => ?_, flt, others⟩
    all_goals simp only [finch]
    · exact loadedTile_inReg ..
    · exact loadedTile_agUse ..
    · rw [loadedTile_named v ag half _ _ hg i, wordBytes, List.flatMap_map]
  case stw =>
    intro s p g ag src ws hc hi hd ha hlt
    have stored := storeOp_writes hd ha
    exact ⟨_, execStw_stores hi, stored.written hc hlt, stored.kept, stored.finch, stored.flt, stored.others⟩
  case stn =>
    intro s p g ag src w hc hi hd ha hlt
    have unit := agWords_narrow hi (agCount s p ag)
    have stored := storeOp_writes (ag := ag) hd (by simpa [unit] using ha)
    rw [unit] at stored
    exact ⟨_, execStn_stores hi, stored.written hc (by simpa using hlt) _ w (by simp),
      fun a h => stored.kept a (by simpa using h), stored.finch, stored.flt, stored.others⟩
  case stwBlocked =>
    intro s p g ag src ws hi hd ha
    have stopped := storeOp_blocked hd ha
    exact ⟨_, execStw_stores hi, stopped.wren, stopped.counted, stopped.finch, stopped.reported, stopped.others⟩
  case stwVoid =>
    intro s p g ag src hi hd
    obtain ⟨finch, wren, flt, others⟩ := storeOp_void (ag := ag) hd
    exact ⟨_, execStw_stores hi, wren, flt, finch, others⟩
  case stnBlocked =>
    intro s p g ag src ws hi hd ha
    have stopped := storeOp_blocked hd ha
    exact ⟨_, execStn_stores hi, stopped.wren, stopped.counted, stopped.finch, stopped.reported, stopped.others⟩
  case stnVoid =>
    intro s p g ag src hi hd
    obtain ⟨finch, wren, flt, others⟩ := storeOp_void (ag := ag) hd
    exact ⟨_, execStn_stores hi, wren, flt, finch, others⟩

end Sys2Proof.Machine

/-! SUPPORT. Neighbour writes (family 07_wren.md): what PUT sends, how a request enters a port queue and is accepted, and what
its landing leaves. Settles O33. -/

namespace Sys2Proof.Machine

/-! ### PUT -/

theorem opView_beat (s p i) : (opView s p i).beat = (finchOf s p).beat := by
  unfold opView
  dsimp only
  split <;> rfl

/-- A perch that has sent a request: the PUT has taken its slot, and stalls where the port queue is full (R260). -/
def sentPut (dir : Dir) (k : Issue) (r : NbReq) (room : Bool) (x : Perch) : Perch :=
  { x with
    iss := k
    run := { x.run with putOut := vmod x.run.putOut (dirIx dir) (· ++ [r]) }
    finch := { x.finch with putWait := if room then x.finch.putWait else putBit x.finch.putWait (dirIx dir).val true } }

theorem put_sent (p dir k r room s) :
    (if room then onRun p (fun x => { x with putOut := vmod x.putOut (dirIx dir) (· ++ [r]) }) (issuedOn p k id s)
      else putStall p dir true
        (onRun p (fun x => { x with putOut := vmod x.putOut (dirIx dir) (· ++ [r]) }) (issuedOn p k id s))) =
      onPerch p (sentPut dir k r room) s := by
  cases room with
  | false =>
    simp only [putStall, onFinch, onRun, issuedOn, onPerch_onPerch]
    rfl
  | true => exact onPerch_onPerch ..

theorem execPut_sends {s : State} {p o : Fin 72} {dir : Dir} (hi : issues s p = true) (hn : neighbour s p dir = some o)
    (g or u ac src) : ∃ k, execPut p g dir or u ac src s = .next (onPerch p (sentPut dir k
      (putRequest (opView s p (.put p g dir or u ac src)) p g dir or u ac src) (portFree s o (opposite dir))) s) := by
  obtain ⟨k', hb⟩ := beginOp_issuedOn p (.put p g dir or u ac src) s
  simp only [execPut, hn, hi, Bool.true_eq_false, if_false, hb, put_sent]
  generalize putRequest (opView s p (.put p g dir or u ac src)) p g dir or u ac src = r
  obtain ⟨k, h⟩ := noteOp_issuedOn p (.put p g dir or u ac src) (writeBytes r.addr (if r.void then none else some r.data))
    (onPerch p (sentPut dir k' r (portFree s o (opposite dir))) s)
  exact ⟨k, congrArg _ (h.trans (onPerch_onPerch ..))⟩

theorem execPut_idle {s : State} {p : Fin 72} {dir : Dir} (h : issues s p = false ∨ neighbour s p dir = none)
    (g or u ac src) : execPut p g dir or u ac src s = .next s := by
  unfold execPut
  split
  · rfl
  next hn => exact if_pos (h.resolve_right (by simp [hn]))

/-! ### The port queue of the owner -/

theorem portFree_iff (s o port) : portFree s o port = true ↔ s.fab.perch[o].wren.portQ[dirIx port].length < 4 :=
  decide_eq_true_iff

theorem enqueueNb_cons {s : State} {p : Fin 72} {dir : Dir} {q : NbReq} {rest : List NbReq}
    (h : s.fab.perch[p].run.putOut[dirIx dir] = q :: rest) (o) :
    enqueueNb p o dir s = onWren o (fun x => { x with portQ := vmod x.portQ (dirIx (opposite dir)) (· ++ [q]) })
      (onRun p (fun x => { x with putOut := x.putOut.set (dirIx dir) rest }) s) := by
  simp only [enqueueNb, h]

/-- A request has left its sender and stands last in the port queue of the owner; the sender does not stall on it (R260). -/
structure Entered (p o : Fin 72) (dir : Dir) (q : NbReq) (rest : List NbReq) (s t : State) : Prop where
  sender : t.fab.perch[p].run.putOut[dirIx dir] = rest
  queue : t.fab.perch[o].wren.portQ[dirIx (opposite dir)] = s.fab.perch[o].wren.portQ[dirIx (opposite dir)] ++ [q]
  finch : t.fab.perch[p].finch =
    { s.fab.perch[p].finch with putWait := putBit s.fab.perch[p].finch.putWait (dirIx dir).val false }
  flt : t.flt = s.flt
  cnt : t.fab.cnt = s.fab.cnt

theorem enqueueNb_entered {s : State} {p o : Fin 72} {dir : Dir} {q : NbReq} {rest : List NbReq} (ho : o ≠ p)
    (h : s.fab.perch[p].run.putOut[dirIx dir] = q :: rest) :
    Entered p o dir q rest s (putStall p dir false (enqueueNb p o dir s)) := by
  rw [enqueueNb_cons h, putStall]
  refine ⟨?_, ?_, ?_, rfl, rfl⟩
  · rw [onFinch_here, onWren_there ho.symm, onRun, onPerch_here]
    exact Vector.getElem_set_self ..
  · rw [onFinch, onPerch_there ho, onWren_here, onRun, onPerch_there ho]
    exact vmod_same ..
  · rw [onFinch_here, onWren_there ho.symm, onRun, onPerch_here]

section
variable {s : State} {p o : Fin 72} {dir : Dir} {q : NbReq} {rest : List NbReq} (hn : neighbour s p dir = some o)
  (hq : s.fab.perch[p].run.putOut[dirIx dir] = q :: rest)
include hn hq

theorem nbwRequest_enters (hroom : s.fab.perch[o].wren.portQ[dirIx (opposite dir)].length < 4) (parity) :
    execNbwRequest p dir s parity = .next (putStall p dir false (enqueueNb p o dir (crossRequest p o dir parity s))) := by
  simp only [execNbwRequest, hn, hq]
  exact if_pos ((portFree_iff ..).mpr hroom)

theorem nbwRequest_full (hfull : 4 ≤ s.fab.perch[o].wren.portQ[dirIx (opposite dir)].length) (parity) :
    execNbwRequest p dir s parity = .next (putStall p dir true s) := by
  simp only [execNbwRequest, hn, hq]
  exact if_neg fun h => by
    have := (portFree_iff ..).mp h
    omega

end

/-- A request with its data poisoned. -/
def poisoned (q : NbReq) : NbReq :=
  { q with data := q.data.map fun w => { w with poison := true } }

/-- A crossing that failed parity twice poisons the front request and reports class 0x20 for the owner (R67). -/
theorem crossRequest_bad (p o dir s) : ∃ f : List NbReq → List NbReq, (∀ q rest, f (q :: rest) = poisoned q :: rest) ∧
    crossRequest p o dir (some false) s =
      report (faultCode 0x20 o.val) (onRun p (fun x => { x with putOut := vmod x.putOut (dirIx dir) f }) s) :=
  ⟨_, fun _ _ => rfl, rfl⟩

/-- The request that crossed so stands at the front of its sender. -/
structure CrossedBad (p o : Fin 72) (dir : Dir) (q : NbReq) (rest : List NbReq) (s t : State) : Prop where
  front : t.fab.perch[p].run.putOut[dirIx dir] = poisoned q :: rest
  owner : t.fab.perch[o] = s.fab.perch[o]
  reported : classCount t 0x20 = satInc 32 (classCount s 0x20)

theorem crossRequest_crossed {s : State} {p o : Fin 72} {dir : Dir} {q : NbReq} {rest : List NbReq} (ho : o ≠ p)
    (hq : s.fab.perch[p].run.putOut[dirIx dir] = q :: rest) :
    CrossedBad p o dir q rest s (crossRequest p o dir (some false) s) := by
  obtain ⟨f, hf, h⟩ := crossRequest_bad p o dir s
  rw [h]
  refine ⟨?_, ?_, classCount_report_faultCode (by decide) ..⟩
  · rw [report_fab, onRun, onPerch_here]
    exact (vmod_same ..).trans (by rw [hq, hf])
  · rw [report_fab, onRun, onPerch_there ho]

theorem nbwRequest_idle {s : State} {p : Fin 72} {dir : Dir}
    (h : neighbour s p dir = none ∨ s.fab.perch[p].run.putOut[dirIx dir] = []) (parity) :
    execNbwRequest p dir s parity = .next s := by
  unfold execNbwRequest
  split
  next hn hq =>
    rcases h with h | h
    · rw [hn] at h
      contradiction
    · rw [hq] at h
      contradiction
  · rfl

/-! ### Acceptance -/

theorem opposite_opposite (d : Dir) : opposite (opposite d) = d := by
  cases d <;> rfl

theorem onPerch_wren {f : Perch → Perch} (h : ∀ x, (f x).wren = x.wren) (q p : Fin 72) (s) :
    (onPerch q f s).fab.perch[p].wren = s.fab.perch[p].wren := by
  by_cases hp : p = q
  · subst hp
    rw [onPerch_here, h]
  · rw [onPerch_there hp]

theorem onFinch_wren (q p : Fin 72) (f s) : (onFinch q f s).fab.perch[p].wren = s.fab.perch[p].wren :=
  onPerch_wren (f := fun x => { x with finch := f x.finch }) (fun _ => rfl) q p s

theorem onRun_wren (q p : Fin 72) (f s) : (onRun q f s).fab.perch[p].wren = s.fab.perch[p].wren :=
  onPerch_wren (f := fun x => { x with run := f x.run }) (fun _ => rfl) q p s

/-- A freed entry of a port queue lets a sender that stalls go on: at most its request enters (R260). -/
structure PortReleased (p : Fin 72) (port : Dir) (s t : State) : Prop where
  wren : t.fab.perch[p].wren = { s.fab.perch[p].wren with portQ := t.fab.perch[p].wren.portQ }
  queue : t.fab.perch[p].wren.portQ[dirIx port] = s.fab.perch[p].wren.portQ[dirIx port] ∨
    ∃ x, t.fab.perch[p].wren.portQ[dirIx port] = s.fab.perch[p].wren.portQ[dirIx port] ++ [x]
  flt : t.flt = s.flt
  wcnt : t.fab.wcnt = s.fab.wcnt

theorem portReleased_refl (p port s) : PortReleased p port s s := ⟨rfl, .inl rfl, rfl, rfl⟩

theorem releasePut_released (p port s) : PortReleased p port s (releasePut p port s) := by
  unfold releasePut
  split
  · exact portReleased_refl ..
  next q _ =>
    dsimp only
    split
    · cases hq : s.fab.perch[q].run.putOut[dirIx (opposite port)] with
      | nil =>
        have empty : enqueueNb q p (opposite port) s = s := by simp only [enqueueNb, hq]
        rw [empty]
        have same : (putStall q (opposite port) false s).fab.perch[p].wren = s.fab.perch[p].wren := onFinch_wren ..
        exact ⟨by rw [same], .inl (by rw [same]), rfl, rfl⟩
      | cons x rest =>
        rw [enqueueNb_cons hq, opposite_opposite]
        generalize hu : putStall q _ false _ = u
        have wren : u.fab.perch[p].wren = { s.fab.perch[p].wren with
            portQ := vmod s.fab.perch[p].wren.portQ (dirIx port) (· ++ [x]) } := by
          rw [← hu, putStall, onFinch_wren, onWren_here, onRun_wren]
        exact ⟨by rw [wren], .inr ⟨x, by rw [wren]; exact vmod_same ..⟩, by rw [← hu]; rfl, by rw [← hu]; rfl⟩
    · exact portReleased_refl ..

/-- A Wren that has accepted request `q` on a port whose queue goes on with `rest`. -/
def takeRequest (port : Dir) (q : NbReq) (rest : List NbReq) (x : Wren) : Wren :=
  { x with portQ := x.portQ.set (dirIx port) rest, rot := (dirIx port).val, landing := x.landing ++ [q] }

/-- Perch `p` has accepted request `q` on a port whose queue goes on with `rest` (R261, R262). -/
structure Accepted (p : Fin 72) (port : Dir) (q : NbReq) (rest : List NbReq) (s t : State) : Prop where
  landing : t.fab.perch[p].wren.landing = s.fab.perch[p].wren.landing ++ [q]
  rot : t.fab.perch[p].wren.rot = (dirIx port).val
  words : t.fab.perch[p].wren.words = s.fab.perch[p].wren.words
  ac : t.fab.perch[p].wren.ac = s.fab.perch[p].wren.ac
  queue : t.fab.perch[p].wren.portQ[dirIx port] = rest ∨ ∃ x, t.fab.perch[p].wren.portQ[dirIx port] = rest ++ [x]

/-- An error in address and index changes no perch; it leaves the request void or not as it was (R267). -/
theorem checkRequest_perch (p e q s) : (checkRequest p e q s).2.fab.perch = s.fab.perch := by
  cases e with
  | clean => rfl
  | corrected => simp only [checkRequest, wrenCorrected_fab]
  | uncorrectable => simp only [checkRequest, wrenLost_fab]

section
variable {s : State} {p : Fin 72} {port : Dir} {q : NbReq} {rest : List NbReq}
  (hq : s.fab.perch[p].wren.portQ[dirIx port] = q :: rest)
include hq

theorem nbwAccept_takes (hc : s.sys.code = .run) (hb : q.beat = (finchOf s p).beat % 32)
    (hr : outranked s p (dirIx port) q = false) (ecc : Ecc) : execNbwAccept p port ecc s = .next (releasePut p port
      (onWren p (takeRequest port (checkRequest p ecc q s).1 rest) (checkRequest p ecc q s).2)) := by
  simp only [execNbwAccept, hq]
  rw [if_neg (not_not.mpr hc), if_neg (not_not.mpr hb), if_neg (by rw [hr]; decide)]
  rfl

theorem nbwAccept_accepts (hc : s.sys.code = .run) (hb : q.beat = (finchOf s p).beat % 32)
    (hr : outranked s p (dirIx port) q = false) (ecc : Ecc) : ∃ t, execNbwAccept p port ecc s = .next t ∧
      Accepted p port (checkRequest p ecc q s).1 rest s t ∧ t.flt = (checkRequest p ecc q s).2.flt ∧
      t.fab.wcnt = (checkRequest p ecc q s).2.fab.wcnt := by
  refine ⟨_, nbwAccept_takes hq hc hb hr ecc, ?_⟩
  have perch := checkRequest_perch p ecc q s
  generalize (checkRequest p ecc q s).1 = x at perch ⊢
  generalize (checkRequest p ecc q s).2 = u at perch ⊢
  obtain ⟨wren, queue, flt, wcnt⟩ := releasePut_released p port (onWren p (takeRequest port x rest) u)
  rw [onWren_here, perch] at wren queue
  have front : (takeRequest port x rest s.fab.perch[p].wren).portQ[dirIx port] = rest := Vector.getElem_set_self ..
  rw [front] at queue
  exact ⟨⟨by rw [wren]; rfl, by rw [wren]; rfl, by rw [wren]; rfl, by rw [wren]; rfl, queue⟩, flt, wcnt⟩

theorem nbwAccept_holds (hc : s.sys.code = .run) (hb : q.beat ≠ (finchOf s p).beat % 32) (hh : q.held = false) (ecc) :
    execNbwAccept p port ecc s = .next (onCnt (fun c => { c with nbwHeld := satInc 32 c.nbwHeld })
      (onWren p (fun x => { x with portQ := x.portQ.set (dirIx port) ({ q with held := true } :: rest) }) s)) := by
  simp only [execNbwAccept, hq]
  rw [if_neg (not_not.mpr hc), if_pos hb, if_neg (by rw [hh]; decide)]

theorem nbwAccept_waits (h : s.sys.code ≠ .run ∨ (q.beat ≠ (finchOf s p).beat % 32 ∧ q.held = true) ∨
    outranked s p (dirIx port) q = true) (hh : q.beat ≠ (finchOf s p).beat % 32 → q.held = true) (ecc) :
    execNbwAccept p port ecc s = .next s := by
  simp only [execNbwAccept, hq]
  by_cases hc : s.sys.code ≠ .run
  · rw [if_pos hc]
  by_cases hb : q.beat ≠ (finchOf s p).beat % 32
  · rw [if_neg hc, if_pos hb, if_pos (hh hb)]
  · have lower := (h.resolve_left hc).resolve_left fun held => hb held.1
    rw [if_neg hc, if_neg hb, if_pos lower]

end

/-- A narrow request waits for a wide one of another port (Table 7.2). -/
theorem outranked_by_wide {s : State} {p : Fin 72} {port other : Fin 4} {q x : NbReq} (hq : q.addr.length = 1)
    (ho : other ≠ port) (hx : readyHead s p other = some x) (hw : x.addr.length ≠ 1) : outranked s p port q = true := by
  have rank : portRank s p other x < portRank s p port q := by
    simp only [portRank, hq, hw, if_true, if_false]
    omega
  refine List.any_eq_true.mpr ⟨other, List.mem_finRange other, ?_⟩
  simp [ho, hx, compete, hw, rank]

theorem nbwAccept_empty {s : State} {p : Fin 72} {port : Dir} (h : s.fab.perch[p].wren.portQ[dirIx port] = []) (ecc) :
    execNbwAccept p port ecc s = .next s := by
  simp only [execNbwAccept, h]

/-! ### Landing -/

/-- The oldest accepted request writes its words, or none where it is void or blocked (R274, R279, R320). -/
def landed (p : Fin 72) (q : NbReq) (s : State) : State :=
  if q.void then s else if q.addr.all (nbwAllowed s p) then putWords p q.addr q.data s else blocked p s

/-- A Wren whose queue of requests that land is `rest`. -/
def landingQueue (rest : List NbReq) (x : Wren) : Wren :=
  { x with landing := rest }

theorem nbwLand_lands {s : State} {p : Fin 72} {q : NbReq} {rest : List NbReq} (h : s.fab.perch[p].wren.landing = q :: rest) :
    execNbwLand p s = .next (completeWait p (countArrival p q.ac
      (landed p q (onWren p (landingQueue rest) s)))) := by
  simp only [execNbwLand, h, landed]
  rfl

theorem nbwLand_idle {s : State} {p : Fin 72} (h : s.fab.perch[p].wren.landing = []) : execNbwLand p s = .next s := by
  simp only [execNbwLand, h]

section
variable {s : State} {p : Fin 72} {fi : Finch} {v : Vector Nat 16} (hf : finchOf s p = fi) (hv : s.fab.perch[p].wren.ac = v)
include hf hv

theorem completeWait_waits
    (h : fi.stalled = false ∨ fi.stall.kind ≠ .wait ∨ v[Fin.ofNat 16 fi.stall.chan] < fi.stall.n) :
    completeWait p s = s := by
  subst hf hv
  refine if_neg ?_
  rintro ⟨stalled, kind, enough⟩
  rcases h with h | h | h
  · rw [stalled] at h
    contradiction
  · exact h kind
  · omega

theorem completeWait_completes {k : Fin 16} (h1 : fi.stalled = true) (h2 : fi.stall.kind = .wait)
    (h3 : fi.stall.chan = k.val) (h4 : fi.stall.n ≤ v[k]) :
    completeWait p s = unstall p (onWren p (fun x => { x with ac := vmod x.ac k (· - fi.stall.n) }) s) := by
  subst hf hv
  simp only [completeWait, h3, Fin.ofNat_val_eq_self]
  exact if_pos ⟨h1, h2, h4⟩

end

theorem countArrival_counts {s : State} {p : Fin 72} {k : Fin 16} (h : s.fab.perch[p].wren.ac[k] < 1048575) :
    countArrival p k.val s = onWren p (fun x => { x with ac := vmod x.ac k (· + 1) }) s := by
  simp only [countArrival, Fin.ofNat_val_eq_self, h, if_true]

theorem countArrival_saturates {s : State} {p : Fin 72} {k : Fin 16} (h : 1048575 ≤ s.fab.perch[p].wren.ac[k]) :
    countArrival p k.val s = creditFault p (onWCnt (fun c => { c with acSat := satInc 32 c.acSat }) s) := by
  simp only [countArrival, Fin.ofNat_val_eq_self, Nat.not_lt.mpr h, if_false]

theorem creditFault_wcnt (p s) : (creditFault p s).fab.wcnt = s.fab.wcnt := by
  rw [creditFault_eq]
  split <;> simp only [finding_wcnt, creditNoted_fab]

/-- A counted landing changes no more of the Wren than its arrival counters. -/
theorem countArrival_wren (p k s) : ∃ v, (countArrival p k s).fab.perch[p].wren = { s.fab.perch[p].wren with ac := v } := by
  unfold countArrival
  dsimp only
  split
  · exact ⟨vmod s.fab.perch[p].wren.ac (Fin.ofNat 16 k) (· + 1), by rw [onWren_here]⟩
  · obtain ⟨b, h⟩ := creditFault_here p (onWCnt (fun c => { c with acSat := satInc 32 c.acSat }) s)
    exact ⟨s.fab.perch[p].wren.ac, by rw [h]; rfl⟩

theorem completeWait_wren (p s) : ∃ v, (completeWait p s).fab.perch[p].wren = { s.fab.perch[p].wren with ac := v } := by
  unfold completeWait
  dsimp only
  split
  · exact ⟨vmod s.fab.perch[p].wren.ac (Fin.ofNat 16 (finchOf s p).stall.chan) (· - (finchOf s p).stall.n), by
      rw [unstall, onFinch_here, onWren_here]⟩
  · exact ⟨_, rfl⟩

/-! ### What a landing leaves -/

section
variable {s : State} {p : Fin 72} {q : NbReq}

theorem landed_void (h : q.void = true) : landed p q s = s := if_pos h

theorem landed_allowed (h : q.void = false) (ha : q.addr.all (nbwAllowed s p) = true) (f) :
    landed p q (onWren p f s) = putWords p q.addr q.data (onWren p f s) :=
  (if_neg (by simp [h])).trans (if_pos ha)

theorem landed_blocked (h : q.void = false) (ha : q.addr.all (nbwAllowed s p) = false) (f) :
    landed p q (onWren p f s) = blocked p (onWren p f s) :=
  (if_neg (by simp [h])).trans (if_neg (ne_true_of_eq_false ha))

end

/-- Request `q` has written what it may and left the queue of those that land; its counter has not counted yet. -/
structure Landed (p : Fin 72) (q : NbReq) (rest : List NbReq) (s t : State) : Prop where
  finch : finchOf t p = finchOf s p
  landing : t.fab.perch[p].wren.landing = rest
  ac : t.fab.perch[p].wren.ac = s.fab.perch[p].wren.ac
  kept : ∀ a, a ∉ q.addr → wordAt t p a = wordAt s p a
  others : ∀ r : Fin 72, r ≠ p → t.fab.perch[r] = s.fab.perch[r]

theorem landed_landed (p q rest s) : Landed p q rest s (landed p q (onWren p (landingQueue rest) s)) := by
  have unwritten {t : State} (h : t.fab.perch = (onWren p (landingQueue rest) s).fab.perch) : Landed p q rest s t := by
    refine ⟨?_, ?_, ?_, fun a _ => ?_, fun r hr => ?_⟩
    · rw [finchOf, h, onWren_here, finchOf]
    · rw [h, onWren_here]
      rfl
    · rw [h, onWren_here]
      rfl
    · rw [wordAt, h, onWren_here, wordAt]
      rfl
    · rw [h, onWren_there hr]
  unfold landed
  split
  · exact unwritten rfl
  · split
    · refine ⟨?_, ?_, ?_, fun a ha => ?_, fun r hr => ?_⟩
      · rw [finchOf, putWords_here, onWren_here, finchOf]
      · rw [putWords_here, onWren_here, wrenWords_only]
        rfl
      · rw [putWords_here, onWren_here, wrenWords_only]
        rfl
      · rw [putWords_read_other ha, wordAt_onWren, wordAt]
        rfl
      · rw [putWords_elsewhere hr, onWren_there hr]
    · exact unwritten (by rw [blocked_fab])

/-- Whatever its counter does, a landing leaves the rest of the Wren as its write has left it. -/
theorem nbwLand_wren {s : State} {p : Fin 72} {q : NbReq} {rest : List NbReq}
    (h : s.fab.perch[p].wren.landing = q :: rest) : ∃ t v, execNbwLand p s = .next t ∧ t.fab.perch[p].wren =
      { (landed p q (onWren p (landingQueue rest) s)).fab.perch[p].wren with ac := v } := by
  obtain ⟨v, counted⟩ := countArrival_wren p q.ac (landed p q (onWren p (landingQueue rest) s))
  obtain ⟨v', waited⟩ := completeWait_wren p (countArrival p q.ac (landed p q (onWren p (landingQueue rest) s)))
  exact ⟨_, v', nbwLand_lands h, by rw [waited, counted]⟩

/-- The Finch and the counters as a stalled WAIT finds them after a landing that counted. -/
theorem counted_landing (p q rest) (k : Fin 16) (s : State) :
    finchOf (onWren p (fun x => { x with ac := vmod x.ac k (· + 1) }) (landed p q (onWren p (landingQueue rest) s))) p =
        finchOf s p ∧
      (onWren p (fun x => { x with ac := vmod x.ac k (· + 1) })
        (landed p q (onWren p (landingQueue rest) s))).fab.perch[p].wren.ac =
        vmod s.fab.perch[p].wren.ac k (· + 1) := by
  have lands := landed_landed p q rest s
  rw [finchOf, onWren_here, ← lands.ac, ← lands.finch]
  exact ⟨rfl, rfl⟩

section
variable {s : State} {p : Fin 72} {q : NbReq} {rest : List NbReq} {k : Fin 16}
  (hl : s.fab.perch[p].wren.landing = q :: rest) (hk : q.ac = k.val)
include hl hk

theorem nbwLand_counted (hac : s.fab.perch[p].wren.ac[k] < 1048575) : execNbwLand p s = .next (completeWait p
    (onWren p (fun x => { x with ac := vmod x.ac k (· + 1) }) (landed p q (onWren p (landingQueue rest) s)))) := by
  have low : (landed p q (onWren p (landingQueue rest) s)).fab.perch[p].wren.ac[k] < 1048575 := by
    rwa [(landed_landed p q rest s).ac]
  have counts := countArrival_counts low
  rw [← hk] at counts
  rw [← counts]
  exact nbwLand_lands hl

/-- A landing whose counter no stalled WAIT has reached counts, and the Finch stays as it is (R269). -/
theorem nbwLand_counts (hw : (finchOf s p).stalled = false ∨ (finchOf s p).stall.kind ≠ .wait ∨
      (vmod s.fab.perch[p].wren.ac k (· + 1))[Fin.ofNat 16 (finchOf s p).stall.chan] < (finchOf s p).stall.n)
    (hac : s.fab.perch[p].wren.ac[k] < 1048575) : execNbwLand p s = .next
      (onWren p (fun x => { x with ac := vmod x.ac k (· + 1) }) (landed p q (onWren p (landingQueue rest) s))) := by
  obtain ⟨finch, ac⟩ := counted_landing p q rest k s
  rw [nbwLand_counted hl hk hac, completeWait_waits finch ac hw]

/-- A landing that a stalled WAIT was waiting for: the WAIT subtracts its count, and the stall ends (R270). -/
theorem nbwLand_completes (h1 : (finchOf s p).stalled = true) (h2 : (finchOf s p).stall.kind = .wait)
    (h3 : (finchOf s p).stall.chan = k.val) (h4 : (finchOf s p).stall.n ≤ s.fab.perch[p].wren.ac[k] + 1)
    (hac : s.fab.perch[p].wren.ac[k] < 1048575) : execNbwLand p s = .next (unstall p (onWren p
      (fun x => { x with ac := vmod x.ac k fun n => n + 1 - (finchOf s p).stall.n })
      (landed p q (onWren p (landingQueue rest) s)))) := by
  obtain ⟨finch, ac⟩ := counted_landing p q rest k s
  rw [nbwLand_counted hl hk hac, completeWait_completes finch ac h1 h2 h3 (by rw [vmod_same]; exact h4), onWren_onWren]
  simp only [vmod_vmod]

/-- A counter at its largest value stays, and class 0x20 is reported (R271). -/
theorem nbwLand_saturates (hs : (finchOf s p).stalled = false) (hac : 1048575 ≤ s.fab.perch[p].wren.ac[k]) :
    execNbwLand p s = .next (creditFault p (onWCnt (fun c => { c with acSat := satInc 32 c.acSat })
      (landed p q (onWren p (landingQueue rest) s)))) := by
  have lands := landed_landed p q rest s
  have high : 1048575 ≤ (landed p q (onWren p (landingQueue rest) s)).fab.perch[p].wren.ac[k] := by rwa [lands.ac]
  have saturates := countArrival_saturates high
  rw [← hk] at saturates
  refine (nbwLand_lands hl).trans (congrArg _ ?_)
  refine (congrArg _ saturates).trans (completeWait_waits rfl rfl (.inl ?_))
  rw [finchOf, (creditFault_run ..).1]
  exact (congrArg Finch.stalled lands.finch).trans hs

end

/-! ### The statement -/

/-- Settles O33: each of the four from its next state, as requests moved between queues and words written. -/
theorem neighbourWritesArriveAndCount : Obligations.NeighbourWritesArriveAndCount := by
  unfold Obligations.NeighbourWritesArriveAndCount
  refine ⟨?put, fun s p g dir or u ac src h => execPut_idle h .., ?enters, ?full,
    fun s p dir parity h => nbwRequest_idle h parity, ?clean, ?corrected, ?lost, ?holds,
    fun s p port q rest ecc hq h hh => nbwAccept_waits hq h hh ecc, ?outranked,
    fun s p port ecc h => nbwAccept_empty h ecc, ?counts, ?word, ?blocked, ?saturates, ?completes,
    fun s p h => nbwLand_idle h⟩
  case put =>
    intro s p o g dir or u ac src hi hn
    obtain ⟨k, h⟩ := execPut_sends hi hn g or u ac src
    refine ⟨_, putRequest (opView s p (.put p g dir or u ac src)) p g dir or u ac src, h, ?_, rfl, rfl,
      congrArg (· % 32) (opView_beat ..), rfl, rfl, rfl, ?_, ?_, rfl, fun q hq => onPerch_there hq ..⟩
    all_goals rw [onPerch_here]
    · exact vmod_same ..
    · simp only [sentPut, portFree_iff]
    · rfl
  case enters =>
    intro s p o dir q rest hn ho hq hroom
    have entered := enqueueNb_entered ho hq
    have crossed := crossRequest_crossed ho hq
    have poisonedIn := enqueueNb_entered ho crossed.front
    have again : putStall p dir false (enqueueNb p o dir (crossRequest p o dir (some true) s)) =
        { putStall p dir false (enqueueNb p o dir s) with fab :=
          { (putStall p dir false (enqueueNb p o dir s)).fab with
            cnt := { s.fab.cnt with parityResend := satInc 32 s.fab.cnt.parityResend } } } := by
      rw [enqueueNb_cons hq, enqueueNb_cons (s := crossRequest p o dir (some true) s) hq]
      rfl
    refine ⟨_, _, _, nbwRequest_enters hn hq hroom none, nbwRequest_enters hn hq hroom (some true),
      nbwRequest_enters hn hq hroom (some false), entered.sender, entered.queue, entered.finch, entered.flt,
      entered.cnt, again, poisonedIn.sender, ?_, ?_⟩
    · rw [poisonedIn.queue, crossed.owner]
      rfl
    · rw [classCount_congr poisonedIn.flt, crossed.reported]
  case full =>
    intro s p o dir q rest parity hn hq hfull
    exact ⟨_, nbwRequest_full hn hq hfull parity, onFinch_here .., rfl, fun q hq => onPerch_there hq ..⟩
  case clean =>
    intro s p port q rest hq hc hb hr
    obtain ⟨t, h, accepted, flt, -⟩ := nbwAccept_accepts hq hc hb hr .clean
    exact ⟨t, h, accepted.landing, accepted.rot, accepted.words, accepted.ac, accepted.queue, flt⟩
  case corrected =>
    intro s p port q rest hq hc hb hr
    obtain ⟨t, h, accepted, flt, wcnt⟩ := nbwAccept_accepts hq hc hb hr .corrected
    refine ⟨t, h, accepted.landing, ?_, ?_⟩
    · rw [classCount_congr flt]
      exact wrenCorrected_classCount ..
    · rw [wcnt, checkRequest, wrenCorrected_fab]
  case lost =>
    intro s p port q rest hq hc hb hr
    obtain ⟨t, h, accepted, flt, wcnt⟩ := nbwAccept_accepts hq hc hb hr .uncorrectable
    refine ⟨t, _, h, accepted.landing, rfl, rfl, ?_, ?_⟩
    · rw [classCount_congr flt]
      exact wrenLost_classCount ..
    · rw [wcnt, checkRequest, wrenLost_fab]
  case holds =>
    intro s p port q rest ecc hq hc hb hh
    refine ⟨_, nbwAccept_holds hq hc hb hh ecc, ?_, ?_, rfl, rfl, fun x hx => ?_⟩
    · rw [onCnt_fab, onWren_here]
    · rw [onCnt_fab, onWren_here]
    · rw [onCnt_fab, onWren_there hx]
  case outranked =>
    intro s p port other q x rest ecc hq hb h1 ho hx hw
    exact nbwAccept_waits hq (.inr (.inr (outranked_by_wide h1 ho hx hw))) (fun late => absurd hb late) ecc
  case counts =>
    intro s p q rest k hl hw hk hac hwrites
    have lands := landed_landed p q rest s
    have flt : (landed p q (onWren p (landingQueue rest) s)).flt = s.flt := by
      cases hv : q.void with
      | true => rw [landed_void hv, onWren_flt]
      | false => rw [landed_allowed hv (hwrites.resolve_left (by simp [hv])), putWords_flt, onWren_flt]
    refine ⟨_, nbwLand_counts hl hk hw hac, ?_, ?_, fun hv => ?_, fun a ha => ?_, ?_, flt, fun r hr => ?_⟩
    · rw [onWren_here]
      exact lands.landing
    · rw [onWren_here, lands.ac]
    · rw [landed_void hv, onWren_here, onWren_here]
      rfl
    · rw [wordAt_onWren]
      exact lands.kept a ha
    · rw [onWren_here]
      exact lands.finch
    · rw [onWren_there hr, lands.others r hr]
  case word =>
    intro s p q rest a w hc hl hv ha hd hallow hlt
    have lands := landed_landed p q rest s
    have allowed : q.addr.all (nbwAllowed s p) = true := by simpa [ha] using hallow
    have canonical : CanonicalWren (onWren p (landingQueue rest) s) p := by
      rw [CanonicalWren, onWren_here]
      exact hc
    obtain ⟨t, v, h, wren⟩ := nbwLand_wren hl
    have words : t.fab.perch[p].wren.words = (landed p q (onWren p (landingQueue rest) s)).fab.perch[p].wren.words := by
      rw [wren]
    refine ⟨t, h, by rw [wren]; exact lands.landing, ?_⟩
    rw [wordAt_congr words, landed_allowed hv allowed, ha, hd]
    exact putWords_read canonical (List.nodup_singleton a) (by simpa using hlt) (by simp)
  case blocked =>
    intro s p q rest k hl hw hk hac hv hblocked
    have lands := landed_landed p q rest s
    have stopped : landed p q (onWren p (landingQueue rest) s) = blocked p (onWren p (landingQueue rest) s) :=
      landed_blocked hv hblocked _
    refine ⟨_, nbwLand_counts hl hk hw hac, ?_, ?_, ?_, ?_, ?_⟩
    · rw [onWren_here]
      exact lands.landing
    · rw [stopped, onWren_here, blocked_fab, onWren_here]
      rfl
    · rw [onWren_here, lands.ac]
    · rw [stopped]
      exact blocked_classCount ..
    · rw [stopped, onWren_fab, blocked_fab, onWren_fab]
  case saturates =>
    intro s p q rest k hl hs hk hac hv
    have lands := landed_landed p q rest s
    obtain ⟨b, here⟩ := creditFault_here p (onWCnt (fun c => { c with acSat := satInc 32 c.acSat })
      (landed p q (onWren p (landingQueue rest) s)))
    refine ⟨_, nbwLand_saturates hl hk hs hac, ?_, ?_, ?_, ?_⟩
    · rw [here]
      exact lands.landing
    · rw [here]
      exact lands.ac
    · rw [creditFault_wcnt, landed_void hv]
      rfl
    · rw [creditFault_classCount, landed_void hv]
      rfl
  case completes =>
    intro s p q rest k hl h1 h2 h3 h4 hk hac hv
    have lands := landed_landed p q rest s
    refine ⟨_, nbwLand_completes hl hk h1 h2 h3 h4 hac, ?_, ?_, ?_, ?_⟩
    · rw [unstall, onFinch_here, onWren_here]
      exact lands.landing
    · rw [unstall, onFinch_here]
    · rw [unstall, onFinch_here, onWren_here, lands.ac]
    · rw [unstall, onFinch_flt, onWren_flt, landed_void hv, onWren_flt]

end Sys2Proof.Machine

/-! SUPPORT. Background work of a Wren (family 07_wren.md): write-backs, spill writes, loader writes, the scrub and the rewrite of
a resident region. Settles O34. -/

namespace Sys2Proof.Machine

/-! ### Write-backs -/

theorem writeBack_cons {s : State} {p : Fin 72} {a : Nat} {w : WWord} {rest : List (Nat × WWord)}
    (h : s.fab.perch[p].wren.wbQ = (a, w) :: rest) :
    writeBack p s = onWren p (fun x => wrenWord a w { x with wbQ := rest }) s := by
  simp only [writeBack, h, putWord_eq, onWren_onWren]

theorem writeBack_nil {s : State} {p : Fin 72} (h : s.fab.perch[p].wren.wbQ = []) : writeBack p s = s := by
  simp only [writeBack, h]

/-! ### Spill writes -/

theorem spillWaits_false_iff {s : State} {p : Fin 72} : spillWaits s p = false ↔ nextUnwritten s p = none := by
  simp [spillWaits]

theorem spillToken_none {s : State} {p : Fin 72} (h : nextUnwritten s p = none) : spillToken p s = s := by
  simp only [spillToken, h]

/-- While no token waits, a spill write does nothing. -/
theorem spillTokens_none {s : State} {p : Fin 72} (h : nextUnwritten s p = none) (l : List Nat) :
    l.foldl (fun t _ => spillToken p t) s = s :=
  List.foldlRecOn (motive := fun t => t = s) l _ rfl fun t ht _ _ => by rw [ht, spillToken_none h]

theorem spillOnce_none {s : State} {p : Fin 72} (h : nextUnwritten s p = none) : spillOnce p s = s :=
  spillTokens_none h _

/-- The first token of a spill write, and the seven after it. -/
theorem spillOnce_first (p s) :
    spillOnce p s = (List.range' 1 7).foldl (fun t _ => spillToken p t) (spillToken p s) := by
  have eight : List.range 8 = 0 :: List.range' 1 7 := rfl
  rw [spillOnce, eight, List.foldl_cons]

/-- From `s` to `t` tokens of perch `p` got their entries of the riser: only its backlogs and its Wren changed. -/
def SpillWritten (p : Fin 72) (s t : State) : Prop :=
  ∃ b x, t = onPerch p (fun y => { y with run := { y.run with backlog := b }, wren := x }) s

theorem spillWritten_refl (p s) : SpillWritten p s s :=
  ⟨s.fab.perch[p].run.backlog, s.fab.perch[p].wren, (onPerch_self rfl).symm⟩

theorem SpillWritten.trans {p : Fin 72} {s t u : State} (h : SpillWritten p s t) (h' : SpillWritten p t u) :
    SpillWritten p s u := by
  obtain ⟨b, x, rfl⟩ := h
  obtain ⟨b', x', rfl⟩ := h'
  exact ⟨b', x', onPerch_onPerch ..⟩

theorem spillToken_written (p s) : SpillWritten p s (spillToken p s) := by
  unfold spillToken
  split
  · rw [putWords_eq]
    exact ⟨_, _, (onPerch_onPerch ..).trans (onPerch_congr rfl)⟩
  · exact spillWritten_refl p s

theorem spillOnce_written (p s) : SpillWritten p s (spillOnce p s) :=
  List.foldlRecOn (motive := SpillWritten p s) _ _ (spillWritten_refl p s) fun t ht _ _ => ht.trans (spillToken_written p t)

theorem nextUnwritten_none {s : State} {p : Fin 72} (h : ∀ i : Fin 16, ∀ x ∈ s.fab.perch[p].run.backlog[i], x.2.isSome) :
    nextUnwritten s p = none := by
  refine List.findSome?_eq_none_iff.mpr fun i _ => ?_
  rw [Option.map_eq_none_iff, List.find?_eq_none]
  intro x hx
  simpa [Option.isSome_iff_ne_none] using h i x hx

theorem entriesUsed_nil {s : State} {p : Fin 72} (h : ∀ i : Fin 16, ∀ x ∈ s.fab.perch[p].run.backlog[i], x.2 = none) :
    entriesUsed s p = [] := by
  refine List.filterMap_eq_nil_iff.mpr fun x hx => ?_
  obtain ⟨l, hl, hx⟩ := List.mem_flatten.mp hx
  obtain ⟨i, hi, rfl⟩ := List.getElem_of_mem hl
  exact h ⟨i, by simpa using hi⟩ x (by simpa using hx)

/-- Runners whose channel `i` has written its oldest waiting token into entry 0. -/
def entryTaken (i : Fin 16) (x : Runners) : Runners :=
  { x with backlog := vmod x.backlog i (fillEntry 0) }

section
variable {s : State} {p : Fin 72} {i : Fin 16} {k : Token} (hk : nextUnwritten s p = some (i, k))
  (hi : s.fab.perch[p].run.backlog[i] = [(k, none)]) (ho : ∀ j : Fin 16, j ≠ i → s.fab.perch[p].run.backlog[j] = [])
include hk hi ho

/-- The only waiting token gets the lowest entry of the riser (R316). -/
theorem spillToken_lowest (hr : 0 < riserEntries s p) : spillToken p s =
    putWords p [riserWord s p 0, riserWord s p 0 + 1] (riserPair k)
      (onRun p (entryTaken i) s) := by
  have unused : entriesUsed s p = [] := entriesUsed_nil fun j x hx => by
    by_cases hj : j = i
    · subst hj
      rw [hi, List.mem_singleton] at hx
      rw [hx]
    · rw [ho j hj] at hx
      contradiction
  have lowest : ((List.range (riserEntries s p)).find? fun e => !(entriesUsed s p).contains e) = some 0 := by
    obtain ⟨n, hn⟩ := Nat.exists_eq_add_of_lt hr
    rw [unused, hn, Nat.zero_add, List.range_succ_eq_map]
    rfl
  simp only [spillToken, hk, lowest]
  rfl

/-- After it nothing waits, so the spill write is that one token. -/
theorem spillOnce_lowest (hr : 0 < riserEntries s p) : spillOnce p s =
    putWords p [riserWord s p 0, riserWord s p 0 + 1] (riserPair k)
      (onRun p (entryTaken i) s) := by
  have filled : fillEntry 0 [(k, none)] = [(k, some 0)] := rfl
  rw [spillOnce_first, spillToken_lowest hk hi ho hr]
  refine spillTokens_none (nextUnwritten_none fun j x hx => ?_) _
  rw [putWords_here, onRun, onPerch_here] at hx
  dsimp only [entryTaken] at hx
  by_cases hj : j = i
  · subst hj
    rw [vmod_same, hi, filled, List.mem_singleton] at hx
    rw [hx]
    rfl
  · rw [vmod_other _ _ _ _ hj, ho j hj] at hx
    contradiction

end

/-! ### Loader writes -/

theorem contentRow_length (s r j k) : (contentRow s r j k).length = 16 := by
  simp [contentRow]

theorem contentRow_poison {s : State} {r j k : Nat} {w : WWord} (h : w ∈ contentRow s r j k) : w.poison = false := by
  simp only [contentRow, List.mem_map] at h
  obtain ⟨i, -, rfl⟩ := h
  rfl

/-- A loader write: the words of the row took the contents, and the next row is the one after (R257, R285). -/
structure RowLoaded (p : Fin 72) (g : Region) (row : Nat) (s t : State) : Prop where
  written : CanonicalWren s p → 256 * g.base + 16 * row + 15 < 49152 → ∀ i : Fin 16,
    wordAt t p (256 * g.base + 16 * row + i) = (contentRow s (rowOf p) g.ix row).getD i WWord.reset
  kept : ∀ a, a < 256 * g.base + 16 * row ∨ 256 * g.base + 16 * row + 15 < a → wordAt t p a = wordAt s p a
  rewriting : t.fab.perch[p].wren.rewriting =
    s.fab.perch[p].wren.rewriting.map fun y => if y.1 = g.ix then (g.ix, row + 1) else y
  flt : t.flt = s.flt
  others : ∀ q : Fin 72, q ≠ p → t.fab.perch[q] = s.fab.perch[q]

/-- A Wren whose loader goes on with the row after `row` of region `g`. -/
def rowNext (g : Region) (row : Nat) (x : Wren) : Wren :=
  { x with rewriting := x.rewriting.map fun y => if y.1 = g.ix then (g.ix, row + 1) else y }

theorem loaderRow_eq (p g row s) : loaderRow p g row s = putWords p
    ((List.range 16).map fun i => 256 * g.base + 16 * row + i) (contentRow s (rowOf p) g.ix row) (onWren p (rowNext g row) s) :=
  rfl

theorem loaderRow_loaded (p g row s) : RowLoaded p g row s (loaderRow p g row s) := by
  rw [loaderRow_eq]
  refine ⟨fun hc hlt i => ?_, fun a ha => ?_, ?_, ?_, fun q hq => ?_⟩
  · have hi : i.val < (contentRow s (rowOf p) g.ix row).length := by
      rw [contentRow_length]
      exact i.isLt
    have canonical : CanonicalWren (onWren p (rowNext g row) s) p := by
      rw [CanonicalWren, onWren_here]
      exact hc
    have stands : (256 * g.base + 16 * row + i.val, (contentRow s (rowOf p) g.ix row)[i.val]) ∈
        ((List.range 16).map fun i => 256 * g.base + 16 * row + i).zip (contentRow s (rowOf p) g.ix row) := by
      refine List.mem_iff_getElem.mpr ⟨i.val, by simp [contentRow_length], ?_⟩
      rw [List.getElem_zip, List.getElem_map, List.getElem_range]
    have inside : ∀ a ∈ (List.range 16).map fun i => 256 * g.base + 16 * row + i, a < 49152 := by
      simp only [List.mem_map, List.mem_range]
      omega
    have apart : ((List.range 16).map fun i => 256 * g.base + 16 * row + i).Nodup :=
      List.nodup_range.map fun i j (h : 256 * g.base + 16 * row + i = 256 * g.base + 16 * row + j) => by omega
    rw [putWords_read canonical apart inside stands, contentRow_poison (List.getElem_mem hi), List.getD_eq_getElem _ _ hi]
    rfl
  · rw [putWords_read_other, wordAt_onWren, wordAt]
    · rfl
    · simp only [List.mem_map, List.mem_range]
      omega
  · rw [putWords_here, onWren_here, wrenWords_only]
    rfl
  · rw [putWords_flt, onWren_flt]
  · rw [putWords_elsewhere hq, onWren_there hq]

theorem loaderWrite_writes {s : State} {p : Fin 72} {rgn : Fin 16} {row : Nat} {r : Region}
    (hf : (residents s.img (rowOf p)).find? (·.ix = rgn.val) = some r) (hw : rewriting s p r.ix = true)
    (hr : row < 16 * r.len) : execLoaderWrite p rgn row s = .next (loaderRow p r row s) := by
  simp only [execLoaderWrite, hf]
  exact if_pos ⟨hw, hr⟩

theorem loaderWrite_idle {s : State} {p : Fin 72} {rgn : Fin 16} {row : Nat}
    (h : ∀ r, (residents s.img (rowOf p)).find? (·.ix = rgn.val) = some r → rewriting s p rgn.val = false ∨ 16 * r.len ≤ row) :
    execLoaderWrite p rgn row s = .next s := by
  unfold execLoaderWrite
  split
  · rfl
  next r hf =>
    have ix : r.ix = rgn.val := by simpa using List.find?_some hf
    refine if_neg ?_
    rw [ix]
    rintro ⟨hw, hr⟩
    rcases h r hf with h | h
    · rw [h] at hw
      contradiction
    · omega

/-! ### Forced slots -/

theorem forcedSlot_spills {s : State} {p : Fin 72} (h : spillWaits s p = true) :
    execForcedSlot p s = .next (spillOnce p s) := if_pos h

section
variable {s : State} {p : Fin 72} (h : spillWaits s p = false)
include h

theorem forcedSlot_loads {r : Region} {row : Nat} (hl : loaderDue s p = some (r, row)) :
    execForcedSlot p s = .next (loaderRow p r row s) := by
  rw [execForcedSlot, if_neg (by simp [h]), hl]

theorem forcedSlot_writesBack (hl : loaderDue s p = none) : execForcedSlot p s = .next (writeBack p s) := by
  rw [execForcedSlot, if_neg (by simp [h]), hl]

end

/-! ### The scrub -/

/-- A Wren whose scrub goes on after row `k`: to the next row, or after row 3,071 to the first with the pass counted (R284,
R292). -/
def scrubbed (now k : Nat) (x : Wren) : Wren :=
  if k + 1 < 3072 then { x with scrubRow := k + 1 }
  else { x with
    scrubRow := 0, passes := satInc 32 x.passes, lastUs := min ((now - x.passStart) / 200) 65535, passStart := now }

/-- The scrub changes no word and queues no correction of its own. -/
theorem scrubbed_words (now k x) : (scrubbed now k x).words = x.words ∧ (scrubbed now k x).wbQ = x.wbQ := by
  unfold scrubbed
  split <;> exact ⟨rfl, rfl⟩

section
variable {s : State} {p : Fin 72} (hl : live s = true) (hp : s.fab.perch[p].powered = true)
include hl hp

theorem scrubRow_reads {ecc : List Ecc} {ws : List WWord} {u : State}
    (hr : readWords p (unitWords 1 s.fab.perch[p].wren.scrubRow) ecc s = (ws, u)) :
    execWrenScrubRow p ecc s = .next (onWren p (scrubbed u.now s.fab.perch[p].wren.scrubRow) u) := by
  have runs : ¬(live s = false ∨ s.fab.perch[p].powered = false) := by
    rw [hl, hp]
    decide
  simp only [execWrenScrubRow, if_neg runs, hr]
  by_cases last : s.fab.perch[p].wren.scrubRow + 1 < 3072
  · exact (if_pos last).trans (congrArg _ (onPerch_congr (by rw [scrubbed, if_pos last])))
  · exact (if_neg last).trans (congrArg _ (onPerch_congr (by rw [scrubbed, if_neg last])))

theorem scrubRow_clean : ∃ c, execWrenScrubRow p [] s =
    .next (onWren p (scrubbed s.now s.fab.perch[p].wren.scrubRow) (onWCnt (fun _ => c) s)) := by
  obtain ⟨c, hr⟩ := readWords_clean p (unitWords 1 s.fab.perch[p].wren.scrubRow) s
  exact ⟨c, scrubRow_reads hl hp hr⟩

/-- The scrub reads a row of whose words the first alone has a finding. -/
theorem scrubRow_first (e : Ecc) : ∃ c n, execWrenScrubRow p [e] s = .next (onWren p (scrubbed n s.fab.perch[p].wren.scrubRow)
    (onWCnt (fun _ => c) (readWord p (16 * s.fab.perch[p].wren.scrubRow) e s).2)) := by
  have row : unitWords 1 s.fab.perch[p].wren.scrubRow = 16 * s.fab.perch[p].wren.scrubRow ::
      (List.range' 1 15).map fun i => 16 * s.fab.perch[p].wren.scrubRow + i := rfl
  obtain ⟨ws, c, hr⟩ := readWords_first p (16 * s.fab.perch[p].wren.scrubRow)
    ((List.range' 1 15).map fun i => 16 * s.fab.perch[p].wren.scrubRow + i) e s
  rw [← row] at hr
  exact ⟨c, _, scrubRow_reads hl hp hr⟩

end

theorem scrubRow_idle {s : State} {p : Fin 72} (h : live s = false ∨ s.fab.perch[p].powered = false) (ecc) :
    execWrenScrubRow p ecc s = .next s :=
  if_pos h

/-! ### The end of a rewrite -/

theorem loadRegion_here (m slot p g s) : ∃ w b, (loadRegion m slot p g s).fab.perch[p] =
    { s.fab.perch[p] with wren := { s.fab.perch[p].wren with words := w, wbQ := b } } := by
  unfold loadRegion
  dsimp only
  rw [putWords_here, wrenWords_only]
  exact ⟨_, _, rfl⟩

theorem loadRegion_elsewhere {p q : Fin 72} (hq : q ≠ p) (m slot g s) :
    (loadRegion m slot p g s).fab.perch[q] = s.fab.perch[q] := putWords_elsewhere hq ..

theorem loadRegion_flt (m slot p g s) : (loadRegion m slot p g s).flt = s.flt := putWords_flt ..

theorem putWords_img (p as ws s) : (putWords p as ws s).img = s.img := by
  rw [putWords_eq, onWren_img]

theorem putWords_wcnt (p as ws s) : (putWords p as ws s).fab.wcnt = s.fab.wcnt := by
  rw [putWords_eq, onWren_fab]

section
variable (p : Fin 72) (g : Region) (s : State)

/-- The region as it has been read again, when its rewrite ends with verdict `ok`: the rewrite is counted (R285). -/
def regionRewritten (ok : Bool) : State :=
  let t := onWren p (fun x => { x with rewriting := if ok then x.rewriting.drop 1 else x.rewriting })
    (loadRegion s.img s.boot.slot p g s)
  onWCnt (fun c => { c with resReloads := satInc 32 c.resReloads, reloading := anyRewriting t }) t

theorem regionRewritten_rewriting (ok) : (regionRewritten p g s ok).fab.perch[p].wren.rewriting =
    if ok then s.fab.perch[p].wren.rewriting.drop 1 else s.fab.perch[p].wren.rewriting := by
  obtain ⟨w, b, here⟩ := loadRegion_here s.img s.boot.slot p g s
  rw [regionRewritten, onWCnt_fab, onWren_here, here]

theorem regionRewritten_resReloads (ok) :
    (regionRewritten p g s ok).fab.wcnt.resReloads = satInc 32 s.fab.wcnt.resReloads := by
  rw [regionRewritten, onWCnt_fab, onWren_fab, loadRegion, putWords_wcnt]

theorem regionRewritten_flt (ok) : (regionRewritten p g s ok).flt = s.flt := by
  rw [regionRewritten, onWCnt_flt, onWren_flt, loadRegion_flt]

theorem regionRewritten_elsewhere {q : Fin 72} (hq : q ≠ p) (ok) :
    (regionRewritten p g s ok).fab.perch[q] = s.fab.perch[q] := by
  rw [regionRewritten, onWCnt_fab, onWren_there hq, loadRegion_elsewhere hq]

variable {p g s} {ok : Bool} (h : regionOk s.img (loadRegion s.img s.boot.slot p g s) p g = ok)
include h

theorem rewriteEnds_eq : rewriteEnds p g s =
    if ok then { regionRewritten p g s ok with flt :=
      { (regionRewritten p g s ok).flt with
        reloadedRgn := (p.val, g.ix) :: (regionRewritten p g s ok).flt.reloadedRgn } }
    else regionRewritten p g s ok := by
  have img : (loadRegion s.img s.boot.slot p g s).img = s.img := putWords_img ..
  subst h
  rw [rewriteEnds]
  simp only [img]
  rfl

end

theorem rewriteDone_ends {s : State} {p : Fin 72} {j : Nat × Nat} {rest : List (Nat × Nat)} {r : Region}
    (hw : s.fab.perch[p].wren.rewriting = j :: rest) (hf : (residents s.img (rowOf p)).find? (·.ix = j.1) = some r) :
    execResidentRewriteDone p s = .next (rewriteEnds p r s) := by
  simp only [execResidentRewriteDone, hw, hf]

/-! ### The statement -/

/-- Settles O34: each piece of work from its next state as a change of its own Wren, the forced slot by what waits. -/
theorem wrenBackgroundWork : Obligations.WrenBackgroundWork := by
  unfold Obligations.WrenBackgroundWork
  refine ⟨?writesBack, ?nothing, ?lowest, ?spills, ?loads, ?forcedLoads, ?notRewritten, ?pastEnd, ?scrub, ?pass, ?corrected,
    ?lost, fun s p ecc h => scrubRow_idle h ecc, ?verified, ?unverified, ?gone, ?none⟩
  case writesBack =>
    intro s p a w rest hc hq ha
    have back := writeBack_cons hq
    refine ⟨_, congrArg Host.Outcome.next back, ?_, fun b hb => ?_, ?_, rfl, fun q hq => onWren_there hq ..,
      fun hs hl => (forcedSlot_writesBack hs hl).trans (congrArg Host.Outcome.next back)⟩
    · rw [wordAt_onWren]
      exact wrenWord_read ha w hc
    · rw [wordAt_onWren, wrenWord_read_other hb, wordAt]
    · rw [onWren_here, wrenWord, if_pos ha]
      rfl
  case nothing =>
    intro s p hq
    have back := writeBack_nil hq
    refine ⟨congrArg Host.Outcome.next back, fun hs => ⟨?_, fun hl => ?_⟩⟩
    · exact congrArg Host.Outcome.next (spillOnce_none (spillWaits_false_iff.mp hs))
    · exact (forcedSlot_writesBack hs hl).trans (congrArg Host.Outcome.next back)
  case lowest =>
    intro s p i k hc hk hi ho hr hlt
    have once := spillOnce_lowest hk hi ho hr
    have waits : spillWaits s p = true := by
      rw [spillWaits, hk]
      rfl
    have canonical : CanonicalWren (onRun p (entryTaken i) s) p := by
      rw [CanonicalWren, onRun, onPerch_here]
      exact hc
    have apart : [riserWord s p 0, riserWord s p 0 + 1].Nodup := by simp
    have inside : ∀ a ∈ [riserWord s p 0, riserWord s p 0 + 1], a < 49152 := by
      simp only [List.forall_mem_cons, List.not_mem_nil, false_imp_iff, implies_true, and_true]
      omega
    refine ⟨_, congrArg Host.Outcome.next once, (forcedSlot_spills waits).trans (congrArg Host.Outcome.next once), ?_, ?_, ?_,
      fun a h0 h1 => ?_, putWords_flt .., ?_, fun q hq => ?_⟩
    · rw [putWords_here, onRun, onPerch_here]
      exact (vmod_same ..).trans (by rw [hi]; rfl)
    · exact putWords_read (w := (riserPair k).getD 0 WWord.reset) canonical apart inside List.mem_cons_self
    · exact putWords_read (w := (riserPair k).getD 1 WWord.reset) canonical apart inside
        (List.mem_cons_of_mem _ List.mem_cons_self)
    · rw [putWords_read_other (by simp [h0, h1]), wordAt, onRun, onPerch_here, wordAt]
    · rw [putWords_here, onRun, onPerch_here]
    · rw [putWords_elsewhere hq, onRun, onPerch_there hq]
  case spills =>
    intro s p hw
    obtain ⟨b, x, written⟩ := spillOnce_written p s
    refine ⟨_, congrArg Host.Outcome.next written, (forcedSlot_spills hw).trans (congrArg Host.Outcome.next written), ?_, rfl, ?_, ?_,
      fun q hq => onPerch_there hq ..⟩
    all_goals rw [onPerch_here]
  case loads =>
    intro s p rgn row r hc hf hw hr hlt
    have loaded := loaderRow_loaded p r row s
    exact ⟨_, loaderWrite_writes hf hw hr, loaded.written hc hlt, loaded.kept, loaded.rewriting, loaded.flt, loaded.others⟩
  case forcedLoads =>
    intro s p row r hc hs hl hlt
    have loaded := loaderRow_loaded p r row s
    exact ⟨_, forcedSlot_loads hs hl, loaded.written hc hlt, loaded.kept, loaded.rewriting, loaded.flt, loaded.others⟩
  case notRewritten =>
    intro s p rgn row h
    refine loaderWrite_idle fun r hf => .inl (h.resolve_left ?_)
    rw [hf]
    exact Option.some_ne_none r
  case pastEnd =>
    intro s p rgn row r hf hr
    refine loaderWrite_idle fun r' hf' => .inr ?_
    rw [hf] at hf'
    exact Option.some.inj hf' ▸ hr
  case scrub =>
    intro s p hl hp hk
    obtain ⟨c, h⟩ := scrubRow_clean hl hp
    refine ⟨_, h, ?_, rfl, fun q hq => onWren_there hq ..⟩
    rw [onWren_here, scrubbed, if_pos (by omega)]
    rfl
  case pass =>
    intro s p hl hp hk
    obtain ⟨c, h⟩ := scrubRow_clean hl hp
    refine ⟨_, h, ?_, rfl, fun q hq => onWren_there hq ..⟩
    rw [onWren_here, scrubbed, if_neg (by omega)]
    rfl
  case corrected =>
    intro s p hl hp hw
    obtain ⟨c, n, h⟩ := scrubRow_first hl hp .corrected
    obtain ⟨u, hr, read⟩ := readWord_corrected hw
    rw [hr] at h
    refine ⟨_, h, ?_, fun room => ?_, read.reported⟩
    · rw [onWren_here, (scrubbed_words ..).1]
      exact read.words
    · rw [onWren_here, (scrubbed_words ..).2]
      exact read.queued room
  case lost =>
    intro s p hl hp hk hc
    obtain ⟨c, n, h⟩ := scrubRow_first hl hp .uncorrectable
    obtain ⟨d, u, hr, read⟩ := readWord_uncorrectable p (16 * s.fab.perch[p].wren.scrubRow) s
    rw [hr] at h
    refine ⟨_, h, ?_, fun a ha => ?_, read.reported⟩
    · rw [wordAt_onWren, (scrubbed_words ..).1]
      exact read.pattern hc (by omega)
    · rw [wordAt_onWren, (scrubbed_words ..).1]
      exact read.others a ha
  case verified =>
    intro s p j n rest r hw hf hok
    refine ⟨_, (rewriteDone_ends hw hf).trans (congrArg Host.Outcome.next (rewriteEnds_eq hok)), ?_, regionRewritten_resReloads ..,
      List.mem_cons_self, fun q hq => regionRewritten_elsewhere p r s hq _⟩
    exact (regionRewritten_rewriting p r s true).trans (by rw [hw]; rfl)
  case unverified =>
    intro s p j n rest r hw hf hok
    exact ⟨_, (rewriteDone_ends hw hf).trans (congrArg Host.Outcome.next (rewriteEnds_eq hok)), regionRewritten_rewriting p r s false,
      regionRewritten_resReloads .., regionRewritten_flt .., fun q hq => regionRewritten_elsewhere p r s hq _⟩
  case gone =>
    intro s p j n rest hw hf
    have drops : execResidentRewriteDone p s = .next (onWren p (fun x => { x with rewriting := rest }) s) := by
      simp only [execResidentRewriteDone, hw, hf]
    exact ⟨_, drops, onWren_here .., rfl, rfl, fun q hq => onWren_there hq ..⟩
  case none =>
    intro s p hw
    simp only [exec, execResidentRewriteDone, hw]

end Sys2Proof.Machine

/-! SUPPORT. Predication (family 08_dataflow_rules.md): what a stage operation under a false predicate notes of itself, and
the void tokens of SEND and EGR. Settles O30 and O36. -/

namespace Sys2Proof.Machine

/-! ### Stage operations under a false predicate -/

theorem onlySlot_onPerch (p k s) : OnlySlot p s (onPerch p (fun x => { x with iss := k }) s) := by
  rw [OnlySlot, onPerch_here]
  rfl

theorem onlySlot_refl (p s) : OnlySlot p s s := (onPerch_self rfl).symm

/-- Under a false predicate a stage operation changes at most the schedule of its perch (R212, R320). -/
theorem stageOp_onlySlot {s : State} {p : Fin 72} {i : Instr} {g : PredSel} (hp : predValue (opView s p i) g = false)
    (v : Fin 4) (formats : Bool) (body : Finch → Bool → State → State) :
    ∃ t, stageOp p v i g formats body s = .next t ∧ OnlySlot p s t := by
  cases hgo : issues s p && formats with
  | false => exact ⟨s, stageOp_idle hgo v i body, onlySlot_refl p s⟩
  | true =>
    obtain ⟨hi, hf⟩ := Bool.and_eq_true_iff.mp hgo
    obtain ⟨k, slot⟩ := noteOp_beginOp p i [] s
    exact ⟨_, (stageOp_false hi hf hp body).trans (by rw [slot]), onlySlot_onPerch p k s⟩

/-- Each of the 17 stage operations is one application of `stageOp` on its Finch. -/
theorem exec_stageOn {p : Fin 72} {c : Instr} (h : StageOn p c) :
    ∃ v g formats body, exec c = stageOp p v c g formats body := by
  obtain ⟨_, _, _, _, _, rfl⟩ | ⟨_, _, _, _, _, rfl⟩ | ⟨_, _, _, _, _, _, rfl⟩ | ⟨_, _, _, _, _, _, rfl⟩ |
    ⟨_, _, _, _, _, _, rfl⟩ | ⟨_, _, _, _, _, _, rfl⟩ | ⟨_, _, _, _, _, _, rfl⟩ | ⟨_, _, _, _, _, _, rfl⟩ |
    ⟨_, _, _, _, _, rfl⟩ | ⟨_, _, _, _, rfl⟩ | ⟨_, _, _, _, _, _, _, rfl⟩ | ⟨_, _, _, rfl⟩ | ⟨_, _, _, _, _, _, _, rfl⟩ |
    ⟨_, _, _, _, _, _, rfl⟩ | ⟨_, _, _, _, _, _, rfl⟩ | ⟨_, _, _, rfl⟩ | ⟨_, _, _, _, rfl⟩ := h
  all_goals exact ⟨_, _, _, _, rfl⟩

/-- A stage operation on a Finch that does not issue changes nothing (R219, R221). -/
theorem exec_stageOn_idle {s : State} {p : Fin 72} {c : Instr} (h : StageOn p c) (hi : issues s p = false) :
    exec c s = .next s := by
  obtain ⟨v, g, formats, body, run⟩ := exec_stageOn h
  rw [run]
  exact stageOp_idle (by rw [hi, Bool.false_and]) v c body

/-- Settles O30: the 17 operations are stage operations, and the predicate is that of `stageOp`. -/
theorem stageOpsUnderAFalsePredicate : Obligations.StageOpsUnderAFalsePredicate := by
  unfold Obligations.StageOpsUnderAFalsePredicate
  refine ⟨?mvm, ?opa, ?lmac, ?add, ?sub, ?mul, ?max, ?min, ?rq, ?lut, ?cmp, ?plog, ?sel, ?shf, ?red, ?aclr, ?amov,
    fun s p c hc hi => exec_stageOn_idle hc hi⟩
  all_goals
    intros
    rename_i hp
    exact stageOp_onlySlot hp ..

/-! ### Void tokens -/

/-- Under a false predicate the token is void, and its poison is the predicate's (R321, R324). -/
theorem tokenFor_false {fi : Finch} {g : PredSel} (h : predValue fi g = false) (ch tag src) :
    tokenFor fi g ch tag src = ⟨0, ch, true, predMark fi g, tag⟩ :=
  if_neg (by simp [h])

/-- Settles O36: by the void token and what EGR and a credited SEND push. -/
theorem voidTokensCarryTheTagAlone : Obligations.VoidTokensCarryTheTagAlone := by
  unfold Obligations.VoidTokensCarryTheTagAlone
  refine ⟨?token, ?egr, ?send⟩
  case token =>
    intro fi g ch tag src hp
    rw [tokenFor_false hp]
    exact ⟨rfl, rfl, rfl, rfl⟩
  case egr =>
    intro s p g tag src hi hroom hp
    obtain ⟨k, h⟩ := execEgr_pushes hi hroom g tag src
    rw [tokenFor_false hp] at h
    exact ⟨_, h, by rw [onPerch_here, countVoidPoison_perch]⟩
  case send =>
    intro s p q g dir ch tag src hi hn hk hc hp
    obtain ⟨k, h⟩ := send_static (g := g) (tag := tag) (src := src) hi hn hk hc
    rw [sendToken, tokenFor_false hp] at h
    exact ⟨_, h, by rw [onPerch_here, countVoidPoison_perch]⟩

end Sys2Proof.Machine

/-! SUPPORT. Records on their way into datagrams, and the seams (family 10_results_seams.md): what a queued record and a
closed datagram leave alone, how the pairs of a seam are taken, and what a resolve point and a release do. Settles
O40. -/

namespace Sys2Proof.Machine

/-! ### Records and datagrams -/

/-- A datagram that closes changes the egress block and its watchdog (R408, R410). -/
theorem closeDatagram_changes (s : State) :
    closeDatagram s = { s with net := (closeDatagram s).net, sys := (closeDatagram s).sys } := by
  simp only [closeDatagram, lanes, List.foldl_cons, List.foldl_nil]
  split <;> split <;> rfl

theorem closeDatagram_queue (s) : (closeDatagram s).net.queue = [] := rfl

theorem closeDatagram_seq (s) : (closeDatagram s).net.seq = (s.net.seq + 1) % 2 ^ 48 := rfl

/-- A record that is not the 45th waits in the open datagram (R408). -/
theorem queueRecord_joins {s : State} (h : s.net.queue.length < 44) (r : List Byte) :
    queueRecord r s = { s with net := { s.net with queue := s.net.queue ++ [r] } } :=
  if_neg (by simpa using h)

theorem queueRecord_queue {s : State} (h : s.net.queue.length < 44) (r : List Byte) :
    (queueRecord r s).net.queue = s.net.queue ++ [r] := by
  rw [queueRecord_joins h]

/-- The 45th record closes the datagram (R408). -/
theorem queueRecord_closes {s : State} (h : 44 ≤ s.net.queue.length) (r : List Byte) :
    queueRecord r s = closeDatagram { s with net := { s.net with queue := s.net.queue ++ [r] } } :=
  if_pos (by simpa using h)

/-- A queued record changes the egress block and its watchdog. -/
theorem queueRecord_changes (r s) :
    queueRecord r s = { s with net := (queueRecord r s).net, sys := (queueRecord r s).sys } := by
  rcases Nat.lt_or_ge s.net.queue.length 44 with h | h
  · rw [queueRecord_joins h]
  · rw [queueRecord_closes h, closeDatagram_changes]

@[simp] theorem queueRecord_spr (r s) : (queueRecord r s).spr = s.spr := by rw [queueRecord_changes]
@[simp] theorem queueRecord_flt (r s) : (queueRecord r s).flt = s.flt := by rw [queueRecord_changes]

/-! ### Frames of a seam's neighbour -/

/-- A fragment taken from an active port replaces what was held under its side and BOX_ID (R384). -/
theorem execSeamFragReceive_holds {s : State} {side : Side} {hd : FrameHead} (hw : working s = true)
    (hp : portLive s side = true) (ht : hopTaken hd = true) (f : FragPay) :
    execSeamFragReceive side hd f s = .next (onSprue (fun y => { y with
      theirs := y.theirs.filter (fun x => !isFrag (seamIx side) f.boxId.toNat x) ++ [fragOf side hd f] }) s) :=
  if_pos (by simp [hw, hp, ht])

/-- A resolve frame marks the fragment it names (R386). -/
theorem execSeamResolveReceive_marks {s : State} {side : Side} {hd : FrameHead} (hw : working s = true)
    (hp : portLive s side = true) (ht : hopTaken hd = true) (boxId partner : BitVec 16) :
    execSeamResolveReceive side hd boxId partner s = .next (onSprue (fun y => { y with
      theirs := y.theirs.map fun x =>
        if isFrag (seamIx side) boxId.toNat x then
          { x with partner := some (if partner = 0xFFFF then none else some partner.toNat) }
        else x }) s) :=
  if_pos (by simp [hw, hp, ht])

/-- A frame that is not taken changes nothing. -/
theorem seamFrame_untaken {s : State} {side : Side} {hd : FrameHead}
    (h : working s = false ∨ portLive s side = false ∨ hopTaken hd = false) :
    ¬(working s && portLive s side && hopTaken hd) = true := by
  rcases h with h | h | h <;> simp [h]

/-! ### The first pair -/

/-- Pairs are taken in the lexical order of their keys (R386). -/
theorem keyBefore_iff (a b : Nat × Nat × Nat) : keyBefore a b = true ↔
    a.1 < b.1 ∨ a.1 = b.1 ∧ (a.2.1 < b.2.1 ∨ a.2.1 = b.2.1 ∧ a.2.2 < b.2.2) := by
  simp [keyBefore]

theorem keyBefore_irrefl (a : Nat × Nat × Nat) : keyBefore a a = false := by
  simp [keyBefore]

theorem keyBefore_asymm {a b : Nat × Nat × Nat} (h : keyBefore a b = true) : keyBefore b a = false := by
  rw [← Bool.not_eq_true, keyBefore_iff]
  rw [keyBefore_iff] at h
  omega

/-- What is before neither of two keys' earlier one is not before the later one. -/
theorem not_keyBefore_trans {a b c : Nat × Nat × Nat} (hab : keyBefore a b = false) (hbc : keyBefore b c = false) :
    keyBefore a c = false := by
  rw [← Bool.not_eq_true, keyBefore_iff] at *
  omega

theorem firstPair_eq_none {l : List (Frag × Frag)} (h : firstPair l = none) : l = [] := by
  cases l with
  | nil => rfl
  | cons p r =>
    rw [firstPair] at h
    split at h
    · cases h
    · split at h <;> cases h

/-- The first pair is one of the list, and none of the list comes before it (R386). -/
theorem firstPair_spec {l : List (Frag × Frag)} {p : Frag × Frag} (h : firstPair l = some p) :
    p ∈ l ∧ ∀ q ∈ l, keyBefore (pairKey q.1 q.2) (pairKey p.1 p.2) = false := by
  induction l generalizing p with
  | nil => cases h
  | cons a r ih =>
    rw [firstPair] at h
    cases hr : firstPair r with
    | none =>
      obtain rfl : a = p := by simpa [hr] using h
      simp [firstPair_eq_none hr, keyBefore_irrefl]
    | some b =>
      obtain ⟨mem, first⟩ := ih hr
      rw [hr] at h
      cases hk : keyBefore (pairKey b.1 b.2) (pairKey a.1 a.2) with
      | true =>
        obtain rfl : b = p := by simpa [hk] using h
        exact ⟨List.mem_cons_of_mem _ mem, List.forall_mem_cons.mpr ⟨keyBefore_asymm hk, first⟩⟩
      | false =>
        obtain rfl : a = p := by simpa [hk] using h
        exact ⟨List.mem_cons_self, List.forall_mem_cons.mpr
          ⟨keyBefore_irrefl _, fun q hq => not_keyBefore_trans (first q hq) hk⟩⟩

/-! ### A pair is taken -/

/-- A fragment with the BOX_ID `b` on a seam takes the partner `c`. -/
def takePair (seam b c : Nat) (f : Frag) : Frag :=
  if isFrag seam b f then { f with pair := some c } else f

/-- Every fragment with the BOX_ID `b` on a seam has the partner `c`. -/
def AllPaired (seam b c : Nat) (l : List Frag) : Prop :=
  ∀ g ∈ l, isFrag seam b g = true → g.pair = some c

theorem isFrag_iff {seam b : Nat} {f : Frag} : isFrag seam b f = true ↔ f.side = seam ∧ f.boxId = b := by
  simp [isFrag]

theorem pairUp_eq (seam : Nat) (o t : Frag) (s : State) :
    pairUp seam o t s = { s with spr := { s.spr with
      own := s.spr.own.map (takePair seam o.boxId t.boxId)
      theirs := s.spr.theirs.map (takePair seam t.boxId o.boxId) } } := rfl

theorem takePair_isFrag (seam b c n f) : isFrag seam n (takePair seam b c f) = isFrag seam n f := by
  unfold takePair
  split <;> rfl

/-- A fragment still free after a pair is taken was there before, and is none of the pair. -/
theorem free_of_mem_map_takePair {seam b c : Nat} {l : List Frag} {g : Frag} (hg : g ∈ l.map (takePair seam b c))
    (hn : g.pair = none) : g ∈ l ∧ isFrag seam b g = false := by
  obtain ⟨f, hf, rfl⟩ := List.mem_map.mp hg
  cases hi : isFrag seam b f with
  | true => simp [takePair, hi] at hn
  | false => simpa [takePair, hi] using hf

theorem allPaired_map_takePair (seam b c : Nat) (l : List Frag) : AllPaired seam b c (l.map (takePair seam b c)) := by
  intro g hg hi
  obtain ⟨f, -, rfl⟩ := List.mem_map.mp hg
  rw [takePair_isFrag] at hi
  simp [takePair, hi]

/-- Fragments that are paired stay so while free ones are paired. -/
theorem AllPaired.takePair {seam b c : Nat} {l : List Frag} (h : AllPaired seam b c l) {o : Frag} (ho : o ∈ l)
    (hs : o.side = seam) (hn : o.pair = none) (d : Nat) : AllPaired seam b c (l.map (takePair seam o.boxId d)) := by
  intro g hg hi
  obtain ⟨f, hf, rfl⟩ := List.mem_map.mp hg
  rw [takePair_isFrag] at hi
  have apart : isFrag seam o.boxId f = false := by
    refine Bool.eq_false_iff.mpr fun e => ?_
    have same : o.boxId = b := (isFrag_iff.mp e).2.symm.trans (isFrag_iff.mp hi).2
    have paired := h o ho (isFrag_iff.mpr ⟨hs, same⟩)
    rw [hn] at paired
    cases paired
  simpa [Machine.takePair, apart] using h f hf hi

/-! ### The pairs that are free -/

/-- A held own fragment can still be paired on a seam (R386). -/
def freeOwn (seam : Nat) (f : Frag) : Bool :=
  f.side = seam && f.pair.isNone && !f.resolved

/-- A fragment of the neighbour can still be paired on a seam (R386). -/
def freeTheirs (s : State) (seam : Nat) (f : Frag) : Bool :=
  f.side = seam && f.pair.isNone && f.offset = neighOffset s seam

theorem mem_freePairs {s : State} {seam : Nat} {p : Frag × Frag} : p ∈ freePairs s seam ↔
    (p.1 ∈ s.spr.own ∧ freeOwn seam p.1 = true) ∧ (p.2 ∈ s.spr.theirs ∧ freeTheirs s seam p.2 = true) ∧
      candidates s p.1 p.2 = true := by
  obtain ⟨o, t⟩ := p
  simp only [freePairs, freeOwn, freeTheirs, List.mem_flatMap, List.mem_map, List.mem_filter, Prod.mk.injEq]
  constructor
  · rintro ⟨x, hx, y, ⟨hy, hc⟩, rfl, rfl⟩
    exact ⟨hx, hy, hc⟩
  · rintro ⟨hx, hy, hc⟩
    exact ⟨o, hx, t, ⟨hy, hc⟩, rfl, rfl⟩

theorem freeOwn_iff {seam : Nat} {f : Frag} :
    freeOwn seam f = true ↔ f.side = seam ∧ f.pair = none ∧ f.resolved = false := by
  simp [freeOwn, and_assoc]

theorem freeTheirs_iff {s : State} {seam : Nat} {f : Frag} :
    freeTheirs s seam f = true ↔ f.side = seam ∧ f.pair = none ∧ f.offset = neighOffset s seam := by
  simp [freeTheirs, and_assoc]

/-- With one pair less there are fewer own fragments to pair. -/
theorem pairUp_freeOwn_lt {s : State} {seam : Nat} {o : Frag} (ho : o ∈ s.spr.own) (hf : freeOwn seam o = true)
    (t : Frag) : ((pairUp seam o t s).spr.own.filter (freeOwn seam)).length <
      (s.spr.own.filter (freeOwn seam)).length := by
  have others : (fun f => freeOwn seam (takePair seam o.boxId t.boxId f)) =
      fun f => !isFrag seam o.boxId f && freeOwn seam f := by
    funext f
    cases hi : isFrag seam o.boxId f <;> simp [takePair, hi, freeOwn]
  rw [pairUp_eq, List.filter_map, List.length_map, Function.comp_def, others, ← List.filter_filter,
    List.length_filter_lt_length_iff_exists]
  exact ⟨o, List.mem_filter.mpr ⟨ho, hf⟩, by simp [isFrag_iff, (freeOwn_iff.mp hf).1]⟩

theorem freePairs_eq_nil_of_none_free {s : State} {seam : Nat} (h : s.spr.own.filter (freeOwn seam) = []) :
    freePairs s seam = [] := by
  refine List.eq_nil_iff_forall_not_mem.mpr fun p hp => ?_
  obtain ⟨⟨mem, free⟩, -⟩ := mem_freePairs.mp hp
  exact (List.filter_eq_nil_iff.mp h) p.1 mem free

/-! ### Every pair is taken -/

theorem pairAll_of_free_nil {s : State} {seam : Nat} (h : freePairs s seam = []) (n : Nat) : pairAll seam n s = s := by
  cases n with
  | zero => rfl
  | succ n => rw [pairAll, h]; rfl

theorem pairAll_succ {s : State} {seam : Nat} {o t : Frag} (h : firstPair (freePairs s seam) = some (o, t)) (n : Nat) :
    pairAll seam (n + 1) s = pairAll seam n (pairUp seam o t s) := by
  rw [pairAll, h]

/-- Pairing goes on until no pair is free (R386). -/
theorem pairAll_freePairs {seam n : Nat} {s : State} (h : (s.spr.own.filter (freeOwn seam)).length ≤ n) :
    freePairs (pairAll seam n s) seam = [] := by
  induction n generalizing s with
  | zero => exact freePairs_eq_nil_of_none_free (List.eq_nil_of_length_eq_zero (Nat.le_zero.mp h))
  | succ n ih =>
    cases hp : firstPair (freePairs s seam) with
    | none =>
      have none_free := firstPair_eq_none hp
      rw [pairAll_of_free_nil none_free, none_free]
    | some p =>
      obtain ⟨⟨mem, free⟩, -⟩ := mem_freePairs.mp (firstPair_spec hp).1
      rw [pairAll_succ hp]
      exact ih (Nat.lt_succ_iff.mp (Nat.lt_of_lt_of_le (pairUp_freeOwn_lt mem free p.2) h))

/-- Fragments that are paired, with each other, stay so. -/
theorem pairAll_keeps {seam b c n : Nat} {s : State} (hOwn : AllPaired seam b c s.spr.own)
    (hTheirs : AllPaired seam c b s.spr.theirs) :
    AllPaired seam b c (pairAll seam n s).spr.own ∧ AllPaired seam c b (pairAll seam n s).spr.theirs := by
  induction n generalizing s with
  | zero => exact ⟨hOwn, hTheirs⟩
  | succ n ih =>
    cases hp : firstPair (freePairs s seam) with
    | none =>
      rw [pairAll_of_free_nil (firstPair_eq_none hp)]
      exact ⟨hOwn, hTheirs⟩
    | some p =>
      obtain ⟨⟨memO, freeO⟩, ⟨memT, freeT⟩, -⟩ := mem_freePairs.mp (firstPair_spec hp).1
      obtain ⟨sideO, pairO, -⟩ := freeOwn_iff.mp freeO
      obtain ⟨sideT, pairT, -⟩ := freeTheirs_iff.mp freeT
      rw [pairAll_succ hp]
      exact ih (hOwn.takePair memO sideO pairO _) (hTheirs.takePair memT sideT pairT _)

/-- The first pair of a seam is taken (R386). -/
theorem pairAll_takes_first {seam n : Nat} {s : State} {x y : Frag}
    (h : firstPair (freePairs s seam) = some (x, y)) :
    AllPaired seam x.boxId y.boxId (pairAll seam (n + 1) s).spr.own ∧
      AllPaired seam y.boxId x.boxId (pairAll seam (n + 1) s).spr.theirs := by
  rw [pairAll_succ h]
  exact pairAll_keeps (allPaired_map_takePair _ _ _ _) (allPaired_map_takePair _ _ _ _)

/-! ### Resolve points -/

/-- The pairs of a seam are taken, where it can pair (R385, R386). -/
def seamPaired (seam : Nat) (s : State) : State :=
  if seamBar s seam = 0 then pairAll seam s.spr.own.length s else s

/-- The reason a fragment is left with at its resolve point, 0 with a partner (Table 10.9). -/
def pointReason (bar : Nat) (s : State) (f : Frag) : Nat :=
  if f.pair.isSome then 0 else if bar ≠ 0 then bar else if staleCandidate s f then 3 else 1

/-- The fragment of a BOX_ID has passed its resolve point. -/
def resolve (boxId why : Nat) (f : Frag) : Frag :=
  if f.boxId == boxId then { f with resolved := true, why := why } else f

/-- The own fragments of a BOX_ID have passed their resolve point. -/
def markResolved (boxId why : Nat) (s : State) : State :=
  { s with spr := { s.spr with own := s.spr.own.map (resolve boxId why) } }

section
variable {s : State} {o : Frag} {boxId : BitVec 16}

/-- At its resolve point a fragment is resolved, and its partner or none is named to the neighbour (R386). -/
theorem seamResolvePoint_resolves (hw : working s = true)
    (hf : s.spr.own.find? (fun f => f.boxId == boxId.toNat && !f.resolved) = some o)
    (he : exposedPast s (releaseLine s o) = true) {g : Frag}
    (hg : ((seamPaired o.side s).spr.own.find? fun f => f.boxId == boxId.toNat).getD o = g) :
    exec (.seamResolvePoint boxId) s =
      .next (sendFrame (seamSide g.side) (.seamResolve boxId (BitVec.ofNat 16 (g.pair.getD 0xFFFF)))
        (markResolved boxId.toNat (pointReason (seamBar s o.side) (seamPaired o.side s) g) (seamPaired o.side s))) := by
  subst hg
  show execSeamResolvePoint boxId s = _
  simp only [execSeamResolvePoint, hf, hw, he, Bool.true_eq_false, or_self, if_false]
  rfl

/-- A fragment found by its BOX_ID has it. -/
theorem boxId_of_find {p : Frag → Bool} (hf : s.spr.own.find? (fun f => f.boxId == boxId.toNat && p f) = some o) :
    o ∈ s.spr.own ∧ o.boxId = boxId.toNat := by
  have found := List.find?_some hf
  simp only [Bool.and_eq_true, beq_iff_eq] at found
  exact ⟨List.mem_of_find?_eq_some hf, found.1⟩

/-- The only fragment of a BOX_ID is found by it. -/
theorem find_boxId {n : Nat} {l : List Frag} (ho : o ∈ l) (hb : o.boxId = n) (hu : ∀ g ∈ l, g.boxId = n → g = o) :
    l.find? (fun f => f.boxId == n) = some o := by
  obtain ⟨g, hg⟩ := Option.isSome_iff_exists.mp
    (List.find?_isSome (p := fun f : Frag => f.boxId == n).mpr ⟨o, ho, beq_iff_eq.mpr hb⟩)
  have named : (g.boxId == n) = true := List.find?_some (p := fun f : Frag => f.boxId == n) hg
  rw [hg, hu g (List.mem_of_find?_eq_some hg) (beq_iff_eq.mp named)]

theorem sendFrame_spr (d f) (s : State) : (sendFrame d f s).spr = s.spr := by rw [sendFrame_changes]

theorem sendFrame_freePairs (d f seam) (s : State) : freePairs (sendFrame d f s) seam = freePairs s seam := by
  rw [sendFrame_changes]
  rfl

/-- What has left the package after a frame of a state that differs from `s` in its Sprue alone. -/
theorem sendFrame_out_of_spr (d : Side) (f : StarFrame) (x : Sprue) :
    (sendFrame d f { s with spr := x }).out =
      if portLive s d then starOut d (ownHead s) f :: s.out else s.out := by
  rw [sendFrame_eq]
  exact apply_ite State.out _ _ _

/-- Where no pair can be taken, the fragment keeps its partner or gets its reason. -/
theorem seamResolvePoint_unpaired (hw : working s = true)
    (hf : s.spr.own.find? (fun f => f.boxId == boxId.toNat && !f.resolved) = some o)
    (hu : ∀ g ∈ s.spr.own, g.boxId = boxId.toNat → g = o) (he : exposedPast s (releaseLine s o) = true)
    (hs : seamPaired o.side s = s) :
    ∃ t, exec (.seamResolvePoint boxId) s = .next t ∧
      t.spr = { s.spr with own := s.spr.own.map (resolve boxId.toNat (pointReason (seamBar s o.side) s o)) } ∧
      t.out = if portLive s (seamSide o.side) then
        starOut (seamSide o.side) (ownHead s) (.seamResolve boxId (BitVec.ofNat 16 (o.pair.getD 0xFFFF))) :: s.out
        else s.out := by
  obtain ⟨mem, hb⟩ := boxId_of_find hf
  have found : ((seamPaired o.side s).spr.own.find? fun f => f.boxId == boxId.toNat).getD o = o := by
    rw [hs, find_boxId mem hb hu, Option.getD_some]
  have run := seamResolvePoint_resolves hw hf he found
  rw [hs] at run
  exact ⟨_, run, sendFrame_spr .., sendFrame_out_of_spr ..⟩

/-- Resolving leaves no pair free that was not. -/
theorem markResolved_freePairs {seam n why : Nat} {s : State} (h : freePairs s seam = []) :
    freePairs (markResolved n why s) seam = [] := by
  refine List.eq_nil_iff_forall_not_mem.mpr fun p hp => List.eq_nil_iff_forall_not_mem.mp h p ?_
  obtain ⟨⟨mem, free⟩, theirs, cand⟩ := mem_freePairs.mp hp
  obtain ⟨f, hf, e⟩ := List.mem_map.mp mem
  have unresolved := (freeOwn_iff.mp free).2.2
  have same : resolve n why f = f := by
    unfold resolve
    split
    · next hb => rw [← e, resolve, if_pos hb] at unresolved; cases unresolved
    · rfl
  rw [same] at e
  exact mem_freePairs.mpr ⟨⟨e ▸ hf, free⟩, theirs, cand⟩

theorem AllPaired.resolve {seam b c : Nat} {l : List Frag} (h : AllPaired seam b c l) (n why : Nat) :
    AllPaired seam b c (l.map (resolve n why)) := by
  intro g hg
  obtain ⟨f, hf, rfl⟩ := List.mem_map.mp hg
  unfold Machine.resolve
  split <;> exact h f hf

theorem seamPaired_of_bar {seam : Nat} (h : seamBar s seam ≠ 0) : seamPaired seam s = s := if_neg h

theorem seamPaired_of_open {seam : Nat} (h : seamBar s seam = 0) :
    seamPaired seam s = pairAll seam s.spr.own.length s := if_pos h

/-- The own fragments of a state with one, counted. -/
theorem own_length_succ (h : o ∈ s.spr.own) : ∃ n, s.spr.own.length = n + 1 :=
  Nat.exists_eq_succ_of_ne_zero (List.length_pos_of_mem h).ne'

/-- Where the seam has one pair and it is the fragment's, the fragment gets its partner (R386). -/
theorem seamResolvePoint_pairs (hw : working s = true)
    (hf : s.spr.own.find? (fun f => f.boxId == boxId.toNat && !f.resolved) = some o)
    (hu : ∀ g ∈ s.spr.own, g.boxId = boxId.toNat → g = o) (he : exposedPast s (releaseLine s o) = true)
    (hbar : seamBar s o.side = 0) {b : Frag} (hp : freePairs s o.side = [(o, b)]) :
    ∃ t, exec (.seamResolvePoint boxId) s = .next t ∧
      (∀ g ∈ t.spr.own, g.boxId = boxId.toNat → g.pair = some b.boxId ∧ g.resolved = true ∧ g.why = 0) ∧
      (∀ g ∈ t.spr.theirs, isFrag o.side b.boxId g = true → g.pair = some o.boxId) ∧
      t.out = if portLive s (seamSide o.side) then
        starOut (seamSide o.side) (ownHead s) (.seamResolve boxId (BitVec.ofNat 16 b.boxId)) :: s.out else s.out := by
  obtain ⟨mem, hb⟩ := boxId_of_find hf
  have first : firstPair (freePairs s o.side) = some (o, b) := by rw [hp]; rfl
  have last : freePairs (pairUp o.side o b s) o.side = [] := by
    refine List.eq_nil_iff_forall_not_mem.mpr fun p hmem => ?_
    obtain ⟨⟨memO, freeO⟩, ⟨memT, freeT⟩, cand⟩ := mem_freePairs.mp hmem
    obtain ⟨there, other⟩ := free_of_mem_map_takePair memO (freeOwn_iff.mp freeO).2.1
    obtain ⟨thereT, -⟩ := free_of_mem_map_takePair memT (freeTheirs_iff.mp freeT).2.1
    have before : p ∈ freePairs s o.side := mem_freePairs.mpr ⟨⟨there, freeO⟩, ⟨thereT, freeT⟩, cand⟩
    rw [hp, List.mem_singleton] at before
    rw [before] at other
    simp [isFrag] at other
  have paired : seamPaired o.side s = pairUp o.side o b s := by
    obtain ⟨n, hn⟩ := own_length_succ mem
    rw [seamPaired_of_open hbar, hn, pairAll_succ first, pairAll_of_free_nil last]
  have taken : takePair o.side o.boxId b.boxId o = { o with pair := some b.boxId } :=
    if_pos (isFrag_iff.mpr ⟨rfl, rfl⟩)
  have sameId (f : Frag) : (takePair o.side o.boxId b.boxId f).boxId = f.boxId := by
    unfold takePair
    split <;> rfl
  have found : ((seamPaired o.side s).spr.own.find? fun f => f.boxId == boxId.toNat).getD o =
      { o with pair := some b.boxId } := by
    rw [paired, pairUp_eq, List.find?_map]
    simp only [Function.comp_def, sameId]
    rw [find_boxId mem hb hu, Option.map_some, Option.getD_some, taken]
  have run := seamResolvePoint_resolves hw hf he found
  rw [paired] at run
  refine ⟨_, run, fun g hg hid => ?_, ?_, sendFrame_out_of_spr ..⟩
  · rw [sendFrame_spr, markResolved, pairUp_eq, List.map_map] at hg
    obtain ⟨f, hmem, rfl⟩ := List.mem_map.mp hg
    rw [Function.comp_apply] at hid ⊢
    have resolved (x : Frag) : (resolve boxId.toNat 0 x).boxId = x.boxId := by
      unfold resolve
      split <;> rfl
    have isO : f = o := hu f hmem ((sameId f).symm.trans ((resolved _).symm.trans hid))
    rw [isO, taken]
    have here : (o.boxId == boxId.toNat) = true := beq_iff_eq.mpr hb
    simp [resolve, here, pointReason]
  · rw [sendFrame_spr]
    exact allPaired_map_takePair _ _ _ _

/-- On a seam that can pair, the first pair is taken, and pairs are taken until none is free (R386). -/
theorem seamResolvePoint_takes_all (hw : working s = true)
    (hf : s.spr.own.find? (fun f => f.boxId == boxId.toNat && !f.resolved) = some o)
    (he : exposedPast s (releaseLine s o) = true) (hbar : seamBar s o.side = 0) {x y : Frag}
    (hp : firstPair (freePairs s o.side) = some (x, y)) :
    ∃ t, exec (.seamResolvePoint boxId) s = .next t ∧ freePairs t o.side = [] ∧
      AllPaired o.side x.boxId y.boxId t.spr.own ∧ AllPaired o.side y.boxId x.boxId t.spr.theirs := by
  obtain ⟨n, hn⟩ := own_length_succ (boxId_of_find hf).1
  refine ⟨_, seamResolvePoint_resolves hw hf he rfl, ?_, ?_⟩
  · rw [sendFrame_freePairs, seamPaired_of_open hbar]
    exact markResolved_freePairs (pairAll_freePairs (List.length_filter_le _ _))
  · rw [sendFrame_spr, seamPaired_of_open hbar, hn]
    obtain ⟨own, theirs⟩ := pairAll_takes_first (n := n) hp
    exact ⟨own.resolve _ _, theirs⟩

theorem execSeamResolvePoint_idle
    (h : working s = false ∨ s.spr.own.find? (fun f => f.boxId == boxId.toNat && !f.resolved) = none) :
    execSeamResolvePoint boxId s = .next s := by
  unfold execSeamResolvePoint
  split
  · rfl
  · next hf => rw [hf] at h; simp at h; simp [h]

theorem execSeamResolvePoint_early
    (hf : s.spr.own.find? (fun f => f.boxId == boxId.toNat && !f.resolved) = some o)
    (he : exposedPast s (releaseLine s o) = false) : execSeamResolvePoint boxId s = .next s := by
  simp [execSeamResolvePoint, hf, he]

/-! ### Releases -/

/-- A fragment leaves the own ones and its partner the held ones, and its outcome is counted (R388, Table 10.12). -/
def released (o : Frag) (s : State) : State :=
  countResolution (seamOutcome s o).1.outcome (onSprue (fun y => { y with
    own := y.own.filter fun f => f.boxId != o.boxId
    theirs := y.theirs.filter fun f => !(f.side == o.side && o.pair == some f.boxId) }) s)

theorem released_eq (o : Frag) (s : State) : released o s = { s with spr := { s.spr with
    own := s.spr.own.filter fun f => f.boxId != o.boxId
    theirs := s.spr.theirs.filter fun f => !(f.side == o.side && o.pair == some f.boxId)
    seamUnmerged := if (seamOutcome s o).1.outcome = 3 then satInc 32 s.spr.seamUnmerged else s.spr.seamUnmerged
    seamMerged := if (seamOutcome s o).1.outcome = 3 then s.spr.seamMerged else satInc 32 s.spr.seamMerged } } := by
  unfold released countResolution onSprue
  split <;> rfl

/-- With a record of credit the resolution is queued (R388). -/
theorem execSeamRelease_queues (hw : working s = true)
    (hf : s.spr.own.find? (fun f => f.boxId == boxId.toNat && f.resolved) = some o) (hc : 256 ≤ s.spr.recCredit) :
    execSeamRelease boxId s =
      .next (queueRecord (resolutionBytes s o (seamOutcome s o).1 (seamOutcome s o).2)
        (takeRecordCredit (released o s))) := by
  have credit : ¬(released o s).spr.recCredit < 256 := by
    rw [released_eq]
    exact Nat.not_lt.mpr hc
  simp only [execSeamRelease, hf, hw, Bool.true_eq_false, if_false]
  exact if_neg credit

/-- A resolution that finds no credit is dropped, in the first line not yet formed (R372). -/
def resolutionDropped (s : State) : State :=
  match s.spr.lines with
  | l :: _ => dropRecord l.line s
  | [] => onSprue (fun x => { x with recDrops := satInc 32 x.recDrops }) s

/-- Without a record of credit the resolution is dropped (R372). -/
theorem execSeamRelease_drops (hw : working s = true)
    (hf : s.spr.own.find? (fun f => f.boxId == boxId.toNat && f.resolved) = some o) (hc : s.spr.recCredit < 256) :
    execSeamRelease boxId s = .next (resolutionDropped (released o s)) := by
  have credit : (released o s).spr.recCredit < 256 := by
    rw [released_eq]
    exact hc
  simp only [execSeamRelease, hf, hw, Bool.true_eq_false, if_false]
  exact if_pos credit

/-- A dropped resolution marks lines, and is counted. -/
theorem resolutionDropped_changes (s : State) : resolutionDropped s = { s with spr := { s.spr with
    lines := (resolutionDropped s).spr.lines, recDrops := satInc 32 s.spr.recDrops } } := by
  unfold resolutionDropped
  split <;> rfl

theorem execSeamRelease_idle
    (h : working s = false ∨ s.spr.own.find? (fun f => f.boxId == boxId.toNat && f.resolved) = none) :
    execSeamRelease boxId s = .next s := by
  unfold execSeamRelease
  split
  · rfl
  · next hf => rw [hf] at h; simp at h; simp [h]

/-! ### Outcomes -/

theorem seamOutcome_unpaired (h : o.pair = none) : seamOutcome s o = (ownBox o 3 o.why, none) := by
  rw [seamOutcome, h]

theorem seamOutcome_lost {b : Nat} (h : o.pair = some b) (ht : s.spr.theirs.find? (isFrag o.side b) = none) :
    seamOutcome s o = (ownBox o 3 2, none) := by
  simp only [seamOutcome, h, ht]

/-- A pair is merged by the owner of its midline; the other device yields, if the owner has named its fragment (R383,
R387, Table 10.8). -/
theorem seamOutcome_paired {b : Nat} {x : Frag} (h : o.pair = some b)
    (ht : s.spr.theirs.find? (isFrag o.side b) = some x) :
    (∀ m, mergedBox s o x = some m → seamOutcome s o = (m, some x)) ∧
      (mergedBox s o x = none → x.partner = some (some o.boxId) → seamOutcome s o = (ownBox o 2 0, some x)) ∧
      (mergedBox s o x = none → x.partner ≠ some (some o.boxId) → seamOutcome s o = (ownBox o 3 2, some x)) := by
  simp only [seamOutcome, h, ht]
  exact ⟨fun m hm => by rw [hm], fun hm hx => by rw [hm]; exact if_pos hx, fun hm hx => by rw [hm]; exact if_neg hx⟩

end

/-- Settles O40: each clause by the rule of its command above. -/
theorem seamsPairAndResolve : Obligations.SeamsPairAndResolve := by
  unfold Obligations.SeamsPairAndResolve
  refine ⟨fun s side hd f hw hp ht => execSeamFragReceive_holds hw hp ht f,
    fun s side hd boxId partner hw hp ht => execSeamResolveReceive_marks hw hp ht boxId partner,
    fun s side hd f boxId partner h => ⟨if_neg (seamFrame_untaken h), if_neg (seamFrame_untaken h)⟩,
    ?barred, ?barredPaired, ?alone, fun s o boxId b hw hf hu he hbar hp => seamResolvePoint_pairs hw hf hu he hbar hp,
    fun s o boxId x y hw hf hu he hbar hp => seamResolvePoint_takes_all hw hf he hbar hp,
    fun s boxId h => execSeamResolvePoint_idle h, fun s o boxId hf he => execSeamResolvePoint_early hf he,
    fun l p q h => (firstPair_spec h).2 q, ?queued, ?closed, ?dropped, fun s boxId h => execSeamRelease_idle h,
    fun s o h => seamOutcome_unpaired h, fun s o b h ht => seamOutcome_lost h ht,
    fun s o x b h ht => seamOutcome_paired h ht⟩
  case barred =>
    intro s o boxId hw hf hu he hbar hp
    have point := seamResolvePoint_unpaired hw hf hu he (seamPaired_of_bar hbar)
    have why : pointReason (seamBar s o.side) s o = seamBar s o.side := by simp [pointReason, hp, hbar]
    rwa [why, hp] at point
  case barredPaired =>
    intro s o boxId b hw hf hu he hbar hp
    have point := seamResolvePoint_unpaired hw hf hu he (seamPaired_of_bar hbar)
    have why : pointReason (seamBar s o.side) s o = 0 := by simp [pointReason, hp]
    rwa [why, hp] at point
  case alone =>
    intro s o boxId hw hf hu he hbar hp hn
    have stays : seamPaired o.side s = s := by rw [seamPaired_of_open hbar, pairAll_of_free_nil hn]
    have point := seamResolvePoint_unpaired hw hf hu he stays
    have why : pointReason (seamBar s o.side) s o = if staleCandidate s o then 3 else 1 := by
      simp [pointReason, hp, hbar]
    rwa [why, hp] at point
  case queued =>
    intro s o boxId hw hf hc hq
    have room : (takeRecordCredit (released o s)).net.queue.length < 44 := by rw [released_eq]; exact hq
    refine ⟨_, execSeamRelease_queues hw hf hc, ?_⟩
    rw [queueRecord_spr, queueRecord_queue room]
    simp [released_eq, takeRecordCredit]
  case closed =>
    intro s o boxId hw hf hc hq
    have full : 44 ≤ (takeRecordCredit (released o s)).net.queue.length := by rw [released_eq]; exact hq
    refine ⟨_, execSeamRelease_queues hw hf hc, ?_⟩
    rw [queueRecord_spr, queueRecord_closes full, closeDatagram_queue, closeDatagram_seq]
    simp [released_eq, takeRecordCredit]
  case dropped =>
    intro s o boxId hw hf hc
    refine ⟨_, execSeamRelease_drops hw hf hc, ?_⟩
    rw [resolutionDropped_changes, released_eq]
    exact ⟨rfl, rfl, rfl, rfl, rfl, rfl, rfl⟩

end Sys2Proof.Machine

/-! SUPPORT. Tokens, crops and events at the Sprue (family 10_results_seams.md): what a token of the egress FIFOs
becomes, the records of a crop, and the release of an event to its port. -/

namespace Sys2Proof.Machine

/-! ### A token leaves its FIFO -/

/-- The oldest token of a column stands on the egress bus of its row (R242). -/
structure TokenDue (s : State) (row col : Fin 8) (beat : Nat) (t : Token) (rest : List (Nat × Token)) : Prop where
  works : working s = true
  used : rowUsed s (perchAt s row.val col.val) = true
  turn : egressTurn s row = some col
  oldest : s.fab.perch[perchAt s row.val col.val].run.egr = (beat, t) :: rest

/-- The oldest token of a column has left its FIFO, and the bus goes on to the next column (R242). -/
def tokenTaken (row col : Fin 8) (rest : List (Nat × Token)) (s : State) : State :=
  onSprue (fun x => { x with egrNext := x.egrNext.set row (col + 1) })
    (onRun (perchAt s row.val col.val) (fun x => { x with egr := rest }) s)

/-- A token twice failed is poisoned (R238). -/
def received (parity : Option Bool) (t : Token) : Token :=
  if parity = some false then { t with poison := true } else t

theorem receiveEgress_token (p parity t s) : (receiveEgress p parity t s).1 = received parity t := by
  unfold receiveEgress received
  split <;> rfl

@[simp] theorem receiveEgress_spr (p parity t s) : (receiveEgress p parity t s).2.spr = s.spr := by
  unfold receiveEgress
  split
  · rfl
  · rfl
  · exact report_spr ..

@[simp] theorem receiveEgress_img (p parity t s) : (receiveEgress p parity t s).2.img = s.img := by
  unfold receiveEgress
  split
  · rfl
  · rfl
  · exact report_img ..

@[simp] theorem receiveEgress_perch (p parity t s) : (receiveEgress p parity t s).2.fab.perch = s.fab.perch := by
  unfold receiveEgress
  split
  · rfl
  · rfl
  · exact congrArg Fab.perch (report_fab ..)

/-- The device after a token has crossed to the Sprue, before it acts. -/
def tokenCrossed (row col : Fin 8) (rest : List (Nat × Token)) (parity : Option Bool) (t : Token) (s : State) : State :=
  (receiveEgress (perchAt s row.val col.val) parity t (tokenTaken row col rest s)).2

section
variable {s : State} {row col : Fin 8} {beat : Nat} {t : Token} {rest : List (Nat × Token)}

/-- The oldest token leaves its FIFO, crosses the bus and acts by its kind (R242, R366). -/
theorem TokenDue.acts (h : TokenDue s row col beat t rest) (parity : Option Bool) :
    exec (.sprueToken row col parity) s =
      .next (actOn row.val col.val beat (received parity t) (tokenCrossed row col rest parity t s)) := by
  obtain ⟨works, used, turn, oldest⟩ := h
  show execSprueToken row col parity s = _
  simp only [execSprueToken, oldest]
  rw [if_neg (by simp [works, used, turn]), ← receiveEgress_token (perchAt s row.val col.val)]
  rfl

theorem execSprueToken_idle (parity : Option Bool)
    (h : s.fab.perch[perchAt s row.val col.val].run.egr = [] ∨ working s = false ∨
      rowUsed s (perchAt s row.val col.val) = false ∨ egressTurn s row ≠ some col) :
    execSprueToken row col parity s = .next s := by
  simp only [execSprueToken]
  split
  · rfl
  · next oldest =>
    rw [oldest] at h
    exact if_pos (h.resolve_left (List.cons_ne_nil _ _))

theorem tokenCrossed_spr (parity) : (tokenCrossed row col rest parity t s).spr =
    { s.spr with egrNext := s.spr.egrNext.set row (col + 1) } := receiveEgress_spr ..

theorem tokenCrossed_img (parity) : (tokenCrossed row col rest parity t s).img = s.img := receiveEgress_img ..

/-- A token that failed twice is reported for the perch it leaves (R238). -/
theorem tokenCrossed_twice : tokenCrossed row col rest (some false) t s =
    report (faultCode 0x20 (perchAt s row.val col.val).val) (tokenTaken row col rest s) := rfl

end

/-! ### What a token becomes -/

/-- A void poisoned token makes its row's records of the beat DEGRADED (R326, R327). -/
def tokenMarked (row beat : Nat) (t : Token) (s : State) : State :=
  if t.void ∧ t.poison then markLine beat (fun l => { l with degRows := row :: l.degRows }) s else s

theorem tokenMarked_quiet {t : Token} (h : t.void = false ∨ t.poison = false) (row beat : Nat) (s : State) :
    tokenMarked row beat t s = s :=
  if_neg (by rcases h with h | h <;> simp [h])

theorem tokenMarked_changes (row beat t s) : tokenMarked row beat t s =
    { s with spr := { s.spr with lines := (tokenMarked row beat t s).spr.lines } } := by
  unfold tokenMarked
  split <;> rfl

theorem tokenMarked_img (row beat t s) : (tokenMarked row beat t s).img = s.img := by rw [tokenMarked_changes]

/-- The lines of the beat of a void poisoned token name its row (R327). -/
theorem tokenMarked_degRows {t : Token} (hv : t.void = true) (hp : t.poison = true) (row beat : Nat) (s : State) :
    ∀ l ∈ (tokenMarked row beat t s).spr.lines, l.line = beat → row ∈ l.degRows := by
  intro l hl hb
  rw [tokenMarked, if_pos ⟨hv, hp⟩] at hl
  obtain ⟨m, -, rfl⟩ := List.mem_map.mp hl
  by_cases here : m.line = beat
  · rw [if_pos here]
    exact List.mem_cons_self
  · rw [if_neg here] at hb
    exact absurd hb here

/-- Once the lines are marked, a token changes the waiting records, their discards and the release queue (R366). -/
theorem actOn_changes (row col beat t s) : actOn row col beat t s = { tokenMarked row beat t s with
    spr := { (tokenMarked row beat t s).spr with
      toks := (actOn row col beat t s).spr.toks
      attrDiscard := (actOn row col beat t s).spr.attrDiscard
      events := (actOn row col beat t s).spr.events } } := by
  simp only [actOn, tokenMarked]
  generalize (if t.void ∧ t.poison then _ else s : State) = u
  (repeat' split) <;> rfl

theorem actOn_flt (row col beat t s) : (actOn row col beat t s).flt = s.flt := by
  rw [actOn_changes, tokenMarked_changes]

theorem actOn_egrNext (row col beat t s) : (actOn row col beat t s).spr.egrNext = s.spr.egrNext := by
  rw [actOn_changes, tokenMarked_changes]

theorem actOn_lines (row col beat t s) :
    (actOn row col beat t s).spr.lines = (tokenMarked row beat t s).spr.lines := by
  rw [actOn_changes]

section
variable {s : State} {row col beat : Nat} {t : Token}

/-- A LABEL or BOX token becomes a waiting record (R366, R367). -/
theorem actOn_record {box : Bool} (hk : s.img.nat Fld.tagKind [t.tag.toNat] = 1 + bit box) :
    actOn row col beat t s = onSprue (fun x => { x with
      toks := x.toks ++ [tokenRecord (tokenMarked row beat t s) row col beat box t] }) (tokenMarked row beat t s) := by
  cases box
  · simp only [actOn, show s.img.nat Fld.tagKind [t.tag.toNat] = 1 from hk]
    rfl
  · simp only [actOn, show s.img.nat Fld.tagKind [t.tag.toNat] = 2 from hk]
    rfl

/-- ATTR words that find a record to join join it (R369). -/
theorem actOn_attr (hk : s.img.nat Fld.tagKind [t.tag.toNat] = 3) (hv : t.void = false) {l : List TokRec}
    (ha : attach row col beat t.poison t.data s.spr.toks.reverse = some l.reverse) :
    actOn row col beat t s = onSprue (fun x => { x with toks := l }) s := by
  simp only [actOn, hk, hv, Bool.false_eq_true, false_and, if_false, ha, List.reverse_reverse]

/-- ATTR words that find none are discarded and counted (R369). -/
theorem actOn_attr_discard (hk : s.img.nat Fld.tagKind [t.tag.toNat] = 3) (hv : t.void = false)
    (ha : attach row col beat t.poison t.data s.spr.toks.reverse = none) :
    actOn row col beat t s = onSprue (fun x => { x with attrDiscard := satInc 32 x.attrDiscard }) s := by
  simp only [actOn, hk, hv, Bool.false_eq_true, false_and, if_false, ha]

/-- An EVENT token of an enabled port joins the release queue (R539). -/
theorem actOn_event (hk : s.img.nat Fld.tagKind [t.tag.toNat] = 4) (hv : t.void = false)
    (hm : s.img.nat Fld.evpMode [bits t.data.toNat 0 4] ≠ 0) :
    actOn row col beat t s =
      onSprue (fun x => { x with events := x.events ++ [⟨decisionLine s beat, bits t.data.toNat 0 4⟩] }) s := by
  simp only [actOn, hk, hv, hm, Bool.false_eq_true, false_and, or_self, if_false]

/-- Any other token leaves no record (R366). -/
theorem actOn_none (hq : t.void = false ∨ t.poison = false)
    (h : s.img.nat Fld.tagKind [t.tag.toNat] = 0 ∨ 4 < s.img.nat Fld.tagKind [t.tag.toNat] ∨
      (s.img.nat Fld.tagKind [t.tag.toNat] = 3 ∧ t.void = true) ∨
      (s.img.nat Fld.tagKind [t.tag.toNat] = 4 ∧
        (t.void = true ∨ s.img.nat Fld.evpMode [bits t.data.toNat 0 4] = 0))) :
    actOn row col beat t s = s := by
  have quiet : (if t.void ∧ t.poison then markLine beat (fun l => { l with degRows := row :: l.degRows }) s else s) =
      s := tokenMarked_quiet hq row beat s
  simp only [actOn, quiet]
  rcases h with h | h | ⟨h, hv⟩ | ⟨h, hv⟩
  · simp only [h]
  · split
    · omega
    · omega
    · omega
    · omega
    · rfl
  · simp only [h, hv, if_true]
  · simp only [h, hv, if_true]

end

/-! ### The record that ATTR words join -/

/-- A record is of a perch and a beat (R369). -/
abbrev TokRec.Of (x : TokRec) (row col beat : Nat) : Prop := x.row = row ∧ x.col = col ∧ x.beat = beat

section
variable {row col beat : Nat} {poison : Bool} {d : BitVec 64}

/-- Newer records of other perches and beats are passed over. -/
theorem attach_append {l : List TokRec} (h : ∀ y ∈ l, ¬y.Of row col beat) (r : List TokRec) :
    attach row col beat poison d (l ++ r) = (attach row col beat poison d r).map (l ++ ·) := by
  induction l with
  | nil => simp
  | cons y l ih =>
    obtain ⟨other, others⟩ := List.forall_mem_cons.mp h
    rw [List.cons_append, attach, if_neg other, ih others, Option.map_map]
    rfl

theorem attach_none {l : List TokRec} (h : ∀ y ∈ l, ¬y.Of row col beat) :
    attach row col beat poison d l.reverse = none := by
  have := attach_append (poison := poison) (d := d) (l := l.reverse) (fun y hy => h y (List.mem_reverse.mp hy)) []
  rwa [List.append_nil] at this

variable {pre post : List TokRec} {x : TokRec}

/-- The newest record of the perch and beat is the one looked at. -/
theorem attach_newest (hpost : ∀ y ∈ post, ¬y.Of row col beat) :
    attach row col beat poison d (pre ++ x :: post).reverse =
      (attach row col beat poison d (x :: pre.reverse)).map (post.reverse ++ ·) := by
  rw [List.reverse_append, List.reverse_cons, List.append_assoc, List.singleton_append,
    attach_append fun y hy => hpost y (List.mem_reverse.mp hy)]

theorem attach_joins (hx : x.Of row col beat) (hpost : ∀ y ∈ post, ¬y.Of row col beat) (hv : x.void = false)
    (ha : x.attr = none) :
    attach row col beat poison d (pre ++ x :: post).reverse = some (pre ++ { x with
      attr := some (d.truncate 32, (d >>> 32).truncate 32), poison := x.poison || poison } :: post).reverse := by
  rw [attach_newest hpost, attach, if_pos hx, if_neg (by simp [hv, ha])]
  simp

theorem attach_refused (hx : x.Of row col beat) (hpost : ∀ y ∈ post, ¬y.Of row col beat)
    (h : x.void = true ∨ x.attr ≠ none) : attach row col beat poison d (pre ++ x :: post).reverse = none := by
  rw [attach_newest hpost, attach, if_pos hx, if_pos (h.imp_right Option.isSome_iff_ne_none.mpr), Option.map_none]

end

/-! ### Tokens at the Sprue -/

section
variable {s : State} {row col : Fin 8} {beat : Nat} {t : Token} {rest : List (Nat × Token)}

/-- A token that crosses without a parity error acts as it is. -/
theorem TokenDue.acts_clean (h : TokenDue s row col beat t rest) :
    exec (.sprueToken row col none) s = .next (actOn row.val col.val beat t (tokenTaken row col rest s)) :=
  h.acts none

theorem TokenDue.acts_to (h : TokenDue s row col beat t rest) {u : State}
    (hu : actOn row.val col.val beat t (tokenTaken row col rest s) = u) :
    exec (.sprueToken row col none) s = .next u := hu ▸ h.acts_clean

/-- A token leaves its FIFO and nothing else of the fabric but the counters, and the bus goes on (R238, R242). -/
theorem TokenDue.leaves (h : TokenDue s row col beat t rest) (parity : Option Bool) :
    ∃ u, exec (.sprueToken row col parity) s = .next u ∧
      u.fab.perch[perchAt s row.val col.val].run = { s.fab.perch[perchAt s row.val col.val].run with egr := rest } ∧
      u.spr.egrNext = s.spr.egrNext.set row (col + 1) ∧
      (∀ q : Fin 72, q ≠ perchAt s row.val col.val → u.fab.perch[q] = s.fab.perch[q]) ∧
      (parity = none → u.flt = s.flt ∧ u.fab.cnt = s.fab.cnt) ∧
      (parity = some true → u.flt = s.flt ∧
        u.fab.cnt = { s.fab.cnt with parityResend := satInc 32 s.fab.cnt.parityResend }) ∧
      (parity = some false → classCount u 0x20 = satInc 32 (classCount s 0x20) ∧ u.fab.cnt = s.fab.cnt) := by
  have perch : (tokenCrossed row col rest parity t s).fab.perch =
      vmod s.fab.perch (perchAt s row.val col.val) fun x => { x with run := { x.run with egr := rest } } :=
    receiveEgress_perch ..
  refine ⟨_, h.acts parity, ?_, ?_, ?_, ?_, ?_, ?_⟩
  · rw [actOn_fab, perch, vmod_same]
  · rw [actOn_egrNext, tokenCrossed_spr]
  · intro q hq
    rw [actOn_fab, perch]
    exact vmod_other _ _ _ _ hq
  · rintro rfl
    rw [actOn_flt, actOn_fab]
    exact ⟨rfl, rfl⟩
  · rintro rfl
    rw [actOn_flt, actOn_fab]
    exact ⟨rfl, rfl⟩
  · rintro rfl
    refine ⟨(classCount_congr (actOn_flt ..) _).trans (classCount_report_faultCode (by decide) _ _), ?_⟩
    rw [actOn_fab, tokenCrossed_twice, report_fab]
    rfl

/-- A LABEL or BOX token becomes a waiting record, poisoned where it failed twice (R238, R366). -/
theorem TokenDue.waits (h : TokenDue s row col beat t rest) {box : Bool}
    (hk : s.img.nat Fld.tagKind [t.tag.toNat] = 1 + bit box) (parity : Option Bool) :
    ∃ u, exec (.sprueToken row col parity) s = .next u ∧
      u.spr.toks = s.spr.toks ++ [tokenRecord s row.val col.val beat box (received parity t)] := by
  have tag : (received parity t).tag = t.tag := by
    unfold received
    split <;> rfl
  have kind : (tokenCrossed row col rest parity t s).img.nat Fld.tagKind [(received parity t).tag.toNat] =
      1 + bit box := by rw [tokenCrossed_img, tag, hk]
  have record (x : Token) : tokenRecord (tokenMarked row.val beat x (tokenCrossed row col rest parity t s))
      row.val col.val beat box x = tokenRecord s row.val col.val beat box x := by
    simp only [tokenRecord, deviceColumn, tokenMarked_img, tokenCrossed_img]
  have toks (x : Token) : (tokenMarked row.val beat x (tokenCrossed row col rest parity t s)).spr.toks =
      s.spr.toks := by
    rw [tokenMarked_changes]
    dsimp only
    rw [tokenCrossed_spr]
  refine ⟨_, h.acts parity, ?_⟩
  rw [actOn_record kind, record]
  exact congrArg (· ++ _) (toks _)

/-- A void token with poison, its own or of the bus, makes its row's records of the beat DEGRADED (R327). -/
theorem TokenDue.degrades (h : TokenDue s row col beat t rest) (hv : t.void = true) {parity : Option Bool}
    (hp : t.poison = true ∨ parity = some false) :
    ∃ u, exec (.sprueToken row col parity) s = .next u ∧ ∀ l ∈ u.spr.lines, l.line = beat → row.val ∈ l.degRows := by
  have void : (received parity t).void = true := by
    unfold received
    split <;> exact hv
  have poisoned : (received parity t).poison = true := by
    unfold received
    split
    · rfl
    · next hn => exact hp.resolve_right hn
  refine ⟨_, h.acts parity, ?_⟩
  rw [actOn_lines]
  exact tokenMarked_degRows void poisoned _ _ _

end

/-! ### Several records -/

/-- Records are queued in order. -/
def queueRecords (rs : List (List Byte)) (s : State) : State :=
  rs.foldl (fun t r => queueRecord r t) s

theorem queueRecords_spr (rs s) : (queueRecords rs s).spr = s.spr :=
  List.foldlRecOn (motive := fun t : State => t.spr = s.spr) _ _ rfl fun t ht r _ => (queueRecord_spr r t).trans ht

theorem queueRecords_flt (rs s) : (queueRecords rs s).flt = s.flt :=
  List.foldlRecOn (motive := fun t : State => t.flt = s.flt) _ _ rfl fun t ht r _ => (queueRecord_flt r t).trans ht

/-- Records that do not fill the open datagram wait in it, in order (R408). -/
theorem queueRecords_queue {rs : List (List Byte)} {s : State} (h : s.net.queue.length + rs.length < 45) :
    (queueRecords rs s).net.queue = s.net.queue ++ rs := by
  induction rs generalizing s with
  | nil => simp [queueRecords]
  | cons r rs ih =>
    rw [List.length_cons] at h
    have joined := queueRecord_joins (s := s) (by omega) r
    have rest : (queueRecords rs (queueRecord r s)).net.queue = (queueRecord r s).net.queue ++ rs := by
      refine ih ?_
      rw [joined]
      simp only [List.length_append, List.length_singleton]
      omega
    rw [queueRecords, List.foldl_cons]
    refine rest.trans ?_
    rw [joined]
    simp

/-! ### Crops -/

/-- The oldest crop leaves the crop store (R376, R380). -/
def cropLeft (c : Crop) (rest : List Crop) (s : State) : State :=
  onSprue (fun x => { x with
    crops := rest, cropUsed := x.cropUsed - c.bytes.length, cropsSent := satInc 32 x.cropsSent }) s

theorem readStore_spr (c e s) : (readStore c e s).2.2.spr = s.spr := by
  unfold readStore
  split
  · rfl
  · exact report_spr ..
  · exact report_spr ..

theorem readStore_net (c e s) : (readStore c e s).2.2.net = s.net := by
  unfold readStore
  split
  · rfl
  · exact report_net ..
  · exact report_net ..

theorem readStore_corrected (c s) :
    classCount (readStore c .corrected s).2.2 0x11 = satInc 32 (classCount s 0x11) := classCount_report 0x117D s

theorem readStore_uncorrectable (c s) :
    classCount (readStore c .uncorrectable s).2.2 0x12 = satInc 32 (classCount s 0x12) :=
  classCount_report 0x127D { s with freeCtr := s.freeCtr + c.bytes.length }

/-- What a read of the crop store finds does not reach the flags of a crop. -/
theorem readStore_cropFlags (c e s) : cropFlags (readStore c e s).2.2 c = cropFlags s c := by
  cases e with
  | clean => rfl
  | corrected => simp only [readStore, cropFlags, deviceFlags, report_star, report_ptp, report_img]
  | uncorrectable => simp only [readStore, cropFlags, deviceFlags, report_star, report_ptp, report_img]

/-- The records of a crop: its header, and its payload as the store gave it (R379, Table 10.7). -/
def roiRecords (s : State) (c : Crop) (store : Ecc) : List (List Byte) :=
  roiHeader s c c.bytes :: (List.range (cropRecords c.bytes.length)).map
    (roiPayload c (if (readStore c store s).2.1 then cropFlags s c ||| 8#16 else cropFlags s c) (readStore c store s).1)

section
variable {s : State} {c : Crop} {rest : List Crop}

/-- The oldest crop is read from the store and its records are queued (R376 to R380). -/
theorem execCropCopy_sends (hw : working s = true) (hc : s.spr.crops = c :: rest) (store : Ecc) :
    execCropCopy store s =
      .next (queueRecords (roiRecords s c store) (readStore c store (cropLeft c rest s)).2.2) := by
  have flags : cropFlags (readStore c store (cropLeft c rest s)).2.2 c = cropFlags s c := readStore_cropFlags ..
  have bytes : (readStore c store (cropLeft c rest s)).1 = (readStore c store s).1 := by cases store <;> rfl
  have bad : (readStore c store (cropLeft c rest s)).2.1 = (readStore c store s).2.1 := by cases store <;> rfl
  simp only [execCropCopy, hc, hw, Bool.true_eq_false, if_false]
  rw [roiRecords, ← flags, ← bytes, ← bad]
  rfl

/-- A crop that is copied leaves the store, and its records join an open datagram that has room for them (R380). -/
theorem execCropCopy_next (hw : working s = true) (hc : s.spr.crops = c :: rest) (store : Ecc) :
    ∃ u, execCropCopy store s = .next u ∧ u.spr = (cropLeft c rest s).spr ∧
      u.flt = (readStore c store (cropLeft c rest s)).2.2.flt ∧
      (s.net.queue.length + 1 + cropRecords c.bytes.length < 45 →
        u.net.queue = s.net.queue ++ roiRecords s c store) := by
  refine ⟨_, execCropCopy_sends hw hc store, by rw [queueRecords_spr, readStore_spr], queueRecords_flt .., fun hq => ?_⟩
  have net : (readStore c store (cropLeft c rest s)).2.2.net = s.net := readStore_net ..
  rw [queueRecords_queue, net]
  rw [net, roiRecords, List.length_cons, List.length_map, List.length_range]
  omega

theorem execCropCopy_idle {store : Ecc} (h : working s = false ∨ s.spr.crops = []) :
    execCropCopy store s = .next s := by
  unfold execCropCopy
  split
  · rfl
  · next hc => exact if_pos (h.resolve_right (by simp [hc]))

end

/-! ### Events -/

/-- The event that is due has left the release queue. -/
def eventTaken (rest : List Evt) (s : State) : State :=
  onSprue (fun x => { x with events := rest }) s

section
variable {s : State} {e : Evt} {rest : List Evt} {k : Fin 16} {j : Nat}

/-- An event that is due goes to its port, or was formed late and is dropped (R539). -/
theorem execEventRelease_releases (hw : working s = true) (hd : dueEvent s s.spr.events = some (e, rest))
    (inTime : Bool) : execEventRelease inTime s =
      .next (if inTime then releaseToPort (Fin.ofNat 16 e.port) e.line (eventTaken rest s)
        else dropEvents 1 (eventTaken rest s)) := by
  simp only [execEventRelease, hd, hw, Bool.true_eq_false, if_false]
  rfl

theorem execEventRelease_idle (inTime : Bool) (h : working s = false ∨ dueEvent s s.spr.events = none) :
    execEventRelease inTime s = .next s := by
  unfold execEventRelease
  split
  · rfl
  · next hd => exact if_pos (h.resolve_right (by simp [hd]))

theorem releaseToPort_off (h : s.img.nat Fld.evpMode [k.val] = 0 ∨ s.gpio.evpOn = false) :
    releaseToPort k j s = s := if_pos h

theorem releaseToPort_acts (hm : s.img.nat Fld.evpMode [k.val] ≠ 0) (ho : s.gpio.evpOn = true)
    (hd : s.img.nat Fld.evpDelay [k.val] = 0) : releaseToPort k j s = portActs k (false, j) s := by
  simp [releaseToPort, hm, ho, hd]

theorem releaseToPort_full (hm : s.img.nat Fld.evpMode [k.val] ≠ 0) (ho : s.gpio.evpOn = true)
    (hd : s.img.nat Fld.evpDelay [k.val] ≠ 0) (hl : 64 ≤ s.gpio.evp[k].held.length) :
    releaseToPort k j s = dropEvents 1 s := by
  unfold releaseToPort
  rw [if_neg (by simp [hm, ho]), if_neg hd, if_pos hl]

/-- The line a delayed event waits for: its target, or the next trigger's where that has passed (R540). -/
def heldLine (s : State) (k : Fin 16) (j : Nat) : Nat :=
  if linePast s.lt.line (lineAdd j (s.img.nat Fld.d [] + s.img.nat Fld.evpDelay [k.val] : Nat)) then
    lineAdd s.lt.line 1
  else lineAdd j (s.img.nat Fld.d [] + s.img.nat Fld.evpDelay [k.val] : Nat)

theorem releaseToPort_holds (hm : s.img.nat Fld.evpMode [k.val] ≠ 0) (ho : s.gpio.evpOn = true)
    (hd : s.img.nat Fld.evpDelay [k.val] ≠ 0) (hl : s.gpio.evp[k].held.length < 64) :
    releaseToPort k j s = { s with gpio := { s.gpio with
      evp := vmod s.gpio.evp k fun x => { x with held := x.held ++ [heldLine s k j] } } } := by
  unfold releaseToPort
  rw [if_neg (by simp [hm, ho]), if_neg hd, if_neg (Nat.not_le.mpr hl)]
  rfl

/-! ### The action of a port -/

theorem openInstant_evp (key s) : (openInstant key s).gpio.evp = s.gpio.evp := by
  unfold openInstant
  split
  · rfl
  · simp only [onPins_gpio]

theorem openInstant_spr (key s) : (openInstant key s).spr = s.spr := by
  unfold openInstant
  split
  · rfl
  · simp only [onPins_spr]

/-- A SET, CLR or TGL action on pins leaves the ports and the Sprue alone (R544). -/
theorem pinActions_aside (f : Pin → Pin) (l : List (Fin 48)) (s : State) :
    (l.foldl (fun t p => onPin p f t) s).gpio.evp = s.gpio.evp ∧ (l.foldl (fun t p => onPin p f t) s).spr = s.spr := by
  induction l generalizing s with
  | nil => exact ⟨rfl, rfl⟩
  | cons p l ih =>
    obtain ⟨evp, spr⟩ := ih (onPin p f s)
    exact ⟨evp, spr⟩

/-- The action of a port is counted (EVPk_COUNT). -/
def portCounted (k : Fin 16) (s : State) : State :=
  { s with gpio := { s.gpio with evp := vmod s.gpio.evp k fun e => { e with count := satInc 32 e.count } } }

/-- A PULSE contribution that still stands is counted as retriggered (R543). -/
def portRetriggered (k : Fin 16) (s : State) : State :=
  if s.gpio.evp[k].active then { s with gpio := { s.gpio with retrig := satInc 32 s.gpio.retrig } } else s

theorem portRetriggered_changes (k s) :
    portRetriggered k s = { s with gpio := { s.gpio with retrig := (portRetriggered k s).gpio.retrig } } := by
  unfold portRetriggered
  split <;> rfl

/-- A PULSE port raises its contribution (R543). -/
theorem portActs_pulse (ho : s.gpio.evpOn = true) (hm : s.img.nat Fld.evpMode [k.val] = 1) (key : Bool × Nat) :
    portActs k key s = withPins (fun t => { t with gpio := { t.gpio with evp := vmod t.gpio.evp k fun e =>
      { e with active := true, startLine := (portRetriggered k (portCounted k s)).lt.line } } })
      (portRetriggered k (portCounted k s)) :=
  (if_neg (by simp [hm, ho])).trans (if_pos hm)

/-- A SET, CLR or TGL port acts on its pins (R544). -/
theorem portActs_pins (ho : s.gpio.evpOn = true) (hm : s.img.nat Fld.evpMode [k.val] ≠ 0)
    (hn : s.img.nat Fld.evpMode [k.val] ≠ 1) (key : Bool × Nat) :
    portActs k key s = withPins (fun t => (portPins t k).foldl
      (fun u p => onPin p (portOnPin (s.img.nat Fld.evpMode [k.val])) u) (openInstant key t)) (portCounted k s) :=
  (if_neg (by simp [hm, ho])).trans (if_neg hn)

/-- An enabled port counts its action; a PULSE contribution is raised at this line (R543, EVPk_COUNT). -/
theorem portActs_acts (hm : s.img.nat Fld.evpMode [k.val] ≠ 0) (ho : s.gpio.evpOn = true) (key : Bool × Nat) :
    (portActs k key s).spr = s.spr ∧ (portActs k key s).gpio.evp[k].count = satInc 32 s.gpio.evp[k].count ∧
      (s.img.nat Fld.evpMode [k.val] = 1 → (portActs k key s).gpio.evp[k].active = true ∧
        (portActs k key s).gpio.evp[k].startLine = s.lt.line) := by
  by_cases pulse : s.img.nat Fld.evpMode [k.val] = 1
  · rw [portActs_pulse ho pulse, withPins_changes, portRetriggered_changes]
    simp only [portCounted, vmod_same, and_self, implies_true]
  · rw [portActs_pins ho hm pulse, withPins_changes]
    obtain ⟨evp, spr⟩ := pinActions_aside (portOnPin (s.img.nat Fld.evpMode [k.val])) (portPins (portCounted k s) k)
      (openInstant key (portCounted k s))
    dsimp only
    rw [evp, spr, openInstant_evp, openInstant_spr]
    exact ⟨rfl, congrArg Evp.count (vmod_same ..), fun h => absurd h pulse⟩

end

end Sys2Proof.Machine

/-! SUPPORT. The records of a line (family 10_results_seams.md): what the forming of a label or box keeps, the summary
that follows them, and the records of a line whose beat ran. Settles O39. -/

namespace Sys2Proof.Machine

/-! ### What the forming of records keeps -/

/-- The lines whose summaries are not formed yet, by their counters. -/
def lineNumbers (s : State) : List Nat := s.spr.lines.map (·.line)

theorem markLine_lineNumbers {n : Nat} {f : LineRec → LineRec} (h : ∀ l, l.line = n → (f l).line = n) (s : State) :
    lineNumbers (markLine n f s) = lineNumbers s := by
  simp only [lineNumbers, markLine, markLines, List.map_map]
  refine List.map_congr_left fun l _ => ?_
  simp only [Function.comp_apply]
  split
  · next e => exact (h l e).trans e.symm
  · rfl

/-- The forming of a record keeps the lines, and the crops of a beat within 64 KiB (R376). -/
structure KeepsLines (s t : State) : Prop where
  lines : lineNumbers t = lineNumbers s
  crops : s.spr.cropBeat ≤ 65536 → t.spr.cropBeat ≤ 65536

theorem KeepsLines.trans {s t u : State} (h : KeepsLines s t) (k : KeepsLines t u) : KeepsLines s u :=
  ⟨k.lines.trans h.lines, k.crops ∘ h.crops⟩

theorem keepsLines_of_spr {s t : State} (h : t.spr = s.spr) : KeepsLines s t :=
  ⟨by rw [lineNumbers, h, lineNumbers], by rw [h]; exact id⟩

theorem queueRecord_keepsLines (r s) : KeepsLines s (queueRecord r s) := keepsLines_of_spr (queueRecord_spr r s)

theorem dropRecord_keepsLines (n s) : KeepsLines s (dropRecord n s) :=
  ⟨markLine_lineNumbers (f := fun l => { l with drops := satInc 8 l.drops, recDrop := true }) (fun _ h => h) _, id⟩

theorem withholdCrop_keepsLines (n s) : KeepsLines s (withholdCrop n s) :=
  ⟨markLine_lineNumbers (f := fun l => { l with drops := satInc 8 l.drops, cropDrop := true }) (fun _ h => h) _, id⟩

theorem sendFragment_keepsLines (t line fl seam boxId s) : KeepsLines s (sendFragment t line fl seam boxId s) := by
  rw [sendFragment, sendFrame_changes]
  exact ⟨rfl, id⟩

theorem readSlot_spr (i e s) : (readSlot i e s).spr = s.spr := by
  unfold readSlot
  split
  · rfl
  · exact report_spr ..
  · exact report_spr ..

theorem readHistory_spr (hist line h) (s : State) : (readHistory hist line h s).spr = s.spr :=
  List.foldlRecOn (motive := fun t : State => t.spr = s.spr) _ _ rfl fun t ht e _ => (readSlot_spr e.1 e.2 t).trans ht

/-! ### The crop of a box -/

theorem maskFields_ofNat (m : Nat) : maskFields (BitVec.ofNat 4 m).toNat = maskFields m := by
  refine List.filter_congr fun k _ => ?_
  rw [BitVec.toNat_ofNat, Nat.testBit_mod_two_pow]
  simp [k.isLt]

theorem cropLines_length (line h) : (cropLines line h).length = h := by simp [cropLines]

/-- A crop holds the payload its class asks for (R379). -/
theorem cropOf_length (s t line fl) : (cropOf s t line fl).bytes.length = cropPayload s t.cls := by
  simp only [cropOf, cropBytes, maskFields_ofNat, cropPayload, List.length_flatMap, List.length_map, List.length_range,
    List.map_const', List.sum_replicate, cropLines_length, smul_eq_mul]
  ring

/-- A box has no crop, or a crop whose lines were read (R374 to R378). -/
theorem requestCrop_cases (s t line fl) : (∃ code, requestCrop s t line fl = (code, none)) ∨
    cropAsked s t = 1 ∧ requestCrop s t line fl = (1, some (cropOf s t line fl)) := by
  simp only [requestCrop]
  split
  · exact .inl ⟨_, rfl⟩
  · next h =>
    split
    · exact .inl ⟨_, rfl⟩
    · exact .inr ⟨not_not.mp h, rfl⟩

/-- A crop whose lines are read fits the beat's 64 KiB (R376). -/
theorem cropAsked_fits {s : State} {t : TokRec} (h : cropAsked s t = 1) :
    s.spr.cropBeat + cropPayload s t.cls ≤ 65536 := by
  simp only [cropAsked] at h
  split at h
  · cases h
  · split at h
    · cases h
    · split at h
      · cases h
      · split at h
        · cases h
        · omega

/-- The lines of the crop a box asks for are read (R378). -/
def cropRead (hist : List (Fin 256 × Ecc)) (t : TokRec) (s : State) : State :=
  if cropAsked s t = 1 then readHistory hist (decisionLine s t.beat) (s.img.nat Fld.cropH [t.cls]) s else s

/-- A crop is taken, or withheld in the beat of line `n` (R375 to R378). -/
def cropSettled (n : Nat) (r : Nat × Option Crop) (s : State) : State :=
  match r.2 with
  | some c => takeCrop c s
  | none => if r.1 = 2 ∨ r.1 = 3 ∨ r.1 = 4 then withholdCrop n s else s

theorem cropRead_keepsLines (hist t s) : KeepsLines s (cropRead hist t s) := by
  unfold cropRead
  split
  · exact keepsLines_of_spr (readHistory_spr ..)
  · exact keepsLines_of_spr rfl

theorem cropSettled_keepsLines (n t line fl s) : KeepsLines s (cropSettled n (requestCrop s t line fl) s) := by
  rcases requestCrop_cases s t line fl with ⟨code, e⟩ | ⟨asked, e⟩
  · rw [e, cropSettled]
    dsimp only
    split
    · exact withholdCrop_keepsLines ..
    · exact keepsLines_of_spr rfl
  · rw [e]
    refine ⟨rfl, fun _ => ?_⟩
    have fits := cropAsked_fits asked
    rw [← cropOf_length s t line fl] at fits
    exact fits

/-! ### One label or box -/

/-- A box takes a record of credit and its BOX_ID. -/
def boxNumbered (s : State) : State :=
  onSprue (fun x => { x with boxId := (x.boxId + 1) % 65536 }) (takeRecordCredit s)

/-- The flags of a record of the beat of line record `l` (Table 10.6). -/
def flagsOf (s : State) (l : LineRec) (t : TokRec) : BitVec 16 :=
  recordFlags s l t.beat (decisionLine s t.beat) t.h t.row t.poison

/-- A box is queued with its crop, and with its fragment where it lies on a seam (R368 to R376, R384). -/
def boxFormed (hist : List (Fin 256 × Ecc)) (l : LineRec) (t : TokRec) (s : State) : State :=
  let u := cropRead hist t s
  let r := requestCrop u t (decisionLine s t.beat)
    (recordFlags u l t.beat (decisionLine s t.beat) (s.img.nat Fld.cropH [t.cls]) t.row t.poison)
  let cropId := match r.2 with | some c => c.id | none => 0xFFFF
  let seam := seamOf u t.x0 t.x1
  let v := queueRecord (boxBytes t (decisionLine s t.beat) (flagsOf s l t) seam r.1 u.spr.boxId cropId)
    (boxNumbered (cropSettled l.line r u))
  if seam = 0 then v else sendFragment t (decisionLine s t.beat) (flagsOf s l t) seam u.spr.boxId v

/-- The line record a label or box of line record `l` is formed under. -/
def currentLine (s : State) (l : LineRec) : LineRec :=
  (s.spr.lines.find? fun x => x.line = l.line).getD l

section
variable {s : State} {l : LineRec} {t : TokRec} {hist : List (Fin 256 × Ecc)}

theorem formRecord_poor (h : s.spr.recCredit < 256) :
    formRecord hist l t s = dropRecord (currentLine s l).line s := if_pos h

theorem formRecord_label (h : 256 ≤ s.spr.recCredit) (hb : t.box = false) :
    formRecord hist l t s = queueRecord (labelBytes t (decisionLine s t.beat) (flagsOf s (currentLine s l) t))
      (takeRecordCredit s) :=
  (if_neg (Nat.not_lt.mpr h)).trans (if_pos hb)

theorem formRecord_box (h : 256 ≤ s.spr.recCredit) (hb : t.box = true) :
    formRecord hist l t s = boxFormed hist (currentLine s l) t s :=
  (if_neg (Nat.not_lt.mpr h)).trans (if_neg (by simp [hb]))

/-- A box without a crop inside the seams is queued, and takes its credit and its BOX_ID (R371, R374, R381). -/
theorem boxFormed_plain (hc : t.crop = false) (hs : seamOf s t.x0 t.x1 = 0) : boxFormed hist l t s =
    queueRecord (boxBytes t (decisionLine s t.beat) (flagsOf s l t) 0 0 s.spr.boxId 0xFFFF) (boxNumbered s) := by
  have asked : cropAsked s t = 0 := by simp [cropAsked, hc]
  have read : cropRead hist t s = s := if_neg (by simp [asked])
  have request (line fl) : requestCrop s t line fl = (0, none) := by simp [requestCrop, asked]
  simp only [boxFormed, read, request, hs, if_true]
  rfl

end

theorem takeRecordCredit_flagHist (s) : (takeRecordCredit s).spr.flagHist = s.spr.flagHist := by
  simp only [takeRecordCredit, onSprue_spr]

theorem boxNumbered_flagHist (s) : (boxNumbered s).spr.flagHist = s.spr.flagHist := by
  simp only [boxNumbered, onSprue_spr, takeRecordCredit_flagHist]

theorem takeRecordCredit_keepsLines (s) : KeepsLines s (takeRecordCredit s) := by
  constructor <;> simp only [lineNumbers, takeRecordCredit, onSprue_spr, imp_self]

theorem boxNumbered_keepsLines (s) : KeepsLines s (boxNumbered s) := by
  refine (takeRecordCredit_keepsLines s).trans ?_
  constructor <;> simp only [lineNumbers, boxNumbered, onSprue_spr, imp_self]

theorem boxFormed_keepsLines (hist l t s) : KeepsLines s (boxFormed hist l t s) := by
  have queued (r line fl) : KeepsLines s (queueRecord r
      (boxNumbered (cropSettled l.line (requestCrop (cropRead hist t s) t line fl) (cropRead hist t s)))) :=
    (((cropRead_keepsLines hist t s).trans (cropSettled_keepsLines ..)).trans (boxNumbered_keepsLines _)).trans
      (queueRecord_keepsLines ..)
  simp only [boxFormed]
  split
  · exact queued ..
  · exact (queued ..).trans (sendFragment_keepsLines ..)

theorem formRecord_keepsLines (hist l t s) : KeepsLines s (formRecord hist l t s) := by
  rcases Nat.lt_or_ge s.spr.recCredit 256 with h | h
  · rw [formRecord_poor h]
    exact dropRecord_keepsLines ..
  · cases hb : t.box with
    | false =>
      rw [formRecord_label h hb]
      exact (takeRecordCredit_keepsLines s).trans (queueRecord_keepsLines ..)
    | true =>
      rw [formRecord_box h hb]
      exact boxFormed_keepsLines ..

/-! ### The records of a line -/

/-- A line whose beat is over, with what a withheld beat says of it (R104, R117, R644). -/
def lineClosed (s : State) (l : LineRec) : LineRec :=
  let m := closeLine s l
  if m.withheld then { m with uninsp := true, degraded := true } else m

/-- A line's flags enter the history, and its beat has no crops yet (R373, R376). -/
def lineFlagged (l : LineRec) (s : State) : State :=
  let t := markLine l.line (fun _ => l) s
  onSprue (fun x => { x with
    cropBeat := 0
    flagHist := (⟨l.line, lineFlags t { l with uninsp := l.uninsp || decide (segments t l = 0) }⟩ :: x.flagHist).take
      (4096 + t.img.nat Fld.d []) }) t

/-- A withheld beat's events and records are dropped (R104). -/
def withheldDropped (l : LineRec) (s : State) : State :=
  if l.withheld then
    dropEvents (s.spr.events.filter fun e => e.line == decisionLine s l.line).length (onSprue (fun x => { x with
      events := x.events.filter fun e => e.line != decisionLine s l.line
      toks := x.toks.filter fun t => t.beat != l.line }) s)
  else s

/-- The device as the labels and boxes of a line begin to be formed. -/
def lineOpened (l : LineRec) (s : State) : State :=
  withheldDropped (lineClosed s l) (lineFlagged (lineClosed s l) s)

/-- The labels and boxes of a line are formed (R370). -/
def recordsFormed (hist : List (Fin 256 × Ecc)) (l : LineRec) (s : State) : State :=
  (beatRecords (lineOpened l s) l.line).foldl (fun t r => formRecord hist (lineClosed s l) r t) (lineOpened l s)

/-- A line leaves the lines, and with it the records of its beat and of earlier ones. -/
def lineLeft (n : Nat) (s : State) : State :=
  progressed .fabric (onSprue (fun x => { x with
    lines := x.lines.filter fun y => y.line != n
    toks := x.toks.filter fun t => !linePast n t.beat }) s)

theorem closeLine_line (s l) : (closeLine s l).line = l.line := by
  unfold closeLine
  split <;> rfl

theorem lineClosed_line (s l) : (lineClosed s l).line = l.line := by
  unfold lineClosed
  dsimp only
  split <;> exact closeLine_line s l

theorem currentLine_line (s l) : (currentLine s l).line = l.line := by
  unfold currentLine
  cases h : s.spr.lines.find? fun x => x.line = l.line with
  | none => rfl
  | some m => simpa using List.find?_some h

/-- The records of a line: its labels and boxes, then its summary (R362, R370). -/
theorem formLine_eq (hist l stop s) : formLine hist l stop s =
    lineLeft l.line
      (queueLine (currentLine (recordsFormed hist l s) (lineClosed s l)) stop (recordsFormed hist l s)) := by
  simp only [formLine, recordsFormed, lineOpened, withheldDropped, lineFlagged, lineLeft, currentLine, lineClosed_line]
  rfl

theorem lineOpened_lineNumbers (l s) : lineNumbers (lineOpened l s) = lineNumbers s := by
  have flagged : lineNumbers (lineFlagged (lineClosed s l) s) = lineNumbers s :=
    markLine_lineNumbers (fun _ _ => rfl) s
  unfold lineOpened withheldDropped
  split <;> exact flagged

theorem lineOpened_cropBeat (l s) : (lineOpened l s).spr.cropBeat = 0 := by
  unfold lineOpened withheldDropped
  split <;> rfl

theorem recordsFormed_keepsLines (hist l s) : KeepsLines (lineOpened l s) (recordsFormed hist l s) :=
  List.foldlRecOn (motive := KeepsLines (lineOpened l s)) _ _ (keepsLines_of_spr rfl)
    fun t ht r _ => ht.trans (formRecord_keepsLines hist _ r t)

/-! ### The summary of a line -/

/-- Nothing differs but the egress block and the watchdogs. -/
def EgressOnly (s t : State) : Prop := ∃ net sys, t = { s with net := net, sys := sys }

theorem EgressOnly.trans {s t u : State} (h : EgressOnly s t) (k : EgressOnly t u) : EgressOnly s u := by
  obtain ⟨_, _, rfl⟩ := h
  obtain ⟨net, sys, rfl⟩ := k
  exact ⟨net, sys, rfl⟩

theorem queueRecord_egressOnly (r s) : EgressOnly s (queueRecord r s) := ⟨_, _, queueRecord_changes r s⟩

theorem flush_egressOnly (s) : EgressOnly s (flush s) := by
  unfold flush
  split
  · exact ⟨_, _, rfl⟩
  · exact ⟨_, _, closeDatagram_changes s⟩

/-- A summary takes the oldest fault code that waits; LEDGER and the status bit follow it (R364, R397). -/
theorem queueLine_changes (l stop s) : ∃ net sys uninsp sup, queueLine l stop s = { s with
    flt := { s.flt with sumQueue := s.flt.sumQueue.drop 1 }
    spr := { s.spr with lastLine := l.line, anySummary := true, uninspLines := uninsp, supBit := sup }
    net := net
    sys := sys } := by
  have ended (t : State) (r : State → List Byte) : EgressOnly t
      (if l.anchor then queueRecord (r (if stop then flush t else t)) (if stop then flush t else t)
        else if stop then flush t else t) := by
    have flushed : EgressOnly t (if stop then flush t else t) := by
      split
      · exact flush_egressOnly t
      · exact ⟨_, _, rfl⟩
    split
    · exact flushed.trans (queueRecord_egressOnly ..)
    · exact flushed
  have after : EgressOnly _ (queueLine l stop s) := ended (onSprue _ (queueRecord _ _)) (fun u => anchorBytes u _)
  obtain ⟨net, sys, e⟩ := after
  rw [e, queueRecord_changes]
  exact ⟨_, _, _, _, rfl⟩

/-- The summary record of a line that keeps its delivered fields (Table 10.2). -/
def summaryOf (s : State) (l : LineRec) : List Byte :=
  summaryBytes { l with uninsp := l.uninsp || segments s l == 0 }
    (lineFlags s { l with uninsp := l.uninsp || segments s l == 0 }) (s.flt.sumQueue.head?.getD 0) (segments s l) false

/-- The summary of a line without an anchor joins an open datagram that has room. -/
theorem queueLine_queue {l : LineRec} {s : State} (hb : l.noBeat = false) (ha : l.anchor = false)
    (hq : s.net.queue.length < 44) : (queueLine l false s).net.queue = s.net.queue ++ [summaryOf s l] := by
  cases l
  dsimp only at hb ha
  subst hb ha
  exact queueRecord_queue (s := { s with flt := { s.flt with sumQueue := s.flt.sumQueue.drop 1 } }) hq _

/-- When the oldest line's beat has ended, its records are formed (R362, R363). -/
theorem execSprueFormRecords_forms {s : State} {l : LineRec} {rest : List LineRec} (hw : working s = true)
    (hl : s.spr.lines = l :: rest) (he : l.exposed = true) (hb : beatEnded s l rest = true)
    (ht : tokensDue s l.line = false) (hist : List (Fin 256 × Ecc)) :
    execSprueFormRecords s hist = .next (formLine hist l (s.lt.stopped && rest.isEmpty) s) := by
  simp only [execSprueFormRecords, hl, hw, he, hb, ht, and_self, if_true]

/-- While the strip runs, the summary does not close the datagram (R147). -/
theorem execSprueFormRecords_runs {s : State} {l : LineRec} {rest : List LineRec} (hw : working s = true)
    (hl : s.spr.lines = l :: rest) (he : l.exposed = true) (hb : beatEnded s l rest = true)
    (ht : tokensDue s l.line = false) (hs : s.lt.stopped = false) (hist : List (Fin 256 × Ecc)) :
    execSprueFormRecords s hist = .next (formLine hist l false s) := by
  rw [execSprueFormRecords_forms hw hl he hb ht, hs, Bool.false_and]

theorem execSprueFormRecords_none {s : State} {hist : List (Fin 256 × Ecc)}
    (h : working s = false ∨ s.spr.lines = []) : execSprueFormRecords s hist = .next s := by
  unfold execSprueFormRecords
  split
  · rfl
  · next hl => exact if_neg fun ⟨hw, _⟩ => by simp [hl, hw] at h

theorem execSprueFormRecords_early {s : State} {l : LineRec} {rest : List LineRec} {hist : List (Fin 256 × Ecc)}
    (hl : s.spr.lines = l :: rest) (h : l.exposed = false ∨ beatEnded s l rest = false ∨ tokensDue s l.line = true) :
    execSprueFormRecords s hist = .next s := by
  simp only [execSprueFormRecords, hl]
  exact if_neg fun ⟨_, he, hb, ht⟩ => by simp [he, hb, ht] at h

/-- A formed line leaves the lines, the ledger names it, and no record of its beat waits any more (R362, R397). -/
theorem formLine_leaves (hist l stop s) :
    (formLine hist l stop s).spr.lines.map (·.line) = (s.spr.lines.map (·.line)).filter (· != l.line) ∧
      (formLine hist l stop s).spr.lastLine = l.line ∧ (formLine hist l stop s).spr.anySummary = true ∧
      (formLine hist l stop s).spr.cropBeat ≤ 65536 ∧
      ∀ x ∈ (formLine hist l stop s).spr.toks, linePast l.line x.beat = false := by
  obtain ⟨lines, crops⟩ := recordsFormed_keepsLines hist l s
  rw [lineOpened_lineNumbers] at lines
  obtain ⟨net, sys, uninsp, sup, e⟩ := queueLine_changes
    (currentLine (recordsFormed hist l s) (lineClosed s l)) stop (recordsFormed hist l s)
  rw [formLine_eq, e]
  refine ⟨?_, (currentLine_line ..).trans (lineClosed_line s l), rfl,
    crops (by rw [lineOpened_cropBeat]; exact Nat.zero_le _), fun x hx => ?_⟩
  · show List.map (·.line) ((recordsFormed hist l s).spr.lines.filter fun y => y.line != l.line) =
      (lineNumbers s).filter (· != l.line)
    rw [← lines, lineNumbers, List.filter_map]
    rfl
  · simpa using (List.mem_filter.mp hx).2

/-! ### A line whose beat ran -/

/-- The beat of the oldest line ran, its records are not withheld, and no other line has its number. -/
structure RanPlainly (s : State) (l : LineRec) (rest : List LineRec) : Prop where
  oldest : s.spr.lines = l :: rest
  ran : l.beatRan = true
  beat : l.noBeat = false
  kept : l.withheld = false
  only : ∀ x ∈ rest, x.line ≠ l.line

section
variable {s : State} {l : LineRec} {rest : List LineRec} {hist : List (Fin 256 × Ecc)}

theorem RanPlainly.closed (h : RanPlainly s l rest) : lineClosed s l = l := by
  have same : closeLine s l = l := if_neg (by simp [h.ran])
  rw [lineClosed, same]
  exact if_neg (by simp [h.kept])

/-- Opening such a line changes its flag history and the count of the beat's crops alone. -/
theorem RanPlainly.opened (h : RanPlainly s l rest) : lineOpened l s = { s with spr := { s.spr with
    cropBeat := 0, flagHist := (lineOpened l s).spr.flagHist } } := by
  have same : markLine l.line (fun _ => l) s = s := by
    have lines : s.spr.lines.map (fun x => if x.line = l.line then l else x) = s.spr.lines := by
      rw [h.oldest, List.map_cons, if_pos rfl]
      exact congrArg (l :: ·)
        ((List.map_congr_left (g := id) fun x hx => if_neg (h.only x hx)).trans (List.map_id _))
    rw [markLine, markLines, lines]
  rw [lineOpened, h.closed, withheldDropped, if_neg (by simp [h.kept]), lineFlagged, same]
  rfl

theorem RanPlainly.current (h : RanPlainly s l rest) {t : State} (ht : t.spr.lines = s.spr.lines) :
    currentLine t l = l := by
  rw [currentLine, ht, h.oldest]
  simp

/-- Such a line without a label or box is formed as it is opened. -/
theorem RanPlainly.formed_none (h : RanPlainly s l rest) (hr : beatRecords s l.line = []) :
    recordsFormed hist l s = lineOpened l s := by
  have due : beatRecords (lineOpened l s) l.line = [] := by rw [h.opened]; exact hr
  rw [recordsFormed, due, List.foldl_nil]

/-- The flags of a record are those of its line, the history and the device's condition. -/
theorem recordFlags_congr {s t : State} (hh : t.spr.flagHist = s.spr.flagHist) (hi : t.img = s.img)
    (hs : t.star = s.star) (hp : t.ptp = s.ptp) (l : LineRec) (beat line h row : Nat) (poison : Bool) :
    recordFlags t l beat line h row poison = recordFlags s l beat line h row poison := by
  simp only [recordFlags, spanFlags, beatCtx, deviceFlags, hh, hi, hs, hp]

/-- Once the labels and boxes of such a line have changed the Sprue and the egress block alone, its summary follows
them, and it leaves the lines (R362). -/
theorem RanPlainly.formed (h : RanPlainly s l rest) (ha : l.anchor = false) {x : Sprue} {y : Net}
    (hf : recordsFormed hist l s = { s with spr := x, net := y }) (hx : x.lines = s.spr.lines)
    (hq : y.queue.length < 44) : ∃ u, formLine hist l false s = u ∧
      u.flt = { s.flt with sumQueue := s.flt.sumQueue.drop 1 } ∧ u.spr.lines = rest ∧
      u.spr.recCredit = x.recCredit ∧ u.spr.boxId = x.boxId ∧ u.spr.own = x.own ∧ u.spr.flagHist = x.flagHist ∧
      u.net.queue = y.queue ++ [summaryOf s l] ∧ u.img = s.img ∧ u.star = s.star ∧ u.ptp = s.ptp := by
  have current : currentLine { s with spr := x, net := y } l = l := h.current hx
  obtain ⟨net, sys, uninsp, sup, e⟩ := queueLine_changes l false { s with spr := x, net := y }
  have queue := queueLine_queue (s := { s with spr := x, net := y }) h.beat ha hq
  rw [e] at queue
  have lines : x.lines.filter (fun z => z.line != l.line) = rest := by
    rw [hx, h.oldest, List.filter_cons_of_neg (by simp)]
    exact List.filter_eq_self.mpr fun z hz => by simpa using h.only z hz
  refine ⟨_, rfl, ?_⟩
  rw [formLine_eq, h.closed, hf, current, e]
  exact ⟨rfl, lines, rfl, rfl, rfl, rfl, queue, rfl, rfl, rfl⟩

/-- The one label or box of such a line is queued, and the summary follows it (R362, R370). -/
theorem RanPlainly.formed_one (h : RanPlainly s l rest) (ha : l.anchor = false) {t : TokRec}
    (hr : beatRecords s l.line = [t]) {r : List Byte} {v : State}
    (hf : formRecord hist l t (lineOpened l s) = queueRecord r v) (hv : v = { s with spr := v.spr })
    (hx : v.spr.lines = s.spr.lines) (hh : v.spr.flagHist = (lineOpened l s).spr.flagHist)
    (hq : s.net.queue.length < 43) : ∃ u, formLine hist l false s = u ∧ u.spr.recCredit = v.spr.recCredit ∧
      u.spr.boxId = v.spr.boxId ∧ u.spr.own = v.spr.own ∧ u.net.queue = s.net.queue ++ [r, summaryOf s l] ∧
      flagsOf (lineOpened l s) l t = recordFlags u l t.beat (decisionLine s t.beat) t.h t.row t.poison := by
  have due : beatRecords (lineOpened l s) l.line = [t] := by rw [h.opened]; exact hr
  have line : decisionLine (lineOpened l s) t.beat = decisionLine s t.beat := by rw [h.opened]; rfl
  have formed : recordsFormed hist l s =
      { s with spr := v.spr, net := { s.net with queue := s.net.queue ++ [r] } } := by
    rw [recordsFormed, due, List.foldl_cons, List.foldl_nil, h.closed, hf, hv]
    exact queueRecord_joins (s := { s with spr := v.spr }) (Nat.lt_succ_of_lt hq) r
  obtain ⟨u, hu, -, -, credit, number, own, hist, queue, img, star, ptp⟩ := h.formed ha formed hx
    (by rw [List.length_append]; exact Nat.succ_lt_succ hq)
  refine ⟨u, hu, credit, number, own, by rw [queue, List.append_assoc]; rfl, ?_⟩
  rw [flagsOf, line]
  refine recordFlags_congr (hh.symm.trans hist.symm) ?_ ?_ ?_ ..
  · rw [img, h.opened]
  · rw [star, h.opened]
  · rw [ptp, h.opened]

end

/-- Settles O39: each clause by the rule of its command above. -/
theorem sprueTakesTokensAndFormsLines : Obligations.SprueTakesTokensAndFormsLines := by
  unfold Obligations.SprueTakesTokensAndFormsLines
  refine ⟨fun s row col beat t rest parity hw hr ht he => TokenDue.leaves ⟨hw, hr, ht, he⟩ parity, ?record,
    fun s row col beat t rest box parity hw hr ht he hk => TokenDue.waits ⟨hw, hr, ht, he⟩ hk parity,
    fun s row col beat t rest parity hw hr ht he hv hp => TokenDue.degrades ⟨hw, hr, ht, he⟩ hv hp,
    ?joins, ?refused, ?alone, ?event, ?other, fun s row col parity h => execSprueToken_idle parity h,
    ?crop, ?cropQueue, fun s store h => execCropCopy_idle h, ?late, ?held, ?full, ?acts, ?off,
    fun s b h => execEventRelease_idle b h, ?line, ?summary, ?label, ?box,
    fun s hist h => execSprueFormRecords_none h, fun s l rest hist hl h => execSprueFormRecords_early hl h⟩
  case record =>
    intro s row col beat t rest box hw hr ht he hk hq
    have acts := actOn_record (s := tokenTaken row col rest s) (row := row.val) (col := col.val) (beat := beat) hk
    rw [tokenMarked_quiet hq] at acts
    exact ⟨_, TokenDue.acts_to ⟨hw, hr, ht, he⟩ acts, rfl⟩
  case joins =>
    intro s row col beat t rest pre post x hw hr ht he hk hv hs hx hpost hxv hxa
    have joined := attach_joins (poison := t.poison) (d := t.data) (pre := pre) hx hpost hxv hxa
    rw [← hs] at joined
    exact ⟨_, TokenDue.acts_to ⟨hw, hr, ht, he⟩ (actOn_attr (s := tokenTaken row col rest s) hk hv joined), rfl⟩
  case refused =>
    intro s row col beat t rest pre post x hw hr ht he hk hv hs hx hpost hxr
    have refused := attach_refused (poison := t.poison) (d := t.data) (pre := pre) hx hpost hxr
    rw [← hs] at refused
    exact ⟨_, TokenDue.acts_to ⟨hw, hr, ht, he⟩
      (actOn_attr_discard (s := tokenTaken row col rest s) hk hv refused), rfl⟩
  case alone =>
    intro s row col beat t rest hw hr ht he hk hv hn
    exact ⟨_, TokenDue.acts_to ⟨hw, hr, ht, he⟩
      (actOn_attr_discard (s := tokenTaken row col rest s) hk hv (attach_none hn)), rfl⟩
  case event =>
    intro s row col beat t rest hw hr ht he hk hv hm
    exact ⟨_, TokenDue.acts_to ⟨hw, hr, ht, he⟩ (actOn_event (s := tokenTaken row col rest s) hk hv hm), rfl⟩
  case other =>
    intro s row col beat t rest hw hr ht he hk hq
    exact ⟨_, TokenDue.acts_to ⟨hw, hr, ht, he⟩ (actOn_none (s := tokenTaken row col rest s) hq hk), rfl⟩
  case crop =>
    intro s c rest hw hc
    obtain ⟨u, hu, spru, fltu, -⟩ := execCropCopy_next hw hc .clean
    obtain ⟨v, hv, sprv, fltv, -⟩ := execCropCopy_next hw hc .corrected
    obtain ⟨w, hw', sprw, fltw, -⟩ := execCropCopy_next hw hc .uncorrectable
    refine ⟨u, v, w, hu, hv, hw', fltu, spru, ?_⟩
    rw [sprv, sprw, classCount_congr fltv, classCount_congr fltw, readStore_corrected, readStore_uncorrectable]
    exact ⟨rfl, rfl, rfl, rfl, rfl, rfl, rfl, rfl⟩
  case cropQueue =>
    intro s c rest hw hc hq
    obtain ⟨u, hu, -, -, queue⟩ := execCropCopy_next hw hc .clean
    obtain ⟨w, hw', -, -, queue'⟩ := execCropCopy_next hw hc .uncorrectable
    exact ⟨u, w, hu, hw', queue hq, queue' hq⟩
  case late =>
    intro s e rest hw hd
    exact ⟨_, execEventRelease_releases hw hd false, rfl, rfl, rfl⟩
  case held =>
    rintro s e rest k hw hd rfl hm ho hdelay hl
    exact ⟨_, (execEventRelease_releases hw hd true).trans
      (congrArg Host.Outcome.next (releaseToPort_holds (s := eventTaken rest s) hm ho hdelay hl)), rfl, rfl, rfl⟩
  case full =>
    rintro s e rest k hw hd rfl hm ho hdelay hl
    exact ⟨_, (execEventRelease_releases hw hd true).trans
      (congrArg Host.Outcome.next (releaseToPort_full (s := eventTaken rest s) hm ho hdelay hl)), rfl, rfl, rfl⟩
  case acts =>
    rintro s e rest k hw hd rfl hm ho hdelay
    obtain ⟨spr, counted, raised⟩ := portActs_acts (s := eventTaken rest s) hm ho (false, e.line)
    exact ⟨_, (execEventRelease_releases hw hd true).trans
      (congrArg Host.Outcome.next (releaseToPort_acts (s := eventTaken rest s) hm ho hdelay)),
      congrArg Sprue.events spr, counted, raised⟩
  case off =>
    rintro s e rest k hw hd rfl h
    exact (execEventRelease_releases hw hd true).trans
      (congrArg Host.Outcome.next (releaseToPort_off (s := eventTaken rest s) h))
  case line =>
    intro s l rest hist hw hl he hb ht
    exact ⟨_, execSprueFormRecords_forms hw hl he hb ht hist, formLine_leaves ..⟩
  case summary =>
    intro s l rest hist hw hl he hb ht hran hbeat hkept ha hone hstop hrec hq
    have plain : RanPlainly s l rest := ⟨hl, hran, hbeat, hkept, hone⟩
    have run := execSprueFormRecords_runs hw hl he hb ht hstop hist
    have formed := plain.formed_none (hist := hist) hrec
    rw [plain.opened] at formed
    obtain ⟨u, hu, flt, lines, credit, -, -, -, queue, -⟩ := plain.formed ha (y := s.net) formed rfl hq
    exact ⟨u, run.trans (congrArg Host.Outcome.next hu), flt, lines, credit, queue⟩
  case label =>
    intro s l rest hist t hw hl he hb ht hran hbeat hkept ha hone hstop hrec hlabel hcredit hq
    have plain : RanPlainly s l rest := ⟨hl, hran, hbeat, hkept, hone⟩
    have run := execSprueFormRecords_runs hw hl he hb ht hstop hist
    have formed := formRecord_label (s := lineOpened l s) (l := l) (hist := hist)
      (by rw [plain.opened]; exact hcredit) hlabel
    rw [plain.current (by rw [plain.opened])] at formed
    obtain ⟨u, hu, credit, -, -, queue, flags⟩ := plain.formed_one ha hrec formed (by rw [plain.opened]; rfl)
      (by rw [plain.opened]; rfl) (takeRecordCredit_flagHist _) hq
    refine ⟨u, run.trans (congrArg Host.Outcome.next hu), by rw [credit, plain.opened]; rfl, ?_⟩
    rw [queue, flags, plain.opened]
    rfl
  case box =>
    intro s l rest hist t hw hl he hb ht hran hbeat hkept ha hone hstop hrec hbox hcrop hseam hcredit hq
    have plain : RanPlainly s l rest := ⟨hl, hran, hbeat, hkept, hone⟩
    have run := execSprueFormRecords_runs hw hl he hb ht hstop hist
    have formed := formRecord_box (s := lineOpened l s) (l := l) (hist := hist)
      (by rw [plain.opened]; exact hcredit) hbox
    rw [plain.current (by rw [plain.opened]), boxFormed_plain hcrop (by rw [plain.opened]; exact hseam)] at formed
    obtain ⟨u, hu, credit, number, own, queue, flags⟩ := plain.formed_one ha hrec formed (by rw [plain.opened]; rfl)
      (by rw [plain.opened]; rfl) (boxNumbered_flagHist _) hq
    refine ⟨u, run.trans (congrArg Host.Outcome.next hu), by rw [credit, plain.opened]; rfl,
      by rw [number, plain.opened]; rfl, by rw [own, plain.opened]; rfl, ?_⟩
    rw [queue, flags, plain.opened]
    rfl

end Sys2Proof.Machine

/-! SUPPORT. The two egress lanes (family 11_egress.md): what a change of one lane leaves of the other, how a lane gains
and loses its lock and learns its next hop, and what its time path does to the servo. Settles O42. -/

namespace Sys2Proof.Machine

/-! ### One lane and the other -/

theorem laneIx_otherLane (l : LaneId) : laneIx (otherLane l) ≠ laneIx l := by
  cases l <;> decide

@[simp] theorem egLane_onLane (l f s) : egLane (onLane l f s) l = f (egLane s l) := vmod_same ..

@[simp] theorem egLane_onLane_otherLane (l f s) : egLane (onLane l f s) (otherLane l) = egLane s (otherLane l) :=
  vmod_other _ _ _ _ (laneIx_otherLane l)

/-- A lane is read off the egress block. -/
theorem egLane_congr {s t : State} (h : t.net = s.net) (l : LaneId) : egLane t l = egLane s l := by
  rw [egLane, egLane, h]

theorem onLane_onLane (l f g s) : onLane l f (onLane l g s) = onLane l (fun x => f (g x)) s := by
  simp only [onLane, vmod_vmod]

/-- Two changes that make the same of the lane are one. -/
theorem onLane_congr {s : State} {l : LaneId} {f g : Lane → Lane} (h : f (egLane s l) = g (egLane s l)) :
    onLane l f s = onLane l g s := by
  rw [egLane] at h
  rw [onLane, onLane, vmod, vmod, h]

/-- A change that leaves the lane as it is changes nothing. -/
theorem onLane_eq_self {s : State} {l : LaneId} {f : Lane → Lane} (h : f (egLane s l) = egLane s l) :
    onLane l f s = s := by
  rw [onLane, vmod_eq_self h]

/-! ### Hearing and usable -/

theorem laneHears_iff (s : State) (l : LaneId) : laneHears s l = true ↔ (egLane s l).up = true ∧
    (egLane s l).lock = true ∧ (egLane s l).rsFault = false ∧ clocked s = true ∧ reinitBusy .egress s = false := by
  simp [laneHears, and_assoc]

theorem laneUsable_iff (s : State) (l : LaneId) :
    laneUsable s l = true ↔ laneHears s l = true ∧ (egLane s l).nextMac.isSome = true := by
  rw [laneUsable, Bool.and_eq_true]

/-- Whether a lane hears is read off the lane and the SYS block. -/
theorem laneHears_congr {s t : State} {l : LaneId} (hl : egLane t l = egLane s l) (hs : t.sys = s.sys) :
    laneHears t l = laneHears s l := by
  rw [laneHears, laneHears, hl, clocked, clocked, reinitBusy, reinitBusy, hs]

theorem laneUsable_congr {s t : State} {l : LaneId} (hl : egLane t l = egLane s l) (hs : t.sys = s.sys) :
    laneUsable t l = laneUsable s l := by
  rw [laneUsable, laneUsable, laneHears_congr hl hs, hl]

/-- A change of a lane that keeps what R405 asks of it leaves it hearing as before. -/
theorem laneHears_onLane {s : State} {l : LaneId} {f : Lane → Lane} (hu : (f (egLane s l)).up = (egLane s l).up)
    (hl : (f (egLane s l)).lock = (egLane s l).lock) (hr : (f (egLane s l)).rsFault = (egLane s l).rsFault) :
    laneHears (onLane l f s) l = laneHears s l := by
  rw [laneHears, laneHears, egLane_onLane, hu, hl, hr]
  rfl

/-- A lane without a next hop is not usable (R405). -/
theorem laneUsable_of_nextMac_none {s : State} {l : LaneId} (h : (egLane s l).nextMac = none) :
    laneUsable s l = false := by
  rw [laneUsable, h, Option.isSome_none, Bool.and_false]

/-! ### Frames of a lane -/

/-- Frames leave the package, the last of them first in the list. -/
def sending (o : List Out) (s : State) : State := { s with out := o ++ s.out }

@[simp] theorem egLane_sending (o s l) : egLane (sending o s) l = egLane s l := rfl

@[simp] theorem laneHears_sending (o s l) : laneHears (sending o s) l = laneHears s l := rfl

theorem onLane_sending (l f o s) : onLane l f (sending o s) = sending o (onLane l f s) := rfl

theorem sending_sending (o p s) : sending o (sending p s) = sending (o ++ p) s := by
  simp only [sending, List.append_assoc]

/-- An ARP packet is written from the lane's addresses. -/
theorem arpFrame_congr {s t : State} {l : LaneId} (hc : (egLane t l).cfg = (egLane s l).cfg) (ho : t.otp = s.otp)
    (op : Nat) (mac : BitVec 48) (ip : BitVec 32) : arpFrame t l op mac ip = arpFrame s l op mac ip := by
  simp only [arpFrame, ethFrame, ownMac, hc, ho]

theorem arpFrame_onLane {s : State} {l : LaneId} {f : Lane → Lane} (h : (f (egLane s l)).cfg = (egLane s l).cfg)
    (op : Nat) (mac : BitVec 48) (ip : BitVec 32) : arpFrame (onLane l f s) l op mac ip = arpFrame s l op mac ip :=
  arpFrame_congr (s := s) (t := onLane l f s) (by rw [egLane_onLane, h]) rfl op mac ip

/-- A frame to the host is written from the lane's addresses and its next hop. -/
theorem hostFrame_congr {s t : State} {l : LaneId} (hc : (egLane t l).cfg = (egLane s l).cfg)
    (hn : (egLane t l).nextMac = (egLane s l).nextMac) (ho : t.otp = s.otp) (data : List Byte) :
    hostFrame t l data = hostFrame s l data := by
  simp only [hostFrame, udpFrame, ethFrame, ownMac, hc, hn, ho]

/-! ### The servo's view of the time paths -/

/-- Nothing has changed but the servo's side of the precision time block and what the Sprue is asked for; the exchange
of each lane is as before. -/
def ServoOnly (s t : State) : Prop := ∃ ptp spr, t = { s with ptp := ptp, spr := spr } ∧ ptp.pl = s.ptp.pl

theorem ServoOnly.refl (s) : ServoOnly s s := ⟨_, _, rfl, rfl⟩

theorem ServoOnly.trans {s t u : State} (h : ServoOnly s t) (k : ServoOnly t u) : ServoOnly s u := by
  obtain ⟨ptp, spr, rfl, hp⟩ := h
  obtain ⟨ptp', spr', rfl, hp'⟩ := k
  exact ⟨ptp', spr', rfl, hp'.trans hp⟩

theorem ServoOnly.ite {s t u : State} (h : ServoOnly s t) (k : ServoOnly s u) (c : Prop) [Decidable c] :
    ServoOnly s (if c then t else u) := by
  split
  · exact h
  · exact k

theorem setPtpState_servoOnly (n s) : ServoOnly s (setPtpState n s) := by
  unfold setPtpState
  split
  · exact .refl s
  · exact ⟨_, _, rfl, rfl⟩

theorem useLane_servoOnly (l s) : ServoOnly s (useLane l s) := by
  unfold useLane
  split
  · exact .refl s
  · exact ⟨_, _, rfl, rfl⟩

theorem noteA_servoOnly (s) : ServoOnly s (noteA s) := ⟨_, _, rfl, rfl⟩

/-- Failover, holdover and its end are the servo's alone (R430, R433). -/
theorem watchPaths_servoOnly (s) : ServoOnly s (watchPaths s) := by
  have left (c : Prop) [Decidable c] : ServoOnly s (if c then useLane .b (noteA s) else noteA s) :=
    ((noteA_servoOnly s).trans (useLane_servoOnly .b _)).ite (noteA_servoOnly s) c
  have held (t : State) : ServoOnly t (setPtpState 2 { rebase t with
      ptp := { (rebase t).ptp with goodRun := 0, lockedAt := none, slew := 0 } }) :=
    .trans ⟨_, _, rfl, rfl⟩ (setPtpState_servoOnly 2 _)
  exact (left _).trans ((held _).ite ((setPtpState_servoOnly 0 _).ite (.refl _) _) _)

section
variable {s t : State}

theorem ServoOnly.sys (h : ServoOnly s t) : t.sys = s.sys := by obtain ⟨_, _, rfl, -⟩ := h; rfl
theorem ServoOnly.net (h : ServoOnly s t) : t.net = s.net := by obtain ⟨_, _, rfl, -⟩ := h; rfl
theorem ServoOnly.out (h : ServoOnly s t) : t.out = s.out := by obtain ⟨_, _, rfl, -⟩ := h; rfl
theorem ServoOnly.flt (h : ServoOnly s t) : t.flt = s.flt := by obtain ⟨_, _, rfl, -⟩ := h; rfl
theorem ServoOnly.nvm (h : ServoOnly s t) : t.nvm = s.nvm := by obtain ⟨_, _, rfl, -⟩ := h; rfl

theorem ServoOnly.ptpLane (h : ServoOnly s t) (l : LaneId) : ptpLane t l = Machine.ptpLane s l := by
  obtain ⟨_, _, rfl, same⟩ := h
  rw [Machine.ptpLane, Machine.ptpLane, ← same]

end

@[simp] theorem watchPaths_sys (s) : (watchPaths s).sys = s.sys := (watchPaths_servoOnly s).sys
@[simp] theorem watchPaths_net (s) : (watchPaths s).net = s.net := (watchPaths_servoOnly s).net
@[simp] theorem watchPaths_out (s) : (watchPaths s).out = s.out := (watchPaths_servoOnly s).out
@[simp] theorem watchPaths_flt (s) : (watchPaths s).flt = s.flt := (watchPaths_servoOnly s).flt
@[simp] theorem watchPaths_nvm (s) : (watchPaths s).nvm = s.nvm := (watchPaths_servoOnly s).nvm

@[simp] theorem egLane_watchPaths (s l) : egLane (watchPaths s) l = egLane s l := egLane_congr (watchPaths_net s) l

@[simp] theorem laneUsable_watchPaths (s l) : laneUsable (watchPaths s) l = laneUsable s l :=
  laneUsable_congr (egLane_watchPaths s l) (watchPaths_sys s)

/-! ### Learning the next hop and announcing the address -/

theorem announce_due {l : LaneId} {s : State} (ha : (egLane s l).announced = false)
    (h : laneUsable s l = true ∨ (laneHears s l = true ∧ (egLane s l).cfg.fromImage = false)) :
    announce l s = emit (.frame l (arpFrame s l 1 0 (egLane s l).cfg.ip))
      (onLane l (fun x => { x with announced := true }) s) :=
  if_pos ⟨ha, h⟩

theorem announce_not_due {l : LaneId} {s : State} (h : (egLane s l).announced = true ∨
    (laneUsable s l = false ∧ (laneHears s l = true → (egLane s l).cfg.fromImage = true))) : announce l s = s := by
  refine if_neg ?_
  rintro ⟨ha, due⟩
  rcases h with h | ⟨hu, hf⟩
  · simp [h] at ha
  · rcases due with due | ⟨hh, hi⟩
    · simp [hu] at due
    · simp [hf hh] at hi

/-- A lane that hears may announce itself where it knows its next hop, or has SAFE addresses (R403, Table 15.8). -/
def speaks (x : Lane) : Bool := x.nextMac.isSome || !x.cfg.fromImage

theorem announce_hears {l : LaneId} {s : State} (h : laneHears s l = true) (ha : (egLane s l).announced = false) :
    announce l s = sending (if speaks (egLane s l) then [.frame l (arpFrame s l 1 0 (egLane s l).cfg.ip)] else [])
      (onLane l (fun x => { x with announced := speaks x }) s) := by
  have usable : laneUsable s l = (egLane s l).nextMac.isSome := by rw [laneUsable, h, Bool.true_and]
  cases hb : speaks (egLane s l)
  case true =>
    have told : onLane l (fun x => { x with announced := speaks x }) s =
        onLane l (fun x => { x with announced := true }) s := onLane_congr (by rw [hb])
    rw [announce_due ha (by rw [usable, h]; simpa [speaks] using hb), told]
    rfl
  case false =>
    obtain ⟨unknown, image⟩ : (egLane s l).nextMac.isSome = false ∧ (egLane s l).cfg.fromImage = true := by
      simpa only [speaks, Bool.or_eq_false_iff, Bool.not_eq_false'] using hb
    have told : onLane l (fun x => { x with announced := speaks x }) s = s :=
      onLane_eq_self (by rw [hb, ← ha])
    rw [announce_not_due (.inr ⟨usable.trans unknown, fun _ => image⟩), told]
    rfl

/-- A lane with the MAC address of its next hop (R404). -/
def hopKnown (mac : BitVec 48) (x : Lane) : Lane := { x with nextMac := some mac }

/-- A lane that has announced its address (R403). -/
def spoken (x : Lane) : Lane := { x with announced := true }

/-- What a lane sends that learns its next hop: its announcement, unless it has announced itself (R403). -/
def announcement (s : State) (l : LaneId) : List Out :=
  if (egLane s l).announced then [] else [.frame l (arpFrame s l 1 0 (egLane s l).cfg.ip)]

/-- A lane that hears becomes usable with the MAC address of its next hop, and announces itself once (R403 to R405). -/
theorem learnMac_hears {l : LaneId} {s : State} (h : laneHears s l = true) (mac : BitVec 48) :
    learnMac l mac s = sending (announcement s l) (onLane l (fun x => spoken (hopKnown mac x)) s) := by
  have known : egLane (onLane l (hopKnown mac) s) l = hopKnown mac (egLane s l) := egLane_onLane ..
  have usable : laneUsable (onLane l (hopKnown mac) s) l = true := by
    rw [laneUsable_iff, laneHears_onLane rfl rfl rfl, known]
    exact ⟨h, rfl⟩
  show announce l (onLane l (hopKnown mac) s) = _
  cases ha : (egLane s l).announced
  case false =>
    rw [announce_due (by rw [known]; exact ha) (.inl usable), known,
      arpFrame_onLane (f := hopKnown mac) rfl, announcement, ha]
    show emit _ (onLane l spoken _) = _
    rw [onLane_onLane]
    rfl
  case true =>
    have same : onLane l (fun x => spoken (hopKnown mac x)) s = onLane l (hopKnown mac) s :=
      onLane_congr (by rw [spoken, ← ha]; rfl)
    rw [announce_not_due (.inl (by rw [known]; exact ha)), same, announcement, ha]
    rfl

/-! ### Asking for the next hop -/

/-- The ARP request for the next hop, where there is one to ask for (R404). -/
def question (s : State) (l : LaneId) : List Out :=
  if nextHop (egLane s l).cfg ≠ 0 then [.frame l (arpFrame s l 1 0 (nextHop (egLane s l).cfg))] else []

theorem askNextHop_hears {l : LaneId} {s : State} (h : laneHears s l = true) (hm : (egLane s l).cfg.hopMac = none) :
    askNextHop l s = sending (question s l) s := by
  have asked : laneHears s l = true ∧ (egLane s l).cfg.hopMac.isNone = true := ⟨h, by rw [hm]; rfl⟩
  rw [askNextHop, question]
  by_cases hn : nextHop (egLane s l).cfg = 0
  · rw [if_neg (fun k => k.2.2 hn), if_neg (not_not.mpr hn)]
    rfl
  · rw [if_pos ⟨asked.1, asked.2, hn⟩, if_pos hn]
    rfl

theorem askNextHop_idle {l : LaneId} {s : State}
    (h : laneHears s l = false ∨ (egLane s l).cfg.hopMac ≠ none ∨ nextHop (egLane s l).cfg = 0) :
    askNextHop l s = s := by
  refine if_neg ?_
  rintro ⟨hears, none, hop⟩
  rcases h with h | h | h
  · simp [h] at hears
  · exact h (Option.isNone_iff_eq_none.mp none)
  · exact hop h

/-! ### Gaining block lock -/

/-- A lane that has just gained block lock (R405). -/
def lockGained (x : Lane) : Lane := { x with lock := true, rsFault := false, announced := false }

/-- A lane that is up is without block lock or has a fault of its reconciliation sublayer, and may have them end
(R66, R405, R439). -/
structure AwaitsLock (s : State) (l : LaneId) : Prop where
  up : (egLane s l).up = true
  waits : (egLane s l).lock = false ∨ (egLane s l).rsFault = true
  clock : clocked s = true
  free : reinitBusy .egress s = false

theorem gainLock_idle {s : State} {l : LaneId} (h : (egLane s l).up = false ∨
    ((egLane s l).lock = true ∧ (egLane s l).rsFault = false) ∨ clocked s = false ∨ reinitBusy .egress s = true) :
    gainLock l s = s :=
  if_pos h

section
variable {s : State} {l : LaneId}

/-- What a lane does once its lock is there: its next hop is the fixed one, or it asks for it (R404). -/
theorem AwaitsLock.gains (h : AwaitsLock s l) : gainLock l s = match (egLane s l).cfg.hopMac with
    | some m => learnMac l m (onLane l lockGained s)
    | none => announce l (askNextHop l (onLane l lockGained s)) := by
  refine if_neg ?_
  rintro (up | ⟨lock, ok⟩ | clock | busy)
  · simp [h.up] at up
  · rcases h.waits with w | w
    · simp [w] at lock
    · simp [w] at ok
  · simp [h.clock] at clock
  · simp [h.free] at busy

theorem AwaitsLock.hears (h : AwaitsLock s l) : laneHears (onLane l lockGained s) l = true := by
  rw [laneHears_iff, egLane_onLane]
  exact ⟨h.up, rfl, rfl, h.clock, h.free⟩

/-- With a fixed next-hop MAC block lock makes the lane usable, and it announces itself (R403 to R405). -/
theorem AwaitsLock.fixed (h : AwaitsLock s l) {m : BitVec 48} (hm : (egLane s l).cfg.hopMac = some m) :
    gainLock l s = sending [.frame l (arpFrame s l 1 0 (egLane s l).cfg.ip)]
      (onLane l (fun x => spoken (hopKnown m (lockGained x))) s) := by
  have gained : egLane (onLane l lockGained s) l = lockGained (egLane s l) := egLane_onLane ..
  rw [h.gains, hm]
  dsimp only
  rw [learnMac_hears h.hears, onLane_onLane, announcement, gained,
    arpFrame_onLane (f := lockGained) rfl]
  rfl

/-- A lane that has gained block lock, and has announced itself where it may. -/
def lockTold (x : Lane) : Lane := { x with lock := true, rsFault := false, announced := speaks x }

/-- With a next hop to be resolved the lane is usable by a MAC address it knows already (R405). -/
theorem AwaitsLock.usable_told (h : AwaitsLock s l) (o : List Out) :
    laneUsable (sending o (onLane l lockTold s)) l = (egLane s l).nextMac.isSome := by
  have hears : laneHears (onLane l lockTold s) l = true := by
    rw [laneHears_iff, egLane_onLane]
    exact ⟨h.up, rfl, rfl, h.clock, h.free⟩
  rw [laneUsable, laneHears_sending, hears, egLane_sending, egLane_onLane, Bool.true_and]
  rfl

/-- With a next hop to be resolved the lane asks for it, and announces itself where it may (R403, R404). -/
theorem AwaitsLock.resolved (h : AwaitsLock s l) (hm : (egLane s l).cfg.hopMac = none) :
    gainLock l s = sending ((if speaks (egLane s l) then [.frame l (arpFrame s l 1 0 (egLane s l).cfg.ip)] else []) ++
      question s l) (onLane l lockTold s) := by
  have gained : egLane (onLane l lockGained s) l = lockGained (egLane s l) := egLane_onLane ..
  have frame (ip : BitVec 32) : arpFrame (onLane l lockGained s) l 1 0 ip = arpFrame s l 1 0 ip :=
    arpFrame_onLane (f := lockGained) rfl 1 0 ip
  have asked : question (onLane l lockGained s) l = question s l := by
    rw [question, gained, frame]
    rfl
  have said (o : List Out) (ip : BitVec 32) :
      arpFrame (sending o (onLane l lockGained s)) l 1 0 ip = arpFrame s l 1 0 ip := frame ip
  rw [h.gains, hm]
  dsimp only
  rw [askNextHop_hears h.hears (by rw [gained]; exact hm), asked,
    announce_hears ((laneHears_sending ..).trans h.hears) (by rw [egLane_sending, gained]; rfl), egLane_sending, gained,
    said, onLane_sending, onLane_onLane, sending_sending]
  rfl

end

/-! ### Losing it -/

/-- A lane that is down: its next hop unknown, what waited for it counted and dropped (R404, R405, R411). -/
def downed (x : Lane) : Lane := { x with
  nextMac := none, announced := false, skipped := satAdd 32 x.txq.length x.skipped, txq := [], serve := [] }

theorem laneDown_eq (l s) : laneDown l s = lockLane l (onLane l downed s) := by
  rw [laneDown, dropLaneWork, onLane_onLane]
  rfl

@[simp] theorem releaseLock_ptp (s : State) : (releaseLock s).ptp = s.ptp := by rw [releaseLock_changes]

/-- The end of a session lock leaves the lanes, the clocks and the faults alone. -/
theorem lockLane_keeps {α : Type} (f : State → α) (h : ∀ t, f (releaseLock t) = f t) (l s) :
    f (lockLane l s) = f s := by
  rw [lockLane]
  split
  · exact h s
  · rfl

/-- The session lock held on the lane ends, another stays (R637). -/
theorem lockLane_nvm (l s) : (heldOn l s = true → (lockLane l s).nvm.locked = false) ∧
    (heldOn l s = false → (lockLane l s).nvm = s.nvm) := by
  rw [lockLane]
  refine ⟨fun h => ?_, fun h => ?_⟩
  · rw [if_pos h, releaseLock_locked]
  · rw [if_neg (by simp [h])]

/-- A lane is lost: the fault is reported, the lane changes as `f` says and is down (R405, R637, Table 3.1). -/
def lost (l : LaneId) (f : Lane → Lane) (s : State) : State :=
  lockLane l (onLane l (fun x => downed (f x)) (report (faultCode 0x40 (laneIx l).val) s))

/-- A lane without its block lock, the loss counted (R405). -/
def unlocked (x : Lane) : Lane := { x with lock := false, rsFault := false, lockLoss := satInc 32 x.lockLoss }

/-- A lane with a fault of its reconciliation sublayer (R405). -/
def rsFaulted (x : Lane) : Lane := { x with rsFault := true }

theorem execBlockLockLoss_loses {l : LaneId} {s : State} (h : (egLane s l).lock = true) :
    execBlockLockLoss l s false = .next (watchPaths (lost l unlocked s)) := by
  show Host.Outcome.next (watchPaths (loseLock l s)) = _
  rw [loseLock, if_neg (by simp [h]), laneDown_eq, onLane_onLane]
  rfl

theorem execBlockLockLoss_faults {l : LaneId} {s : State} (h : (egLane s l).lock = true)
    (hr : (egLane s l).rsFault = false) :
    execBlockLockLoss l s true = .next (watchPaths (lost l rsFaulted s)) := by
  show Host.Outcome.next (watchPaths (faultLane l s)) = _
  rw [faultLane, if_neg (by simp [h, hr]), laneDown_eq, onLane_onLane]
  rfl

theorem execBlockLockLoss_idle {l : LaneId} {s : State} {rs : Bool}
    (h : (egLane s l).lock = false ∨ (rs = true ∧ (egLane s l).rsFault = true)) :
    execBlockLockLoss l s rs = .next (watchPaths s) := by
  have same : (if rs = true then faultLane l s else loseLock l s) = s := by
    cases rs
    case false => exact if_pos (h.resolve_right (by simp))
    case true => exact if_pos (h.imp id And.right)
  rw [execBlockLockLoss, same]

section
variable (l : LaneId) (f : Lane → Lane) (s : State)

theorem lost_egLane : egLane (lost l f s) l = downed (f (egLane s l)) := by
  rw [lost, lockLane_keeps (egLane · l) fun t => egLane_congr (releaseLock_net t) l, egLane_onLane,
    egLane_congr (report_net ..)]

theorem lost_egLane_otherLane : egLane (lost l f s) (otherLane l) = egLane s (otherLane l) := by
  rw [lost, lockLane_keeps (egLane · (otherLane l)) fun t => egLane_congr (releaseLock_net t) _,
    egLane_onLane_otherLane, egLane_congr (report_net ..)]

theorem lost_sys : (lost l f s).sys = s.sys :=
  (lockLane_keeps State.sys releaseLock_sys l _).trans (report_sys ..)

theorem lost_ptp : (lost l f s).ptp = s.ptp :=
  (lockLane_keeps State.ptp releaseLock_ptp l _).trans (report_ptp ..)

theorem lost_nvm : (heldOn l s = true → (lost l f s).nvm.locked = false) ∧
    (heldOn l s = false → (lost l f s).nvm = s.nvm) := by
  have same : (onLane l (fun x => downed (f x)) (report (faultCode 0x40 (laneIx l).val) s)).nvm = s.nvm :=
    (onLane_nvm ..).trans (report_nvm ..)
  have ended := lockLane_nvm l (onLane l (fun x => downed (f x)) (report (faultCode 0x40 (laneIx l).val) s))
  rw [heldOn, same] at ended
  exact ended

theorem lost_classCount : classCount (lost l f s) 0x40 = satInc 32 (classCount s 0x40) :=
  (classCount_congr (lockLane_keeps State.flt releaseLock_flt l _) _).trans
    (classCount_report_faultCode (by decide) _ s)

theorem lost_unusable : laneUsable (lost l f s) l = false :=
  laneUsable_of_nextMac_none (by rw [lost_egLane]; rfl)

/-- What the loss of a lane leaves behind once the servo has taken note of it (R405, R430, R637). -/
theorem watchPaths_lost : laneUsable (watchPaths (lost l f s)) l = false ∧
    egLane (watchPaths (lost l f s)) l = downed (f (egLane s l)) ∧
    egLane (watchPaths (lost l f s)) (otherLane l) = egLane s (otherLane l) ∧
    (heldOn l s = true → (watchPaths (lost l f s)).nvm.locked = false) ∧
    (heldOn l s = false → (watchPaths (lost l f s)).nvm = s.nvm) ∧
    classCount (watchPaths (lost l f s)) 0x40 = satInc 32 (classCount s 0x40) := by
  simp only [laneUsable_watchPaths, egLane_watchPaths, watchPaths_nvm, classCount_congr (watchPaths_flt _)]
  exact ⟨lost_unusable l f s, lost_egLane l f s, lost_egLane_otherLane l f s, (lost_nvm l f s).1, (lost_nvm l f s).2,
    lost_classCount l f s⟩

end

/-! ### ARP packets -/

/-- ARP_CONFLICT after a packet of `mac` and `ip` (R406). -/
def conflicts (s : State) (l : LaneId) (mac : BitVec 48) (ip : BitVec 32) : Nat :=
  if ip = (egLane s l).cfg.ip ∧ mac ≠ ownMac s l then satInc 32 (egLane s l).arpConflict else (egLane s l).arpConflict

/-- A lane that has seen an ARP packet, before it learns from it (R406). -/
def claimSeen (n : Nat) (x : Lane) : Lane := { x with arpConflict := n }

section
variable {s : State} {l : LaneId} {ip : BitVec 32}

/-- A claim on the own address is counted, and the next hop's MAC address taken (R404, R406). -/
theorem seeArp_eq (mac) : seeArp l mac ip s =
    if ip = nextHop (egLane s l).cfg ∧ ip ≠ 0 then learnMac l mac (onLane l (claimSeen (conflicts s l mac ip)) s)
    else onLane l (claimSeen (conflicts s l mac ip)) s := by
  have seen : (if ip = (egLane s l).cfg.ip ∧ mac ≠ ownMac s l then
      onLane l (fun x => { x with arpConflict := satInc 32 x.arpConflict }) s else s) =
      onLane l (claimSeen (conflicts s l mac ip)) s := by
    rw [conflicts]
    split
    · exact onLane_congr rfl
    · exact (onLane_eq_self rfl).symm
  rw [← seen]
  rfl

theorem seeArp_stranger (h : ip ≠ nextHop (egLane s l).cfg ∨ ip = 0) (mac) :
    seeArp l mac ip s = onLane l (claimSeen (conflicts s l mac ip)) s := by
  rw [seeArp_eq, if_neg]
  rintro ⟨hop, some⟩
  exact h.elim (· hop) some

/-- An ARP packet of the next hop makes a lane that hears usable (R404, R405). -/
theorem seeArp_nextHop (hh : laneHears s l = true) (hi : ip = nextHop (egLane s l).cfg) (h0 : ip ≠ 0) (mac) :
    seeArp l mac ip s = sending (announcement s l)
      (onLane l (fun x => spoken (hopKnown mac (claimSeen (conflicts s l mac ip) x))) s) := by
  have frame (k : Nat) : announcement (onLane l (claimSeen k) s) l = announcement s l := by
    rw [announcement, egLane_onLane, arpFrame_onLane (f := claimSeen k) rfl]
    rfl
  rw [seeArp_eq, if_pos ⟨hi, h0⟩, learnMac_hears ((laneHears_onLane rfl rfl rfl).trans hh), frame, onLane_onLane]

/-- The answer of a lane to a request for `target` (R403). -/
def arpAnswer (s : State) (l : LaneId) (mac : BitVec 48) (ip target : BitVec 32) : List Out :=
  if target = (egLane s l).cfg.ip then [.frame l (arpFrame s l 2 mac ip)] else []

/-- A request is seen as every ARP packet is, and answered when it is for the own address (R403). -/
theorem arpRequest_hears {u : State} {mac} (hh : laneHears s l = true) (hu : seeArp l mac ip s = u)
    (hc : (egLane u l).cfg = (egLane s l).cfg) (ho : u.otp = s.otp) (target) :
    arpRequest l mac ip target s = sending (arpAnswer s l mac ip target) u := by
  rw [arpRequest, if_neg (by simp [hh]), hu]
  dsimp only
  rw [hc, arpFrame_congr hc ho, arpAnswer]
  split <;> rfl

theorem arpRequest_deaf (h : laneHears s l = false) (mac ip target) : arpRequest l mac ip target s = s :=
  if_pos h

end

/-! ### Next hops and locks -/

/-- A lane that hears is usable once it has the MAC address of its next hop (R405). -/
theorem laneUsable_spoken {s : State} {l : LaneId} {f : Lane → Lane} {mac : BitVec 48} {o : List Out}
    (h : laneHears (onLane l f s) l = true) :
    laneUsable (sending o (onLane l (fun x => spoken (hopKnown mac (f x))) s)) l = true := by
  rw [laneUsable_iff, laneHears_sending, egLane_sending, ← onLane_onLane (f := fun x => spoken (hopKnown mac x)),
    laneHears_onLane rfl rfl rfl, egLane_onLane]
  exact ⟨h, rfl⟩

/-- Settles O42: each clause by what its command makes of the lane, as the servo then finds it. -/
theorem locksAndArpMakeLanesUsable : Obligations.LocksAndArpMakeLanesUsable := by
  unfold Obligations.LocksAndArpMakeLanesUsable
  refine ⟨?fixed, ?resolved, ?idle, ?loss, ?fault, ?lossIdle, ?request, ?requestHop, ?requestDeaf, ?packet, ?packetHop,
    ?packetDeaf, ?ask, fun s l h => congrArg Host.Outcome.next (askNextHop_idle h)⟩
  case fixed =>
    intro s l m hup hw hc hr hm
    have h : AwaitsLock s l := ⟨hup, hw, hc, hr⟩
    refine ⟨_, rfl, ?_⟩
    rw [h.fixed hm, egLane_watchPaths, laneUsable_watchPaths, egLane_watchPaths, watchPaths_out, watchPaths_flt]
    exact ⟨egLane_onLane .., laneUsable_spoken h.hears, rfl, egLane_onLane_otherLane .., rfl⟩
  case resolved =>
    intro s l hup hw hc hr hm
    have h : AwaitsLock s l := ⟨hup, hw, hc, hr⟩
    refine ⟨_, rfl, ?_⟩
    rw [h.resolved hm, egLane_watchPaths, laneUsable_watchPaths, egLane_watchPaths, watchPaths_out, watchPaths_flt]
    exact ⟨egLane_onLane .., h.usable_told _, rfl, egLane_onLane_otherLane .., rfl⟩
  case idle =>
    intro s l h
    refine ⟨_, rfl, ?_⟩
    rw [gainLock_idle h, watchPaths_net, watchPaths_out, watchPaths_flt, watchPaths_nvm]
    exact ⟨rfl, rfl, rfl, rfl⟩
  case loss =>
    intro s l h
    exact ⟨_, execBlockLockLoss_loses h, watchPaths_lost ..⟩
  case fault =>
    intro s l h hr
    exact ⟨_, execBlockLockLoss_faults h hr, watchPaths_lost ..⟩
  case lossIdle =>
    intro s l rs h
    exact ⟨_, execBlockLockLoss_idle h, watchPaths_net s, watchPaths_out s, watchPaths_flt s, watchPaths_nvm s⟩
  case request =>
    intro s l mac ip target hh hi
    refine ⟨_, congrArg (fun t => Host.Outcome.next (watchPaths t))
      (arpRequest_hears hh (seeArp_stranger hi mac) (by rw [egLane_onLane]; rfl) rfl target), ?_⟩
    rw [egLane_watchPaths, egLane_watchPaths, watchPaths_out, watchPaths_flt, watchPaths_nvm]
    exact ⟨egLane_onLane .., rfl, egLane_onLane_otherLane .., rfl, rfl⟩
  case requestHop =>
    intro s l mac ip target hh hi h0
    refine ⟨_, congrArg (fun t => Host.Outcome.next (watchPaths t))
      (arpRequest_hears hh (seeArp_nextHop hh hi h0 mac) (by rw [egLane_sending, egLane_onLane]; rfl) rfl target), ?_⟩
    rw [laneUsable_watchPaths, egLane_watchPaths, egLane_watchPaths, watchPaths_out, watchPaths_flt, watchPaths_nvm,
      sending_sending]
    exact ⟨laneUsable_spoken ((laneHears_onLane rfl rfl rfl).trans hh), egLane_onLane .., rfl,
      egLane_onLane_otherLane .., rfl, rfl⟩
  case requestDeaf =>
    intro s l mac ip target h
    refine ⟨_, congrArg (fun t => Host.Outcome.next (watchPaths t)) (arpRequest_deaf h mac ip target),
      watchPaths_net s, watchPaths_out s, watchPaths_flt s, watchPaths_nvm s⟩
  case packet =>
    intro s l mac ip hh hi
    refine ⟨_, congrArg (fun t => Host.Outcome.next (watchPaths t)) (if_pos hh), ?_⟩
    rw [seeArp_stranger hi, egLane_watchPaths, egLane_watchPaths, watchPaths_out, watchPaths_flt, watchPaths_nvm]
    exact ⟨egLane_onLane .., rfl, egLane_onLane_otherLane .., rfl, rfl⟩
  case packetHop =>
    intro s l mac ip hh hi h0
    refine ⟨_, congrArg (fun t => Host.Outcome.next (watchPaths t)) (if_pos hh), ?_⟩
    rw [seeArp_nextHop hh hi h0, laneUsable_watchPaths, egLane_watchPaths, egLane_watchPaths, watchPaths_out,
      watchPaths_flt, watchPaths_nvm]
    exact ⟨laneUsable_spoken ((laneHears_onLane rfl rfl rfl).trans hh), egLane_onLane .., rfl,
      egLane_onLane_otherLane .., rfl, rfl⟩
  case packetDeaf =>
    intro s l mac ip h
    exact ⟨_, congrArg (fun t => Host.Outcome.next (watchPaths t)) (if_neg (by simp [h])), watchPaths_net s,
      watchPaths_out s, watchPaths_flt s, watchPaths_nvm s⟩
  case ask =>
    intro s l hh hm hn
    refine congrArg Host.Outcome.next ((askNextHop_hears hh hm).trans ?_)
    rw [question, if_pos hn]
    rfl

end Sys2Proof.Machine

/-! SUPPORT. Result datagrams, the replay ring and retries (family 11_egress.md): what a closing datagram leaves in the
egress block, what the ring holds and finds, and how a retry request is judged and answered. Settles O41. -/

namespace Sys2Proof.Machine

/-! ### A datagram closes -/

/-- The datagram the open records make (R407, R410). -/
def openDatagram (s : State) : Datagram :=
  { Datagram.reset with
    seq := s.net.seq
    recs := s.net.queue
    state := stateCode s.sys.code
    source := BitVec.ofNat 16 (ownId s)
    stream := s.net.stream
    closed := s.now }

/-- What a closing datagram does to a lane: it waits there where the lane is usable, else it is skipped (R411). -/
def offered (s : State) (l : LaneId) (x : Lane) : Lane :=
  if laneUsable s l then { x with txq := x.txq ++ [s.net.seq] } else { x with skipped := satInc 32 x.skipped }

/-- The two lanes when the datagram has closed. -/
def offeredLanes (s : State) : Vector Lane 2 :=
  vmod (vmod s.net.lane (laneIx .a) (offered s .a)) (laneIx .b) (offered s .b)

theorem closeDatagram_net (s : State) : (closeDatagram s).net = { s.net with
    lane := offeredLanes s
    seq := (s.net.seq + 1) % 2 ^ 48
    queue := []
    ring := ringFit (ringNow s ++ [openDatagram s]) } := by
  have put (l : LaneId) (t : State) : (if laneUsable s l then
        onLane l (fun x => { x with txq := x.txq ++ [s.net.seq] }) t
      else onLane l (fun x => { x with skipped := satInc 32 x.skipped }) t) = onLane l (offered s l) t := by
    unfold offered
    split <;> rfl
  simp only [closeDatagram, lanes, List.foldl_cons, List.foldl_nil, put]
  rfl

theorem closeDatagram_egLane (s : State) (l : LaneId) : egLane (closeDatagram s) l = offered s l (egLane s l) := by
  rw [egLane, closeDatagram_net]
  cases l
  case a => exact (vmod_other _ _ _ _ (by decide)).trans (vmod_same ..)
  case b => exact (vmod_same ..).trans (congrArg _ (vmod_other _ _ _ _ (by decide)))

/-- The open records leave as the next live datagram: its number is used, the ring holds it, the usable lanes have it to
send, and nothing outside the egress block and its watchdog changes (R408, R410, R411, R415). -/
theorem closeDatagram_closes (s : State) : (closeDatagram s).net.seq = (s.net.seq + 1) % 2 ^ 48 ∧
    (closeDatagram s).net.queue = [] ∧
    (closeDatagram s).net.ring = ringFit (ringNow s ++ [openDatagram s]) ∧
    (∀ l, egLane (closeDatagram s) l = if laneUsable s l then { egLane s l with txq := (egLane s l).txq ++ [s.net.seq] }
      else { egLane s l with skipped := satInc 32 (egLane s l).skipped }) ∧
    (closeDatagram s).flt = s.flt ∧ (closeDatagram s).ptp = s.ptp ∧ (closeDatagram s).spr = s.spr := by
  refine ⟨rfl, rfl, ?_, closeDatagram_egLane s, ?_, ?_, ?_⟩
  · rw [closeDatagram_net]
  all_goals rw [closeDatagram_changes]

theorem execFlushTimeout_closes {s : State} (hw : working s = true) (hq : s.net.queue ≠ []) :
    execFlushTimeout s = .next (closeDatagram s) := by
  rw [execFlushTimeout, if_pos hw, flush, if_neg (by simpa using hq)]

theorem execFlushTimeout_idle {s : State} (h : working s = false ∨ s.net.queue = []) :
    execFlushTimeout s = .next s := by
  rw [execFlushTimeout, flush]
  rcases h with h | h <;> simp [h]

theorem execKeepalive_closes {s : State} (hw : working s = true) (hq : s.net.queue = []) :
    execKeepalive s = .next (closeDatagram s) := by
  simp [execKeepalive, hw, hq]

theorem execKeepalive_idle {s : State} (h : working s = false ∨ s.net.queue ≠ []) : execKeepalive s = .next s := by
  rcases h with h | h <;> simp [execKeepalive, h]

/-! ### The replay ring -/

/-- The ring is what is left of the datagrams once the oldest have made room (R415). -/
theorem ringFit_fits (r : List Datagram) : ringSize (ringFit r) ≤ 33554432 ∧ ∃ n, ringFit r = r.drop n := by
  induction r with
  | nil => exact ⟨by decide, 0, rfl⟩
  | cons d r ih =>
    rw [ringFit]
    split
    · next fits => exact ⟨fits, 0, rfl⟩
    · obtain ⟨size, n, e⟩ := ih
      exact ⟨size, n + 1, e⟩

/-- A datagram the ring finds is in it, has the number, and is at most 128 ms old (R415). -/
theorem ringFind_some {s : State} {n : Nat} {d : Datagram} (h : ringFind s n = some d) :
    d ∈ s.net.ring ∧ d.seq = n ∧ s.now ≤ d.closed + ms 128 := by
  obtain ⟨held, young⟩ := List.mem_filter.mp (List.mem_of_find?_eq_some h)
  exact ⟨held, by simpa using List.find?_some h, by simpa using young⟩

/-- The ring is searched by the egress block and the moment alone. -/
theorem ringFind_onLane (l f s n) : ringFind (onLane l f s) n = ringFind s n := rfl

theorem execRingAgeOut_drops {s : State} {d : Datagram} {rest : List Datagram} (h : s.net.ring = d :: rest)
    (old : d.closed + ms 64 ≤ s.now) : execRingAgeOut s = .next { s with net := { s.net with ring := rest } } := by
  rw [execRingAgeOut, h]
  exact if_neg (Nat.not_lt.mpr old)

theorem execRingAgeOut_young {s : State} (h : s.net.ring.all (fun d => decide (s.now < d.closed + ms 64)) = true) :
    execRingAgeOut s = .next s := by
  rw [execRingAgeOut]
  cases hr : s.net.ring with
  | nil => rfl
  | cons d rest =>
    rw [hr, List.all_cons, Bool.and_eq_true, decide_eq_true_eq] at h
    exact if_pos h.1

/-! ### A live datagram leaves -/

theorem hostFrame_onLane {s : State} {l : LaneId} {f : Lane → Lane} (hc : (f (egLane s l)).cfg = (egLane s l).cfg)
    (hn : (f (egLane s l)).nextMac = (egLane s l).nextMac) (data : List Byte) :
    hostFrame (onLane l f s) l data = hostFrame s l data :=
  hostFrame_congr (s := s) (t := onLane l f s) (by rw [egLane_onLane, hc]) (by rw [egLane_onLane, hn]) rfl data

section
variable {s : State} {l : LaneId}

/-- The oldest waiting datagram leaves the queue of its lane (R411, R412). -/
theorem execDatagramTx_takes {n : Nat} {rest : List Nat} (hl : live s = true) (hu : laneUsable s l = true)
    (hq : (egLane s l).txq = n :: rest) : execDatagramTx l s = .next (match ringFind s n with
      | none => onLane l (fun x => { x with txq := rest }) s
      | some d => emit (.frame l (hostFrame s l (datagramBytes 1 d)))
          (onLane l (fun x => { x with txq := rest, txLive := satInc 32 x.txLive }) s)) := by
  rw [execDatagramTx, hq]
  dsimp only
  rw [if_neg (by simp [hl, hu]), ringFind_onLane]
  cases ringFind s n with
  | none => rfl
  | some d =>
    dsimp only
    rw [onLane_onLane, hostFrame_onLane (f := fun x => { x with txq := rest }) rfl rfl]

theorem execDatagramTx_idle (h : live s = false ∨ laneUsable s l = false ∨ (egLane s l).txq = []) :
    execDatagramTx l s = .next s := by
  rw [execDatagramTx]
  cases hq : (egLane s l).txq with
  | nil => rfl
  | cons n rest =>
    refine if_pos ?_
    rcases h with h | h | h
    · exact .inr h
    · exact .inl h
    · simp [h] at hq

end

/-! ### Retry requests -/

/-- A request is good when it comes from the host and has the layout of Table 11.3 (R417, R418). -/
theorem retryOk_iff (c : LaneCfg) (ip : BitVec 32) (b : List Byte) : retryOk c ip b = true ↔ ip = c.host ∧
    b.length = 24 ∧ b.take 4 = [0x47, 0x5A, 0x01, 0x10] ∧ 1 ≤ field b 10 2 ∧ field b 10 2 ≤ 1024 ∧
    field b 20 4 = (crc32c (b.take 20)).toNat := by
  simp only [retryOk, Bool.and_eq_true, beq_iff_eq, decide_eq_true_eq, and_assoc]
  rfl

/-- A lane hears a request while the device has results (R418). -/
structure HearsRetry (s : State) (l : LaneId) : Prop where
  lives : live s = true
  hears : laneHears s l = true

section
variable {s : State} {l : LaneId} {ip : BitVec 32} {b : List Byte}

theorem HearsRetry.judges (h : HearsRetry s l) : execRetryRequest l ip s b = .next (
    if retryOk (egLane s l).cfg ip b = false then onLane l (fun x => { x with retryBad := satInc 32 x.retryBad }) s
    else if 16 ≤ ((egLane s l).serve.filter (·.last)).length then
      onLane l (fun x => { x with retryDropped := satInc 32 x.retryDropped }) s
    else onLane l (fun x => { x with
      retryOk := satInc 32 x.retryOk
      serve := x.serve ++ servesOf s (field b 4 6) (retryCount b) (field b 16 4) }) s) := by
  rw [execRetryRequest]
  dsimp only
  rw [if_neg (by simp [h.hears, h.lives])]
  split
  · rfl
  · split <;> rfl

theorem HearsRetry.bad (h : HearsRetry s l) (hb : retryOk (egLane s l).cfg ip b = false) :
    execRetryRequest l ip s b = .next (onLane l (fun x => { x with retryBad := satInc 32 x.retryBad }) s) := by
  rw [h.judges, if_pos hb]

theorem HearsRetry.full (h : HearsRetry s l) (hb : retryOk (egLane s l).cfg ip b = true)
    (hn : 16 ≤ ((egLane s l).serve.filter (·.last)).length) :
    execRetryRequest l ip s b = .next (onLane l (fun x => { x with retryDropped := satInc 32 x.retryDropped }) s) := by
  rw [h.judges, if_neg (by simp [hb]), if_pos hn]

/-- A request that is good and finds fewer than 16 in service has its answers queued (R419, R420). -/
theorem HearsRetry.serves (h : HearsRetry s l) (hb : retryOk (egLane s l).cfg ip b = true)
    (hn : ((egLane s l).serve.filter (·.last)).length < 16) {new : List Serve}
    (hs : servesOf s (field b 4 6) (retryCount b) (field b 16 4) = new) :
    execRetryRequest l ip s b = .next (onLane l (fun x => { x with
      retryOk := satInc 32 x.retryOk, serve := x.serve ++ new }) s) := by
  rw [h.judges, if_neg (by simp [hb]), if_neg (Nat.not_le.mpr hn), hs]

theorem execRetryRequest_deaf (h : live s = false ∨ laneHears s l = false) : execRetryRequest l ip s b = .next s :=
  if_pos h.symm

end

/-! ### The answers of a request -/

theorem ofLe_lt (bs : List Byte) : ofLe bs < 256 ^ bs.length := by
  induction bs with
  | nil => exact Nat.one_pos
  | cons b bs ih =>
    have digit : b.toNat < 256 := b.isLt
    rw [ofLe, List.length_cons, Nat.pow_succ]
    omega

theorem field_lt (bs : List Byte) (off n : Nat) : field bs off n < 256 ^ n :=
  (ofLe_lt _).trans_le (Nat.pow_le_pow_right (by decide) (List.length_take_le ..))

/-- STREAM of a request is that of the device when its four bytes are. -/
theorem stream_iff (s : State) (b : List Byte) :
    BitVec.ofNat 32 (field b 16 4) = s.net.stream ↔ field b 16 4 = s.net.stream.toNat := by
  rw [← BitVec.toNat_inj, BitVec.toNat_ofNat, Nat.mod_eq_of_lt (show _ < 2 ^ 32 from field_lt b 16 4)]

/-- An answer gives the reason of its first number, and one that is no NAK answers one number (R419). -/
def Answers (s : State) (x : Serve) : Prop :=
  x.nak = nakReason s x.seq ∧ (x.nak = 0 → x.count = 1)

theorem addServe_answers {s : State} {l : List Serve} (h : ∀ x ∈ l, Answers s x) (n : Nat) :
    ∀ x ∈ addServe s l n, Answers s x := by
  have fresh : Answers s ⟨n, nakReason s n, 1, false⟩ := ⟨rfl, fun _ => rfl⟩
  cases l with
  | nil => simpa [addServe] using fresh
  | cons y rest =>
    obtain ⟨here, there⟩ := List.forall_mem_cons.mp h
    rw [addServe]
    split
    · next run =>
      have longer : Answers s { y with count := y.count + 1 } :=
        ⟨here.1, fun zero => absurd (run.2.symm.trans zero) run.1⟩
      exact List.forall_mem_cons.mpr ⟨longer, there⟩
    · exact List.forall_mem_cons.mpr ⟨fresh, h⟩

theorem addServe_count (s : State) (l : List Serve) (n : Nat) :
    ((addServe s l n).map (·.count)).sum = (l.map (·.count)).sum + 1 := by
  cases l with
  | nil => rfl
  | cons y rest =>
    rw [addServe]
    split <;> simp only [List.map_cons, List.sum_cons] <;> omega

/-- The answers to `n` numbers from `first` on, the last of them in front (R419). -/
def answersTo (s : State) (first n : Nat) : List Serve :=
  (List.range n).foldl (fun l i => addServe s l ((first + i) % 2 ^ 48)) []

theorem answersTo_succ (s : State) (first n : Nat) :
    answersTo s first (n + 1) = addServe s (answersTo s first n) ((first + n) % 2 ^ 48) := by
  rw [answersTo, List.range_succ, List.foldl_append]
  rfl

/-- Every number asked for is answered once, with its reason (R419). -/
theorem answersTo_spec (s : State) (first n : Nat) :
    ((answersTo s first n).map (·.count)).sum = n ∧ ∀ x ∈ answersTo s first n, Answers s x := by
  induction n with
  | zero => exact ⟨rfl, fun _ h => absurd h List.not_mem_nil⟩
  | succ n ih =>
    rw [answersTo_succ, addServe_count, ih.1]
    exact ⟨rfl, addServe_answers ih.2 _⟩

/-- The last thing of a request is marked, and the answers stand in ascending order (R419, R420). -/
def inOrder : List Serve → List Serve
  | [] => []
  | x :: rest => ({ x with last := true } :: rest).reverse

theorem servesOf_own (s : State) (first n : Nat) :
    servesOf s first n s.net.stream.toNat = inOrder (answersTo s first n) := by
  rw [servesOf, if_pos rfl]
  rfl

/-- A request for another STREAM is answered with one NAK (R419). -/
theorem servesOf_foreign {s : State} {stream : Nat} (h : stream ≠ s.net.stream.toNat) (first n : Nat) :
    servesOf s first n stream = [⟨first, 3, n, true⟩] := by
  rw [servesOf, if_neg h]
  rfl

/-- Marking the last answer changes neither what is answered nor how. -/
theorem inOrder_spec {s : State} {l : List Serve} (h : ∀ x ∈ l, Answers s x) :
    ((inOrder l).map (·.count)).sum = (l.map (·.count)).sum ∧ ∀ x ∈ inOrder l, Answers s x := by
  cases l with
  | nil => exact ⟨rfl, h⟩
  | cons y rest =>
    rw [inOrder, List.map_reverse, List.sum_reverse]
    refine ⟨rfl, fun x hx => ?_⟩
    obtain ⟨here, there⟩ := List.forall_mem_cons.mp h
    rcases List.mem_cons.mp (List.mem_reverse.mp hx) with rfl | hx
    · exact here
    · exact there x hx

/-! ### Retransmissions and NAKs -/

/-- A report changes neither a frame nor what it holds. -/
theorem hostFrame_report (code s l data) : hostFrame (report code s) l data = hostFrame s l data :=
  hostFrame_congr (by rw [egLane_congr (report_net ..)]) (by rw [egLane_congr (report_net ..)]) (report_otp ..) data

theorem nakBytes_report (code s seq count reason) :
    nakBytes (report code s) seq count reason = nakBytes s seq count reason := by
  simp only [nakBytes, ownId, devId, report_sys, report_net, report_img]

/-- A lane may retransmit: it is usable, and no live datagram waits (R412). -/
structure MayRetransmit (s : State) (l : LaneId) (x : Serve) (rest : List Serve) : Prop where
  lives : live s = true
  usable : laneUsable s l = true
  quiet : (egLane s l).txq = []
  oldest : (egLane s l).serve = x :: rest

/-- A lane whose oldest answer has been taken, `rest` staying. -/
def serveTaken (l : LaneId) (rest : List Serve) (s : State) : State :=
  onLane l (fun y => { y with serve := rest }) s

/-- A frame to the host leaves, counted on its lane by `f` (R407). -/
def leaveWith (l : LaneId) (data : List Byte) (f : Lane → Lane) (s : State) : State :=
  emit (.frame l (hostFrame s l data)) (onLane l f s)

/-- A retransmission counted in TX_RETRANS. -/
def oneRetrans (x : Lane) : Lane := { x with txRetrans := satInc 32 x.txRetrans }

/-- A NAK counted in TX_NAK. -/
def oneNak (x : Lane) : Lane := { x with txNak := satInc 32 x.txNak }

theorem sendNak_eq (l seq count reason s) :
    sendNak l seq count reason s = leaveWith l (nakBytes s seq count reason) oneNak s := rfl

section
variable {s : State} {l : LaneId} {x : Serve} {rest : List Serve}

/-- What leaves: the NAK asked for, or the datagram, and a NAK with reason 1 where the ring no longer gives it (R412,
R419, R420). -/
theorem MayRetransmit.leaves (h : MayRetransmit s l x rest) (e : Ecc) : execRetransmit l e s = .next (
    if x.nak ≠ 0 then sendNak l x.seq x.count x.nak (serveTaken l rest s)
    else match ringFind s x.seq with
      | none => sendNak l x.seq 1 1 (serveTaken l rest s)
      | some d =>
        if e = .uncorrectable then sendNak l x.seq 1 1 (report 0x127C (serveTaken l rest s))
        else leaveWith l (datagramBytes 2 d) oneRetrans
          (if e = .corrected then report 0x117C (serveTaken l rest s) else serveTaken l rest s)) := by
  rw [execRetransmit, h.oldest]
  dsimp only
  rw [if_neg (by simp [h.lives, h.usable, h.quiet]), ringFind_onLane]
  split
  · rfl
  · cases ringFind s x.seq with
    | none => rfl
    | some d =>
      dsimp only
      split <;> rfl

theorem MayRetransmit.naks (h : MayRetransmit s l x rest) (e : Ecc) (hx : x.nak ≠ 0) :
    execRetransmit l e s = .next (sendNak l x.seq x.count x.nak (serveTaken l rest s)) := by
  rw [h.leaves, if_pos hx]

theorem MayRetransmit.gone (h : MayRetransmit s l x rest) (e : Ecc) (hx : x.nak = 0) (hf : ringFind s x.seq = none) :
    execRetransmit l e s = .next (sendNak l x.seq 1 1 (serveTaken l rest s)) := by
  rw [h.leaves, if_neg (not_not.mpr hx), hf]

theorem MayRetransmit.held (h : MayRetransmit s l x rest) (e : Ecc) (hx : x.nak = 0) {d : Datagram}
    (hf : ringFind s x.seq = some d) : execRetransmit l e s = .next (
      if e = .uncorrectable then sendNak l x.seq 1 1 (report 0x127C (serveTaken l rest s))
      else leaveWith l (datagramBytes 2 d) oneRetrans
        (if e = .corrected then report 0x117C (serveTaken l rest s) else serveTaken l rest s)) := by
  rw [h.leaves, if_neg (not_not.mpr hx), hf]

theorem execRetransmit_idle {e : Ecc} (h : live s = false ∨ laneUsable s l = false ∨ (egLane s l).txq ≠ [] ∨
    (egLane s l).serve = []) : execRetransmit l e s = .next s := by
  rw [execRetransmit]
  cases hq : (egLane s l).serve with
  | nil => rfl
  | cons x rest =>
    refine if_pos ?_
    rcases h with h | h | h | h
    · exact .inr (.inl h)
    · exact .inl h
    · exact .inr (.inr h)
    · simp [h] at hq

/-- The frame leaves with the oldest answer taken. -/
theorem leaveWith_taken (data : List Byte) (f : Lane → Lane) : leaveWith l data f (serveTaken l rest s) =
    { onLane l (fun y => f { y with serve := rest }) s with out := .frame l (hostFrame s l data) :: s.out } := by
  rw [leaveWith, serveTaken, onLane_onLane, hostFrame_onLane (f := fun y => { y with serve := rest }) rfl rfl]
  rfl

/-- After a report the same leaves, and the report is counted with it. -/
theorem leaveWith_reported (data : List Byte) (f : Lane → Lane) (code : BitVec 16) {u : State}
    (hu : leaveWith l data f (report code (serveTaken l rest s)) = u) :
    u.out = .frame l (hostFrame s l data) :: s.out ∧ u.net.ring = s.net.ring ∧
      egLane u l = f { egLane s l with serve := rest } ∧
      classCount u (faultClass code) = satInc 32 (classCount s (faultClass code)) := by
  have lane : egLane (report code (serveTaken l rest s)) l = { egLane s l with serve := rest } :=
    (egLane_congr (report_net ..) l).trans (egLane_onLane ..)
  have ring : (report code (serveTaken l rest s)).net.ring = s.net.ring := 
    (congrArg Net.ring (report_net code (serveTaken l rest s))).trans rfl
  have out : (report code (serveTaken l rest s)).out = s.out := report_out ..
  subst hu
  refine ⟨?_, ring, (egLane_onLane ..).trans (congrArg f lane), classCount_report code (serveTaken l rest s)⟩
  rw [leaveWith, hostFrame_report, serveTaken, hostFrame_onLane (f := fun y => { y with serve := rest }) rfl rfl]
  exact congrArg _ out

end

/-! ### Received frames and sent headers -/

theorem execReceivedFrameDrop_idle {s : State} {l : LaneId} {f : List Byte}
    (h : laneHears s l = false ∨ frameOk s l f = true) : execReceivedFrameDrop l f s = .next s := by
  refine if_neg ?_
  rintro ⟨hears, bad⟩
  rcases h with h | h
  · simp [h] at hears
  · simp [h] at bad

theorem le_length (n x : Nat) : (le n x).length = n := by
  induction n generalizing x with
  | zero => rfl
  | succ n ih => exact congrArg Nat.succ (ih _)

theorem be_length (n x : Nat) : (be n x).length = n := by
  rw [be, List.length_reverse, le_length]

/-- The fixed fields of an IPv4 header: its length, version and DSCP, no fragment, TTL and UDP (R402). -/
theorem ipHeader_fields (dscp ttl n : Nat) (src dst : BitVec 32) :
    (ipHeader dscp ttl n src dst).length = 20 ∧
      (ipHeader dscp ttl n src dst).take 2 = [0x45, BitVec.ofNat 8 (4 * dscp)] ∧
      slice (ipHeader dscp ttl n src dst) 4 4 = [0, 0, 0x40, 0] ∧
      slice (ipHeader dscp ttl n src dst) 8 2 = [BitVec.ofNat 8 ttl, 17] := by
  refine ⟨?_, rfl, rfl, rfl⟩
  simp [ipHeader, be_length]

/-- Settles O41: each clause by the rule of its command above. -/
theorem datagramsRingAndRetries : Obligations.DatagramsRingAndRetries := by
  unfold Obligations.DatagramsRingAndRetries
  refine ⟨fun s hw hq => ⟨_, execFlushTimeout_closes hw hq, closeDatagram_closes s⟩,
    fun s hw hq => ⟨_, execKeepalive_closes hw hq, closeDatagram_closes s⟩,
    fun s h => ⟨execFlushTimeout_idle (.inl h), execKeepalive_idle (.inl h)⟩,
    fun s => ⟨fun h => execFlushTimeout_idle (.inr h), fun h => execKeepalive_idle (.inr h)⟩,
    ringFit_fits, fun s n d h => ringFind_some h, fun s d rest h old => execRingAgeOut_drops h old,
    fun s h => execRingAgeOut_young h, ?tx, ?txGone, fun s l h => execDatagramTx_idle h, retryOk_iff, ?one, ?own,
    ?foreign, fun s l ip b hl hh hb hn => HearsRetry.full ⟨hl, hh⟩ hb hn,
    fun s l ip b hl hh hb => HearsRetry.bad ⟨hl, hh⟩ hb,
    fun s l ip b h => execRetryRequest_deaf h, ?answers, ?held, ?nak, ?gone, fun s l e h => execRetransmit_idle h,
    fun s l f hh hb => if_pos ⟨hh, hb⟩, fun s l f h => execReceivedFrameDrop_idle h, ipHeader_fields⟩
  case tx =>
    intro s l n rest d hl hu hq hf
    refine (execDatagramTx_takes hl hu hq).trans ?_
    rw [hf]
    rfl
  case txGone =>
    intro s l n rest hl hu hq hf
    refine (execDatagramTx_takes hl hu hq).trans ?_
    rw [hf]
  case own =>
    intro s l ip b hl hh hb hn hs
    exact HearsRetry.serves ⟨hl, hh⟩ hb hn rfl
  case one =>
    intro s l ip b hl hh hb hn hs h1
    refine HearsRetry.serves ⟨hl, hh⟩ hb hn ?_
    rw [(stream_iff s b).mp hs, h1, servesOf_own]
    rfl
  case foreign =>
    intro s l ip b hl hh hb hn hs
    exact HearsRetry.serves ⟨hl, hh⟩ hb hn (servesOf_foreign (mt (stream_iff s b).mpr hs) _ _)
  case answers =>
    intro s first n
    obtain ⟨count, each⟩ := answersTo_spec s first n
    obtain ⟨kept, marked⟩ := inOrder_spec each
    rw [servesOf_own]
    exact ⟨kept.trans count, marked⟩
  case held =>
    intro s l x rest d hl hu hq hs hx hf
    have h : MayRetransmit s l x rest := ⟨hl, hu, hq, hs⟩
    have clean : execRetransmit l .clean s = .next (leaveWith l (datagramBytes 2 d) oneRetrans (serveTaken l rest s)) :=
      h.held .clean hx hf
    obtain ⟨outU, ringU, laneU, countU⟩ := leaveWith_reported (s := s) (l := l) (rest := rest) (datagramBytes 2 d)
      oneRetrans 0x117C rfl
    obtain ⟨outV, ringV, laneV, countV⟩ := leaveWith_reported (s := s) (l := l) (rest := rest) (nakBytes s x.seq 1 1)
      oneNak 0x127C rfl
    have naked : nakBytes (report 0x127C (serveTaken l rest s)) x.seq 1 1 = nakBytes s x.seq 1 1 := nakBytes_report ..
    refine ⟨_, leaveWith l (nakBytes s x.seq 1 1) oneNak (report 0x127C (serveTaken l rest s)),
      clean.trans (by rw [leaveWith_taken]; rfl), h.held .corrected hx hf, ?_, outU, ringU, laneU, countU, outV, ringV,
      laneV, countV⟩
    rw [← naked, ← sendNak_eq]
    exact h.held .uncorrectable hx hf
  case nak =>
    intro s l x rest e hl hu hq hs hx
    refine (MayRetransmit.naks ⟨hl, hu, hq, hs⟩ e hx).trans ?_
    rw [sendNak_eq, leaveWith_taken]
    rfl
  case gone =>
    intro s l x rest e hl hu hq hs hx hf
    refine (MayRetransmit.gone ⟨hl, hu, hq, hs⟩ e hx hf).trans ?_
    rw [sendNak_eq, leaveWith_taken]
    rfl

end Sys2Proof.Machine

/-! SUPPORT. Precision time (family 11_egress.md): the exchange of one lane beside that of the other, the masters of a
lane, what the servo makes of an offset, and the Delay_Req. Settles O43. -/

namespace Sys2Proof.Machine

/-! ### The exchange of one lane -/

@[simp] theorem ptpLane_onPtp (l f s) : ptpLane (onPtp l f s) l = f (ptpLane s l) := vmod_same ..

@[simp] theorem ptpLane_onPtp_otherLane (l f s) : ptpLane (onPtp l f s) (otherLane l) = ptpLane s (otherLane l) :=
  vmod_other _ _ _ _ (laneIx_otherLane l)

/-- The exchange of a lane is read off the precision time block. -/
theorem ptpLane_congr {s t : State} (h : t.ptp.pl = s.ptp.pl) (l : LaneId) : ptpLane t l = ptpLane s l := by
  rw [ptpLane, ptpLane, h]

theorem onPtp_onPtp (l f g s) : onPtp l f (onPtp l g s) = onPtp l (fun x => f (g x)) s := by
  simp only [onPtp, vmod_vmod]

theorem onPtp_congr {s : State} {l : LaneId} {f g : PtpLane → PtpLane} (h : f (ptpLane s l) = g (ptpLane s l)) :
    onPtp l f s = onPtp l g s := by
  rw [ptpLane] at h
  rw [onPtp, onPtp, vmod, vmod, h]

/-- What holds of a lane and of the other holds of both. -/
theorem forall_lane {p : LaneId → Prop} (l : LaneId) (h : p l) (k : p (otherLane l)) : p .a ∧ p .b := by
  cases l
  · exact ⟨h, k⟩
  · exact ⟨k, h⟩

/-- A message counts when it was sent to 224.0.1.129, to the port of its kind, in the image's domain (R424). -/
theorem ptpTakes_iff (s : State) (l : LaneId) (event : Bool) (h : PtpHead) : ptpTakes s l event h = true ↔
    laneHears s l = true ∧ s.ptp.running = true ∧ h.dst = 0xE0000181 ∧ h.port = (if event then 319 else 320) ∧
      h.domain = BitVec.ofNat 8 (s.img.nat Fld.ptpDomain []) := by
  simp only [ptpTakes, ptpHears, Bool.and_eq_true, beq_iff_eq, and_assoc]
  rfl

/-! ### Time paths -/

theorem pathUsable_congr {s t : State} {l : LaneId} (hl : egLane t l = egLane s l) (hs : t.sys = s.sys)
    (hp : ptpLane t l = ptpLane s l) : pathUsable t l = pathUsable s l := by
  rw [pathUsable, pathUsable, laneUsable_congr hl hs, hp]

/-- The servo's own changes leave a time path as it is. -/
theorem ServoOnly.pathUsable {s t : State} (h : ServoOnly s t) (l : LaneId) :
    pathUsable t l = Machine.pathUsable s l :=
  pathUsable_congr (egLane_congr h.net l) h.sys (h.ptpLane l)

/-- So do changes of the exchange that leave the master and the marker's finding. -/
theorem pathUsable_onPtp {s : State} {l : LaneId} {f : PtpLane → PtpLane}
    (hm : (f (ptpLane s l)).master = (ptpLane s l).master)
    (hf : (f (ptpLane s l)).pathFault = (ptpLane s l).pathFault) :
    pathUsable (onPtp l f s) l = pathUsable s l := by
  rw [pathUsable, pathUsable, ptpLane_onPtp, hm, hf]
  rfl

/-- A lane without a master has no usable time path (R430). -/
theorem pathUsable_of_master_none {s : State} {l : LaneId} (h : (ptpLane s l).master = none) :
    pathUsable s l = false := by
  rw [pathUsable, h, Option.isSome_none, Bool.and_false, Bool.false_and]

/-! ### PTP_STATE and the servo's lane -/

theorem setPtpState_ptp (n s) : (setPtpState n s).ptp = { s.ptp with state := n } := by
  unfold setPtpState
  split
  · next h => rw [← h]
  · rfl

/-- The servo with its choice of a lane made (R430). -/
def chosen (s : State) : State :=
  if s.ptp.lane = 0 ∧ pathUsable s .a = false ∧ (pathUsable s .b ∨ s.ptp.aSince.isSome) then useLane .b (noteA s)
  else noteA s

theorem chosen_keeps (s) : (chosen s).ptp.state = s.ptp.state ∧ (chosen s).ptp.freq = s.ptp.freq := by
  unfold chosen useLane
  split
  · split <;> exact ⟨rfl, rfl⟩
  · exact ⟨rfl, rfl⟩

/-- The counter runs on its frequency term alone, and the run of good offsets is over (R433). -/
def heldOver (s : State) : State :=
  { rebase s with ptp := { (rebase s).ptp with goodRun := 0, lockedAt := none, slew := 0 } }

/-- Holdover begins when a locked clock has neither time path, and ends with either (R433). -/
theorem watchPaths_eq (s) : watchPaths s =
    if (chosen s).ptp.state = 1 ∧ pathUsable s .a = false ∧ pathUsable s .b = false then
      setPtpState 2 (heldOver (chosen s))
    else if (chosen s).ptp.state = 2 ∧ (pathUsable s .a || pathUsable s .b) = true then setPtpState 0 (chosen s)
    else chosen s := rfl

/-- A locked clock with neither time path goes into holdover on its frequency term (R433). -/
theorem watchPaths_holdover {s : State} (h1 : s.ptp.state = 1) (ha : pathUsable s .a = false)
    (hb : pathUsable s .b = false) : (watchPaths s).ptp.state = 2 ∧ (watchPaths s).ptp.freq = s.ptp.freq := by
  obtain ⟨state, freq⟩ := chosen_keeps s
  rw [watchPaths_eq, if_pos ⟨state.trans h1, ha, hb⟩, setPtpState_ptp]
  exact ⟨rfl, freq⟩

/-! ### Masters -/

/-- Two datasets of different grandmasters are told apart by the smaller priority 1 (R426). -/
theorem better_of_prio1 {a b : AnnData} (hg : a.gm ≠ b.gm) (hp : a.prio1 < b.prio1) :
    better a b = true ∧ better b a = false := by
  have differ : (a.prio1 != b.prio1) = true := bne_iff_ne.mpr hp.ne
  have differ' : (b.prio1 != a.prio1) = true := bne_iff_ne.mpr hp.ne'
  rw [better, better, if_neg hg, if_neg (Ne.symm hg)]
  simp [differ, differ', hp, hp.le]

/-- Of one grandmaster the dataset with fewer steps is the better (R426). -/
theorem better_of_steps {a b : AnnData} (hg : a.gm = b.gm) (hs : a.steps < b.steps) :
    better a b = true ∧ better b a = false := by
  rw [better, better, if_pos hg, if_pos hg.symm]
  simp [hs, hs.le, hs.ne']

/-- The candidates of `c` that have announced themselves lately (R426). -/
def standing (s : State) (c : List Candidate) : List Candidate := c.filter (announced s)

section
variable (l : LaneId) (c : List Candidate) (s : State)

theorem setCandidates_ptpLane : (ptpLane (setCandidates l c s) l).candidates = standing s c ∧
    (ptpLane (setCandidates l c s) l).master = bestMaster ((standing s c).map (·.ann)) := by
  simp only [setCandidates, ptpLane_onPtp]
  exact ⟨rfl, rfl⟩

theorem setCandidates_otherLane : ptpLane (setCandidates l c s) (otherLane l) = ptpLane s (otherLane l) :=
  ptpLane_onPtp_otherLane ..

end

/-- The candidates with an Announce of `a` taken, the earlier one of its source given up (R426). -/
def heard (s : State) (l : LaneId) (a : AnnData) : List Candidate :=
  (ptpLane s l).candidates.filter (fun x => x.ann.source != a.source) ++ [⟨a, s.now⟩]

/-- The candidates without the master that is lost (R426). -/
def unheard (s : State) (l : LaneId) (m : AnnData) : List Candidate :=
  (ptpLane s l).candidates.filter fun x => x.ann.source != m.source

/-- An Announce makes its source a candidate, and the best of them the master; the first master ends holdover
(R426, R433). -/
theorem execAnnounceReceive_takes {s : State} {l : LaneId} {h : PtpHead} (ht : ptpTakes s l false h = true)
    (a : AnnData) : ∃ t, execAnnounceReceive l a s h = .next t ∧
      ServoOnly (setCandidates l (heard s l a) s) t ∧
      ((ptpLane s l).master = none → t.ptp.state ≠ 2) := by
  refine ⟨_, if_neg (by simp [ht]), ?_, fun alone => ?_⟩
  · exact (watchPaths_servoOnly _).trans ((setPtpState_servoOnly 0 _).ite (.refl _) _)
  · split
    · rw [setPtpState_ptp]
      exact Nat.zero_ne_add_one 1
    · next still => exact fun held => still ⟨by rw [alone]; rfl, held⟩

theorem execAnnounceReceive_idle {s : State} {l : LaneId} {h : PtpHead} (ht : ptpTakes s l false h = false)
    (a : AnnData) : execAnnounceReceive l a s h = .next s :=
  if_pos ht

theorem execAnnounceTimeout_idle {s : State} {l : LaneId} (h : (ptpLane s l).master = none) :
    execAnnounceTimeout l s = .next s := by
  rw [execAnnounceTimeout, h]

/-- What a lost master leaves, before the servo takes note of it; the loss of the servo's only master is reported
(R426, R430, R432). -/
def masterLost (l : LaneId) (m : AnnData) (s : State) : State :=
  let u := setCandidates l (unheard s l m) s
  if l = servoLane s ∧ (ptpLane s (otherLane l)).master.isNone then report 0x4100 u else u

theorem execAnnounceTimeout_loses {s : State} {l : LaneId} {m : AnnData} (h : (ptpLane s l).master = some m) :
    execAnnounceTimeout l s = .next (watchPaths (masterLost l m s)) := by
  rw [execAnnounceTimeout, h]
  rfl

section
variable (l : LaneId) (m : AnnData) (s : State)

/-- The report changes nothing of the exchange. -/
theorem masterLost_ptp : (masterLost l m s).ptp =
    (setCandidates l (unheard s l m) s).ptp := by
  unfold masterLost
  dsimp only
  split
  · exact report_ptp ..
  · rfl

theorem masterLost_classCount (hl : l = servoLane s) (ho : (ptpLane s (otherLane l)).master = none) :
    classCount (masterLost l m s) 0x41 = satInc 32 (classCount s 0x41) := by
  rw [masterLost, if_pos ⟨hl, by rw [ho]; rfl⟩]
  exact classCount_report 0x4100 _

theorem masterLost_flt (ho : (ptpLane s (otherLane l)).master ≠ none) : (masterLost l m s).flt = s.flt := by
  rw [masterLost, if_neg (fun k => ho (Option.isNone_iff_eq_none.mp k.2))]
  rfl

end

/-! ### The servo -/

theorem clampInt_bounds {lo hi : Int} (h : lo ≤ hi) (x : Int) : lo ≤ clampInt lo hi x ∧ clampInt lo hi x ≤ hi := by
  unfold clampInt
  split
  · exact ⟨le_rfl, h⟩
  · split <;> omega

/-- A step takes the offset off the counter and is counted; the run of good offsets begins again (R429). -/
theorem stepTime_ptp (off s) : (stepTime off s).ptp = { s.ptp with
    tBase := (ptpTicks s - off) % timeSpan
    tlc := tlcTicks s
    tAt := s.now
    steps := satInc 32 s.ptp.steps
    goodRun := 0
    lockedAt := none
    slew := 0 } :=
  report_ptp ..

theorem stepTime_keeps (off s) : (stepTime off s).net = s.net ∧ (stepTime off s).out = s.out :=
  ⟨report_net .., report_out ..⟩

theorem stepTime_classCount (off s) : classCount (stepTime off s) 0x41 = satInc 32 (classCount s 0x41) :=
  classCount_report 0x4103 _

/-- Steering sets the servo's terms, within their bounds and against the offset (R427, R428). -/
structure Steered (off : Int) (s t : State) : Prop where
  net : t.net = s.net
  out : t.out = s.out
  flt : t.flt = s.flt
  pl : t.ptp.pl = s.ptp.pl
  offset : t.ptp.offset = s.ptp.offset
  steps : t.ptp.steps = s.ptp.steps
  state : t.ptp.state = s.ptp.state
  goodRun : t.ptp.goodRun = s.ptp.goodRun
  freq_low : -13107200 ≤ t.ptp.freq
  freq_high : t.ptp.freq ≤ 13107200
  slew_bound : t.ptp.slew.natAbs ≤ 32768000
  slew_late : 0 < off → t.ptp.slew ≤ 0
  slew_early : off < 0 → 0 ≤ t.ptp.slew

theorem steer_steered (off s) : Steered off s (steer off s) := by
  have freq := clampInt_bounds (show (-13107200 : Int) ≤ 13107200 by decide) (Config.servoFreq s.freeCtr)
  have rate : Config.value s.freeCtr % 32768001 < 32768001 := Nat.mod_lt _ (by decide)
  have slew : (steer off s).ptp.slew = if 0 < off then -((Config.value s.freeCtr % 32768001 : Nat) : Int)
      else if off < 0 then ((Config.value s.freeCtr % 32768001 : Nat) : Int) else 0 := rfl
  refine ⟨rfl, rfl, rfl, rfl, rfl, rfl, rfl, rfl, freq.1, freq.2, ?_, fun late => ?_, fun early => ?_⟩
  · rw [slew]
    split
    · omega
    · split <;> omega
  · rw [slew, if_pos late]
    omega
  · rw [slew, if_neg (by omega), if_pos early]
    omega

/-- What the verdict on an offset changes: PTP_STATE and the run of good offsets (R433). -/
structure Ruled (off : Int) (s t : State) : Prop where
  only : ServoOnly s t
  offset : t.ptp.offset = s.ptp.offset
  steps : t.ptp.steps = s.ptp.steps
  freq : t.ptp.freq = s.ptp.freq
  slew : t.ptp.slew = s.ptp.slew
  fresh : s.ptp.goodRun = 0 → t.ptp.tBase = s.ptp.tBase ∧ t.ptp.goodRun ≤ 1
  large : 1000 * 655360 < off.natAbs → t.ptp.goodRun = 0 ∧ (s.ptp.state = 1 → t.ptp.state = 0)
  small : off.natAbs ≤ 1000 * 655360 →
    t.ptp.goodRun = min 16 (s.ptp.goodRun + 1) ∧ (15 ≤ s.ptp.goodRun → t.ptp.state = 1)

/-- Line-counter time takes the time of the counter (R434). -/
def lineTimeSet (s : State) : State :=
  { rebase s with ptp := { (rebase s).ptp with tlc := some (rebase s).ptp.tBase } }

theorem lineTimeSet_only (s) : ServoOnly s (lineTimeSet s) := ⟨_, _, rfl, rfl⟩

/-- A clock that locks, with `n` good offsets in a row; line-counter time is set where it was not (R433, R434). -/
def locks (n : Nat) (s : State) : State :=
  let u := setPtpState 1 { s with ptp := { s.ptp with goodRun := n, lockedAt := some s.now } }
  if u.ptp.tlc.isNone then lineTimeSet u else u

theorem locks_only (n s) : ServoOnly s (locks n s) := by
  have state : ServoOnly s (setPtpState 1 { s with ptp := { s.ptp with goodRun := n, lockedAt := some s.now } }) :=
    .trans ⟨_, _, rfl, rfl⟩ (setPtpState_servoOnly 1 _)
  exact state.trans ((lineTimeSet_only _).ite (.refl _) _)

theorem locks_ptp (n s) : (locks n s).ptp.offset = s.ptp.offset ∧ (locks n s).ptp.steps = s.ptp.steps ∧
    (locks n s).ptp.freq = s.ptp.freq ∧ (locks n s).ptp.slew = s.ptp.slew ∧ (locks n s).ptp.goodRun = n ∧
    (locks n s).ptp.state = 1 := by
  unfold locks
  dsimp only
  split <;> simp [lineTimeSet, rebase, setPtpState_ptp]

/-- A larger offset ends the run of good ones, and unlocks (R433). -/
theorem stateAfter_large {off : Int} (h : 1000 * 655360 < off.natAbs) (s : State) : stateAfter off s =
    let u := { s with ptp := { s.ptp with goodRun := 0, lockedAt := none } }
    if s.ptp.state = 1 then setPtpState 0 u else u :=
  if_neg (Nat.not_le.mpr h)

/-- A small one makes the run longer, and the sixteenth locks (R433). -/
theorem stateAfter_small {off : Int} (h : off.natAbs ≤ 1000 * 655360) (s : State) : stateAfter off s =
    if min 16 (s.ptp.goodRun + 1) < 16 ∨ s.ptp.state = 1 then
      { s with ptp := { s.ptp with goodRun := min 16 (s.ptp.goodRun + 1) } }
    else locks (min 16 (s.ptp.goodRun + 1)) s :=
  if_pos h

theorem stateAfter_ruled (off s) : Ruled off s (stateAfter off s) := by
  rcases Nat.lt_or_ge (1000 * 655360) off.natAbs with far | near
  · rw [stateAfter_large far]
    dsimp only
    split
    · next locked =>
      refine ⟨.trans ⟨_, _, rfl, rfl⟩ (setPtpState_servoOnly 0 _), ?_, ?_, ?_, ?_, ?_, ?_,
        fun near => absurd far (Nat.not_lt.mpr near)⟩ <;> simp [setPtpState_ptp]
    · next unlocked =>
      exact ⟨⟨_, _, rfl, rfl⟩, rfl, rfl, rfl, rfl, fun _ => ⟨rfl, Nat.zero_le 1⟩,
        fun _ => ⟨rfl, fun k => absurd k unlocked⟩, fun near => absurd far (Nat.not_lt.mpr near)⟩
  · rw [stateAfter_small near]
    split
    · next early =>
      refine ⟨⟨_, _, rfl, rfl⟩, rfl, rfl, rfl, rfl, fun zero => ⟨rfl, ?_⟩, fun far => absurd far (Nat.not_lt.mpr near),
        fun _ => ⟨rfl, fun full => early.resolve_left (by omega)⟩⟩
      show min 16 (s.ptp.goodRun + 1) ≤ 1
      omega
    · next late =>
      obtain ⟨offset, steps, freq, slew, run, state⟩ := locks_ptp (min 16 (s.ptp.goodRun + 1)) s
      exact ⟨locks_only .., offset, steps, freq, slew, fun zero => absurd (.inl (by omega)) late,
        fun far => absurd far (Nat.not_lt.mpr near), fun _ => ⟨run, fun _ => state⟩⟩

/-- The servo with the offset it has measured (R428). -/
def measured (off : Int) (s : State) : State := { s with ptp := { s.ptp with offset := off } }

theorem servo_steps {off : Int} {s : State} (h : s.img.nat Fld.ptpStep [] * 655360 < off.natAbs) :
    servo off s = stateAfter off (stepTime off (measured off s)) :=
  if_pos h

theorem servo_steers {off : Int} {s : State} (h : off.natAbs ≤ s.img.nat Fld.ptpStep [] * 655360) :
    servo off s = stateAfter off (steer off (measured off s)) :=
  if_neg (Nat.not_lt.mpr h)

/-- What the servo does with an offset leaves the exchange of every lane, the egress block and what has left. -/
structure ServoRan (off : Int) (s t : State) : Prop where
  net : t.net = s.net
  out : t.out = s.out
  pl : t.ptp.pl = s.ptp.pl
  offset : t.ptp.offset = off

theorem servo_ran (off s) : ServoRan off s (servo off s) := by
  rcases Nat.lt_or_ge (s.img.nat Fld.ptpStep [] * 655360) off.natAbs with large | small
  · have ruled := stateAfter_ruled off (stepTime off (measured off s))
    obtain ⟨net, out⟩ := stepTime_keeps off (measured off s)
    obtain ⟨ptp, spr, e, pl⟩ := ruled.only
    have offset := ruled.offset
    rw [servo_steps large]
    rw [e] at offset ⊢
    rw [stepTime_ptp] at pl offset
    exact ⟨net, out, pl, offset⟩
  · have ruled := stateAfter_ruled off (steer off (measured off s))
    obtain ⟨ptp, spr, e, pl⟩ := ruled.only
    have offset := ruled.offset
    rw [servo_steers small]
    rw [e] at offset ⊢
    exact ⟨rfl, rfl, pl, offset⟩

theorem servo_ptpLane (off s l) : ptpLane (servo off s) l = ptpLane s l :=
  ptpLane_congr (servo_ran off s).pl l

/-- Past PTP_STEP the counter steps by the offset, counted and class 0x41 (R429). -/
theorem servo_large {off : Int} {s : State} (h : s.img.nat Fld.ptpStep [] * 655360 < off.natAbs) :
    (servo off s).ptp.steps = satInc 32 s.ptp.steps ∧ (servo off s).ptp.tBase = (ptpTicks s - off) % timeSpan ∧
      (servo off s).ptp.goodRun ≤ 1 ∧ classCount (servo off s) 0x41 = satInc 32 (classCount s 0x41) := by
  have ruled := stateAfter_ruled off (stepTime off (measured off s))
  obtain ⟨base, run⟩ := ruled.fresh (by rw [stepTime_ptp])
  have steps := ruled.steps
  rw [stepTime_ptp] at base steps
  rw [servo_steps h]
  exact ⟨steps, base, run, (classCount_congr ruled.only.flt _).trans (stepTime_classCount off (measured off s))⟩

/-- Within PTP_STEP the servo's terms stay within their bounds, and steer against the offset (R427, R428). -/
theorem servo_small {off : Int} {s : State} (h : off.natAbs ≤ s.img.nat Fld.ptpStep [] * 655360) :
    (servo off s).ptp.steps = s.ptp.steps ∧ (servo off s).flt = s.flt ∧ -13107200 ≤ (servo off s).ptp.freq ∧
      (servo off s).ptp.freq ≤ 13107200 ∧ (servo off s).ptp.slew.natAbs ≤ 32768000 ∧
      (0 < off → (servo off s).ptp.slew ≤ 0) ∧ (off < 0 → 0 ≤ (servo off s).ptp.slew) := by
  have steered := steer_steered off (measured off s)
  have ruled := stateAfter_ruled off (steer off (measured off s))
  rw [servo_steers h, ruled.steps, ruled.only.flt, ruled.freq, ruled.slew]
  exact ⟨steered.steps, steered.flt, steered.freq_low, steered.freq_high, steered.slew_bound, steered.slew_late,
    steered.slew_early⟩

/-- An offset of more than 1 µs ends the run of good ones, and unlocks (R433). -/
theorem servo_unlocks {off : Int} (h : 1000 * 655360 < off.natAbs) (s : State) :
    (servo off s).ptp.goodRun = 0 ∧ (s.ptp.state = 1 → (servo off s).ptp.state = 0) := by
  rcases Nat.lt_or_ge (s.img.nat Fld.ptpStep [] * 655360) off.natAbs with large | small
  · rw [servo_steps large]
    obtain ⟨run, state⟩ := (stateAfter_ruled off (stepTime off (measured off s))).large h
    rw [stepTime_ptp] at state
    exact ⟨run, state⟩
  · rw [servo_steers small]
    exact (stateAfter_ruled off (steer off (measured off s))).large h

/-- The sixteenth offset in a row of at most 1 µs locks (R433). -/
theorem servo_locks {off : Int} {s : State} (h : off.natAbs ≤ 1000 * 655360)
    (hs : off.natAbs ≤ s.img.nat Fld.ptpStep [] * 655360) :
    (servo off s).ptp.goodRun = min 16 (s.ptp.goodRun + 1) ∧ (15 ≤ s.ptp.goodRun → (servo off s).ptp.state = 1) := by
  rw [servo_steers hs]
  exact (stateAfter_ruled off (steer off (measured off s))).small h

/-! ### Sync and Follow_Up -/

/-- A Sync with its timestamps in place, its asymmetry added (R425, R427). -/
def syncUsed (l : LaneId) (t1 t2 : Int) (s : State) : State :=
  onPtp l (fun x => { x with t1 := t1 + asymTicks s l, t2 := t2, twoStep := none }) s

/-- The offset from the master (R427). -/
def offsetOf (l : LaneId) (t1 t2 : Int) (s : State) : Int :=
  timeDiff t2 (t1 + asymTicks s l) - (ptpLane s l).mpd

/-- A complete Sync feeds the servo on its lane, while that lane's time path is usable (R430). -/
theorem useSync_eq (l t1 t2 s) : useSync l t1 t2 s =
    if servoLane s = l ∧ pathUsable s l = true then servo (offsetOf l t1 t2 s) (syncUsed l t1 t2 s)
    else syncUsed l t1 t2 s := by
  have path : pathUsable (syncUsed l t1 t2 s) l = pathUsable s l := pathUsable_onPtp rfl rfl
  have mpd : (ptpLane (syncUsed l t1 t2 s) l).mpd = (ptpLane s l).mpd := by rw [syncUsed, ptpLane_onPtp]
  show (if servoLane s = l ∧ pathUsable (syncUsed l t1 t2 s) l = true then
    servo (timeDiff t2 (t1 + asymTicks s l) - (ptpLane (syncUsed l t1 t2 s) l).mpd) (syncUsed l t1 t2 s)
    else syncUsed l t1 t2 s) = _
  rw [path, mpd]
  rfl

/-- What a complete Sync leaves of its lane and of the rest, servo or not (R425). -/
theorem useSync_keeps (l t1 t2 s) :
    ptpLane (useSync l t1 t2 s) l = { ptpLane s l with t1 := t1 + asymTicks s l, t2 := t2, twoStep := none } ∧
      ptpLane (useSync l t1 t2 s) (otherLane l) = ptpLane s (otherLane l) ∧
      (useSync l t1 t2 s).net = s.net ∧ (useSync l t1 t2 s).out = s.out ∧
      (useSync l t1 t2 s).ptp.offset =
        if servoLane s = l ∧ pathUsable s l = true then offsetOf l t1 t2 s else s.ptp.offset := by
  have here : ptpLane (syncUsed l t1 t2 s) l =
      { ptpLane s l with t1 := t1 + asymTicks s l, t2 := t2, twoStep := none } := ptpLane_onPtp ..
  have there : ptpLane (syncUsed l t1 t2 s) (otherLane l) = ptpLane s (otherLane l) := ptpLane_onPtp_otherLane ..
  have ran := servo_ran (offsetOf l t1 t2 s) (syncUsed l t1 t2 s)
  rw [useSync_eq]
  split
  · rw [servo_ptpLane, servo_ptpLane]
    exact ⟨here, there, ran.net, ran.out, ran.offset⟩
  · exact ⟨here, there, rfl, rfl, rfl⟩

/-- A Sync is processed: it is of the master, none came within 7.8 ms, and fewer than 128 in the second (R424, R425). -/
structure SyncTaken (s : State) (l : LaneId) (h : PtpHead) (m : SyncData) : Prop where
  takes : ptpTakes s l true h = true
  master : (ptpLane s l).master.map (·.source) = some m.source
  few : (lastSecond s (ptpLane s l).syncs).length < 128
  apart : ∀ x ∈ lastSecond s (ptpLane s l).syncs, x + 1560000 ≤ s.now

/-- The moment of an accepted Sync is kept (R425). -/
def syncNoted (l : LaneId) (s : State) : State :=
  onPtp l (fun x => { x with syncs := s.now :: lastSecond s (ptpLane s l).syncs }) s

section
variable {s : State} {l : LaneId} {h : PtpHead} {m : SyncData}

theorem SyncTaken.receives (k : SyncTaken s l h m) (quanta : Int) : execSyncReceive l m s h quanta =
    if m.twoStep then
      .next (onPtp l (fun x => { x with twoStep := some ⟨m, stampNow s quanta, s.now⟩ }) (syncNoted l s))
    else .next (useSync l (stampTicks m.origin + corrTicks m.corr) (stampNow s quanta) (syncNoted l s)) := by
  have spaced : ¬(128 ≤ (lastSecond s (ptpLane s l).syncs).length ∨
      (lastSecond s (ptpLane s l).syncs).any (fun t => decide (s.now < t + 1560000)) = true) := by
    rw [List.any_eq_true]
    rintro (many | ⟨x, hx, near⟩)
    · exact Nat.not_lt.mpr many k.few
    · exact Nat.not_lt.mpr (k.apart x hx) (of_decide_eq_true near)
  exact (if_neg (by simp [k.takes, k.master])).trans (if_neg spaced)

/-- A two-step Sync waits for its Follow_Up (R425). -/
theorem SyncTaken.waits (k : SyncTaken s l h m) (quanta : Int) (h2 : m.twoStep = true) :
    execSyncReceive l m s h quanta = .next (onPtp l (fun x => { x with
      syncs := s.now :: lastSecond s (ptpLane s l).syncs, twoStep := some ⟨m, stampNow s quanta, s.now⟩ }) s) := by
  rw [k.receives, if_pos h2, syncNoted, onPtp_onPtp]

/-- A one-step Sync is complete (R425). -/
theorem SyncTaken.completes (k : SyncTaken s l h m) (quanta : Int) (h2 : m.twoStep = false) :
    execSyncReceive l m s h quanta =
      .next (useSync l (stampTicks m.origin + corrTicks m.corr) (stampNow s quanta) (syncNoted l s)) := by
  rw [k.receives, if_neg (by simp [h2])]

theorem execSyncReceive_idle (quanta : Int) (k : ptpTakes s l true h = false ∨
    (ptpLane s l).master.map (·.source) ≠ some m.source ∨ 128 ≤ (lastSecond s (ptpLane s l).syncs).length ∨
    (∃ x ∈ lastSecond s (ptpLane s l).syncs, s.now < x + 1560000)) : execSyncReceive l m s h quanta = .next s := by
  rw [execSyncReceive]
  dsimp only
  rcases k with k | k | k | ⟨x, hx, near⟩
  · rw [if_pos (.inl k)]
  · rw [if_pos (.inr k)]
  · split
    · rfl
    · rw [if_pos (.inl k)]
  · split
    · rfl
    · rw [if_pos (.inr (List.any_eq_true.mpr ⟨x, hx, decide_eq_true near⟩))]

theorem syncNoted_ptpLane (l s) :
    ptpLane (syncNoted l s) l = { ptpLane s l with syncs := s.now :: lastSecond s (ptpLane s l).syncs } :=
  ptpLane_onPtp ..

theorem syncNoted_pathUsable (l s) : pathUsable (syncNoted l s) l = pathUsable s l := pathUsable_onPtp rfl rfl

theorem syncNoted_offsetOf (l t1 t2 s) : offsetOf l t1 t2 (syncNoted l s) = offsetOf l t1 t2 s := by
  rw [offsetOf, syncNoted_ptpLane]
  rfl

end

section
variable {s : State} {l : LaneId} {h : PtpHead} {source : BitVec 80} {seqId : BitVec 16} {corr : BitVec 64}
  {p : HeldSync}

/-- The Follow_Up of a waiting Sync completes it within a second (R425). -/
theorem execFollowUpReceive_completes (ht : ptpTakes s l false h = true) (hp : (ptpLane s l).twoStep = some p)
    (hs : p.msg.source = source) (hq : p.msg.seqId = seqId) (hn : s.now ≤ p.since + sec 1) (origin : PtpStamp) :
    execFollowUpReceive l source seqId origin corr s h =
      .next (useSync l (stampTicks origin + corrTicks p.msg.corr + corrTicks corr) p.rx s) := by
  rw [execFollowUpReceive, hp]
  exact if_pos ⟨ht, hs, hq, hn⟩

/-- Any other does not. -/
theorem execFollowUpReceive_other (hp : (ptpLane s l).twoStep = some p) (origin : PtpStamp)
    (k : ptpTakes s l false h = false ∨ p.msg.source ≠ source ∨ p.msg.seqId ≠ seqId ∨ p.since + sec 1 < s.now) :
    execFollowUpReceive l source seqId origin corr s h = .next s := by
  rw [execFollowUpReceive, hp]
  refine if_neg ?_
  rintro ⟨ht, hs, hq, hn⟩
  rcases k with k | k | k | k
  · simp [k] at ht
  · exact k hs
  · exact k hq
  · exact Nat.not_lt.mpr hn k

theorem execFollowUpReceive_none (hp : (ptpLane s l).twoStep = none) (origin : PtpStamp) :
    execFollowUpReceive l source seqId origin corr s h = .next s := by
  rw [execFollowUpReceive, hp]

end

/-! ### The delay exchange -/

/-- A Delay_Req leaves in its turn, and the next follows after a drawn time (R424, R425). -/
theorem execDelayReqTimer_leaves {s : State} {l : LaneId} (hh : ptpHears s l = true)
    (hm : (ptpLane s l).master.isSome = true) (hd : (ptpLane s l).reqDue ≤ s.now)
    (hf : (lastSecond s (ptpLane s l).reqs).length < 16) (quanta : Int) : execDelayReqTimer l quanta s = .next (bump
      (emit (.frame l (delayReqFrame s l (((ptpLane s l).reqId + 1) % 65536))) (onPtp l (fun x => { x with
        t3 := some (stampNow s quanta)
        reqId := ((ptpLane s l).reqId + 1) % 65536
        reqs := s.now :: lastSecond s (ptpLane s l).reqs
        reqDue := s.now + draw s (2 * logSec (ptpLane s l).reqLog + 1) }) s))) := by
  refine if_pos ⟨hh, hm, ?_⟩
  rw [delayReqDue, decide_eq_true hd, decide_eq_true hf]
  rfl

theorem execDelayReqTimer_idle {s : State} {l : LaneId} (quanta : Int) (k : ptpHears s l = false ∨
    (ptpLane s l).master = none ∨ s.now < (ptpLane s l).reqDue ∨ 16 ≤ (lastSecond s (ptpLane s l).reqs).length) :
    execDelayReqTimer l quanta s = .next s := by
  refine if_neg ?_
  rw [delayReqDue, Bool.and_eq_true, decide_eq_true_eq, decide_eq_true_eq]
  rintro ⟨hh, hm, hd, hf⟩
  rcases k with k | k | k | k
  · simp [k] at hh
  · simp [k] at hm
  · exact Nat.not_lt.mpr hd k
  · exact Nat.not_lt.mpr k hf

/-- The mean path delay that the answer to a Delay_Req sent at `t3` gives (R427). -/
def meanDelay (x : PtpLane) (t3 : Int) (rx : PtpStamp) (corr : BitVec 64) : Int :=
  (timeDiff x.t2 x.t1 + timeDiff (stampTicks rx - corrTicks corr) t3) / 2

/-- A lane with its mean path delay measured (R425, R427). -/
def delayKnown (m log : Int) (x : PtpLane) : PtpLane := { x with mpd := m, t3 := none, reqLog := log }

section
variable {s : State} {l : LaneId} {h : PtpHead} {source : BitVec 80} {seqId : BitVec 16} {requesting : List Byte}

/-- The answer of the master to the Delay_Req outstanding gives the mean path delay, the servo's on its lane
(R423, R425, R427). -/
theorem execDelayRespReceive_measures {t3 : Int} (ht : ptpTakes s l false h = true) (h3 : (ptpLane s l).t3 = some t3)
    (hm : (ptpLane s l).master.map (·.source) = some source) (hq : seqId.toNat = (ptpLane s l).reqId)
    (hr : requesting = portIdentity s) (rx : PtpStamp) (corr : BitVec 64) (log : BitVec 8) {m : Int}
    (hd : m = meanDelay (ptpLane s l) t3 rx corr) :
    execDelayRespReceive l source seqId rx corr s h log requesting = .next (
      let u := onPtp l (delayKnown m log.toInt) s
      if servoLane s = l then { u with ptp := { u.ptp with mpd := m } } else u) := by
  rw [execDelayRespReceive, h3]
  dsimp only
  rw [if_neg (by simp [ht, hm, hq, hr]), hd]
  rfl

theorem execDelayRespReceive_idle (rx : PtpStamp) (corr : BitVec 64) (log : BitVec 8) (k : (ptpLane s l).t3 = none ∨
    ptpTakes s l false h = false ∨ (ptpLane s l).master.map (·.source) ≠ some source ∨
    seqId.toNat ≠ (ptpLane s l).reqId ∨ requesting ≠ portIdentity s) :
    execDelayRespReceive l source seqId rx corr s h log requesting = .next s := by
  rw [execDelayRespReceive]
  dsimp only
  cases h3 : (ptpLane s l).t3 with
  | none => rfl
  | some t3 => exact if_pos (k.resolve_left (by simp [h3]))

end

/-! ### The exchange of a lane -/

/-- Settles O43: each clause by the rule of its command above. -/
theorem ptpExchangeOfALane : Obligations.PtpExchangeOfALane := by
  unfold Obligations.PtpExchangeOfALane
  refine ⟨ptpTakes_iff, ?announce, fun a b => ⟨rfl, rfl⟩, fun a b => better_of_prio1, fun a b => better_of_steps,
    ?lost, fun s l h a => ⟨fun ht => execAnnounceReceive_idle ht a, fun hm => execAnnounceTimeout_idle hm⟩, ?oneStep,
    ?servo, ?twoStep, fun s l h m quanta k => execSyncReceive_idle quanta k, ?followUp,
    fun s l h source seqId origin corr p hp k => execFollowUpReceive_other hp origin k,
    fun s l h source seqId origin corr hp => execFollowUpReceive_none hp origin, fun s l => rfl, ?delayReq,
    fun s l quanta k => execDelayReqTimer_idle quanta k, ?delayResp,
    fun s l h source seqId rx corr log requesting k => execDelayRespReceive_idle rx corr log k⟩
  case announce =>
    rintro s l h a c ht rfl
    obtain ⟨t, exec, only, state⟩ := execAnnounceReceive_takes ht a
    obtain ⟨candidates, master⟩ := setCandidates_ptpLane l (heard s l a) s
    refine ⟨t, exec, ?_, ?_, state, ?_, only.net, only.out, only.flt⟩
    · rw [only.ptpLane]
      exact candidates
    · rw [only.ptpLane]
      exact master
    · rw [only.ptpLane]
      exact setCandidates_otherLane ..
  case lost =>
    rintro s l m c hm rfl
    have only := watchPaths_servoOnly (masterLost l m s)
    have before (k : LaneId) : ptpLane (masterLost l m s) k = ptpLane (setCandidates l (unheard s l m) s) k :=
      ptpLane_congr (congrArg Ptp.pl (masterLost_ptp l m s)) k
    have lane (k : LaneId) := (only.ptpLane k).trans (before k)
    obtain ⟨candidates, master⟩ := setCandidates_ptpLane l (unheard s l m) s
    refine ⟨_, execAnnounceTimeout_loses hm, ?_, ?_, fun hl ho => ?_, fun ho => ?_, fun ho hc h1 => ?_, ?_⟩
    · rw [lane]
      exact candidates
    · rw [lane]
      exact master
    · exact (classCount_congr only.flt _).trans (masterLost_classCount l m s hl ho)
    · exact only.flt.trans (masterLost_flt l m s ho)
    · have none : standing s (unheard s l m) = [] := hc
      have here : pathUsable (masterLost l m s) l = false :=
        pathUsable_of_master_none (by rw [before, master, none]; rfl)
      have there : pathUsable (masterLost l m s) (otherLane l) = false :=
        pathUsable_of_master_none (by rw [before, setCandidates_otherLane, ho])
      obtain ⟨noA, noB⟩ := forall_lane (p := fun k => pathUsable (masterLost l m s) k = false) l here there
      exact (watchPaths_holdover (by rw [masterLost_ptp]; exact h1) noA noB).1
    · rw [lane]
      exact setCandidates_otherLane ..
  case oneStep =>
    intro s l h m quanta ht hm hf ha h2
    obtain ⟨here, there, net, out, -⟩ := useSync_keeps l (stampTicks m.origin + corrTicks m.corr) (stampNow s quanta)
      (syncNoted l s)
    rw [syncNoted_ptpLane] at here
    refine ⟨_, SyncTaken.completes ⟨ht, hm, hf, ha⟩ quanta h2, here, fun unfed => ?_,
      there.trans (ptpLane_onPtp_otherLane ..), net, out⟩
    rw [useSync_eq, syncNoted_pathUsable, if_neg]
    · exact ⟨rfl, rfl, rfl⟩
    · rintro ⟨lane, path⟩
      rcases unfed with k | k
      · exact k lane
      · simp [k] at path
  case servo =>
    rintro s l h m quanta off ht hm hf ha h2 hl hp rfl
    refine ⟨_, SyncTaken.completes ⟨ht, hm, hf, ha⟩ quanta h2, ?_⟩
    rw [useSync_eq, syncNoted_pathUsable, if_pos ⟨hl, hp⟩, syncNoted_offsetOf]
    refine ⟨(servo_ran ..).offset, fun large => servo_large (by exact_mod_cast large),
      fun small => servo_small (by exact_mod_cast small), fun far => servo_unlocks far _,
      fun near small => servo_locks near (by exact_mod_cast small)⟩
  case twoStep =>
    intro s l h m quanta ht hm hf ha h2
    exact ⟨_, SyncTaken.waits ⟨ht, hm, hf, ha⟩ quanta h2, ptpLane_onPtp .., rfl, rfl, rfl, ptpLane_onPtp_otherLane ..,
      rfl, rfl⟩
  case followUp =>
    rintro s l h source seqId origin corr p t1 ht hp hs hq hn rfl
    obtain ⟨here, there, net, out, offset⟩ := useSync_keeps l
      (stampTicks origin + corrTicks p.msg.corr + corrTicks corr) p.rx s
    exact ⟨_, execFollowUpReceive_completes ht hp hs hq hn origin, here, offset, there, net, out⟩
  case delayReq =>
    rintro s l quanta n hh hm hd hf rfl
    refine ⟨_, draw s (2 * logSec (ptpLane s l).reqLog + 1), execDelayReqTimer_leaves hh hm hd hf quanta,
      Nat.le_of_lt_succ (Nat.mod_lt _ (Nat.succ_pos _)), ptpLane_onPtp .., rfl, rfl, rfl, ptpLane_onPtp_otherLane ..⟩
  case delayResp =>
    intro s l h source seqId rx corr log requesting t3 m ht h3 hm hq hr hd
    refine ⟨_, execDelayRespReceive_measures ht h3 hm hq hr rx corr log hd, ?_⟩
    have here : ptpLane (onPtp l (delayKnown m log.toInt) s) l = delayKnown m log.toInt (ptpLane s l) :=
      ptpLane_onPtp ..
    have there : ptpLane (onPtp l (delayKnown m log.toInt) s) (otherLane l) = ptpLane s (otherLane l) :=
      ptpLane_onPtp_otherLane ..
    dsimp only
    split
    · exact ⟨here, rfl, rfl, rfl, there, rfl, rfl⟩
    · exact ⟨here, rfl, rfl, rfl, there, rfl, rfl⟩

end Sys2Proof.Machine

/-! SUPPORT. The clocks that follow precision time (family 11_egress.md): what a marker says of a time path, the servo's
change of lane, line-counter time and PPS. Settles O44. -/

namespace Sys2Proof.Machine

/-! ### Markers -/

/-- A marker of a lane is judged: the lane is up, the counter runs on a clock, no re-init runs (R431). -/
structure MarkerJudged (s : State) (l : LaneId) : Prop where
  up : (egLane s l).up = true
  running : s.ptp.running = true
  clock : clocked s = true
  free : reinitBusy .egress s = false

/-- The bad markers in a row, after one more (R431). -/
def oneBad (x : PtpLane) : PtpLane := { x with markerBad := Nat.min 2 (x.markerBad + 1) }

/-- One more bad marker is the second in a row where one was noted (R431). -/
theorem second_bad {n : Nat} (h : 1 ≤ n) : Nat.min 2 (n + 1) = 2 :=
  Nat.min_eq_left (Nat.succ_le_succ h)

/-- The standing code of a faulty time path (R431, Table 3.1). -/
def pathCode (l : LaneId) : BitVec 16 := faultCode 0x41 ((laneIx l).val + 1)

/-- A time path found faulty, before the servo takes note of it (R431). -/
def pathFound (l : LaneId) (s : State) : State :=
  onPtp l (fun x => { x with pathFault := true }) (stand (pathCode l) (report (pathCode l) (onPtp l oneBad s)))

/-- A time path found good, before the servo takes note of it (R431). -/
def pathCleared (l : LaneId) (s : State) : State :=
  onPtp l (fun x => { x with markerBad := 0, pathFault := false }) (unstand (pathCode l) s)

theorem execTimePathMarker_idle {s : State} {l : LaneId} {tx rx : Int} (h : (egLane s l).up = false ∨
    s.ptp.running = false ∨ clocked s = false ∨ reinitBusy .egress s = true) : execTimePathMarker l tx rx s = .next s :=
  if_pos h

section
variable {s : State} {l : LaneId} {tx rx : Int}

theorem MarkerJudged.judges (h : MarkerJudged s l) : execTimePathMarker l tx rx s =
    if 3 ≤ tx.natAbs ∨ 3 ≤ rx.natAbs then
      if Nat.min 2 ((ptpLane s l).markerBad + 1) = 2 ∧ (ptpLane (onPtp l oneBad s) l).pathFault = false then
        .next (watchPaths (pathFound l s))
      else .next (onPtp l oneBad s)
    else .next (watchPaths (pathCleared l s)) := by
  have judged : ¬((egLane s l).up = false ∨ s.ptp.running = false ∨ clocked s = false ∨
      reinitBusy .egress s = true) := by
    simp [h.up, h.running, h.clock, h.free]
  have noted : onPtp l (fun x => { x with markerBad := Nat.min 2 ((ptpLane s l).markerBad + 1) }) s =
      onPtp l oneBad s := onPtp_congr rfl
  rw [execTimePathMarker]
  dsimp only
  rw [if_neg judged, noted]
  rfl

/-- The first bad marker is noted (R431). -/
theorem MarkerJudged.first (h : MarkerJudged s l) (hn : (ptpLane s l).markerBad = 0)
    (hb : 3 ≤ tx.natAbs ∨ 3 ≤ rx.natAbs) :
    execTimePathMarker l tx rx s = .next (onPtp l (fun x => { x with markerBad := 1 }) s) := by
  have one : onPtp l oneBad s = onPtp l (fun x => { x with markerBad := 1 }) s :=
    onPtp_congr (by rw [oneBad, hn]; rfl)
  rw [h.judges, if_pos hb, if_neg (fun k => absurd (hn ▸ k.1) (by decide)), one]

/-- The second in a row makes the path faulty (R431). -/
theorem MarkerJudged.second (h : MarkerJudged s l) (hn : 1 ≤ (ptpLane s l).markerBad)
    (hf : (ptpLane s l).pathFault = false) (hb : 3 ≤ tx.natAbs ∨ 3 ≤ rx.natAbs) :
    execTimePathMarker l tx rx s = .next (watchPaths (pathFound l s)) := by
  rw [h.judges, if_pos hb, if_pos ⟨second_bad hn, by rw [ptpLane_onPtp]; exact hf⟩]

/-- A path that is faulty stays so (R431). -/
theorem MarkerJudged.again (h : MarkerJudged s l) (hf : (ptpLane s l).pathFault = true)
    (hb : 3 ≤ tx.natAbs ∨ 3 ≤ rx.natAbs) : execTimePathMarker l tx rx s = .next (onPtp l oneBad s) := by
  have faulty : (ptpLane (onPtp l oneBad s) l).pathFault = true := by rw [ptpLane_onPtp]; exact hf
  rw [h.judges, if_pos hb, faulty, if_neg (fun k => Bool.noConfusion k.2)]

/-- A good marker clears the path (R431). -/
theorem MarkerJudged.good (h : MarkerJudged s l) (ht : tx.natAbs < 3) (hr : rx.natAbs < 3) :
    execTimePathMarker l tx rx s = .next (watchPaths (pathCleared l s)) := by
  rw [h.judges, if_neg (by omega)]

end

section
variable (l : LaneId) (s : State)

/-- The standing code and its report change nothing of the exchange. -/
theorem reported_ptp (code : BitVec 16) : (stand code (report code s)).ptp = s.ptp := by
  rw [stand_changes, report_ptp]

theorem pathFound_ptpLane (hn : 1 ≤ (ptpLane s l).markerBad) :
    ptpLane (pathFound l s) l = { ptpLane s l with markerBad := 2, pathFault := true } := by
  have noted : oneBad (ptpLane s l) = { ptpLane s l with markerBad := 2 } := by
    rw [oneBad, second_bad hn]
  rw [pathFound, ptpLane_onPtp, ptpLane_congr (congrArg Ptp.pl (reported_ptp _ _)), ptpLane_onPtp, noted]

theorem pathFound_otherLane : ptpLane (pathFound l s) (otherLane l) = ptpLane s (otherLane l) := by
  rw [pathFound, ptpLane_onPtp_otherLane, ptpLane_congr (congrArg Ptp.pl (reported_ptp _ _)), ptpLane_onPtp_otherLane]

theorem pathFound_classCount : classCount (pathFound l s) 0x41 = satInc 32 (classCount s 0x41) :=
  (stand_classCount ..).trans (classCount_report_faultCode (by decide) _ _)

theorem pathFound_unusable : pathUsable (pathFound l s) l = false := by
  have faulty : (ptpLane (pathFound l s) l).pathFault = true := by rw [pathFound, ptpLane_onPtp]
  rw [pathUsable, faulty, Bool.not_true, Bool.and_false]

end

/-! ### The servo changes its lane -/

/-- The servo on a lane that it was not on, the change counted (R430). -/
theorem useLane_other {l : LaneId} {s : State} (h : servoLane s ≠ l) : useLane l s = { s with ptp := { s.ptp with
    lane := (laneIx l).val, failover := satInc 32 s.ptp.failover, goodRun := 0, mpd := (ptpLane s l).mpd } } :=
  if_neg h

/-- When lane A's time path is lost and B's is usable the servo goes to B, and a locked clock stays locked
(R430, R433). -/
theorem watchPaths_failover {s : State} (h0 : s.ptp.lane = 0) (ha : pathUsable s .a = false)
    (hb : pathUsable s .b = true) : (watchPaths s).ptp.lane = 1 ∧
      (watchPaths s).ptp.failover = satInc 32 s.ptp.failover ∧ (watchPaths s).ptp.mpd = (ptpLane s .b).mpd ∧
      (s.ptp.state = 1 → (watchPaths s).ptp.state = 1) := by
  have onA : servoLane (noteA s) ≠ .b := by
    rw [servoLane, if_pos (show (noteA s).ptp.lane = 0 from h0)]
    decide
  have moved : (chosen s).ptp.lane = 1 ∧ (chosen s).ptp.failover = satInc 32 s.ptp.failover ∧
      (chosen s).ptp.mpd = (ptpLane s .b).mpd := by
    rw [chosen, if_pos ⟨h0, ha, .inl hb⟩, useLane_other onA]
    exact ⟨rfl, rfl, rfl⟩
  obtain ⟨lane, failover, mpd⟩ := moved
  rw [watchPaths_eq, if_neg (by simp [hb])]
  split
  · next held =>
    rw [setPtpState_ptp]
    exact ⟨lane, failover, mpd, fun locked => absurd (held.1.symm.trans ((chosen_keeps s).1.trans locked)) (by decide)⟩
  · exact ⟨lane, failover, mpd, fun locked => (chosen_keeps s).1.trans locked⟩

/-- The loss of a lane leaves the time path of the other (R430). -/
theorem lost_pathUsable_otherLane (l f s) : pathUsable (lost l f s) (otherLane l) = pathUsable s (otherLane l) :=
  pathUsable_congr (lost_egLane_otherLane l f s) (lost_sys l f s) (ptpLane_congr (congrArg Ptp.pl (lost_ptp l f s)) _)

theorem lost_pathUsable (l f s) : pathUsable (lost l f s) l = false := by
  rw [pathUsable, lost_unusable, Bool.false_and, Bool.false_and]

/-- Fail-back gives the servo lane A (R430). -/
theorem execPtpFailback_returns {s : State} {t0 : Nat} (ha : pathUsable s .a = true) (hs : s.ptp.aSince = some t0)
    (ht : t0 + sec 60 ≤ s.now) (hl : s.ptp.lane ≠ 0) : execPtpFailback s = .next { s with ptp := { s.ptp with
      lane := 0, failover := satInc 32 s.ptp.failover, goodRun := 0, mpd := (ptpLane s .a).mpd } } := by
  have due : backDue s = true := by simp [backDue, ha, hs, ht]
  have onB : servoLane s ≠ .a := by
    rw [servoLane, if_neg hl]
    decide
  rw [execPtpFailback, if_pos due, useLane_other onB]
  rfl

theorem execPtpFailback_idle {s : State} (h : pathUsable s .a = false ∨ s.ptp.aSince = none ∨
    s.ptp.aSince.any (fun x => decide (s.now < x + sec 60)) = true ∨ s.ptp.lane = 0) :
    execPtpFailback s = .next s := by
  have onA (h0 : s.ptp.lane = 0) : useLane .a s = s := if_pos (by rw [servoLane, if_pos h0])
  rw [execPtpFailback]
  rcases h with h | h | h | h
  · rw [if_neg (by simp [backDue, h])]
  · rw [if_neg (by simp [backDue, h])]
  · obtain ⟨t0, hs, early⟩ := (Option.any_eq_true ..).mp h
    rw [if_neg (by simp [backDue, hs, of_decide_eq_true early])]
  · rw [onA h, ite_self]

/-! ### Line-counter time and PPS -/

/-- While locked and within 5 µs line-counter time takes the counter's (R434). -/
theorem execTlcResync_follows {s : State} {x : Int} (hx : tlcTicks s = some x) (h1 : s.ptp.state = 1)
    (hn : (timeDiff (ptpTicks s) x).natAbs ≤ 5000 * 655360) : execTlcResync s = .next (lineTimeSet s) := by
  rw [execTlcResync, hx]
  exact if_pos ⟨h1, hn⟩

theorem execTlcResync_idle {s : State} (h : tlcTicks s = none ∨ s.ptp.state ≠ 1 ∨
    (tlcTicks s).any (fun x => decide (5000 * 655360 < (timeDiff (ptpTicks s) x).natAbs)) = true) :
    execTlcResync s = .next s := by
  rw [execTlcResync]
  cases hx : tlcTicks s with
  | none => rfl
  | some x =>
    refine if_neg ?_
    rintro ⟨locked, near⟩
    rcases h with h | h | h
    · simp [hx] at h
    · exact h locked
    · rw [hx, Option.any_some, decide_eq_true_eq] at h
      exact Nat.not_le.mpr h near

/-- An edge of PPS changes the pin alone (R438). -/
theorem withPins_pps (b : Bool) (s : State) :
    (withPins (fun t => { t with ptp := { t.ptp with pps := b } }) s).ptp = { s.ptp with pps := b } ∧
      (withPins (fun t => { t with ptp := { t.ptp with pps := b } }) s).spr = s.spr ∧
      (withPins (fun t => { t with ptp := { t.ptp with pps := b } }) s).net = s.net := by
  rw [withPins_changes]
  exact ⟨rfl, rfl, rfl⟩

/-- Settles O44: each clause by the rule of its command above. -/
theorem timePathsClockAndPps : Obligations.TimePathsClockAndPps := by
  unfold Obligations.TimePathsClockAndPps
  refine ⟨fun s l tx rx hu hr hc hb hn hf bad => MarkerJudged.first ⟨hu, hr, hc, hb⟩ hn bad, ?second, ?again, ?good,
    fun s l tx rx h => execTimePathMarker_idle h, ?failover, ?holdover,
    fun s t0 ha hs ht hl => execPtpFailback_returns ha hs ht hl, fun s h => execPtpFailback_idle h,
    fun s x hx h1 hn => ⟨_, execTlcResync_follows hx h1 hn, rfl, rfl, rfl⟩, fun s h => execTlcResync_idle h,
    fun s h => ⟨_, congrArg Host.Outcome.next (if_pos h), withPins_pps true s⟩,
    fun s h => congrArg Host.Outcome.next (if_neg (by simp [h])), fun s => ⟨_, rfl, withPins_pps false s⟩⟩
  case second =>
    intro s l tx rx hu hr hc hb hn hf bad
    have only := watchPaths_servoOnly (pathFound l s)
    exact ⟨_, MarkerJudged.second ⟨hu, hr, hc, hb⟩ hn hf bad, (only.ptpLane l).trans (pathFound_ptpLane l s hn),
      (classCount_congr only.flt _).trans (pathFound_classCount l s),
      (only.pathUsable l).trans (pathFound_unusable l s),
      (only.ptpLane _).trans (pathFound_otherLane l s)⟩
  case again =>
    intro s l tx rx hu hr hc hb hf bad
    exact ⟨_, MarkerJudged.again ⟨hu, hr, hc, hb⟩ hf bad, by rw [ptpLane_onPtp]; exact hf, rfl, rfl,
      ptpLane_onPtp_otherLane ..⟩
  case good =>
    intro s l tx rx hu hr hc hb ht hrx
    have only := watchPaths_servoOnly (pathCleared l s)
    exact ⟨_, MarkerJudged.good ⟨hu, hr, hc, hb⟩ ht hrx, (only.ptpLane l).trans (ptpLane_onPtp ..),
      (congrArg Flt.classCount only.flt).trans rfl, (only.ptpLane _).trans (ptpLane_onPtp_otherLane ..)⟩
  case failover =>
    intro s hl h0 hb
    have moved := watchPaths_failover (s := lost .a unlocked s) (by rw [lost_ptp]; exact h0) (lost_pathUsable ..)
      ((lost_pathUsable_otherLane .a unlocked s).trans hb)
    rw [lost_ptp, ptpLane_congr (congrArg Ptp.pl (lost_ptp ..))] at moved
    exact ⟨_, execBlockLockLoss_loses hl, moved⟩
  case holdover =>
    intro s l hl h1 ho
    obtain ⟨noA, noB⟩ := forall_lane (p := fun k => pathUsable (lost l unlocked s) k = false) l
      (lost_pathUsable ..) ((lost_pathUsable_otherLane ..).trans ho)
    obtain ⟨state, freq⟩ := watchPaths_holdover (by rw [lost_ptp]; exact h1) noA noB
    exact ⟨_, execBlockLockLoss_loses hl, state, freq.trans (congrArg Ptp.freq (lost_ptp ..))⟩

end Sys2Proof.Machine

/-! SUPPORT. The loss of a link under a group master that holds a lower AGREE of another image (family 12_starling.md):
two codes of class 0x50 in one step. Refutes O45. -/

namespace Sys2Proof.Machine

/-- A group master of DEV_ID 9 in RUN, both links up, that still holds an AGREE of device 3 with another image. It knows
the closed ring of the two as one bar, and itself as the bar's encoder master. -/
def heardForeign : State := { State.reset with
  sys := { Sys.reset with code := .run, spllLocked := true }
  img := { Image.reset with valid := true, items := [⟨Fld.devId.id, 8, 0, [9]⟩] }
  star := { Star.reset with
    port := Vector.replicate 2 { Port.reset with up := true, passive := false }
    groupMaster := true
    heard := [{ Agree.reset with src := 3, hash := 1 }]
    holders := [(0, some 9)]
    map := [{ RingDev.reset with id := 9 }, { RingDev.reset with id := 3, place := 1 }]
    mapN := 2 } }

/-- The loss of its East link is reported as 0x5001. The break calls for a detour (R475), whose AGREE has the master
look again at whom it follows, and it reports device 3's image as 0x5003 (R461, R482). -/
theorem heardForeign_linkDown_counts_two :
    classCount (nextOf heardForeign (exec (.linkDown .east) heardForeign)) 0x50 = 2 := by
  decide +kernel

/-- Refutes O45: the loss of a link adds 2 to the count of class 0x50 where the detour's AGREE shows another image. -/
theorem not_linksFramesAndMeasuredDelays : ¬ Obligations.LinksFramesAndMeasuredDelays := by
  unfold Obligations.LinksFramesAndMeasuredDelays
  rintro ⟨-, -, -, countedOnce, -⟩
  obtain ⟨t, next, -, once, -⟩ := countedOnce heardForeign .east (by decide) (by decide)
  have two := heardForeign_linkDown_counts_two
  have none_before : satInc 32 (classCount heardForeign 0x50) = 1 := by decide +kernel
  rw [next, nextOf_next, once, none_before] at two
  exact absurd two (by decide)

end Sys2Proof.Machine

/-! SUPPORT. Frames of the ring and the election of the group master (family 12_starling.md): which frames a port takes,
whom the device follows, what AGREE, ROLE and detours leave alone, and the rules of each frame and timer. Settles
O46. -/

namespace Sys2Proof.Machine

/-! ### Changes of state -/

/-- The state with other outputs so far. -/
def withOut (o : List Out) (s : State) : State :=
  { s with out := o }

@[simp] theorem withOut_now (o : List Out) (s : State) : (withOut o s).now = s.now := rfl
@[simp] theorem withOut_star (o : List Out) (s : State) : (withOut o s).star = s.star := rfl
@[simp] theorem withOut_isOwn (o : List Out) (s : State) (src) : isOwn (withOut o s) src = isOwn s src := rfl

/-- A fold of changes that each keep a view of the state keeps it. -/
theorem foldl_keeps {α β : Type} (v : State → α) {f : State → β → State} (h : ∀ t x, v (f t x) = v t) (l : List β)
    (s : State) : v (l.foldl f s) = v s := by
  induction l generalizing s with
  | nil => rfl
  | cons x r ih => exact (ih _).trans (h s x)

/-- A report changes the FLT bookkeeping and the log. -/
theorem report_changes (code : BitVec 16) (s : State) :
    report code s = { s with flt := (report code s).flt, log := (report code s).log } := by
  unfold report queueSummary summarise
  split <;> split <;> rfl

theorem portAt_congr {s t : State} (h : t.star = s.star) (d : Side) : portAt t d = portAt s d := by
  rw [portAt, portAt, h]

theorem portAt_onPort (d : Side) (f : Port → Port) (s : State) : portAt (onPort d f s) d = f (portAt s d) :=
  vmod_same ..

theorem portAt_onPort_otherSide (d : Side) (f : Port → Port) (s : State) :
    portAt (onPort d f s) (otherSide d) = portAt s (otherSide d) :=
  vmod_other _ _ _ _ (by cases d <;> decide)

/-! ### Frames a port sends and takes -/

/-- A ring frame leaves on each live port (R455). -/
theorem sendRing_out (f : StarFrame) (s : State) : (sendRing f s).out =
    (if portLive s .east then [starOut .east (ownHead s) f] else []) ++
      (if portLive s .west then [starOut .west (ownHead s) f] else []) ++ s.out := by
  have sentEast (o : List Out) : (sendFrame .east f { s with out := o }).out =
      (if portLive s .east then [starOut .east (ownHead s) f] else []) ++ o := by
    rw [sendFrame_eq, apply_ite State.out]
    change (if portLive s .east = true then starOut .east (ownHead s) f :: o else o) = _
    split <;> rfl
  have sentWest : (sendFrame .west f s).out =
      (if portLive s .west then [starOut .west (ownHead s) f] else []) ++ s.out := by
    rw [sendFrame_eq, apply_ite State.out]
    split <;> rfl
  rw [sendRing, sides, List.foldl_cons, List.foldl_cons, List.foldl_nil, sendFrame_changes .west, sentEast, sentWest,
    List.append_assoc]

theorem mem_sendRing_out {d : Side} {s : State} (f : StarFrame) (live : portLive s d = true) :
    starOut d (ownHead s) f ∈ (sendRing f s).out := by
  rw [sendRing_out]
  cases d with
  | west => simp [live]
  | east => simp [live]

/-- A relayed frame changes nothing but what has left the package. -/
theorem relay_changes (d : Side) (hd : FrameHead) (f : StarFrame) (s : State) :
    relay d hd f s = { s with out := (relay d hd f s).out } := by
  unfold relay
  split <;> rfl

@[simp] theorem countCrc_good (d : Side) (s : State) : countCrc d true s = s := if_pos (.inl rfl)

/-- A good frame on a port that is up and active (R454, R455). -/
structure GoodFrame (s : State) (d : Side) (hd : FrameHead) : Prop where
  up : (portAt s d).up = true
  active : portActive s d = true
  good : frameGood hd = true

/-- A good frame of the device's own version, from another device that names itself (R457, R482). -/
structure FromOther (s : State) (d : Side) (hd : FrameHead) : Prop extends GoodFrame s d hd where
  pv : hd.pv = 1
  named : idNone hd.src = false
  other : isOwn s hd.src = false

/-- A good ring-scope frame is taken, whether or not it is forwarded (R455). -/
theorem GoodFrame.taken {s : State} {d : Side} {hd : FrameHead} (h : GoodFrame s d hd) (f : StarFrame)
    (take : State → State) : ∃ o, ringScope d hd f take s = take (withOut o s) := by
  have crc : hd.crcOk = true := (Bool.and_eq_true_iff.mp h.good).1
  simp only [ringScope, crc, countCrc_good, h.up, h.active, h.good, Bool.true_eq_false, if_false, if_true]
  split
  · exact ⟨s.out, rfl⟩
  · exact ⟨_, congrArg take (relay_changes d hd f s)⟩

/-- A frame does not show a second device with the own DEV_ID (R458). -/
theorem checkDup_none {src : BitVec 16} {nonce : BitVec 32} {s : State}
    (h : isOwn s src = true → nonce = s.star.nonce) : checkDup src nonce s = s :=
  if_neg fun k => k.2 (h k.1)

theorem checkDup_other {src : BitVec 16} {s : State} (h : isOwn s src = false) (nonce : BitVec 32) :
    checkDup src nonce s = s :=
  checkDup_none fun k => Bool.noConfusion (h.symm.trans k)

/-! ### The AGREE followed -/

/-- The AGREE frames of the last 5 ms (R461). -/
def heardNow (s : State) : List Agree :=
  s.star.heard.filter fun a => decide (s.now ≤ a.time + ms 5)

/-- The lowest of the AGREE frames of the last 5 ms is followed, and its image hash compared (R461, R482). -/
theorem follow_changes (s : State) : follow s = { s with
    star := { s.star with
      heard := heardNow s
      last := (heardNow s).head?.getD s.star.last
      foreign := (heardNow s).head?.elim s.star.foreign fun a => decide (a.hash ≠ s.img.groupHash) }
    flt := (follow s).flt
    log := (follow s).log } := by
  rw [follow]
  dsimp only
  split
  · next none =>
    have none : (heardNow s).head? = .none := none
    rw [none]
    rfl
  · next a lowest =>
    have lowest : (heardNow s).head? = some a := lowest
    rw [lowest]
    split
    · rw [report_changes]
      rfl
    · rfl

theorem follow_star_of_head {s : State} {a : Agree} (h : (heardNow s).head? = some a) : (follow s).star = { s.star with
    heard := heardNow s, last := a, foreign := decide (a.hash ≠ s.img.groupHash) } := by
  rw [follow_changes, h]
  rfl

theorem mem_insertAgree_self (a : Agree) (l : List Agree) : a ∈ insertAgree a l := by
  induction l with
  | nil => exact List.mem_singleton_self a
  | cons b r ih =>
    rw [insertAgree]
    split
    · exact List.mem_cons_self
    · split
      · exact List.mem_cons_self
      · exact List.mem_cons_of_mem b ih

/-- An AGREE takes the place of one of its own SRC alone (R461). -/
theorem mem_insertAgree_of_src_ne {a b : Agree} {l : List Agree} (hb : b ∈ l) (hs : b.src ≠ a.src) :
    b ∈ insertAgree a l := by
  induction l with
  | nil => cases hb
  | cons c r ih =>
    rw [insertAgree]
    split
    · exact List.mem_cons_of_mem a hb
    · split
      · next same =>
        have inRest : b ∈ r := (List.mem_cons.mp hb).resolve_left fun e => hs (e ▸ same.symm)
        exact List.mem_cons_of_mem a inRest
      · rcases List.mem_cons.mp hb with rfl | inRest
        · exact List.mem_cons_self
        · exact List.mem_cons_of_mem c (ih inRest)

theorem mem_of_mem_insertAgree {a b : Agree} {l : List Agree} (h : b ∈ insertAgree a l) : b = a ∨ b ∈ l := by
  induction l with
  | nil => exact .inl (List.mem_singleton.mp h)
  | cons c r ih =>
    rw [insertAgree] at h
    split at h
    · exact List.mem_cons.mp h
    · split at h
      · exact (List.mem_cons.mp h).imp_right (List.mem_cons_of_mem c)
      · rcases List.mem_cons.mp h with rfl | h
        · exact .inr List.mem_cons_self
        · exact (ih h).imp_right (List.mem_cons_of_mem c)

/-- The head of the AGREE frames in order of SRC stays the lowest (R461). -/
theorem head_insertAgree_le {a x : Agree} {l : List Agree} (hl : l.Pairwise fun y z => y.src < z.src)
    (hx : (insertAgree a l).head? = some x) : ∀ y ∈ insertAgree a l, x.src ≤ y.src := by
  cases l with
  | nil =>
    obtain rfl : a = x := Option.some.inj hx
    intro y hy
    rw [List.mem_singleton.mp hy]
  | cons c r =>
    obtain ⟨lowest, -⟩ := List.pairwise_cons.mp hl
    have above (y : Agree) (hy : y ∈ insertAgree a (c :: r)) : y = a ∨ y = c ∨ c.src < y.src :=
      (mem_of_mem_insertAgree hy).imp_right fun h => (List.mem_cons.mp h).imp_right (lowest y)
    have first : x = a ∧ a.src ≤ c.src ∨ x = c ∧ c.src ≤ a.src := by
      rw [insertAgree] at hx
      split at hx
      · next lt => exact .inl ⟨(Option.some.inj hx).symm, Nat.le_of_lt lt⟩
      · split at hx
        · next same => exact .inl ⟨(Option.some.inj hx).symm, Nat.le_of_eq same⟩
        · next lt same => exact .inr ⟨(Option.some.inj hx).symm, Nat.le_of_not_lt lt⟩
    intro y hy
    rcases first with ⟨rfl, le⟩ | ⟨rfl, le⟩ <;> rcases above y hy with rfl | rfl | lt <;> omega

/-- An AGREE takes its place, and the device follows the lowest (R461). -/
def hear (x : Agree) (s : State) : State :=
  follow (onStar (fun y => { y with heard := insertAgree x y.heard }) s)

/-- An AGREE taken just now is among those of the last 5 ms, so one is followed (R461). -/
theorem hear_star {x : Agree} {s : State} (h : x.time = s.now) :
    x ∈ (insertAgree x s.star.heard).filter (fun a => decide (s.now ≤ a.time + ms 5)) ∧
    ∃ a, ((insertAgree x s.star.heard).filter (fun a => decide (s.now ≤ a.time + ms 5))).head? = some a ∧
      (hear x s).star = { s.star with
        heard := (insertAgree x s.star.heard).filter (fun a => decide (s.now ≤ a.time + ms 5))
        last := a
        foreign := decide (a.hash ≠ s.img.groupHash) } := by
  have mem : x ∈ (insertAgree x s.star.heard).filter (fun a => decide (s.now ≤ a.time + ms 5)) :=
    List.mem_filter.mpr ⟨mem_insertAgree_self x _, decide_eq_true (by omega)⟩
  obtain ⟨a, first⟩ := Option.isSome_iff_exists.mp (List.isSome_head?.mpr (List.ne_nil_of_mem mem))
  exact ⟨mem, a, first, follow_star_of_head first⟩

/-! ### What AGREE, ROLE and detours leave alone -/

/-- What the device knows and is while frames with roles come and go: claim, group master, ring and devices. -/
structure Tenure where
  claiming : Bool
  groupMaster : Bool
  ringN : Nat
  members : List Member
  breaks : List (Nat × Nat)

/-- The part of `s` that AGREE, ROLE and detours leave alone. -/
def tenure (s : State) : Tenure :=
  ⟨s.star.claiming, s.star.groupMaster, s.star.ringN, s.star.members, s.star.breaks⟩

/-- The payload of the group master's AGREE (R460). -/
def agreePay (s : State) : AgreePay :=
  ⟨s.star.nonce, BitVec.ofNat 32 s.star.epoch, s.img.groupHash, BitVec.ofNat 16 s.star.ringN,
    BitVec.ofNat 16 (s.star.detour.getD (0, 0, 0)).1, BitVec.ofNat 8 (s.star.detour.getD (0, 0, 0)).2.1,
    BitVec.ofNat 16 (s.star.detour.getD (0, 0, 0)).2.2⟩

/-- AGREE leaves, its return is awaited, and the master follows it with the others (R460, R461). -/
theorem sendAgree_changes (s : State) : sendAgree s = { s with
    star := { s.star with
      heard := (sendAgree s).star.heard
      last := (sendAgree s).star.last
      foreign := (sendAgree s).star.foreign
      returned := false }
    flt := (sendAgree s).flt
    log := (sendAgree s).log
    out := (sendRing (.agree (agreePay s)) s).out } := by
  rw [sendAgree, sendRing_changes, follow_changes]
  rfl

@[simp] theorem sendAgree_epoch (s : State) : (sendAgree s).star.epoch = s.star.epoch := by rw [sendAgree_changes]
@[simp] theorem sendAgree_holders (s : State) : (sendAgree s).star.holders = s.star.holders := by rw [sendAgree_changes]
@[simp] theorem sendAgree_detour (s : State) : (sendAgree s).star.detour = s.star.detour := by rw [sendAgree_changes]

@[simp] theorem sendAgree_tenure (s : State) : tenure (sendAgree s) = tenure s := by
  rw [sendAgree_changes]
  rfl

/-- The holder of a bar, granted or asked to hand over, is a matter of six fields (R462, R463). -/
theorem applyRole_changes (bar : Nat) (h : Option Nat) (s : State) : applyRole bar h s = { s with star := { s.star with
    holders := (applyRole bar h s).star.holders
    holder := (applyRole bar h s).star.holder
    granted := (applyRole bar h s).star.granted
    await := (applyRole bar h s).star.await
    bestLast := (applyRole bar h s).star.bestLast
    handover := (applyRole bar h s).star.handover } } := by
  rw [applyRole]
  dsimp only
  split
  · rfl
  · split
    · split <;> rfl
    · rfl

@[simp] theorem applyRole_tenure (bar h) (s : State) : tenure (applyRole bar h s) = tenure s := by
  rw [applyRole_changes]
  rfl

@[simp] theorem applyRole_epoch (bar h) (s : State) : (applyRole bar h s).star.epoch = s.star.epoch := by
  rw [applyRole_changes]

@[simp] theorem sendRole_tenure (bar : Nat) (s : State) : tenure (sendRole bar s) = tenure s := by
  rw [sendRole, applyRole_tenure, sendRing_changes]
  rfl

@[simp] theorem sendRole_epoch (bar : Nat) (s : State) : (sendRole bar s).star.epoch = s.star.epoch := by
  rw [sendRole, applyRole_epoch, sendRing_changes]

theorem sendRoles_tenure (bars : List Nat) (s : State) :
    tenure (bars.foldl (fun t b => sendRole b t) s) = tenure s :=
  foldl_keeps tenure (fun t b => sendRole_tenure b t) bars s

theorem sendRoles_epoch (bars : List Nat) (s : State) :
    (bars.foldl (fun t b => sendRole b t) s).star.epoch = s.star.epoch :=
  foldl_keeps (fun t => t.star.epoch) (fun t b => sendRole_epoch b t) bars s

/-! ### Grants -/

/-- The known bars whose holder is not the one they are granted now (R462). -/
def regranted (s : State) : List Nat :=
  (knownBars s).filter fun b => holderOf s b != some (grantOf s b)

/-- The holders that bars are granted now are noted (R462). -/
def grantsNoted (bars : List Nat) (s : State) : State :=
  (bars.map fun b => (b, grantOf s b)).foldl (fun t g => noteHolder g.1 g.2 t) s

theorem grantsNoted_keeps {α : Type} (v : State → α) (h : ∀ b x t, v (noteHolder b x t) = v t) (bars : List Nat)
    (s : State) : v (grantsNoted bars s) = v s :=
  foldl_keeps v (fun t (g : Nat × Option Nat) => h g.1 g.2 t) _ s

theorem grantRoles_idle {s : State} (h : s.star.groupMaster = false ∨ regranted s = []) : grantRoles s = s := by
  rw [grantRoles]
  rcases h with h | h
  · exact if_pos h
  · split
    · rfl
    · exact if_pos (List.isEmpty_iff.mpr h)

/-- Bars whose holder changes are granted theirs under a new epoch (R460, R462). -/
theorem grantRoles_grants {s : State} (hm : s.star.groupMaster = true) (hc : regranted s ≠ []) : grantRoles s =
    sendAgree ((regranted s).foldl (fun t b => sendRole b t) (newEpoch (grantsNoted (regranted s) s))) := by
  rw [grantRoles, if_neg (by simp [hm])]
  exact if_neg fun e => hc (List.isEmpty_iff.mp e)

theorem grantRoles_epoch {s : State} (hm : s.star.groupMaster = true) (hc : regranted s ≠ []) :
    (grantRoles s).star.epoch = (s.star.epoch + 1) % 2 ^ 32 := by
  have noted : (grantsNoted (regranted s) s).star.epoch = s.star.epoch :=
    grantsNoted_keeps (fun t => t.star.epoch) (fun _ _ _ => rfl) _ s
  rw [grantRoles_grants hm hc, sendAgree_epoch, sendRoles_epoch, newEpoch, onStar_star, noted]

@[simp] theorem grantRoles_tenure (s : State) : tenure (grantRoles s) = tenure s := by
  by_cases idle : s.star.groupMaster = false ∨ regranted s = []
  · rw [grantRoles_idle idle]
  · obtain ⟨master, changed⟩ := not_or.mp idle
    rw [grantRoles_grants (Bool.not_eq_false _ ▸ master) changed, sendAgree_tenure, sendRoles_tenure]
    exact grantsNoted_keeps tenure (fun _ _ _ => rfl) (regranted s) s

theorem grantRoles_members (s : State) : (grantRoles s).star.members = s.star.members :=
  congrArg Tenure.members (grantRoles_tenure s)

theorem ownBar_mem_knownBars (s : State) : ownBar s ∈ knownBars s :=
  List.mem_eraseDups.mpr (List.mem_append_left _ List.mem_cons_self)

/-- With no holder known the device's own bar is granted one. -/
theorem regranted_ne_nil {s : State} (h : s.star.holders = []) : regranted s ≠ [] := by
  have unheld : holderOf s (ownBar s) = none := by rw [holderOf, h]; rfl
  exact List.ne_nil_of_mem (List.mem_filter.mpr ⟨ownBar_mem_knownBars s, by rw [unheld]; rfl⟩)

/-- The present holder keeps the role while it is a candidate (R462). -/
theorem grantOf_holder {s : State} {bar h : Nat} (hh : holderOf s bar = some (some h))
    (hc : (allMembers s).any (fun m => isCandidate bar m && m.id == h) = true) : grantOf s bar = some h := by
  rw [grantOf, hh]
  exact if_pos (by rw [List.any_filter]; exact hc)

/-- Without a holder the preferred candidate is granted the role (R462). -/
theorem grantOf_best {s : State} {bar : Nat} (hh : (holderOf s bar).getD none = none) :
    grantOf s bar = (bestOf ((allMembers s).filter (isCandidate bar))).map (·.id) := by
  rw [grantOf]
  cases known : holderOf s bar with
  | none => rfl
  | some h =>
    rw [known] at hh
    obtain rfl : h = none := hh
    rfl

theorem preferred_iff (a b : Member) :
    preferred a b = true ↔ a.roles / 16 < b.roles / 16 ∨ a.roles / 16 = b.roles / 16 ∧ a.id < b.id := by
  simp [preferred]

theorem preferred_irrefl (a : Member) : preferred a a = false := by
  simp [preferred]

theorem preferred_asymm {a b : Member} (h : preferred a b = true) : preferred b a = false := by
  rw [← Bool.not_eq_true, preferred_iff]
  rw [preferred_iff] at h
  omega

theorem not_preferred_trans {a b c : Member} (hab : preferred a b = false) (hbc : preferred b c = false) :
    preferred a c = false := by
  rw [← Bool.not_eq_true, preferred_iff] at *
  omega

theorem bestOf_eq_none {l : List Member} (h : bestOf l = none) : l = [] := by
  cases l with
  | nil => rfl
  | cons m r =>
    rw [bestOf] at h
    split at h
    · cases h
    · split at h <;> cases h

/-- The best of a list is one of it, and none of the list is preferred to it (R462). -/
theorem bestOf_spec {l : List Member} {m : Member} (h : bestOf l = some m) :
    m ∈ l ∧ ∀ x ∈ l, preferred x m = false := by
  induction l generalizing m with
  | nil => cases h
  | cons a r ih =>
    rw [bestOf] at h
    cases hr : bestOf r with
    | none =>
      obtain rfl : a = m := by simpa [hr] using h
      simp [bestOf_eq_none hr, preferred_irrefl]
    | some b =>
      obtain ⟨mem, best⟩ := ih hr
      rw [hr] at h
      cases hp : preferred b a with
      | true =>
        obtain rfl : b = m := by simpa [hp] using h
        exact ⟨List.mem_cons_of_mem _ mem, List.forall_mem_cons.mpr ⟨preferred_asymm hp, best⟩⟩
      | false =>
        obtain rfl : a = m := by simpa [hp] using h
        exact ⟨List.mem_cons_self, List.forall_mem_cons.mpr
          ⟨preferred_irrefl _, fun x hx => not_preferred_trans (best x hx) hp⟩⟩

/-! ### Detours -/

theorem publishDetour_unbroken {s : State} (h : s.star.breaks = []) : publishDetour s = s := by
  rw [publishDetour, h]
  exact ite_self s

@[simp] theorem publishDetour_tenure (s : State) : tenure (publishDetour s) = tenure s := by
  unfold publishDetour
  split
  · rfl
  · split
    · rfl
    · rw [sendAgree_tenure]
      rfl

theorem publishDetour_breaks (s : State) : (publishDetour s).star.breaks = s.star.breaks :=
  congrArg Tenure.breaks (publishDetour_tenure s)

/-! ### CLAIM -/

/-- The device gives way to a CLAIM or AGREE of an ID (R459, R461). -/
def yields (src : Nat) (s : State) : Bool :=
  decide (src < ownId s) && hasIdentity s

theorem yields_iff {src : Nat} {s : State} : yields src s = true ↔ src < ownId s ∧ hasIdentity s = true := by
  simp [yields]

theorem not_yields_iff {src : Nat} {s : State} : yields src s = false ↔ ownId s ≤ src ∨ hasIdentity s = false := by
  rw [yields, Bool.and_eq_false_iff, decide_eq_false_iff_not, Nat.not_lt]

theorem yieldTo_lower {src : Nat} {s : State} (h : yields src s = true) :
    (yieldTo src s).star.claiming = false ∧ (yieldTo src s).star.groupMaster = false ∧
      (yieldTo src s).star.maxEpoch = s.star.maxEpoch := by
  rw [yieldTo, if_pos (yields_iff.mp h)]
  dsimp only
  split
  · rw [report_star, endMaster, follow_changes]
    exact ⟨rfl, rfl, rfl⟩
  · next notMaster => exact ⟨rfl, Bool.not_eq_true _ ▸ notMaster, rfl⟩

theorem yieldTo_higher {src : Nat} {s : State} (h : yields src s = false) : yieldTo src s = s :=
  if_neg fun lower => Bool.noConfusion (h.symm.trans (yields_iff.mpr lower))

@[simp] theorem yieldTo_now (src : Nat) (s : State) : (yieldTo src s).now = s.now := by
  rw [yieldTo]
  split
  · dsimp only
    split
    · rw [report_now, endMaster, follow_changes]
      rfl
    · rfl
  · rfl

theorem yieldTo_groupMaster (src : Nat) (s : State) :
    (yieldTo src s).star.groupMaster = (s.star.groupMaster && !yields src s) := by
  cases h : yields src s with
  | true => rw [(yieldTo_lower h).2.1, Bool.not_true, Bool.and_false]
  | false => rw [yieldTo_higher h, Bool.not_false, Bool.and_true]

/-- A claim ends before a lower ID (R459). -/
def claimEnded (src : Nat) (s : State) : State :=
  onStar (fun x => { x with claiming := x.claiming && !yields src s }) s

/-- A device that is not group master only stops claiming. -/
theorem yieldTo_claimEnded {src : Nat} {s : State} (hm : s.star.groupMaster = false) :
    yieldTo src s = claimEnded src s := by
  cases h : yields src s with
  | true =>
    rw [yieldTo, if_pos (yields_iff.mp h)]
    simp [hm, claimEnded, h, onStar]
  | false =>
    rw [yieldTo_higher h]
    simp [claimEnded, h, onStar]

section
variable {s : State} {d : Side} {hd : FrameHead}

theorem FromOther.claim (h : FromOther s d hd) (n e : BitVec 32) : ∃ o, execClaimReceive d hd n e s =
    .next (yieldTo (hd.src.toNat % 4096) (noteEpoch e.toNat (withOut o s))) := by
  obtain ⟨o, taken⟩ := h.taken (.claim n e) _
  refine ⟨o, congrArg Host.Outcome.next (taken.trans ?_)⟩
  simp [h.pv, h.named, checkDup_other, h.other]

/-- A CLAIM of another version, without an ID or of the device itself does nothing (R457, R458). -/
theorem GoodFrame.claim_unheeded (h : GoodFrame s d hd) {n : BitVec 32} (e : BitVec 32)
    (k : hd.pv ≠ 1 ∨ idNone hd.src = true ∨ (isOwn s hd.src = true ∧ n = s.star.nonce)) :
    ∃ o, execClaimReceive d hd n e s = .next (withOut o s) := by
  obtain ⟨o, taken⟩ := h.taken (.claim n e) _
  refine ⟨o, congrArg Host.Outcome.next (taken.trans (ite_eq_left_iff.mpr fun heeded => ?_))⟩
  obtain ⟨own, same⟩ := (or_assoc.mpr k).resolve_left heeded
  dsimp only
  rw [checkDup_none (s := withOut o s) fun _ => same]
  exact if_pos own

/-! ### AGREE -/

/-- The AGREE a frame of another device brings (R461). -/
def agreeOf (hd : FrameHead) (a : AgreePay) (now : Nat) : Agree :=
  ⟨hd.src.toNat % 4096, 1, a.epoch.toNat, a.hash, a.ringN.toNat, a.dBar.toNat, a.dDir.toNat, a.dP.toNat, now⟩

theorem FromOther.agree (h : FromOther s d hd) (a : AgreePay) : ∃ o, execAgreeReceive d hd a s =
    .next (hear (agreeOf hd a s.now) (yieldTo (hd.src.toNat % 4096) (noteEpoch a.epoch.toNat (withOut o s)))) := by
  obtain ⟨o, taken⟩ := h.taken (.agree a) _
  refine ⟨o, congrArg Host.Outcome.next (taken.trans ?_)⟩
  simp [h.pv, h.named, checkDup_other, h.other, agreeOf, hear]

/-- The own AGREE comes back (R460). -/
theorem GoodFrame.agree_own (h : GoodFrame s d hd) {a : AgreePay} (hp : hd.pv = 1) (hi : idNone hd.src = false)
    (ho : isOwn s hd.src = true) (hn : a.nonce = s.star.nonce) : ∃ o, execAgreeReceive d hd a s =
    .next (agreeBack a.nonce hd.hop.toNat (withOut o s)) := by
  obtain ⟨o, taken⟩ := h.taken (.agree a) _
  refine ⟨o, congrArg Host.Outcome.next (taken.trans ?_)⟩
  simp [hp, hi, checkDup_none (s := withOut o s) fun _ => hn, ho]

/-- The ring is closed and counted, and a count that changes is published under a new epoch (R460). -/
theorem agreeBack_counts {nonce : BitVec 32} {s : State} (hm : s.star.groupMaster = true) (hn : nonce = s.star.nonce)
    (hop : Nat) : (agreeBack nonce hop s).star.ringN = hop + 1 ∧
      (s.star.ringN = hop + 1 → (agreeBack nonce hop s).star.returned = true ∧
        (agreeBack nonce hop s).star.epoch = s.star.epoch) ∧
      (s.star.ringN ≠ hop + 1 → (agreeBack nonce hop s).star.epoch = (s.star.epoch + 1) % 2 ^ 32) := by
  rw [agreeBack, if_neg (by simp [hm, hn])]
  dsimp only
  rw [onStar_star]
  dsimp only
  by_cases same : s.star.ringN = hop + 1
  · rw [if_pos same]
    exact ⟨same, fun _ => ⟨rfl, rfl⟩, fun other => absurd same other⟩
  · rw [if_neg same, sendAgree_epoch]
    exact ⟨congrArg Tenure.ringN (sendAgree_tenure _), fun eq => absurd eq same, fun _ => rfl⟩

/-! ### An AGREE of another version -/

/-- Every role is given up; the accumulator of an encoder master goes with it (R479). -/
theorem dropRoles_changes (s : State) : dropRoles s = { s with
    star := { s.star with
      groupMaster := false, claiming := false, granted := false, await := .none, detour := none, holder := none
      encMaster := false, handover := s.star.handover && !s.star.encMaster }
    lt := (dropRoles s).lt } := by
  rw [dropRoles]
  dsimp only
  cases enc : s.star.encMaster with
  | false => simp [onStar, enc]
  | true => simp [onStar, enc, endRole, zeroAccumulator]

theorem wantMode_changes (passive : Bool) (s : State) :
    wantMode passive s = { s with star := { s.star with port := (wantMode passive s).star.port } } := rfl

/-- Both ports take the mode at their next IDLE, where they have it not (R481). -/
theorem portAt_wantMode (passive : Bool) (s : State) (l : Side) : portAt (wantMode passive s) l =
    { portAt s l with want := if (portAt s l).passive = passive then none else some passive } := by
  rw [wantMode, sides, List.foldl_cons, List.foldl_cons, List.foldl_nil]
  cases l with
  | west => exact (portAt_onPort_otherSide .east ..).trans (portAt_onPort ..)
  | east =>
    have before (f : Port → Port) : portAt (onPort .west f s) .east = portAt s .east :=
      portAt_onPort_otherSide .west f s
    rw [portAt_onPort, before]

/-- The device as a passive relay, before the mismatch is reported (R482). -/
def passiveRelay (s : State) : State :=
  wantMode true (dropRoles (onStar (fun x => { x with pvMismatch := true, pvOut := true }) s))

theorem otherVersion_lower {src : Nat} {s : State} {y : Agree} (hf : followed s = some y) (hs : src < y.src) :
    otherVersion src s = report 0x5002 (passiveRelay s) := by
  rw [otherVersion, hf]
  exact if_pos hs

theorem otherVersion_not_lower {src : Nat} {s : State} (h : (followed s).all (fun y => decide (y.src ≤ src)) = true) :
    otherVersion src s = s := by
  rw [otherVersion]
  cases first : followed s with
  | none => rfl
  | some y =>
    rw [first, Option.all_some, decide_eq_true_eq] at h
    exact if_neg (Nat.not_lt.mpr h)

/-- An AGREE of another version from below the master followed makes the device a passive relay (R482). -/
theorem GoodFrame.agree_otherVersion (h : GoodFrame s d hd) (a : AgreePay) {y : Agree} (hp : hd.pv ≠ 1)
    (hi : idNone hd.src = false) (ho : isOwn s hd.src = false) (hf : followed s = some y)
    (hs : hd.src.toNat % 4096 < y.src) :
    ∃ o, execAgreeReceive d hd a s = .next (report 0x5002 (passiveRelay (withOut o s))) := by
  obtain ⟨o, taken⟩ := h.taken (.agree a) _
  refine ⟨o, congrArg Host.Outcome.next (taken.trans ?_)⟩
  exact (if_neg (Bool.eq_false_iff.mp hi)).trans ((if_pos hp).trans ((if_neg (Bool.eq_false_iff.mp ho)).trans
    (otherVersion_lower hf hs)))

theorem GoodFrame.agree_unheeded (h : GoodFrame s d hd) (a : AgreePay) (hp : hd.pv ≠ 1)
    (hf : (followed s).all (fun y => decide (y.src ≤ hd.src.toNat % 4096)) = true) :
    ∃ o, execAgreeReceive d hd a s = .next (withOut o s) := by
  obtain ⟨o, taken⟩ := h.taken (.agree a) _
  refine ⟨o, congrArg Host.Outcome.next (taken.trans (ite_eq_left_iff.mpr fun _ => (if_pos hp).trans ?_))⟩
  exact ite_eq_left_iff.mpr fun _ => otherVersion_not_lower hf

theorem passiveRelay_star (s : State) : (passiveRelay s).star.pvMismatch = true ∧
    (passiveRelay s).star.groupMaster = false ∧ (passiveRelay s).star.claiming = false ∧
    (passiveRelay s).star.granted = false ∧ (passiveRelay s).star.encMaster = false := by
  rw [passiveRelay, wantMode_changes, dropRoles_changes]
  exact ⟨rfl, rfl, rfl, rfl, rfl⟩

theorem passiveRelay_flt (s : State) : (passiveRelay s).flt = s.flt := by
  rw [passiveRelay, wantMode_changes, dropRoles_changes]
  rfl

theorem passiveRelay_portAt (s : State) (l : Side) :
    (portAt (passiveRelay s) l).passive = true ∨ (portAt (passiveRelay s) l).want = some true := by
  rw [passiveRelay, portAt_wantMode]
  generalize portAt (dropRoles _) l = p
  cases passive : p.passive with
  | true => exact .inl rfl
  | false => exact .inr rfl

/-! ### MEMBER and EVENT -/

theorem noteRing_changes (e : RingDev) (s : State) : noteRing e s = { s with star := { s.star with
    map := (noteRing e s).star.map, mapN := (noteRing e s).star.mapN } } := by
  unfold noteRing
  split
  · rfl
  · split <;> rfl

theorem noteLast_awaited {bar : Nat} {s : State} (ha : s.star.await = .member) (hb : bar = ownBar s) (last : Nat) :
    (noteLast bar last s).star.bestLast = some (Nat.max last (s.star.bestLast.getD last)) := by
  rw [noteLast, if_pos ⟨ha, hb⟩]
  rfl

theorem noteLast_groupMaster (bar last : Nat) (s : State) :
    (noteLast bar last s).star.groupMaster = s.star.groupMaster := by
  unfold noteLast
  split <;> rfl

theorem noteMember_changes (id : Nat) (f : Member → Member) (s : State) : noteMember id f s = { s with star :=
    { s.star with members := (noteMember id f s).star.members } } := by
  rw [noteMember]
  dsimp only [onStar]
  split <;> rfl

/-- What is known of a device takes the change. -/
theorem noteMember_mem (id : Nat) (f : Member → Member) (s : State) :
    ∃ y, y.id = id ∧ f y ∈ (noteMember id f s).star.members := by
  rw [noteMember, onStar_star]
  split
  · next known =>
    obtain ⟨m, mem, same⟩ := List.any_eq_true.mp known
    exact ⟨m, beq_iff_eq.mp same, List.mem_map.mpr ⟨m, mem, if_pos same⟩⟩
  · exact ⟨{ Member.reset with id := id }, rfl, List.mem_append_right _ List.mem_cons_self⟩

/-- What a MEMBER frame says of its sender (R462, R465). -/
def memberSays (m : MemberPay) (x : Member) : Member :=
  { x with state := m.state.toNat, bar := m.bar.toNat, roles := m.roles.toNat, lost := false }

/-- A device that has the role and waits for LAST_LINE takes that of its bar, where it is not group master (R464). -/
theorem member_bestLast {m : MemberPay} (hm : s.star.groupMaster = false) (ha : s.star.await = .member)
    (hb : m.bar.toNat = ownBar s) (id : Nat) (r : RingDev) :
    (grantRoles (noteMember id (memberSays m) (noteLast m.bar.toNat m.lastLine.toNat (noteRing r s)))).star.bestLast =
      some (Nat.max m.lastLine.toNat (s.star.bestLast.getD m.lastLine.toNat)) := by
  rw [noteRing_changes]
  have noted := noteLast_awaited (s := { s with star := { s.star with
    map := (noteRing r s).star.map, mapN := (noteRing r s).star.mapN } }) ha hb m.lastLine.toNat
  rw [grantRoles_idle, noteMember_changes]
  · exact noted
  · rw [noteMember_changes]
    exact .inl ((noteLast_groupMaster ..).trans hm)

theorem FromOther.member (h : FromOther s d hd) (m : MemberPay) : ∃ o r, execMemberReceive d hd m s =
    .next (grantRoles (noteMember (hd.src.toNat % 4096) (memberSays m)
      (noteLast m.bar.toNat m.lastLine.toNat (noteRing r (withOut o s))))) := by
  obtain ⟨o, taken⟩ := h.taken (.member m) _
  refine ⟨o, ?_, congrArg Host.Outcome.next (taken.trans ?_)⟩
  rotate_left
  · simp only [h.pv, h.named, checkDup_other, withOut_isOwn, h.other, ne_eq, not_true_eq_false, Bool.false_eq_true,
      or_self, if_false]
    rfl

theorem GoodFrame.member_unheeded (h : GoodFrame s d hd) {m : MemberPay}
    (k : hd.pv ≠ 1 ∨ idNone hd.src = true ∨ (isOwn s hd.src = true ∧ m.nonce = s.star.nonce)) :
    ∃ o, execMemberReceive d hd m s = .next (withOut o s) := by
  obtain ⟨o, taken⟩ := h.taken (.member m) _
  refine ⟨o, congrArg Host.Outcome.next (taken.trans (ite_eq_left_iff.mpr fun heeded => ?_))⟩
  obtain ⟨own, same⟩ := (or_assoc.mpr k).resolve_left heeded
  dsimp only
  rw [checkDup_none (s := withOut o s) fun _ => same]
  exact if_pos own

/-- The event of another device is taken (R465, R474, R477). -/
theorem GoodFrame.event (h : GoodFrame s d hd) (hi : idNone hd.src = false) (ho : isOwn s hd.src = false)
    (k : StarEvent) (port : Side) (subj : BitVec 16) : ∃ o, execStarlingEventReceive d hd k port subj s =
    .next (takeEvent k (hd.src.toNat % 4096) port subj (withOut o s)) := by
  obtain ⟨o, taken⟩ := h.taken (.event k port subj) _
  refine ⟨o, congrArg Host.Outcome.next (taken.trans ?_)⟩
  simp [hi, ho]

theorem GoodFrame.event_unheeded (h : GoodFrame s d hd) (hs : idNone hd.src = true ∨ isOwn s hd.src = true)
    (k : StarEvent) (port : Side) (subj : BitVec 16) :
    ∃ o, execStarlingEventReceive d hd k port subj s = .next (withOut o s) := by
  obtain ⟨o, taken⟩ := h.taken (.event k port subj) _
  exact ⟨o, congrArg Host.Outcome.next (taken.trans (if_pos hs))⟩

end

section
variable (src : Nat) (port : Side) (subj : BitVec 16) (s : State)

theorem takeEvent_brk_breaks : (takeEvent .brk src port subj s).star.breaks =
    s.star.breaks.filter (fun x => x != (src, (sideIx port).val)) ++ [(src, (sideIx port).val)] :=
  publishDetour_breaks _

/-- A break that healed is forgotten, and the master's detour ends (R477). -/
theorem takeEvent_heal : (takeEvent .heal src port subj s).star.breaks =
      s.star.breaks.filter (fun x => x != (src, (sideIx port).val)) ∧
    (s.star.groupMaster = true → (takeEvent .heal src port subj s).star.detour = none) := by
  rw [takeEvent]
  split
  · exact ⟨congrArg Tenure.breaks (sendAgree_tenure _), fun _ => sendAgree_detour _⟩
  · next noDetour =>
    refine ⟨rfl, fun master => ?_⟩
    have noDetour : ¬(s.star.groupMaster = true ∧ s.star.detour.isSome = true) := noDetour
    exact Option.not_isSome_iff_eq_none.mp fun detour => noDetour ⟨master, detour⟩

theorem takeEvent_lost (h : idNone subj = false) :
    ∃ m ∈ (takeEvent .lost src port subj s).star.members, m.id = subj.toNat % 4096 ∧ m.lost = true := by
  obtain ⟨y, same, mem⟩ := noteMember_mem (subj.toNat % 4096) (fun m => { m with lost := true }) s
  have noted : takeEvent .lost src port subj s =
      grantRoles (noteMember (subj.toNat % 4096) (fun m => { m with lost := true }) s) := if_neg (by simp [h])
  rw [noted, grantRoles_members]
  exact ⟨_, mem, same, rfl⟩

theorem takeEvent_lost_nobody (h : idNone subj = true) : takeEvent .lost src port subj s = s :=
  if_pos h

end

/-! ### Timers -/

/-- AGREE leaves, under a new epoch and with RING_N 0 where the last one has not come back (R460). -/
def agreeDue (s : State) : State :=
  if !s.star.returned && s.star.ringN != 0 then newEpoch (onStar (fun x => { x with ringN := 0 }) s) else s

theorem agreeDue_changes (s : State) : agreeDue s = { s with star := { s.star with
    epoch := if s.star.returned = false ∧ s.star.ringN ≠ 0 then (s.star.epoch + 1) % 2 ^ 32 else s.star.epoch
    ringN := if s.star.returned = false then 0 else s.star.ringN } } := by
  by_cases opened : s.star.returned = false ∧ s.star.ringN ≠ 0
  · rw [agreeDue, if_pos (by simp [opened]), if_pos opened, if_pos opened.1]
    rfl
  · have zero : (if s.star.returned = false then 0 else s.star.ringN) = s.star.ringN :=
      ite_eq_right_iff.mpr fun out => (not_not.mp fun ring => opened ⟨out, ring⟩).symm
    rw [agreeDue, if_neg (by simpa using opened), if_neg opened, zero]

section
variable {s : State}

/-- The AGREE that leaves shows the ring, the epoch and the detour as they are after it (R460). -/
theorem agreeDue_leaves {d : Side} (live : portLive s d = true) :
    starOut d (ownHead s) (.agree ⟨s.star.nonce, BitVec.ofNat 32 (sendAgree (agreeDue s)).star.epoch, s.img.groupHash,
      BitVec.ofNat 16 (sendAgree (agreeDue s)).star.ringN,
      BitVec.ofNat 16 ((sendAgree (agreeDue s)).star.detour.getD (0, 0, 0)).1,
      BitVec.ofNat 8 ((sendAgree (agreeDue s)).star.detour.getD (0, 0, 0)).2.1,
      BitVec.ofNat 16 ((sendAgree (agreeDue s)).star.detour.getD (0, 0, 0)).2.2⟩) ∈ (sendAgree (agreeDue s)).out := by
  rw [sendAgree_changes, agreeDue_changes]
  exact mem_sendRing_out _ live

theorem execAgreeTimer_sends (hm : s.star.groupMaster = true) (hh : mayHold s = true) :
    execAgreeTimer s = .next (sendAgree (agreeDue s)) :=
  if_neg (by simp [hm, hh])

theorem execAgreeTimer_idle (h : s.star.groupMaster = false ∨ mayHold s = false) : execAgreeTimer s = .next s :=
  if_pos h

theorem execRoleTimer_idle (h : s.star.groupMaster = false ∨ mayHold s = false) : execRoleTimer s = .next s :=
  if_pos h

theorem execClaimTimer_idle (h : s.star.claiming = false ∨ mayClaim s = false) : execClaimTimer s = .next s :=
  if_neg (by rcases h with h | h <;> simp [h])

theorem execClaimWon_idle (h : s.star.claiming = false ∨ mayClaim s = false) : execClaimWon s = .next s :=
  if_pos h

theorem mayClaim_iff : mayClaim s = true ↔ mayHold s = true ∧ s.img.on Fld.masterElig [] = true ∧
    s.star.dupId = false ∧ s.star.groupMaster = false := by
  simp [mayClaim, and_assoc]

/-- The device without the AGREE that timed out (R461). -/
def unfollowed (s : State) : State :=
  follow (onStar (fun x => { x with heard := x.heard.drop 1 }) s)

theorem unfollowed_mayClaim (s : State) : mayClaim (unfollowed s) = mayClaim s := by
  rw [unfollowed, follow_changes]
  rfl

theorem execAgreeTimeout_claims (hi : hasIdentity s = true) (hm : s.star.groupMaster = false) : execAgreeTimeout s =
    .next (onStar (fun x => { x with claiming := x.claiming || (x.heard.isEmpty && mayClaim s) }) (unfollowed s)) := by
  rw [execAgreeTimeout, if_neg (by simp [hi, hm]), ← unfollowed_mayClaim s]
  rfl

/-- A device as it becomes group master (R459, R460). -/
def elected (s : State) : State :=
  onStar (fun x => { x with
    claiming := false, groupMaster := true, epoch := nextEpoch s, ringN := 0, returned := true, detour := none }) s

theorem execClaimWon_elects (hc : s.star.claiming = true) (hm : mayClaim s = true) :
    ∃ bars, execClaimWon s = .next (publishDetour (List.foldl (fun t b => sendRole b t)
      (grantRoles (sendAgree (elected s))) bars)) :=
  ⟨_, if_neg (by simp [hc, hm])⟩

/-- Its AGREE and ROLE frames leave its election as it is. -/
theorem elected_tenure (s : State) (bars : List Nat) :
    tenure (List.foldl (fun t b => sendRole b t) (grantRoles (sendAgree (elected s))) bars) = tenure (elected s) := by
  rw [sendRoles_tenure, grantRoles_tenure, sendAgree_tenure]

/-- A group master that knows no other device grants its own bar's role under one more epoch (R460, R462). -/
theorem elected_epoch (hh : s.star.holders = []) (hb : s.star.breaks = []) (bars : List Nat) :
    (publishDetour (List.foldl (fun t b => sendRole b t) (grantRoles (sendAgree (elected s))) bars)).star.epoch =
      (nextEpoch s + 1) % 2 ^ 32 := by
  have unbroken := (congrArg Tenure.breaks (elected_tenure s bars)).trans hb
  have master : (sendAgree (elected s)).star.groupMaster = true :=
    congrArg Tenure.groupMaster (sendAgree_tenure (elected s))
  have unheld : (sendAgree (elected s)).star.holders = [] := (sendAgree_holders (elected s)).trans hh
  rw [publishDetour_unbroken unbroken, sendRoles_epoch, grantRoles_epoch master (regranted_ne_nil unheld),
    sendAgree_epoch]
  rfl

end

/-! ### The statement -/

/-- Settles O46: each clause by the rule of its command above. -/
theorem electionOfTheGroupMaster : Obligations.ElectionOfTheGroupMaster := by
  unfold Obligations.ElectionOfTheGroupMaster
  refine ⟨?claims, fun s => ⟨fun h => ⟨execClaimTimer_idle h, execClaimWon_idle h⟩,
    fun h => ⟨execAgreeTimer_idle h, execRoleTimer_idle h⟩, fun h => if_pos h, mayClaim_iff⟩,
    ?lowerClaim, ?higherClaim, ?agreeTimer, ?agreeHeard, ?agreeAtMaster,
    fun a b l hb hs => ⟨mem_insertAgree_self a l, mem_insertAgree_of_src_ne hb hs⟩,
    fun a x l hl hx => head_insertAgree_le hl hx, ?agreeBack, ?otherVersion, ?sameVersion, ?agreeTimeout, ?claimWon,
    fun s bar h hh hc => grantOf_holder hh hc, fun s bar hh => grantOf_best hh,
    fun l m x hm hx => (bestOf_spec hm).imp_right fun best => best x hx, ?member, ?memberUnheeded, ?claimUnheeded,
    ?event, ?eventUnheeded, fun s => rfl⟩
  case claims =>
    intro s hc hm
    refine ⟨_, if_pos ⟨hc, hm⟩, ?_, sendRing_out _ s⟩
    rw [sendRing_changes]
  case lowerClaim =>
    intro s side hd n e hu ha hg hp hi ho hs hid
    obtain ⟨o, taken⟩ := FromOther.claim ⟨⟨hu, ha, hg⟩, hp, hi, ho⟩ n e
    exact ⟨_, taken, yieldTo_lower (s := noteEpoch e.toNat (withOut o s)) (yields_iff.mpr ⟨hs, hid⟩)⟩
  case higherClaim =>
    intro s side hd n e hu ha hg hp hi ho hs
    obtain ⟨o, taken⟩ := FromOther.claim ⟨⟨hu, ha, hg⟩, hp, hi, ho⟩ n e
    have higher : yields (hd.src.toNat % 4096) s = false := not_yields_iff.mpr hs
    rw [yieldTo_higher (s := noteEpoch e.toNat (withOut o s)) higher] at taken
    exact ⟨_, taken, rfl, rfl⟩
  case agreeTimer =>
    intro s hm hh
    refine ⟨_, execAgreeTimer_sends hm hh, ?_⟩
    have shown := fun d => agreeDue_leaves (s := s) (d := d)
    refine ⟨?_, ?_, ?_, ?_, ?_, shown .east, shown .west⟩ <;> rw [sendAgree_changes, agreeDue_changes]
    exact hm
  case agreeHeard =>
    rintro s side hd a x hu ha hg hp hi ho hm rfl
    obtain ⟨o, taken⟩ := FromOther.agree ⟨⟨hu, ha, hg⟩, hp, hi, ho⟩ a
    rw [yieldTo_claimEnded (s := noteEpoch a.epoch.toNat (withOut o s)) hm] at taken
    obtain ⟨-, lowest, first, followed⟩ := hear_star (x := agreeOf hd a s.now)
      (s := claimEnded (hd.src.toNat % 4096) (noteEpoch a.epoch.toNat (withOut o s))) rfl
    refine ⟨_, taken, ?_⟩
    rw [followed]
    refine ⟨rfl, first, rfl, rfl, fun lt identity => ?_⟩
    have lower : yields (hd.src.toNat % 4096) (noteEpoch a.epoch.toNat (withOut o s)) = true :=
      yields_iff.mpr ⟨lt, identity⟩
    simp [claimEnded, lower]
  case agreeAtMaster =>
    intro s side hd a hu ha hg hp hi ho hm
    obtain ⟨o, taken⟩ := FromOther.agree ⟨⟨hu, ha, hg⟩, hp, hi, ho⟩ a
    refine ⟨_, taken, ?_⟩
    have now : (agreeOf hd a s.now).time =
        (yieldTo (hd.src.toNat % 4096) (noteEpoch a.epoch.toNat (withOut o s))).now :=
      (yieldTo_now _ (noteEpoch a.epoch.toNat (withOut o s))).symm
    obtain ⟨mem, lowest, -, followed⟩ := hear_star now
    rw [followed]
    refine ⟨?_, agreeOf hd a s.now, mem, rfl, rfl, rfl, rfl⟩
    rw [yieldTo_groupMaster, noteEpoch, onStar_star, withOut_star, hm, Bool.true_and]
    rfl
  case agreeBack =>
    intro s side hd a hu ha hg hp hi ho hm hn
    obtain ⟨o, taken⟩ := GoodFrame.agree_own ⟨hu, ha, hg⟩ hp hi ho hn
    exact ⟨_, taken, agreeBack_counts (s := withOut o s) hm hn hd.hop.toNat⟩
  case otherVersion =>
    intro s side hd a y hu ha hg hp hi ho hf hs
    obtain ⟨o, taken⟩ := GoodFrame.agree_otherVersion ⟨hu, ha, hg⟩ a hp hi ho hf hs
    have counted := classCount_report_faultCode (c := 0x50) (by decide) 0x02 (passiveRelay (withOut o s))
    obtain ⟨mismatch, master, claim, granted, enc⟩ := passiveRelay_star (withOut o s)
    have star : (report 0x5002 (passiveRelay (withOut o s))).star = (passiveRelay (withOut o s)).star := report_star ..
    refine ⟨_, taken, ?_⟩
    rw [star]
    exact ⟨mismatch, master, claim, granted, enc, fun l => (portAt_congr star l).symm ▸ passiveRelay_portAt _ l,
      counted.trans (congrArg (satInc 32) (classCount_congr (passiveRelay_flt _) _))⟩
  case sameVersion =>
    intro s side hd a hu ha hg hp hf
    obtain ⟨o, taken⟩ := GoodFrame.agree_unheeded ⟨hu, ha, hg⟩ a hp hf
    exact ⟨_, taken, rfl, rfl⟩
  case agreeTimeout =>
    intro s hi hm
    refine ⟨_, execAgreeTimeout_claims hi hm, ?_⟩
    rw [unfollowed, follow_changes]
    exact ⟨hm, rfl, rfl⟩
  case claimWon =>
    intro s hc hm
    obtain ⟨bars, next⟩ := execClaimWon_elects hc hm
    have kept := (publishDetour_tenure _).trans (elected_tenure s bars)
    exact ⟨_, next, congrArg Tenure.claiming kept, congrArg Tenure.groupMaster kept, congrArg Tenure.ringN kept,
      fun _ unheld unbroken _ => elected_epoch unheld unbroken bars⟩
  case member =>
    intro s side hd m hu ha hg hp hi ho
    obtain ⟨o, r, taken⟩ := FromOther.member ⟨⟨hu, ha, hg⟩, hp, hi, ho⟩ m
    obtain ⟨y, same, mem⟩ := noteMember_mem (hd.src.toNat % 4096) (memberSays m)
      (noteLast m.bar.toNat m.lastLine.toNat (noteRing r (withOut o s)))
    refine ⟨_, taken, ⟨memberSays m y, (grantRoles_members _).symm ▸ mem, same, rfl, rfl, rfl, rfl⟩,
      fun slave awaits own => member_bestLast (s := withOut o s) slave awaits own _ r⟩
  case memberUnheeded =>
    intro s side hd m hu ha hg k
    obtain ⟨o, taken⟩ := GoodFrame.member_unheeded ⟨hu, ha, hg⟩ k
    exact ⟨_, taken, rfl, rfl⟩
  case claimUnheeded =>
    intro s side hd n e hu ha hg k
    obtain ⟨o, taken⟩ := GoodFrame.claim_unheeded ⟨hu, ha, hg⟩ e k
    exact ⟨_, taken, rfl, rfl⟩
  case event =>
    intro s side hd port subj hu ha hg hi ho
    obtain ⟨o, brk⟩ := GoodFrame.event ⟨hu, ha, hg⟩ hi ho .brk port subj
    obtain ⟨o', heal⟩ := GoodFrame.event ⟨hu, ha, hg⟩ hi ho .heal port subj
    obtain ⟨o'', lost⟩ := GoodFrame.event ⟨hu, ha, hg⟩ hi ho .lost port subj
    obtain ⟨breaks, detour⟩ := takeEvent_heal (hd.src.toNat % 4096) port subj (withOut o' s)
    refine ⟨_, _, _, brk, heal, lost, ?_, breaks, detour, takeEvent_lost _ port subj _, fun nobody => ?_⟩
    · rw [takeEvent_brk_breaks]
      exact List.mem_append_right _ List.mem_cons_self
    · rw [takeEvent_lost_nobody _ port subj _ nobody]
      rfl
  case eventUnheeded =>
    intro s side hd k port subj hu ha hg hs
    obtain ⟨o, taken⟩ := GoodFrame.event_unheeded ⟨hu, ha, hg⟩ hs k port subj
    exact ⟨_, taken, rfl, rfl⟩

end Sys2Proof.Machine

/-! SUPPORT. The encoder master roles and the ticks of the ring (family 12_starling.md): whom a bar's role is granted
to, what a ROLE frame and a new holder's timers do, and how a tick is relayed and taken. Settles O47. -/

namespace Sys2Proof.Machine

/-! ### Holders -/

theorem holderOf_congr {s t : State} (h : t.star.holders = s.star.holders) (b : Nat) : holderOf t b = holderOf s b := by
  rw [holderOf, holderOf, h]

theorem holderOf_noteHolder (b : Nat) (h : Option Nat) (s : State) (c : Nat) :
    holderOf (noteHolder b h s) c = if c = b then some h else holderOf s c := by
  rw [noteHolder, holderOf, holderOf, onStar_star, List.find?_append, List.find?_filter]
  by_cases same : c = b
  · have gone : s.star.holders.find? (fun e => decide ((e.1 != b) = true ∧ (e.1 == b) = true)) = none :=
      List.find?_eq_none.mpr fun e _ => by simp
    rw [if_pos same, same, gone]
    simp
  · have kept : (fun e : Nat × Option Nat => decide ((e.1 != b) = true ∧ (e.1 == c) = true)) = fun e => e.1 == c := by
      funext e
      by_cases eq : e.1 = c <;> simp [eq, same]
    rw [if_neg same, kept]
    simp [Ne.symm same]

/-- Whatever else a ROLE does, it notes the holder of its bar (R462). -/
theorem applyRole_holders (bar : Nat) (h : Option Nat) (s : State) :
    (applyRole bar h s).star.holders = (noteHolder bar h s).star.holders := by
  rw [applyRole]
  dsimp only
  split
  · rfl
  · split
    · split <;> rfl
    · rfl

/-- The ROLE of a bar leaves the holder of every known bar as it is. -/
theorem sendRole_holderOf {s : State} {c : Nat} {h : Option Nat} (hc : holderOf s c = some h) (b : Nat) :
    holderOf (sendRole b s) c = some h := by
  rw [sendRole, holderOf_congr (applyRole_holders ..), holderOf_noteHolder, sendRing_changes]
  split
  · next same => rw [← same, hc, Option.getD_some]
  · exact hc

theorem sendRoles_holderOf {s : State} {c : Nat} {h : Option Nat} (hc : holderOf s c = some h) (bars : List Nat) :
    holderOf (bars.foldl (fun t b => sendRole b t) s) c = some h := by
  induction bars generalizing s with
  | nil => exact hc
  | cons b r ih => exact ih (sendRole_holderOf hc b)

theorem foldl_noteHolder_holderOf (g : Nat → Option Nat) (bars : List Nat) (s : State) (c : Nat) :
    holderOf ((bars.map fun b => (b, g b)).foldl (fun t x => noteHolder x.1 x.2 t) s) c =
      if c ∈ bars then some (g c) else holderOf s c := by
  induction bars generalizing s with
  | nil => rfl
  | cons b r ih =>
    rw [List.map_cons, List.foldl_cons, ih, holderOf_noteHolder]
    by_cases inRest : c ∈ r
    · simp [inRest]
    · by_cases same : c = b
      · simp [same]
      · simp [inRest, same]

/-- After its grants every known bar has the holder it is granted (R462). -/
theorem grantRoles_holderOf {s : State} (hm : s.star.groupMaster = true) {b : Nat} (hb : b ∈ knownBars s) :
    holderOf (grantRoles s) b = some (grantOf s b) := by
  have settled (h : b ∉ regranted s) : holderOf s b = some (grantOf s b) := by
    by_contra changed
    exact h (List.mem_filter.mpr ⟨hb, bne_iff_ne.mpr changed⟩)
  by_cases none : regranted s = []
  · rw [grantRoles_idle (.inr none)]
    exact settled (none ▸ List.not_mem_nil)
  · rw [grantRoles_grants hm none, holderOf_congr (sendAgree_holders _)]
    refine sendRoles_holderOf ?_ _
    refine (foldl_noteHolder_holderOf (grantOf s) (regranted s) s b).trans ?_
    split
    · rfl
    · next kept => exact settled kept

/-! ### ROLE -/

section
variable {s : State} {bar : Nat} {h : Option Nat}

/-- A ROLE of the own bar concerns a device that may hold roles. -/
theorem not_elsewhere (hb : bar = ownBar s) (hm : mayHold s = true) : ¬(bar ≠ ownBar s ∨ mayHold s = false) := by
  simp [hb, hm]

theorem applyRole_elsewhere (hb : bar ≠ ownBar s ∨ mayHold s = false) : applyRole bar h s = noteHolder bar h s :=
  if_pos hb

/-- Another device of the bar holds the role, or none: an encoder master hands over (R463). -/
theorem applyRole_other (hb : bar = ownBar s) (hm : mayHold s = true) (hh : h ≠ some (ownId s)) :
    applyRole bar h s = onStar (fun x => { x with
      holder := h, granted := false, await := .none, handover := x.encMaster }) (noteHolder bar h s) :=
  (if_neg (not_elsewhere hb hm)).trans (if_neg hh)

/-- The device has the role, or may not take it (R463). -/
theorem applyRole_again (hb : bar = ownBar s) (hm : mayHold s = true) (hh : h = some (ownId s))
    (hr : s.star.encMaster = true ∨ s.star.granted = true ∨ s.star.dupId = true) :
    applyRole bar h s = onStar (fun x => { x with holder := h, handover := false }) (noteHolder bar h s) :=
  (if_neg (not_elsewhere hb hm)).trans ((if_pos hh).trans (if_pos hr))

/-- The device is the new holder and waits for a tick (R463). -/
theorem applyRole_granted (hb : bar = ownBar s) (hm : mayHold s = true) (hh : h = some (ownId s))
    (he : s.star.encMaster = false) (hg : s.star.granted = false) (hd : s.star.dupId = false) :
    applyRole bar h s = onStar (fun x => { x with
      holder := h, granted := true, await := .tick, bestLast := none }) (noteHolder bar h s) :=
  (if_neg (not_elsewhere hb hm)).trans
    ((if_pos hh).trans (if_neg (by simp [noteHolder, he, hg, hd])))

theorem execRoleTimer_sends (hm : s.star.groupMaster = true) (hh : mayHold s = true) : execRoleTimer s =
    .next ((s.star.holders.map (·.1)).foldl (fun t b => sendRole b t) (grantRoles s)) :=
  if_neg (by simp [hm, hh])

/-- With every known bar granted as it is, the ROLE of the own bar without a holder is repeated (R462). -/
theorem execRoleTimer_repeats (hm : s.star.groupMaster = true) (hh : mayHold s = true)
    (ho : s.star.holders = [(ownBar s, none)])
    (hg : (knownBars s).all (fun b => holderOf s b == some (grantOf s b)) = true) :
    execRoleTimer s = .next (onStar (fun x => { x with
        holder := none, granted := false, await := .none, handover := x.encMaster })
      (noteHolder (ownBar s) none
        (sendRing (.role (BitVec.ofNat 32 s.star.epoch) (BitVec.ofNat 16 (ownBar s)) (idField none)) s))) := by
  have none_changes : regranted s = [] := List.filter_eq_nil_iff.mpr fun b hb => by
    simpa using List.all_eq_true.mp hg b hb
  have vacant : holderOf s (ownBar s) = some none := by simp [holderOf, ho]
  have role : sendRole (ownBar s) s = onStar (fun x => { x with
      holder := none, granted := false, await := .none, handover := x.encMaster }) (noteHolder (ownBar s) none
        (sendRing (.role (BitVec.ofNat 32 s.star.epoch) (BitVec.ofNat 16 (ownBar s)) (idField none)) s)) := by
    rw [sendRole, vacant, Option.getD_some, sendRing_changes]
    exact applyRole_other rfl hh nofun
  rw [execRoleTimer_sends hm hh, grantRoles_idle (.inr none_changes), ho]
  exact congrArg Host.Outcome.next role

end

/-- The holder a ROLE frame names, if any (R457, Table 12.4). -/
def namedHolder (f : BitVec 16) : Option Nat :=
  if idNone f then none else some (f.toNat % 4096)

section
variable {s : State} {d : Side} {hd : FrameHead}

/-- A ROLE of the master followed is applied (R463). -/
theorem FromOther.role_followed (h : FromOther s d hd) {a : Agree} (hf : followed s = some a)
    (hs : a.src = hd.src.toNat % 4096) (e : BitVec 32) (bar holder : BitVec 16) :
    ∃ o, execRoleReceive d hd e bar holder s = .next (applyRole (bar.toNat % 4096) (namedHolder holder)
      (noteEpoch e.toNat (withOut o s))) := by
  obtain ⟨o, taken⟩ := h.taken (.role e bar holder) _
  have lowest : followed (noteEpoch e.toNat (withOut o s)) = some a := hf
  refine ⟨o, congrArg Host.Outcome.next (taken.trans ((if_neg ?_).trans ?_))⟩
  · simp [h.pv, h.named, h.other]
  · dsimp only
    rw [lowest]
    exact if_neg (not_not.mpr hs)

/-- A ROLE of a device that is not followed has its epoch noted (R460). -/
theorem FromOther.role_noted (h : FromOther s d hd)
    (hf : (followed s).all (fun a => a.src != hd.src.toNat % 4096) = true) (e : BitVec 32) (bar holder : BitVec 16) :
    ∃ o, execRoleReceive d hd e bar holder s = .next (noteEpoch e.toNat (withOut o s)) := by
  obtain ⟨o, taken⟩ := h.taken (.role e bar holder) _
  have same : followed (noteEpoch e.toNat (withOut o s)) = followed s := rfl
  refine ⟨o, congrArg Host.Outcome.next (taken.trans ((if_neg ?_).trans ?_))⟩
  · simp [h.pv, h.named, h.other]
  · dsimp only
    rw [same]
    cases lowest : followed s with
    | none => rfl
    | some a =>
      rw [lowest, Option.all_some, bne_iff_ne] at hf
      exact if_pos hf

theorem GoodFrame.role_unheeded (h : GoodFrame s d hd)
    (k : hd.pv ≠ 1 ∨ idNone hd.src = true ∨ isOwn s hd.src = true) (e : BitVec 32) (bar holder : BitVec 16) :
    ∃ o, execRoleReceive d hd e bar holder s = .next (withOut o s) := by
  obtain ⟨o, taken⟩ := h.taken (.role e bar holder) _
  exact ⟨o, congrArg Host.Outcome.next (taken.trans (if_pos k))⟩

end

/-! ### A new holder starts -/

theorem setHop_changes (h : Nat) (s : State) :
    setHop h s = { s with star := { s.star with hop := h }, spr := (setHop h s).spr } := by
  unfold setHop
  split
  · next same => rw [← same]
  · rfl

/-- A new holder starts with its own hop 0 and nothing left of its line requests (R463, R468). -/
theorem startRole_changes (line : Nat) (s : State) : startRole line s = { s with
    star := { s.star with
      encMaster := true, granted := false, await := .none, handover := false, startLine := some line, hop := 0 }
    lt := { s.lt with acc := 0, deficit := 0, request := none, clampDefer := false, drainDefer := false }
    spr := (startRole line s).spr } := by
  rw [startRole, setHop_changes]
  rfl

section
variable {s : State}

theorem execHandoverTimeout_starts {n : Nat} (hg : s.star.granted = true) (ha : s.star.await = .tick)
    (hl : s.star.lastTick = some n) : execHandoverTimeout s = .next (startRole (lineAdd n 1) s) := by
  rw [execHandoverTimeout, if_neg (by simp [hg, ha]), hl]

theorem execHandoverTimeout_waits (hg : s.star.granted = true) (ha : s.star.await = .tick)
    (hl : s.star.lastTick = none) :
    execHandoverTimeout s = .next { s with star := { s.star with await := .member, bestLast := none } } := by
  rw [execHandoverTimeout, if_neg (by simp [hg, ha]), hl]
  rfl

/-- The LINE a new holder starts at after its wait for MEMBER frames (R464). -/
def lineAfterWait (s : State) : Nat :=
  s.star.bestLast.elim 0 fun n => lineAdd n 1

theorem execMemberLineWait_starts (hg : s.star.granted = true) (ha : s.star.await = .member) :
    execMemberLineWait s = .next (startRole (lineAfterWait s) s) := by
  rw [execMemberLineWait, if_neg (by simp [hg, ha]), lineAfterWait]
  cases s.star.bestLast <;> rfl

end

/-! ### Bad CRCs -/

theorem countCrc_idle {d : Side} {ok : Bool} {s : State} (h : ok = true ∨ portActive s d = false) :
    countCrc d ok s = s :=
  if_pos h

/-- A bad CRC changes two fields of its port, and may be reported (R449). -/
theorem countCrc_cases (d : Side) (ok : Bool) (s : State) : countCrc d ok s = s ∨ ∃ ts,
    (countCrc d ok s).star = (onPort d (fun p => { p with crcErr := satInc 32 p.crcErr, crcTimes := ts }) s).star := by
  by_cases idle : ok = true ∨ portActive s d = false
  · exact .inl (countCrc_idle idle)
  · rw [countCrc, if_neg idle]
    dsimp only
    split
    · exact .inr ⟨_, report_star ..⟩
    · exact .inr ⟨_, rfl⟩

theorem countCrc_changes (d : Side) (ok : Bool) (s : State) : countCrc d ok s = { s with
    star := { s.star with port := (countCrc d ok s).star.port }
    flt := (countCrc d ok s).flt
    log := (countCrc d ok s).log } := by
  by_cases idle : ok = true ∨ portActive s d = false
  · rw [countCrc_idle idle]
  · rw [countCrc, if_neg idle]
    dsimp only
    split
    · rw [report_changes]
      rfl
    · rfl

theorem countCrc_lt (d : Side) (ok : Bool) (s : State) : (countCrc d ok s).lt = s.lt := by
  rw [countCrc_changes]

theorem eq_otherSide {d e : Side} (h : e ≠ d) : e = otherSide d := by
  cases d <;> cases e <;> simp_all [otherSide]

/-- A bad CRC leaves the fields of a port that relays and neighbours are judged by (R449). -/
theorem countCrc_portAt (d : Side) (ok : Bool) (s : State) (e : Side) : portAt (countCrc d ok s) e =
    { portAt s e with
      crcErr := (portAt (countCrc d ok s) e).crcErr, crcTimes := (portAt (countCrc d ok s) e).crcTimes } := by
  rcases countCrc_cases d ok s with same | ⟨ts, star⟩
  · rw [same]
  · rw [portAt_congr star]
    by_cases here : e = d
    · rw [here, portAt_onPort]
    · rw [eq_otherSide here, portAt_onPort_otherSide]

theorem countCrc_bad {d : Side} {s : State} (h : portActive s d = true) :
    (portAt (countCrc d false s) d).crcErr = satInc 32 (portAt s d).crcErr := by
  rw [countCrc, if_neg (by simp [h])]
  dsimp only
  split
  · rw [portAt_congr (report_star ..), portAt_onPort]
  · rw [portAt_onPort]

theorem countCrc_up (d : Side) (ok : Bool) (s : State) (e : Side) :
    (portAt (countCrc d ok s) e).up = (portAt s e).up := by
  rw [countCrc_portAt]

theorem countCrc_delay (d : Side) (ok : Bool) (s : State) (e : Side) :
    (portAt (countCrc d ok s) e).delay = (portAt s e).delay := by
  rw [countCrc_portAt]

theorem countCrc_portActive (d : Side) (ok : Bool) (s : State) (e : Side) :
    portActive (countCrc d ok s) e = portActive s e := by
  rw [portActive, countCrc_portAt, countCrc_changes]
  rfl

theorem countCrc_neighOfBar (d : Side) (ok : Bool) (s : State) (e : Side) (bar : Nat) :
    neighOfBar (countCrc d ok s) e bar = neighOfBar s e bar := by
  rw [neighOfBar, neighAt, countCrc_portAt]
  rfl

theorem countCrc_tickOut (d : Side) (t : TickFrame) (s : State) (e : Side) (ok : Bool) :
    tickOut d t (countCrc e ok s) = tickOut d t s := by
  rw [tickOut, countCrc_neighOfBar, countCrc_changes]
  rfl

/-! ### Ticks relayed -/

/-- A tick as it is relayed (R454, R480). -/
def tickRelayed (d : Side) (t : TickFrame) (detour : Bool) (s : State) : TickFrame :=
  { t with
    detour := detour, crcOk := true, eof := t.crcOk && t.eof, hop := t.hop + 1
    excess := satInt 24 (t.excess +
      (((if portActive s d = false then (portAt s d).relayDelay else (portAt s d).delay : Nat) : Int) - 10) +
      (if portActive s d = false then ((Config.value s.freeCtr % 3 : Nat) : Int) - 1
        else (Config.value s.freeCtr : Int) - 86)) }

theorem relayTick_eq (d : Side) (t : TickFrame) (detour : Bool) (s : State) : relayTick d t detour s =
    if (portAt s (otherSide d)).up = false then s
    else { s with out := tickOn (otherSide d) (tickRelayed d t detour s) :: s.out, freeCtr := s.freeCtr + 1 } := rfl

theorem relayTick_star (d t detour) (s : State) : (relayTick d t detour s).star = s.star := by
  rw [relayTick_eq]
  split <;> rfl

theorem relayTick_lt (d t detour) (s : State) : (relayTick d t detour s).lt = s.lt := by
  rw [relayTick_eq]
  split <;> rfl

theorem relayTick_out {d : Side} {s : State} (h : (portAt s (otherSide d)).up = true) (t : TickFrame) (detour : Bool) :
    (relayTick d t detour s).out = tickOn (otherSide d) (tickRelayed d t detour s) :: s.out := by
  rw [relayTick_eq, if_neg (by simp [h])]

theorem clampInt_eq {lo hi : Int} (h : lo ≤ hi) (x : Int) : clampInt lo hi x = max lo (min hi x) := by
  unfold clampInt
  split
  · omega
  · split <;> omega

theorem satInt_mono {w : Nat} {x y : Int} (h : x ≤ y) : satInt w x ≤ satInt w y := by
  have pos : 0 < (2 ^ (w - 1) : Nat) := Nat.two_pow_pos _
  rw [satInt, satInt, clampInt_eq (by omega), clampInt_eq (by omega)]
  exact max_le_max le_rfl (min_le_min le_rfl h)

/-- A passive port keeps 43.0 ns within 0.5 ns (R480). -/
theorem tickRelayed_excess_passive {d : Side} {s : State} (h : portActive s d = false) (t : TickFrame) (b : Bool) :
    satInt 24 (t.excess + (portAt s d).relayDelay - 11) ≤ (tickRelayed d t b s).excess ∧
      (tickRelayed d t b s).excess ≤ satInt 24 (t.excess + (portAt s d).relayDelay - 9) := by
  have late : Config.value s.freeCtr % 3 < 3 := Nat.mod_lt _ (by decide)
  rw [tickRelayed, if_pos h, if_pos h]
  exact ⟨satInt_mono (by omega), satInt_mono (by omega)⟩

/-- A tick does not leave before it arrived (R454). -/
theorem tickRelayed_excess_active {d : Side} {s : State} (h : portActive s d = true) (t : TickFrame) (b : Bool) :
    satInt 24 (t.excess + (portAt s d).delay - 96) ≤ (tickRelayed d t b s).excess := by
  rw [tickRelayed, if_neg (by simp [h]), if_neg (by simp [h])]
  exact satInt_mono (by omega)

/-- Whether and how an active device forwards a tick (R467, R476). -/
theorem tickOut_eq (side : Side) (t : TickFrame) (s : State) :
    tickOut side t s = if (s.star.encMaster = true ∧ t.bar.toNat = ownBar s) ∨ t.hop = 4095 then none
      else if t.detour then some true
      else if neighOfBar s (otherSide side) t.bar.toNat then some false
      else if mayHold s = true ∧ t.bar.toNat = ownBar s ∧ detourSide s t.bar.toNat = some (otherSide side) then
        some true
      else none := by
  simp [tickOut, and_assoc]

/-! ### Ticks taken -/

/-- The last tick of the own bar is noted (R464). -/
def tickNoted (t : TickFrame) (s : State) : State :=
  { s with star := { s.star with
      lastTick := if s.star.lastTick.all (fun n => linePast t.line.toNat n) then some t.line.toNat
        else s.star.lastTick } }

/-- A tick's LINE is past the last one taken (R469). -/
def tickFresh (t : TickFrame) (s : State) : Bool :=
  (lastTaken s).all fun n => linePast t.line.toNat n && t.line.toNat != n

/-- The further hops of a tick that took the followed master's detour (R468, R475). -/
def detourHops (t : TickFrame) (s : State) : Nat :=
  if t.detour && (detourSide s (ownBar s)).isSome then ((followed s).map (·.dP)).getD 0 else 0

/-- The tick waits as a line to trigger (R136, R468). -/
def tickQueued (t : TickFrame) (s : State) : State :=
  setHop (t.hop.toNat + 1 + detourHops t s) { s with lt := { s.lt with
    ticks := s.lt.ticks ++ [⟨t.line.toNat, t.deferred, t.encz, t.merge.toNat, t.hop.toNat + 1 + detourHops t s,
      ((((10 * s.now : Nat) : Int) + max 0 (96 * detourHops t s - t.excess) + 9) / 10).toNat⟩]
    drainDefer := s.lt.drain } }

/-- A fresh tick triggers a line, and a HANDOVER tick starts the new holder (R463, R468, R469). -/
theorem takeTick_eq (t : TickFrame) (s : State) : takeTick t s =
    if (tickNoted t s).star.encMaster = true ∨ tickFresh t (tickNoted t s) = false then tickNoted t s
    else if t.handover = true ∧ (tickQueued t (tickNoted t s)).star.granted = true then
      startRole (lineAdd t.line.toNat 1) (tickQueued t (tickNoted t s))
    else tickQueued t (tickNoted t s) := by
  unfold takeTick
  extract_lets line past noted fresh further hop due tick lt waiting
  have past_eq : past = s.star.lastTick.all fun n => linePast t.line.toNat n := by
    unfold past
    cases s.star.lastTick with
    | none => rfl
    | some n => rw [Option.all_some]
  have fresh_eq : fresh = tickFresh t noted := by
    unfold fresh tickFresh
    cases lastTaken noted with
    | none => rfl
    | some n => rw [Option.all_some]
  have noted_eq : noted = tickNoted t s := by
    unfold noted
    rw [past_eq]
    rfl
  have waiting_eq : waiting = tickQueued t noted := rfl
  rw [fresh_eq, waiting_eq, noted_eq]
/-- A tick that is not past the last one taken, or that reaches the encoder master, is only noted (R469). -/
theorem takeTick_stale {t : TickFrame} {s : State} (h : s.star.encMaster = true ∨ tickFresh t s = false) :
    takeTick t s = tickNoted t s := by
  rw [takeTick_eq]
  exact if_pos h

theorem tickQueued_star (t : TickFrame) (s : State) :
    (tickQueued t s).star = { s.star with hop := t.hop.toNat + 1 + detourHops t s } := by
  rw [tickQueued, setHop_changes]

theorem tickQueued_out (t : TickFrame) (s : State) : (tickQueued t s).out = s.out := by
  rw [tickQueued, setHop_changes]

theorem tickQueued_lt (t : TickFrame) (s : State) : (tickQueued t s).lt = { s.lt with
    ticks := s.lt.ticks ++ [⟨t.line.toNat, t.deferred, t.encz, t.merge.toNat, t.hop.toNat + 1 + detourHops t s,
      ((((10 * s.now : Nat) : Int) + max 0 (96 * detourHops t s - t.excess) + 9) / 10).toNat⟩]
    drainDefer := s.lt.drain } := by
  rw [tickQueued, setHop_changes]

theorem detourHops_direct {t : TickFrame} (h : t.detour = false) (s : State) : detourHops t s = 0 := by
  rw [detourHops, h]
  rfl

section
variable {t : TickFrame} {s : State} (he : s.star.encMaster = false) (hf : tickFresh t s = true)
include he hf

theorem tickNoted_fresh : ¬((tickNoted t s).star.encMaster = true ∨ tickFresh t (tickNoted t s) = false) := by
  rw [show tickFresh t (tickNoted t s) = tickFresh t s from rfl, hf]
  simp [tickNoted, he]

theorem takeTick_triggers (hh : t.handover = false ∨ s.star.granted = false) :
    takeTick t s = tickQueued t (tickNoted t s) := by
  rw [takeTick_eq, if_neg (tickNoted_fresh he hf), tickQueued_star, if_neg]
  rintro ⟨handover, granted⟩
  rcases hh with h | h
  · exact Bool.noConfusion (h.symm.trans handover)
  · exact Bool.noConfusion (h.symm.trans granted)

/-- A HANDOVER tick starts the new holder one line past it (R463). -/
theorem takeTick_starts (hh : t.handover = true) (hg : s.star.granted = true) :
    takeTick t s = startRole (lineAdd t.line.toNat 1) (tickQueued t (tickNoted t s)) := by
  rw [takeTick_eq, if_neg (tickNoted_fresh he hf), tickQueued_star, if_pos ⟨hh, hg⟩]

end

theorem takeTick_out (t : TickFrame) (s : State) : (takeTick t s).out = s.out := by
  rw [takeTick_eq]
  split
  · rfl
  · split
    · rw [startRole_changes]
      exact tickQueued_out ..
    · exact tickQueued_out ..

/-- An active port forwards a tick as its way goes on, a bad CRC counted before (R449, R467, R476). -/
def tickForwarded (side : Side) (t : TickFrame) (s : State) : State :=
  (tickOut side t s).elim (countCrc side t.crcOk s) fun d => relayTick side t d (countCrc side t.crcOk s)

theorem tickForwarded_star (side : Side) (t : TickFrame) (s : State) :
    (tickForwarded side t s).star = (countCrc side t.crcOk s).star := by
  rw [tickForwarded]
  cases tickOut side t s with
  | none => rfl
  | some d => exact relayTick_star ..

theorem tickForwarded_lt (side : Side) (t : TickFrame) (s : State) : (tickForwarded side t s).lt = s.lt := by
  rw [tickForwarded]
  cases tickOut side t s with
  | none => exact countCrc_lt ..
  | some d => exact (relayTick_lt ..).trans (countCrc_lt ..)

/-- A good tick of the own bar is taken by a device that may hold roles (R468). -/
def tickHeeded (t : TickFrame) (s : State) : State :=
  if t.crcOk = true ∧ t.eof = true ∧ t.bar.toNat = ownBar s ∧ mayHold s = true then takeTick t s else s

theorem tickHeeded_out (t : TickFrame) (s : State) : (tickHeeded t s).out = s.out := by
  unfold tickHeeded
  split
  · exact takeTick_out t s
  · rfl

section
variable {s : State} {side : Side} {t : TickFrame}

theorem execTickReceive_down (hu : (portAt s side).up = false) (h : t.crcOk = true ∨ portActive s side = false) :
    execTickReceive side t s = .next s := by
  rw [execTickReceive, countCrc_idle h]
  exact if_pos hu

theorem execTickReceive_passive (hu : (portAt s side).up = true) (ha : portActive s side = false) :
    execTickReceive side t s = .next (relayTick side t t.detour s) := by
  rw [execTickReceive, countCrc_idle (.inr ha)]
  exact (if_neg (by simp [hu])).trans (if_pos ha)

theorem execTickReceive_active (hu : (portAt s side).up = true) (ha : portActive s side = true) :
    execTickReceive side t s = .next (tickHeeded t (tickForwarded side t s)) := by
  have up : ¬(portAt (countCrc side t.crcOk s) side).up = false := by simp [countCrc_up, hu]
  have active : ¬portActive (countCrc side t.crcOk s) side = false := by simp [countCrc_portActive, ha]
  rw [execTickReceive, tickForwarded]
  dsimp only
  rw [if_neg up, if_neg active, countCrc_tickOut]
  cases tickOut side t s <;> exact (apply_ite Host.Outcome.next _ _ _).symm

theorem tickForwarded_none (ho : tickOut side t s = none) (hc : t.crcOk = true) : tickForwarded side t s = s := by
  rw [tickForwarded, ho, hc]
  exact countCrc_good side s

end

/-! ### The statement -/

/-- Settles O47: each clause by the rule of its command above. -/
theorem rolesTicksAndHandover : Obligations.RolesTicksAndHandover := by
  unfold Obligations.RolesTicksAndHandover
  refine ⟨?repeats, ?grants, ?granted, ?again, ?other, ?elsewhere, ?notFollowed, ?unheeded,
    fun s n hg ha hl => ⟨_, execHandoverTimeout_starts hg ha hl, ?_⟩,
    fun s hg ha hl => execHandoverTimeout_waits hg ha hl, fun s hg ha => ⟨_, execMemberLineWait_starts hg ha, ?_⟩,
    fun s => ⟨fun h => if_pos h, fun h => if_pos h⟩, ?passive, ?forwards, fun s side t => tickOut_eq side t s,
    ?triggers, ?starts, ?stale, ?foreign, ?bad, fun s side t hu h => execTickReceive_down hu h⟩
  case repeats =>
    intro s hm hh ho hg
    refine ⟨_, execRoleTimer_repeats hm hh ho hg, ?_⟩
    rw [sendRing_changes, sendRing_out]
    exact ⟨rfl, by simp [noteHolder, ho], rfl, rfl⟩
  case grants =>
    intro s hm hh
    refine ⟨_, execRoleTimer_sends hm hh, ?_, fun b hb => sendRoles_holderOf (grantRoles_holderOf hm hb) _,
      fun ⟨b, hb, changed⟩ => ?_⟩
    · exact (congrArg Tenure.groupMaster ((sendRoles_tenure ..).trans (grantRoles_tenure s))).trans hm
    · have regrants : regranted s ≠ [] :=
        List.ne_nil_of_mem (List.mem_filter.mpr ⟨hb, bne_iff_ne.mpr changed⟩)
      rw [sendRoles_epoch, grantRoles_epoch hm regrants]
  case granted =>
    intro s side hd e bar holder a hu ha hg hp hi ho hf hs hb hm hn hown he hgr hdup
    obtain ⟨o, taken⟩ := FromOther.role_followed ⟨⟨hu, ha, hg⟩, hp, hi, ho⟩ hf hs e bar holder
    have named : namedHolder holder = some (ownId s) := by rw [namedHolder, hn, ← hown]; rfl
    rw [applyRole_granted (s := noteEpoch e.toNat (withOut o s)) hb hm named he hgr hdup, named] at taken
    refine ⟨_, taken, rfl, ?_, rfl⟩
    rw [← namedHolder, named]
    rfl
  case again =>
    intro s side hd e bar holder a hu ha hg hp hi ho hf hs hb hm hn hown hr
    obtain ⟨o, taken⟩ := FromOther.role_followed ⟨⟨hu, ha, hg⟩, hp, hi, ho⟩ hf hs e bar holder
    have named : namedHolder holder = some (ownId s) := by rw [namedHolder, hn, ← hown]; rfl
    rw [applyRole_again (s := noteEpoch e.toNat (withOut o s)) hb hm named hr] at taken
    exact ⟨_, taken, rfl, rfl, rfl, named, rfl, rfl⟩
  case other =>
    intro s side hd e bar holder a hu ha hg hp hi ho hf hs hb hm hn
    obtain ⟨o, taken⟩ := FromOther.role_followed ⟨⟨hu, ha, hg⟩, hp, hi, ho⟩ hf hs e bar holder
    have other : namedHolder holder ≠ some (ownId s) := by
      rw [namedHolder]
      rcases hn with hn | hn
      · simp [hn]
      · simp [hn]
    rw [applyRole_other (s := noteEpoch e.toNat (withOut o s)) hb hm other] at taken
    exact ⟨_, taken, rfl, rfl, rfl, rfl, rfl, rfl, rfl⟩
  case elsewhere =>
    intro s side hd e bar holder a hu ha hg hp hi ho hf hs hb
    obtain ⟨o, taken⟩ := FromOther.role_followed ⟨⟨hu, ha, hg⟩, hp, hi, ho⟩ hf hs e bar holder
    rw [applyRole_elsewhere (s := noteEpoch e.toNat (withOut o s)) hb] at taken
    exact ⟨_, taken, rfl, rfl, rfl⟩
  case notFollowed =>
    intro s side hd e bar holder hu ha hg hp hi ho hf
    obtain ⟨o, taken⟩ := FromOther.role_noted ⟨⟨hu, ha, hg⟩, hp, hi, ho⟩ hf e bar holder
    exact ⟨_, taken, rfl, rfl⟩
  case unheeded =>
    intro s side hd e bar holder hu ha hg k
    obtain ⟨o, taken⟩ := GoodFrame.role_unheeded ⟨hu, ha, hg⟩ k e bar holder
    exact ⟨_, taken, rfl, rfl⟩
  · rw [startRole_changes]
    exact ⟨rfl, rfl, rfl, rfl, rfl, rfl, rfl⟩
  · rw [startRole_changes, lineAfterWait]
    refine ⟨?_, rfl, rfl, rfl, rfl, rfl, rfl⟩
    cases s.star.bestLast <;> rfl
  case passive =>
    intro s side t hu ha ho
    obtain ⟨low, high⟩ := tickRelayed_excess_passive ha t t.detour
    exact ⟨_, tickRelayed side t t.detour s, execTickReceive_passive hu ha, relayTick_out ho t t.detour,
      rfl, rfl, rfl, rfl, rfl, rfl, rfl, rfl, rfl, rfl, low, high, relayTick_lt .., relayTick_star ..⟩
  case forwards =>
    intro s side t d hu ha hout ho
    have up := (countCrc_up side t.crcOk s (otherSide side)).trans ho
    have late := tickRelayed_excess_active ((countCrc_portActive side t.crcOk s side).trans ha) t d
    rw [countCrc_delay] at late
    refine ⟨_, tickRelayed side t d (countCrc side t.crcOk s), execTickReceive_active hu ha, ?_,
      rfl, rfl, rfl, rfl, rfl, rfl, rfl, rfl, rfl, rfl, late⟩
    rw [tickHeeded_out, tickForwarded, hout, Option.elim_some, relayTick_out up, countCrc_changes]
  case triggers =>
    intro s side t hu hc ha hout heof hb hm he hf hh hdet
    have next := execTickReceive_active (t := t) hu ha
    rw [tickForwarded_none hout hc, tickHeeded, if_pos ⟨hc, heof, hb, hm⟩, takeTick_triggers he hf hh] at next
    refine ⟨_, next, ?_, ?_, tickQueued_out ..⟩
    · rw [tickQueued_lt, detourHops_direct hdet]
      simp [tickNoted]
    · rw [tickQueued_star, detourHops_direct hdet]
      rfl
  case starts =>
    intro s side t hu hc ha hout heof hb hm he hf hh hg
    have next := execTickReceive_active (t := t) hu ha
    rw [tickForwarded_none hout hc, tickHeeded, if_pos ⟨hc, heof, hb, hm⟩, takeTick_starts he hf hh hg] at next
    refine ⟨_, next, ?_⟩
    rw [startRole_changes, tickQueued_lt]
    refine ⟨rfl, rfl, rfl, rfl, ?_⟩
    simp [tickNoted]
  case stale =>
    intro s side t n hu hc ha hout he hold
    have stale : s.star.encMaster = true ∨ tickFresh t s = false := by
      refine he.imp_right fun last => ?_
      rw [tickFresh, last, Option.all_some]
      rcases hold last with h | h
      · rw [h, Bool.false_and]
      · rw [h, bne_self_eq_false, Bool.and_false]
    have next := execTickReceive_active (t := t) hu ha
    rw [tickForwarded_none hout hc, tickHeeded, takeTick_stale stale] at next
    refine ⟨_, next, ?_⟩
    split <;> exact ⟨rfl, rfl, rfl⟩
  case foreign =>
    intro s side t hu hc ha hout h
    have unheeded : ¬(t.crcOk = true ∧ t.eof = true ∧ t.bar.toNat = ownBar s ∧ mayHold s = true) := by
      rintro ⟨-, eof, bar, hold⟩
      rcases h with h | h | h
      · exact Bool.noConfusion (h.symm.trans eof)
      · exact h bar
      · exact Bool.noConfusion (h.symm.trans hold)
    have next := execTickReceive_active (t := t) hu ha
    rwa [tickForwarded_none hout hc, tickHeeded, if_neg unheeded] at next
  case bad =>
    intro s side t hu hc ha
    have next := execTickReceive_active (t := t) hu ha
    rw [tickHeeded, if_neg (by simp [hc])] at next
    have star := tickForwarded_star side t s
    rw [hc] at star
    refine ⟨_, next, (congrArg Port.crcErr (portAt_congr star side)).trans (countCrc_bad ha), tickForwarded_lt .., ?_⟩
    rw [star, countCrc_changes]

end Sys2Proof.Machine
